-- ==== Sys2Proof/Word.lean ====
section
/-!
DEFINITION. The words the model is built of: bytes and the fixed widths the manual names (R10, R11).
-/
namespace Sys2Proof

/-- A byte is 8 bits (R7). -/
abbrev Byte := BitVec 8

/-- A 32-bit field: masks, tags, steps, counter values. -/
abbrev W32 := BitVec 32

/-- A 64-bit field: results, seeds, site-time stamps in registers. -/
abbrev W64 := BitVec 64

end Sys2Proof
end

