-- ==== Sys2Proof/Syntax.lean ====
section
/-!
DEFINITION. The commands: one constructor of `Instr` for every row of spec/opcode_table.json, with the row's operands.
A queue opcode's constructor holds its submission header (R142) and its decoded operands, the copy of its extended
block included (R144). The other rows hold what the event brings with it from outside: the value written, the packet
or datagram received, the quantities a sensor measured.
-/
namespace Sys2Proof

/-- The submission queue an entry came from (R173). -/
inductive Origin where
  /-- Submission queue `sq` of bay `b`. -/
  | bay (b sq : Nat)
  /-- The control queue of the physical function. -/
  | control
  /-- The urgent queue. -/
  | urgent
  deriving DecidableEq, Repr, Inhabited

/-- The header of a submission entry (Table 6.1), decoded, with the number its admission gave it (R154). -/
structure Hdr where
  org : Origin
  adm : Nat
  fenceBefore : Bool
  fenceAfter : Bool
  suppress : Bool
  inTxn : Bool
  prio : Nat
  tag : W32
  /-- WAIT_CTR and THRESH when WAIT_EN is set. -/
  wait : Option (Nat × W32)
  /-- SIGNAL_CTR when SIGNAL_EN is set. -/
  signal : Option Nat
  deriving DecidableEq, Repr, Inhabited

/-- The MATMUL extended operand block (Tables 3.3 and 3.4). -/
structure MatmulBlk where
  aAddr : Nat
  bAddr : Nat
  cAddr : Nat
  cinAddr : Nat
  rescaleAddr : Nat
  statsAddr : Nat
  m : Nat
  n : Nat
  k : Nat
  lda : Nat
  ldb : Nat
  ldc : Nat
  ldcin : Nat
  mask : W32
  opfmt : Nat
  resfmt : Nat
  rnd : Nat
  aT : Bool
  bT : Bool
  accIn : Bool
  rescale : Bool
  stats : Bool
  statsRunning : Bool
  stoch : Bool
  tensorId : W32
  step : W32
  seed : W64
  deriving DecidableEq, Repr, Inhabited

/-- The KERNEL_LAUNCH block (Table 7.5). -/
structure KernelBlk where
  imageAddr : Nat
  imageLen : Nat
  mask : W32
  entry : Nat
  argAddr : Nat
  seed : W64
  step : W32
  tensorId : W32
  cycleLimit : Nat
  policy : Nat
  readRanges : List (Nat × Nat)
  writeRanges : List (Nat × Nat)
  deriving DecidableEq, Repr, Inhabited

/-- QUEUE_CREATE operands (Table 6.4). -/
structure QueueOps where
  ringAddr : Nat
  qtype : Nat
  qid : Nat
  log2Size : Nat
  cqid : Nat
  vector : Nat
  coalCount : Nat
  weight : Nat
  coalTime : Nat
  deriving DecidableEq, Repr, Inhabited

/-- MEM_MAP operands (Table 7.3). -/
structure MemMapOps where
  addr : Nat
  dpa : Nat
  count : Nat
  op : Nat
  size : Nat
  attr : Nat
  deriving DecidableEq, Repr, Inhabited

/-- QUANT_STATS operands (Table 7.4). -/
structure StatsOps where
  src : Nat
  dst : Nat
  rows : Nat
  cols : Nat
  ld : Nat
  fmt : Nat
  running : Bool
  deriving DecidableEq, Repr, Inhabited

/-- CONVERT operands (Table 7.4). -/
structure ConvertOps where
  src : Nat
  dst : Nat
  count : Nat
  srcFmt : Nat
  dstFmt : Nat
  stoch : Bool
  tensorId : W32
  step : W32
  seed : W64
  deriving DecidableEq, Repr, Inhabited

/-- RNG_FILL operands (Table 7.4). -/
structure RngOps where
  dst : Nat
  count : Nat
  fmt : Nat
  dist : Nat
  stoch : Bool
  tensorId : W32
  step : W32
  seed : W64
  a : W32
  b : W32
  deriving DecidableEq, Repr, Inhabited

/-- One entry of a STEP_GATHER block (Table 9.3). -/
structure GatherEntry where
  tensorId : W32
  fmt : Nat
  reuse : Bool
  firstRow : Nat
  rowCount : Nat
  dst : Nat
  dstStride : Nat
  mcast : W32
  deriving DecidableEq, Repr, Inhabited

/-- The shared operand layout of the data collectives (R183). -/
structure CollOps where
  src : Nat
  dst : Nat
  count : Nat
  group : Nat
  op : Nat
  fmt : Nat
  algo : Nat
  root : Nat
  rstride : Nat
  deriving DecidableEq, Repr, Inhabited

/-- The collective-group block (Table 10.6). -/
structure GroupBlk where
  members : Nat
  thisMember : Nat
  mask : W32
  treeMax : Nat
  chainAbove : Nat
  silentMs : Nat
  joinMs : Nat
  nodes : List Nat
  deriving DecidableEq, Repr, Inhabited

/-- The triggered descriptor (Table 10.8). -/
structure TrigBlk where
  kind : Nat
  issuer : Nat
  waitCtr : Nat
  rearm : Bool
  signalEn : Bool
  remoteEn : Bool
  thresh : W32
  stride : W32
  signalCtr : Nat
  remoteCtr : Nat
  group : Nat
  src : Nat
  dst : Nat
  length : Nat
  vc : Nat
  copcode : Nat
  op : Nat
  fmt : Nat
  algo : Nat
  root : Nat
  rstride : Nat
  deriving DecidableEq, Repr, Inhabited

/-- One peer of a SCARF_JOIN block. -/
structure Peer where
  addr : Nat
  port : Nat
  deriving DecidableEq, Repr, Inhabited

/-- The SCARF_JOIN block (Table 11.2). -/
structure JoinBlk where
  siteMask : BitVec 16
  thisSite : Nat
  members : Nat
  thisMember : Nat
  farPorts : Nat
  h : Nat
  step0 : W32
  t0 : Nat
  periodNs : Nat
  graceUs : Nat
  takeoverUs : Nat
  digestUs : Nat
  rtxGib : Nat
  recvGib : Nat
  outerLr : W32
  outerMu : W32
  stale : List W32
  noncePrefix : W64
  landAddr : Nat
  landLen : Nat
  udpPort : Nat
  srcIp : Nat
  mac0 : Nat
  mac1 : Nat
  peers : List Peer
  deriving DecidableEq, Repr, Inhabited

/-- The CKPT_CUT block (Table 13.1). -/
structure CutBlk where
  layoutOnly : Bool
  kerfMaster : Nat
  kerfM1 : Nat
  kerfM2 : Nat
  kerfOmom : Nat
  deriving DecidableEq, Repr, Inhabited

/-- CIPHER_RUN operands (Table 7.11). -/
structure CipherOps where
  src : Nat
  dst : Nat
  length : Nat
  slot : Nat
  decrypt : Bool
  aadLen : Nat
  aadAddr : Nat
  auxAddr : Nat
  deriving DecidableEq, Repr, Inhabited

/-- BIND_SHARES operands (Table 7.10). -/
structure ShareOps where
  ftz : Bool
  slotLimit : Nat
  weights : List Nat
  farShare : Nat
  deriving DecidableEq, Repr, Inhabited

/-- A general core, named by logical cluster and physical core number (Table 1.7). -/
structure CoreRef where
  lc : Nat
  core : Nat
  deriving DecidableEq, Repr, Inhabited

/-- Bytes that software wrote into host memory before the doorbell that publishes them (R145, R379). -/
structure HostWrite where
  iova : Nat
  data : List Byte
  deriving DecidableEq, Repr, Inhabited

/-- A function of the host link: the physical one, or virtual function b + 1 of bay b (R376). -/
inductive Func where
  | pf
  | vf (b : Nat)
  deriving DecidableEq, Repr, Inhabited

/-- The function that a host's write reaches; or a request of a kind that the function does not support, whatever its
address and data (R377). -/
inductive HostReq where
  | pf
  | vf (b : Nat)
  | unsupported (fn : Func)
  deriving DecidableEq, Repr, Inhabited

/-- A fabric packet (Table 10.3): its header fields and payload. -/
structure Packet where
  dnode : Nat
  snode : Nat
  vc : Nat
  typ : Nat
  bay : Nat
  group : Nat
  hops : Nat
  offset : Nat
  tag : Nat
  data : List Byte
  deriving DecidableEq, Repr, Inhabited

/-- A fabric flit as received (Tables 10.1 and 10.2): whether every codeword decoded, the header and 40 slots. -/
structure Flit where
  decodes : Bool
  corrected : Nat
  kind : Nat
  fseq : Nat
  ackseq : Nat
  crvc : Nat
  crcount : Nat
  crc : W32
  payload : List Byte
  deriving DecidableEq, Repr, Inhabited

/-- A partial or final value of a collective, sent by a peer (R266): the k-th collective of the group, the positions
`lo` to `hi` (exclusive) whose contributions it holds, the chunk it covers, the sending member and its dispatch stamp
(R272), and the virtual channel (Table 10.7). -/
structure CollSeg where
  bay : Nat
  group : Nat
  index : Nat
  member : Nat
  vc : Nat
  opcode : Nat
  ops : CollOps
  final : Bool
  lo : Nat
  hi : Nat
  first : Nat
  elems : List Nat
  stamp : Nat
  deriving DecidableEq, Repr, Inhabited

/-- Gathered rows on their way (R229): the k-th gather of the step, the entry, the sending member, how many entries its
command has, the virtual channel, and the rows' stored bytes. With no rows it only announces the entry (R227, log 30). -/
structure GatherSeg where
  bay : Nat
  step : W32
  index : Nat
  entry : Nat
  want : GatherEntry
  member : Nat
  count : Nat
  vc : Nat
  firstRow : Nat
  rows : List (List Byte)
  deriving DecidableEq, Repr, Inhabited

/-- A group join packet (R262), with the node that sent it. -/
structure JoinPacket where
  bay : Nat
  group : Nat
  member : Nat
  snode : Nat
  versions : List W64
  digest : List Byte
  deriving DecidableEq, Repr, Inhabited

/-- A Scarf datagram delivered to the bay that joined with its address (Tables 11.4 and 11.5). `pre` is the sender's
NONCE_PREFIX, which a control datagram's format does not carry (log 53). -/
structure Dgram where
  pre : W64
  srcSite : Nat
  dstSite : Nat
  member : Nat
  frag : Nat
  seq : W32
  epoch : W32
  fragCount : Nat
  sent : Nat
  echo : Nat
  payload : List Byte
  tag : List Byte
  deriving DecidableEq, Repr, Inhabited

/-- A frame received on a far port, as the filter sees it (R280, R383, R384). -/
structure FarFrame where
  port : Nat
  dmac : Nat
  etherType : Nat
  pause : Bool
  tagged : Bool
  nextHeader : Nat
  dstIp : Nat
  dstPort : Nat
  checksumOk : Bool
  deriving DecidableEq, Repr, Inhabited

/-- A speaker's relay over fabric VC0 (R276, R286): a member's completeness report, a vector, or a ledger entry. -/
inductive MgmtMsg where
  | report (member : Nat) (epoch : W32) (hold0 hold1 hold2 : BitVec 16)
  | vector (epoch : W32) (payload : List Byte)
  | entry (epoch : W32) (payload : List Byte)
  deriving DecidableEq, Repr, Inhabited

/-- One unit's reading at a seasoning sample (Table 14.5). -/
structure SeasonReading where
  kind : Nat
  unit : Nat
  slack : Nat
  corrected : Nat
  uncorr : Nat
  residue : Nat
  deriving DecidableEq, Repr, Inhabited

/-- The place of an uncorrectable line, and the kind of data it holds (Table 14.4). -/
inductive LineKind where
  | operand
  | state (cls : Nat)
  | base
  | outer
  | ownDelta
  | otherDelta
  | kerf
  | reserve
  | other
  deriving DecidableEq, Repr, Inhabited

/-- A unit that a boot stage found to fail (Table 15.2). -/
inductive BistFail where
  | cube (cluster engine cube : Nat)
  | core (cluster core : Nat)
  | bank (cluster bank : Nat)
  | cluster (cluster : Nat)
  | dramRow (unit : Nat)
  | fatal (unitKind : Nat)
  deriving DecidableEq, Repr, Inhabited

/-- A time-of-day frame (Table 16.4) as its 20 bytes. -/
abbrev TodBytes := List Byte

/-- What requests an orderly power-down (R403). -/
inductive PowerReq where
  | register (value : W32)
  | pldm
  deriving DecidableEq, Repr, Inhabited

/-- A condition of Table 12.4 with its alarm code. -/
abbrev AlarmCode := Nat

/-- The path of an entry fetch: the arbitration between bays, or the control path (R154). -/
inductive FetchPath where
  | bays
  | control
  deriving DecidableEq, Repr, Inhabited

/-- A completion queue (R155). -/
inductive CqRef where
  | bay (b cq : Nat)
  | control
  | urgent
  deriving DecidableEq, Repr, Inhabited

/-- A PLL by family (R410). -/
inductive Pll where
  | system
  | host
  | fabricPort (p : Nat)
  | farPort (p : Nat)
  deriving DecidableEq, Repr, Inhabited

/-- Width of a counter write (R432). -/
inductive CtrWrite where
  | full (v : W64)
  | low (v : W32)
  | high (v : W32)
  deriving DecidableEq, Repr, Inhabited

/-- The commands of the block: the rows of spec/opcode_table.json. -/
inductive Instr where
  -- Admin (Table 7.1)
  | nop (h : Hdr)
  | identify (h : Hdr) (bay dst : Nat)
  | getLog (h : Hdr) (log : Nat) (clear : Bool) (bay dst length offset : Nat)
  | queueCreate (h : Hdr) (q : QueueOps)
  | queueDelete (h : Hdr) (qtype qid : Nat)
  | counterSet (h : Hdr) (ctr : Nat) (add : Bool) (clearErr : Bool) (value : W32)
  -- Memory (Table 7.3)
  | memCopy (h : Hdr) (src dst length : Nat)
  | memFill (h : Hdr) (dst length : Nat) (pattern : W64)
  | memMap (h : Hdr) (o : MemMapOps)
  | memPlace (h : Hdr) (addr length dest : Nat)
  -- Compute (Table 7.4)
  | kernelLaunch (h : Hdr) (k : KernelBlk)
  | matmul (h : Hdr) (m : MatmulBlk)
  | quantStats (h : Hdr) (o : StatsOps)
  | convert (h : Hdr) (o : ConvertOps)
  | rngFill (h : Hdr) (o : RngOps)
  -- Training (Table 7.6)
  | stepGather (h : Hdr) (step : W32) (entries : List GatherEntry)
  | stepUpdate (h : Hdr) (hpAddr : Nat) (step : W32) (clip stoch : Bool)
  | updateArm (h : Hdr) (hpAddr : Nat) (step : W32) (group : Nat) (clip : Bool)
  | updateDisarm (h : Hdr) (step : W32)
  | normClip (h : Hdr) (group : Nat) (step : W32) (maxNorm : W32)
  | shardMapLoad (h : Hdr) (addr len : Nat)
  -- Collectives (Table 7.7)
  | collAllreduce (h : Hdr) (o : CollOps)
  | collAllgather (h : Hdr) (o : CollOps)
  | collReduceScatter (h : Hdr) (o : CollOps)
  | collBroadcast (h : Hdr) (o : CollOps)
  | collGroupCreate (h : Hdr) (group : Nat) (blk : GroupBlk)
  | collGroupDestroy (h : Hdr) (group : Nat)
  | triggerArm (h : Hdr) (t : TrigBlk)
  | triggerDisarm (h : Hdr) (handle : Nat)
  -- Far exchange (Table 7.8)
  | scarfJoin (h : Hdr) (blk : JoinBlk) (group slot : Nat)
  | scarfLeave (h : Hdr)
  | scarfEpochClose (h : Hdr) (epoch step : W32)
  | scarfCancel (h : Hdr) (epoch : W32) (site : Nat) (seq : W32)
  | scarfCatchup (h : Hdr) (site : Nat)
  -- Checkpoint (Table 7.9)
  | ckptCut (h : Hdr) (cutId : W32) (blk : CutBlk)
  | ckptDrain (h : Hdr) (dst : Nat) (cutId : W32) (path slot : Nat)
  | ckptRelease (h : Hdr) (cutId : W32)
  | ckptRestore (h : Hdr) (manifest src slot : Nat)
  | ckptVerify (h : Hdr) (manifest src slot : Nat)
  | exportStream (h : Hdr) (dst maxBytes : Nat) (fromStep : W32)
  -- Binding (Table 7.10)
  | txnBegin (h : Hdr) (bay : Nat)
  | txnCommit (h : Hdr) (bay drainUs : Nat)
  | txnRollback (h : Hdr) (bay : Nat)
  | bindCluster (h : Hdr) (bay : Nat) (unbind : Bool) (mask : W32)
  | bindMemory (h : Hdr) (bay : Nat) (unbind : Bool) (first count : Nat)
  | bindShares (h : Hdr) (bay : Nat) (o : ShareOps)
  | bayReset (h : Hdr) (bay : Nat) (scrub : Bool)
  -- Security (Table 7.11)
  | keyLoad (h : Hdr) (slot mode addr : Nat)
  | keyErase (h : Hdr) (slot : Nat)
  | cipherRun (h : Hdr) (o : CipherOps)
  | digestRun (h : Hdr) (src dst length : Nat)
  | entropyRead (h : Hdr) (dst length : Nat)
  | licenceInstall (h : Hdr) (addr len : Nat)
  -- Diagnostics (Table 7.12)
  | telemetryRead (h : Hdr) (window dst length : Nat)
  | seasonReport (h : Hdr) (dst length : Nat)
  | floorplanRead (h : Hdr) (dst length : Nat)
  | linkTest (h : Hdr) (port pattern durationMs : Nat)
  -- Urgent (R194)
  | haltBay (h : Hdr) (bay : Nat)
  | evictBay (h : Hdr) (bay : Nat) (cutId : W32)
  | resumeBay (h : Hdr) (bay : Nat)
  -- Xtenon instructions and core events (R101 to R108)
  | tidyCvt (c : CoreRef) (vd vs2 : Nat)
  | tidyWid (c : CoreRef) (vd vs2 : Nat)
  | tidyStat (c : CoreRef) (vd vs2 : Nat)
  | tidyRsc (c : CoreRef) (vd vs2 rs1 : Nat)
  | tidyQblk (c : CoreRef) (vd vs2 : Nat)
  | tidyDrop (c : CoreRef) (vd vs2 rs1 : Nat)
  | tidyGth (c : CoreRef) (vd vs2 : Nat)
  | tidySct (c : CoreRef) (vs3 vs2 : Nat)
  | grainGet (c : CoreRef) (vd rs1 : Nat)
  | tidyDma (c : CoreRef) (rs1 rs2 : Nat)
  | xtenonCsrWrite (c : CoreRef) (csr : Nat) (value : W64)
  | kernelEcallExit (c : CoreRef)
  | coreException (c : CoreRef) (cause : Nat) (pc : W64)
  | cycleLimit (adm : Nat)
  | dmaDescriptorDone (c : CoreRef) (chan : Nat)
  -- Doorbells and registers (R152, R422 to R433)
  | submissionDoorbell (bay q : Nat) (value : W32) (written : List HostWrite)
  | completionDoorbell (bay q : Nat) (value : W32)
  | ctlSqTail (value : W32) (written : List HostWrite)
  | ctlCqHead (value : W32)
  | urgSqTail (value : W32)
  | urgCqHead (value : W32)
  | eventCounterWrite (bay ctr : Nat) (w : CtrWrite)
  | intMaskWrite (value : W32)
  | eventMaskWrite (bay : Nat) (value : W32)
  | coreReset (value : W32)
  | clusterReset (value : W32)
  | deviceReset (value : W32)
  | powerDown (req : PowerReq)
  | controlPairEnable (value : W32)
  | controlPairDisable (value : W32)
  | adminPairEnable (bay : Nat) (value : W32)
  | adminPairDisable (bay : Nat) (value : W32)
  | urgentQueueEnable (value : W32)
  | urgentQueueDisable (value : W32)
  | registerWrite (fn : HostReq) (offset : Nat) (data : List Byte)
  | apertureRead (bay offset length : Nat)
  | apertureWrite (bay offset : Nat) (data : List Byte)
  | vfFunctionLevelReset (bay : Nat)
  | pfFunctionLevelReset
  -- The Joiner (R154 to R163)
  | entryFetch (path : FetchPath)
  | commandDispatch (adm : Nat)
  | completionPost (cq : CqRef)
  | coalesceTimer (cq : CqRef)
  | urgentDoorbellSample
  | triggerFire (bay handle : Nat)
  -- Pegs, halts and resets in progress (R211 to R221, R419 to R421)
  | pegDrainLimit
  | pegComplete
  | bayHalted (bay : Nat)
  | haltMemoryAbsorb (bay accesses : Nat)
  | haltFlushLate (bay : Nat)
  | clusterResetAbsorb (lc : Nat)
  -- Training and checkpoint events
  | updateSegmentArrival (bay : Nat) (tensorId : W32) (elems : List Nat)
  | cutCopy (bay : Nat)
  | predictiveCut (bay : Nat)
  | evictBoundaryReached (bay : Nat)
  | evictTimeout (bay : Nat)
  -- The Scarf engine
  | epochClosePass (bay : Nat)
  | bundleGrant (bay : Nat) (seq : W32) (site : Nat)
  | bundleLanding (bay site : Nat) (seq : W32)
  | fragment (bay port : Nat) (d : Dgram)
  | sack (bay port : Nat) (d : Dgram)
  | admissionVector (bay port : Nat) (d : Dgram)
  | ledgerEntry (bay port : Nat) (d : Dgram)
  | digest (bay port : Nat) (d : Dgram)
  | catchupRequest (bay port : Nat) (d : Dgram)
  | catchupData (bay port : Nat) (d : Dgram)
  | controlAcknowledgement (bay port : Nat) (d : Dgram)
  | hello (bay port : Nat) (d : Dgram)
  | joinHelloTimeout (bay : Nat)
  | ackTimer (bay site : Nat)
  | rtoExpiry (bay site : Nat)
  | peerUnreachable (bay site : Nat)
  | portHoldTimeout (bay : Nat)
  | admissionCut (bay : Nat)
  | tallySlot (bay slot : Nat)
  | ledgerFinal (bay : Nat)
  | digestSettle (bay : Nat)
  -- The site fabric
  | flitReceive (port : Nat) (f : Flit)
  | replayRequest (port : Nat) (f : Flit)
  | stompFlit (port : Nat) (f : Flit)
  | packetRelay (port : Nat) (p : Packet)
  | fabricWrite (p : Packet)
  | readRequest (p : Packet)
  | readResponse (p : Packet)
  | collectiveSegment (g : CollSeg)
  | gatherSegment (g : GatherSeg)
  | counterAdd (p : Packet)
  | groupControl (j : JoinPacket)
  | groupAbort (bay group : Nat)
  | collJoinTimeout (bay group : Nat)
  | collSilentTimeout (bay group : Nat)
  | laneLossOfLock (port lane : Nat)
  | portRetry (port : Nat) (answers : Bool) (laneErrors : List Nat)
  -- Self-repair and ageing
  | seasoningSample (readings : List SeasonReading)
  | cubeSubstitution (cluster engine cube : Nat)
  | clusterRetirement (lc : Nat)
  | coreRetirement (cluster core : Nat)
  | bankRetirement (cluster bank : Nat)
  | lineRecovery (line : Nat) (kind : LineKind) (adm : Nat) (failing : Nat) (cost : Nat)
  | historyWrite
  | patrolScrub (line : Nat)
  | dramRefresh (bay : Nat) (tier2 : Bool) (stall : Nat)
  -- Boot and firmware
  | powerInRange
  | resetN (low : Bool)
  | pciePerstN (low : Bool)
  | bootRomStage (selfTestOk : Bool)
  | imageSelection
  | nvOverlay
  | dramTraining (failedParts : List Nat) (t3Gib : List (Option Nat))
  | laneTraining (answers : List Bool) (laneErrors : List (List Nat)) (farErrors : List (List Nat))
  | bist (failures : List BistFail)
  | gcrtBroadcast (failures : List (Nat × Nat))
  | ready
  | pendingBankTimeout
  | pldmFirmwareUpdate (components : List (Nat × List Byte))
  -- Power, alarms, thermal and clocks
  | inputFault (millivolts : Nat)
  | keyAlarm (code : AlarmCode)
  | thermalTrip (sensor : Nat) (reading : Nat)
  | jtagInstructionLoad (drivesPins : Bool)
  | thermalSensorSample (readings : List Nat)
  | protectionLevelExit (die : Nat)
  | dramThermalHold (tier2 : Bool) (part : Nat)
  | dramThermalRelease (tier2 : Bool) (part : Nat)
  | pllLossOfLock (pll : Pll)
  | cxlLinkDown (link : Nat)
  -- Time and licences
  | sitePpsEdge
  | siteTodFrame (frame : TodBytes)
  | ppsHoldover
  | licenceWindowEdge
  -- Entropy and the remaining events
  | trngOutput (samples : List Bool)
  | trngHealthFailure
  | trngStartupDone
  | catchupTimeout (bay : Nat)
  | alarmConditionCleared
  | jtagTrstN
  | farFilteredFrame (f : FarFrame)
  | managementPacket (bay : Nat) (m : MgmtMsg)
  deriving DecidableEq, Repr, Inhabited

end Sys2Proof
end

