-- ==== Sys2Proof/Decode.lean ====
section
/-!
DEFINITION. The decoder of the table's words. spec/opcode_table.json gives no row of this block any bits, so no word
spells a command (log 11); the 64-byte submission entries are decoded in Machine/Operands.lean.
-/
namespace Sys2Proof

/-- The command a table word spells: none, since the table gives no row bits. -/
def decodeTableWord (_nbits _w : Nat) : Option Instr := none

end Sys2Proof
end

