-- ==== Sys2Proof/Machine/Bits.lean ====
section
/-!
DEFINITION. Byte order and bit fields: little-endian structures (R11), network-order structures (R12), fields (R10).
-/
namespace Sys2Proof.Machine

/-- The value of bytes whose first byte holds bits [7:0] (R11). -/
def leNat : List Byte → Nat
  | [] => 0
  | b :: bs => b.toNat + 256 * leNat bs

/-- `n` bytes of `v`, bits [7:0] first (R11). -/
def toLe : Nat → Nat → List Byte
  | 0, _ => []
  | n + 1, v => BitVec.ofNat 8 v :: toLe n (v / 256)

/-- The value of bytes sent most significant first (R12). -/
def beNat (bs : List Byte) : Nat := bs.foldl (fun a b => a * 256 + b.toNat) 0

/-- `n` bytes of `v`, most significant first (R12). -/
def toBe (n v : Nat) : List Byte := (toLe n v).reverse

/-- `len` bytes from `off` on. -/
def slice (bs : List Byte) (off len : Nat) : List Byte := (bs.drop off).take len

/-- The little-endian field of `len` bytes at `off`. -/
def leAt (bs : List Byte) (off len : Nat) : Nat := leNat (slice bs off len)

/-- The network-order field of `len` bytes at `off`. -/
def beAt (bs : List Byte) (off len : Nat) : Nat := beNat (slice bs off len)

/-- The byte at `off`. -/
def byteAt (bs : List Byte) (off : Nat) : Nat := leAt bs off 1

/-- Bits [hi:lo] of `v` (R10). -/
def bitsOf (v hi lo : Nat) : Nat := v / 2 ^ lo % 2 ^ (hi - lo + 1)

/-- Every byte of the range is zero. -/
def zeroAt (bs : List Byte) (off len : Nat) : Bool := (slice bs off len).all (· == 0)

def zeros (n : Nat) : List Byte := List.replicate n 0

/-- Bytes padded with zero to `n` bytes. -/
def padTo (n : Nat) (bs : List Byte) : List Byte := bs ++ zeros (n - bs.length)

/-- Bytes padded with zero to a multiple of `n`. -/
def padMul (n : Nat) (bs : List Byte) : List Byte := bs ++ zeros ((n - bs.length % n) % n)

/-- `n` divided by `d`, rounded up. -/
def ceilDiv (n d : Nat) : Nat := (n + d - 1) / d

/-- `v` rounded up to a multiple of `d`. -/
def alignUp (v d : Nat) : Nat := ceilDiv v d * d

/-- A value put before the first of a sorted list that it may precede. -/
def insertBy {α : Type} (le : α → α → Bool) (x : α) : List α → List α
  | [] => [x]
  | y :: ys => if le x y then x :: y :: ys else y :: insertBy le x ys

/-- The list in ascending order; equals keep their order. -/
def sortBy {α : Type} (le : α → α → Bool) : List α → List α
  | [] => []
  | x :: xs => insertBy le x (sortBy le xs)

/-- The list cut into groups of `n`, with `fuel` groups at most. -/
def chunksAux {α : Type} (n : Nat) : Nat → List α → List (List α)
  | 0, _ => []
  | _, [] => []
  | f + 1, l => l.take n :: chunksAux n f (l.drop n)

/-- The list cut into groups of `n`. -/
def chunks {α : Type} (n : Nat) (l : List α) : List (List α) := chunksAux n l.length l

/-- The set bits of a mask, ascending. -/
def bitsSet {w : Nat} (m : BitVec w) : List Nat := (List.range w).filter (fun i => m.getLsbD i)

/-- Step a precedes step b: serial comparison modulo 2^32 (R226). -/
def serialBefore (a b : W32) : Bool :=
  let d := (b - a).toNat
  decide (1 ≤ d ∧ d < 2 ^ 31)

/-- Bit `n` of a word when the condition holds. -/
def bit (c : Bool) (n : Nat) : Nat := if c then 2 ^ n else 0

/-- The element of a list, or the default past its end. -/
def nth {α : Type} [Inhabited α] (l : List α) (i : Nat) : α := l.getD i default

/-- The list with element `i` changed. -/
def updNth {α : Type} (l : List α) (i : Nat) (f : α → α) : List α := l.modify i f

/-- An association list read at a key. -/
def assoc {α : Type} (l : List (Nat × α)) (k : Nat) : Option α := (l.find? (·.1 == k)).map (·.2)

/-- An association list with the key set. -/
def assocSet {α : Type} (l : List (Nat × α)) (k : Nat) (v : α) : List (Nat × α) :=
  if l.any (·.1 == k) then l.map (fun p => if p.1 == k then (k, v) else p) else l ++ [(k, v)]

/-- A key removed from an association list. -/
def assocDel {α : Type} (l : List (Nat × α)) (k : Nat) : List (Nat × α) := l.filter (fun p => p.1 != k)

end Sys2Proof.Machine
end

