-- ==== Sys2Proof/Machine/Sha.lean ====
section
/-!
DEFINITION. SHA-256 and SHA-512 of FIPS 180-4, which the manual names for digests (R330, R291, R192) and for Ed25519
(R368).
-/
namespace Sys2Proof.Machine

/-- Rotation of a w-bit word to the right. -/
def rotr (w n x : Nat) : Nat := x / 2 ^ n + x % 2 ^ n * 2 ^ (w - n)

/-- The constants that differ between SHA-256 and SHA-512. -/
structure ShaFmt where
  w : Nat
  rounds : Nat
  lenBytes : Nat
  s0 : Nat × Nat × Nat
  s1 : Nat × Nat × Nat
  b0 : Nat × Nat × Nat
  b1 : Nat × Nat × Nat
  k : List Nat
  h : List Nat

/-- The primes from `n` on, given those below it; at most `need` of them. -/
def primesAux : Nat → Nat → Nat → List Nat → List Nat
  | 0, _, _, _ => []
  | f + 1, n, need, below =>
    if need = 0 then []
    else if below.all (fun d => n % d != 0) then n :: primesAux f (n + 1) (need - 1) (below ++ [n])
    else primesAux f (n + 1) need below

/-- The first `n` primes. -/
def firstPrimes (n : Nat) : List Nat := primesAux 420 2 n []

/-- The integer k-th root by bits. -/
def rootAux (k n : Nat) : Nat → Nat → Nat
  | 0, r => r
  | b + 1, r => let t := r + 2 ^ b; rootAux k n b (if t ^ k ≤ n then t else r)

/-- The first `w` bits of the fraction of the k-th root of `p`. -/
def rootFrac (k w p : Nat) : Nat := rootAux k (p * 2 ^ (k * w)) (w + 8) 0 % 2 ^ w

def sha256Fmt : ShaFmt :=
  { w := 32, rounds := 64, lenBytes := 8, s0 := (7, 18, 3), s1 := (17, 19, 10), b0 := (2, 13, 22), b1 := (6, 11, 25),
    k := (firstPrimes 64).map (rootFrac 3 32), h := (firstPrimes 8).map (rootFrac 2 32) }

def sha512Fmt : ShaFmt :=
  { w := 64, rounds := 80, lenBytes := 16, s0 := (1, 8, 7), s1 := (19, 61, 6), b0 := (28, 34, 39), b1 := (14, 18, 41),
    k := (firstPrimes 80).map (rootFrac 3 64), h := (firstPrimes 8).map (rootFrac 2 64) }

/-- The small sigma: two rotations and a shift. -/
def smallSigma (w : Nat) (c : Nat × Nat × Nat) (x : Nat) : Nat :=
  Nat.xor (Nat.xor (rotr w c.1 x) (rotr w c.2.1 x)) (x / 2 ^ c.2.2)

/-- The big sigma: three rotations. -/
def bigSigma (w : Nat) (c : Nat × Nat × Nat) (x : Nat) : Nat :=
  Nat.xor (Nat.xor (rotr w c.1 x) (rotr w c.2.1 x)) (rotr w c.2.2 x)

/-- The message schedule, kept as the last sixteen words, newest first: `n` rounds over the working variables. -/
def shaRounds (f : ShaFmt) : Nat → List Nat → List Nat → List Nat → List Nat
  | 0, _, _, v => v
  | n + 1, ks, ws, v =>
    let m := 2 ^ f.w
    match v, ks, ws with
    | [a, b, c, d, e, g, h, i], k :: ks', w :: ws' =>
      let ch := Nat.xor (Nat.land e g) (Nat.land (m - 1 - e) h)
      let maj := Nat.xor (Nat.xor (Nat.land a b) (Nat.land a c)) (Nat.land b c)
      let t1 := i + bigSigma f.w f.b1 e + ch + k + w
      let t2 := bigSigma f.w f.b0 a + maj
      let nw := (smallSigma f.w f.s1 (ws'.getD 13 0) + ws'.getD 8 0 + smallSigma f.w f.s0 (ws'.getD 0 0) + w) % m
      shaRounds f n ks' (ws' ++ [nw]) [(t1 + t2) % m, a, b, c, (d + t1) % m, e, g, h]
    | _, _, _ => v

/-- One block added to the hash value. -/
def shaBlock (f : ShaFmt) (h : List Nat) (block : List Byte) : List Nat :=
  let ws := (chunks (f.w / 8) block).map beNat
  (h.zip (shaRounds f f.rounds f.k ws h)).map (fun p => (p.1 + p.2) % 2 ^ f.w)

/-- The padded message. -/
def shaPad (f : ShaFmt) (bs : List Byte) : List Byte :=
  let blk := f.w * 2
  let one := bs ++ [0x80#8]
  let z := (blk - (one.length + f.lenBytes) % blk) % blk
  one ++ zeros z ++ toBe f.lenBytes (8 * bs.length)

def sha (f : ShaFmt) (bs : List Byte) : List Byte :=
  (((chunks (f.w * 2) (shaPad f bs)).foldl (shaBlock f) f.h).map (toBe (f.w / 8))).flatten

/-- The SHA-256 digest, 32 bytes. -/
def sha256 (bs : List Byte) : List Byte := sha sha256Fmt bs

/-- The SHA-512 digest, 64 bytes. -/
def sha512 (bs : List Byte) : List Byte := sha sha512Fmt bs

end Sys2Proof.Machine
end

