-- ==== Sys2Proof/Machine/Ed25519.lean ====
section
/-!
DEFINITION. Ed25519 verification by the rules of R367 and R368 (Table 15.7).
-/
namespace Sys2Proof.Machine

/-- p = 2^255 - 19 (R368). -/
def edP : Nat := 2 ^ 255 - 19

/-- The prime order of the base point (R368). -/
def edL : Nat := 2 ^ 252 + 27742317777372353535851937790883648493

/-- `b ^ e mod m` over the bits of e, `fuel` of them. -/
def powModAux (m : Nat) : Nat → Nat → Nat → Nat
  | 0, _, _ => 1
  | f + 1, b, e =>
    let r := powModAux m f (b * b % m) (e / 2)
    if e % 2 = 1 then r * b % m else r

def powMod (b e m : Nat) : Nat := powModAux m 256 (b % m) e

def edInv (x : Nat) : Nat := powMod x (edP - 2) edP

/-- The curve's d = -121665 / 121666. -/
def edD : Nat := (edP - 121665) * edInv 121666 % edP

/-- A point in extended coordinates. -/
structure EdPoint where
  x : Nat
  y : Nat
  z : Nat
  t : Nat
  deriving DecidableEq, Repr

def edZero : EdPoint := ⟨0, 1, 1, 0⟩

/-- Point addition in extended coordinates. -/
def edAdd (a b : EdPoint) : EdPoint :=
  let p := edP
  let aa := (a.y + p - a.x) * (b.y + p - b.x) % p
  let bb := (a.y + a.x) * (b.y + b.x) % p
  let cc := a.t * 2 * edD * b.t % p
  let dd := a.z * 2 * b.z % p
  let e := (bb + p - aa) % p
  let f := (dd + p - cc) % p
  let g := (dd + cc) % p
  let h := (bb + aa) % p
  ⟨e * f % p, g * h % p, f * g % p, e * h % p⟩

/-- The multiple of a point over the bits of the scalar. -/
def edMulAux : Nat → Nat → EdPoint → EdPoint
  | 0, _, _ => edZero
  | f + 1, k, a =>
    let r := edMulAux f (k / 2) (edAdd a a)
    if k % 2 = 1 then edAdd r a else r

def edMul (k : Nat) (a : EdPoint) : EdPoint := edMulAux 253 k a

/-- Equality of points. -/
def edEq (a b : EdPoint) : Bool :=
  decide (a.x * b.z % edP = b.x * a.z % edP) && decide (a.y * b.z % edP = b.y * a.z % edP)

/-- The point of an encoding, by the rejections of Table 15.7. -/
def edDecode (bs : List Byte) : Option EdPoint :=
  let n := leNat bs
  let y := n % 2 ^ 255
  let sign := n / 2 ^ 255 % 2
  if y ≥ edP then none
  else
    let p := edP
    let u := (y * y + p - 1) % p
    let v := (edD * y * y + 1) % p
    let x0 := u * powMod v 3 p % p * powMod (u * powMod v 7 p % p) ((p - 5) / 8) p % p
    let vx := v * x0 * x0 % p
    let x1 := if vx = u then some x0
      else if vx = (p - u) % p then some (x0 * powMod 2 ((p - 1) / 4) p % p) else none
    match x1 with
    | none => none
    | some x =>
      if x = 0 ∧ sign = 1 then none
      else
        let x := if x % 2 = sign then x else p - x
        some ⟨x, y, 1, x * y % p⟩

/-- The base point: y = 4/5 with an even x. -/
def edBase : EdPoint := (edDecode (toLe 32 (4 * edInv 5 % edP))).getD edZero

/-- Table 15.7: whether the signature over the message verifies under the public key. -/
def edVerify (key msg sig : List Byte) : Bool :=
  let rb := sig.take 32
  let s := leNat (sig.drop 32)
  match edDecode key, edDecode rb with
  | some a, some r =>
    if edEq (edMul 8 a) edZero then false
    else if s ≥ edL then false
    else
      let k := leNat (sha512 (rb ++ key ++ msg)) % edL
      edEq (edMul s edBase) (edAdd r (edMul k a))
  | _, _ => false

end Sys2Proof.Machine
end

