-- ==== Sys2Proof/Machine/Flags.lean ====
section
/-!
DEFINITION. The arithmetic flags of BAY_ARITH_FLAGS (Table 2.9, R68).
-/
namespace Sys2Proof.Machine

namespace Flag

/-- [0] A NaN operand or source was met, or a NaN was produced. -/
def nanIn : W32 := 0x01
/-- [1] A NaN was narrowed to zero. -/
def nanToZero : W32 := 0x02
/-- [2] A value saturated in a format without infinity, or a block scale was clamped at 254. -/
def saturated : W32 := 0x04
/-- [3] A finite value rounded to infinity. -/
def overflowInf : W32 := 0x08
/-- [4] An integer sum or conversion saturated. -/
def intSat : W32 := 0x10
/-- [5] A NaN block was written. -/
def blockNan : W32 := 0x20
/-- [6] FTZ flushed an input or a result. -/
def flushed : W32 := 0x40

end Flag

/-- A value with the flags raised in forming it. -/
abbrev Flagged (α : Type) := α × W32

/-- The flag when the condition holds. -/
def flagIf (c : Bool) (f : W32) : W32 := if c then f else 0

/-- All flags of a list of flagged values, ORed. -/
def orFlags {α : Type} (l : List (Flagged α)) : W32 := l.foldl (fun a x => a ||| x.2) 0

/-- The flag word after a command's flags are ORed in (R68). -/
def raiseFlags (word raised : W32) : W32 := word ||| (raised &&& 0x7F)

/-- The flag word after a write of `v` to its RW1C bits (Table 2.9). -/
def clearFlags (word v : W32) : W32 := word &&& ~~~(v &&& 0x7F)

end Sys2Proof.Machine
end

