-- ==== Sys2Proof/Machine/Formats.lean ====
section
/-!
DEFINITION. The twelve number formats and their arithmetic (chapter 02): exact values, rounding, narrowing, blocks.
-/
namespace Sys2Proof.Machine

/-- An exact value: NaN, an infinity, or (-1)^neg * m * 2^e with the sign of a zero kept. -/
inductive Val where
  | nan
  | inf (neg : Bool)
  | fin (neg : Bool) (m : Nat) (e : Int)
  deriving DecidableEq, Repr, Inhabited

/-- How a floating-point format uses its top codes (Table 2.2). -/
inductive Special where
  /-- The top exponent holds the infinities and the NaNs. -/
  | ieee
  /-- Only the all-ones encodings are NaN; no infinity (K8T). -/
  | nanOnly
  /-- Every encoding is finite (K6, K4). -/
  | finite
  deriving DecidableEq, Repr

/-- A sign-exponent-mantissa format (Table 2.1). -/
structure FFmt where
  ebits : Nat
  mbits : Nat
  bias : Int
  special : Special
  deriving DecidableEq, Repr

def FP64 : FFmt := ⟨11, 52, 1023, .ieee⟩
def FP32 : FFmt := ⟨8, 23, 127, .ieee⟩
def K16T : FFmt := ⟨8, 7, 127, .ieee⟩
def K16W : FFmt := ⟨5, 10, 15, .ieee⟩
def K8T : FFmt := ⟨4, 3, 6, .nanOnly⟩
def K8W : FFmt := ⟨5, 2, 15, .ieee⟩
def K6 : FFmt := ⟨3, 2, 2, .finite⟩
def K4 : FFmt := ⟨2, 1, 1, .finite⟩

/-- The floating-point format of a code (Table 2.1). -/
def ffmt : Nat → Option FFmt
  | 0 => some FP64 | 1 => some FP32 | 2 => some K16T | 3 => some K16W | 4 => some K8T | 5 => some K8W
  | 6 => some K6 | 7 => some K4 | _ => none

/-- The element format of a block code: KB8 holds K8T, KB4 holds K4. -/
def blockElem : Nat → Option FFmt
  | 8 => some K8T | 9 => some K4 | _ => none

def isBlock (fmt : Nat) : Bool := fmt == 8 || fmt == 9

/-- The range of an integer code (R49). -/
def intRange : Nat → Option (Int × Int)
  | 0xA => some (-128, 127) | 0xB => some (-8, 7) | 0xC => some (-2147483648, 2147483647) | _ => none

/-- Bits of one element (Table 2.1). -/
def elemBits : Nat → Nat
  | 0 => 64 | 1 => 32 | 2 => 16 | 3 => 16 | 4 => 8 | 5 => 8 | 6 => 6 | 7 => 4 | 8 => 8 | 9 => 4 | 0xA => 8
  | 0xB => 4 | 0xC => 32 | _ => 0

/-- Elements in one group of the storage (R39, R40): the unit that is stored whole. -/
def groupElems : Nat → Nat
  | 6 => 4 | 7 => 2 | 0xB => 2 | 8 => 32 | 9 => 32 | _ => 1

/-- Bytes of one group. -/
def groupBytes : Nat → Nat
  | 0 => 8 | 1 => 4 | 2 => 2 | 3 => 2 | 4 => 1 | 5 => 1 | 6 => 3 | 7 => 1 | 8 => 33 | 9 => 17 | 0xA => 1 | 0xB => 1
  | 0xC => 4 | _ => 0

/-- Stored bytes of `n` elements (R39, R40). -/
def storedBytes (fmt n : Nat) : Nat := ceilDiv n (groupElems fmt) * groupBytes fmt

/-! ### Decoding elements (R41, R42) -/

/-- The largest exponent field of a finite number. -/
def FFmt.topExp (f : FFmt) : Nat := match f.special with
  | .ieee => 2 ^ f.ebits - 2
  | _ => 2 ^ f.ebits - 1

/-- The significand of the largest finite value. -/
def FFmt.topSig (f : FFmt) : Nat := match f.special with
  | .nanOnly => 2 ^ (f.mbits + 1) - 2
  | _ => 2 ^ (f.mbits + 1) - 1

/-- The exponent of the unit in the last place of the top binade. -/
def FFmt.topUlp (f : FFmt) : Int := (f.topExp : Int) - f.bias - f.mbits

/-- The largest finite value (Table 2.2). -/
def FFmt.maxFin (f : FFmt) (neg : Bool) : Val := .fin neg f.topSig f.topUlp

def FFmt.hasInf (f : FFmt) : Bool := f.special == .ieee

/-- The value of an encoding (R41, R42). -/
def decodeElem (f : FFmt) (bits : Nat) : Val :=
  let m := bits % 2 ^ f.mbits
  let e := bits / 2 ^ f.mbits % 2 ^ f.ebits
  let neg := bits / 2 ^ (f.mbits + f.ebits) % 2 == 1
  let top := 2 ^ f.ebits - 1
  if f.special = .ieee ∧ e = top then (if m = 0 then .inf neg else .nan)
  else if f.special = .nanOnly ∧ e = top ∧ m = 2 ^ f.mbits - 1 then .nan
  else if e = 0 then .fin neg m (1 - f.bias - f.mbits)
  else .fin neg (2 ^ f.mbits + m) ((e : Int) - f.bias - f.mbits)

/-- The canonical NaN of a format (R53, Table 2.2); a format without NaN has +0 there (R55). -/
def FFmt.canonNan (f : FFmt) : Nat := match f.special with
  | .ieee => (2 ^ f.ebits - 1) * 2 ^ f.mbits + 2 ^ (f.mbits - 1)
  | .nanOnly => 2 ^ (f.ebits + f.mbits) - 1
  | .finite => 0

/-- floor(log2) of a positive significand with its exponent. -/
def expOf (m : Nat) (e : Int) : Int := (Nat.log2 m : Int) + e

/-- The exponent of the unit in the last place that a format gives a positive value (R41). -/
def FFmt.ulp (f : FFmt) (m : Nat) (e : Int) : Int := max (expOf m e) (1 - f.bias) - f.mbits

/-- m * 2^(e - u) split at the unit: the whole part, the rest, and the rest's denominator. -/
def splitAt (m : Nat) (e u : Int) : Nat × Nat × Nat :=
  if u ≤ e then (m * 2 ^ (e - u).toNat, 0, 1)
  else let d := 2 ^ (u - e).toNat; (m / d, m % d, d)

/-- The encoding of a value the format holds exactly. -/
def encodeElem (f : FFmt) : Val → Nat
  | .nan => f.canonNan
  | .inf neg => (if neg then 2 ^ (f.mbits + f.ebits) else 0) + (2 ^ f.ebits - 1) * 2 ^ f.mbits
  | .fin neg m e =>
    let s := if neg then 2 ^ (f.mbits + f.ebits) else 0
    if m = 0 then s
    else
      let u := f.ulp m e
      let q := (splitAt m e u).1
      if q < 2 ^ f.mbits then s + q
      else s + (u + f.mbits + f.bias).toNat * 2 ^ f.mbits + (q - 2 ^ f.mbits)

/-! ### Rounding (R50, R60) -/

/-- Rounding modes (R50), and ties away from zero (R54). -/
inductive Rnd where
  | even | zero | down | up | away
  deriving DecidableEq, Repr, Inhabited

/-- The descriptor's rounding field (R50). -/
def Rnd.ofField : Nat → Rnd
  | 1 => .zero | 2 => .down | 3 => .up | _ => .even

/-- Whether the magnitude moves up by one unit. -/
def roundsUp (r : Rnd) (neg : Bool) (q rest d : Nat) : Bool :=
  match r with
  | .even => decide (2 * rest > d) || (decide (2 * rest = d) && decide (q % 2 = 1))
  | .away => decide (2 * rest ≥ d) && decide (rest ≠ 0)
  | .zero => false
  | .down => neg && decide (rest ≠ 0)
  | .up => !neg && decide (rest ≠ 0)

/-- The magnitude of m * 2^e exceeds m' * 2^e'. -/
def magLt (m : Nat) (e : Int) (m' : Nat) (e' : Int) : Bool :=
  let lo := min e e'
  decide (m * 2 ^ (e - lo).toNat < m' * 2 ^ (e' - lo).toNat)

/-- Round a finite value to a format: the result and whether it overflowed to infinity (R60). -/
def roundFin (f : FFmt) (r : Rnd) (neg : Bool) (m : Nat) (e : Int) : Val × Bool :=
  if m = 0 then (.fin neg 0 0, false)
  else
    let u := f.ulp m e
    let p := splitAt m e u
    let q := if roundsUp r neg p.1 p.2.1 p.2.2 then p.1 + 1 else p.1
    if magLt f.topSig f.topUlp q u then
      let toInf := match r with
        | .even => true | .away => true | .zero => false | .down => neg | .up => !neg
      if toInf then (.inf neg, true) else (f.maxFin neg, false)
    else (.fin neg q u, false)

/-- Round an exact value, with the flags of R60 and R61: NAN_IN for a NaN, OVERFLOW_INF for an overflow. -/
def roundVal (f : FFmt) (r : Rnd) : Val → Flagged Val
  | .nan => (.nan, Flag.nanIn)
  | .inf neg => (.inf neg, 0)
  | .fin neg m e => let x := roundFin f r neg m e; (x.1, flagIf x.2 Flag.overflowInf)

/-! ### Exact arithmetic (R60, R61) -/

/-- The signed integer m * 2^(e - u) of a value whose exponent is at least u. -/
def scaled (neg : Bool) (m : Nat) (e u : Int) : Int :=
  let v : Int := m * 2 ^ (e - u).toNat
  if neg then -v else v

/-- The value of a signed integer at an exponent, with the sign of a zero result given. -/
def ofScaled (v : Int) (u : Int) (zeroNeg : Bool) : Val :=
  if v = 0 then .fin zeroNeg 0 0 else .fin (decide (v < 0)) v.natAbs u

/-- The exact sum of two values; an exact zero of unlike terms is +0, or -0 toward minus infinity (R60). -/
def addVal (r : Rnd) : Val → Val → Val
  | .nan, _ => .nan
  | _, .nan => .nan
  | .inf a, .inf b => if a = b then .inf a else .nan
  | .inf a, _ => .inf a
  | _, .inf b => .inf b
  | .fin a m e, .fin b n g =>
    let u := min e g
    let v := scaled a m e u + scaled b n g u
    let zn := if m = 0 ∧ n = 0 ∧ a = b then a else r == .down
    ofScaled v u zn

/-- The exact product (R61). -/
def mulVal : Val → Val → Val
  | .nan, _ => .nan
  | _, .nan => .nan
  | .inf a, .inf b => .inf (a != b)
  | .inf a, .fin b n _ => if n = 0 then .nan else .inf (a != b)
  | .fin a m _, .inf b => if m = 0 then .nan else .inf (a != b)
  | .fin a m e, .fin b n g => .fin (a != b) (m * n) (e + g)

def negVal : Val → Val
  | .nan => .nan
  | .inf a => .inf (!a)
  | .fin a m e => .fin (!a) m e

def absVal : Val → Val
  | .nan => .nan
  | .inf _ => .inf false
  | .fin _ m e => .fin false m e

/-- The quotient to more bits than any format holds, its last bit set when it is not exact, so that one rounding of it
is the rounding of the true quotient. -/
def divVal : Val → Val → Val
  | .nan, _ => .nan
  | _, .nan => .nan
  | .inf _, .inf _ => .nan
  | .inf a, .fin b _ _ => .inf (a != b)
  | .fin a _ _, .inf b => .fin (a != b) 0 0
  | .fin a m e, .fin b n g =>
    if n = 0 then (if m = 0 then .nan else .inf (a != b))
    else
      let k := 130 + Nat.log2 n
      let q := m * 2 ^ k / n
      let rest := m * 2 ^ k % n
      .fin (a != b) (2 * q + (if rest = 0 then 0 else 1)) (e - g - k - 1)

/-- The integer square root by bits, from bit `fuel` down. -/
def isqrtAux (n : Nat) : Nat → Nat → Nat
  | 0, r => if (r + 1) * (r + 1) ≤ n then r + 1 else r
  | b + 1, r => let t := r + 2 ^ (b + 1); isqrtAux n b (if t * t ≤ n then t else r)

def isqrt (n : Nat) : Nat := isqrtAux n (Nat.log2 n / 2 + 1) 0

/-- The square root to more bits than any format holds, its last bit set when it is not exact. -/
def sqrtVal : Val → Val
  | .nan => .nan
  | .inf neg => if neg then .nan else .inf false
  | .fin neg m e =>
    if m = 0 then .fin neg 0 0
    else if neg then .nan
    else
      let k : Nat := 300 + (if e % 2 = 0 then 0 else 1)
      let n := m * 2 ^ k
      let r := isqrt n
      .fin false (2 * r + (if r * r = n then 0 else 1)) ((e - k) / 2 - 1)

/-- a < b, for values that are not NaN. -/
def ltVal : Val → Val → Bool
  | .nan, _ => false
  | _, .nan => false
  | .inf a, .inf b => a && !b
  | .inf a, .fin _ _ _ => a
  | .fin _ _ _, .inf b => !b
  | .fin a m e, .fin b n g => let u := min e g; decide (scaled a m e u < scaled b n g u)

def isZero : Val → Bool
  | .fin _ m _ => m == 0
  | _ => false

def isNan : Val → Bool
  | .nan => true
  | _ => false

def isInf : Val → Bool
  | .inf _ => true
  | _ => false

def isFinite : Val → Bool
  | .fin _ _ _ => true
  | _ => false

def signOf : Val → Bool
  | .nan => false
  | .inf a => a
  | .fin a _ _ => a

/-- The device-defined maximum (R64). -/
def maxVal (a b : Val) : Val :=
  if isNan a then b else if isNan b then a
  else if isZero a && isZero b then (if signOf a then b else a)
  else if ltVal a b then b else a

/-- The device-defined minimum (R64). -/
def minVal (a b : Val) : Val :=
  if isNan a then b else if isNan b then a
  else if isZero a && isZero b then (if signOf a then a else b)
  else if ltVal b a then b else a

/-! ### Flush to zero (R51) -/

/-- A subnormal of the format. -/
def isSubnormal (f : FFmt) : Val → Bool
  | .fin _ m e => decide (m ≠ 0) && decide (expOf m e < 1 - f.bias)
  | _ => false

/-- FTZ on an input or a result in FP32 or FP64: a subnormal becomes a zero of the same sign and sets FLUSHED. -/
def flush (ftz : Bool) (f : FFmt) (v : Val) : Flagged Val :=
  if ftz && isSubnormal f v then (.fin (signOf v) 0 0, Flag.flushed) else (v, 0)

/-! ### Narrowing (R49, R54 to R56) -/

/-- T, the largest finite value plus half a step (R55), as 2T in units of the top binade's unit. -/
def FFmt.atOrAboveT (f : FFmt) (m : Nat) (e : Int) : Bool :=
  !(magLt m e (2 * f.topSig + 1) (f.topUlp - 1))

/-- Narrow one element, with the draw of R56 when stochastic rounding is requested. -/
def narrowElem (f : FFmt) (draw : Option Nat) : Val → Flagged Val
  | .nan => if f.special = .finite then (.fin false 0 0, Flag.nanIn ||| Flag.nanToZero) else (.nan, Flag.nanIn)
  | .inf neg => if f.hasInf then (.inf neg, 0) else (f.maxFin neg, Flag.saturated)
  | .fin neg m e =>
    let big : Flagged Val :=
      if f.hasInf then (.inf neg, Flag.overflowInf) else (f.maxFin neg, Flag.saturated)
    if m = 0 then (.fin neg 0 0, 0)
    else if f.atOrAboveT m e then big
    else
      let u := f.ulp m e
      let p := splitAt m e u
      let up := match draw with
        | some w => decide (w < p.2.1 * 65536 / p.2.2)
        | none => roundsUp .away neg p.1 p.2.1 p.2.2
      let q := if up then p.1 + 1 else p.1
      if magLt f.topSig f.topUlp q u then big else (.fin neg q u, 0)

/-- Conversion to an integer format (R49, R56): nearest with ties away or the draw, saturating. -/
def toIntFmt (lo hi : Int) (draw : Option Nat) : Val → Flagged Int
  | .nan => (0, Flag.nanIn ||| Flag.nanToZero)
  | .inf neg => (if neg then lo else hi, Flag.intSat)
  | .fin neg m e =>
    let p := splitAt m e 0
    let toward : Int := if neg then -(p.1 : Int) else p.1
    let outside := decide (toward < lo) || decide (toward > hi) ||
      (decide (toward = lo - 1) || decide (toward = hi + 1))
    let up := match draw with
      | some w => if outside then false else decide (w < p.2.1 * 65536 / p.2.2)
      | none => roundsUp .away neg p.1 p.2.1 p.2.2
    let q := if up then p.1 + 1 else p.1
    let v : Int := if neg then -(q : Int) else q
    if v < lo then (lo, Flag.intSat) else if v > hi then (hi, Flag.intSat) else (v, 0)

/-- The two's-complement encoding in `b` bits. -/
def encInt (b : Nat) (v : Int) : Nat := (v % (2 ^ b : Int)).toNat

/-- The value of a two's-complement encoding in `b` bits. -/
def decInt (b n : Nat) : Int := if 2 ^ b ≤ 2 * n then (n : Int) - 2 ^ b else n

def ofInt (v : Int) : Val := .fin (decide (v < 0)) v.natAbs 0

/-- The exact value of an element of a code that is not a block format. -/
def elemVal (fmt bits : Nat) : Val :=
  match ffmt fmt with
  | some f => decodeElem f bits
  | none => ofInt (decInt (elemBits fmt) bits)

/-- Narrow an exact value to the encoding of a code that is not a block format. -/
def narrowTo (fmt : Nat) (draw : Option Nat) (v : Val) : Flagged Nat :=
  match ffmt fmt with
  | some f => let x := narrowElem f draw v; (encodeElem f x.1, x.2)
  | none =>
    match intRange fmt with
    | some r => let x := toIntFmt r.1 r.2 draw v; (encInt (elemBits fmt) x.1, x.2)
    | none => (0, 0)

/-! ### Packing (R39, R40) -/

/-- One group's bytes as element encodings; a block's group starts with its scale. -/
def unpackGroup (fmt : Nat) (bs : List Byte) : List Nat :=
  match fmt with
  | 6 => (List.range 4).map (fun j => bitsOf (leNat bs) (6 * j + 5) (6 * j))
  | 7 => [bitsOf (leNat bs) 3 0, bitsOf (leNat bs) 7 4]
  | 0xB => [bitsOf (leNat bs) 3 0, bitsOf (leNat bs) 7 4]
  | 8 => (bs.drop 1).map (·.toNat)
  | 9 => ((bs.drop 1).map (fun b => [b.toNat % 16, b.toNat / 16])).flatten
  | _ => [leNat bs]

/-- Element encodings packed into one group; `scale` is the block's scale byte. -/
def packGroup (fmt scale : Nat) (es : List Nat) : List Byte :=
  let at_ := fun j => es.getD j 0
  match fmt with
  | 6 => toLe 3 (at_ 0 + at_ 1 * 2 ^ 6 + at_ 2 * 2 ^ 12 + at_ 3 * 2 ^ 18)
  | 7 => toLe 1 (at_ 0 + at_ 1 * 16)
  | 0xB => toLe 1 (at_ 0 + at_ 1 * 16)
  | 8 => toLe 1 scale ++ (List.range 32).map (fun j => BitVec.ofNat 8 (at_ j))
  | 9 => toLe 1 scale ++ (List.range 16).map (fun j => BitVec.ofNat 8 (at_ (2 * j) + 16 * at_ (2 * j + 1)))
  | _ => toLe (groupBytes fmt) (at_ 0)

/-- The value of an element of a block with scale byte `s` (R46). -/
def blockVal (fmt s bits : Nat) : Val :=
  if s = 255 then .nan
  else match blockElem fmt with
    | some f => (match decodeElem f bits with
      | .fin neg m e => .fin neg m (e + s - 127)
      | v => v)
    | none => .nan

/-- The values of `n` elements stored from the first byte on. -/
def decodeTensor (fmt n : Nat) (bs : List Byte) : List Val :=
  let gs := chunks (groupBytes fmt) (bs.take (storedBytes fmt n))
  let vs := gs.map (fun g =>
    if isBlock fmt then (unpackGroup fmt g).map (blockVal fmt (byteAt g 0))
    else (unpackGroup fmt g).map (elemVal fmt))
  vs.flatten.take n

/-! ### Block quantisation (R47) -/

/-- The largest magnitude among finite values. -/
def maxMag : List Val → Val
  | [] => .fin false 0 0
  | v :: vs => let r := maxMag vs; if ltVal r (absVal v) then absVal v else r

/-- The least t with a <= F * 2^t, for a = m * 2^e and F = fm * 2^fe. -/
def ceilLog2Ratio (m : Nat) (e : Int) (fm : Nat) (fe : Int) : Int :=
  let t0 := expOf m e - expOf fm fe
  let fits := fun t : Int => !(magLt fm (fe + t) m e)
  if fits (t0 - 1) then t0 - 1 else if fits t0 then t0 else t0 + 1

/-- Quantise up to 32 source values into one block: the scale byte, the element encodings and the flags. `draws` holds
the stochastic draws, one per element, when requested. -/
def quantBlock (fmt : Nat) (draws : Option (List Nat)) (vs : List Val) : Flagged (Nat × List Nat) :=
  match blockElem fmt with
  | none => ((0, []), 0)
  | some f =>
    if vs.any (fun v => isNan v || isInf v) then
      ((255, List.replicate 32 0), Flag.blockNan ||| flagIf (vs.any isNan) Flag.nanIn)
    else
      match maxMag vs with
      | .fin _ m e =>
        if m = 0 then ((0, vs.map (fun v => encodeElem f (.fin (signOf v) 0 0))), 0)
        else
          let t := 127 + ceilLog2Ratio m e f.topSig f.topUlp
          let s : Nat := (min (max t 0) 254).toNat
          let xs := vs.zipIdx.map (fun p =>
            let v := match p.1 with
              | .fin neg m e => Val.fin neg m (e - (s - 127 : Int))
              | v => v
            let x := narrowElem f (draws.map (fun d => d.getD p.2 0)) v
            (encodeElem f x.1, x.2))
          ((s, xs.map (·.1)), orFlags xs ||| flagIf (decide (t > 254)) Flag.saturated)
      | _ => ((0, []), 0)

/-- `n` values narrowed and packed from element 0 on (R39, R40, R54). `draw` gives the stochastic draw of an element
by its index in the list. -/
def encodeTensor (fmt : Nat) (draw : Option (Nat → Nat)) (vs : List Val) : Flagged (List Byte) :=
  let gs := (chunks (groupElems fmt) vs.zipIdx).map (fun g =>
    if isBlock fmt then
      let q := quantBlock fmt (draw.map (fun d => g.map (fun p => d p.2))) (g.map (·.1))
      (packGroup fmt q.1.1 q.1.2, q.2)
    else
      let es := g.map (fun p => narrowTo fmt (draw.map (fun d => d p.2)) p.1)
      (packGroup fmt 0 (es.map (·.1)), orFlags es))
  ((gs.map (·.1)).flatten, orFlags gs)

/-! ### FP32 operations that round once (R63, R235) -/

/-- Round to FP32, nearest even, under FTZ. -/
def fl32 (ftz : Bool) (v : Val) : Flagged Val :=
  let x := roundVal FP32 .even v
  let y := flush ftz FP32 x.1
  (y.1, x.2 ||| y.2)

/-- An FP32 encoding read as an operand under FTZ. -/
def in32 (ftz : Bool) (bits : Nat) : Flagged Val := flush ftz FP32 (decodeElem FP32 bits)

def enc32 (v : Val) : Nat := encodeElem FP32 v

def fadd (ftz : Bool) (a b : Flagged Val) : Flagged Val :=
  let x := fl32 ftz (addVal .even a.1 b.1); (x.1, x.2 ||| a.2 ||| b.2)

def fsub (ftz : Bool) (a b : Flagged Val) : Flagged Val := fadd ftz a (negVal b.1, b.2)

def fmul (ftz : Bool) (a b : Flagged Val) : Flagged Val :=
  let x := fl32 ftz (mulVal a.1 b.1); (x.1, x.2 ||| a.2 ||| b.2)

def fdiv (ftz : Bool) (a b : Flagged Val) : Flagged Val :=
  let x := fl32 ftz (divVal a.1 b.1); (x.1, x.2 ||| a.2 ||| b.2)

def fsqrt (ftz : Bool) (a : Flagged Val) : Flagged Val :=
  let x := fl32 ftz (sqrtVal a.1); (x.1, x.2 ||| a.2)

/-! ### Rescale (R66, R67) -/

/-- a * scale + bias, exactly. -/
def rescaleExact (a scale bias : Val) : Val := addVal .even (mulVal a scale) bias

/-! ### The normal distribution's functions (R181) -/

/-- Working precision of the fixed-point series, in bits. -/
def seriesBits : Nat := 192

/-- atanh(y / 2^P) by its series, with `fuel` terms. -/
def atanhAux (y2 : Nat) : Nat → Nat → Nat → Nat
  | 0, _, _ => 0
  | f + 1, t, k => t / k + atanhAux y2 f (t * y2 / 2 ^ seriesBits) (k + 2)

def atanhFix (y : Nat) : Nat := atanhAux (y * y / 2 ^ seriesBits) 70 y 1

/-- ln 2 in fixed point: 2 atanh(1/3). -/
def ln2Fix : Nat := 2 * atanhFix (2 ^ seriesBits / 3)

/-- -ln(k / 2^24) in fixed point, for 1 <= k <= 2^24. -/
def negLnFix (k : Nat) : Nat :=
  let j := Nat.log2 k
  let y := (k * 2 ^ seriesBits - 2 ^ (j + seriesBits)) / (k + 2 ^ j)
  24 * ln2Fix - (j * ln2Fix + 2 * atanhFix y)

/-- Pi in fixed point, 200 bits after the point. -/
def piFix200 : Nat := 0x3243f6a8885a308d313198a2e03707344a4093822299f31d008

/-- The cosine series: alternating terms of x^2n / (2n)!. -/
def cosAux (x2 : Nat) : Nat → Nat → Nat → Int
  | 0, _, _ => 0
  | f + 1, t, n =>
    let t' := t * x2 / 2 ^ seriesBits / ((2 * n + 1) * (2 * n + 2))
    (if n % 2 = 0 then (t : Int) else -(t : Int)) + cosAux x2 f t' (n + 1)

/-- cos(2 pi k / 2^24) to 192 bits, exact at the multiples of a quarter turn. -/
def cosTurn (k : Nat) : Val :=
  let a := k % 2 ^ 24
  let a := if a > 2 ^ 23 then 2 ^ 24 - a else a
  let neg := decide (a > 2 ^ 22)
  let a := if neg then 2 ^ 23 - a else a
  if a = 2 ^ 22 then .fin false 0 0
  else if a = 0 then .fin neg 1 0
  else
    let x := 2 * piFix200 * a / 2 ^ (24 + 200 - seriesBits)
    let c := cosAux (x * x / 2 ^ seriesBits) 40 (2 ^ seriesBits) 0
    .fin neg (2 * c.toNat + 1) (-(seriesBits : Int) - 1)

def fl64 (v : Val) : Val := (roundVal FP64 .even v).1

/-- z of the normal distribution from the grain words (R181). -/
def normalZ (w0 w1 : Nat) : Val :=
  let k := w0 / 256 + 1
  let n := negLnFix k
  let l : Val := if k = 2 ^ 24 then .fin true 0 0 else fl64 (.fin true (2 * n + 1) (-(seriesBits : Int) - 1))
  let s := fl64 (sqrtVal (match l with
    | .fin _ m e => .fin false m (e + 1)
    | v => v))
  fl64 (mulVal s (fl64 (cosTurn (w1 / 256))))

end Sys2Proof.Machine
end

