-- ==== Sys2Proof/Machine/Grain.lean ====
section
/-!
DEFINITION. The grain unit: Philox4x32-10 (R110, R111).
-/
namespace Sys2Proof.Machine

/-- A counter or an output of the grain unit: words 0 to 3. -/
structure Grain where
  w0 : Nat
  w1 : Nat
  w2 : Nat
  w3 : Nat
  deriving DecidableEq, Repr, Inhabited

/-- One Philox round with its key (R110). -/
def philoxRound (k0 k1 : Nat) (c : Grain) : Grain :=
  let p0 := 0xD2511F53 * c.w0
  let p1 := 0xCD9E8D57 * c.w2
  ⟨Nat.xor (Nat.xor (p1 / 2 ^ 32) c.w1) k0, p1 % 2 ^ 32, Nat.xor (Nat.xor (p0 / 2 ^ 32) c.w3) k1, p0 % 2 ^ 32⟩

/-- `n` rounds, the key incremented between rounds (R110). -/
def philoxRounds : Nat → Nat → Nat → Grain → Grain
  | 0, _, _, c => c
  | n + 1, k0, k1, c =>
    philoxRounds n ((k0 + 0x9E3779B9) % 2 ^ 32) ((k1 + 0xBB67AE85) % 2 ^ 32) (philoxRound k0 k1 c)

/-- The grain unit's words for a seed and a position (R110). -/
def grain (seed : W64) (index : Nat) (step tensor : W32) : Grain :=
  philoxRounds 10 (seed.toNat % 2 ^ 32) (seed.toNat / 2 ^ 32)
    ⟨index % 2 ^ 32, index / 2 ^ 32 % 2 ^ 32, step.toNat, tensor.toNat⟩

/-- The draw of stochastic narrowing: word 0 [15:0] (R56). -/
def narrowDraw (seed : W64) (step tensor : W32) (index : Nat) : Nat := (grain seed index step tensor).w0 % 65536

end Sys2Proof.Machine
end

