-- ==== Sys2Proof/Config.lean ====
section
/-!
DEFINITION. What an implementation fixes and the manual leaves open: the free values. None has a body, so no proof can
see a value of one; a step that needs one applies it to the counter `State.free` and advances the counter (log 7).
-/
namespace Sys2Proof

/-- The n-th value the manual leaves open: a line that holds its old or its new bytes, bytes after a discarded cut or
an alarm erase, the bit errors of a link test. -/
opaque Config.freeValue : Nat → W64

end Sys2Proof
end

