-- ==== Sys2Proof/Machine/State.lean ====
section
/-!
DEFINITION. The machine's state as plain data: everything the manual gives the device (INVENTORY.md, "State"), the
queue of waiting commands, and two fields of the model's own (`free`, `faults`). `State.reset` is the device right
after a cold reset; the values the manual does not give are named in notes/assumptions (1, 2, 6, 7, 8, 9, 10).
-/
namespace Sys2Proof.Machine

/-! ### Statuses, formats of records -/

/-- The status codes of Table 6.6. -/
inductive Status where
  | ok | corrected | deferred | badOpcode | badParam | badAlign | notBound | accessDenied | rebound | conflict
  | tooLate | portNotReady | notReady | timeout | aborted | licenceMissing | versionMismatch | signatureBad
  | digestMismatch | shapeMismatch | machineCheck
  deriving DecidableEq, Repr, Inhabited

/-- The STATUS value of Table 6.6. -/
def Status.code : Status → Nat
  | .ok => 0x0000 | .corrected => 0x0001 | .deferred => 0x0002 | .badOpcode => 0x0010 | .badParam => 0x0011
  | .badAlign => 0x0012 | .notBound => 0x0020 | .accessDenied => 0x0021 | .rebound => 0x0022 | .conflict => 0x0023
  | .tooLate => 0x0030 | .portNotReady => 0x0031 | .notReady => 0x0032 | .timeout => 0x0033 | .aborted => 0x0034
  | .licenceMissing => 0x0040 | .versionMismatch => 0x0041 | .signatureBad => 0x0042 | .digestMismatch => 0x0050
  | .shapeMismatch => 0x0051 | .machineCheck => 0x0060

/-- OK, CORRECTED and DEFERRED are successes (R171). -/
def Status.success : Status → Bool
  | .ok => true | .corrected => true | .deferred => true | _ => false

/-- Byte memory: (address, byte) pairs, addresses strictly rising, no zero byte listed (log 2). -/
abbrev Mem := List Host.Cell

/-- A log record (Table 14.8). -/
structure Rec where
  seq : Nat
  time : Nat
  code : Nat
  cls : Nat
  bay : Nat
  kind : Nat
  die : Nat
  unit : Nat
  sub : Nat
  tag : W32
  addr : Nat
  d0 : Nat
  d1 : Nat
  deriving DecidableEq, Repr, Inhabited

/-- A log: a ring of records with its header counts (R349, R350, Table 14.11). -/
structure Log where
  cap : Nat
  recs : List Rec
  next : Nat
  overflow : Nat
  cleared : Nat
  deriving DecidableEq, Repr, Inhabited

/-- What the device sends out or drives. -/
inductive Output where
  /-- An MSI-X vector raised by a function (R156, R425). -/
  | irq (fn : Func) (vector : Nat)
  /-- A flit on a fabric port (R252). -/
  | flit (port : Nat) (f : Flit)
  /-- A packet handed to the fabric (R253). -/
  | packet (p : Packet)
  /-- A collective segment sent to the member that holds a position (R266). -/
  | collSeg (member : Nat) (g : CollSeg)
  /-- Gathered rows sent to a member (R229). -/
  | gatherSeg (member : Nat) (g : GatherSeg)
  /-- A join packet sent to a node (R262). -/
  | join (dnode : Nat) (j : JoinPacket)
  /-- A group abort on VC0 (R197, R263). -/
  | groupAbort (bay group : Nat)
  /-- A speaker's relay on VC0 (R276). -/
  | mgmt (bay member : Nat) (m : MgmtMsg)
  /-- A frame on a far port to a site: its bytes after the preamble (Table 11.4). -/
  | frame (port site : Nat) (bytes : List Byte)
  /-- The answer to an aperture read: the data, or Completer Abort (R379). -/
  | apertureData (bay offset : Nat) (data : Option (List Byte))
  /-- A request of a kind that a function does not support completes as an Unsupported Request (R377). -/
  | unsupported (fn : Func)
  /-- DEV_READY (R394). -/
  | devReady (high : Bool)
  /-- THERMTRIP_N asserted (R416). -/
  | thermtrip
  deriving DecidableEq, Repr, Inhabited

/-! ### Commands in flight -/

/-- Where an admitted command stands (R158, R162): held by its trigger, fences and overlaps; running, once dispatched;
active, once its operation has begun and later events must finish it; finished with a status and a result, its place in
the completion order given by `order`. -/
inductive Phase where
  | held
  | running
  | active
  | finished (st : Status) (result : W64) (order : Nat)
  deriving DecidableEq, Repr, Inhabited

/-- An admitted command. `ftz` is its FTZ copy (R52), `stamp` its binding-table version (R213), `errSample` the ERR
sample of R162 once the threshold test has passed, `corrected` that an error was recovered for it (R338), `index` its
place among the matched commands of its step or group (R227, R263), `data` bytes it read at dispatch and still needs,
`retries` the strips of a MATMUL that an uncorrectable line makes its engines recompute, with the core cycles each had
spent (R97). -/
structure Slot where
  instr : Instr
  phase : Phase
  ftz : Bool
  stamp : W32
  errSample : Option Bool
  corrected : Bool
  index : Nat
  started : Nat
  work : Nat
  quiet : Bool
  data : List Byte
  retries : List (Nat × Nat)
  deriving DecidableEq, Repr, Inhabited

/-! ### Bays: queues, counters, bindings -/

/-- Bay states (Table 8.2, encoded as in Table 7.2). -/
inductive BayState where
  | unbound | binding | active | quiescing | halted | evicting
  deriving DecidableEq, Repr, Inhabited

def BayState.code : BayState → Nat
  | .unbound => 0 | .binding => 1 | .active => 2 | .quiescing => 3 | .halted => 4 | .evicting => 5

/-- An event counter (R160). -/
structure Counter where
  value : W32
  err : Bool
  deriving DecidableEq, Repr, Inhabited

/-- A submission queue (R149 to R154). -/
structure SubQ where
  live : Bool
  base : Nat
  log2 : Nat
  cq : Nat
  weight : Nat
  head : Nat
  tail : Nat
  deleting : Option Nat
  deriving DecidableEq, Repr, Inhabited

/-- A completion queue (R147, R155, R156). `posted` counts entries since the last interrupt and `firstAt` stamps the
first of them. -/
structure CompQ where
  live : Bool
  base : Nat
  log2 : Nat
  vector : Nat
  coalCount : Nat
  coalTime : Nat
  tail : Nat
  head : Nat
  phase : Bool
  posted : Nat
  firstAt : Option Nat
  deriving DecidableEq, Repr, Inhabited

/-- The bay's binding record (Table 8.1). -/
structure BindRec where
  clusters : W32
  granules : List Nat
  ftz : Bool
  slotLimit : Nat
  weights : List Nat
  farShare : Nat
  deriving DecidableEq, Repr, Inhabited

/-- Registers of the bay window (Table 18.6). -/
structure BayRegs where
  doorbellErr : Bool
  accessErr : Bool
  event : BitVec 6
  eventMask : BitVec 6
  eventVector : BitVec 7
  asqBase : W64
  acqBase : W64
  asqLog2 : BitVec 5
  acqLog2 : BitVec 5
  acqVector : BitVec 7
  acqCoalCount : BitVec 8
  en : Bool
  live : Bool
  aqErr : Bool
  acqCoalTime : BitVec 10
  deriving DecidableEq, Repr, Inhabited

/-- A page of the bay's page table (R123). -/
structure Page where
  addr : Nat
  big : Bool
  dpa : Nat
  read : Bool
  write : Bool
  fabric : Bool
  kerf : Bool
  deriving DecidableEq, Repr, Inhabited

/-- A key slot (R311). -/
inductive KeySlot where
  | empty
  | gcm (key : List Byte)
  | xts (key1 key2 : List Byte)
  deriving DecidableEq, Repr, Inhabited

/-- A staged binding command (R206). -/
structure Staged where
  instr : Instr
  deriving DecidableEq, Repr, Inhabited

/-- Why a bay is quiescing, and what waits on it (R195, R220, R221, R333). -/
structure Flow where
  /-- Admission numbers of the HALT_BAY commands that wait for HALTED, with the count each reports. -/
  halts : List (Nat × Nat)
  /-- The BAY_RESET that is quiescing the bay: its command (none for a function-level reset), SCRUB, and whether the
  bay was ACTIVE. -/
  reset : Option (Option Nat × Bool × Bool)
  /-- BAY_RESETs that wait for HALTED before they begin. -/
  resetWait : List (Option Nat × Bool)
  /-- The EVICT_BAY in progress: its command, CUT_ID, and when its boundary wait began. -/
  evict : Option (Nat × W32 × Nat)
  /-- The eviction's boundary wait ran out: it ends without a cut (R334). -/
  evictLate : Bool
  /-- EVICT_BAYs decoded while QUIESCING. -/
  evictWait : List (Nat × W32)
  /-- A HALT_BAY or EVICT_BAY was decoded while a reset was QUIESCING (R220 step 5). -/
  stay : Bool
  /-- When the halt broadcast was sent. -/
  since : Nat
  /-- Place in the completion order from which on completions wait for HALTED (R196). -/
  heldFrom : Option Nat
  deriving DecidableEq, Repr, Inhabited

/-! ### Training -/

/-- A shard-map tensor record (Table 9.2). -/
structure TensorRec where
  id : W32
  kind : Nat
  opt : Nat
  mfmt : Nat
  gfmt : Nat
  rows : Nat
  rowLen : Nat
  units : Nat
  hpSet : Nat
  master : Nat
  m1 : Nat
  m2 : Nat
  rgrad : Nat
  base : Nat
  omom : Nat
  deriving DecidableEq, Repr, Inhabited

/-- A loaded shard map (R222), with its bytes as loaded for the manifest (R330). -/
structure ShardMap where
  members : Nat
  thisMember : Nat
  group : Nat
  updateMask : W32
  step0 : W32
  diffAddr : Nat
  diffLen : Nat
  tensors : List TensorRec
  raw : List Byte
  deriving DecidableEq, Repr, Inhabited

/-- The hyperparameter block (Table 9.4). -/
structure Hyper where
  sets : List (W32 × W32)
  beta1 : W32
  oneMBeta1 : W32
  beta2 : W32
  oneMBeta2 : W32
  eps : W32
  bc1 : W32
  bc2 : W32
  gradScale : W32
  maxNorm : W32
  flagFactor : W32
  nesterov : Bool
  seed : W64
  deriving DecidableEq, Repr, Inhabited

/-- An exact squared norm (R241): the sum in units of 2^-298, and whether a NaN or an infinity was met. -/
structure NormAcc where
  sum : Nat
  nan : Bool
  inf : Bool
  deriving DecidableEq, Repr, Inhabited

/-- A pending arm (R238): its point of no return, the coefficient it uses, the tensors delivered and the partial norms
of the members heard. -/
structure Arm where
  adm : Nat
  step : W32
  group : Nat
  clip : Bool
  hyper : Hyper
  coef : W32
  begun : Bool
  delivered : List W32
  acc : NormAcc
  norms : List (Nat × NormAcc)
  index : Nat
  deriving DecidableEq, Repr, Inhabited

/-- A reuse record (R231). -/
structure ReuseRec where
  entry : GatherEntry
  step : W32
  deriving DecidableEq, Repr, Inhabited

/-- A dispatched STEP_GATHER (R227 to R231): its entries, those of them that are reused, the rows that have come as
(entry, first row, count), those that have come back from where the allgather returns them, the entries whose own rows
have been sent, the bytes received, the members whose matching entries have been seen, whether a source part was late, the
writes to other members that are not answered yet, and the first of them that failed. -/
structure Gather where
  adm : Nat
  step : W32
  index : Nat
  entries : List GatherEntry
  reused : List Nat
  got : List (Nat × Nat × Nat)
  back : List (Nat × Nat × Nat)
  sent : List Nat
  bytes : Nat
  heard : List (Nat × Nat)
  late : Bool
  puts : Nat
  bad : Option Status
  deriving DecidableEq, Repr, Inhabited

/-- A dispatched NORM_CLIP waiting for the members' partial norms (R242). -/
structure NormWait where
  adm : Nat
  step : W32
  maxNorm : W32
  index : Nat
  norms : List (Nat × NormAcc)
  deriving DecidableEq, Repr, Inhabited

/-- Training state of a bay (R222 to R246). -/
structure Train where
  map : Option ShardMap
  applied : List W32
  done : List (Nat × Nat)
  reuse : List ReuseRec
  /-- Entries of gathers in flight (admission number, entry) that make no record: a later command writes there. -/
  stale : List (Nat × Nat)
  clipRec : Option (W32 × W32)
  lastNorm : Option (W32 × W32)
  arm : Option Arm
  gathers : List Gather
  gatherCount : List (W32 × Nat)
  earlyRows : List GatherSeg
  norms : List NormWait
  normCount : Nat
  earlyNorms : List (Nat × Nat × NormAcc)
  diffSeq : Nat
  diffSteps : List W32
  mapGen : Nat
  deriving DecidableEq, Repr, Inhabited

/-! ### Collectives -/

/-- A value known for the positions `lo` to `hi` and the elements from `first` on (R265). -/
structure Known where
  lo : Nat
  hi : Nat
  first : Nat
  elems : List Nat
  deriving DecidableEq, Repr, Inhabited

/-- A dispatched collective (R263 to R268): the command, or the triggered descriptor, that is this member's side of
it. -/
structure Coll where
  adm : Option Nat
  trig : Option TrigBlk
  group : Nat
  index : Nat
  opcode : Nat
  ops : CollOps
  ftz : Bool
  known : List Known
  sent : List (Nat × Nat × Nat)
  finals : List Known
  stamps : List (Nat × Nat)
  corrected : Bool
  /-- When each peer was last heard (R263). -/
  heard : List (Nat × Nat)
  deriving DecidableEq, Repr, Inhabited

/-- A transfer with other members in progress (MEM_COPY, PUT, GET, a drain to the buddy; R126, R269, R327): the command
or the descriptor that waits for it, its sides (none is this device), its chunks as (offset, length), the chunks read
from a remote source whose write is on its way, the chunks answered with 0 for done, 1 for refused, 2 for an unreadable
or skipped line, and the result when all of them are done. -/
structure Xfer where
  adm : Option Nat
  trig : Option TrigBlk
  group : Nat
  vc : Nat
  srcMember : Option Nat
  dstMember : Option Nat
  src : Nat
  dst : Nat
  chunks : List (Nat × Nat)
  got : List Nat
  answered : List (Nat × Nat)
  deriving DecidableEq, Repr, Inhabited

/-- A collective group, forming or formed (R261, R262). -/
structure Group where
  id : Nat
  blk : GroupBlk
  treeMax : Nat
  chainAbove : Nat
  formed : Bool
  adm : Nat
  since : Nat
  joins : List JoinPacket
  count : Nat
  late : List (Nat × Nat)
  deriving DecidableEq, Repr, Inhabited

/-- An armed triggered descriptor (R269): whether its counter has reached the threshold and when, and whether it has
fired for a threshold that does not advance (R270). -/
structure Trig where
  handle : Nat
  blk : TrigBlk
  due : Bool
  dueAt : Nat
  spent : Bool
  deriving DecidableEq, Repr, Inhabited

/-! ### Checkpoints -/

/-- Cut states (R323). -/
inductive CutState where
  | pending | copying | held | drained
  deriving DecidableEq, Repr, Inhabited

/-- A cut (R322, R323): its command when it has one, the layout it uses, the kinds of R330, the state blocks written
since its step (R338), and the drain that runs on it. -/
structure Cut where
  id : W32
  st : CutState
  step : W32
  epoch : W32
  layout : CutBlk
  adm : Option Nat
  predictive : Bool
  evicted : Bool
  dirty : List Nat
  drain : Option Nat
  mapRaw : List Byte
  /-- Which load of the map its state belongs to. -/
  mapGen : Nat
  deriving DecidableEq, Repr, Inhabited

/-- The last completed drain (R328). -/
structure Parent where
  step : W32
  epoch : W32
  digest : List Byte
  mapGen : Nat
  deriving DecidableEq, Repr, Inhabited

/-- Checkpoint state of a bay. -/
structure Ckpt where
  layout : Option CutBlk
  cut : Option Cut
  parent : Option Parent
  lastRestore : Option (List Byte)
  deriving DecidableEq, Repr, Inhabited

/-! ### The Scarf engine -/

/-- A landed delta block (R278, R289): site, epoch, state block and its Plane block in the local form. -/
structure Landed where
  site : Nat
  epoch : W32
  block : Nat
  data : List Byte
  deriving DecidableEq, Repr, Inhabited

/-- What became of a bundle at one destination (R283, R284). -/
inductive DestState where
  | waiting | granted | acked | cancelled | unreachable
  deriving DecidableEq, Repr, Inhabited

/-- A bundle in the retransmit buffer (R279): its header fields, the bytes as sent, its destinations, the fragments that
each destination reported held, when its fragments were last sent and how often they were resent, and since when it is
held for want of a port. -/
structure Bundle where
  seq : W32
  epoch : W32
  index : Nat
  bytes : List Byte
  dests : List (Nat × DestState)
  got : List (Nat × Nat)
  sentAt : List (Nat × Nat)
  resends : List (Nat × Nat)
  heldSince : Option Nat
  deriving DecidableEq, Repr, Inhabited

/-- A bundle being received (R282, R284): the fragments held, and its plaintext blocks once the tag verified. -/
structure RxBundle where
  site : Nat
  seq : W32
  count : Nat
  frags : List (Nat × List Byte)
  verified : Option (List Byte)
  deriving DecidableEq, Repr, Inhabited

/-- What a complete bundle said about its delta (R279). -/
structure DeltaPart where
  site : Nat
  epoch : W32
  index : Nat
  first : Nat
  count : Nat
  last : Bool
  total : Nat
  at_ : Nat
  deriving DecidableEq, Repr, Inhabited

/-- An admission vector (Table 11.7). -/
structure AdmVec where
  epoch : W32
  site : Nat
  hold0 : BitVec 16
  hold1 : BitVec 16
  hold2 : BitVec 16
  rtt : Nat
  /-- When it was received or formed here (R287). -/
  at_ : Nat
  deriving DecidableEq, Repr, Inhabited

/-- A ledger entry (Table 11.8). -/
structure Ledger where
  epoch : W32
  tally : Nat
  takeover : Nat
  present : BitVec 16
  absent : BitVec 16
  admit0 : BitVec 16
  admit1 : BitVec 16
  admit2 : BitVec 16
  dropped : BitVec 16
  weights : List W32
  nextGrace : Nat
  deriving DecidableEq, Repr, Inhabited

/-- The result prepared from a ledger entry (R290): the CRC-64 of each block, the digest, and the replay state. -/
structure Prepared where
  epoch : W32
  takeover : Nat
  crcs : List Nat
  digest : List Byte
  phase : Nat
  differed : Bool
  fetch : Option Nat
  settled : Bool
  deriving DecidableEq, Repr, Inhabited

/-- A digest datagram received (R291). -/
structure DigestRec where
  site : Nat
  epoch : W32
  phase : Nat
  digest : List Byte
  deriving DecidableEq, Repr, Inhabited

/-- A running close (R277). -/
structure Close where
  adm : Nat
  epoch : W32
  step : W32
  passed : Bool
  deriving DecidableEq, Repr, Inhabited

/-- The bundles of a landed delta being formed (R279): how many, the next block to pack, the index of the next. -/
structure Form where
  epoch : W32
  formed : Nat
  next : Nat
  deriving DecidableEq, Repr, Inhabited

/-- Prepared blocks being fetched from another site (R293). -/
structure Fetch where
  site : Nat
  epoch : W32
  parts : List (Nat × List Byte)
  deriving DecidableEq, Repr, Inhabited

/-- A running catch-up (R294): the source it takes data from, 0xFF while none has answered; the data staged; sources
whose data did not match. -/
structure Catchup where
  adm : Nat
  any : Bool
  source : Nat
  since : Nat
  parts : List (Nat × List Byte)
  bad : List Nat
  deriving DecidableEq, Repr, Inhabited

/-- A control datagram that is resent until acknowledged (R281). `stamp` is its SENT. -/
structure CtlOut where
  site : Nat
  kind : Nat
  seq : W32
  epoch : W32
  payload : List Byte
  stamp : Nat
  sentAt : Nat
  until_ : Nat
  deriving DecidableEq, Repr, Inhabited

/-- A member's completeness report at the cut (R286). -/
structure MemberReport where
  member : Nat
  epoch : W32
  hold0 : BitVec 16
  hold1 : BitVec 16
  hold2 : BitVec 16
  deriving DecidableEq, Repr, Inhabited

/-- A block asked of another site for an unreadable line (R338): the line and its kind, the command that reads it, the
path of Table 14.4, the site, the block's class (0 base, 1 outer momentum, 4 delta), its epoch and number, the site of
its delta, and the cost of the recovery. -/
structure LineWait where
  line : Nat
  kind : LineKind
  adm : Nat
  path : Nat
  site : Nat
  what : Nat
  epoch : Nat
  block : Nat
  owner : Nat
  cost : Nat
  parts : List (Nat × List Byte)
  deriving DecidableEq, Repr, Inhabited

/-- The join of a bay and everything the Scarf engine holds for it (R273 to R294). -/
structure Join where
  blk : JoinBlk
  group : Nat
  keySlot : Nat
  site : Nat
  /-- The SCARF_JOIN that waits for a hello, and when the hellos were sent; none once joined. -/
  joining : Option (Nat × Nat)
  leave : Option Nat
  keyHeld : Bool
  rtxGranules : List Nat
  recvGranules : List Nat
  nextEpoch : W32
  fresh : Bool
  detached : Bool
  close : Option Close
  /-- Blocks marked done for the close of the next epoch. -/
  passMarks : List Nat
  forms : List Form
  catchup : Option Catchup
  fetch : Option Fetch
  landed : List Landed
  bundles : List Bundle
  nextSeq : W32
  ctlSeq : W32
  rx : List RxBundle
  /-- Bundles that count as complete in a SACK, by site. -/
  complete : List (Nat × W32)
  parts : List DeltaPart
  dropped : List (Nat × W32)
  merged : List (Nat × W32)
  ctlOut : List CtlOut
  /-- Datagrams held because no named port is UP. -/
  portq : List (Nat × Nat × List Byte)
  srtt : List (Nat × Nat)
  lastHeard : List (Nat × Nat)
  unreach : List Nat
  /-- Per site: fragments not yet acknowledged, when the first of them arrived, and the SENT of the newest. -/
  ackDue : List (Nat × Nat × Nat × Nat)
  banned : List Nat
  vectors : List AdmVec
  reports : List MemberReport
  /-- The next epoch whose admission cut, and whose finality, is to come. -/
  nextCut : Nat
  nextFinal : Nat
  entries : List Ledger
  published : List W32
  prepared : List Prepared
  digests : List DigestRec
  /-- Catch-up requests that wait for this site's own settled base. -/
  requests : List (Nat × List Byte)
  /-- Every pair of a bundle and a destination granted so far, as (epoch, seq, site) (R187). -/
  granted : List (W32 × W32 × Nat)
  /-- The NONCE_PREFIX of each peer's last hello: another one is another join of the peer. -/
  peerPre : List (Nat × W64)
  /-- Epochs below this one have all been merged or dropped here (R284, R289, R294). -/
  oldEpochs : Nat
  lineWaits : List LineWait
  deriving DecidableEq, Repr, Inhabited

/-! ### The bay -/

/-- One bay. -/
structure Bay where
  st : BayState
  bind : BindRec
  regs : BayRegs
  flags : W32
  sqs : List SubQ
  cqs : List CompQ
  counters : List Counter
  pages : List Page
  keys : List KeySlot
  txn : Option (List Staged)
  /-- The admission numbers that were taken while the last transaction that was knocked down was open (R209). -/
  txnSpan : Nat × Nat
  flow : Flow
  train : Train
  groups : List Group
  colls : List Coll
  earlyColls : List CollSeg
  earlyJoins : List (Nat × JoinPacket)
  trigs : List Trig
  xfers : List Xfer
  ckpt : Ckpt
  join : Option Join
  log : Log
  tele : List Nat
  since : Nat
  /-- A failure warning on a unit of the bay awaits its predictive cut (R324, R343). -/
  warned : Bool
  deriving DecidableEq, Repr, Inhabited

/-! ### The device -/

/-- Site time (R391 to R393, Table 18.4). -/
structure Clock where
  uptime : Nat
  site : Nat
  frac : Int
  state : Nat
  todSeen : Bool
  leap : Bool
  stepped : Bool
  lastPps : Nat
  lastEdge : Option Nat
  ppsError : Int
  taiUtc : Nat
  accuracy : Nat
  trim : Int
  /-- The bytes of the governing time-of-day frame, and the uptime at its end. -/
  frame : Option (List Byte × Nat)
  goodEdges : Nat
  bigErr : Nat
  slewing : Bool
  /-- The unit has been LOCKED since the boot began (R375). -/
  locked : Bool
  deriving DecidableEq, Repr, Inhabited

/-- Factory values (R369, R374): fuses and ROM. -/
structure Factory where
  uid : Nat
  stepping : Nat
  defective : List Nat
  goodCores : List Nat
  goodBanks : List Nat
  guard : List Nat
  burnIn : List Nat
  farMacs : List Nat
  romKeys : List (List Byte)
  revoked : List Nat
  deriving DecidableEq, Repr, Inhabited

/-- A bank-select record (R362). -/
structure SelRec where
  seq : Nat
  active : Nat
  pending : Option Nat
  deriving DecidableEq, Repr, Inhabited

/-- The flash (Table 15.4). A copy that is `none` has no valid CRC. -/
structure Flash where
  sel0 : Option SelRec
  sel1 : Option SelRec
  bankA : List (List Byte)
  bankB : List (List Byte)
  golden : List (List Byte)
  nv0 : List Byte
  nv1 : List Byte
  licences : List (List Byte)
  bootLog : List Rec
  hist0 : List Byte
  hist1 : List Byte
  events : List Rec
  repair : List Nat
  repairCores : List (Nat × Nat)
  repairBanks : List (Nat × Nat)
  /-- Cubes that BIST replaced: cluster, engine, cube. -/
  repairCubes : List (Nat × Nat × Nat)
  /-- Tower or package (8 + package) of every row that BIST added. -/
  repairRows : List Nat
  deriving DecidableEq, Repr, Inhabited

/-- Boot progress (R351 to R363, register 0x050). -/
structure Boot where
  stage : Nat
  ready : Bool
  mgmtOnly : Bool
  warm : Bool
  fastPath : Bool
  goldenUsed : Bool
  versions : List W64
  start : Nat
  stageAt : Nat
  trial : Option Nat
  replaced : Bool
  stored : Bool
  prevReady : Bool
  selChanged : Bool
  linkUp : Bool
  /-- The set of images cached in the device reserve: their versions, and whether a golden one is among them. -/
  cached : List W64 × Bool
  /-- The payload of the GCRT image of the set. -/
  payload : List Byte
  /-- The boot ROM's recovery responder answers (R366). -/
  recovery : Bool
  /-- The bank of an image slot that this boot takes. -/
  bank : Nat
  /-- The flash's block protection over the golden bank is set (R360). -/
  goldenLocked : Bool
  deriving DecidableEq, Repr, Inhabited

/-- Device registers and pins (Table 18.2, R394). `hold` is why nothing runs: 0 running, 1 no power, 2 held in reset,
3 held in test, 4 powered down. -/
structure Dev where
  alarm : BitVec 6
  condition : BitVec 4
  fatal : Bool
  intCause : BitVec 8
  intMask : BitVec 8
  devVector : BitVec 7
  clusterBusy : List (Nat × Nat)
  rejected : Bool
  poweringDown : Bool
  devReady : Bool
  thermtrip : Bool
  /-- The balls RESET_N and PCIE_PERST_N are low (R394). -/
  resetLow : Bool
  perstLow : Bool
  hold : Nat
  deriving DecidableEq, Repr, Inhabited

/-- The control pair (Table 18.3): registers and ring state. -/
structure Ctl where
  sqBase : W64
  cqBase : W64
  sqLog2 : BitVec 5
  cqLog2 : BitVec 5
  cqVector : BitVec 7
  coalCount : BitVec 8
  en : Bool
  live : Bool
  err : Bool
  dbErr : Bool
  coalTime : BitVec 10
  sq : SubQ
  cq : CompQ
  deriving DecidableEq, Repr, Inhabited

/-- The urgent queue (R163, Table 18.3). -/
structure Urg where
  cqBase : W64
  cqLog2 : BitVec 4
  vector : BitVec 7
  dbErr : Bool
  en : Bool
  tailReg : Nat
  sampled : Nat
  head : Nat
  holding : Option Nat
  cqTail : Nat
  cqHead : Nat
  phase : Bool
  deriving DecidableEq, Repr, Inhabited

/-- A physical cluster (R29, R30, R88, R335 to R345). -/
structure Cluster where
  usable : Bool
  retired : Bool
  retiring : Bool
  goodCores : BitVec 10
  retiredCores : BitVec 10
  goodBanks : BitVec 68
  /-- Per engine: failing cubes awaiting substitution, physical spares used as (failed, spare), fenced. -/
  failing : List (Nat × Nat)
  spares : List (Nat × Nat × Nat)
  fenced : List Nat
  offsetMv : Nat
  atCeiling : Bool
  coreUnc : List (Nat × Nat)
  bankUnc : List (Nat × Nat)
  /-- Site time at which its retirement was requested (R341). -/
  askedAt : Nat
  deriving DecidableEq, Repr, Inhabited

/-- A DMA descriptor on a channel (R108), with the bay and the launch that queued it. -/
structure Dma where
  bay : Nat
  adm : Nat
  src : Nat
  dst : Nat
  len : Nat
  count : Bool
  ctr : Nat
  deriving DecidableEq, Repr, Inhabited

/-- A general core (R98 to R108): `sew` is SEW in bytes, `vtype` holds the other bits of that register, `reserved` is the
reservation of lr (log 15). -/
structure Core where
  launch : Option Nat
  exited : Bool
  x : List W64
  f : List W64
  v : List Byte
  vl : Nat
  sew : Nat
  pc : W64
  tfmt : W64
  gseed : W64
  gpos : W64
  trsc : W64
  tdrop : W64
  dma0 : List Dma
  dma1 : List Dma
  fcsr : BitVec 8
  vstart : W64
  vcsr : BitVec 3
  vtype : W64
  instret : W64
  reserved : Option Nat
  deriving DecidableEq, Repr, Inhabited

/-- A packet that waits at a port: the command that sent it when one did (R251), whether it is being relayed (R256). -/
structure Queued where
  pkt : Packet
  adm : Option Nat
  relayed : Bool
  deriving DecidableEq, Repr, Inhabited

/-- A fabric port (R250 to R256, R260, R438). -/
structure Port where
  state : Nat
  disabled : Bool
  noPartner : Bool
  inOperation : Bool
  powered : Bool
  /-- Physical lane of each logical lane in service. -/
  lanes : List Nat
  badLanes : List Nat
  spared : Option Nat
  txFseq : Nat
  rxLast : Nat
  credits : List Nat
  owed : List Nat
  replay : List Flit
  asked : Option Nat
  replays : Nat
  await : List Packet
  /-- Slots received of a packet that is not complete yet. -/
  part : List Byte
  rx : List Packet
  txq : List Queued
  /-- The virtual channel that the weighted round robin serves, and the packets left to it (R256). -/
  turn : Nat × Nat
  /-- Of the present 1,024 data flit slots: those sent, those of VC0 and those of VC1 (R256). -/
  window : Nat × Nat × Nat
  /-- Per virtual channel: the bay served, the packets left to it, and whether the last packet was relayed (R203, R256). -/
  bayTurn : List (Nat × Nat × Bool)
  /-- Packets that the next flit must stomp: SNODE and TAG (R260). -/
  stomps : List (Nat × Nat)
  /-- ACKSEQ of the last flit sent (R252). -/
  acked : Nat
  /-- Uptime from which the LINK image may next try to return the port (R250). -/
  nextTry : Nat
  /-- Packets that the last data flit of this port brought and that went on: the port they left on, SNODE and TAG. -/
  forwarded : List (Nat × Nat × Nat)
  goodFlits : Nat
  txFlits : Nat
  rxFlits : Nat
  replayCount : Nat
  corrSymbols : Nat
  uncorrCw : Nat
  relayed : Nat
  deriving DecidableEq, Repr, Inhabited

/-- A far port (R284, R383, R438). -/
structure FarPort where
  state : Nat
  mac : Nat
  txFrames : Nat
  rxFrames : Nat
  corrSymbols : Nat
  uncorrCw : Nat
  deriving DecidableEq, Repr, Inhabited

/-- The NV overlay's result (Table 15.8). -/
structure Nv where
  node : Nat
  routes : List (Nat × Nat)
  portUnused : Nat
  vcWeights : List Nat
  treeMax : Nat
  chainAbove : Nat
  graceMs : Nat
  presetOffsets : List Int
  tempTrim : List Int
  ppsDelay : Nat
  sramWarn : Nat
  tier1Warn : Nat
  tier2Warn : Nat
  laneWarn : Nat
  deriving DecidableEq, Repr, Inhabited

/-- Thermal protection of a die (R414, R415). -/
structure Die where
  level : Nat
  /-- Per level 1 to 3: consecutive samples at or above its entry; since when every sensor reads below it by 5 C. -/
  hot : List Nat
  cool : List (Option Nat)
  leftAt : Option Nat
  highest : Nat
  deriving DecidableEq, Repr, Inhabited

/-- A DRAM part held by its controller (R414). -/
structure DramHold where
  tier2 : Bool
  part : Nat
  since : Nat
  deriving DecidableEq, Repr, Inhabited

/-- A seasoning record (Table 14.7) with its interval counts, newest first (R347). -/
structure SeasonRec where
  kind : Nat
  unit : Nat
  samples : Nat
  margin : Nat
  required : Nat
  warned : Bool
  corr : List Nat
  uncorr : Nat
  lastWarn : Option Nat
  deriving DecidableEq, Repr, Inhabited

/-- Seasoning (R342 to R348). `tenths` counts 10-minute intervals of powered operation, `sampledAt` is the uptime of the
last sample, `written` the intervals at the last history write; SEQ and SITE_TIME are the governing copy's. -/
structure Season where
  recs : List SeasonRec
  tenths : Nat
  seq : Nat
  siteTime : Nat
  sampledAt : Nat
  written : Nat
  /-- Uncorrectable core errors of the interval: core key, count (Table 14.6). -/
  coreHits : List (Nat × Nat)
  deriving DecidableEq, Repr, Inhabited

/-- The TRNG (R315 to R318); `run` is the run of equal raw samples that the repetition count test has reached. -/
structure Trng where
  ready : Bool
  stuck : Bool
  failures : Nat
  pool : List Byte
  lastBay : Nat
  reservations : List (Nat × Nat)
  run : Nat × Bool
  deriving DecidableEq, Repr, Inhabited

/-- What a bus owner has given the management controller (R386, R387): the dynamic address of the I3C target and the
MCTP endpoint id. -/
structure Mgmt where
  i3c : Option (BitVec 7)
  eid : Option (BitVec 8)
  deriving DecidableEq, Repr, Inhabited

/-- A peg in progress (R211), with the bay's record and pages as the old version had them (R212). -/
structure Peg where
  bay : Nat
  adm : Nat
  since : Nat
  drainNs : Nat
  clusters : W32
  granules : List Nat
  absorbed : Nat
  drained : Bool
  oldBind : BindRec
  oldPages : List Page
  deriving DecidableEq, Repr, Inhabited

/-- Licence features (Table 7.2 LICENCES). -/
structure Features where
  cl32 : Bool
  far : Bool
  fp64 : Bool
  t3 : Nat
  train : Bool
  deriving DecidableEq, Repr, Inhabited

/-- The Joiner's fetch arbitration (R154): the bay served last, and per bay the queue being served with its grants
left in the round. -/
structure Joiner where
  lastBay : Nat
  rounds : List (Nat × Nat)
  deriving DecidableEq, Repr, Inhabited

/-- What failed in an engine while a strip ran (R87): the residue of a physical cube or of a narrow unit, the ECC of the
accumulator SRAM (R77), or a line that the engine read from cluster SRAM or DRAM (R97). -/
inductive EnginePart where
  | cube (k : Nat)
  | narrow
  | accumulator
  | line
  deriving DecidableEq, Repr, Inhabited

/-- A failed check of an engine (R87, R88): the physical cluster, engine and part, the strip of the command, the core
cycles the strip had spent when it was detected, and how many times in a row the strip fails. -/
structure ResidueFault where
  cluster : Nat
  engine : Nat
  part : EnginePart
  strip : Nat
  spent : Nat
  times : Nat
  deriving DecidableEq, Repr, Inhabited

/-- An error on the way of a bay's traffic (Table 14.2, classes 0, 1 and 5 of Table 14.3): replays of a bridge (R26);
retries of the PCIe or a CXL link; a parity refetch of a core's instruction cache; a single-bit correction on a mesh or
control-network link of a stop; a double-bit error on the control network; a correction of the cluster SRAM or of the
local memory of a core. -/
inductive PathFault where
  | bridge (unit n : Nat)
  | hostLink (n : Nat)
  | icache (cluster core : Nat)
  | mesh (stop : Nat)
  | control (stop : Nat)
  | controlDouble (stop : Nat)
  | sramBit (cluster bank : Nat)
  | localBit (cluster core : Nat)
  deriving DecidableEq, Repr, Inhabited

/-- Failures of a codec lane's self-check (R305): how many blocks are coded before the one that fails, the lane, and how
many times in a row the block fails on it. -/
structure CodecFault where
  after : Nat
  lane : Nat
  times : Nat
  deriving DecidableEq, Repr, Inhabited

/-- Physical faults that strike inside a later step (log 8): failed checks of engine strips (R87); residue failures
of a reduction chunk (group, chunk, times; R268); failures of the codec's self-check (R305); residue
failures of the update unit (times per state block in turn; R240); chunks that the cipher engine's two pipelines
computed differently (the pipeline and how often, Table 14.2); errors on the way of a bay's traffic (R336). -/
structure FaultPlan where
  residue : List ResidueFault
  reduction : List (Nat × Nat × Nat)
  codec : List CodecFault
  update : List Nat
  cipher : List (Nat × Nat)
  path : List (Nat × PathFault)
  deriving DecidableEq, Repr, Inhabited

/-- Corrected events of a unit since its last summary record (class 0 of Table 14.3), for the units that have no
seasoning record: UNIT_KIND, UNIT, SUBUNIT (Table 14.9) and how many. -/
structure MinorCount where
  kind : Nat
  unit : Nat
  sub : Nat
  count : Nat
  deriving DecidableEq, Repr, Inhabited

/-- The machine. -/
structure State where
  pending : List Instr
  free : Nat
  faults : FaultPlan
  outs : List Output
  clock : Clock
  factory : Factory
  flash : Flash
  boot : Boot
  bootFeat : Features
  effFeat : Features
  dev : Dev
  ctl : Ctl
  urg : Urg
  urgRing : Mem
  msix : Mem
  cmds : List Slot
  nextAdm : Nat
  nextFin : Nat
  joiner : Joiner
  version : W32
  peg : Option Peg
  zeroMarks : List Nat
  clusters : List Cluster
  lmap : List (Option Nat)
  lrisk : List Nat
  lfailed : List Nat
  cores : List (Nat × Core)
  /-- The boot block of every core that runs GCRT (R358, R359). -/
  gcrt : List (Nat × List Byte)
  dram : Mem
  sram : Mem
  local_ : Mem
  host : Mem
  hostDeny : List (Nat × Nat)
  poison : List Nat
  t3cap : List Nat
  t3down : List Nat
  /-- Row repairs in force in each tower (0 to 7) or package (8 to 23), one entry a repair (R134). -/
  dramRepairs : List Nat
  nv : Nv
  ports : List Port
  far : List FarPort
  /-- Bytes granted to each bay with bundles waiting, since the set of those bays last changed (R203). -/
  farSent : List (Nat × Nat)
  devTele : List Nat
  devSince : Nat
  dies : List Die
  sensors : List Nat
  dramHolds : List DramHold
  codecFenced : List Nat
  /-- Corrected events that wait for their summary record (R337). -/
  minor : List MinorCount
  power : List Bool
  vin : Nat
  iin : Nat
  pout : Nat
  mgmt : Mgmt
  season : Season
  errLog : Log
  bootLog : Log
  trng : Trng
  bays : List Bay
  deriving DecidableEq, Repr, Inhabited

/-- The named faults: none. No rule of the manual stops the block; every failure is a completion status, a log record
or an error bit (INVENTORY.md, "Faults"), so nothing raises a fault. -/
inductive Fault where
  deriving DecidableEq, Repr

/-- The named refusals. `notModelled` is raised only by an arm of `exec` that has no meaning yet; it is safe. -/
inductive Refusal where
  | notModelled (mnemonic : String)
  deriving DecidableEq, Repr

/-! ### Reset -/

def Log.empty (cap : Nat) : Log := ⟨cap, [], 0, 0, 0⟩

def SubQ.none_ : SubQ := ⟨false, 0, 6, 0, 16, 0, 0, none⟩

def CompQ.none_ : CompQ := ⟨false, 0, 6, 0, 0, 0, 0, 0, true, 0, none⟩

/-- A record's values when the bay leaves UNBOUND (Table 8.1). -/
def BindRec.fresh : BindRec := ⟨0, [], false, 256, List.replicate 8 16, 0⟩

def BayRegs.reset : BayRegs := ⟨false, false, 0, 0, 0, 0, 0, 6, 6, 0, 0, false, false, false, 0⟩

def Flow.none_ : Flow := ⟨[], none, [], none, false, [], false, 0, none⟩

def Train.none_ : Train := ⟨none, [], [], [], [], none, none, none, [], [], [], [], 0, [], 0, [], 0⟩

def Ckpt.none_ : Ckpt := ⟨none, none, none, none⟩

def Bay.reset : Bay :=
  { st := .unbound, bind := BindRec.fresh, regs := BayRegs.reset, flags := 0,
    sqs := List.replicate 8 SubQ.none_, cqs := List.replicate 8 CompQ.none_,
    counters := List.replicate 256 ⟨0, false⟩, pages := [], keys := List.replicate 4 .empty, txn := none,
    txnSpan := (0, 0), flow := Flow.none_, train := Train.none_, groups := [], colls := [], earlyColls := [],
    earlyJoins := [], trigs := [], xfers := [], ckpt := Ckpt.none_, join := none, log := Log.empty 4096,
    tele := List.replicate 20 0, since := 0, warned := false }

def Clock.reset : Clock :=
  ⟨0, 0, 0, 0, false, false, false, 0, none, 0, 0, 0, 0, none, 0, 0, false, false⟩

/-- Log 1: an MQF-1632 with no defect. -/
def Factory.reset : Factory :=
  ⟨0, 0, [], List.replicate 34 0x3FF, List.replicate 34 (2 ^ 68 - 1), List.replicate 34 0, List.replicate 282 0,
   [0, 0], [[], [], [], []], []⟩

/-- The factory licence of an MQF-1632 without ordered features (R374, log 1): SERIAL 1, CL32, no end. -/
def Flash.factoryLicence : List Byte :=
  [0x43#8, 0x4C#8, 0x51#8, 0x4D#8, 1#8, 0#8, 2#8, 1#8] ++ List.replicate 16 0#8 ++ [1#8, 0#8, 0#8, 0#8] ++
    List.replicate 12 0#8 ++ List.replicate 8 0xFF#8 ++ List.replicate 80 0#8

def Flash.reset : Flash :=
  ⟨none, none, List.replicate 5 [], List.replicate 5 [], List.replicate 5 [], [], [], [Flash.factoryLicence], [], [],
   [], [], [], [], [], [], []⟩

def Boot.reset : Boot :=
  ⟨1, false, false, false, false, false, List.replicate 5 0, 0, 0, none, false, false, false, false, false,
   (List.replicate 5 0, false), [], false, 0, false⟩

/-- The feature set when no licence qualifies (R372). -/
def Features.none_ : Features := ⟨false, false, false, 0, false⟩

def Dev.reset : Dev := ⟨0, 0, false, 0, 0, 0, [], false, false, false, false, false, false, 1⟩

def Ctl.reset : Ctl := ⟨0, 0, 6, 6, 0, 0, false, false, false, false, 0, SubQ.none_, CompQ.none_⟩

def Urg.reset : Urg := ⟨0, 6, 0, false, false, 0, 0, 0, none, 0, 0, true⟩

def Cluster.reset : Cluster :=
  ⟨true, false, false, 0x3FF, 0, BitVec.allOnes 68, [], [], [], 0, false, [], [], 0⟩

def Core.reset : Core :=
  ⟨none, false, List.replicate 32 0, List.replicate 32 0, List.replicate 4096 0, 0, 4, 0, 0x44, 0, 0, 0, 0, [], [], 0, 0, 0, 0,
   0, none⟩

/-- The receive buffer of Table 10.4: the credits a sender starts with. -/
def Port.buffers : List Nat := [256, 1024, 4096, 4096, 2048, 2048, 1024, 256]

def Port.reset : Port :=
  ⟨0, false, false, false, false, List.range 16, [], none, 0, 4095, Port.buffers, List.replicate 8 0, [], none, 0,
   [], [], [], [], (2, 0), (0, 0, 0), List.replicate 8 (15, 0, false), [], 4095, 0, [], 0, 0, 0, 0, 0, 0, 0⟩

def FarPort.reset : FarPort := ⟨0, 0, 0, 0, 0, 0⟩

/-- The factory values of Table 15.8. -/
def Nv.factory : Nv :=
  ⟨0x0FFF, [], 0, [8, 8, 4, 4, 2, 1], 65536, 1048576, 250, List.replicate 220 0, List.replicate 64 0, 0, 100, 1000,
   500, 12⟩

def Die.reset : Die := ⟨0, [0, 0, 0], [none, none, none], none, 0⟩

/-- The 282 units in the order of SEASON_REPORT (R348): by UNIT_KIND of Table 14.9, then by unit. -/
def Season.units : List (Nat × Nat) :=
  (List.range 34).map (fun c => (2, c)) ++
  ((List.range 12).map (fun p => (List.range 17).map (fun l => (8, p * 32 + l)))).flatten ++
  (List.range 8).map (fun t => (10, t)) ++ (List.range 16).map (fun p => (11, p)) ++
  (List.range 4).map (fun l => (12, l)) ++
  ((List.range 2).map (fun p => (List.range 8).map (fun l => (13, p * 32 + l)))).flatten

def Season.reset : Season := ⟨Season.units.map (fun u => ⟨u.1, u.2, 0, 0, 0, false, [], 0, none⟩), 0, 0, 0, 0, 0, []⟩

def Trng.reset : Trng := ⟨false, false, 0, [], 15, [], (0, false)⟩

/-- The device right after a cold reset: no input power yet, every register at its reset value. -/
def State.reset : State :=
  { pending := [], free := 0, faults := ⟨[], [], [], [], [], []⟩, outs := [], clock := Clock.reset,
    factory := Factory.reset, flash := Flash.reset, boot := Boot.reset, bootFeat := Features.none_,
    effFeat := Features.none_, dev := Dev.reset, ctl := Ctl.reset, urg := Urg.reset, urgRing := [], msix := [],
    cmds := [], nextAdm := 0, nextFin := 0, joiner := ⟨15, List.replicate 16 (0, 0)⟩, version := 0, peg := none,
    zeroMarks := [], clusters := List.replicate 34 Cluster.reset, lmap := List.replicate 32 none, lrisk := [],
    lfailed := [], cores := [], gcrt := [], dram := [], sram := [], local_ := [], host := [], hostDeny := [],
    poison := [], t3cap := [0, 0, 0, 0], t3down := [], dramRepairs := [], nv := Nv.factory, ports := List.replicate 12 Port.reset,
    far := List.replicate 2 FarPort.reset, farSent := [], devTele := List.replicate 6 0, devSince := 0,
    dies := List.replicate 3 Die.reset, sensors := List.replicate 64 100, dramHolds := [], codecFenced := [], minor := [],
    power := List.replicate 64 false, vin := 0, iin := 0, pout := 0, mgmt := ⟨none, none⟩, season := Season.reset,
    errLog := Log.empty 65536, bootLog := Log.empty 1024, trng := Trng.reset,
    bays := List.replicate 16 Bay.reset }

end Sys2Proof.Machine
end

