-- ==== Sys2Proof/Machine/Mem.lean ====
section
/-!
DEFINITION. Byte memory in its canonical form: reads, writes, clears, and the invariant `Mem.wf`. An address that is not
listed reads as zero (log 2).
-/
namespace Sys2Proof.Machine

/-- The byte at an address. -/
def Mem.get : Mem → Nat → Byte
  | [], _ => 0
  | (k, v) :: m, a => if k = a then v else Mem.get m a

/-- The memory with one byte written; a zero byte is left out of the list. -/
def Mem.set : Mem → Nat → Byte → Mem
  | [], a, b => if b = 0 then [] else [(a, b)]
  | (k, v) :: m, a, b =>
    if a < k then (if b = 0 then (k, v) :: m else (a, b) :: (k, v) :: m)
    else if a = k then (if b = 0 then m else (a, b) :: m)
    else (k, v) :: Mem.set m a b

/-- Bytes written from an address on, but for those on the 64-byte lines in `skip` (R339). -/
def Mem.write (skip : List Nat) : Mem → Nat → List Byte → Mem
  | m, _, [] => m
  | m, a, b :: bs => Mem.write skip (if (a / 64) ∈ skip then m else Mem.set m a b) (a + 1) bs

/-- `n` bytes from an address on. -/
def Mem.read (m : Mem) (a n : Nat) : List Byte := (List.range n).map (fun i => Mem.get m (a + i))

/-- The memory with a range cleared to zero. -/
def Mem.clear (m : Mem) (a n : Nat) : Mem := m.filter (fun c => decide (c.1 < a) || decide (a + n ≤ c.1))

/-- The canonical form: addresses strictly rising, no zero byte listed. -/
abbrev Mem.wf (m : Mem) : Prop := m.Pairwise (fun a b => a.1 < b.1) ∧ ∀ c ∈ m, c.2 ≠ 0

/-! ### The spaces of the device (INVENTORY.md, "Memory and ordering") -/

/-- A place that an address reaches: DRAM by DPA, cluster SRAM by physical cluster * 32 MiB + offset, core local memory
by (physical cluster * 10 + core) * 256 KiB + offset, host memory by requester id * 2^64 + I/O virtual address. -/
inductive Space where
  | dram | sram | local_ | host
  deriving DecidableEq, Repr, Inhabited

structure Loc where
  sp : Space
  addr : Nat
  deriving DecidableEq, Repr, Inhabited

/-- Bytes of a 2 MiB range, the unit of zero marks (R214) and of the smaller pages (R123). -/
def mib2 : Nat := 2 ^ 21

def gib : Nat := 2 ^ 30

/-- The key of a line in the poison map (R339). -/
def Loc.line (l : Loc) : Nat := match l.sp with
  | .dram => l.addr / 64
  | .sram => 2 ^ 60 + l.addr / 64
  | .local_ => 2 ^ 61 + l.addr / 64
  | .host => 2 ^ 80 + l.addr / 64

/-- A DRAM byte; a marked range reads zero (R214). -/
def State.dramByte (s : State) (a : Nat) : Byte :=
  if (a / mib2) ∈ s.zeroMarks then 0 else Mem.get s.dram a

/-- Bytes at a place. -/
def State.readLoc (s : State) (l : Loc) (n : Nat) : List Byte := match l.sp with
  | .dram => (List.range n).map (fun i => s.dramByte (l.addr + i))
  | .sram => Mem.read s.sram l.addr n
  | .local_ => Mem.read s.local_ l.addr n
  | .host => Mem.read s.host l.addr n

/-- The 64-byte lines that `n` bytes at `a` touch. -/
def linesOf (a n : Nat) : List Nat := if n = 0 then [] else List.range' (a / 64) ((a + n - 1) / 64 - a / 64 + 1)

/-- `n` bytes at `a` cover line `x` whole. -/
def coversLine (a n x : Nat) : Bool := decide (a ≤ 64 * x) && decide (64 * x + 64 ≤ a + n)

/-- The base key of a space in the poison map. -/
def Space.base (sp : Space) : Nat := (Loc.mk sp 0).line

/-- Lines (in the space's own numbering) that a write of `n` bytes at a place must skip: poisoned and not covered whole
(R339). -/
def State.skipped (s : State) (l : Loc) (n : Nat) : List Nat :=
  (s.poison.filter (fun k =>
    decide (l.line ≤ k) && decide (k < l.sp.base + (l.addr + n + 63) / 64) && decide (0 < n) &&
      !coversLine l.addr n (k - l.sp.base))).map (· - l.sp.base)

/-- Some line that the bytes touch is poisoned. -/
def State.poisoned (s : State) (l : Loc) (n : Nat) : Bool :=
  decide (0 < n) && s.poison.any (fun k => decide (l.line ≤ k) && decide (k < l.sp.base + (l.addr + n + 63) / 64))

/-- The first write into a marked range fills the range with zero and clears its mark (R214). -/
def State.unmark (s : State) (r : Nat) : State :=
  if r ∈ s.zeroMarks then
    { s with dram := Mem.clear s.dram (r * mib2) mib2, zeroMarks := s.zeroMarks.filter (· != r) }
  else s

/-- The 2 MiB ranges that `n` bytes at `a` touch. -/
def rangesOf (a n : Nat) : List Nat := if n = 0 then [] else List.range' (a / mib2) ((a + n - 1) / mib2 - a / mib2 + 1)

/-- Bytes written at a place, with the poison rules of R339. -/
def State.writeLoc (s : State) (l : Loc) (bs : List Byte) : State :=
  let n := bs.length
  let skip := s.skipped l n
  let s := { s with poison := s.poison.filter (fun k =>
    !(decide (l.sp.base ≤ k) && decide (k < l.sp.base + 2 ^ 59) && coversLine l.addr n (k - l.sp.base))) }
  match l.sp with
  | .dram =>
    let s := (rangesOf l.addr n).foldl State.unmark s
    { s with dram := Mem.write skip s.dram l.addr bs }
  | .sram => { s with sram := Mem.write skip s.sram l.addr bs }
  | .local_ => { s with local_ := Mem.write skip s.local_ l.addr bs }
  | .host => { s with host := Mem.write [] s.host l.addr bs }

/-- A place's bytes cleared to zero, its poison marks with them (R214, R218). -/
def State.clearLoc (s : State) (l : Loc) (n : Nat) : State :=
  let s := { s with poison := s.poison.filter (fun k =>
    !(decide (l.line ≤ k) && decide (k < l.sp.base + (l.addr + n + 63) / 64))) }
  match l.sp with
  | .dram => { s with dram := Mem.clear s.dram l.addr n }
  | .sram => { s with sram := Mem.clear s.sram l.addr n }
  | .local_ => { s with local_ := Mem.clear s.local_ l.addr n }
  | .host => { s with host := Mem.clear s.host l.addr n }

end Sys2Proof.Machine
end

