-- ==== Sys2Proof/Machine/Access.lean ====
section
/-!
DEFINITION. Bay addresses and the accesses through them: translation and rights (R122, R123, R126, R141), the physical
function's I/O virtual addresses (R173), poisoned and lost memory (R339, R382).
-/
namespace Sys2Proof.Machine

/-- The bay with a number. -/
def State.bay (s : State) (b : Nat) : Bay := nth s.bays b

/-- The bay with a number changed. -/
def State.setBay (s : State) (b : Nat) (f : Bay → Bay) : State := { s with bays := updNth s.bays b f }

/-- Logical clusters that the device presents (R2): 32 with CL32 applied at boot, else 24. -/
def State.lclusters (s : State) : Nat := if s.bootFeat.cl32 then 32 else 24

/-- The physical cluster behind a logical one (R29). -/
def State.phys (s : State) (lc : Nat) : Option Nat := s.lmap.getD lc none

/-- The physical cluster with a number changed. -/
def State.setCluster (s : State) (c : Nat) (f : Cluster → Cluster) : State :=
  { s with clusters := updNth s.clusters c f }

/-- The requester id of a bay's virtual function, and of the physical function (R122, R173): 0 is the physical one. -/
def rid (b : Nat) : Nat := b + 1

/-- The place of an I/O virtual address. -/
def hostLoc (r iova : Nat) : Loc := ⟨.host, r * 2 ^ 64 + iova⟩

/-- The host's IOMMU translates the whole range for this requester (R122). -/
def State.hostOk (s : State) (r iova n : Nat) : Bool :=
  decide (iova + n ≤ 2 ^ 64) &&
    s.hostDeny.all (fun d => !(d.1 == r && decide (d.2 * 4096 < iova + n) && decide (iova < (d.2 + 1) * 4096)))

/-- What an access wants (R123, R141, R275): a read or a write of an ordinary command, the checkpoint engine's own use
of kerf pages, the Scarf engine's own use of its landing store. -/
inductive Acc where
  | rd | wr | kerf | land
  deriving DecidableEq, Repr, Inhabited

def Page.size (p : Page) : Nat := if p.big then gib else mib2

/-- The bay's page that holds an address. -/
def Bay.pageAt (bay : Bay) (a : Nat) : Option Page :=
  bay.pages.find? (fun p => decide (p.addr ≤ a) && decide (a < p.addr + p.size))

def Page.allows (p : Page) : Acc → Bool
  | .rd => p.read && !p.kerf
  | .wr => p.write && !p.kerf
  | .kerf => p.kerf
  | .land => p.write && !p.kerf

/-- An ordinary access of a joined bay meets its landing store (R275). -/
def Bay.inLanding (bay : Bay) (acc : Acc) (a n : Nat) : Bool := match bay.join with
  | some j =>
    j.joining.isNone && (acc == .rd || acc == .wr) && decide (a < j.blk.landAddr + j.blk.landLen) &&
      decide (j.blk.landAddr < a + n)
  | none => false

/-- A logical cluster that the bay may name: bound to it and below the licensed count (R122). -/
def State.clusterOk (s : State) (b lc : Nat) : Bool :=
  decide (lc < s.lclusters) && (s.bay b).bind.clusters.getLsbD lc

/-- The place that a bay address reaches, when the access is permitted (Table 5.5). The range of the access is within
one 2 MiB range. -/
def State.translate (s : State) (b : Nat) (acc : Acc) (a n : Nat) : Option Loc :=
  if a < 2 ^ 30 then
    if s.clusterOk b (a / 2 ^ 25) && (acc == .rd || acc == .wr) then
      (s.phys (a / 2 ^ 25)).map (fun p => ⟨.sram, p * 2 ^ 25 + a % 2 ^ 25⟩)
    else none
  else if a < 2 ^ 47 then
    match (s.bay b).pageAt a with
    | some p => if p.allows acc && !(s.bay b).inLanding acc a n then some ⟨.dram, p.dpa + (a - p.addr)⟩ else none
    | none => none
  else if a < 2 ^ 48 then
    if s.hostOk (rid b) (a - 2 ^ 47) n && (acc == .rd || acc == .wr) then some (hostLoc (rid b) (a - 2 ^ 47)) else none
  else none

/-- A range cut at 2 MiB boundaries, ascending: (address, length) pieces. -/
def pieces (a n : Nat) : List (Nat × Nat) :=
  (rangesOf a n).map (fun r =>
    let lo := max a (r * mib2)
    (lo, min (a + n) ((r + 1) * mib2) - lo))

/-- Every access to the range is permitted. -/
def State.rangeOk (s : State) (b : Nat) (acc : Acc) (a n : Nat) : Bool :=
  (pieces a n).all (fun p => (s.translate b acc p.1 p.2).isSome)

/-- A DPA lies behind an expander that reported a link-down (R382). -/
def State.lost (s : State) (l : Loc) : Bool :=
  l.sp == .dram && s.t3down.any (fun n => l.addr / 2 ^ 40 == 16 + n)

/-- Some byte of the range cannot be read: a poisoned line (R339), or an expander that is gone (R382). -/
def State.rangeBad (s : State) (b : Nat) (acc : Acc) (a n : Nat) : Bool :=
  (pieces a n).any (fun p => match s.translate b acc p.1 p.2 with
    | some l => s.poisoned l p.2 || s.lost l
    | none => false)

/-- The 64-byte lines of a range, as (address, length) pieces. -/
def linePieces (a n : Nat) : List (Nat × Nat) :=
  (linesOf a n).map (fun x => let lo := max a (64 * x); (lo, min (a + n) (64 * x + 64) - lo))

/-- The first address of a range at which its read meets an unreadable line. -/
def State.badAt (s : State) (b : Nat) (acc : Acc) (a n : Nat) : Option Nat :=
  let bad := fun (p : Nat × Nat) => match s.translate b acc p.1 p.2 with
    | some l => s.poisoned l p.2 || s.lost l
    | none => false
  (((pieces a n).find? bad).bind (fun p => (linePieces p.1 p.2).find? bad)).map (·.1)

/-- A write of the range meets a line that it must skip. -/
def State.rangeSkips (s : State) (b : Nat) (acc : Acc) (a n : Nat) : Bool :=
  (pieces a n).any (fun p => match s.translate b acc p.1 p.2 with
    | some l => !(s.skipped l p.2).isEmpty || s.lost l
    | none => false)

/-- Bytes of a range of bay addresses. -/
def State.readAcc (s : State) (b : Nat) (acc : Acc) (a n : Nat) : List Byte :=
  ((pieces a n).map (fun p => match s.translate b acc p.1 p.2 with
    | some l => s.readLoc l p.2
    | none => zeros p.2)).flatten

def State.readBay (s : State) (b a n : Nat) : List Byte := s.readAcc b .rd a n

/-- Bytes written over the pieces of a range, in ascending order; a piece that cannot be written is skipped. -/
def State.writePieces (b : Nat) (acc : Acc) : List (Nat × Nat) → List Byte → State → State
  | [], _, s => s
  | p :: ps, bs, s =>
    let s := match s.translate b acc p.1 p.2 with
      | some l => if s.lost l then s else s.writeLoc l (bs.take p.2)
      | none => s
    State.writePieces b acc ps (bs.drop p.2) s

def State.writeAcc (s : State) (b : Nat) (acc : Acc) (a : Nat) (bs : List Byte) : State :=
  State.writePieces b acc (pieces a bs.length) bs s

def State.writeBay (s : State) (b a : Nat) (bs : List Byte) : State := s.writeAcc b .wr a bs

/-- The status of the accesses to a command's ranges (R176): MACHINE_CHECK for a read that meets an unreadable line or
a write that must skip one, then ACCESS_DENIED. -/
def State.ioStatus (s : State) (b : Nat) (ins outs : List (Nat × Nat)) : Option Status :=
  if ins.any (fun r => s.rangeBad b .rd r.1 r.2) then some .machineCheck
  else if ins.any (fun r => !s.rangeOk b .rd r.1 r.2) || outs.any (fun r => !s.rangeOk b .wr r.1 r.2) then
    some .accessDenied
  else none

/-- The status after outputs were written: MACHINE_CHECK when a line was skipped (R339), else the one given. -/
def State.outStatus (s : State) (b : Nat) (outs : List (Nat × Nat)) (st : Status) : Status :=
  if outs.any (fun r => s.rangeSkips b .wr r.1 r.2) then .machineCheck else st

/-! ### Fabric addresses (R126, R127) -/

/-- Bits [63:62] are 10 and [55:48] zero: a fabric address of a member. -/
def isFabric (a : Nat) : Bool := decide (a / 2 ^ 62 = 2) && decide (a / 2 ^ 48 % 256 = 0)

def fabricMember (a : Nat) : Nat := a / 2 ^ 56 % 64

def fabricBay (a : Nat) : Nat := a % 2 ^ 48

/-- A 48-bit bay address in its 8-byte field: bits [63:48] zero. -/
def isBayAddr (a : Nat) : Bool := decide (a < 2 ^ 48)

/-- The right of another member to a range of the bay's device memory (R126). -/
def State.fabricOk (s : State) (b : Nat) (acc : Acc) (a n : Nat) : Bool :=
  decide (2 ^ 30 ≤ a) && decide (a + n ≤ 2 ^ 47) && (pieces a n).all (fun p =>
    match (s.bay b).pageAt p.1 with
    | some g => g.allows acc && g.fabric && !(s.bay b).inLanding acc p.1 p.2
    | none => false)

/-! ### Granules (R116, R118) -/

/-- A granule that names memory outside the reserve: its number is DPA >> 30. -/
def granuleMem (t3 : List Nat) (g : Nat) : Bool :=
  decide (g < 512) || (decide (2048 ≤ g) && decide (g < 4088)) ||
    (decide (16384 ≤ g) && decide (g < 20480) && decide (g % 1024 < nth t3 (g / 1024 - 16)))

/-- The tier 3 link in whose range a granule lies. -/
def granuleLink (g : Nat) : Option Nat := if 16384 ≤ g ∧ g < 20480 then some (g / 1024 - 16) else none

/-- A DPA lies in tier 1, tier 2. -/
def inTier1 (dpa : Nat) : Bool := decide (dpa < 2 ^ 39)
def inTier2 (dpa : Nat) : Bool := decide (2 ^ 41 ≤ dpa) && decide (dpa < 2 ^ 42)
def inTier3 (dpa : Nat) : Bool := decide (2 ^ 44 ≤ dpa) && decide (dpa < 20480 * 2 ^ 30)

/-- A range meets a page in tier 3. -/
def Bay.touchesTier3 (y : Bay) (a n : Nat) : Bool :=
  decide (0 < n) && y.pages.any (fun g => decide (a < g.addr + g.size) && decide (g.addr < a + n) && inTier3 g.dpa)

end Sys2Proof.Machine
end

