-- ==== Sys2Proof/Machine/Ops.lean ====
section
/-!
DEFINITION. The operations that the commands share: logs, interrupts and events (R349, R425, R431), event counters
(R160 to R162), finishing a command (R146 to R148, R155, R161), free values, flags, telemetry.
-/
namespace Sys2Proof.Machine

/-! ### Free values (log 7) -/

/-- The next value the manual leaves open. -/
def State.freeNow (s : State) : W64 := Config.freeValue s.free

def State.useFree (s : State) (n : Nat) : State := { s with free := s.free + n }

/-! ### Time -/

/-- Site time, the stamp of an event (R34, R393). The sampling lag that R34 bounds is taken as 0 (log 66). -/
def State.now (s : State) : Nat := s.clock.site

/-- Core cycles in a duration in ns: 1.6 GHz (R8). -/
def coreCycles (ns : Nat) : Nat := ns * 8 / 5

/-! ### Outputs, interrupts, events -/

def State.emit (s : State) (o : Output) : State := { s with outs := s.outs ++ [o] }

/-- Sets cause bit `i` of DEV_INT_CAUSE; DEV_VECTOR is raised when the bit sets while enabled (R425). -/
def State.devCause (s : State) (i : Nat) : State :=
  if s.dev.intCause.getLsbD i then s
  else
    let s := { s with dev := { s.dev with intCause := s.dev.intCause ||| BitVec.ofNat 8 (2 ^ i) } }
    if s.dev.intMask.getLsbD i then s.emit (.irq .pf s.dev.devVector.toNat) else s

/-- A bay's vector of its virtual function; 120 to 127 raise nothing (Table 18.6). -/
def State.bayIrq (s : State) (b v : Nat) : State := if v < 120 then s.emit (.irq (.vf b) v) else s

/-- Sets cause bit `i` of BAY_EVENT, under the rules of DEV_VECTOR (R431). -/
def State.bayEvent (s : State) (b i : Nat) : State :=
  let r := (s.bay b).regs
  if r.event.getLsbD i then s
  else
    let s := s.setBay b (fun y => { y with regs := { y.regs with event := y.regs.event ||| BitVec.ofNat 6 (2 ^ i) } })
    if r.eventMask.getLsbD i then s.bayIrq b r.eventVector.toNat else s

/-- DOORBELL_ERR of a bay, with its event (R433, Table 18.6). -/
def State.bayDoorbellErr (s : State) (b : Nat) : State :=
  (s.setBay b (fun y => { y with regs := { y.regs with doorbellErr := true } })).bayEvent b 2

/-! ### Logs (R349, Table 14.8) -/

/-- A record with every field zero but BAY, 0xFF. -/
def Rec.blank : Rec := ⟨0, 0, 0, 0xFF, 0xFF, 0, 0, 0, 0, 0, 0, 0, 0⟩

/-- A record added to a ring; the oldest is overwritten when it is full (R349). -/
def Log.add (l : Log) (r : Rec) : Log :=
  let recs := l.recs ++ [{ r with seq := l.next }]
  if recs.length > l.cap then { l with recs := recs.drop 1, next := l.next + 1, overflow := l.overflow + 1 }
  else { l with recs := recs, next := l.next + 1 }

/-- A record in log 1; class 2 to 5 sets the ERROR_LOG cause (R425). -/
def State.log1 (s : State) (r : Rec) : State :=
  let s := { s with errLog := s.errLog.add { r with time := s.now } }
  if 2 ≤ r.cls ∧ r.cls ≤ 5 then s.devCause 2 else s

/-- A record in a bay's event log, with the LOG_RECORD event (R431). -/
def State.log2 (s : State) (b : Nat) (r : Rec) : State :=
  (s.setBay b (fun y => { y with log := y.log.add { r with time := s.now, bay := b } })).bayEvent b 1

/-- A record in both logs. -/
def State.log12 (s : State) (b : Nat) (r : Rec) : State := (s.log1 { r with bay := b }).log2 b r

/-- A read of an unreadable line is logged in the bay event log (R339). -/
def State.logPoisonRead (s : State) (b : Nat) (tag : W32) (a : Nat) : State :=
  s.log2 b { Rec.blank with code := 0x0102, cls := 4, tag := tag, addr := a }

/-- The unreadable line that the reads of some ranges meet first, logged. -/
def State.logBadReads (s : State) (b : Nat) (acc : Acc) (tag : W32) (rs : List (Nat × Nat)) : State :=
  match rs.findSome? (fun r => s.badAt b acc r.1 r.2) with
  | some a => s.logPoisonRead b tag a
  | none => s

/-! ### Telemetry (R435 to R438) -/

/-- Bay counter `i` of Table 18.8 increased, modulo 2^64. -/
def State.countBay (s : State) (b i n : Nat) : State :=
  s.setBay b (fun y => { y with tele := updNth y.tele i (fun v => (v + n) % 2 ^ 64) })

/-- Device counter `i` of R438 increased. -/
def State.countDev (s : State) (i n : Nat) : State :=
  { s with devTele := updNth s.devTele i (fun v => (v + n) % 2 ^ 64) }

/-- A correction that only its unit's summary record will show (class 0, R337): one more for the unit. -/
def State.countMinor (s : State) (kind unit sub : Nat) : State :=
  let hit := fun (m : MinorCount) => m.kind == kind && m.unit == unit && m.sub == sub
  { s with minor := if s.minor.any hit then s.minor.map (fun m => if hit m then { m with count := m.count + 1 } else m)
      else s.minor ++ [⟨kind, unit, sub, 1⟩] }

/-- TIER3_LATE after reads of tier 3: how many of them came late only their timing tells (R136, log 68). -/
def State.lateReads (s : State) (b : Nat) (rs : List (Nat × Nat)) : State :=
  if rs.any (fun r => (s.bay b).touchesTier3 r.1 r.2) then
    (s.countBay b 1 (s.freeNow.toNat % 2 ^ 32)).useFree 1
  else s

/-! ### Flags (R68) -/

def State.raise (s : State) (b : Nat) (f : W32) : State :=
  if f = 0 then s else s.setBay b (fun y => { y with flags := raiseFlags y.flags f })

/-! ### Commands -/

/-- The header of a queue opcode. -/
def hdrOf : Instr → Option Hdr
  | .nop h => some h | .identify h _ _ => some h | .getLog h _ _ _ _ _ _ => some h | .queueCreate h _ => some h
  | .queueDelete h _ _ => some h | .counterSet h _ _ _ _ => some h | .memCopy h _ _ _ => some h
  | .memFill h _ _ _ => some h | .memMap h _ => some h | .memPlace h _ _ _ => some h | .kernelLaunch h _ => some h
  | .matmul h _ => some h | .quantStats h _ => some h | .convert h _ => some h | .rngFill h _ => some h
  | .stepGather h _ _ => some h | .stepUpdate h _ _ _ _ => some h | .updateArm h _ _ _ _ => some h
  | .updateDisarm h _ => some h | .normClip h _ _ _ => some h | .shardMapLoad h _ _ => some h
  | .collAllreduce h _ => some h | .collAllgather h _ => some h | .collReduceScatter h _ => some h
  | .collBroadcast h _ => some h | .collGroupCreate h _ _ => some h | .collGroupDestroy h _ => some h
  | .triggerArm h _ => some h | .triggerDisarm h _ => some h | .scarfJoin h _ _ _ => some h | .scarfLeave h => some h
  | .scarfEpochClose h _ _ => some h | .scarfCancel h _ _ _ => some h | .scarfCatchup h _ => some h
  | .ckptCut h _ _ => some h | .ckptDrain h _ _ _ _ => some h | .ckptRelease h _ => some h
  | .ckptRestore h _ _ _ => some h | .ckptVerify h _ _ _ => some h | .exportStream h _ _ _ => some h
  | .txnBegin h _ => some h | .txnCommit h _ _ => some h | .txnRollback h _ => some h | .bindCluster h _ _ _ => some h
  | .bindMemory h _ _ _ _ => some h | .bindShares h _ _ => some h | .bayReset h _ _ => some h
  | .keyLoad h _ _ _ => some h | .keyErase h _ => some h | .cipherRun h _ => some h | .digestRun h _ _ _ => some h
  | .entropyRead h _ _ => some h | .licenceInstall h _ _ => some h | .telemetryRead h _ _ _ => some h
  | .seasonReport h _ _ => some h | .floorplanRead h _ _ => some h | .linkTest h _ _ _ => some h
  | .haltBay h _ => some h | .evictBay h _ _ => some h | .resumeBay h _ => some h
  | _ => none

/-- The header of a slot's command. -/
def Slot.hdr (c : Slot) : Hdr := (hdrOf c.instr).getD default

def Slot.adm (c : Slot) : Nat := c.hdr.adm

/-- The bay whose queue the command came from. -/
def Slot.bay? (c : Slot) : Option Nat := match c.hdr.org with
  | .bay b _ => some b
  | _ => none

def Slot.ofBay (c : Slot) (b : Nat) : Bool := c.bay? == some b

def Slot.finished? (c : Slot) : Bool := match c.phase with
  | .finished _ _ _ => true
  | _ => false

def Slot.dispatched (c : Slot) : Bool := c.phase == .running || c.phase == .active

/-- The submission queue of a command. -/
def Slot.sqid (c : Slot) : Nat := match c.hdr.org with
  | .bay _ q => q
  | _ => 0

/-- Commands that end in one cycle, in the order in which their entries are posted: by submission queue, then by admission
(R155). -/
def postOrder (cs : List Slot) : List Slot :=
  sortBy (fun a c => decide (a.sqid < c.sqid) || (a.sqid == c.sqid && decide (a.adm ≤ c.adm))) cs

/-- The slot of an admission number. -/
def State.slot? (s : State) (adm : Nat) : Option Slot := s.cmds.find? (·.adm == adm)

/-- The shard group of a bay (R126): the group of its loaded shard map; with no map loaded, the group created last of
those that have formed (log 25). -/
def Bay.shardGroup (y : Bay) : Option Nat := match y.train.map with
  | some p => some p.group
  | none => (y.groups.filter (·.formed)).getLast?.map (·.id)

/-- The shard-group member of a bay, 0xFF when it has none (Table 7.2). -/
def Bay.member (y : Bay) : Nat := match y.train.map with
  | some p => p.thisMember
  | none => match (y.groups.filter (·.formed)).getLast? with
    | some g => g.blk.thisMember
    | none => 0xFF

/-- TAG of a log record: the affected command's, or 0 (Table 14.8). -/
def State.tagOf (s : State) (adm : Option Nat) : W32 := match adm.bind s.slot? with
  | some c => c.hdr.tag
  | none => 0

/-- The slot of an admission number changed. -/
def State.setSlot (s : State) (adm : Nat) (f : Slot → Slot) : State :=
  { s with cmds := s.cmds.map (fun c => if c.adm == adm then f c else c) }

/-- Slots that a bay uses (R158). -/
def State.slotsInUse (s : State) (b : Nat) : Nat := (s.cmds.filter (·.ofBay b)).length

/-- Runs `f` on the slot of a dispatched command, when it is the command given; otherwise nothing happens (log 4). -/
def State.onRunning (s : State) (i : Instr) (f : Slot → State) : State :=
  match hdrOf i with
  | none => s
  | some h =>
    match s.slot? h.adm with
    | none => s
    | some c => if c.phase = .running ∧ c.instr = i then f c else s

/-- The command's operation has begun and later events finish it. -/
def State.setActive (s : State) (adm : Nat) : State :=
  s.setSlot adm (fun c => { c with phase := .active, started := s.clock.uptime })

/-! ### Event counters (R160 to R162) -/

/-- A counter has reached a threshold (R162). -/
def reached (value thresh : W32) : Bool := decide ((value - thresh).toNat < 2 ^ 31)

/-- The tests of R162 and R270 after a change of counter `c` of bay `b`. -/
def State.recheck (s : State) (b c : Nat) : State :=
  let k := nth (s.bay b).counters c
  let s := { s with cmds := s.cmds.map (fun (x : Slot) =>
    if x.phase == Phase.held && x.ofBay b && x.errSample == none then
      match x.hdr.wait with
      | some (w, t) => if w = c ∧ reached k.value t then { x with errSample := some k.err } else x
      | none => x
    else x) }
  s.setBay b (fun y => { y with trigs := y.trigs.map (fun (t : Trig) =>
    if t.blk.waitCtr = c ∧ !t.due ∧ !t.spent ∧ reached k.value t.blk.thresh then
      { t with due := true, dueAt := s.clock.uptime } else t) })

/-- An increment of a counter, with ERR set when it reports a failure (R161). -/
def State.bump (s : State) (b c n : Nat) (err : Bool) : State :=
  (s.setBay b (fun y => { y with counters := updNth y.counters c (fun k =>
    ⟨k.value + BitVec.ofNat 32 n, k.err || err⟩) })).recheck b c

/-! ### Finishing a command -/

/-- Marks a command finished, firing its signal first (R161). -/
def State.markFinished (s : State) (adm : Nat) (st : Status) (result : W64) : State :=
  match s.slot? adm with
  | none => s
  | some c =>
    if c.finished? then s
    else
      let s := match c.bay?, c.hdr.signal with
        | some b, some k => s.bump b k 1 (!st.success)
        | _, _ => s
      { s.setSlot adm (fun c => { c with phase := .finished st result s.nextFin }) with nextFin := s.nextFin + 1 }

/-- Whether a finished command posts no entry: suppressed by R148, or ended by a reset (Table 8.5). -/
def Slot.postsNothing (c : Slot) : Bool := match c.phase with
  | .finished st _ _ => c.quiet || (c.hdr.suppress && (st == .ok || st == .corrected))
  | _ => false

/-- Removes a slot. -/
def State.dropSlot (s : State) (adm : Nat) : State := { s with cmds := s.cmds.filter (fun c => c.adm != adm) }

/-- Removes a finished slot that posts nothing. -/
def State.dropIfSilent (s : State) (adm : Nat) : State :=
  match s.slot? adm with
  | some c => if c.postsNothing then s.dropSlot adm else s
  | none => s

/-- No command of a submission queue of a bay holds a slot. -/
def State.queueEmpty (s : State) (b q : Nat) : Bool := !s.cmds.any (fun c => c.hdr.org == .bay b q)

/-- A submission queue, a completion queue, an event counter of a bay changed. -/
def State.setSq (s : State) (b q : Nat) (f : SubQ → SubQ) : State :=
  s.setBay b (fun y => { y with sqs := updNth y.sqs q f })

def State.setCq (s : State) (b q : Nat) (f : CompQ → CompQ) : State :=
  s.setBay b (fun y => { y with cqs := updNth y.cqs q f })

def State.setCounter (s : State) (b c : Nat) (f : Counter → Counter) : State :=
  s.setBay b (fun y => { y with counters := updNth y.counters c f })

/-- A QUEUE_DELETE completes after the last command of its queue has posted (R157). -/
def State.settleQueue (s : State) (b q : Nat) : State :=
  match (nth (s.bay b).sqs q).deleting with
  | some d =>
    if s.queueEmpty b q then
      let s := s.setSq b q (fun _ => SubQ.none_)
      (s.markFinished d .ok 0).dropIfSilent d
    else s
  | none => s

/-- LIVE of an admin pair clears after the last command has posted (R428). -/
def State.settleAdmin (s : State) (b : Nat) : State :=
  let r := (s.bay b).regs
  if r.live ∧ !r.en ∧ s.queueEmpty b 0 then
    s.setBay b (fun y => { y with
      regs := { y.regs with live := false }
      sqs := updNth y.sqs 0 (fun _ => SubQ.none_)
      cqs := updNth y.cqs 0 (fun _ => CompQ.none_) })
  else s

/-- LIVE of the control pair clears after the last command has posted (R428). -/
def State.settleControl (s : State) : State :=
  if s.ctl.live ∧ !s.ctl.en ∧ !s.cmds.any (fun c => c.hdr.org == .control) then
    { s with ctl := { s.ctl with live := false, sq := SubQ.none_, cq := CompQ.none_ } }
  else s

/-- What follows a slot's release in its queue. -/
def State.settle (s : State) (o : Origin) : State := match o with
  | .bay b q => (s.settleQueue b q).settleAdmin b
  | .control => s.settleControl
  | .urgent => s

/-- A command finishes with a status and a result: its signal fires, then its entry waits to be posted, or its slot is
released at once when nothing is posted (R148, R155, R161). -/
def State.finish (s : State) (adm : Nat) (st : Status) (result : W64) : State :=
  match s.slot? adm with
  | none => s
  | some c =>
    let st := if st = .ok ∧ c.corrected then .corrected else st
    ((s.markFinished adm st result).dropIfSilent adm).settle c.hdr.org

def State.finishNat (s : State) (adm : Nat) (st : Status) (result : Nat) : State :=
  s.finish adm st (BitVec.ofNat 64 result)

/-- Fails with a status and result 0. -/
def State.fail (s : State) (adm : Nat) (st : Status) : State := s.finish adm st 0

/-- An error was recovered for a command (R338). -/
def State.markCorrected (s : State) (adm : Nat) : State := s.setSlot adm (fun c => { c with corrected := true })

/-! ### Bay states (R204) -/

/-- A bay enters a state, with the STATE_CHANGE event. -/
def State.enter (s : State) (b : Nat) (st : BayState) : State :=
  if (s.bay b).st = st then s else (s.setBay b (fun y => { y with st := st })).bayEvent b 0

/-- The bay's commands and descriptors act: it is ACTIVE, or an eviction waits for its boundary (R204, R333). -/
def Bay.runs (y : Bay) : Bool := y.st == .active || (y.st == .evicting && y.flow.heldFrom.isNone)

/-! ### Old or new lines (R89, R197, R212) -/

/-- The lines on which two memories differ. -/
def diffLines (a b : Mem) : List Nat :=
  (((a.filter (fun c => Mem.get b c.1 != c.2)) ++ (b.filter (fun c => Mem.get a c.1 != c.2))).map (·.1 / 64)).eraseDups

/-- Each of the given lines taken from `new` when its free bit says so; `base` numbers the free values. -/
def mixMem (base : Nat) (old new : Mem) : Mem :=
  (diffLines old new).zipIdx.foldl (fun m p =>
    if (Config.freeValue (base + p.2)).getLsbD 0 then Mem.write [] m (64 * p.1) (Mem.read new (64 * p.1) 64) else m) old

/-- The state `s` with every line that differs in `t` holding its old or its new contents. -/
def State.mixed (s t : State) : State :=
  let s := (s.zeroMarks.filter (fun r => !t.zeroMarks.contains r)).foldl State.unmark s
  let nd := (diffLines s.dram t.dram).length
  let ns := (diffLines s.sram t.sram).length
  let nl := (diffLines s.local_ t.local_).length
  let nh := (diffLines s.host t.host).length
  { s with
    dram := mixMem s.free s.dram t.dram
    sram := mixMem (s.free + nd) s.sram t.sram
    local_ := mixMem (s.free + nd + ns) s.local_ t.local_
    host := mixMem (s.free + nd + ns + nl) s.host t.host
    free := s.free + nd + ns + nl + nh }

end Sys2Proof.Machine
end

