-- ==== Sys2Proof/Machine/Matmul.lean ====
section
/-!
DEFINITION. MATMUL (chapter 03): the product in the order of R80, the epilogue of R79, strips and engine time (R81 to
R84, R112), recomputes and substitutions (R87, R88), and the meaning of the command (R94).
-/
namespace Sys2Proof.Machine

/-! ### Geometry (Table 3.1) and time -/

/-- A row of Table 3.1: Kp, strip rows, column tile, greatest strip width, c, L, T, and the factor f of R112. -/
structure Geom where
  kp : Nat
  rows : Nat
  tile : Nat
  width : Nat
  c : Nat
  l : Nat
  t : Nat
  f : Nat

def geomOf : Nat → Geom
  | 0 => ⟨8, 8, 8, 8192, 1, 2, 12, 8⟩
  | 1 => ⟨16, 16, 16, 8192, 1, 4, 10, 32⟩
  | 2 => ⟨32, 32, 32, 4096, 2, 8, 9, 128⟩
  | 3 => ⟨32, 32, 32, 4096, 2, 8, 9, 128⟩
  | 6 => ⟨32, 32, 32, 4096, 1, 3, 8, 128⟩
  | 7 => ⟨64, 32, 32, 4096, 1, 4, 8, 128⟩
  | 8 => ⟨32, 32, 32, 4096, 1, 5, 8, 128⟩
  | 9 => ⟨64, 32, 32, 4096, 1, 5, 8, 128⟩
  | 0xB => ⟨64, 32, 32, 4096, 1, 4, 8, 128⟩
  | _ => ⟨32, 32, 32, 4096, 1, 4, 8, 128⟩

/-- Widths in columns of the strips of one band (R81). -/
def stripWidths (tile width n : Nat) : List Nat :=
  let tiles := ceilDiv n tile
  let k := ceilDiv tiles (width / tile)
  let ws := (List.range k).map (fun i => (tiles / k + (if i < tiles % k then 1 else 0)) * tile)
  -- the last strip ends at column n
  match ws.reverse with
  | [] => []
  | w :: r => ((w - (tiles * tile - n)) :: r).reverse

/-- The column tile that divides strips: 32 for a block result (R81). -/
def stripTile (g : Geom) (resfmt : Nat) : Nat := if isBlock resfmt then max g.tile 32 else g.tile

/-- nn of every strip, in strip order (R81): row bands major. -/
def stripTiles (m : MatmulBlk) : List Nat :=
  let g := geomOf m.opfmt
  let ws := (stripWidths (stripTile g m.resfmt) g.width m.n).map (fun w => ceilDiv w g.tile)
  ((List.range (ceilDiv m.m g.rows)).map (fun _ => ws)).flatten

/-- The engine time of R84 for the strips an engine runs, in order. -/
def engineTime (m : MatmulBlk) (nns : List Nat) : Nat :=
  let g := geomOf m.opfmt
  let kp := ceilDiv m.k g.kp
  let f := if m.stoch then g.f else 1
  match nns with
  | [] => 0
  | n0 :: _ =>
    let start := if m.accIn then max g.l n0 else g.l
    let passes := (nns.map (fun nn => kp * max (nn * g.c) g.t)).sum
    let between := ((nns.take (nns.length - 1)).map (fun nn => max (nn * f) g.l)).sum
    start + passes + between + nns.getLastD 0 * f + 6

/-- The engine positions of the mask: logical cluster and engine, in order (R82). -/
def enginePositions (mask : W32) : List (Nat × Nat) :=
  ((bitsSet mask).map (fun lc => (List.range 4).map (fun e => (lc, e)))).flatten

/-- An engine is fenced (R340). -/
def State.fencedEngine (s : State) (lc e : Nat) : Bool :=
  match s.phys lc with
  | some p => (nth s.clusters p).fenced.contains e
  | none => false

/-- The position that runs the strips of position `p`: the next one whose engine is in service (R88, R340). -/
def State.servingPos (s : State) (ps : List (Nat × Nat)) (p : Nat) : Nat :=
  let order := (List.range ps.length).map (fun i => (p + i) % ps.length)
  (order.find? (fun q => let x := nth ps q; !s.fencedEngine x.1 x.2)).getD p

/-- Strips of a serving position, ascending. -/
def State.stripsAt (s : State) (ps : List (Nat × Nat)) (count q : Nat) : List Nat :=
  (List.range count).filter (fun x => s.servingPos ps (x % ps.length) == q)

/-! ### Operands near and far (R73, R85) -/

/-- The accumulator's format code (Table 2.8). -/
def accFmt : Nat → Nat
  | 0 => 0 | 0xA => 0xC | 0xB => 0xC | _ => 1

/-- The first column and the width of the strips of a band (R81). -/
def stripCols (m : MatmulBlk) : List (Nat × Nat) :=
  let g := geomOf m.opfmt
  let ws := stripWidths (stripTile g m.resfmt) g.width m.n
  (List.range ws.length).map (fun i => ((ws.take i).sum, nth ws i))

/-- The stored bytes of `n` rows (of A) or columns (of B) of an operand from `first` on, `inner` when k is contiguous. -/
def sideReads (addr ld fmt k : Nat) (inner : Bool) (first n : Nat) : List (Nat × Nat) :=
  if inner then (List.range' first n).map (fun r => (addr + r * ld, storedBytes fmt k))
  else (List.range k).map (fun r => (addr + r * ld + storedBytes fmt first, storedBytes fmt n))

/-- The bytes of A and B, and of C_IN's region when ACC_IN is set, that a strip reads (R78, R81, R90). -/
def stripReads (m : MatmulBlk) (x : Nat) : List (Nat × Nat) :=
  let cols := stripCols m
  let w := nth cols (x % cols.length)
  let rows := (geomOf m.opfmt).rows
  let first := x / cols.length * rows
  let n := min rows (m.m - first)
  let af := accFmt m.opfmt
  sideReads m.aAddr m.lda m.opfmt m.k (!m.aT) first n ++ sideReads m.bAddr m.ldb m.opfmt m.k m.bT w.1 w.2 ++
    (if m.accIn then
      (List.range' first n).map (fun r => (m.cinAddr + r * m.ldcin + storedBytes af w.1, storedBytes af w.2))
    else [])

/-- The operands of every strip lie in the SRAM of the cluster that executes it, so the figures of Table 3.1 hold (R73). -/
def State.operandsNear (s : State) (m : MatmulBlk) : Bool :=
  let ps := enginePositions m.mask
  (List.range (stripTiles m).length).all (fun x =>
    let lc := (nth ps (s.servingPos ps (x % ps.length))).1
    (stripReads m x).all (fun r => decide (lc * 2 ^ 25 ≤ r.1) && decide (r.1 + r.2 ≤ (lc + 1) * 2 ^ 25)))

/-- Core cycles for which the engines wait for operands that lie elsewhere (R85): what the paths take, a free value. -/
def State.stall (s : State) (m : MatmulBlk) : Nat := if s.operandsNear m then 0 else s.freeNow.toNat % 2 ^ 40

/-! ### Recomputes (R87, R88) -/

/-- Spare cubes of an engine that are free: physical 64 to 67 not yet used. -/
def Cluster.freeSpares (c : Cluster) (e : Nat) : List Nat :=
  (List.range' 64 4).filter (fun k => !c.spares.any (fun x => x.1 == e && x.2.2 == k))

/-- Failures of one cube in one strip that an engine meets without being fenced: none without a spare, else one, and one
more per spare (R88). -/
def Cluster.tolerates (c : Cluster) (e : Nat) : Nat :=
  let n := (c.freeSpares e).length
  if n = 0 then 0 else n + 1

/-- What a planned failure comes to at its engine (R87, R88): the recomputes that the engine itself begins, the spares used
at once, whether the strip then moves to the next engine position, and whether its recompute there fails too. A narrow
unit, the accumulator SRAM and a line have no spare: their strip is recomputed in place (log 63). -/
structure Strike where
  own : Nat
  used : Nat
  moved : Bool
  dead : Bool

def Cluster.strike (c : Cluster) (r : ResidueFault) : Strike :=
  match r.part with
  | .cube _ =>
    let own := min r.times (c.tolerates r.engine + 1)
    ⟨own, min (own - 1) (c.freeSpares r.engine).length, decide (c.tolerates r.engine < r.times),
      decide (c.tolerates r.engine + 1 < r.times)⟩
  | _ => ⟨r.times, 0, false, false⟩

/-- A failed residue check calls for the recompute, not an unreadable line. -/
def ResidueFault.byResidue (r : ResidueFault) : Bool := match r.part with
  | .cube _ => true
  | .narrow => true
  | _ => false

/-- Core cycles that an engine loses to a failure: what the strip had spent at each, and 64 for each substitution made at
once (R87). -/
def Strike.cost (k : Strike) (r : ResidueFault) : Nat := k.own * r.spent + 64 * k.used

/-- A cube replaced by the lowest-numbered free spare of its engine (R88). -/
def Cluster.substitute (c : Cluster) (e cube : Nat) : Cluster :=
  match c.freeSpares e with
  | [] => c
  | k :: _ => { c with spares := c.spares ++ [(e, cube, k)], failing := c.failing.filter (fun x => x != (e, cube)) }

/-- A failure that no recovery ends reaches a cluster at risk: its logical number is FAILED (R341). -/
def State.failAtRisk (s : State) (b p : Nat) : State :=
  let lc := s.lmap.findIdx (· == some p)
  if s.lrisk.contains lc ∧ !s.lfailed.contains lc then
    ({ s with lfailed := s.lfailed ++ [lc] }).log12 b
      { Rec.blank with code := 0x0124, cls := 4, kind := 2, die := p / 17, unit := p, d0 := lc }
  else s

/-- A retirement of a physical cluster is requested, unless one is already (R340, R341). -/
def State.askRetire (s : State) (p : Nat) : State :=
  s.setCluster p (fun c => if c.retiring then c else { c with retiring := true, askedAt := s.now })

/-- The lowest free spare of the engine takes the place of a failing cube, in 64 core cycles, with its record (R88). -/
def State.substituteNow (s : State) (b : Nat) (r : ResidueFault) (cube : Nat) (unit : Rec) : State :=
  let k := ((nth s.clusters r.cluster).freeSpares r.engine).headD 0
  (s.setCluster r.cluster (fun c => c.substitute r.engine cube)).log1
    { unit with code := 0x0111, cls := 3, bay := b, d0 := k, d1 := 64 }

/-- The state after a planned failure: the spares used at once and, with none left, the engine fenced and its cluster to be
retired (R340), else a cube that failed once waiting for its substitution; a double-bit error of the accumulator SRAM is
recovered by the recompute (Table 14.4). -/
def State.afterStrike (s : State) (b adm : Nat) (r : ResidueFault) (k : Strike) : State :=
  let unit : Rec := { Rec.blank with die := r.cluster / 17, unit := r.cluster, tag := s.tagOf (some adm) }
  -- the recovery of an unreadable line has counted what that line cost
  let s := if r.part = .line then s else s.countBay b 4 (k.cost r)
  match r.part with
  | .cube cube =>
    let cubeRec : Rec := { unit with kind := 0, sub := r.engine * 256 + cube }
    let s := (List.range k.used).foldl (fun (s : State) _ => s.substituteNow b r cube cubeRec) s
    if k.moved then
      let s := (s.setCluster r.cluster (fun c => { c with fenced := c.fenced ++ [r.engine] })).askRetire r.cluster
      s.log12 b { unit with code := 0x0112, cls := 3, kind := 1, sub := r.engine }
    else if k.used = 0 ∧ !(nth s.clusters r.cluster).failing.contains (r.engine, cube) then
      s.setCluster r.cluster (fun c => { c with failing := c.failing ++ [(r.engine, cube)] })
    else s
  | .accumulator =>
    s.log1 { unit with code := 0x0100, cls := 2, bay := b, kind := 1, sub := r.engine, d0 := 2, d1 := k.cost r }
  | _ => s

/-! ### The product -/

/-- The rows of a stored matrix as values. -/
def State.matRows (s : State) (b addr ld rows cols fmt : Nat) : List (List Val) :=
  (List.range rows).map (fun r => decodeTensor fmt cols (s.readBay b (addr + r * ld) (storedBytes fmt cols)))

/-- Stored rows and columns of A and B (R90). -/
def aDims (m : MatmulBlk) : Nat × Nat := if m.aT then (m.k, m.m) else (m.m, m.k)
def bDims (m : MatmulBlk) : Nat × Nat := if m.bT then (m.n, m.k) else (m.k, m.n)

/-- The byte ranges of stored rows. -/
def rowRanges (addr ld rows cols fmt : Nat) : List (Nat × Nat) :=
  (List.range rows).map (fun r => (addr + r * ld, storedBytes fmt cols))

/-- Ranges read by a MATMUL (Table 3.3). -/
def matIns (m : MatmulBlk) : List (Nat × Nat) :=
  rowRanges m.aAddr m.lda (aDims m).1 (aDims m).2 m.opfmt ++ rowRanges m.bAddr m.ldb (bDims m).1 (bDims m).2 m.opfmt ++
    (if m.accIn then rowRanges m.cinAddr m.ldcin m.m m.n (accFmt m.opfmt) else []) ++
    (if m.rescale then [(m.rescaleAddr, 8 * m.n)] else []) ++
    (if m.statsRunning then [(m.statsAddr, 4 * m.n)] else [])

/-- Ranges written by a MATMUL. -/
def matOuts (m : MatmulBlk) : List (Nat × Nat) :=
  rowRanges m.cAddr m.ldc m.m m.n m.resfmt ++ (if m.stats then [(m.statsAddr, 4 * m.n)] else [])

/-- Columns of a matrix of `n` columns given by rows. -/
def columns (n : Nat) (rows : List (List Val)) : List (List Val) :=
  (List.range n).map (fun j => rows.map (fun r => nth r j))

/-- One group of up to eight products added to the partial sum and rounded once (R60, R70); integers saturate (R62). -/
def groupSum (opfmt : Nat) (r : Rnd) (ftz : Bool) (acc : Flagged Val) (ps : List (Val × Val)) : Flagged Val :=
  let sum := ps.foldl (fun a p => addVal r a (mulVal p.1 p.2)) acc.1
  match accFmt opfmt with
  | 0xC => let x := toIntFmt (-2147483648) 2147483647 none sum; (ofInt x.1, acc.2 ||| x.2)
  | 0 => let x := roundVal FP64 r sum; let y := flush ftz FP64 x.1; (y.1, acc.2 ||| x.2 ||| y.2)
  | _ => let x := roundVal FP32 r sum; let y := flush ftz FP32 x.1; (y.1, acc.2 ||| x.2 ||| y.2)

/-- An operand or C_IN element read under FTZ (R51). -/
def matIn (ftz : Bool) (fmt : Nat) (v : Val) : Flagged Val :=
  match fmt with
  | 0 => flush ftz FP64 v
  | 1 => flush ftz FP32 v
  | _ => (v, 0)

/-- One element's accumulator (R80). -/
def dot (opfmt : Nat) (r : Rnd) (ftz : Bool) (start : Flagged Val) (as bs : List Val) : Flagged Val :=
  (chunks 8 (as.zip bs)).foldl (groupSum opfmt r ftz) start

/-- The epilogue's value before narrowing: rescale with its exact sum (R67). -/
def rescaled (ftz : Bool) (acc : Val) (scale bias : Nat) : Flagged Val :=
  let sc := in32 ftz scale
  let bi := in32 ftz bias
  (rescaleExact acc sc.1 bi.1, sc.2 ||| bi.2)

/-- A row of results narrowed and packed, with FTZ on FP32 and FP64 results. -/
def packRow (ftz : Bool) (fmt : Nat) (draw : Option (Nat → Nat)) (vs : List Val) : Flagged (List Byte) :=
  match fmt with
  | 0 =>
    let xs := vs.zipIdx.map (fun p =>
      let x := narrowElem FP64 (draw.map (fun d => d p.2)) p.1; let y := flush ftz FP64 x.1
      (toLe 8 (encodeElem FP64 y.1), x.2 ||| y.2))
    ((xs.map (·.1)).flatten, orFlags xs)
  | 1 =>
    let xs := vs.zipIdx.map (fun p =>
      let x := narrowElem FP32 (draw.map (fun d => d p.2)) p.1; let y := flush ftz FP32 x.1
      (toLe 4 (encodeElem FP32 y.1), x.2 ||| y.2))
    ((xs.map (·.1)).flatten, orFlags xs)
  | _ => encodeTensor fmt draw vs

/-- The greatest magnitude of a channel's values by R65; +0 when there are none. -/
def statMax (vs : List Val) : Val :=
  if vs.isEmpty then .fin false 0 0 else vs.foldl (fun a v => maxVal a (absVal v)) .nan

/-- What is written for a channel: the maximum in FP32, combined with the stored one when RUNNING (R65). -/
def statOut (running : Bool) (stored : Nat) (vs : List Val) : Flagged Nat :=
  let x := narrowElem FP32 none (statMax vs)
  let old := decodeElem FP32 stored
  let v := if running then maxVal x.1 old else x.1
  (encodeElem FP32 v, (x.2 &&& ~~~Flag.nanIn) ||| flagIf (vs.any isNan || (running && isNan old)) Flag.nanIn)

/-- The rows of C as stored bytes, the maxima as bytes, and the flags. -/
def State.matmulRows (s : State) (b : Nat) (ftz : Bool) (m : MatmulBlk) : List (List Byte) × List Byte × W32 :=
  let r := Rnd.ofField m.rnd
  let aIn := (s.matRows b m.aAddr m.lda (aDims m).1 (aDims m).2 m.opfmt).map (·.map (matIn ftz m.opfmt))
  let bIn := (s.matRows b m.bAddr m.ldb (bDims m).1 (bDims m).2 m.opfmt).map (·.map (matIn ftz m.opfmt))
  let av := aIn.map (·.map (·.1))
  let bv := bIn.map (·.map (·.1))
  let rows := if m.aT then columns m.m av else av
  let cols := if m.bT then bv else columns m.n bv
  let af := accFmt m.opfmt
  let cin := if m.accIn then (s.matRows b m.cinAddr m.ldcin m.m m.n af).map (·.map (matIn ftz af)) else []
  let accs := rows.zipIdx.map (fun a => cols.zipIdx.map (fun c =>
    dot m.opfmt r ftz (if m.accIn then nth (nth cin a.2) c.2 else (.fin false 0 0, 0)) a.1 c.1))
  let table := if m.rescale then s.readBay b m.rescaleAddr (8 * m.n) else []
  let outRows := accs.zipIdx.map (fun row =>
    let vs := row.1.zipIdx.map (fun x =>
      if m.rescale then rescaled ftz x.1.1 (leAt table (8 * x.2) 4) (leAt table (8 * x.2 + 4) 4) else (x.1.1, 0))
    let draw := if m.stoch then some (fun n => narrowDraw m.seed m.step m.tensorId (row.2 * m.n + n)) else none
    let p := packRow ftz m.resfmt draw (vs.map (·.1))
    (p.1, p.2 ||| orFlags vs))
  let old := if m.statsRunning then s.readBay b m.statsAddr (4 * m.n) else []
  let sts := if m.stats then (List.range m.n).map (fun j =>
    statOut m.statsRunning (leAt old (4 * j) 4) (accs.map (fun row => (nth row j).1))) else []
  (outRows.map (·.1), (sts.map (fun x => toLe 4 x.1)).flatten,
    orFlags outRows ||| orFlags sts ||| orFlags (aIn.flatten) ||| orFlags (bIn.flatten) ||| orFlags (accs.flatten))

/-! ### The command -/

/-- What a command's operation leaves: the state, the status and the result. -/
abbrev Eff := State × Status × Nat

/-- The command finishes with what its operation left. -/
def State.complete (s : State) (adm : Nat) (f : State → Eff) : State :=
  let e := f s
  e.1.finishNat adm e.2.1 e.2.2

/-- The same for a command of a bay that reads the given ranges: an unreadable line among them is logged (R339). -/
def State.completeIn (s : State) (adm b : Nat) (ins : List (Nat × Nat)) (f : State → Eff) : State :=
  s.complete adm (fun s =>
    let e := f s
    if e.2.1 = .machineCheck then
      (match ins.findSome? (fun r => s.badAt b .rd r.1 r.2) with
      | some a => e.1.logPoisonRead b (s.tagOf (some adm)) a
      | none => e.1, e.2)
    else e)

/-- Fails; an unreadable line among the ranges read is logged (R339). -/
def State.failIn (s : State) (adm b : Nat) (ins : List (Nat × Nat)) (st : Status) : State :=
  (if st = .machineCheck then s.logBadReads b .rd (s.tagOf (some adm)) ins else s).fail adm st

/-- A MATMUL while its planned failures are met, in order: the strips that each engine position runs, the core cycles each
loses to recomputes, the recomputes and their cost by engine (position, recomputes, cycles, whether a residue called for
them), and whether a moved strip failed again. -/
structure MatRun where
  st : State
  strips : List (List Nat)
  extra : List Nat
  struck : List (Nat × Nat × Nat × Bool)
  dead : Bool

/-- The strips as R82 places them, with fenced engines passed over. -/
def State.matStart (s : State) (m : MatmulBlk) : MatRun :=
  let ps := enginePositions m.mask
  let count := (stripTiles m).length
  ⟨s, (List.range ps.length).map (s.stripsAt ps count), List.replicate ps.length 0, [], false⟩

/-- The strip of a moved recompute, and those after it on the fenced engine, join the strips of position `t` (R88). -/
def moveStrips (strips : List (List Nat)) (q t x : Nat) : List (List Nat) :=
  let rest := (nth strips q).dropWhile (· != x)
  updNth (updNth strips q (fun l => l.takeWhile (· != x))) t (· ++ rest)

/-- The engine position whose engine a planned failure strikes: it runs the failing strip now. -/
def MatRun.hit (w : MatRun) (ps : List (Nat × Nat)) (r : ResidueFault) : Option Nat :=
  let q := w.strips.findIdx (·.contains r.strip)
  let x := nth ps q
  if 0 < r.times ∧ q < ps.length ∧ w.st.phys x.1 = some r.cluster ∧ x.2 = r.engine then some q else none

/-- One planned failure met (R87, R88). -/
def MatRun.meet (b adm : Nat) (ps : List (Nat × Nat)) (w : MatRun) (r : ResidueFault) : MatRun :=
  match w.hit ps r with
  | none => w
  | some q =>
    let k := (nth w.st.clusters r.cluster).strike r
    let s := w.st.afterStrike b adm r k
    let s := { s with faults := { s.faults with residue := s.faults.residue.erase r } }
    let own := (q, k.own, k.cost r, r.byResidue)
    if k.moved then
      let t := s.servingPos ps q
      let again := if k.dead then [(t, 1, r.spent, true)] else []
      let lost := if k.dead then r.spent else 0
      ⟨s, moveStrips w.strips q t r.strip, updNth (updNth w.extra q (· + k.cost r)) t (· + lost),
        w.struck ++ own :: again, w.dead || k.dead⟩
    else ⟨s, w.strips, updNth w.extra q (· + k.cost r), w.struck ++ [own], w.dead⟩

/-- The planned failures that a command meets: those of the engines, then the lines it could not read (R97). -/
def State.matFaults (s : State) (m : MatmulBlk) (retries : List (Nat × Nat)) : List ResidueFault :=
  let ps := enginePositions m.mask
  s.faults.residue ++ retries.map (fun x =>
    let q := nth ps (s.servingPos ps (x.1 % ps.length))
    ⟨(s.phys q.1).getD 0, q.2, .line, x.1, x.2, 1⟩)

/-- The failures of a MATMUL met in order. -/
def State.matRun (s : State) (b adm : Nat) (m : MatmulBlk) (retries : List (Nat × Nat)) : MatRun :=
  (s.matFaults m retries).foldl (MatRun.meet b adm (enginePositions m.mask)) (s.matStart m)

/-- The largest engine time, recomputes included (R84, R87). -/
def MatRun.time (w : MatRun) (m : MatmulBlk) : Nat :=
  let nns := stripTiles m
  ((w.strips.zip w.extra).map (fun x => engineTime m (x.1.map (nth nns)) + x.2)).foldl max 0

/-- Strips recomputed: one strip counts once for each of its recomputes, held to the 16 bits of the field (R94, log 63). -/
def MatRun.count (w : MatRun) : Nat := min (w.struck.map (·.2.1)).sum 0xFFFF

/-- A RESIDUE_RECOMPUTE record for each engine whose strips a residue made it recompute (Tables 14.9 and 14.10); what
recovers an unreadable line is logged as UNCORR_RECOVERED. -/
def MatRun.log (w : MatRun) (ps : List (Nat × Nat)) (b : Nat) (tag : W32) : State :=
  let res := w.struck.filter (·.2.2.2)
  (res.map (·.1)).eraseDups.foldl (fun (s : State) q =>
    let x := nth ps q
    let p := (s.phys x.1).getD 0
    let mine := res.filter (fun r => r.1 == q)
    s.log1 { Rec.blank with
      code := 0x0110, cls := 2, bay := b, kind := 1, unit := p, die := p / 17, sub := x.2, tag := tag
      d0 := (mine.map (·.2.1)).sum, d1 := (mine.map (·.2.2.1)).sum }) w.st

/-- The clusters whose engines were struck fail when they are at risk (R341). -/
def MatRun.failed (w : MatRun) (ps : List (Nat × Nat)) (b : Nat) (s : State) : State :=
  (w.struck.map (·.1)).eraseDups.foldl (fun (s : State) q => match s.phys (nth ps q).1 with
    | some p => s.failAtRisk b p
    | none => s) s

/-- The result word of R94. -/
def matResult (time count : Nat) : Nat := time % 2 ^ 40 + 2 ^ 40 * count

/-- The operation of a MATMUL that has passed admission (R80, R87, R93, R94). -/
def State.matmulEff (b : Nat) (c : Slot) (m : MatmulBlk) (s : State) : Eff :=
  match s.ioStatus b (matIns m) (matOuts m) with
  | some st => (s, st, 0)
  | none =>
    let ps := enginePositions m.mask
    let w := (s.useFree 1).matRun b c.adm m c.retries
    let s1 := w.log ps b c.hdr.tag
    let result := matResult (w.time m + s.stall m) w.count
    if w.dead then (w.failed ps b s1, .machineCheck, result)
    else
      let x := s.matmulRows b c.ftz m
      let s2 := x.1.zipIdx.foldl (fun s p => s.writeBay b (m.cAddr + p.2 * m.ldc) p.1) s1
      let s3 := if m.stats then s2.writeBay b m.statsAddr x.2.1 else s2
      let st := s.outStatus b (matOuts m) (if w.count = 0 then .ok else .corrected)
      (s3.raise b x.2.2, st, result)

/-- MATMUL (Table 7.4). -/
def execMatmul (h : Hdr) (m : MatmulBlk) (s : State) : Host.Outcome State Fault Refusal :=
  .next (s.onRunning (.matmul h m) (fun c =>
    match c.bay? with
    | some b => s.completeIn h.adm b (matIns m) (State.matmulEff b c m)
    | none => s))

end Sys2Proof.Machine
end

