-- ==== Sys2Proof/Machine/Licence.lean ====
section
/-!
DEFINITION. Licences (R371 to R374): the licence record, the effective licence, LICENCE_INSTALL and a window's edge.
-/
namespace Sys2Proof.Machine

/-- The FEATURES byte's layout (Table 7.2 LICENCES). -/
def Features.ofByte (v : Nat) : Features :=
  ⟨v % 2 == 1, v / 2 % 2 == 1, v / 4 % 2 == 1, v / 8 % 8, v / 64 % 2 == 1⟩

def Features.toByte (f : Features) : Nat := bit f.cl32 0 + bit f.far 1 + bit f.fp64 2 + f.t3 * 8 + bit f.train 6

/-- Every field within Table 15.9, the key not revoked (R371, check 1). -/
def State.licenceFields (s : State) (l : List Byte) : Bool :=
  let key := byteAt l 6
  let feat := byteAt l 7
  decide (l.length = 128) && decide (leAt l 0 4 = 0x4D514C43) && decide (leAt l 4 2 = 1) &&
    (key == 2 || key == 3) && decide (feat < 128) && decide (feat / 8 % 8 ≤ 4) && decide (1 ≤ leAt l 0x18 4) &&
    zeroAt l 0x1C 4 && decide (leAt l 0x20 8 < leAt l 0x28 8) && zeroAt l 0x30 16 && !s.factory.revoked.contains key

/-- The site time at which windows are judged (R373). -/
def State.licenceTime (s : State) : Nat := if s.clock.todSeen then s.now else s.season.siteTime

/-- The licence's window contains a time; NOT_AFTER of all ones has no end (R16, R372). -/
def licenceOpen (l : List Byte) (t : Nat) : Bool :=
  decide (leAt l 0x20 8 ≤ t) && (decide (t < leAt l 0x28 8) || decide (leAt l 0x28 8 = 2 ^ 64 - 1))

/-- The effective licence of a store at a time: the highest SERIAL whose window contains it (R372). -/
def effectiveLicence (store : List (List Byte)) (t : Nat) : Option (List Byte) :=
  (store.filter (fun l => licenceOpen l t)).foldl
    (fun (a : Option (List Byte)) l => match a with
      | none => some l
      | some m => if leAt m 0x18 4 < leAt l 0x18 4 then some l else some m) none

/-- The effective feature set of a store at a time (R372). -/
def effectiveFeatures (store : List (List Byte)) (t : Nat) : Features :=
  match effectiveLicence store t with
  | some l => Features.ofByte (byteAt l 7)
  | none => Features.none_

/-- FAR, FP64 and TRAIN of the effective licence apply at once; CL32 and the T3 count stay as applied at boot (R372). -/
def State.refreshLicence (s : State) : State :=
  { s with effFeat := effectiveFeatures s.flash.licences s.licenceTime }

/-- The LICENCES byte as IDENTIFY reports it (R372). -/
def State.licencesByte (s : State) : Nat :=
  Features.toByte { s.effFeat with cl32 := s.bootFeat.cl32, t3 := s.bootFeat.t3 }

/-- The store with a licence added, the lowest SERIAL removed when it is full (R371). -/
def storeLicence (store : List (List Byte)) (l : List Byte) : List (List Byte) :=
  let lowest := store.foldl (fun a x => min a (leAt x 0x18 4)) (2 ^ 32)
  if store.length < 16 then store ++ [l] else store.filter (fun x => leAt x 0x18 4 != lowest) ++ [l]

/-- LICENCE_INSTALL reads I/O virtual memory of the physical function (R173) and checks in the order of R371. -/
def State.licenceInstallEff (addr len : Nat) (s : State) : Eff :=
  if !s.hostOk 0 addr len then (s, .accessDenied, 0)
  else
    let l := s.readLoc (hostLoc 0 addr) len
    if len ≠ 128 ∨ !s.licenceFields l ∨ leAt l 8 16 ≠ s.factory.uid then (s, .badParam, 0)
    else if !edVerify (nth s.factory.romKeys (byteAt l 6)) (l.take 64) (l.drop 64) then (s, .signatureBad, 0)
    else if s.flash.licences.any (fun x => decide (leAt l 0x18 4 ≤ leAt x 0x18 4)) then (s, .badParam, 0)
    else if ¬(s.licenceTime < leAt l 0x28 8 ∨ leAt l 0x28 8 = 2 ^ 64 - 1) then (s, .tooLate, 0)
    else
      let s := { s with flash := { s.flash with licences := storeLicence s.flash.licences l } }.refreshLicence
      (s, .ok, s.licencesByte)

/-- LICENCE_INSTALL (Table 7.11). -/
def execLicenceInstall (h : Hdr) (addr len : Nat) (s : State) : Host.Outcome State Fault Refusal :=
  .next (s.onRunning (.licenceInstall h addr len) (fun _ => s.complete h.adm (State.licenceInstallEff addr len)))

/-- LICENCE_WINDOW_EDGE: site time crosses an edge and the effective licence changes (R372). -/
def execLicenceWindowEdge (s : State) : Host.Outcome State Fault Refusal := .next s.refreshLicence

end Sys2Proof.Machine
end

