-- ==== Sys2Proof/Machine/Operands.lean ====
section
/-!
DEFINITION. Submission entries read as commands (Table 6.1, chapter 07): the opcode table's rows with their queues,
licences, named operand bytes and extended blocks, and every operand form decoded.
-/
namespace Sys2Proof.Machine

/-! ### The header (Tables 6.1 and 6.2) -/

/-- The header of an entry, with the origin and admission number it gets. -/
def decodeHdr (org : Origin) (adm : Nat) (e : List Byte) : Hdr :=
  let f := byteAt e 2
  let t := byteAt e 10
  { org := org, adm := adm, fenceBefore := f % 2 == 1, fenceAfter := f / 2 % 2 == 1, suppress := f / 4 % 2 == 1,
    inTxn := f / 8 % 2 == 1, prio := byteAt e 3 % 4, tag := BitVec.ofNat 32 (leAt e 4 4),
    wait := if t % 2 = 1 then some (byteAt e 8, BitVec.ofNat 32 (leAt e 12 4)) else none,
    signal := if t / 2 % 2 = 1 then some (byteAt e 9) else none }

/-! ### The opcode table (Tables 7.1 to 7.12) -/

/-- What the manual's tables say of an opcode: its code; the queues that accept it; IN_TXN required (R175); the
licences TRAIN and FAR that its row names; the operand bytes it names, as (offset, length, mask of the named bits); its
bay-address fields, with those that also take fabric addresses left out (R127); its extended block as (bytes,
alignment), with 0 bytes for the gather block, whose header gives its size. -/
structure OpRow where
  code : Nat
  bay : Bool
  sq0 : Bool
  control : Bool
  urgent : Bool
  txn : Bool
  train : Bool
  far : Bool
  named : List (Nat × Nat × Nat)
  addrs : List Nat
  block : Option (Nat × Nat)
  deriving DecidableEq, Repr

/-- Every bit of `len` bytes named. -/
def whole (off len : Nat) : Nat × Nat × Nat := (off, len, 2 ^ (8 * len) - 1)

def bayRow (code : Nat) (named : List (Nat × Nat × Nat)) (addrs : List Nat) : OpRow :=
  ⟨code, true, false, false, false, false, false, false, named, addrs, none⟩

def ctlRow (code : Nat) (named : List (Nat × Nat × Nat)) : OpRow :=
  ⟨code, false, false, true, false, false, false, false, named, [], none⟩

/-- A row whose operands are an extended block at bytes 16 to 23. -/
def blkRow (code size : Nat) (named : List (Nat × Nat × Nat)) : OpRow :=
  { bayRow code (whole 16 8 :: named) [] with block := some (size, 64) }

/-- Admin, memory and compute (Tables 7.1, 7.3, 7.4). -/
def opRows1 : List OpRow := [
  { bayRow 0x0000 [] [] with control := true },
  { bayRow 0x0001 [whole 16 1, whole 24 8] [24] with control := true },
  { bayRow 0x0002 [whole 16 1, (17, 1, 1), whole 18 1, whole 24 8, whole 32 4, whole 36 4] [24] with control := true },
  { bayRow 0x0010 [whole 16 8, whole 24 1, whole 25 1, whole 26 1, whole 27 1, whole 28 2, whole 30 1, whole 31 1,
      whole 32 2] [16] with sq0 := true },
  { bayRow 0x0011 [whole 24 1, whole 25 1] [] with sq0 := true },
  bayRow 0x0020 [whole 16 1, whole 17 1, (18, 1, 1), whole 20 4] [],
  bayRow 0x0100 [whole 16 8, whole 24 8, whole 32 8] [],
  bayRow 0x0101 [whole 16 8, whole 24 8, whole 32 8] [16],
  bayRow 0x0110 [whole 16 8, whole 24 8, whole 32 4, whole 36 1, whole 37 1, whole 38 1] [16],
  bayRow 0x0120 [whole 16 8, whole 24 8, whole 32 1] [16],
  blkRow 0x0200 192 [],
  blkRow 0x0210 128 [],
  bayRow 0x0220 [whole 16 8, whole 24 8, whole 32 4, whole 36 4, whole 40 4, whole 44 1, (45, 1, 1)] [16, 24],
  bayRow 0x0221 [whole 16 8, whole 24 8, whole 32 4, whole 36 1, whole 37 1, (38, 1, 1), whole 40 4, whole 44 4,
    whole 48 8] [16, 24],
  bayRow 0x0230 [whole 16 8, whole 24 4, whole 28 1, whole 29 1, (30, 1, 1), whole 32 4, whole 36 4, whole 40 8,
    whole 48 4, whole 52 4] [16]]

/-- Training, collectives and far exchange (Tables 7.6 to 7.8). -/
def opRows2 : List OpRow := [
  { blkRow 0x0300 0 [whole 24 4] with train := true },
  { bayRow 0x0310 [whole 16 8, whole 24 4, (28, 1, 3)] [16] with train := true },
  { bayRow 0x0311 [whole 16 8, whole 24 4, whole 28 2, (30, 1, 1)] [16] with train := true },
  { bayRow 0x0312 [whole 24 4] [] with train := true },
  { bayRow 0x0320 [whole 16 2, whole 20 4, whole 24 4] [] with train := true },
  { bayRow 0x0330 [whole 16 8, whole 24 4] [16] with train := true },
  bayRow 0x0400 [whole 16 8, whole 24 8, whole 32 8, whole 40 2, whole 42 1, whole 43 1, whole 44 1, whole 48 4,
    whole 56 8] [16, 24],
  bayRow 0x0401 [whole 16 8, whole 24 8, whole 32 8, whole 40 2, whole 42 1, whole 43 1, whole 44 1, whole 48 4,
    whole 56 8] [16, 24],
  bayRow 0x0402 [whole 16 8, whole 24 8, whole 32 8, whole 40 2, whole 42 1, whole 43 1, whole 44 1, whole 48 4,
    whole 56 8] [16, 24],
  bayRow 0x0403 [whole 16 8, whole 24 8, whole 32 8, whole 40 2, whole 42 1, whole 43 1, whole 44 1, whole 48 4,
    whole 56 8] [16, 24],
  blkRow 0x0410 256 [whole 24 2],
  bayRow 0x0411 [whole 24 2] [],
  blkRow 0x0420 128 [],
  bayRow 0x0421 [whole 24 2] [],
  { blkRow 0x0500 1024 [whole 24 2, whole 26 1] with train := true, far := true },
  { bayRow 0x0501 [] [] with train := true, far := true },
  { bayRow 0x0510 [whole 16 4, whole 20 4] [] with train := true, far := true },
  { bayRow 0x0521 [whole 16 4, whole 20 1, whole 24 4] [] with train := true, far := true },
  { bayRow 0x0530 [whole 16 1] [] with train := true, far := true }]

/-- Checkpoint, binding, security, diagnostics and urgent (Tables 7.9 to 7.13). -/
def opRows3 : List OpRow := [
  blkRow 0x0600 64 [whole 24 4],
  bayRow 0x0601 [whole 16 8, whole 24 4, whole 28 1, whole 29 1] [],
  bayRow 0x0602 [whole 24 4] [],
  bayRow 0x0610 [whole 16 8, whole 24 8, whole 32 1] [16, 24],
  bayRow 0x0611 [whole 16 8, whole 24 8, whole 32 1] [16, 24],
  { bayRow 0x0620 [whole 16 8, whole 24 8, whole 32 4] [16] with train := true },
  ctlRow 0x0700 [whole 16 1],
  ctlRow 0x0701 [whole 16 1, whole 18 2],
  ctlRow 0x0702 [whole 16 1],
  { ctlRow 0x0710 [whole 16 1, whole 17 1, whole 20 4] with txn := true },
  { ctlRow 0x0711 [whole 16 1, whole 17 1, whole 20 4, whole 24 4] with txn := true },
  { ctlRow 0x0712 [whole 16 1, (17, 1, 1), whole 18 2, whole 20 8, whole 28 1] with txn := true },
  ctlRow 0x0720 [whole 16 1, (17, 1, 1)],
  bayRow 0x0800 [whole 16 1, whole 17 1, whole 24 8] [24],
  bayRow 0x0801 [whole 16 1] [],
  bayRow 0x0810 [whole 16 8, whole 24 8, whole 32 8, whole 40 1, whole 41 1, whole 44 4, whole 48 8, whole 56 8]
    [16, 24, 48, 56],
  bayRow 0x0811 [whole 16 8, whole 24 8, whole 32 8] [16, 24],
  bayRow 0x0820 [whole 16 8, whole 24 4] [16],
  ctlRow 0x0830 [whole 16 8, whole 24 4],
  { bayRow 0x0900 [whole 16 1, whole 24 8, whole 32 4] [24] with control := true },
  ctlRow 0x0910 [whole 24 8, whole 32 4],
  bayRow 0x0920 [whole 24 8, whole 32 4] [24],
  ctlRow 0x0930 [whole 16 1, whole 17 1, whole 20 4],
  { ctlRow 0x0F00 [whole 16 1] with control := false, urgent := true },
  { ctlRow 0x0F01 [whole 16 1, whole 20 4] with control := false, urgent := true },
  { ctlRow 0x0F02 [whole 16 1] with control := false, urgent := true }]

def opRows : List OpRow := opRows1 ++ opRows2 ++ opRows3

def opRow? (code : Nat) : Option OpRow := opRows.find? (·.code == code)

/-- Bits of bytes 16 to 63 that no field names are zero (R172). -/
def reservedClear (named : List (Nat × Nat × Nat)) (first last : Nat) (bs : List Byte) : Bool :=
  (List.range' first (last - first)).all (fun i =>
    let v := byteAt bs i
    match named.find? (fun f => decide (f.1 ≤ i) && decide (i < f.1 + f.2.1)) with
    | none => v == 0
    | some f => Nat.land v (255 - f.2.2 / 2 ^ (8 * (i - f.1)) % 256) == 0)

/-! ### Extended blocks -/

/-- Named fields of the MATMUL block (Tables 3.3 and 3.4). -/
def matmulNamed : List (Nat × Nat × Nat) := [whole 0 0x50, (0x50, 4, 0x3FFFF), whole 0x54 8, whole 0x60 8]

def decodeMatmul (k : List Byte) : MatmulBlk :=
  let c := leAt k 0x50 4
  { aAddr := leAt k 0 8, bAddr := leAt k 8 8, cAddr := leAt k 0x10 8, cinAddr := leAt k 0x18 8,
    rescaleAddr := leAt k 0x20 8, statsAddr := leAt k 0x28 8, m := leAt k 0x30 4, n := leAt k 0x34 4,
    k := leAt k 0x38 4, lda := leAt k 0x3C 4, ldb := leAt k 0x40 4, ldc := leAt k 0x44 4, ldcin := leAt k 0x48 4,
    mask := BitVec.ofNat 32 (leAt k 0x4C 4), opfmt := bitsOf c 3 0, resfmt := bitsOf c 7 4, rnd := bitsOf c 10 8,
    aT := bitsOf c 11 11 == 1, bT := bitsOf c 12 12 == 1, accIn := bitsOf c 13 13 == 1,
    rescale := bitsOf c 14 14 == 1, stats := bitsOf c 15 15 == 1, statsRunning := bitsOf c 16 16 == 1,
    stoch := bitsOf c 17 17 == 1, tensorId := BitVec.ofNat 32 (leAt k 0x54 4), step := BitVec.ofNat 32 (leAt k 0x58 4),
    seed := BitVec.ofNat 64 (leAt k 0x60 8) }

/-- Four pairs of base and length. -/
def decodePairs (k : List Byte) (off : Nat) : List (Nat × Nat) :=
  (List.range 4).map (fun i => (leAt k (off + 16 * i) 8, leAt k (off + 16 * i + 8) 8))

def kernelNamed : List (Nat × Nat × Nat) := [whole 0 0x39, whole 0x40 0x80]

def decodeKernel (k : List Byte) : KernelBlk :=
  { imageAddr := leAt k 0 8, imageLen := leAt k 8 4, mask := BitVec.ofNat 32 (leAt k 0xC 4), entry := leAt k 0x10 8,
    argAddr := leAt k 0x18 8, seed := BitVec.ofNat 64 (leAt k 0x20 8), step := BitVec.ofNat 32 (leAt k 0x28 4),
    tensorId := BitVec.ofNat 32 (leAt k 0x2C 4), cycleLimit := leAt k 0x30 8, policy := byteAt k 0x38,
    readRanges := decodePairs k 0x40, writeRanges := decodePairs k 0x80 }

/-- Named bytes of a gather entry (Table 9.3), from its own first byte on. -/
def gatherNamed : List (Nat × Nat × Nat) := [whole 0 5, (5, 1, 1), whole 8 0x18]

def decodeGather (k : List Byte) : GatherEntry :=
  { tensorId := BitVec.ofNat 32 (leAt k 0 4), fmt := byteAt k 4, reuse := byteAt k 5 % 2 == 1,
    firstRow := leAt k 8 4, rowCount := leAt k 0xC 4, dst := leAt k 0x10 8, dstStride := leAt k 0x18 4,
    mcast := BitVec.ofNat 32 (leAt k 0x1C 4) }

def decodeGathers (k : List Byte) : List GatherEntry := (chunks 64 (k.drop 64)).map decodeGather

def groupNamed : List (Nat × Nat × Nat) := [whole 0 2, whole 4 0x14, whole 0x20 0x80]

def decodeGroup (k : List Byte) : GroupBlk :=
  { members := byteAt k 0, thisMember := byteAt k 1, mask := BitVec.ofNat 32 (leAt k 4 4), treeMax := leAt k 8 4,
    chainAbove := leAt k 0xC 4, silentMs := leAt k 0x10 4, joinMs := leAt k 0x14 4,
    nodes := (List.range 64).map (fun m => leAt k (0x20 + 2 * m) 2) }

def triggerNamed : List (Nat × Nat × Nat) := [whole 0 3, (3, 1, 7), whole 4 0x29, whole 0x30 4, whole 0x38 8]

def decodeTrigger (k : List Byte) : TrigBlk :=
  let f := byteAt k 3
  { kind := byteAt k 0, issuer := byteAt k 1, waitCtr := byteAt k 2, rearm := f % 2 == 1, signalEn := f / 2 % 2 == 1,
    remoteEn := f / 4 % 2 == 1, thresh := BitVec.ofNat 32 (leAt k 4 4), stride := BitVec.ofNat 32 (leAt k 8 4),
    signalCtr := byteAt k 0xC, remoteCtr := byteAt k 0xD, group := leAt k 0xE 2, src := leAt k 0x10 8,
    dst := leAt k 0x18 8, length := leAt k 0x20 8, vc := byteAt k 0x28, copcode := byteAt k 0x29, op := byteAt k 0x2A,
    fmt := byteAt k 0x2B, algo := byteAt k 0x2C, root := leAt k 0x30 4, rstride := leAt k 0x38 8 }

/-- Named bytes of the join block (Table 11.2); the 6 last bytes of a peer's entry are reserved. -/
def joinNamed : List (Nat × Nat × Nat) :=
  [whole 0 0x62, whole 0x68 0x1C] ++ (List.range 16).map (fun i => whole (0x100 + 24 * i) 18)

def decodeJoin (k : List Byte) : JoinBlk :=
  { siteMask := BitVec.ofNat 16 (leAt k 2 2), thisSite := byteAt k 4, members := byteAt k 5, thisMember := byteAt k 6,
    farPorts := byteAt k 7, h := leAt k 8 4, step0 := BitVec.ofNat 32 (leAt k 0xC 4), t0 := leAt k 0x10 8,
    periodNs := leAt k 0x18 8, graceUs := leAt k 0x20 4, takeoverUs := leAt k 0x24 4, digestUs := leAt k 0x28 4,
    rtxGib := leAt k 0x2C 4, recvGib := leAt k 0x30 4, outerLr := BitVec.ofNat 32 (leAt k 0x34 4),
    outerMu := BitVec.ofNat 32 (leAt k 0x38 4),
    stale := (List.range 3).map (fun i => BitVec.ofNat 32 (leAt k (0x3C + 4 * i) 4)),
    noncePrefix := BitVec.ofNat 64 (leAt k 0x48 8), landAddr := leAt k 0x50 8, landLen := leAt k 0x58 8,
    udpPort := leAt k 0x60 2, srcIp := leAt k 0x68 16, mac0 := leAt k 0x78 6, mac1 := leAt k 0x7E 6,
    peers := (List.range 16).map (fun i => ⟨leAt k (0x100 + 24 * i) 16, leAt k (0x110 + 24 * i) 2⟩) }

def cutNamed : List (Nat × Nat × Nat) := [whole 0 2, (2, 1, 1), whole 8 0x20]

def decodeCut (k : List Byte) : CutBlk :=
  { layoutOnly := byteAt k 2 % 2 == 1, kerfMaster := leAt k 8 8, kerfM1 := leAt k 0x10 8, kerfM2 := leAt k 0x18 8,
    kerfOmom := leAt k 0x20 8 }

/-- Named bytes of an opcode's extended block. -/
def blockNamed : Nat → List (Nat × Nat × Nat)
  | 0x0200 => kernelNamed | 0x0210 => matmulNamed | 0x0300 => [whole 0 2] | 0x0410 => groupNamed
  | 0x0420 => triggerNamed | 0x0500 => joinNamed | 0x0600 => cutNamed | _ => []

/-- Reserved bits of the whole extended block are zero. -/
def blockClear (code : Nat) (k : List Byte) : Bool :=
  if code = 0x0300 then
    reservedClear [whole 0 2] 0 64 k && (chunks 64 (k.drop 64)).all (reservedClear gatherNamed 0 64)
  else reservedClear (blockNamed code) 0 k.length k

/-! ### Commands from entries -/

def decodeColl (e : List Byte) : CollOps :=
  ⟨leAt e 16 8, leAt e 24 8, leAt e 32 8, leAt e 40 2, byteAt e 42, byteAt e 43, byteAt e 44, leAt e 48 4, leAt e 56 8⟩

def w32At (e : List Byte) (off : Nat) : W32 := BitVec.ofNat 32 (leAt e off 4)

def w64At (e : List Byte) (off : Nat) : W64 := BitVec.ofNat 64 (leAt e off 8)

/-- The command of an entry of an opcode, with its extended block's bytes. -/
def buildInstr (code : Nat) (h : Hdr) (e k : List Byte) : Option Instr :=
  match code with
  | 0x0000 => some (.nop h)
  | 0x0001 => some (.identify h (byteAt e 16) (leAt e 24 8))
  | 0x0002 => some (.getLog h (byteAt e 16) (byteAt e 17 % 2 == 1) (byteAt e 18) (leAt e 24 8) (leAt e 32 4) (leAt e 36 4))
  | 0x0010 => some (.queueCreate h ⟨leAt e 16 8, byteAt e 24, byteAt e 25, byteAt e 26, byteAt e 27, leAt e 28 2,
      byteAt e 30, byteAt e 31, leAt e 32 2⟩)
  | 0x0011 => some (.queueDelete h (byteAt e 24) (byteAt e 25))
  | 0x0020 => some (.counterSet h (byteAt e 16) (byteAt e 17 == 1) (byteAt e 18 % 2 == 1) (w32At e 20))
  | 0x0100 => some (.memCopy h (leAt e 16 8) (leAt e 24 8) (leAt e 32 8))
  | 0x0101 => some (.memFill h (leAt e 16 8) (leAt e 24 8) (w64At e 32))
  | 0x0110 => some (.memMap h ⟨leAt e 16 8, leAt e 24 8, leAt e 32 4, byteAt e 36, byteAt e 37, byteAt e 38⟩)
  | 0x0120 => some (.memPlace h (leAt e 16 8) (leAt e 24 8) (byteAt e 32))
  | 0x0200 => some (.kernelLaunch h (decodeKernel k))
  | 0x0210 => some (.matmul h (decodeMatmul k))
  | 0x0220 => some (.quantStats h ⟨leAt e 16 8, leAt e 24 8, leAt e 32 4, leAt e 36 4, leAt e 40 4, byteAt e 44,
      byteAt e 45 % 2 == 1⟩)
  | 0x0221 => some (.convert h ⟨leAt e 16 8, leAt e 24 8, leAt e 32 4, byteAt e 36, byteAt e 37, byteAt e 38 % 2 == 1,
      w32At e 40, w32At e 44, w64At e 48⟩)
  | 0x0230 => some (.rngFill h ⟨leAt e 16 8, leAt e 24 4, byteAt e 28, byteAt e 29, byteAt e 30 % 2 == 1, w32At e 32,
      w32At e 36, w64At e 40, w32At e 48, w32At e 52⟩)
  | 0x0300 => some (.stepGather h (w32At e 24) (decodeGathers k))
  | 0x0310 => some (.stepUpdate h (leAt e 16 8) (w32At e 24) (byteAt e 28 % 2 == 1) (byteAt e 28 / 2 % 2 == 1))
  | 0x0311 => some (.updateArm h (leAt e 16 8) (w32At e 24) (leAt e 28 2) (byteAt e 30 % 2 == 1))
  | 0x0312 => some (.updateDisarm h (w32At e 24))
  | 0x0320 => some (.normClip h (leAt e 16 2) (w32At e 20) (w32At e 24))
  | 0x0330 => some (.shardMapLoad h (leAt e 16 8) (leAt e 24 4))
  | 0x0400 => some (.collAllreduce h (decodeColl e))
  | 0x0401 => some (.collAllgather h (decodeColl e))
  | 0x0402 => some (.collReduceScatter h (decodeColl e))
  | 0x0403 => some (.collBroadcast h (decodeColl e))
  | 0x0410 => some (.collGroupCreate h (leAt e 24 2) (decodeGroup k))
  | 0x0411 => some (.collGroupDestroy h (leAt e 24 2))
  | 0x0420 => some (.triggerArm h (decodeTrigger k))
  | 0x0421 => some (.triggerDisarm h (leAt e 24 2))
  | 0x0500 => some (.scarfJoin h (decodeJoin k) (leAt e 24 2) (byteAt e 26))
  | 0x0501 => some (.scarfLeave h)
  | 0x0510 => some (.scarfEpochClose h (w32At e 16) (w32At e 20))
  | 0x0521 => some (.scarfCancel h (w32At e 16) (byteAt e 20) (w32At e 24))
  | 0x0530 => some (.scarfCatchup h (byteAt e 16))
  | 0x0600 => some (.ckptCut h (w32At e 24) (decodeCut k))
  | 0x0601 => some (.ckptDrain h (leAt e 16 8) (w32At e 24) (byteAt e 28) (byteAt e 29))
  | 0x0602 => some (.ckptRelease h (w32At e 24))
  | 0x0610 => some (.ckptRestore h (leAt e 16 8) (leAt e 24 8) (byteAt e 32))
  | 0x0611 => some (.ckptVerify h (leAt e 16 8) (leAt e 24 8) (byteAt e 32))
  | 0x0620 => some (.exportStream h (leAt e 16 8) (leAt e 24 8) (w32At e 32))
  | 0x0700 => some (.txnBegin h (byteAt e 16))
  | 0x0701 => some (.txnCommit h (byteAt e 16) (leAt e 18 2))
  | 0x0702 => some (.txnRollback h (byteAt e 16))
  | 0x0710 => some (.bindCluster h (byteAt e 16) (byteAt e 17 == 1) (w32At e 20))
  | 0x0711 => some (.bindMemory h (byteAt e 16) (byteAt e 17 == 1) (leAt e 20 4) (leAt e 24 4))
  | 0x0712 => some (.bindShares h (byteAt e 16) ⟨byteAt e 17 % 2 == 1, leAt e 18 2,
      (List.range 8).map (fun v => byteAt e (20 + v)), byteAt e 28⟩)
  | 0x0720 => some (.bayReset h (byteAt e 16) (byteAt e 17 % 2 == 1))
  | 0x0800 => some (.keyLoad h (byteAt e 16) (byteAt e 17) (leAt e 24 8))
  | 0x0801 => some (.keyErase h (byteAt e 16))
  | 0x0810 => some (.cipherRun h ⟨leAt e 16 8, leAt e 24 8, leAt e 32 8, byteAt e 40, byteAt e 41 == 1, leAt e 44 4,
      leAt e 48 8, leAt e 56 8⟩)
  | 0x0811 => some (.digestRun h (leAt e 16 8) (leAt e 24 8) (leAt e 32 8))
  | 0x0820 => some (.entropyRead h (leAt e 16 8) (leAt e 24 4))
  | 0x0830 => some (.licenceInstall h (leAt e 16 8) (leAt e 24 4))
  | 0x0900 => some (.telemetryRead h (byteAt e 16) (leAt e 24 8) (leAt e 32 4))
  | 0x0910 => some (.seasonReport h (leAt e 24 8) (leAt e 32 4))
  | 0x0920 => some (.floorplanRead h (leAt e 24 8) (leAt e 32 4))
  | 0x0930 => some (.linkTest h (byteAt e 16) (byteAt e 17) (leAt e 20 4))
  | 0x0F00 => some (.haltBay h (byteAt e 16))
  | 0x0F01 => some (.evictBay h (byteAt e 16) (w32At e 20))
  | 0x0F02 => some (.resumeBay h (byteAt e 16))
  | _ => none

end Sys2Proof.Machine
end

