-- ==== Sys2Proof/Machine/Admin.lean ====
section
/-!
DEFINITION. The admin commands: NOP, IDENTIFY, GET_LOG, QUEUE_CREATE, QUEUE_DELETE, COUNTER_SET (R151, R157, R178, R350).
-/
namespace Sys2Proof.Machine

/-! ### Output buffers -/

/-- A command's output buffer is writable: bay memory, or the physical function's I/O virtual memory (R173). -/
def State.outOk (s : State) (o : Origin) (a n : Nat) : Bool := match o with
  | .bay b _ => s.rangeOk b .wr a n
  | _ => s.hostOk 0 a n

def State.outWrite (s : State) (o : Origin) (a : Nat) (bs : List Byte) : State := match o with
  | .bay b _ => s.writeBay b a bs
  | _ => s.writeLoc (hostLoc 0 a) bs

/-- Writes a buffer whole, or completes ACCESS_DENIED, or MACHINE_CHECK over a skipped line (R339). -/
def State.putOut (s : State) (o : Origin) (a : Nat) (bs : List Byte) (result : Nat) : Eff :=
  if !s.outOk o a bs.length then (s, .accessDenied, 0)
  else
    let st := match o with
      | .bay b _ => s.outStatus b [(a, bs.length)] .ok
      | _ => .ok
    (s.outWrite o a bs, st, result)

/-! ### NOP -/

/-- NOP: no effect beyond its trigger, fences and signal (Table 7.1). -/
def execNop (h : Hdr) (s : State) : Host.Outcome State Fault Refusal :=
  .next (s.onRunning (.nop h) (fun _ => s.finishNat h.adm .ok 0))

/-! ### IDENTIFY -/

/-- Table 7.2. -/
def State.identifyBytes (s : State) (bay : Nat) : List Byte :=
  let y := s.bay bay
  let some_ := decide (bay < 16)
  let f := fun (n v : Nat) => toLe n (if some_ then v else 0)
  padTo 256 (padTo 0x18 (toLe 16 s.factory.uid ++ toLe 2 s.factory.stepping ++ toLe 1 s.lclusters ++ toLe 1 s.licencesByte) ++
    (s.boot.versions.map (fun v => toLe 8 v.toNat)).flatten ++ toLe 1 bay ++
    toLe 1 (if some_ then y.st.code else 0xFF) ++ f 2 y.bind.slotLimit ++ f 4 y.bind.clusters.toNat ++
    f 4 y.bind.granules.length ++ toLe 1 (if some_ then y.member else 0xFF) ++ f 1 (bit y.bind.ftz 0) ++ zeros 2 ++
    (s.t3cap.map (toLe 4)).flatten)

/-- The bay that IDENTIFY describes: its own on a bay queue (Table 7.1). -/
def identifyBay (h : Hdr) (bay : Nat) : Nat := match h.org with
  | .bay b _ => b
  | _ => bay

/-- IDENTIFY (Table 7.1). -/
def execIdentify (h : Hdr) (bay dst : Nat) (s : State) : Host.Outcome State Fault Refusal :=
  .next (s.onRunning (.identify h bay dst) (fun _ =>
    s.complete h.adm (fun s => s.putOut h.org dst (s.identifyBytes (identifyBay h bay)) 0)))

/-! ### GET_LOG (R350) -/

/-- A record's 64 bytes (Table 14.8). -/
def recBytes (r : Rec) : List Byte :=
  toLe 8 r.seq ++ toLe 8 r.time ++ toLe 2 r.code ++ toLe 1 r.cls ++ toLe 1 r.bay ++ toLe 1 r.kind ++ toLe 1 r.die ++
    toLe 2 r.unit ++ toLe 2 r.sub ++ toLe 2 0 ++ toLe 4 r.tag.toNat ++ toLe 8 r.addr ++ toLe 8 r.d0 ++ toLe 8 r.d1 ++
    toLe 8 0

/-- The header and records of a log (Table 14.11). -/
def logBytes (id bay : Nat) (l : Log) : List Byte :=
  toLe 1 id ++ toLe 1 1 ++ toLe 1 (if id = 2 then bay else 0xFF) ++ toLe 1 0 ++ toLe 4 64 ++ toLe 4 l.cap ++
    toLe 4 l.recs.length ++ toLe 8 ((l.recs.head?.map (·.seq)).getD l.next) ++ toLe 8 l.overflow ++ toLe 8 l.cleared ++
    zeros 24 ++ (l.recs.map recBytes).flatten

/-- The log a command names; a bay queue reads its own log 2. -/
def State.logOf (s : State) (h : Hdr) (log bay : Nat) : Log := match log, h.org with
  | 0, _ => s.bootLog
  | 1, _ => s.errLog
  | _, .bay b _ => (s.bay b).log
  | _, _ => (s.bay bay).log

/-- CLEAR empties the records; SEQ and OVERFLOW go on (R350). -/
def Log.clear (l : Log) (now : Nat) : Log := { l with recs := [], cleared := now }

def State.clearLog (s : State) (h : Hdr) (log bay : Nat) : State := match log, h.org with
  | 0, _ => { s with bootLog := s.bootLog.clear s.now }
  | 1, _ => { s with errLog := s.errLog.clear s.now }
  | _, .bay b _ => s.setBay b (fun y => { y with log := y.log.clear s.now })
  | _, _ => s.setBay bay (fun y => { y with log := y.log.clear s.now })

def logBay (h : Hdr) (bay : Nat) : Nat := match h.org with
  | .bay b _ => b
  | _ => bay

def State.getLogEff (h : Hdr) (log : Nat) (clear : Bool) (bay dst length offset : Nat) (s : State) : Eff :=
  let all := logBytes log (logBay h bay) (s.logOf h log bay)
  let out := slice all offset length
  let e := s.putOut h.org dst out (out.length + 2 ^ 32 * all.length)
  (if clear && e.2.1.success then e.1.clearLog h log bay else e.1, e.2.1, e.2.2)

/-- GET_LOG (Table 7.1). -/
def execGetLog (h : Hdr) (log : Nat) (clear : Bool) (bay dst length offset : Nat) (s : State) :
    Host.Outcome State Fault Refusal :=
  .next (s.onRunning (.getLog h log clear bay dst length offset) (fun _ =>
    s.complete h.adm (State.getLogEff h log clear bay dst length offset)))

/-! ### Queues -/

/-- A ring may lie here (R149): whole in the host window or whole in the device-memory range, on pages that are writable and
not KERF. -/
def State.ringOk (s : State) (b a bytes : Nat) : Bool :=
  ((decide (2 ^ 30 ≤ a) && decide (a + bytes ≤ 2 ^ 47)) || (decide (2 ^ 47 ≤ a) && decide (a + bytes ≤ 2 ^ 48))) &&
    s.rangeOk b .wr a bytes

/-- The checks of R151 in its order; the field checks first. -/
def State.queueCreateCheck (s : State) (b : Nat) (q : QueueOps) : Option Status :=
  let y := s.bay b
  let sub := decide (q.qtype = 0)
  let entry := if sub then 64 else 16
  if q.qtype > 1 ∨ q.qid = 0 ∨ q.qid > 7 ∨ q.log2Size < 6 ∨ q.log2Size > 16 then some .badParam
  else if sub ∧ (q.cqid > 7 ∨ q.vector ≠ 0 ∨ q.coalCount ≠ 0 ∨ q.weight = 0 ∨ q.weight > 16 ∨ q.coalTime ≠ 0) then
    some .badParam
  else if !sub ∧ (q.cqid ≠ 0 ∨ q.vector ≥ 120 ∨ q.weight ≠ 0 ∨ q.coalTime > 1023) then some .badParam
  else if sub ∧ !(nth y.cqs q.cqid).live then some .badParam
  else if q.ringAddr % 4096 ≠ 0 then some .badAlign
  else if !s.ringOk b q.ringAddr (entry * 2 ^ q.log2Size) then some .accessDenied
  else if (if sub then (nth y.sqs q.qid).live else (nth y.cqs q.qid).live) then some .conflict
  else none

def State.queueCreateEff (b : Nat) (q : QueueOps) (s : State) : Eff :=
  match s.queueCreateCheck b q with
  | some st => (s, st, 0)
  | none =>
    if q.qtype = 0 then
      (s.setSq b q.qid (fun _ => ⟨true, q.ringAddr, q.log2Size, q.cqid, q.weight, 0, 0, none⟩), .ok, 0)
    else
      (s.setCq b q.qid
        (fun _ => ⟨true, q.ringAddr, q.log2Size, q.vector, q.coalCount, q.coalTime, 0, 0, true, 0, none⟩), .ok, 0)

/-- QUEUE_CREATE (R151). -/
def execQueueCreate (h : Hdr) (q : QueueOps) (s : State) : Host.Outcome State Fault Refusal :=
  .next (s.onRunning (.queueCreate h q) (fun c =>
    match c.bay? with
    | some b => s.complete h.adm (State.queueCreateEff b q)
    | none => s))

/-- A completion queue with a submission queue reporting to it (R157). -/
def Bay.reports (y : Bay) (cq : Nat) : Bool := y.sqs.any (fun q => q.live && q.cq == cq)

/-- The checks of QUEUE_DELETE: BAD_PARAM for a queue that does not exist, CONFLICT by R157. -/
def State.queueDeleteCheck (s : State) (b qtype qid : Nat) : Option Status :=
  let y := s.bay b
  if qtype > 1 ∨ qid = 0 ∨ qid > 7 then some .badParam
  else if qtype = 0 then
    (if !(nth y.sqs qid).live ∨ (nth y.sqs qid).deleting.isSome then some .badParam else none)
  else if !(nth y.cqs qid).live then some .badParam
  else if y.reports qid then some .conflict
  else none

/-- QUEUE_DELETE (R157): a submission queue is fetched from no more and goes after its last command has posted. -/
def execQueueDelete (h : Hdr) (qtype qid : Nat) (s : State) : Host.Outcome State Fault Refusal :=
  .next (s.onRunning (.queueDelete h qtype qid) (fun c =>
    match c.bay? with
    | none => s
    | some b =>
      match s.queueDeleteCheck b qtype qid with
      | some st => s.fail h.adm st
      | none =>
        if qtype = 0 then
          ((s.setActive h.adm).setSq b qid (fun q => { q with deleting := some h.adm })).settleQueue b qid
        else (s.setCq b qid (fun _ => CompQ.none_)).finishNat h.adm .ok 0))

/-! ### COUNTER_SET -/

/-- COUNTER_SET: a software write or an increment, with CLEAR_ERR in the same cycle; the result is VALUE before it. -/
def execCounterSet (h : Hdr) (ctr : Nat) (add clearErr : Bool) (value : W32) (s : State) :
    Host.Outcome State Fault Refusal :=
  .next (s.onRunning (.counterSet h ctr add clearErr value) (fun c =>
    match c.bay? with
    | none => s
    | some b =>
      let old := nth (s.bay b).counters ctr
      let s := s.setCounter b ctr (fun k => ⟨if add then k.value + value else value, k.err && !clearErr⟩)
      (s.recheck b ctr).finishNat h.adm .ok old.value.toNat))

end Sys2Proof.Machine
end

