-- ==== Sys2Proof/Machine/Compute.lean ====
section
/-!
DEFINITION. QUANT_STATS, CONVERT and RNG_FILL (R65, R180, R181).
-/
namespace Sys2Proof.Machine

/-! ### QUANT_STATS -/

def statsIns (o : StatsOps) : List (Nat × Nat) :=
  rowRanges o.src o.ld o.rows o.cols o.fmt ++ (if o.running then [(o.dst, 4 * o.cols)] else [])

def statsOuts (o : StatsOps) : List (Nat × Nat) := [(o.dst, 4 * o.cols)]

/-- The largest magnitude of every column, in FP32 (R65). -/
def State.quantStatsEff (b : Nat) (o : StatsOps) (s : State) : Eff :=
  match s.ioStatus b (statsIns o) (statsOuts o) with
  | some st => (s, st, 0)
  | none =>
    let cols := columns o.cols (s.matRows b o.src o.ld o.rows o.cols o.fmt)
    let old := if o.running then s.readBay b o.dst (4 * o.cols) else []
    let outs := cols.zipIdx.map (fun c => statOut o.running (leAt old (4 * c.2) 4) c.1)
    let st := s.outStatus b (statsOuts o) .ok
    ((s.writeBay b o.dst ((outs.map (fun x => toLe 4 x.1)).flatten)).raise b (orFlags outs), st, 0)

/-- QUANT_STATS (Table 7.4). -/
def execQuantStats (h : Hdr) (o : StatsOps) (s : State) : Host.Outcome State Fault Refusal :=
  .next (s.onRunning (.quantStats h o) (fun c =>
    match c.bay? with
    | some b => s.completeIn h.adm b (statsIns o) (State.quantStatsEff b o)
    | none => s))

/-! ### CONVERT -/

def convertIns (o : ConvertOps) : List (Nat × Nat) := [(o.src, storedBytes o.srcFmt o.count)]

def convertOuts (o : ConvertOps) : List (Nat × Nat) := [(o.dst, storedBytes o.dstFmt o.count)]

/-- Every element narrowed once from its exact source value (R180). -/
def State.convertEff (b : Nat) (ftz : Bool) (o : ConvertOps) (s : State) : Eff :=
  match s.ioStatus b (convertIns o) (convertOuts o) with
  | some st => (s, st, 0)
  | none =>
    let vs := (decodeTensor o.srcFmt o.count (s.readBay b o.src (storedBytes o.srcFmt o.count))).map (matIn ftz o.srcFmt)
    let draw := if o.stoch then some (narrowDraw o.seed o.step o.tensorId) else none
    let x := packRow ftz o.dstFmt draw (vs.map (·.1))
    let st := s.outStatus b (convertOuts o) .ok
    ((s.writeBay b o.dst x.1).raise b (x.2 ||| orFlags vs), st, 0)

/-- CONVERT (Table 7.4). -/
def execConvert (h : Hdr) (o : ConvertOps) (s : State) : Host.Outcome State Fault Refusal :=
  .next (s.onRunning (.convert h o) (fun c =>
    match c.bay? with
    | some b => s.completeIn h.adm b (convertIns o) (State.convertEff b c.ftz o)
    | none => s))

/-! ### RNG_FILL -/

/-- The exact value of one element (R181). -/
def rngValue (o : RngOps) (g : Grain) : Val :=
  let a := decodeElem FP32 o.a.toNat
  let c := decodeElem FP32 o.b.toNat
  match o.dist with
  | 0 => addVal .even (mulVal a (.fin false (g.w0 / 256) (-24))) c
  | 1 => addVal .even (mulVal a (normalZ g.w0 g.w1)) c
  | _ => if g.w1 < o.a.toNat then .fin false 1 0 else .fin false 0 0

def rngOuts (o : RngOps) : List (Nat × Nat) := [(o.dst, storedBytes o.fmt o.count)]

def State.rngFillEff (b : Nat) (o : RngOps) (s : State) : Eff :=
  match s.ioStatus b [] (rngOuts o) with
  | some st => (s, st, 0)
  | none =>
    let gs := (List.range o.count).map (fun i => grain o.seed i o.step o.tensorId)
    let draw := if o.stoch then some (fun i => (nth gs i).w3 % 65536) else none
    let x := packRow false o.fmt draw (gs.map (rngValue o))
    let st := s.outStatus b (rngOuts o) .ok
    ((s.writeBay b o.dst x.1).raise b x.2, st, 0)

/-- RNG_FILL (Table 7.4). -/
def execRngFill (h : Hdr) (o : RngOps) (s : State) : Host.Outcome State Fault Refusal :=
  .next (s.onRunning (.rngFill h o) (fun c =>
    match c.bay? with
    | some b => s.complete h.adm (State.rngFillEff b o)
    | none => s))

end Sys2Proof.Machine
end

