-- ==== Sys2Proof/Machine/Cores.lean ====
section
/-!
DEFINITION. General cores: KERNEL_LAUNCH, the Xtenon instructions, their control registers, DMA, and how a launch ends
(R98 to R108). Base RISC-V instructions have no row (NOTES.md, "Scope").
-/
namespace Sys2Proof.Machine

/-! ### Cores and launches -/

/-- The key of a core: physical cluster * 10 + physical core. -/
def State.coreKey (s : State) (c : CoreRef) : Option Nat := (s.phys c.lc).map (fun p => p * 10 + c.core)

def State.core (s : State) (k : Nat) : Core := (assoc s.cores k).getD Core.reset

def State.setCore (s : State) (k : Nat) (f : Core → Core) : State := { s with cores := assocSet s.cores k (f (s.core k)) }

/-- Good cores of a physical cluster, ascending (R105). -/
def Cluster.good (c : Cluster) : List Nat := bitsSet (c.goodCores &&& ~~~c.retiredCores)

/-- The cores that a launch selects in a cluster (R103). -/
def Cluster.selected (c : Cluster) (policy : Nat) : List Nat := if policy = 0 then c.good.take 8 else c.good

/-- The cores of a launch: (logical cluster, physical core, key), ascending. -/
def State.launchCores (s : State) (m : W32) (policy : Nat) : List (Nat × Nat × Nat) :=
  ((bitsSet m).map (fun lc => match s.phys lc with
    | some p => ((nth s.clusters p).selected policy).map (fun k => (lc, k, p * 10 + k))
    | none => [])).flatten

/-- The configuration block of a core (Table 4.6). -/
def State.configBlock (s : State) (b : Nat) (h : Hdr) (k : KernelBlk) (lc core key : Nat) : List Byte :=
  let cl := nth s.clusters (key / 10)
  let sel := cl.selected k.policy
  let set := bitsSet k.mask
  padTo 128 (toLe 2 core ++ toLe 2 (sel.findIdx (· == core)) ++ toLe 2 sel.length ++
    toLe 2 (cl.goodCores &&& ~~~cl.retiredCores).toNat ++ toLe 2 lc ++ toLe 2 (set.findIdx (· == lc)) ++ toLe 2 set.length ++
    toLe 1 b ++ toLe 1 (s.bay b).member ++ toLe 8 k.entry ++ toLe 8 k.argAddr ++ toLe 8 k.seed.toNat ++
    toLe 4 k.step.toNat ++ toLe 4 k.tensorId.toNat ++ toLe 8 k.cycleLimit ++ toLe 4 h.tag.toNat)

/-- A core at the entry of a kernel (R104, Table 4.5): its registers are set anew, those the manual does not name to their
reset values (log 6); descriptors that an earlier launch left on its channels stay (R108). -/
def Core.start (adm : Nat) (k : KernelBlk) (c : Core) : Core :=
  { Core.reset with
    launch := some adm
    dma0 := c.dma0
    dma1 := c.dma1
    x := ((List.replicate 32 (0 : W64)).set 10 (BitVec.ofNat 64 (k.argAddr + 2 ^ 48))).set 11 (0x3FF80 : W64)
    pc := BitVec.ofNat 64 k.entry
    gseed := k.seed
    gpos := BitVec.ofNat 64 (k.step.toNat + 2 ^ 32 * k.tensorId.toNat) }

/-- Local memory of a core by key. -/
def localLoc (key off : Nat) : Loc := ⟨.local_, key * 2 ^ 18 + off⟩

/-- KERNEL_LAUNCH: the image and the configuration blocks are written and the cores begin (R103 to R105). -/
def execKernelLaunch (h : Hdr) (k : KernelBlk) (s : State) : Host.Outcome State Fault Refusal :=
  .next (s.onRunning (.kernelLaunch h k) (fun c =>
    match c.bay? with
    | none => s
    | some b =>
      match s.ioStatus b [(k.imageAddr, k.imageLen)] [] with
      | some st => (s.logBadReads b .rd h.tag [(k.imageAddr, k.imageLen)]).fail h.adm st
      | none =>
        let image := s.readBay b k.imageAddr k.imageLen
        let cores := s.launchCores k.mask k.policy
        cores.foldl (fun s x =>
          let s := s.writeLoc (localLoc x.2.2 0) image
          let s := s.writeLoc (localLoc x.2.2 0x3FF80) (s.configBlock b h k x.1 x.2.1 x.2.2)
          s.setCore x.2.2 (Core.start h.adm k)) (s.setActive h.adm)))

/-- Keys of the cores that run a launch. -/
def State.coresOf (s : State) (adm : Nat) : List Nat :=
  (s.cores.filter (fun p => p.2.launch == some adm)).map (·.1)

/-- The logical cluster that a core key belongs to. -/
def State.logicalOf (s : State) (p : Nat) : Nat := s.lmap.findIdx (· == some p)

/-- The cores of a launch stop (R106); their channels go on with what is queued (R108). -/
def State.stopLaunch (s : State) (adm : Nat) : State :=
  { s with cores := s.cores.map (fun (p : Nat × Core) => if p.2.launch = some adm then
      (p.1, { p.2 with launch := none, exited := true }) else p) }

/-- The result of a fault (Table 4.7). -/
def faultResult (lc core cause : Nat) (pc : W64) : Nat :=
  lc + core * 2 ^ 5 + cause % 2 ^ 16 * 2 ^ 16 + pc.toNat % 2 ^ 32 * 2 ^ 32

/-- A launch ends with a status, with the fault fields of a core (R106). -/
def State.failLaunch (s : State) (adm key : Nat) (st : Status) (cause : Nat) (pc : W64) : State :=
  (s.stopLaunch adm).finishNat adm st (faultResult (s.logicalOf (key / 10)) (key % 10) cause pc)

/-- The status of an exception (Table 4.7): access faults of fetch, load and store are ACCESS_DENIED. -/
def exceptionStatus (cause : Nat) : Status := if cause = 1 ∨ cause = 5 ∨ cause = 7 then .accessDenied else .aborted

/-- An exception in a running core (R106). -/
def State.coreFault (s : State) (key cause : Nat) (pc : W64) : State :=
  match (s.core key).launch with
  | some adm => s.failLaunch adm key (exceptionStatus cause) cause pc
  | none => s

/-- A core met a line that cannot be recovered: its launch ends MACHINE_CHECK with the fields of a fault (R97, R106). The
manual numbers no cause for it: that field is free (log 7). -/
def State.coreCheck (s : State) (key : Nat) (pc : W64) : State :=
  match (s.core key).launch with
  | some adm => (s.useFree 1).failLaunch adm key .machineCheck s.freeNow.toNat pc
  | none => s

/-- The same for reads of bay memory, which are logged (R339). -/
def State.coreBadRead (s : State) (key b : Nat) (pc : W64) (rs : List (Nat × Nat)) : State :=
  (s.logBadReads b .rd (s.tagOf (s.core key).launch) rs).coreCheck key pc

/-- The cores that still run a launch, ascending: logical cluster, physical core, key. -/
def State.runningCores (s : State) (c : Slot) : List (Nat × Nat × Nat) := match c.instr with
  | .kernelLaunch _ k => (s.launchCores k.mask k.policy).filter (fun x =>
      (s.core x.2.2).launch == some c.adm && !(s.core x.2.2).exited)
  | _ => []

/-- A launch is stopped from outside: the fault fields name its lowest running core, with the cause code given, or a free
one where the manual numbers none (Table 4.7, log 7). -/
def State.stopFields (s : State) (c : Slot) (cause : Option Nat) : State × Nat :=
  let k := ((s.runningCores c).map (·.2.2)).headD 0
  let r := faultResult (s.logicalOf (k / 10)) (k % 10) (cause.getD s.freeNow.toNat) (s.core k).pc
  let t := s.stopLaunch c.adm
  (if cause.isSome then t else t.useFree 1, r)

/-- A core past an instruction: pc and instret count on (R98). -/
def Core.past (k : Core) : Core := { k with pc := k.pc + 4, instret := k.instret + 1 }

/-- Runs an instruction on a core that runs a kernel, which then goes on past it. -/
def State.onCore (s : State) (c : CoreRef) (f : Nat → Core → Nat → State) : State :=
  match s.coreKey c with
  | none => s
  | some key =>
    let k := s.core key
    match k.launch with
    | none => s
    | some adm =>
      if k.exited then s
      else
        match (s.slot? adm).bind (·.bay?) with
        | none => s
        | some b =>
          let t := f key k b
          if (t.core key).launch = some adm then t.setCore key Core.past else t

/-! ### Vector registers -/

/-- `n` bytes of the vector registers from register `v` on. -/
def Core.vread (k : Core) (v n : Nat) : List Byte := slice k.v (128 * v) n

/-- The vector registers with bytes written from register `v` on; what lies past the file is dropped. -/
def Core.vwrite (k : Core) (v : Nat) (bs : List Byte) : Core :=
  { k with v := (k.v.take (128 * v) ++ bs ++ k.v.drop (128 * v + bs.length)).take 4096 }

def Core.xreg (k : Core) (r : Nat) : W64 := if r = 0 then 0 else nth k.x r

/-- FP32 elements of a vector register group. -/
def Core.vf32 (k : Core) (v n : Nat) : List Val := decodeTensor 1 n (k.vread v (4 * n))

def tfmtSrc (k : Core) : Nat := k.tfmt.toNat % 16
def tfmtDst (k : Core) : Nat := k.tfmt.toNat / 16 % 16
def tfmtStoch (k : Core) : Bool := k.tfmt.toNat / 256 % 2 == 1

/-- The grain words of an element index under GSEED and GPOS. -/
def Core.grainAt (k : Core) (i : Nat) : Grain :=
  grain k.gseed (i % 2 ^ 64) (BitVec.ofNat 32 k.gpos.toNat) (BitVec.ofNat 32 (k.gpos.toNat / 2 ^ 32))

def Core.draw (k : Core) : Option (Nat → Nat) := if tfmtStoch k then some (fun i => (k.grainAt i).w0 % 65536) else none

/-- Writes a vector result and ORs its flags into the bay's word (R101). -/
def State.putVec (s : State) (key b vd : Nat) (x : Flagged (List Byte)) : State :=
  (s.setCore key (fun k => k.vwrite vd x.1)).raise b x.2

/-! ### Xtenon instructions (Table 4.4) -/

/-- tidy.cvt: FP32 narrowed to TFMT.DST and packed; the grain's element index is the element's place (log 14). -/
def execTidyCvt (c : CoreRef) (vd vs2 : Nat) (s : State) : Host.Outcome State Fault Refusal :=
  .next (s.onCore c (fun key k b => s.putVec key b vd (packRow false (tfmtDst k) k.draw (k.vf32 vs2 k.vl))))

/-- tidy.wid: elements of TFMT.SRC widened to FP32, exactly; an FP64 or I32 element that FP32 does not hold is narrowed by
R54 (log 69). -/
def execTidyWid (c : CoreRef) (vd vs2 : Nat) (s : State) : Host.Outcome State Fault Refusal :=
  .next (s.onCore c (fun key k b => s.putVec key b vd
    (packRow false 1 none (decodeTensor (tfmtSrc k) k.vl (k.vread vs2 (storedBytes (tfmtSrc k) k.vl))))))

/-- tidy.stat: the greater of vd[i] and |vs2[i]| (R64, R65). -/
def execTidyStat (c : CoreRef) (vd vs2 : Nat) (s : State) : Host.Outcome State Fault Refusal :=
  .next (s.onCore c (fun key k b =>
    let xs := k.vf32 vs2 k.vl
    let old := k.vf32 vd k.vl
    let out := (old.zip xs).map (fun p => toLe 4 (enc32 (maxVal p.1 (absVal p.2))))
    s.putVec key b vd (out.flatten, flagIf (xs.any isNan || old.any isNan) Flag.nanIn)))

/-- tidy.rsc: element i rescaled with channel rs1 + i of the table at TRSC and narrowed to TFMT.DST (R66, R67); a stochastic
draw takes the element's place in the vector (log 14). -/
def execTidyRsc (c : CoreRef) (vd vs2 rs1 : Nat) (s : State) : Host.Outcome State Fault Refusal :=
  .next (s.onCore c (fun key k b =>
    let at_ := k.trsc.toNat + 8 * (k.xreg rs1).toNat
    let s := s.lateReads b [(at_, 8 * k.vl)]
    if s.rangeBad b .rd at_ (8 * k.vl) then s.coreBadRead key b k.pc [(at_, 8 * k.vl)]
    else if !s.rangeOk b .rd at_ (8 * k.vl) then s.coreFault key 5 k.pc
    else
      let table := s.readBay b at_ (8 * k.vl)
      let vs := (k.vf32 vs2 k.vl).zipIdx.map (fun p =>
        rescaled false p.1 (leAt table (8 * p.2) 4) (leAt table (8 * p.2 + 4) 4))
      s.putVec key b vd (packRow false (tfmtDst k) k.draw (vs.map (·.1)))))

/-- Bytes the manual leaves open (log 7). -/
def State.freeBytes (s : State) (n : Nat) : List Byte :=
  (List.range n).map (fun i => (Config.freeValue (s.free + i)).extractLsb' 0 8)

/-- tidy.qblk: each 32 FP32 elements quantised into a block of TFMT.DST (R47). With a TFMT.DST that is no block format
the manual states no bytes: they are free. -/
def execTidyQblk (c : CoreRef) (vd vs2 : Nat) (s : State) : Host.Outcome State Fault Refusal :=
  .next (s.onCore c (fun key k b =>
    if isBlock (tfmtDst k) then s.putVec key b vd (encodeTensor (tfmtDst k) k.draw (k.vf32 vs2 k.vl))
    else
      let n := storedBytes 8 k.vl
      (s.putVec key b vd (s.freeBytes n, 0)).useFree n))

/-- The FP32 scalar in fa0; a value that is not NaN-boxed is the canonical NaN. -/
def Core.fa0 (k : Core) : Val :=
  let v := (nth k.f 10).toNat
  if v / 2 ^ 32 = 2 ^ 32 - 1 then decodeElem FP32 (v % 2 ^ 32) else .nan

/-- tidy.drop: dropped when grain word 1 of element rs1 + i is below THRESH, else multiplied by fa0 (Table 4.8). A dropped
element is +0 (log 69). -/
def execTidyDrop (c : CoreRef) (vd vs2 rs1 : Nat) (s : State) : Host.Outcome State Fault Refusal :=
  .next (s.onCore c (fun key k b =>
    let out := (k.vf32 vs2 k.vl).zipIdx.map (fun p =>
      if (k.grainAt ((k.xreg rs1).toNat + p.2)).w1 < k.tdrop.toNat % 2 ^ 32 then ((Val.fin false 0 0), (0 : W32))
      else fl32 false (mulVal p.1 k.fa0))
    s.putVec key b vd ((out.map (fun x => toLe 4 (enc32 x.1))).flatten, orFlags out)))

/-- The bay addresses in a vector of 64-bit indices. -/
def Core.indices (k : Core) (v : Nat) : List Nat := (List.range k.vl).map (fun i => leAt (k.vread v (8 * k.vl)) (8 * i) 8)

/-- An element access at a bay address: aligned and permitted. -/
def State.elemOk (s : State) (b : Nat) (acc : Acc) (sew a : Nat) : Bool := decide (a % sew = 0) && s.rangeOk b acc a sew

/-- tidy.gth: SEW-wide elements gathered from bay addresses; an address that fails raises a load access fault. -/
def execTidyGth (c : CoreRef) (vd vs2 : Nat) (s : State) : Host.Outcome State Fault Refusal :=
  .next (s.onCore c (fun key k b =>
    let as := k.indices vs2
    let rs := (as.filter (fun a => a % k.sew == 0)).map (fun a => (a, k.sew))
    let s := s.lateReads b rs
    if rs.any (fun r => s.rangeBad b .rd r.1 r.2) then s.coreBadRead key b k.pc rs
    else if as.any (fun a => !s.elemOk b .rd k.sew a) then s.coreFault key 5 k.pc
    else s.putVec key b vd ((as.map (fun a => s.readBay b a k.sew)).flatten, 0)))

/-- tidy.sct: lanes written in ascending index; the lanes before one that fails are written. A lane on a line that a write
must skip is not performed, and the launch ends MACHINE_CHECK (R339). -/
def execTidySct (c : CoreRef) (vs3 vs2 : Nat) (s : State) : Host.Outcome State Fault Refusal :=
  .next (s.onCore c (fun key k b =>
    let as := k.indices vs2
    let good := as.takeWhile (fun a => s.elemOk b .wr k.sew a)
    let t := good.zipIdx.foldl (fun (s : State) p => s.writeBay b p.1 (slice (k.vread vs3 (k.sew * k.vl)) (k.sew * p.2) k.sew)) s
    if good.any (fun a => s.rangeSkips b .wr a k.sew) then t.coreCheck key k.pc
    else if good.length = as.length then t
    else t.coreFault key 7 k.pc))

/-- grain.get: the 128-bit output of element rs1 + i for each i below vl. -/
def execGrainGet (c : CoreRef) (vd rs1 : Nat) (s : State) : Host.Outcome State Fault Refusal :=
  .next (s.onCore c (fun key k b =>
    let out := (List.range k.vl).map (fun i =>
      let g := k.grainAt ((k.xreg rs1).toNat + i)
      toLe 4 g.w0 ++ toLe 4 g.w1 ++ toLe 4 g.w2 ++ toLe 4 g.w3)
    s.putVec key b vd (out.flatten, 0)))

/-- A descriptor is well formed (R108). -/
def dmaOk (d : List Byte) : Bool :=
  decide (1 ≤ leAt d 0x10 4) && decide (leAt d 0x10 4 ≤ 2 ^ 24) && decide (byteAt d 0x14 < 2) && zeroAt d 0x16 10

/-- tidy.dma: the descriptor at local address rs1 queued on channel rs2, which is 0 or 1 on each core (log 69); a malformed
one, or another channel number, raises an illegal-instruction exception (R108). -/
def execTidyDma (c : CoreRef) (rs1 rs2 : Nat) (s : State) : Host.Outcome State Fault Refusal :=
  .next (s.onCore c (fun key k b =>
    let a := (k.xreg rs1).toNat
    let chan := (k.xreg rs2).toNat
    let d := s.readLoc (localLoc key a) 32
    if s.poisoned (localLoc key a) 32 ∧ a + 32 ≤ 2 ^ 18 then s.coreCheck key k.pc
    else if a % 32 ≠ 0 ∨ a + 32 > 2 ^ 18 ∨ chan > 1 ∨ !dmaOk d then s.coreFault key 2 k.pc
    else
      let e : Dma := ⟨b, k.launch.getD 0, leAt d 0 8, leAt d 8 8, leAt d 0x10 4, byteAt d 0x14 == 1, byteAt d 0x15⟩
      s.setCore key (fun k => if chan = 0 then { k with dma0 := k.dma0 ++ [e] } else { k with dma1 := k.dma1 ++ [e] })))

/-- A code that Table 2.1 reserves. -/
def reservedFmt (f : Nat) : Bool := decide (f > 0xC)

/-- A write of an Xtenon control register (Table 4.5): a reserved format code or a misaligned BASE leaves it unchanged
and raises an illegal-instruction exception; reserved bits are ignored. -/
def execXtenonCsrWrite (c : CoreRef) (csr : Nat) (value : W64) (s : State) : Host.Outcome State Fault Refusal :=
  .next (s.onCore c (fun key k _ =>
    let v := value.toNat
    match csr with
    | 0x800 =>
      if reservedFmt (v % 16) || reservedFmt (v / 16 % 16) then s.coreFault key 2 k.pc
      else s.setCore key (fun k => { k with tfmt := BitVec.ofNat 64 (v % 512) })
    | 0x801 => s.setCore key (fun k => { k with gseed := value })
    | 0x802 => s.setCore key (fun k => { k with gpos := value })
    | 0x803 =>
      if v % 64 ≠ 0 then s.coreFault key 2 k.pc
      else s.setCore key (fun k => { k with trsc := BitVec.ofNat 64 (v % 2 ^ 48) })
    | 0x804 => s.setCore key (fun k => { k with tdrop := BitVec.ofNat 64 (v % 2 ^ 32) })
    | _ => s.coreFault key 2 k.pc))

/-! ### The standard control registers (R50, R98) -/

/-- The rounding-mode field of a core (R50): 0 to 3 as MATMUL's field, 4 nearest with ties to the greater magnitude. -/
def Core.frm (k : Core) : Nat := k.fcsr.toNat / 32

/-- What a control register of a core reads (Tables 4.2 and 4.5, log 15): fflags, frm, fcsr, vstart, vxsat, vxrm, vcsr,
cycle, time, instret, vl, vtype, vlenb and the Xtenon registers. -/
def State.coreCsr (s : State) (key csr : Nat) : Option Nat :=
  let k := s.core key
  match csr with
  | 0x001 => some (k.fcsr.toNat % 32)
  | 0x002 => some k.frm
  | 0x003 => some k.fcsr.toNat
  | 0x008 => some k.vstart.toNat
  | 0x009 => some (k.vcsr.toNat % 2)
  | 0x00A => some (k.vcsr.toNat / 2)
  | 0x00F => some k.vcsr.toNat
  | 0xC00 => some (coreCycles s.clock.uptime % 2 ^ 64)
  | 0xC01 => some s.clock.site
  | 0xC02 => some k.instret.toNat
  | 0xC20 => some k.vl
  | 0xC21 => some (k.vtype.toNat + Nat.log2 k.sew * 8)
  | 0xC22 => some 128
  | 0x800 => some k.tfmt.toNat
  | 0x801 => some k.gseed.toNat
  | 0x802 => some k.gpos.toNat
  | 0x803 => some k.trsc.toNat
  | 0x804 => some k.tdrop.toNat
  | _ => none

/-- A core's privilege mode (R98, R99): a kernel runs in U mode; a core without one is in its GCRT, in M mode. -/
def Core.machineMode (k : Core) : Bool := k.launch.isNone

/-! ### How a launch ends -/

/-- Core cycles since a command's operation began. -/
def State.cyclesSince (s : State) (adm : Nat) : Nat := match s.slot? adm with
  | some c => coreCycles (s.clock.uptime - c.started)
  | none => 0

/-- KERNEL_ECALL_EXIT: ecall with a7 = 0 finishes the core; the launch completes when every selected core has finished
(R104, Table 4.7). An ecall with another a7 is an exception with cause 8. -/
def execKernelEcallExit (c : CoreRef) (s : State) : Host.Outcome State Fault Refusal :=
  .next (s.onCore c (fun key k _ =>
    if k.xreg 17 ≠ 0 then s.coreFault key 8 k.pc
    else
      let adm := k.launch.getD 0
      let s := s.setCore key (fun k => { k with exited := true })
      if (s.coresOf adm).all (fun q => (s.core q).exited) then
        let n := s.cyclesSince adm % 2 ^ 40
        let s := { s with cores := s.cores.map (fun (p : Nat × Core) =>
          if p.2.launch = some adm then (p.1, { p.2 with launch := none }) else p) }
        s.finishNat adm .ok n
      else s))

/-- CORE_EXCEPTION: any other exception of a core, with its cause and pc (R106). -/
def execCoreException (c : CoreRef) (cause : Nat) (pc : W64) (s : State) : Host.Outcome State Fault Refusal :=
  .next (s.onCore c (fun key _ _ => s.coreFault key cause pc))

/-- CYCLE_LIMIT: the launch's limit has passed and it completes TIMEOUT; the fields name its lowest running core
(Table 4.7). -/
def execCycleLimit (adm : Nat) (s : State) : Host.Outcome State Fault Refusal :=
  .next (match s.slot? adm with
  | none => s
  | some c =>
    match c.instr with
    | .kernelLaunch _ k =>
      if c.phase == Phase.active && decide (0 < k.cycleLimit) && decide (k.cycleLimit ≤ s.cyclesSince adm) &&
          !(s.runningCores c).isEmpty then
        let e := s.stopFields c (some 0xFFFF)
        e.1.finishNat adm .timeout e.2
      else s
    | _ => s)

/-! ### DMA (R99, R108) -/

/-- An access of a core or of its channel is permitted (Table 4.3): local memory below the configuration block, which only
reads reach; the own cluster's SRAM; bay addresses. The GCRT store is M mode's. -/
def State.coreRangeOk (s : State) (b : Nat) (acc : Acc) (a n : Nat) : Bool :=
  if a + n ≤ 2 ^ 18 then acc == .rd || decide (a + n ≤ 0x3FF80)
  else if 0x10000000 ≤ a ∧ a + n ≤ 0x12000000 then true
  else if 2 ^ 48 ≤ a ∧ a + n ≤ 2 ^ 49 then s.rangeOk b acc (a - 2 ^ 48) n
  else false

/-- The place of a core address in local memory or the own cluster's SRAM. -/
def coreLoc (key a : Nat) : Loc :=
  if a < 2 ^ 18 then localLoc key a else ⟨.sram, key / 10 * 2 ^ 25 + (a - 0x10000000)⟩

def State.coreRead (s : State) (b key a n : Nat) : List Byte :=
  if a < 2 ^ 48 then s.readLoc (coreLoc key a) n else s.readBay b (a - 2 ^ 48) n

def State.coreWrite (s : State) (b key a : Nat) (bs : List Byte) : State :=
  if a < 2 ^ 48 then s.writeLoc (coreLoc key a) bs else s.writeBay b (a - 2 ^ 48) bs

/-- A permitted read of a core or its channel meets an unreadable line (R97, R339). -/
def State.coreBad (s : State) (b key a n : Nat) : Bool :=
  if a < 2 ^ 48 then s.poisoned (coreLoc key a) n else s.rangeBad b .rd (a - 2 ^ 48) n

/-- A permitted write meets a line that it must skip (R339). -/
def State.coreSkips (s : State) (b key a n : Nat) : Bool :=
  if a < 2 ^ 48 then !(s.skipped (coreLoc key a) n).isEmpty else s.rangeSkips b .wr (a - 2 ^ 48) n

/-- The queue of a channel. -/
def Core.channel (k : Core) (chan : Nat) : List Dma := if chan = 0 then k.dma0 else k.dma1

def Core.setChannel (k : Core) (chan : Nat) (q : List Dma) : Core :=
  if chan = 0 then { k with dma0 := q } else { k with dma1 := q }

/-- A descriptor runs to its end: its bytes move, then its counter is incremented. An inaccessible address, or a line that
cannot be read or must be skipped, fails the launch that queued it, if it still runs (R97, R106, R108). -/
def State.runDma (s : State) (key : Nat) (d : Dma) : State :=
  let pc := (s.core key).pc
  if !s.coreRangeOk d.bay .rd d.src d.len then s.failLaunch d.adm key .accessDenied 5 pc
  else if !s.coreRangeOk d.bay .wr d.dst d.len then s.failLaunch d.adm key .accessDenied 7 pc
  else if s.coreBad d.bay key d.src d.len then
    let s := if 2 ^ 48 ≤ d.src then s.logBadReads d.bay .rd (s.tagOf (some d.adm)) [(d.src - 2 ^ 48, d.len)] else s
    (s.useFree 1).failLaunch d.adm key .machineCheck s.freeNow.toNat pc
  else
    let s := if 2 ^ 48 ≤ d.src then s.lateReads d.bay [(d.src - 2 ^ 48, d.len)] else s
    let t := s.coreWrite d.bay key d.dst (s.coreRead d.bay key d.src d.len)
    let t := if d.count then t.bump d.bay d.ctr 1 false else t
    if s.coreSkips d.bay key d.dst d.len then (t.useFree 1).failLaunch d.adm key .machineCheck s.freeNow.toNat pc else t

/-- DMA_DESCRIPTOR_DONE: the descriptor at the head of a channel has run (R108). -/
def execDmaDescriptorDone (c : CoreRef) (chan : Nat) (s : State) : Host.Outcome State Fault Refusal :=
  .next (match s.coreKey c with
  | none => s
  | some key =>
    match (s.core key).channel chan with
    | [] => s
    | d :: rest => (s.setCore key (fun k => k.setChannel chan rest)).runDma key d)

/-- A descriptor stopped on its way: each line that it writes is old or new (R195, R212, R219). -/
def State.partDma (s : State) (key : Nat) (d : Dma) : State :=
  if s.coreRangeOk d.bay .rd d.src d.len && s.coreRangeOk d.bay .wr d.dst d.len && !s.coreBad d.bay key d.src d.len then
    s.mixed (s.coreWrite d.bay key d.dst (s.coreRead d.bay key d.src d.len))
  else s

/-- The channels of a core stop: the current descriptor of each on its way, those of the bays that `f` names discarded. -/
def State.cutChannels (s : State) (key : Nat) (f : Nat → Bool) : State :=
  [0, 1].foldl (fun (s : State) chan =>
    match (s.core key).channel chan with
    | [] => s
    | d :: rest =>
      let s := if f d.bay then s.partDma key d else s
      s.setCore key (fun k => k.setChannel chan ((d :: rest).filter (fun d => !f d.bay)))) s

/-- The descriptors that wait behind the current one of each channel of a core are discarded (R107). -/
def State.dropQueued (s : State) (key : Nat) : State :=
  s.setCore key (fun k => { k with dma0 := k.dma0.take 1, dma1 := k.dma1.take 1 })

end Sys2Proof.Machine
end

