-- ==== Sys2Proof/Machine/Regions.lean ====
section
/-!
DEFINITION. The shard map's division of tensors and its state regions (R222 to R224), the kerf layout over them (R319,
R320), and the granules and pages that the Scarf engine and an undrained cut hold (R139, R141).
-/
namespace Sys2Proof.Machine

/-- Units of a division among n members: first unit and count of member m (R223). -/
def divide (total n m : Nat) : Nat × Nat :=
  (m * (total / n) + min m (total % n), total / n + (if m < total % n then 1 else 0))

/-- First row and count of rows that a member holds of a tensor (R223). -/
def TensorRec.rowsOf (t : TensorRec) (n m : Nat) : Nat × Nat :=
  if t.kind = 0 then divide t.rows n m
  else
    let u := divide t.units n m
    let per := t.rows / t.units
    (u.1 * per, u.2 * per)

/-- The member that holds a row. -/
def TensorRec.ownerOf (t : TensorRec) (n row : Nat) : Nat :=
  ((List.range n).find? (fun m => let r := t.rowsOf n m; decide (r.1 ≤ row) && decide (row < r.1 + r.2))).getD 0

/-- Elements that this member holds of a tensor. -/
def ShardMap.elems (p : ShardMap) (t : TensorRec) : Nat := (t.rowsOf p.members p.thisMember).2 * t.rowLen

/-- State blocks of a shard (R224). -/
def blocksOf (elems : Nat) : Nat := ceilDiv elems 16384

/-- Stored bytes of a moment of `e` elements (R224). -/
def momentBytes (mfmt e : Nat) : Nat := storedBytes mfmt e

/-- The classes of state regions: 0 master, 1 first moment, 2 second moment, 3 reduced gradient, 4 base, 5 outer
momentum. A tensor's regions as (class, address, bytes); a region with address 0 is absent. -/
def tensorRegions (p : ShardMap) (t : TensorRec) : List (Nat × Nat × Nat) :=
  let e := p.elems t
  if e = 0 then []
  else
    [(0, t.master, 4 * e), (1, t.m1, momentBytes t.mfmt e), (2, t.m2, momentBytes t.mfmt e),
      (3, t.rgrad, storedBytes t.gfmt e), (4, t.base, 4 * e), (5, t.omom, 2 * e)].filter (fun r => r.2.1 != 0)

/-- Every state region of a map, in map order (R177). -/
def ShardMap.regions (p : ShardMap) : List (Nat × Nat × Nat) := (p.tensors.map (tensorRegions p)).flatten

/-- The map's tensor with an id. -/
def ShardMap.tensor? (p : ShardMap) (id : W32) : Option TensorRec := p.tensors.find? (·.id == id)

/-- Global state-block numbers: the first block of the tensor at an index of the map. -/
def ShardMap.firstBlock (p : ShardMap) (i : Nat) : Nat := ((p.tensors.take i).map (fun t => blocksOf (p.elems t))).sum

def ShardMap.blockCount (p : ShardMap) : Nat := p.firstBlock p.tensors.length

/-- The tensor index and the block in it of a state block of the shard. -/
def ShardMap.locate (p : ShardMap) (g : Nat) : Option (Nat × Nat) :=
  ((List.range p.tensors.length).find? (fun i => decide (g < p.firstBlock (i + 1)))).map (fun i => (i, g - p.firstBlock i))

/-- Whether two byte ranges meet. -/
def meets (a n b m : Nat) : Bool := decide (0 < n) && decide (0 < m) && decide (a < b + m) && decide (b < a + n)

/-- A list of ranges holds two that meet. -/
def anyMeet : List (Nat × Nat) → Bool
  | [] => false
  | r :: rs => rs.any (fun q => meets r.1 r.2 q.1 q.2) || anyMeet rs

/-! ### The kerf layout (R319, R320) -/

/-- The kerf address of each class that a cut copies: master, moments, outer momentum. -/
def kerfAddr (b : CutBlk) : Nat → Nat
  | 0 => b.kerfMaster | 1 => b.kerfM1 | 2 => b.kerfM2 | 5 => b.kerfOmom | _ => 0

/-- The copies of a class: each tensor's region, the first one too, at the next 64-byte boundary. (kerf address, region
address, bytes, tensor index). -/
def kerfClass (p : ShardMap) (addr cls : Nat) : List (Nat × Nat × Nat × Nat) :=
  (p.tensors.zipIdx.foldl (fun (acc : Nat × List (Nat × Nat × Nat × Nat)) t =>
    match (tensorRegions p t.1).find? (fun r => r.1 == cls) with
    | some r => (alignUp (acc.1 + r.2.2) 64, acc.2 ++ [(acc.1, r.2.1, r.2.2, t.2)])
    | none => acc) (alignUp addr 64, [])).2

/-- Every copy of a layout: (class, kerf address, region address, bytes, tensor index). -/
def kerfCopies (p : ShardMap) (b : CutBlk) : List (Nat × Nat × Nat × Nat × Nat) :=
  ([0, 1, 2, 5].map (fun cls => (kerfClass p (kerfAddr b cls) cls).map (fun k => (cls, k)))).flatten

/-- A field is zero exactly when no tensor has a region of that class (R319). -/
def layoutFits (p : ShardMap) (b : CutBlk) : Bool :=
  [0, 1, 2, 5].all (fun cls => (kerfAddr b cls == 0) == !(p.regions.any (fun r => r.1 == cls)))

/-- The kerf area of a layout is large enough: every copy lies in KERF pages (R320). -/
def State.kerfLarge (s : State) (b : Nat) (l : CutBlk) : Bool :=
  match (s.bay b).train.map with
  | none => false
  | some p => layoutFits p l && (kerfCopies p l).all (fun k => s.rangeOk b .kerf k.2.1 k.2.2.2.1)

/-- The undrained cut of a bay. -/
def Bay.undrained (y : Bay) : Option Cut := match y.ckpt.cut with
  | some c => if c.st = .drained then none else some c
  | none => none

/-- A cut is being copied: updates, closes and catch-ups wait, an arm accepts no segment, and shard-aligned reductions
wait (R322). -/
def Bay.copying (y : Bay) : Bool := match y.ckpt.cut with
  | some c => c.st == .copying
  | none => false

/-- A KERF page in use by an undrained cut. -/
def Bay.kerfPageHeld (y : Bay) (p : Page) : Bool :=
  p.kerf && (match y.undrained, y.train.map with
    | some c, some m => (kerfCopies m c.layout).any (fun k => meets p.addr p.size k.2.1 k.2.2.2.1)
    | some _, none => true
    | none, _ => false)

/-! ### Areas of a join (R138, R139, R275) -/

/-- Granules that hold the retransmit and receive areas. -/
def Bay.areas (y : Bay) : List Nat := match y.join with
  | some j => j.rtxGranules ++ j.recvGranules
  | none => []

/-- A page touches the landing store. -/
def Bay.pageInLanding (y : Bay) (addr size : Nat) : Bool := match y.join with
  | some j => meets addr size j.blk.landAddr j.blk.landLen
  | none => false

/-- Granules that a page maps into. -/
def Page.granule (p : Page) : Nat := p.dpa / gib

end Sys2Proof.Machine
end

