-- ==== Sys2Proof/Machine/Tick.lean ====
section
/-!
DEFINITION. What passes with time alone: one cycle of the time domain (R393, log 3).
-/
namespace Sys2Proof.Machine

/-- The site-time counter runs at 1 ns per time cycle at the trimmed rate and never decreases (R393): `frac` gathers
the trim, in parts per 10^9, until it makes a whole ns more or less. -/
def Clock.tick (c : Clock) : Clock :=
  let f := c.frac + c.trim
  if 1000000000 ≤ f then
    { c with uptime := c.uptime + 1, site := (c.site + 2) % 2 ^ 64, frac := f - 1000000000 }
  else if f ≤ -1000000000 then { c with uptime := c.uptime + 1, frac := f + 1000000000 }
  else { c with uptime := c.uptime + 1, site := (c.site + 1) % 2 ^ 64, frac := f }

/-- Without power nothing counts; otherwise one time cycle passes. -/
def tick (s : State) : State :=
  if s.dev.hold = 1 then s else { s with clock := s.clock.tick }

end Sys2Proof.Machine
end

