-- ==== Sys2Proof/Machine/Diagnostics.lean ====
section
/-!
DEFINITION. The diagnostic commands: TELEMETRY_READ (R434 to R438), SEASON_REPORT (R348), FLOORPLAN_READ (R113) and
LINK_TEST (R193).
-/
namespace Sys2Proof.Machine

/-! ### TELEMETRY_READ -/

/-- The 32-byte header of a window (R435). -/
def windowHeader (w count now since : Nat) : List Byte :=
  toLe 1 w ++ toLe 1 1 ++ toLe 2 count ++ zeros 4 ++ toLe 8 now ++ toLe 8 since ++ zeros 8

/-- The lateness counts of a group and member (R437). -/
def Bay.lateness (y : Bay) (g m : Nat) : Nat × Nat := match y.groups.find? (·.id == g) with
  | some x => nth x.late m
  | none => (0, 0)

/-- The content of a bay window after its header: entries and bytes (R436, R437). -/
def State.bayWindow (s : State) (b kind : Nat) : Nat × List Byte :=
  if kind = 0 then (20, ((s.bay b).tele.map (toLe 8)).flatten)
  else (4096, ((List.range 4096).map (fun i =>
    let x := (s.bay b).lateness (i / 64) (i % 64)
    toLe 8 x.1 ++ toLe 8 x.2)).flatten)

/-- A fabric port's entry (R438, KIND 1). -/
def Port.entry (p : Port) : List Byte :=
  padTo 64 (toLe 1 p.state ++ toLe 1 (p.spared.getD 0xFF) ++ zeros 6 ++ toLe 8 p.txFlits ++ toLe 8 p.rxFlits ++
    toLe 8 p.replayCount ++ toLe 8 p.corrSymbols ++ toLe 8 p.uncorrCw ++ toLe 8 p.relayed)

/-- A far port's entry (R438, KIND 2). -/
def FarPort.entry (p : FarPort) : List Byte :=
  padTo 64 (toLe 1 p.state ++ zeros 7 ++ toLe 8 p.txFrames ++ toLe 8 p.rxFrames ++ toLe 8 p.corrSymbols ++
    toLe 8 p.uncorrCw)

/-- The power and thermal window's content (R438, KIND 3). -/
def State.powerWindow (s : State) : List Byte :=
  toLe 4 s.vin ++ toLe 4 s.iin ++ toLe 4 s.pout ++ (s.dies.map (fun d => toLe 1 d.level)).flatten ++ zeros 1 ++
    (s.sensors.map (toLe 2)).flatten ++ (s.clusters.map (fun c => toLe 1 c.offsetMv)).flatten

/-- The content of a device window after its header. The manual gives no COUNT for KIND 3: it is free (log 7). -/
def State.devWindow (s : State) (kind : Nat) : Nat × List Byte := match kind with
  | 0 => (6, (s.devTele.map (toLe 8)).flatten)
  | 1 => (12, (s.ports.map Port.entry).flatten)
  | 2 => (2, (s.far.map FarPort.entry).flatten)
  | _ => (s.freeNow.toNat % 2 ^ 16, s.powerWindow)

/-- The whole window with its header. -/
def State.window (s : State) (w : Nat) : List Byte :=
  let kind := w / 16 % 8
  if w < 128 then
    let x := s.bayWindow (w % 16) kind
    windowHeader w x.1 s.now (s.bay (w % 16)).since ++ x.2
  else
    let x := s.devWindow kind
    windowHeader w x.1 s.now s.devSince ++ x.2

/-- The checks of R434. -/
def telemetryCheck (h : Hdr) (w : Nat) : Option Status :=
  let own := match h.org with
    | .bay b _ => decide (w < 128) && decide (w % 16 = b)
    | _ => true
  if !own then some .accessDenied
  else if (w < 128 ∧ 2 ≤ w / 16) ∨ (128 ≤ w ∧ (4 ≤ w / 16 % 8 ∨ w % 16 ≠ 0)) then some .badParam
  else none

/-- The next instant of site time: a snapshot is taken after a cycle in which the counter advanced, so the events counted so
far are stamped before SNAPSHOT and those to come are not (R16, R435). -/
def State.nextInstant (s : State) : State :=
  let t := tick s
  if t.now = s.now then tick t else t

def State.telemetryEff (h : Hdr) (w dst length : Nat) (s : State) : Eff :=
  match telemetryCheck h w with
  | some st => (s, st, 0)
  | none =>
    let s := s.nextInstant
    let out := (s.window w).take length
    let s := if 176 ≤ w then s.useFree 1 else s
    s.putOut h.org dst out out.length

/-- TELEMETRY_READ (Table 7.12). -/
def execTelemetryRead (h : Hdr) (window dst length : Nat) (s : State) : Host.Outcome State Fault Refusal :=
  .next (s.onRunning (.telemetryRead h window dst length) (fun _ =>
    s.complete h.adm (State.telemetryEff h window dst length)))

/-! ### SEASON_REPORT (R346 to R348) -/

/-- The die of a unit of a seasoning record. -/
def seasonDie (kind unit : Nat) : Nat := match kind with
  | 2 => unit / 17
  | 8 => unit / 32 / 6
  | 10 => unit / 4
  | _ => 2

/-- No history yet: fewer than 72 hours of samples (R346). -/
def Season.noHistory (x : Season) : Bool := decide (x.tenths < 432)

/-- Corrected events of the last 6 intervals, and the mean per 6 intervals over the 30 before them; without history the
factory burn-in rates stand for those 30 (R343, R346). -/
def State.trend (s : State) (i : Nat) : Nat × Nat :=
  let r := nth s.season.recs i
  ((r.corr.take 6).sum, if s.season.noHistory then nth s.factory.burnIn i / 5 else ((r.corr.drop 6).take 30).sum / 5)

/-- The STATE byte of a record (Table 14.7). -/
def State.seasonState (s : State) (r : SeasonRec) : Nat :=
  let c := nth s.clusters r.unit
  let cl := decide (r.kind = 2)
  let lc := s.lmap.findIdx (· == some r.unit)
  bit r.warned 0 + bit (cl && c.atCeiling) 1 + bit s.season.noHistory 2 + bit (cl && c.retiring) 3 +
    bit (cl && s.lrisk.contains lc) 4 + bit (cl && s.lfailed.contains lc) 5 + bit (cl && c.retired) 6

/-- A record of Table 14.7. -/
def State.seasonRec (s : State) (i : Nat) : List Byte :=
  let r := nth s.season.recs i
  let t := s.trend i
  toLe 1 r.kind ++ toLe 1 (seasonDie r.kind r.unit) ++ toLe 2 r.unit ++ toLe 4 r.samples ++ toLe 2 r.margin ++
    toLe 2 r.required ++ toLe 1 (if r.kind = 2 then (nth s.clusters r.unit).offsetMv else 0) ++
    toLe 1 (s.seasonState r) ++ zeros 2 ++ toLe 4 t.1 ++ toLe 4 t.2 ++ toLe 4 r.uncorr ++ toLe 4 (s.season.tenths / 6)

def State.seasonBytes (s : State) : List Byte := ((List.range s.season.recs.length).map s.seasonRec).flatten

/-- SEASON_REPORT (Table 7.12). -/
def execSeasonReport (h : Hdr) (dst length : Nat) (s : State) : Host.Outcome State Fault Refusal :=
  .next (s.onRunning (.seasonReport h dst length) (fun _ =>
    s.complete h.adm (fun s => let out := s.seasonBytes.take length; s.putOut h.org dst out out.length)))

/-! ### FLOORPLAN_READ -/

/-- The in-service banks of a cluster: its 64 lowest-numbered good banks (R95). -/
def Cluster.bankMap (c : Cluster) : Nat := (((bitsSet c.goodBanks).take 64).map (fun p => 2 ^ p)).sum

/-- A record of Table 4.9. A FAILED cluster without a physical one has the die of its logical number (R29) and no good core
or bank: its other fields are zero (log 69). -/
def State.floorRec (s : State) (lc : Nat) : List Byte := match s.phys lc with
  | some p =>
    let c := nth s.clusters p
    padTo 32 (toLe 1 lc ++ toLe 1 (p / 17) ++ toLe 2 (c.goodCores &&& ~~~c.retiredCores).toNat ++
      toLe 2 c.retiredCores.toNat ++ zeros 2 ++ toLe 16 c.bankMap)
  | none => padTo 32 (toLe 1 lc ++ toLe 1 (lc / (s.lclusters / 2)))

def State.floorplanEff (h : Hdr) (b dst length : Nat) (s : State) : Eff :=
  let ls := bitsSet (s.bay b).bind.clusters
  let out := (ls.take (length / 32)).map s.floorRec
  s.putOut h.org dst out.flatten (out.length + 256 * ls.length)

/-- FLOORPLAN_READ (Table 7.12). -/
def execFloorplanRead (h : Hdr) (dst length : Nat) (s : State) : Host.Outcome State Fault Refusal :=
  .next (s.onRunning (.floorplanRead h dst length) (fun c =>
    match c.bay? with
    | some b => s.complete h.adm (State.floorplanEff h b dst length)
    | none => s))

/-! ### LINK_TEST -/

/-- Traffic of a bay uses the port: packets of the fabric port are held or unacknowledged, or a bay joined with the far
port (log 24). -/
def State.portInUse (s : State) (port : Nat) : Bool :=
  if port < 16 then
    let p := nth s.ports port
    !(p.replay.isEmpty && p.await.isEmpty && p.rx.isEmpty && p.txq.isEmpty)
  else s.bays.any (fun y => match y.join with
    | some j => j.blk.farPorts / 2 ^ (port - 16) % 2 == 1
    | none => false)

/-- LINK_TEST: the bit errors and the worst lane are what the lanes show: free, the lane within the port's lanes. -/
def State.linkTestEff (port : Nat) (s : State) : Eff :=
  if s.portInUse port then (s, .conflict, 0)
  else
    let v := s.freeNow.toNat
    (s.useFree 1, .ok, v % 2 ^ 32 + v / 2 ^ 32 % (if port < 16 then 17 else 8) * 2 ^ 32)

/-- LINK_TEST (Table 7.12). -/
def execLinkTest (h : Hdr) (port pattern durationMs : Nat) (s : State) : Host.Outcome State Fault Refusal :=
  .next (s.onRunning (.linkTest h port pattern durationMs) (fun _ => s.complete h.adm (State.linkTestEff port)))

end Sys2Proof.Machine
end

