-- ==== Sys2Proof/Machine/Crc.lean ====
section
/-!
DEFINITION. The cyclic redundancy checks: CRC-32 (R252, R280; the Ethernet one, log 12), CRC-64/XZ (R303) and
CRC-16/CCITT-FALSE (Table 16.4).
-/
namespace Sys2Proof.Machine

/-- `n` shifts of a reflected register with the reflected polynomial. -/
def crcShiftR (poly : Nat) : Nat → Nat → Nat
  | 0, r => r
  | n + 1, r => crcShiftR poly n (if r % 2 = 1 then Nat.xor (r / 2) poly else r / 2)

/-- A reflected CRC over bytes, from a register value. -/
def crcReflected (poly : Nat) (r : Nat) (bs : List Byte) : Nat :=
  bs.foldl (fun r b => crcShiftR poly 8 (Nat.xor r b.toNat)) r

/-- The Ethernet CRC-32 of bytes (R280). -/
def crc32 (bs : List Byte) : Nat := Nat.xor (crcReflected 0xEDB88320 0xFFFFFFFF bs) 0xFFFFFFFF

/-- CRC-64/XZ of bytes (R303). -/
def crc64 (bs : List Byte) : Nat :=
  Nat.xor (crcReflected 0xC96C5795D7870F42 0xFFFFFFFFFFFFFFFF bs) 0xFFFFFFFFFFFFFFFF

/-- `n` shifts of a 16-bit register, most significant bit first. -/
def crcShiftL (poly : Nat) : Nat → Nat → Nat
  | 0, r => r
  | n + 1, r =>
    crcShiftL poly n (if r / 32768 % 2 = 1 then Nat.xor (r * 2 % 65536) poly else r * 2 % 65536)

/-- CRC-16/CCITT-FALSE of bytes (Table 16.4). -/
def crc16 (bs : List Byte) : Nat :=
  bs.foldl (fun r b => crcShiftL 0x1021 8 (Nat.xor r (b.toNat * 256))) 0xFFFF

end Sys2Proof.Machine
end

