-- ==== Sys2Proof/Machine/Link.lean ====
section
/-!
DEFINITION. The site fabric's link layer (R249 to R260): packets and flits as bytes, routes, credits, replay, stomping,
lanes and port states, and the rows FLIT_RECEIVE, REPLAY_REQUEST, STOMP_FLIT and PACKET_RELAY.
-/
namespace Sys2Proof.Machine

def State.setPort (s : State) (p : Nat) (f : Port → Port) : State := { s with ports := updNth s.ports p f }

def State.port (s : State) (p : Nat) : Port := nth s.ports p

/-- A port that carries traffic: UP or DEGRADED (R250). -/
def Port.usable (p : Port) : Bool := p.state == 3 || p.state == 4

/-- A port enters a state: the PORT cause and a PORT_STATE record (R250, R425, Table 14.10). -/
def State.setPortState (s : State) (p st : Nat) : State :=
  if (s.port p).state = st then s
  else
    let s := s.setPort p (fun x => { x with state := st })
    (s.devCause 4).log1 { Rec.blank with code := 0x0141, cls := 1, kind := 9, die := p / 6, unit := p, d0 := st }

/-! ### Packets as bytes (Table 10.3) -/

/-- Slots of a packet: its header and payload in 64-byte slots. -/
def packetSlots (p : Packet) : Nat := ceilDiv (16 + p.data.length) 64

/-- The header in network order, then the payload, filled to whole slots. -/
def packetBytes (p : Packet) : List Byte :=
  let n := packetSlots p
  let h := p.dnode * 2 ^ 116 + p.snode * 2 ^ 104 + p.vc * 2 ^ 101 + p.typ * 2 ^ 96 + (p.bay * 64 + p.group) * 2 ^ 80 +
    n * 2 ^ 74 + p.hops * 2 ^ 70 + p.offset * 2 ^ 16 + p.tag
  padTo (64 * n) (toBe 16 h ++ p.data)

/-- A packet from its slots; the header counts slots only, so the payload is every byte after it, up to 2,048 (log 25).
CTX holds the bay and the group. -/
def packetOf (bs : List Byte) : Packet :=
  let h := beNat (bs.take 16)
  let ctx := bitsOf h 95 80
  { dnode := bitsOf h 127 116, snode := bitsOf h 115 104, vc := bitsOf h 103 101, typ := bitsOf h 100 96,
    bay := ctx / 64 % 16, group := ctx % 64, hops := bitsOf h 73 70, offset := bitsOf h 63 16, tag := bitsOf h 15 0,
    data := slice bs 16 2048 }

/-- LEN of the packet that begins these slots. -/
def packetLen (bs : List Byte) : Nat := bitsOf (beNat (bs.take 16)) 79 74

/-- Whole packets at the head of a slot sequence, and the slots of one that is not complete. LEN 0 ends the sequence. -/
def splitPackets : Nat → List Byte → List Packet × List Byte
  | 0, bs => ([], bs)
  | f + 1, bs =>
    let n := packetLen bs
    if bs.isEmpty || n == 0 || decide (33 < n) then ([], [])
    else if bs.length < 64 * n then ([], bs)
    else
      let r := splitPackets f (bs.drop (64 * n))
      (packetOf (bs.take (64 * n)) :: r.1, r.2)

/-! ### Flits (Tables 10.1 and 10.2) -/

/-- The CRC over the header's bits [79:32] and the payload (R252, log 12). -/
def flitCrc (f : Flit) : Nat :=
  crc32 (toBe 6 (f.kind * 2 ^ 44 + f.fseq * 2 ^ 32 + f.ackseq * 2 ^ 20 + f.crvc * 2 ^ 17 + f.crcount * 2 ^ 8) ++ f.payload)

/-- A flit is intact when every codeword decodes and its CRC matches (R255). -/
def flitIntact (f : Flit) : Bool := f.decodes && f.crc.toNat == flitCrc f

/-- A flit of a kind that a port sends now: it acknowledges, and returns up to 511 credits of the lowest channel that has
credits waiting (R252, R254). -/
def Port.makeFlit (x : Port) (kind : Nat) (payload : List Byte) : Flit :=
  let vc := (x.owed.findIdx (0 < ·)) % 8
  let f : Flit := ⟨true, 0, kind, if kind = 0 ∨ kind = 4 then x.txFseq else 0, x.rxLast, vc, min 511 (nth x.owed vc), 0,
    padTo 2560 payload⟩
  { f with crc := BitVec.ofNat 32 (flitCrc f) }

/-- A port sends a flit; data and stomp flits take the next FSEQ and stay in the replay buffer (R255). -/
def State.sendFlit (s : State) (p kind : Nat) (payload : List Byte) : State :=
  let f := (s.port p).makeFlit kind payload
  let s := s.setPort p (fun x => { x with
    owed := updNth x.owed f.crvc (fun n => n - f.crcount)
    acked := x.rxLast
    txFlits := x.txFlits + 1
    txFseq := if kind = 0 ∨ kind = 4 then (x.txFseq + 1) % 4096 else x.txFseq
    replay := if kind = 0 ∨ kind = 4 then x.replay ++ [f] else x.replay })
  s.emit (.flit p f)

/-! ### Arbitration on a port (R203, R256) -/

/-- The weight of a bay on a virtual channel (Table 8.1). -/
def State.vcWeight (s : State) (b v : Nat) : Nat := max 1 (nth (s.bay b).bind.weights v)

/-- The packet that a virtual channel sends next, and its turn after it: relayed and local packets alternate while both
wait, and the local ones go by bay, each bay its weight in packets before the next one (R203, R256). -/
def State.pickPacket (s : State) (x : Port) (v : Nat) : Option (Queued × (Nat × Nat × Bool)) :=
  let t := nth x.bayTurn v
  let mine := x.txq.filter (fun k => k.pkt.vc == v)
  let own := mine.filter (fun k => !k.relayed)
  match mine.find? (·.relayed), own.isEmpty || !t.2.2 with
  | some k, true => some (k, t.1, t.2.1, true)
  | _, _ =>
    let of := fun (b : Nat) => own.find? (fun k => k.pkt.bay == b)
    match (if 0 < t.2.1 then of t.1 else none) with
    | some k => some (k, t.1, t.2.1 - 1, false)
    | none =>
      match ((List.range 16).map (fun i => (t.1 + 1 + i) % 16)).find? (fun b => (of b).isSome) with
      | some b => (of b).map (fun k => (k, b, s.vcWeight b v - 1, false))
      | none => none

/-- A packet of this size keeps VC0 within 64 and VC1 within 256 of the present 1,024 data flit slots (R256). -/
def Port.within (x : Port) (v n : Nat) : Bool := match v with
  | 0 => decide (x.window.2.1 + n ≤ 64)
  | 1 => decide (x.window.2.2 + n ≤ 256)
  | _ => true

/-- The window after a flit of 40 slots that carries a packet of `n` slots; a window that no other channel can use ends
early, its slots empty (log 72). -/
def Port.countSlots (x : Port) (v n : Nat) : Nat × Nat × Nat :=
  let w := if x.within v n then x.window else (0, 0, 0)
  let w := (w.1 + 40, w.2.1 + (if v = 0 then n else 0), w.2.2 + (if v = 1 then n else 0))
  if 1024 ≤ w.1 then (0, 0, 0) else w

/-- The virtual channel served next: VC0, then VC1, within their limits, then VC2 to VC7 in weighted round robin; a
channel past its limit when no other has a packet (R256, log 72). Only channels whose next packet has its credits. Answers
the channel and the turn after it. -/
def State.nextVc (s : State) (p : Nat) : Option (Nat × (Nat × Nat)) :=
  let x := s.port p
  let slots := fun (v : Nat) => match s.pickPacket x v with
    | some k => if packetSlots k.1.pkt ≤ nth x.credits v then some (packetSlots k.1.pkt) else none
    | none => none
  let ready := fun (v : Nat) => (slots v).isSome
  let first := fun (v : Nat) => match slots v with
    | some n => x.within v n
    | none => false
  let order := (List.range 6).map (fun i => 2 + (x.turn.1 - 2 + i) % 6)
  if first 0 then some (0, x.turn)
  else if first 1 then some (1, x.turn)
  else if 0 < x.turn.2 ∧ ready x.turn.1 then some (x.turn.1, (x.turn.1, x.turn.2 - 1))
  else
    match ((order.drop 1) ++ order.take 1).find? ready with
    | some v => some (v, (v, nth s.nv.vcWeights (v - 2) - 1))
    | none => if ready 0 then some (0, x.turn) else if ready 1 then some (1, x.turn) else none

/-! ### Sending packets (R254, R258, R260) -/

/-- The payload of a stomp flit: 4-byte entries of SNODE and TAG. The unused entries are zero, so an entry of node 0 and
tag 0 stands first (log 72). -/
def stompBody (l : List (Nat × Nat)) : List Byte :=
  ((l.filter (· == (0, 0)) ++ l.filter (· != (0, 0))).map (fun k => toBe 4 (k.1 * 2 ^ 16 + k.2))).flatten

/-- A port may send a data or stomp flit: it carries traffic and its replay buffer has room (R255). -/
def Port.open_ (x : Port) : Bool := x.usable && decide (x.replay.length < 256)

/-- The packets to be stomped go out before anything else (R260). -/
def State.sendStomps (s : State) (p : Nat) : State :=
  let x := s.port p
  if x.stomps.isEmpty || !x.open_ then s
  else (s.setPort p (fun x => { x with stomps := x.stomps.drop 640 })).sendFlit p 4 (stompBody (x.stomps.take 640))

/-- Sends one waiting packet when its port carries traffic, holds its credits and room in the replay buffer. -/
def State.pumpOnce (s : State) (p : Nat) : State :=
  let s := s.sendStomps p
  let x := s.port p
  if !x.open_ then s
  else
    match s.nextVc p with
    | none => s
    | some (v, turn) =>
      match s.pickPacket x v with
      | none => s
      | some (k, bt) =>
        let n := packetSlots k.pkt
        let s := s.setPort p (fun x => { x with
          txq := x.txq.erase k
          credits := updNth x.credits v (fun c => c - n)
          turn := turn
          window := x.countSlots v n
          bayTurn := x.bayTurn.set v bt })
        s.sendFlit p 0 (packetBytes k.pkt)

/-- Sends what a port can send. -/
def State.pump (s : State) (p : Nat) : State :=
  (List.range ((s.port p).txq.length + 1)).foldl (fun s _ => s.pumpOnce p) s

/-- The route mask of a node (R258). -/
def State.route (s : State) (node : Nat) : Nat := (assoc s.nv.routes node).getD 0

/-- The stripe of a route: the usable ports of the mask ascending, those of the issuing cluster's die alone when it has
any, then the UP ports once more when one is DEGRADED (R258, log 26). -/
def State.stripe (s : State) (mask : Nat) (die : Option Nat) : List Nat :=
  let all := (List.range 12).filter (fun p => mask / 2 ^ p % 2 == 1 && (s.port p).usable)
  let own := match die with
    | some d => all.filter (fun p => p / 6 == d)
    | none => []
  let us := if own.isEmpty then all else own
  if us.any (fun p => (s.port p).state == 4) then us ++ us.filter (fun p => (s.port p).state == 3) else us

/-- A packet discarded for want of a route, or after 15 relays: ROUTE_DROP (R258). -/
def State.routeDrop (s : State) (p : Packet) : State :=
  (s.countDev 3 1).log1 { Rec.blank with code := 0x0142, cls := 4, kind := 9, d0 := p.dnode }

/-- The port that a packet leaves on, by its TAG over the stripe; without a usable port the lowest port of its mask, where
it is held; none when it has no route or has been relayed 15 times (R251, R258). -/
def State.portFor (s : State) (die : Option Nat) (p : Packet) : Option Nat :=
  let mask := s.route p.dnode % 4096
  if mask = 0 ∨ 15 < p.hops then none
  else
    let st := s.stripe mask die
    some (if st.isEmpty then (List.range 12).findIdx (fun q => mask / 2 ^ q % 2 == 1) else nth st (p.tag % st.length))

/-- A packet put into the queue of the port it leaves on. -/
def State.enqueue (s : State) (die adm : Option Nat) (relayed : Bool) (p : Packet) : State :=
  match s.portFor die p with
  | none => s.routeDrop p
  | some q => (s.emit (.packet p)).setPort q (fun x => { x with txq := x.txq ++ [⟨p, adm, relayed⟩] })

/-- Hands a packet to the fabric: from a cluster of a die, for a command, or relayed (R258). -/
def State.inject (s : State) (die adm : Option Nat) (relayed : Bool) (p : Packet) : State :=
  match s.portFor die p with
  | none => s.routeDrop p
  | some q => (s.enqueue die adm relayed p).pump q

/-- Hands a packet of no cluster and no command to the fabric. -/
def State.sendPacket (s : State) (p : Packet) : State := s.inject none none false p

/-- The die of a logical cluster, where its traffic is issued (R258). -/
def State.dieOf (s : State) (lc : Nat) : Option Nat := (s.phys lc).map (· / 17)

/-- A held packet waits no longer once the command that sent it has ended (R251). -/
def State.wanted (s : State) (k : Queued) : Bool := match k.adm with
  | none => true
  | some a => match s.slot? a with
    | some c => !c.finished?
    | none => false

/-- Packets held at ports that carry no traffic are routed again, but those whose command has ended (R251). -/
def State.reroute (s : State) : State :=
  (List.range 12).foldl (fun s p =>
    let x := s.port p
    if x.usable then s.pump p
    else
      let keep := x.txq.filter s.wanted
      let move := keep.filter (fun k => !(s.stripe (s.route k.pkt.dnode % 4096) none).isEmpty)
      let s := s.setPort p (fun x => { x with txq := keep.filter (fun k => !move.contains k) })
      move.foldl (fun s k => s.inject none k.adm k.relayed k.pkt) s) s

/-- The flits of the replay buffer are sent again (R251, R255). -/
def State.resend (s : State) (p : Nat) : State := (s.port p).replay.foldl (fun s g => s.emit (.flit p g)) s

/-- A port leaves service, or returns to it: what it held is sent again, or moves to other ports (R251). -/
def State.changePort (s : State) (p st : Nat) : State :=
  let s := s.setPortState p st
  (if (s.port p).usable then
      let s := s.resend p
      s.setPort p (fun x => { x with txq := x.txq.filter s.wanted })
    else s).reroute

/-! ### Receiving (R254, R255, R260) -/

/-- A port in LOCKING becomes UP, or DEGRADED on eight lanes, after 1,000 flits in a row without an uncorrectable
codeword (R250). -/
def State.lockFlit (s : State) (p : Nat) (f : Flit) : State :=
  if !f.decodes then s.setPort p (fun x => { x with goodFlits := 0 })
  else
    let s := s.setPort p (fun x => { x with goodFlits := x.goodFlits + 1 })
    let x := s.port p
    if x.goodFlits < 1000 then s
    else (s.setPort p (fun x => { x with goodFlits := 0 })).changePort p (if x.lanes.length = 8 then 4 else 3)

/-- Acknowledged flits leave the replay buffer; returned credits are added (R254, R255). -/
def State.takeAck (s : State) (p : Nat) (f : Flit) : State :=
  let x := s.port p
  let n := match x.replay.findIdx? (·.fseq == f.ackseq) with
    | some i => i + 1
    | none => 0
  (s.setPort p (fun x => { x with
    replay := x.replay.drop n
    replays := if n = 0 then x.replays else 0
    credits := updNth x.credits f.crvc (· + f.crcount) })).pump p

/-- The packets that a stomp flit lists: SNODE and TAG (R260). A stomp flit lists at least one, so leading zeros are an
entry of node 0 and tag 0, and zeros after the last other entry are none (log 72). -/
def stompList (f : Flit) : List (Nat × Nat) :=
  let es := (chunks 4 f.payload).map (fun e => let v := leNat e.reverse; (bitsOf v 27 16, bitsOf v 15 0))
  (if es.head? = some (0, 0) then [(0, 0)] else []) ++ es.filter (· != (0, 0))

def stomps (l : List (Nat × Nat)) (k : Packet) : Bool := l.contains (k.snode, k.tag)

/-- Relays a packet: HOPS + 1, then its own route (R258); the receive buffer's slots are free again, and the port keeps
where the packet went until its next data flit (R260). -/
def State.relay (s : State) (p : Nat) (k : Packet) : State :=
  let k' := { k with hops := k.hops + 1 }
  let q := (s.portFor none k').toList.map (fun q => (q, k.snode, k.tag))
  let s := s.setPort p (fun x => { x with
    relayed := x.relayed + 1, owed := updNth x.owed k.vc (· + packetSlots k), forwarded := x.forwarded ++ q })
  s.inject none none true k'

/-- The flit that follows a packet's last flit commits it, unless it stomps it (R260). -/
def State.commit (s : State) (p : Nat) (stomp : List (Nat × Nat)) : State :=
  let x := s.port p
  let bad := x.await.filter (stomps stomp)
  s.setPort p (fun x => { x with
    await := []
    rx := x.rx ++ x.await.filter (fun k => !stomps stomp k)
    owed := bad.foldl (fun o k => updNth o k.vc (· + packetSlots k)) x.owed })

/-- A replay request with the ACKSEQ of the last intact flit (R255). -/
def State.askReplay (s : State) (p : Nat) : State :=
  (s.setPort p (fun x => { x with asked := some x.rxLast })).sendFlit p 2 []

/-- A later flit is discarded; the request for the missing one is out already, unless this flit shows the loss. -/
def State.discardLate (s : State) (p : Nat) : State := if (s.port p).asked.isSome then s else s.askReplay p

/-- An intact data flit in order: it commits what waits, and brings its own packets; those for other nodes are relayed at
once (R259). -/
def State.takeData (s : State) (p : Nat) (f : Flit) : State :=
  let s := s.setPort p (fun x => { x with rxLast := f.fseq, asked := none, forwarded := [] })
  let s := s.commit p []
  let r := splitPackets 41 ((s.port p).part ++ f.payload)
  let mine := r.1.filter (fun k => k.dnode == s.nv.node)
  let s := s.setPort p (fun x => { x with part := r.2, await := x.await ++ mine })
  (r.1.filter (fun k => k.dnode != s.nv.node)).foldl (fun s k => s.relay p k) s

/-- Whether a relayed packet still waits at a port. -/
def Port.waitsFor (x : Port) (k : Nat × Nat) : Bool := x.txq.any (fun q => q.relayed && (q.pkt.snode, q.pkt.tag) == k)

/-- A copy that was forwarded in vain: one that still waits is withdrawn, another is stomped by the port's next flit
(R260). -/
def State.takeBack (s : State) (q : Nat × Nat × Nat) : State :=
  s.setPort q.1 (fun x =>
    if x.waitsFor q.2 then { x with txq := x.txq.filter (fun k => !(k.relayed && (k.pkt.snode, k.pkt.tag) == q.2)) }
    else { x with stomps := x.stomps ++ [q.2] })

/-- Takes back forwarded copies, then sends the stomp flits. -/
def State.takeBackAll (s : State) (qs : List (Nat × Nat × Nat)) : State :=
  ((qs.map (·.1)).eraseDups).foldl State.pump (qs.foldl State.takeBack s)

/-- A data flit whose CRC fails: it and all later flits are discarded and it is asked for again. Where its codewords
decode, a relay had forwarded its packets by then, and stomps what went out (R255, R260). -/
def State.takeBadData (s : State) (p : Nat) (f : Flit) : State :=
  let ks := ((splitPackets 41 ((s.port p).part ++ f.payload)).1).filter (fun k => k.dnode != s.nv.node)
  let out := fun (k : Packet) => { k with hops := k.hops + 1 }
  let s := if f.decodes && (s.port p).asked.isNone then
      let qs := (ks.map (fun k => (s.portFor none (out k)).toList.map (fun q => (q, k.snode, k.tag)))).flatten
      let s := (ks.filter (fun k => (s.portFor none (out k)).isSome)).foldl (fun s k => s.inject none none true (out k)) s
      s.takeBackAll qs
    else s
  s.askReplay p

/-- A stomp flit: the copies it lists are discarded, and it is relayed to where they went (R260). -/
def State.takeStomp (s : State) (p : Nat) (f : Flit) : State :=
  let l := stompList f
  let went := (s.port p).forwarded.filter (fun q => l.contains q.2)
  let s := s.setPort p (fun x => { x with rxLast := f.fseq, asked := none, forwarded := [] })
  (s.commit p l).takeBackAll went

/-- A replay request: everything after its ACKSEQ is sent again; the same flit 16 times in a row takes the port to
LOCKING (R255). -/
def State.takeReplay (s : State) (p : Nat) (f : Flit) : State :=
  let s := s.takeAck p f
  let x := s.port p
  let bays := ((x.replay.map (fun g => ((splitPackets 41 g.payload).1).map (·.bay))).flatten).eraseDups
  let s := s.setPort p (fun x => { x with replays := x.replays + 1, replayCount := x.replayCount + 1 })
  let s := bays.foldl (fun s b => s.countBay b 2 1) s
  let s := s.resend p
  if 16 ≤ x.replays + 1 then (s.setPort p (fun x => { x with replays := 0, goodFlits := 0 })).changePort p 2 else s

/-- Counts every flit that arrives (R438). -/
def State.countFlit (s : State) (p : Nat) (f : Flit) : State :=
  s.setPort p (fun x => { x with
    rxFlits := x.rxFlits + 1
    corrSymbols := x.corrSymbols + f.corrected
    uncorrCw := x.uncorrCw + (if f.decodes then 0 else 1) })

/-- A flit at a port (R250, R255). A data or stomp flit out of its turn is discarded whole: its replay brings its credits
again. -/
def State.receive (s : State) (p : Nat) (f : Flit) : State :=
  let x := s.port p
  if x.state = 2 then (s.countFlit p f).lockFlit p f
  else if !x.usable then s
  else
    let s := s.countFlit p f
    if !flitIntact f then (if f.kind = 0 then s.takeBadData p f else s.askReplay p)
    else if f.kind = 2 then s.takeReplay p f
    else if f.kind = 0 then
      (if f.fseq = (x.rxLast + 1) % 4096 then (s.takeAck p f).takeData p f else s.discardLate p)
    else if f.kind = 4 then
      (if f.fseq = (x.rxLast + 1) % 4096 then (s.takeAck p f).takeStomp p f else s.discardLate p)
    else if f.kind = 1 then (s.takeAck p f).commit p []
    else s.takeAck p f

/-- A port that carries traffic has an acknowledgement or credits to return. -/
def Port.owes (x : Port) : Bool := x.usable && (x.acked != x.rxLast || x.owed.any (0 < ·))

/-- Ports with nothing to send send idle flits (R252): here each that has something to return; one that would tell nothing
new is left out (log 72). -/
def State.idleFlits (s : State) : State :=
  (List.range 12).foldl (fun (s : State) p => if (s.port p).owes then s.sendFlit p 1 [] else s) s

/-! ### The rows -/

/-- FLIT_RECEIVE: a flit of any kind arrives at a port. -/
def execFlitReceive (port : Nat) (f : Flit) (s : State) : Host.Outcome State Fault Refusal := .next (s.receive port f)

/-- REPLAY_REQUEST: a flit whose KIND is a replay request. -/
def execReplayRequest (port : Nat) (f : Flit) (s : State) : Host.Outcome State Fault Refusal :=
  .next (s.receive port { f with kind := 2, crc := BitVec.ofNat 32 (flitCrc { f with kind := 2 }) })

/-- STOMP_FLIT: a flit whose KIND is stomp. -/
def execStompFlit (port : Nat) (f : Flit) (s : State) : Host.Outcome State Fault Refusal :=
  .next (s.receive port { f with kind := 4, crc := BitVec.ofNat 32 (flitCrc { f with kind := 4 }) })

/-- PACKET_RELAY: a packet for another node at a port that carries traffic is sent on (R258). -/
def execPacketRelay (port : Nat) (p : Packet) (s : State) : Host.Outcome State Fault Refusal :=
  .next (if p.dnode ≠ s.nv.node ∧ (s.port port).usable then s.relay port p else s)

/-- Two packets with the same header fields. -/
def samePacket (a b : Packet) : Bool :=
  a.dnode == b.dnode && a.snode == b.snode && a.vc == b.vc && a.typ == b.typ && a.bay == b.bay && a.group == b.group &&
    a.offset == b.offset && a.tag == b.tag

/-- Takes a committed packet out of the port that holds it; its slots are free again. -/
def State.takePacket (s : State) (k : Packet) : State :=
  match (List.range 12).find? (fun p => (s.port p).rx.any (samePacket k)) with
  | some p =>
    s.setPort p (fun x => { x with rx := x.rx.eraseP (samePacket k), owed := updNth x.owed k.vc (· + packetSlots k) })
  | none => s

/-- A packet that has arrived and is not committed yet: nothing of it takes effect (R260). -/
def State.uncommitted (s : State) (k : Packet) : Bool :=
  s.ports.any (fun x => x.await.any (samePacket k) && !x.rx.any (samePacket k))

/-- The packets of a message leave the receive buffer: those of a type for a bay and group that a predicate picks. -/
def State.takeMsg (s : State) (typ bay group : Nat) (pick : Packet → Bool) : State :=
  (List.range 12).foldl (fun s p =>
    let mine := (s.port p).rx.filter (fun k => k.typ == typ && k.bay == bay && k.group == group && pick k)
    mine.foldl (fun s k => s.takePacket k) s) s

/-- A lane of a fabric port fails (R251): the first moves to physical lane 16; the second retrains the port on its eight
lowest working lanes; a further one takes it down. -/
def State.laneLost (s : State) (port lane : Nat) : State :=
  let x := s.port port
  if !x.usable ∨ !x.lanes.contains lane then s
  else
    let s := s.setPort port (fun x => { x with badLanes := x.badLanes ++ [lane] })
    if x.state = 3 ∧ x.spared = none ∧ !x.badLanes.contains 16 then
      let l := x.lanes.findIdx (· == lane)
      ((s.setPort port (fun x => { x with lanes := x.lanes.set l 16, spared := some l })).useFree 1).log1
        { Rec.blank with
          code := 0x0140, cls := 3, kind := 8, die := port / 6, unit := port, sub := lane, d0 := l
          d1 := s.freeNow.toNat % 192001 }
    else if x.state = 3 then
      let good := ((List.range 17).filter (fun l => !(x.badLanes ++ [lane]).contains l)).take 8
      let s := s.setPort port (fun x => { x with lanes := good, spared := none })
      s.changePort port 4
    else (s.setPort port (fun x => { x with inOperation := true })).changePort port 0

end Sys2Proof.Machine
end

