-- ==== Sys2Proof/Machine/Groups.lean ====
section
/-!
DEFINITION. Collective groups: their formation (R261, R262), members and positions (R4, R184), the group abort (R197,
R263), the counters of a fired descriptor (R270), and the rows COLL_GROUP_CREATE, COLL_GROUP_DESTROY, GROUP_CONTROL,
COLL_JOIN_TIMEOUT and GROUP_ABORT.
-/
namespace Sys2Proof.Machine

def Bay.group? (y : Bay) (g : Nat) : Option Group := y.groups.find? (·.id == g)

/-- A group that has formed. -/
def Bay.formed? (y : Bay) (g : Nat) : Option Group := y.groups.find? (fun x => x.id == g && x.formed)

def State.setGroup (s : State) (b g : Nat) (f : Group → Group) : State :=
  s.setBay b (fun y => { y with groups := y.groups.map (fun (x : Group) => if x.id = g then f x else x) })

/-- The logical clusters of a group's mask, ascending: the ranks of each member. -/
def Group.ranks (g : Group) : List Nat := bitsSet g.blk.mask

/-- Positions of the group: members * ranks per member (R184). -/
def Group.positions (g : Group) : Nat := g.blk.members * g.ranks.length

/-- The members other than this one, ascending. -/
def Group.peers (g : Group) : List Nat := (List.range g.blk.members).filter (· != g.blk.thisMember)

/-- The fabric node of a member. -/
def Group.node (g : Group) (m : Nat) : Nat := nth g.blk.nodes m

/-- A group block's bytes with THIS_MEMBER zero and the resolved limits (R262). -/
def groupDigestBytes (g : GroupBlk) (treeMax chainAbove : Nat) : List Byte :=
  padTo 256 (toLe 1 g.members ++ toLe 1 0 ++ zeros 2 ++ toLe 4 g.mask.toNat ++ toLe 4 treeMax ++ toLe 4 chainAbove ++
    toLe 4 g.silentMs ++ toLe 4 g.joinMs ++ zeros 8 ++ (g.nodes.map (toLe 2)).flatten)

def Group.digest (g : Group) : List Byte := sha256 (groupDigestBytes g.blk g.treeMax g.chainAbove)

/-! ### Buffers of a collective (R183, R184, R232) -/

/-- Element codes of a stored tensor. -/
def rawCodes (fmt n : Nat) (bs : List Byte) : List Nat :=
  (((chunks (groupBytes fmt) bs).map (unpackGroup fmt)).flatten).take n

def packCodes (fmt : Nat) (es : List Nat) : List Byte := ((chunks (groupElems fmt) es).map (packGroup fmt 0)).flatten

def isReduce (opcode : Nat) : Bool := opcode == 0x0400 || opcode == 0x0402

/-- The tensor whose reduced gradient a shard-aligned reduce-scatter forms: the one whose RGRAD_ADDR is DST, at a member
without rows of it 0 (R232). Where several tensors share the address 0 it is the one that the command fits (log 73). -/
def Bay.aligned (y : Bay) (opcode : Nat) (o : CollOps) : Option (ShardMap × TensorRec) :=
  match y.train.map with
  | some p =>
    if opcode = 0x0402 ∧ p.group = o.group then
      let named := p.tensors.filter (fun t => t.rgrad == o.dst)
      let fits := named.find? (fun t => t.opt != 3 && o.count == t.rows * t.rowLen && o.fmt == t.gfmt)
      (fits.or named.head?).map (fun t => (p, t))
    else none
  | none => none

/-- Start and length of a position's elements (R184, R232). -/
def Bay.segment (y : Bay) (opcode : Nat) (o : CollOps) (n p : Nat) : Nat × Nat :=
  match y.aligned opcode o with
  | some (m, t) => let r := t.rowsOf m.members p; (r.1 * t.rowLen, r.2 * t.rowLen)
  | none => divide o.count n p

/-- The size of a number of elements of a format: its bits, in whole bytes (R264). -/
def elemBytes (fmt n : Nat) : Nat := ceilDiv (n * groupBytes fmt) (groupElems fmt)

/-- Bytes that the elements of a collective take in memory. -/
def collBytes (o : CollOps) : Nat := storedBytes o.fmt o.count

/-- Byte offset of a position's segment in a gathered vector. -/
def gatherOffset (o : CollOps) (n p : Nat) : Nat := ((List.range p).map (fun q => storedBytes o.fmt (divide o.count n q).2)).sum

/-- The buffer of a rank: logical cluster c at base + (c - c0) * RSTRIDE (R184). -/
def rankAddr (g : Group) (base rstride c : Nat) : Nat := base + (c - g.ranks.headD 0) * rstride

/-- This member's positions with their logical clusters. -/
def Group.myPositions (g : Group) : List (Nat × Nat) :=
  g.ranks.zipIdx.map (fun c => (g.blk.thisMember * g.ranks.length + c.2, c.1))

/-- Final values that have arrived at an unfinished collective, as bytes at their addresses: what it may have written. -/
def Coll.arrived (c : Coll) (y : Bay) (g : Group) : List (Nat × List Byte) :=
  if (y.aligned c.opcode c.ops).isSome && y.train.arm.isSome then []
  else (g.myPositions.map (fun x =>
    let base := rankAddr g c.ops.dst c.ops.rstride x.2
    c.finals.filterMap (fun f => match c.opcode with
      | 0x0400 => some (base + storedBytes c.ops.fmt f.first, packCodes c.ops.fmt f.elems)
      | 0x0402 =>
        if f.lo = x.1 then
          some (base + storedBytes c.ops.fmt (f.first - (y.segment c.opcode c.ops g.positions x.1).1), packCodes c.ops.fmt f.elems)
        else none
      | _ => some (base + f.first, f.elems.map (BitVec.ofNat 8))))).flatten

/-- An unfinished collective leaves each line it may have written old or new (R197). -/
def State.mixColl (s : State) (b : Nat) (g : Group) (c : Coll) : State :=
  s.mixed ((c.arrived (s.bay b) g).foldl (fun s x => s.writeBay b x.1 x.2) s)

/-! ### Group aborts (R197, R263) -/

/-- A message to a member as packets of at most 2,048 bytes, all with one OFFSET and consecutive TAGs, from the cluster
that issues it and for the command that sends it (R253, R258, log 25). -/
def State.sendMsg (s : State) (b : Nat) (g : Group) (lc adm : Option Nat) (member vc typ offset tag : Nat)
    (data : List Byte) : State :=
  (if data.isEmpty then [[]] else chunks 2048 data).zipIdx.foldl (fun s c =>
    s.inject (lc.bind s.dieOf) adm false
      ⟨g.node member, s.nv.node, vc, typ, b, g.id, 0, offset, (tag + c.2) % 65536, c.1⟩) s

/-- A packet of a bay's group to a member. -/
def State.sendTo (s : State) (b : Nat) (g : Group) (lc adm : Option Nat) (member vc typ offset tag : Nat)
    (data : List Byte) : State :=
  s.inject (lc.bind s.dieOf) adm false ⟨g.node member, s.nv.node, vc, typ, b, g.id, 0, offset, tag % 65536, data⟩

/-- An increment of a counter of a member: here, or by a counter add (R253, R269). -/
def State.addAt (s : State) (b : Nat) (g : Option Group) (lc : Option Nat) (member : Option Nat) (vc ctr n : Nat)
    (err : Bool) : State :=
  match g, member with
  | some g, some m =>
    if m = g.blk.thisMember then s.bump b ctr n err
    else if m < g.blk.members then s.sendTo b g lc none m vc 5 ctr 0 (toLe 8 n ++ toLe 1 (bit err 0))
    else s
  | _, _ => s.bump b ctr n err

/-- The member that an address names, when it is not this one. -/
def sideOf (g : Option Group) (a : Nat) : Option Nat :=
  if isFabric a then
    match g with
    | some g => if fabricMember a = g.blk.thisMember then none else some (fabricMember a)
    | none => some (fabricMember a)
  else none

/-- The bay address within its side. -/
def sideAddr (a : Nat) : Nat := if isFabric a then fabricBay a else a

/-- Chunks of a transfer, cut at 2,048-byte boundaries of its destination so that no line is split: (offset, length). -/
def cutChunks (dst n : Nat) : List (Nat × Nat) :=
  if n = 0 then []
  else
    let first := min n (2048 - dst % 2048)
    (0, first) :: (List.range (ceilDiv (n - first) 2048)).map (fun i =>
      (first + 2048 * i, min 2048 (n - (first + 2048 * i))))

/-- The counters of a descriptor: SIGNAL_CTR here when `signal` says so, and with REMOTE_EN REMOTE_CTR at the member its
data landed in; a collective's data lands here (R269, R270, log 38). -/
def State.countTrig (s : State) (b : Nat) (t : TrigBlk) (signal remote err : Bool) : State :=
  let g := (s.bay b).formed? t.group
  let target := if t.kind = 2 then some (t.dst % 64) else if t.kind < 2 then sideOf g t.dst else none
  let s := if signal then s.bump b t.signalCtr 1 err else s
  if remote then s.addAt b g (some t.issuer) target t.vc t.remoteCtr 1 err else s

/-- How a finished or failed descriptor counts; an ADD kind that succeeds has added to its own counter already. -/
def State.firedEnd (s : State) (b : Nat) (t : TrigBlk) (err : Bool) : State :=
  s.countTrig b t (t.signalEn && (err || t.kind != 4)) (t.remoteEn && (err || t.kind != 2)) err

/-- A descriptor that fires with ERR on its WAIT_CTR: SIGNAL_CTR counts whether enabled or not (R270). -/
def State.passErr (s : State) (b : Nat) (t : TrigBlk) : State := s.countTrig b t true t.remoteEn true

/-- The collective group that a command uses, when it is a collective or, over the map's group, a gather or NORM_CLIP. -/
def groupUse (mapGroup : Option Nat) : Instr → Option Nat
  | .collAllreduce _ o => some o.group
  | .collAllgather _ o => some o.group
  | .collReduceScatter _ o => some o.group
  | .collBroadcast _ o => some o.group
  | .stepGather _ _ _ => mapGroup
  | .normClip _ g _ _ => some g
  | _ => none

def Bay.mapGroup (y : Bay) : Option Nat := y.train.map.map (·.group)

/-- Forgets what the exchanges of a group hold. -/
def Bay.dropExchange (y : Bay) (g : Nat) : Bay :=
  let tr := if y.mapGroup = some g then
      { y.train with gathers := [], earlyRows := [], norms := [], earlyNorms := [] }
    else y.train
  { y with
    colls := y.colls.filter (fun c => c.group != g)
    earlyColls := y.earlyColls.filter (fun c => c.group != g)
    train := tr }

/-- A group abort at this member: every collective, gather and norm of the group completes ABORTED, with the bytes a
gather had received; the group stays formed, and matching goes on with the next commands admitted (R263, log 27). -/
def State.abortGroup (s : State) (b g : Nat) : State :=
  let y := s.bay b
  let hit := s.cmds.filter (fun c => c.ofBay b && !c.finished? && groupUse y.mapGroup c.instr == some g)
  let mine := y.colls.filter (fun c => c.group == g)
  let trigs := mine.filter (fun c => c.adm == none)
  let s := match y.formed? g with
    | some x => mine.foldl (fun (s : State) c => s.mixColl b x c) s
    | none => s
  let s := s.setBay b (fun y => y.dropExchange g)
  let s := (postOrder hit).foldl (fun s c => s.finishNat c.adm .aborted c.work) s
  trigs.foldl (fun s c => match c.trig with
    | some t => s.firedEnd b t true
    | none => s) s

/-- Sends the group abort to the peers on VC0 (R197). -/
def State.sendAbort (s : State) (b g : Nat) : State :=
  match (s.bay b).formed? g with
  | some x => x.peers.foldl (fun s m => s.sendMsg b x none none m 0 7 0 0 []) (s.emit (.groupAbort b g))
  | none => s

/-- Matched commands differ: the mismatch is logged, the abort sent, and everything of the group aborted (R227, R263). -/
def State.mismatch (s : State) (b g : Nat) : State :=
  ((s.log2 b { Rec.blank with code := 0x0160, d0 := g }).sendAbort b g).abortGroup b g

/-- GROUP_ABORT: a peer's group abort arrives. -/
def execGroupAbort (bay group : Nat) (s : State) : Host.Outcome State Fault Refusal :=
  .next ((s.takeMsg 7 bay group (fun _ => true)).abortGroup bay group)

/-! ### Formation (R262) -/

/-- The join packet of this member; a member whose group number is in use answers with no digest (log 28). -/
def State.joinPacket (s : State) (b g m : Nat) (digest : List Byte) : JoinPacket :=
  ⟨b, g, m, s.nv.node, s.boot.versions, digest⟩

/-- The payload of a join packet: the version vector and the digest (R262, log 25). -/
def joinBytes (j : JoinPacket) : List Byte := (j.versions.map (fun v => toLe 8 v.toNat)).flatten ++ j.digest

/-- A join packet leaves for a node on VC0 (R262). -/
def State.sendJoin (s : State) (node : Nat) (adm : Option Nat) (j : JoinPacket) : State :=
  (s.emit (.join node j)).inject none adm false ⟨node, s.nv.node, 0, 6, j.bay, j.group, 0, 0, j.member, joinBytes j⟩

/-- How a join ends with the packets at hand: a status, or none when the group has formed. -/
def Group.joinStatus (x : Group) (own : List W64) (full : Bool) : Option Status :=
  if x.joins.any (fun j => j.versions != own) then some .versionMismatch
  else if x.joins.any (fun j => j.digest != x.digest) then some .conflict
  else if full then none else some .timeout

/-- A join ends: the group has formed, or it is gone with a status for the command. -/
def State.endJoin (s : State) (b : Nat) (x : Group) (full : Bool) : State :=
  match x.joinStatus s.boot.versions full with
  | some st => (s.setBay b (fun y => { y with groups := y.groups.filter (fun (g : Group) => g.id != x.id) })).fail x.adm st
  | none =>
    (s.setGroup b x.id (fun g => { g with formed := true })).finishNat x.adm .ok (x.blk.members + x.positions * 2 ^ 16)

/-- Ends the join when every member has joined. -/
def State.settleJoin (s : State) (b g : Nat) : State :=
  match (s.bay b).group? g with
  | some x => if !x.formed && x.joins.length == x.blk.members then s.endJoin b x true else s
  | none => s

/-- A join packet for a group of the bay; another from the same member replaces nothing. One for a group not created here
yet is held with the time it arrived, unless it is an answer. -/
def State.takeJoin (s : State) (j : JoinPacket) : State :=
  match (s.bay j.bay).group? j.group with
  | none =>
    if j.digest = [] then s
    else s.setBay j.bay (fun y => { y with earlyJoins := y.earlyJoins ++ [(s.clock.uptime, j)] })
  | some x =>
    if x.formed then
      if j.digest = [] then s else s.sendJoin j.snode none (s.joinPacket j.bay j.group x.blk.thisMember [])
    else if x.joins.any (fun k => k.member == j.member && k.snode == j.snode) then s
    else (s.setGroup j.bay j.group (fun x => { x with joins := x.joins ++ [j] })).settleJoin j.bay j.group

/-- GROUP_CONTROL: a join packet arrives (R262). -/
def execGroupControl (j : JoinPacket) (s : State) : Host.Outcome State Fault Refusal :=
  .next ((s.takeMsg 6 j.bay j.group (fun k => k.snode == j.snode)).takeJoin j)

/-- The checks of COLL_GROUP_CREATE (R261, Table 7.7). -/
def State.groupCreateCheck (s : State) (b group : Nat) (k : GroupBlk) : Option Status :=
  let tmax := if k.treeMax = 0 then s.nv.treeMax else k.treeMax
  if group > 63 ∨ k.members = 0 ∨ k.members > 64 ∨ k.thisMember ≥ k.members ∨ k.mask = 0 ∨
      (k.treeMax ≠ 0 ∧ (k.treeMax < 4096 ∨ k.treeMax > 1048576)) ∨
      (k.chainAbove ≠ 0 ∧ (k.chainAbove < tmax ∨ k.chainAbove > 67108864)) ∨ k.silentMs > 60000 ∨ k.joinMs > 600000 ∨
      k.nodes.any (fun n => decide (4096 ≤ n)) ∨ (k.nodes.drop k.members).any (· != 0) ∨
      nth k.nodes k.thisMember ≠ s.nv.node then
    some .badParam
  else if ((s.bay b).group? group).isSome then some .conflict
  else if (k.mask &&& ~~~(s.bay b).bind.clusters) ≠ 0 then some .notBound
  else none

/-- JOIN_MS of a group in ns (Table 10.6). -/
def Group.joinNs (x : Group) : Nat := (if x.blk.joinMs = 0 then 10000 else x.blk.joinMs) * 1000000

/-- The held join packets that count for a group created now: those whose sender still joins, JOIN_MS not passed since
they arrived (R262, log 28). -/
def State.earlyFor (s : State) (b : Nat) (x : Group) : List JoinPacket :=
  ((s.bay b).earlyJoins.filter (fun e => e.2.group == x.id && decide (s.clock.uptime < e.1 + x.joinNs))).map (·.2)

/-- COLL_GROUP_CREATE: the join packet goes to every other member, and the group forms when all have joined. -/
def execCollGroupCreate (h : Hdr) (group : Nat) (blk : GroupBlk) (s : State) : Host.Outcome State Fault Refusal :=
  .next (s.onRunning (.collGroupCreate h group blk) (fun c =>
    match c.bay? with
    | none => s
    | some b =>
      match s.groupCreateCheck b group blk with
      | some st => s.fail h.adm st
      | none =>
        let x : Group := {
          id := group, blk := blk, treeMax := if blk.treeMax = 0 then s.nv.treeMax else blk.treeMax
          chainAbove := if blk.chainAbove = 0 then s.nv.chainAbove else blk.chainAbove, formed := false, adm := h.adm
          since := s.clock.uptime, joins := [], count := 0, late := List.replicate 64 (0, 0) }
        let own := s.joinPacket b group blk.thisMember x.digest
        let early := s.earlyFor b x
        let s := (s.setActive h.adm).setBay b (fun y => { y with
          groups := y.groups ++ [{ x with joins := [own] }]
          earlyJoins := y.earlyJoins.filter (fun e => e.2.group != group) })
        let s := x.peers.foldl (fun s m => s.sendJoin (x.node m) (some h.adm) own) s
        early.foldl (fun s j => s.takeJoin j) (s.settleJoin b group)))

/-- SILENT_MS of a group in ns. -/
def Group.silentNs (x : Group) : Nat := (if x.blk.silentMs = 0 then 1000 else x.blk.silentMs) * 1000000

/-- COLL_JOIN_TIMEOUT: JOIN_MS has passed without a full join (R262). -/
def execCollJoinTimeout (bay group : Nat) (s : State) : Host.Outcome State Fault Refusal :=
  .next (match (s.bay bay).group? group with
  | some x => if !x.formed && decide (x.since + x.joinNs ≤ s.clock.uptime) then s.endJoin bay x false else s
  | none => s)

/-- A collective of the group is admitted or fired, or a descriptor names the group. -/
def State.groupBusy (s : State) (b g : Nat) : Bool :=
  s.cmds.any (fun c => c.ofBay b && !c.finished? && groupUse (s.bay b).mapGroup c.instr == some g) ||
    (s.bay b).colls.any (fun c => c.group == g) ||
    (s.bay b).trigs.any (fun t => t.blk.group == g && (t.blk.kind != 4))

/-- COLL_GROUP_DESTROY (Table 7.7). -/
def execCollGroupDestroy (h : Hdr) (group : Nat) (s : State) : Host.Outcome State Fault Refusal :=
  .next (s.onRunning (.collGroupDestroy h group) (fun c =>
    match c.bay? with
    | none => s
    | some b =>
      if ((s.bay b).formed? group).isNone then s.fail h.adm .notBound
      else if s.groupBusy b group then s.fail h.adm .conflict
      else
        (s.setBay b (fun y => { y with groups := y.groups.filter (fun (x : Group) => x.id != group) })).finishNat h.adm .ok 0))

end Sys2Proof.Machine
end

