-- ==== Sys2Proof/Machine/Order.lean ====
section
/-!
DEFINITION. The algorithms of an exchange (R264 to R267): the order of addition, the member that performs each addition,
and the routes and virtual channels of Table 10.7.
-/
namespace Sys2Proof.Machine

/-! ### The order of addition (R264, R265) -/

/-- How a reduction is formed: positions added in a tree. -/
inductive Plan where
  | leaf (p : Nat)
  | add (l r : Plan)
  deriving DecidableEq, Repr

def Plan.lo : Plan → Nat
  | .leaf p => p
  | .add l _ => l.lo

def Plan.hi : Plan → Nat
  | .leaf p => p + 1
  | .add _ r => r.hi

/-- r = x_lo; then each further position added in ascending order. -/
def chainPlan (lo n : Nat) : Plan := (List.range' (lo + 1) (n - 1)).foldl (fun a p => .add a (.leaf p)) (.leaf lo)

/-- One level of the tree: pairs combine, a lone last value passes up. -/
def pairUp : List Plan → List Plan
  | a :: b :: rest => .add a b :: pairUp rest
  | l => l

def treePlan : Nat → List Plan → Plan
  | 0, l => l.headD (.leaf 0)
  | f + 1, l => match l with
    | [] => .leaf 0
    | [a] => a
    | _ => treePlan f (pairUp l)

/-- The algorithms of R264: 0 tree, 1 chain, 2 bucketed. -/
def algoOf (g : Group) (bytes algo : Nat) : Nat :=
  if algo = 1 ∨ g.chainAbove < bytes then 1 else if bytes ≤ g.treeMax then 0 else 2

/-- The plan of a group's sum. -/
def planOf (algo members ranks : Nat) : Plan :=
  let n := members * ranks
  match algo with
  | 1 => chainPlan 0 n
  | 0 => treePlan n ((List.range n).map .leaf)
  | _ => treePlan members ((List.range members).map (fun m => chainPlan (m * ranks) ranks))

/-- The additions of a plan, children before parents: (lo, start of the right part, hi). -/
def Plan.nodes : Plan → List (Nat × Nat × Nat)
  | .leaf _ => []
  | .add l r => l.nodes ++ r.nodes ++ [(l.lo, r.lo, r.hi)]

/-- The member that performs the addition of a node: in the chain the one whose positions are added, otherwise the one of
the lowest position (R266). -/
def nodeOwner (algo ranks : Nat) (n : Nat × Nat × Nat) : Nat := (if algo = 1 then n.2.2 - 1 else n.1) / ranks

/-- Where a value of a range goes to be added: its parent's owner, none for the whole sum. -/
def parentOwner (algo ranks : Nat) (ns : List (Nat × Nat × Nat)) (lo hi : Nat) : Option Nat :=
  (ns.find? (fun n => (n.1 == lo && n.2.1 == hi) || (n.2.1 == lo && n.2.2 == hi))).map (nodeOwner algo ranks)

/-! ### Routes (R266, Table 10.7) -/

def below (m : Nat) : List Nat := if m = 0 then [] else [m - 1]
def above (n m : Nat) : List Nat := if m + 1 < n then [m + 1] else []

/-- How the values of an exchange travel: its opcode, algorithm, members, ranks per member and root position. -/
structure Net where
  opcode : Nat
  algo : Nat
  members : Nat
  ranks : Nat
  root : Nat

def Net.positions (x : Net) : Nat := x.members * x.ranks

def Net.rootMember (x : Net) : Nat := x.root / max x.ranks 1

/-- The member of a place in the tree; a broadcast takes its root as position 0. -/
def Net.owner (x : Net) (q : Nat) : Nat :=
  (if x.opcode = 0x0403 then (q + x.root) % max x.positions 1 else q) / max x.ranks 1

def Net.nodes (x : Net) : List (Nat × Nat × Nat) := (planOf x.algo x.members x.ranks).nodes

/-- Members to which a member passes a value down the tree of positions. -/
def Net.down (x : Net) (m : Nat) : List Nat :=
  (((x.nodes.filter (fun n => x.owner n.1 == m)).map (fun n => x.owner n.2.1)).eraseDups).filter (· != m)

/-- The member to which a member passes the segment of a position up the tree. -/
def Net.up (x : Net) (m p : Nat) : List Nat :=
  (((x.nodes.filter (fun n => decide (n.2.1 ≤ p) && decide (p < n.2.2) && x.owner n.2.1 == m)).map
    (fun n => x.owner n.1)).eraseDups).filter (· != m)

/-- Members to which member `m` passes a final value of position `p` that it formed (`src` none) or had from a member. -/
def Net.routes (x : Net) (m p : Nat) (src : Option Nat) : List Nat :=
  match x.opcode with
  | 0x0400 => if x.algo = 1 then below m else x.down m
  | 0x0401 =>
    if x.algo = 0 then
      if m = 0 || src.any (fun k => decide (k < m)) then x.down m else x.up m p
    else if src = some (m + 1) then below m
    else if m + 1 < x.members then above x.members m else below m
  | 0x0402 => []
  | _ =>
    if x.algo = 0 then x.down m
    else match src with
      | none => below m ++ above x.members m
      | some f => if f < m then above x.members m else below m

/-- An allgather's segments return to every member but the last of the chain or the root of the tree. -/
def Net.hasReturn (x : Net) (m : Nat) : Bool :=
  x.opcode == 0x0401 && (if x.algo = 0 then m != 0 else decide (m + 1 < x.members))

/-- A segment from this member is one that returns: down the tree, or down the chain. -/
def Net.isReturn (x : Net) (m : Nat) (src : Option Nat) : Bool :=
  x.hasReturn m && src.any (fun k => if x.algo = 0 then decide (k < m) else decide (k = m + 1))

/-- Members from which this member's final values come. -/
def Net.sources (x : Net) (me : Nat) : List Nat :=
  match x.opcode with
  | 0x0401 =>
    if x.algo = 0 then (List.range x.members).filter (fun m => (x.down m).contains me || (x.down me).contains m)
    else below me ++ above x.members me
  | 0x0402 => [if x.algo = 1 then x.members - 1 else 0]
  | 0x0403 =>
    if x.algo = 0 then (List.range x.members).filter (fun m => (x.down m).contains me)
    else if x.rootMember < me then below me else if me < x.rootMember then above x.members me else []
  | _ => (List.range x.members).filter (fun m => (x.routes m 0 none).contains me)

/-- The virtual channel between two members: VC1 for the tree and the bucketed form, VC2 up and VC3 down the chain. -/
def Net.vc (x : Net) (src dst : Nat) : Nat := if x.algo = 1 then (if src < dst then 2 else 3) else 1

end Sys2Proof.Machine
end

