-- ==== Sys2Proof/Machine/Update.lean ====
section
/-!
DEFINITION. The update units (chapter 09): the hyperparameter block (R234), the arithmetic of one element (R235), state
blocks and their marks (R224, R240), the exact norm (R241 to R244) and the difference stream (R245).
-/
namespace Sys2Proof.Machine

/-! ### Hyperparameters (Table 9.4) -/

def hyperOf (k : List Byte) : Hyper :=
  let w := fun (off : Nat) => BitVec.ofNat 32 (leAt k off 4)
  { sets := (List.range 4).map (fun i => (w (8 * i), w (8 * i + 4))), beta1 := w 0x20, oneMBeta1 := w 0x24,
    beta2 := w 0x28, oneMBeta2 := w 0x2C, eps := w 0x30, bc1 := w 0x34, bc2 := w 0x38, gradScale := w 0x3C,
    maxNorm := w 0x40, flagFactor := w 0x44, nesterov := leAt k 0x48 4 % 2 == 1, seed := BitVec.ofNat 64 (leAt k 0x50 8) }

def val32 (w : W32) : Val := decodeElem FP32 w.toNat

def finite32 (w : W32) : Bool := isFinite (val32 w)

/-- 1.0 in FP32. -/
def one32 : W32 := 0x3F800000

/-- A finite value greater than 0. -/
def positive32 (w : W32) : Bool := finite32 w && ltVal (.fin false 0 0) (val32 w)

/-- The block's reserved bytes are zero and its fields in range; the clip fields are checked only by an arm with CLIP
(R234). -/
def hyperOk (k : List Byte) (armClip : Bool) : Bool :=
  let h := hyperOf k
  zeroAt k 0x4C 4 && zeroAt k 0x58 168 && decide (leAt k 0x48 4 < 2) &&
    h.sets.all (fun p => finite32 p.1 && finite32 p.2) &&
    [h.beta1, h.oneMBeta1, h.beta2, h.oneMBeta2, h.eps, h.bc1, h.bc2, h.gradScale].all finite32 &&
    (!armClip || (positive32 h.maxNorm && finite32 h.flagFactor && !ltVal (val32 h.flagFactor) (val32 one32)))

/-! ### One element (R235) -/

/-- The sign of a value: +1, -1, +0 for a zero, NaN for NaN. -/
def signVal : Val → Val
  | .nan => .nan
  | .inf n => .fin n 1 0
  | .fin n m _ => if m = 0 then .fin false 0 0 else .fin n 1 0

/-- What an element's update leaves: master, first and second moment, with its flags. -/
structure UpdOut where
  p : Val
  m : Val
  v : Val
  fl : W32

/-- The update of one element for the optimiser `opt`; every input has been read under FTZ. -/
def updElem (ftz : Bool) (hy : Hyper) (opt : Nat) (lr wd : Flagged Val) (k g p m v : Flagged Val) : UpdOut :=
  let r := fun (w : W32) => in32 ftz w.toNat
  let g1 := fmul ftz g k
  let m1 := fadd ftz (fmul ftz (r hy.beta1) m) (fmul ftz (r hy.oneMBeta1) g1)
  let a : Flagged Val × Flagged Val × Flagged Val := match opt with
    | 0 =>
      let v1 := fadd ftz (fmul ftz (r hy.beta2) v) (fmul ftz (r hy.oneMBeta2) (fmul ftz g1 g1))
      let den := fadd ftz (fsqrt ftz (fmul ftz v1 (r hy.bc2))) (r hy.eps)
      (fdiv ftz (fmul ftz m1 (r hy.bc1)) den, m1, v1)
    | 1 =>
      let m2 := fadd ftz (fmul ftz (r hy.beta2) m) (fmul ftz (r hy.oneMBeta2) g1)
      ((signVal m1.1, m1.2), m2, v)
    | _ => (if hy.nesterov then fadd ftz g1 (fmul ftz (r hy.beta1) m1) else m1, m1, v)
  let p1 := fsub ftz p (fmul ftz lr (fadd ftz a.1 (fmul ftz wd p)))
  ⟨p1.1, a.2.1.1, a.2.2.1, p1.2 ||| a.2.1.2 ||| (if opt = 0 then a.2.2.2 else 0)⟩

/-! ### Difference stream (Table 9.5) -/

/-- One record into the ring (R245). -/
def State.diffRecord (s : State) (b : Nat) (step : W32) (tensor : W32) (first count kind source : Nat) : State :=
  let tr := (s.bay b).train
  match tr.map with
  | none => s
  | some p =>
    if p.diffAddr = 0 then s
    else
      let mark := !tr.diffSteps.contains step
      let bytes := toLe 8 tr.diffSeq ++ toLe 4 step.toNat ++ toLe 4 tensor.toNat ++ toLe 4 first ++ toLe 4 count ++
        toLe 1 kind ++ toLe 1 source ++ toLe 1 (if mark then 1 else 0) ++ zeros 5
      let s := s.writeBay b (p.diffAddr + tr.diffSeq * 32 % p.diffLen) bytes
      s.setBay b (fun y => { y with train := { y.train with
        diffSeq := y.train.diffSeq + 1
        diffSteps := if mark then y.train.diffSteps ++ [step] else y.train.diffSteps } })

/-- The end-of-step record's TENSOR_ID. -/
def endTensor : W32 := 0xFFFFFFFF

/-- Blocks of a tensor of the shard. -/
def ShardMap.blocks (p : ShardMap) (t : TensorRec) : Nat := blocksOf (p.elems t)

/-- The segments of a tensor: first block and count per update unit with blocks (R233). -/
def ShardMap.segments (p : ShardMap) (t : TensorRec) : List (Nat × Nat) :=
  let u := (bitsSet p.updateMask).length
  ((List.range u).map (fun j => divide (p.blocks t) u j)).filter (fun x => decide (0 < x.2))

/-- The logical cluster whose update unit takes block `k` of a tensor (R233). -/
def ShardMap.unitOf (p : ShardMap) (t : TensorRec) (k : Nat) : Nat :=
  let us := bitsSet p.updateMask
  nth us ((List.range us.length).findIdx (fun j =>
    let x := divide (p.blocks t) us.length j
    decide (x.1 ≤ k) && decide (k < x.1 + x.2)))

/-- Runs of equal marks from a first block on: (mark, first, count). -/
def markRuns : Nat → List Bool → List (Bool × Nat × Nat)
  | _, [] => []
  | i, x :: xs => match markRuns (i + 1) xs with
    | (y, _, n) :: rest => if x = y then (x, i, n + 1) :: rest else (x, i, 1) :: (y, i + 1, n) :: rest
    | [] => [(x, i, 1)]

/-! ### State blocks (R224, R240) -/

/-- Elements of block `k` of a shard of `e` elements. -/
def blockElems (e k : Nat) : Nat := min 16384 (e - 16384 * k)

/-- The byte ranges of a block in master and moments. -/
def blockRanges (p : ShardMap) (t : TensorRec) (k : Nat) : List (Nat × Nat) :=
  let n := blockElems (p.elems t) k
  let mo := storedBytes t.mfmt (16384 * k)
  let mb := storedBytes t.mfmt n
  [(t.master + 65536 * k, 4 * n)] ++ (if t.opt < 3 then [(t.m1 + mo, mb)] else []) ++
    (if t.opt = 0 then [(t.m2 + mo, mb)] else [])

/-- Marks the state blocks a write has changed since the cut's step (R338). -/
def State.markDirty (s : State) (b : Nat) (blocks : List Nat) : State :=
  s.setBay b (fun y => { y with ckpt := { y.ckpt with cut := y.ckpt.cut.map (fun c =>
    if c.st == .held then { c with dirty := c.dirty ++ blocks.filter (fun k => !c.dirty.contains k) } else c) } })

/-- What an update works with: the step, the coefficient's k (R235), FTZ, stochastic rounding. -/
structure UpdCtx where
  step : W32
  hy : Hyper
  k : Flagged Val
  ftz : Bool
  stoch : Bool
  source : Nat

def updCtx (step : W32) (hy : Hyper) (c : W32) (ftz stoch : Bool) (source : Nat) : UpdCtx :=
  ⟨step, hy, fmul ftz (in32 ftz c.toNat) (in32 ftz hy.gradScale.toNat), ftz, stoch, source⟩

/-- A stored tensor read as operands under FTZ, after widening (R51). -/
def State.readOps (s : State) (b : Nat) (ftz : Bool) (fmt addr n : Nat) : List (Flagged Val) :=
  (decodeTensor fmt n (s.readBay b addr (storedBytes fmt n))).map (flush ftz FP32)

/-- Elements that an update unit applies per core cycle (R233). -/
def UpdCtx.rate (x : UpdCtx) (t : TensorRec) : Nat := if x.stoch && t.mfmt == 8 then 4 else 16

/-- A planned residue failure of the update unit: the block is recomputed from the operands it read, and the command
is CORRECTED (R240, R336). `unit` is the logical cluster of the unit. -/
def State.updateFault (s : State) (b adm n rate unit : Nat) : State :=
  match s.faults.update with
  | [] => s
  | t :: rest =>
    let s := { s with faults := { s.faults with update := rest } }
    if t = 0 then s
    else
      let cost := t * ceilDiv n rate
      let q := (s.phys unit).getD 0
      ((s.markCorrected adm).countBay b 4 cost).log1
        { Rec.blank with
          code := 0x0110, cls := 2, bay := b, kind := 5, die := q / 17, unit := q, sub := 1
          tag := s.tagOf (some adm), d0 := t, d1 := cost }

/-- Updates one block from its gradient elements, and marks it. -/
def State.updateBlock (s : State) (b adm : Nat) (x : UpdCtx) (p : ShardMap) (ti k : Nat) (gs : List Val) : State :=
  let t := nth p.tensors ti
  let n := blockElems (p.elems t) k
  let s := s.updateFault b adm n (x.rate t) (p.unitOf t k)
  let mo := storedBytes t.mfmt (16384 * k)
  let set := nth x.hy.sets t.hpSet
  let ps := s.readOps b x.ftz 1 (t.master + 65536 * k) n
  let ms := s.readOps b x.ftz t.mfmt (t.m1 + mo) n
  let vs := if t.opt = 0 then s.readOps b x.ftz t.mfmt (t.m2 + mo) n else List.replicate n (.fin false 0 0, 0)
  let outs := (List.range n).map (fun i =>
    updElem x.ftz x.hy t.opt (in32 x.ftz set.1.toNat) (in32 x.ftz set.2.toNat) x.k (flush x.ftz FP32 (nth gs i)) (nth ps i)
      (nth ms i) (nth vs i))
  let row := (t.rowsOf p.members p.thisMember).1 * t.rowLen + 16384 * k
  let draw := fun (j : Nat) =>
    if x.stoch then some (fun i => narrowDraw x.hy.seed x.step t.id (2 * (row + i) + j)) else none
  let pm := packRow x.ftz 1 none (outs.map (·.p))
  let mm := packRow x.ftz t.mfmt (draw 0) (outs.map (·.m))
  let vm := packRow x.ftz t.mfmt (draw 1) (outs.map (·.v))
  let s := (s.writeBay b (t.master + 65536 * k) pm.1).writeBay b (t.m1 + mo) mm.1
  let s := if t.opt = 0 then s.writeBay b (t.m2 + mo) vm.1 else s
  let fl := outs.foldl (fun a o => a ||| o.fl) (pm.2 ||| mm.2 ||| (if t.opt = 0 then vm.2 else 0))
  let s := (s.raise b fl).setBay b (fun y => { y with train := { y.train with done := y.train.done ++ [(ti, k)] } })
  s.markDirty b [p.firstBlock ti + k]

def Train.marked (tr : Train) (ti k : Nat) : Bool := tr.done.contains (ti, k)

/-- A tensor's APPLIED step. -/
def Train.appliedOf (tr : Train) (ti : Nat) : W32 := nth tr.applied ti

def ShardMap.live (p : ShardMap) : List Nat := (List.range p.tensors.length).filter (fun i => (nth p.tensors i).opt != 3)

/-- When every block of a tensor is marked, its APPLIED becomes the step and its marks clear; when the last tensor gets
there, the end-of-step record is written (R239, R240, R245). -/
def State.advance (s : State) (b : Nat) (p : ShardMap) (step : W32) (source ti : Nat) : State :=
  let tr := (s.bay b).train
  if (List.range (p.blocks (nth p.tensors ti))).all (fun k => tr.marked ti k) then
    let s := s.setBay b (fun y => { y with train := { y.train with
      applied := y.train.applied.set ti step
      done := y.train.done.filter (fun (d : Nat × Nat) => d.1 != ti) } })
    if p.live.all (fun i => (s.bay b).train.appliedOf i == step) then s.diffRecord b step endTensor 0 0 3 source else s
  else s

/-- The records of a segment after a run over it: one for the whole segment when it completed in this run (R245). -/
def State.segmentRecord (s : State) (b : Nat) (x : UpdCtx) (p : ShardMap) (ti : Nat) (seg : Nat × Nat) (before : Bool) : State :=
  let full := (List.range' seg.1 seg.2).all (fun k => (s.bay b).train.marked ti k)
  if full && !before then s.diffRecord b x.step (nth p.tensors ti).id seg.1 seg.2 0 x.source else s

/-- The records of an abort: KIND 0 for the marked blocks of an incomplete segment, KIND 1 for the rest (R245). -/
def State.abortRecords (s : State) (b : Nat) (x : UpdCtx) (p : ShardMap) : State :=
  let tr := (s.bay b).train
  (p.live.filter (fun ti => tr.appliedOf ti != x.step)).foldl (fun s ti =>
    (p.segments (nth p.tensors ti)).foldl (fun s seg =>
      let marks := (List.range' seg.1 seg.2).map (tr.marked ti)
      if marks.all id then s
      else (markRuns seg.1 marks).foldl (fun s r =>
        s.diffRecord b x.step (nth p.tensors ti).id r.2.1 r.2.2 (if r.1 then 0 else 1) x.source) s) s) s

/-- One block of a segment, unless it is marked, the run has stopped, or its limit is reached. -/
def State.stepBlock (b adm : Nat) (x : UpdCtx) (p : ShardMap) (limit : Nat) (ti : Nat) (grad : State → Nat → List Val)
    (gRange : Nat → List (Nat × Nat)) (a : State × Nat × Option Status) (k : Nat) : State × Nat × Option Status :=
  let s := a.1
  if a.2.2.isSome || (s.bay b).train.marked ti k then a
  else if limit ≤ a.2.1 then (s, a.2.1, some .aborted)
  else
    let rs := blockRanges p (nth p.tensors ti) k
    match s.ioStatus b (rs ++ gRange k) rs with
    | some st => (s, a.2.1, some st)
    | none => (s.updateBlock b adm x p ti k (grad s k), a.2.1 + 1, none)

/-- Every segment of a tensor, then its advance. -/
def State.runTensor (b adm : Nat) (x : UpdCtx) (p : ShardMap) (limit : Nat) (grad : Nat → State → Nat → List Val)
    (gRange : Nat → Nat → List (Nat × Nat)) (a : State × Nat × Option Status) (ti : Nat) : State × Nat × Option Status :=
  if a.2.2.isSome || (a.1.bay b).train.appliedOf ti == x.step then a
  else
    let r := (p.segments (nth p.tensors ti)).foldl (fun (a : State × Nat × Option Status) seg =>
      if a.2.2.isSome then a
      else
        let before := (List.range' seg.1 seg.2).all (fun k => (a.1.bay b).train.marked ti k)
        let r := (List.range' seg.1 seg.2).foldl (State.stepBlock b adm x p limit ti (grad ti) (gRange ti)) a
        (r.1.segmentRecord b x p ti seg before, r.2)) a
    if r.2.2.isSome then r else (r.1.advance b p x.step x.source ti, r.2)

/-! ### The exact norm (R241 to R244) -/

def NormAcc.zero : NormAcc := ⟨0, false, false⟩

/-- g^2 added exactly, in units of 2^-298. -/
def NormAcc.add (a : NormAcc) : Val → NormAcc
  | .nan => { a with nan := true }
  | .inf _ => { a with inf := true }
  | .fin _ m e => { a with sum := a.sum + m * m * 2 ^ (2 * e + 298).toNat }

def NormAcc.join (a c : NormAcc) : NormAcc := ⟨a.sum + c.sum, a.nan || c.nan, a.inf || c.inf⟩

/-- The norm: the root of the exact sum rounded once to FP32 (R241), with NAN_IN when an element was NaN and OVERFLOW_INF
when a finite sum has no finite norm (R68). -/
def NormAcc.norm (a : NormAcc) : Flagged W32 :=
  let v : Val := if a.nan then .nan else if a.inf then .inf false else sqrtVal (.fin false a.sum (-298))
  let r := roundVal FP32 .even v
  (BitVec.ofNat 32 (enc32 r.1), r.2)

/-- min(1, MAX_NORM / norm), formed by R64 and rounded (R242); a NaN norm is a NaN met (R68). -/
def clipCoef (maxNorm norm : W32) : Flagged W32 :=
  let r := roundVal FP32 .even (minVal (val32 one32) (divVal (val32 maxNorm) (val32 norm)))
  (BitVec.ofNat 32 (enc32 r.1), r.2 ||| flagIf (isNan (val32 norm)) Flag.nanIn)

/-- CLIPPED: the coefficient is below 1 (R243). -/
def clipped (c : W32) : Bool := ltVal (val32 c) (val32 one32)

/-- NORM_FLAG (R244). -/
def normFlag (hy : Hyper) (c norm : W32) : Bool :=
  !finite32 norm || ltVal (mulVal (val32 hy.flagFactor) (val32 hy.maxNorm)) (mulVal (val32 c) (val32 norm))

end Sys2Proof.Machine
end

