-- ==== Sys2Proof/Machine/Training.lean ====
section
/-!
DEFINITION. The training commands (R182, R222 to R246): SHARD_MAP_LOAD, STEP_GATHER and the arrival of gathered rows,
STEP_UPDATE, UPDATE_ON_ARRIVAL_ARM and the arrival of gradient segments, UPDATE_DISARM, NORM_CLIP, EXPORT_STREAM.
-/
namespace Sys2Proof.Machine

def State.setTrain (s : State) (b : Nat) (f : Train → Train) : State :=
  s.setBay b (fun y => { y with train := f y.train })

/-! ### SHARD_MAP_LOAD (R222 to R226) -/

def decodeTensorRec (k : List Byte) : TensorRec :=
  { id := BitVec.ofNat 32 (leAt k 0 4), kind := byteAt k 4, opt := byteAt k 5, mfmt := byteAt k 6, gfmt := byteAt k 7,
    rows := leAt k 8 4, rowLen := leAt k 0xC 4, units := leAt k 0x10 4, hpSet := byteAt k 0x14, master := leAt k 0x18 8,
    m1 := leAt k 0x20 8, m2 := leAt k 0x28 8, rgrad := leAt k 0x30 8, base := leAt k 0x38 8, omom := leAt k 0x40 8 }

def decodeMap (k : List Byte) : ShardMap :=
  { members := byteAt k 2, thisMember := byteAt k 3, group := leAt k 8 2, updateMask := BitVec.ofNat 32 (leAt k 0xC 4),
    step0 := BitVec.ofNat 32 (leAt k 0x10 4), diffAddr := leAt k 0x18 8, diffLen := leAt k 0x20 8,
    tensors := (chunks 128 (k.drop 64)).map decodeTensorRec, raw := k }

/-- A record's fields in range and its reserved bytes zero (Table 9.2). -/
def tensorOk (k : List Byte) : Bool :=
  let t := decodeTensorRec k
  zeroAt k 0x15 3 && zeroAt k 0x48 56 && decide (t.kind < 3) && decide (t.opt < 4) && (t.mfmt == 1 || t.mfmt == 8) &&
    (t.gfmt == 1 || t.gfmt == 2) && decide (0 < t.rows) && decide (0 < t.rowLen) && (t.mfmt == 1 || t.rowLen % 32 == 0) &&
    (if t.kind = 0 then t.units == 0 else decide (0 < t.units) && t.rows % t.units == 0) && decide (t.hpSet < 4)

/-- Which addresses are zero (Table 9.2, R223): all of them for a member without rows. -/
def addressesOk (p : ShardMap) (t : TensorRec) : Bool :=
  if p.elems t = 0 then [t.master, t.m1, t.m2, t.rgrad, t.base, t.omom].all (· == 0)
  else t.master != 0 && ((t.m1 == 0) == (t.opt == 3)) && ((t.m2 == 0) == (t.opt != 0)) && ((t.rgrad == 0) == (t.opt == 3)) &&
    ((t.omom == 0) == (t.base == 0))

/-- The header's fields in range (Table 9.1). -/
def mapHeaderOk (k : List Byte) (len : Nat) : Bool :=
  let p := decodeMap k
  leAt k 0 2 == 1 && decide (1 ≤ p.members) && decide (p.members ≤ 64) && decide (p.thisMember < p.members) &&
    decide (1 ≤ leAt k 4 4) && decide (leAt k 4 4 ≤ 65535) && len == 64 + 128 * leAt k 4 4 && zeroAt k 0xA 2 &&
    zeroAt k 0x14 4 && zeroAt k 0x28 24 && p.updateMask != 0 &&
    (if p.diffAddr = 0 then p.diffLen == 0
     else p.diffLen % 32 == 0 && decide (65536 ≤ p.diffLen) && decide (p.diffLen ≤ 2 ^ 36))

/-- Every piece of a range lies in tier 2 pages. -/
def State.inTier2Pages (s : State) (b a n : Nat) : Bool :=
  (pieces a n).all (fun r => match (s.bay b).pageAt r.1 with
    | some g => inTier2 (g.dpa + (r.1 - g.addr))
    | none => false)

/-- Ranges that must not overlap: every region, and the ring. -/
def ShardMap.ranges (p : ShardMap) : List (Nat × Nat) :=
  p.regions.map (·.2) ++ (if p.diffAddr = 0 then [] else [(p.diffAddr, p.diffLen)])

/-- The BAD_PARAM cases of R225. -/
def State.mapBad (s : State) (b : Nat) (k : List Byte) (len : Nat) : Bool :=
  let p := decodeMap k
  !mapHeaderOk k len || !(chunks 128 (k.drop 64)).all tensorOk || !p.tensors.all (addressesOk p) ||
    decide ((p.tensors.map (·.id)).eraseDups.length ≠ p.tensors.length) ||
    p.ranges.any (fun r => decide (r.1 % 64 ≠ 0) || decide (r.1 < 2 ^ 30) || decide (2 ^ 47 < r.1 + r.2)) ||
    anyMeet p.ranges ||
    (match (s.bay b).formed? p.group with
      | some g => g.ranks.length != 1 || g.blk.members != p.members || g.blk.thisMember != p.thisMember
      | none => true) ||
    decide ((p.updateMask &&& ~~~(s.bay b).bind.clusters) ≠ 0) ||
    (p.diffAddr != 0 && !s.inTier2Pages b p.diffAddr p.diffLen)

/-- A reduced-gradient region may be unmapped; a mapped page of it must be writable and no KERF page (R225). -/
def State.rgradOk (s : State) (b a n : Nat) : Bool :=
  (pieces a n).all (fun r => match (s.bay b).pageAt r.1 with
    | some g => g.allows .wr
    | none => true)

/-- The ACCESS_DENIED cases of R225. -/
def State.mapDenied (s : State) (b : Nat) (p : ShardMap) : Bool :=
  p.regions.any (fun r => if r.1 = 3 then !s.rgradOk b r.2.1 r.2.2 else !s.rangeOk b .wr r.2.1 r.2.2)

/-- Commands of opcode group 0x03. -/
def isTraining : Instr → Bool
  | .stepGather _ _ _ => true | .stepUpdate _ _ _ _ _ => true | .updateArm _ _ _ _ _ => true | .updateDisarm _ _ => true
  | .normClip _ _ _ _ => true | .shardMapLoad _ _ _ => true | _ => false

/-- Another group 0x03 command of the bay is in flight. -/
def State.trainingBusy (s : State) (b adm : Nat) : Bool :=
  s.cmds.any (fun c => c.ofBay b && !c.finished? && c.adm != adm && isTraining c.instr)

/-- The training state of a newly loaded map, every tensor's APPLIED at a step (R226). -/
def Train.load (tr : Train) (p : ShardMap) (applied : W32) : Train :=
  { tr with
    map := some p, applied := p.tensors.map (fun _ => applied), done := [], reuse := [], stale := [], clipRec := none,
    lastNorm := none, arm := none, gathers := [], gatherCount := [], earlyRows := [], norms := [], normCount := 0,
    earlyNorms := [], diffSeq := 0, diffSteps := [], mapGen := tr.mapGen + 1 }

def State.mapLoadEff (b adm addr len : Nat) (s : State) : Eff :=
  match s.ioStatus b [(addr, len)] [] with
  | some st => (s, st, 0)
  | none =>
    let k := s.readBay b addr len
    let p := decodeMap k
    if s.mapBad b k len then (s, .badParam, 0)
    else if s.mapDenied b p then (s, .accessDenied, 0)
    else if s.trainingBusy b adm || (s.bay b).train.arm.isSome || (s.bay b).join.isSome then (s, .conflict, 0)
    else (s.setTrain b (fun tr => tr.load p (p.step0 - 1)), .ok, p.tensors.length + p.members * 2 ^ 16)

/-- SHARD_MAP_LOAD (Table 7.6). -/
def execShardMapLoad (h : Hdr) (addr len : Nat) (s : State) : Host.Outcome State Fault Refusal :=
  .next (s.onRunning (.shardMapLoad h addr len) (fun c =>
    match c.bay? with
    | some b => s.completeIn h.adm b [(addr, len)] (State.mapLoadEff b h.adm addr len)
    | none => s))

/-! ### STEP_GATHER (R227 to R231) -/

/-- Stored bytes of one row of an entry. -/
def gatherRowBytes (p : ShardMap) (e : GatherEntry) : Nat := match p.tensor? e.tensorId with
  | some t => storedBytes e.fmt t.rowLen
  | none => 0

/-- Where row `i` of an entry lands: every destination address (Table 9.3). -/
def rowDests (e : GatherEntry) (i : Nat) : List Nat :=
  (if e.mcast = 0 then [e.dst] else (bitsSet e.mcast).map (fun c => c * 2 ^ 25 + e.dst)).map (· + i * e.dstStride)


/-- Whether a destination lies with another member: a fabric address that does not name this one (R126, R127). -/
def isRemote (p : ShardMap) (a : Nat) : Bool := isFabric a && fabricMember a != p.thisMember

/-- The local bay address of a destination that is not remote. -/
def localAddr (a : Nat) : Nat := if isFabric a then fabricBay a else a

/-- Every local destination range of an entry. -/
def entryDests (p : ShardMap) (e : GatherEntry) : List (Nat × Nat) :=
  if isRemote p e.dst then []
  else ((List.range e.rowCount).map (fun i => (rowDests e i).map (fun a => (localAddr a, gatherRowBytes p e)))).flatten

/-- The field checks of R228. -/
def gatherEntryCheck (p : ShardMap) (e : GatherEntry) : Option Status :=
  match p.tensor? e.tensorId with
  | none => some .badParam
  | some t =>
    let row := storedBytes e.fmt t.rowLen
    if !([1, 2, 3, 4, 5, 8].contains e.fmt) ∨ (e.fmt = 8 ∧ t.rowLen % 32 ≠ 0) ∨ e.rowCount = 0 ∨
        t.rows < e.firstRow + e.rowCount ∨ e.dstStride < row ∨
        (e.mcast ≠ 0 ∧ 2 ^ 25 < e.dst + (e.rowCount - 1) * e.dstStride + row) ∨
        (e.mcast = 0 ∧ !isBayAddr e.dst ∧ !isFabric e.dst) then
      some .badParam
    else if e.dst % 64 ≠ 0 ∨ e.dstStride % 64 ≠ 0 then some .badAlign
    else none

/-- R228's checks; every BAD_PARAM breach comes before any BAD_ALIGN. -/
def gatherCheck (p : ShardMap) (es : List GatherEntry) : Option Status :=
  if es.isEmpty ∨ 1024 < es.length then some .badParam
  else
    let sts := es.map (gatherEntryCheck p)
    if sts.contains (some .badParam) then some .badParam
    else if sts.contains (some .badAlign) then some .badAlign
    else none

/-- A record of the reuse table that an entry with REUSE equals (R231). -/
def Train.reusable (tr : Train) (step : W32) (e : GatherEntry) : Bool :=
  e.reuse && tr.reuse.any (fun r => r.entry == e && r.step == step)

/-- This member's rows of an entry: first row and count. -/
def ownRows (p : ShardMap) (t : TensorRec) (e : GatherEntry) : Nat × Nat :=
  let r := t.rowsOf p.members p.thisMember
  let lo := max e.firstRow r.1
  let hi := min (e.firstRow + e.rowCount) (r.1 + r.2)
  (lo, hi - lo)

/-- Rows of this member's master narrowed to a format, each row by itself; the narrowing never flushes (R51, R229). -/
def State.narrowRows (s : State) (b : Nat) (p : ShardMap) (t : TensorRec) (fmt first n : Nat) : List (Flagged (List Byte)) :=
  let at_ := t.master + 4 * t.rowLen * (first - (t.rowsOf p.members p.thisMember).1)
  (List.range n).map (fun i =>
    packRow false fmt none (decodeTensor 1 t.rowLen (s.readBay b (at_ + 4 * t.rowLen * i) (4 * t.rowLen))))

def State.setGather (s : State) (b adm : Nat) (f : Gather → Gather) : State :=
  s.setTrain b (fun tr => { tr with gathers := tr.gathers.map (fun g => if g.adm = adm then f g else g) })

def State.gather? (s : State) (b adm : Nat) : Option Gather := (s.bay b).train.gathers.find? (·.adm == adm)

/-- Rows of an entry that have come. -/
def Gather.gotOf (g : Gather) (i : Nat) : Nat := ((g.got.filter (·.1 == i)).map (·.2.2)).sum

/-- Rows of an entry that have come back from where the allgather returns them. -/
def Gather.backOf (g : Gather) (i : Nat) : Nat := ((g.back.filter (·.1 == i)).map (·.2.2)).sum

/-- The rows of a segment are among those listed. -/
def holdsRows (l : List (Nat × Nat × Nat)) (i first : Nat) : Bool := l.any (fun r => r.1 == i && r.2.1 == first)

def Gather.entryDone (g : Gather) (i : Nat) : Bool := decide ((nth g.entries i).rowCount ≤ g.gotOf i)

/-- How the rows of an entry travel: an allgather by size over one rank per member, in which the bucketed form is the tree
over members (R229, R264, R267, log 30). -/
def gatherNet (g : Group) (p : ShardMap) (e : GatherEntry) : Net :=
  let len := match p.tensor? e.tensorId with
    | some t => t.rowLen
    | none => 0
  ⟨0x0401, if algoOf g (elemBytes e.fmt (e.rowCount * len)) 0 = 1 then 1 else 0, p.members, 1, 0⟩

/-- A row written to the member that holds its destination: a transfer whose end the gather waits for; ACCESS_DENIED where
the address names no member (R126, R229, log 25). -/
def State.putRemote (s : State) (b adm : Nat) (p : ShardMap) (a : Nat) (bs : List Byte) : State :=
  let m := fabricMember a
  match (s.bay b).formed? p.group with
  | some g =>
    if m < p.members then
      let cs := cutChunks (fabricBay a) bs.length
      let x : Xfer := ⟨some adm, none, p.group, 1, none, some m, 0, fabricBay a, cs, [], []⟩
      let s := (s.setBay b (fun y => { y with xfers := y.xfers ++ [x] })).setGather b adm (fun g =>
        { g with puts := g.puts + 1 })
      cs.zipIdx.foldl (fun s c =>
        s.sendTo b g (some (g.ranks.headD 0)) (some adm) m 1 0 (fabricBay a + c.1.1) c.2 (slice bs c.1.1 c.1.2)) s
    else s.setGather b adm (fun g => { g with bad := g.bad.or (some .accessDenied) })
  | none => s.setGather b adm (fun g => { g with bad := g.bad.or (some .accessDenied) })

/-- A row written at a destination: here, or at the member that holds it (R126, R229). -/
def State.putRow (s : State) (b adm : Nat) (p : ShardMap) (a : Nat) (bs : List Byte) : State :=
  if isRemote p a then s.putRemote b adm p a bs else s.writeBay b (localAddr a) bs

/-- Rows of an entry land at their destinations; those of a reused entry do not. An entry received in full joins the reuse
table, which keeps the last 256, unless a later command writes its destination (R231). -/
def State.landRows (s : State) (b adm i first : Nat) (rows : List (List Byte)) (received : Bool) : State :=
  match s.gather? b adm, (s.bay b).train.map with
  | some g, some p =>
    if holdsRows g.got i first then s
    else
      let e := nth g.entries i
      let skip := g.reused.contains i
      let s := if skip then s else rows.zipIdx.foldl (fun s r =>
        (rowDests e (first - e.firstRow + r.2)).foldl (fun s a => s.putRow b adm p a r.1) s) s
      let bytes := if received && !skip then (rows.map (·.length)).sum else 0
      let s := s.setGather b adm (fun g => { g with
        got := g.got ++ [(i, first, rows.length)], bytes := g.bytes + bytes })
      let s := s.setSlot adm (fun c => { c with work := c.work + bytes })
      match s.gather? b adm with
      | some g =>
        if g.entryDone i && !skip then
          s.setTrain b (fun tr =>
            let rs := if tr.stale.contains (adm, i) then tr.reuse else tr.reuse ++ [⟨{ e with reuse := true }, g.step⟩]
            { tr with reuse := rs.drop (rs.length - 256) })
        else s
      | none => s
  | _, _ => s

/-- Destination ranges of the entries. -/
def Gather.outs (g : Gather) (p : ShardMap) : List (Nat × Nat) := (g.entries.map (entryDests p)).flatten

/-- Every member's matching command has been seen, every row has come and, where the allgather returns it, come back, this
member's rows have gone, and every write to another member is answered (R227, R229). -/
def Gather.complete? (g : Gather) (p : ShardMap) (grp : Option Group) : Bool :=
  let is := List.range g.entries.length
  let peers := (List.range p.members).filter (· != p.thisMember)
  g.puts == 0 && peers.all (fun m => is.all (fun i => g.heard.contains (m, i))) &&
    is.all (fun i => g.entryDone i && g.sent.contains i && (match grp with
      | some x => !(gatherNet x p (nth g.entries i)).hasReturn p.thisMember ||
          decide ((nth g.entries i).rowCount ≤ g.backOf i)
      | none => true))

/-- A gather leaves the training state. -/
def State.dropGather (s : State) (b adm : Nat) : State :=
  s.setTrain b (fun tr => { tr with
    gathers := tr.gathers.filter (fun g => g.adm != adm), stale := tr.stale.filter (fun x => x.1 != adm) })

/-- A gather that is complete ends, with the first failure of its writes. -/
def State.settleGather (s : State) (b adm : Nat) : State :=
  match s.gather? b adm, (s.bay b).train.map with
  | some g, some p =>
    if g.complete? p ((s.bay b).formed? p.group) then
      let st := g.bad.getD (s.outStatus b (g.outs p) .ok)
      (s.dropGather b adm).finishNat adm st g.bytes
    else s
  | _, _ => s

/-- A write to another member has been answered (R126). -/
def State.gatherPut (s : State) (b adm : Nat) (st : Status) : State :=
  (s.setGather b adm (fun g => { g with
    puts := g.puts - 1, bad := if st.success then g.bad else g.bad.or (some st) })).settleGather b adm

/-- A gather ends with a failure. -/
def State.failGather (s : State) (b adm : Nat) (st : Status) (bytes : Nat) : State :=
  (s.dropGather b adm).finishNat adm st bytes

/-- A segment of a gather leaves for a member, from the cluster of the group's rank (R229, R266). -/
def State.sendGather (s : State) (b adm : Nat) (p : ShardMap) (g : Group) (x : GatherSeg) (m : Nat) : State :=
  let len := match p.tensor? x.want.tensorId with
    | some t => t.rowLen
    | none => 0
  let x := { x with member := p.thisMember }
  (s.emit (.gatherSeg m x)).sendMsg b g (some (g.ranks.headD 0)) (some adm) m x.vc 4 (x.firstRow * len % 2 ^ 48) x.entry
    x.rows.flatten

/-- Rows of an entry, this member's own or from a member: they land, and go on by the route of the allgather. -/
def State.spreadRows (s : State) (b adm : Nat) (x : GatherSeg) (src : Option Nat) : State :=
  match s.gather? b adm, (s.bay b).train.map with
  | some g, some p =>
    match (s.bay b).formed? p.group, p.tensor? x.want.tensorId with
    | some grp, some t =>
      let net := gatherNet grp p x.want
      let me := p.thisMember
      let back := net.isReturn me src
      if (if back then holdsRows g.back x.entry x.firstRow else src.isSome && holdsRows g.got x.entry x.firstRow) then s
      else
        let s := s.landRows b adm x.entry x.firstRow x.rows src.isSome
        let s := if back then s.setGather b adm (fun g => { g with
            back := g.back ++ [(x.entry, x.firstRow, x.rows.length)] }) else s
        (net.routes me (t.ownerOf p.members x.firstRow) src).foldl
          (fun s m => s.sendGather b adm p grp { x with vc := net.vc me m } m) s
    | _, _ => s.landRows b adm x.entry x.firstRow x.rows src.isSome
  | _, _ => s

/-- Narrows this member's rows of an entry, lands them here and sends them on, once APPLIED allows; a member without rows
of the entry sends none, and a frozen tensor's rows have no update to wait for (R230, log 30). -/
def State.sendEntry (b adm : Nat) (s : State) (i : Nat) : State :=
  match s.gather? b adm, (s.bay b).train.map with
  | some g, some p =>
    let e := nth g.entries i
    match p.tensor? e.tensorId with
    | none => s
    | some t =>
      let ap := (s.bay b).train.appliedOf (p.tensors.findIdx (·.id == e.tensorId))
      let own := ownRows p t e
      if g.sent.contains i then s
      else if own.2 = 0 then s.setGather b adm (fun g => { g with sent := g.sent ++ [i] })
      else if t.opt != 3 && serialBefore ap (g.step - 1) then s
      else
        let src := [(t.master + 4 * t.rowLen * (own.1 - (t.rowsOf p.members p.thisMember).1), 4 * t.rowLen * own.2)]
        match s.ioStatus b src [] with
        | some st =>
          (if st = .machineCheck then s.logBadReads b .rd (s.tagOf (some adm)) src else s).failGather b adm st g.bytes
        | none =>
          let late := t.opt != 3 && ap != g.step - 1
          let rows := s.narrowRows b p t e.fmt own.1 own.2
          let s := if late && !g.late then s.countBay b 6 1 else s
          let s := s.raise b (orFlags rows)
          let s := s.setGather b adm (fun g => { g with sent := g.sent ++ [i], late := g.late || late })
          s.spreadRows b adm ⟨b, g.step, g.index, i, e, p.thisMember, g.entries.length, 1, own.1, rows.map (·.1)⟩ none
  | _, _ => s

/-- Tells every other member of the entries of a gather that has been dispatched (R227, log 30). -/
def State.announceGather (s : State) (b : Nat) (g : Gather) : State :=
  match (s.bay b).train.map with
  | some p =>
    match (s.bay b).formed? p.group with
    | some grp =>
      grp.peers.foldl (fun s m => g.entries.zipIdx.foldl (fun s e =>
        s.sendGather b g.adm p grp ⟨b, g.step, g.index, e.2, e.1, p.thisMember, g.entries.length, 1, 0, []⟩ m) s) s
    | none => s
  | none => s

/-- Sends what a gather's source side may send now, and completes the gather when it is done. -/
def State.pumpGather (b : Nat) (s : State) (adm : Nat) : State :=
  match s.gather? b adm with
  | none => s
  | some g => ((List.range g.entries.length).foldl (State.sendEntry b adm) s).settleGather b adm

/-- Every gather that waits on an APPLIED step (R230, R239). -/
def State.pumpGathers (s : State) (b : Nat) : State :=
  ((s.bay b).train.gathers.map (·.adm)).foldl (State.pumpGather b) s

/-- The fields in which matched entries must agree (R227). -/
def sameEntry (a c : GatherEntry) : Bool :=
  a.tensorId == c.tensorId && a.fmt == c.fmt && a.firstRow == c.firstRow && a.rowCount == c.rowCount

/-- A segment for a dispatched gather: it must match; an announcement is noted, rows land and go on. -/
def State.takeRows (s : State) (x : GatherSeg) : State :=
  match (s.bay x.bay).train.gathers.find? (fun g => g.step == x.step && g.index == x.index) with
  | none => s
  | some g =>
    if g.entries.length ≠ x.count ∨ x.count ≤ x.entry ∨ !sameEntry (nth g.entries x.entry) x.want then
      s.mismatch x.bay (((s.bay x.bay).mapGroup).getD 0)
    else
      (if x.rows.isEmpty then s.setGather x.bay g.adm (fun g => { g with heard := g.heard ++ [(x.member, x.entry)] })
      else s.spreadRows x.bay g.adm x (some x.member)).settleGather x.bay g.adm

/-- The packets that carried a message of a member leave the receive buffer (R254). -/
def State.freeMsg (s : State) (typ b group member : Nat) : State :=
  match (s.bay b).formed? group with
  | some g => s.takeMsg typ b group (fun k => k.snode == g.node member)
  | none => s

/-- GATHER_SEGMENT: a segment for a gather that is not dispatched yet waits for it (R227, R229). -/
def execGatherSegment (g : GatherSeg) (s : State) : Host.Outcome State Fault Refusal :=
  let s := s.freeMsg 4 g.bay (((s.bay g.bay).mapGroup).getD 64) g.member
  .next (if (s.bay g.bay).train.gathers.any (fun x => x.step == g.step && x.index == g.index) then s.takeRows g
  else s.setTrain g.bay (fun tr => { tr with earlyRows := tr.earlyRows ++ [g] }))

/-- STEP_GATHER (Table 7.6). -/
def execStepGather (h : Hdr) (step : W32) (entries : List GatherEntry) (s : State) : Host.Outcome State Fault Refusal :=
  .next (s.onRunning (.stepGather h step entries) (fun c =>
    match c.bay? with
    | none => s
    | some b =>
      match (s.bay b).train.map with
      | none => s.fail h.adm .notBound
      | some p =>
        match gatherCheck p entries with
        | some st => s.fail h.adm st
        | none =>
          let tr := (s.bay b).train
          let idx := entries.zipIdx
          let reused := idx.filter (fun e => tr.reusable step e.1)
          let fresh := idx.filter (fun e => !tr.reusable step e.1)
          if (fresh.map (fun e => entryDests p e.1)).flatten.any (fun r => !s.rangeOk b .wr r.1 r.2) then
            s.fail h.adm .accessDenied
          else
            let g : Gather := ⟨h.adm, step, c.index, entries, reused.map (·.2), [], [], [], 0, [], false, 0, none⟩
            let mine := fun (x : GatherSeg) => x.step == step && x.index == c.index
            let early := tr.earlyRows.filter mine
            let s := (s.setActive h.adm).countBay b 7 reused.length
            let s := s.setTrain b (fun tr => { tr with
              gathers := tr.gathers ++ [g], earlyRows := tr.earlyRows.filter (fun x => !mine x) })
            early.foldl (fun s x => s.takeRows x) (State.pumpGather b (s.announceGather b g) h.adm)))

/-! ### STEP_UPDATE (R237, R239, R240, R243) -/

/-- Stored ranges of a block's reduced gradient. -/
def gradRange (p : ShardMap) (ti k : Nat) : List (Nat × Nat) :=
  let t := nth p.tensors ti
  let sz := storedBytes t.gfmt 1
  [(t.rgrad + 16384 * k * sz, sz * blockElems (p.elems t) k)]

def State.gradOf (b : Nat) (p : ShardMap) (ti : Nat) (s : State) (k : Nat) : List Val :=
  let t := nth p.tensors ti
  let n := blockElems (p.elems t) k
  decodeTensor t.gfmt n (s.readBay b (t.rgrad + 16384 * k * storedBytes t.gfmt 1) (storedBytes t.gfmt n))

/-- Every non-frozen tensor's APPLIED is S - 1 or S (R239). -/
def Train.stepFits (tr : Train) (p : ShardMap) (step : W32) : Bool :=
  p.live.all (fun i => tr.appliedOf i == step - 1 || tr.appliedOf i == step)

/-- The sweep up to a limit of blocks: the state, the blocks updated and what stopped it. A sweep that fails before it
has updated a block leaves no record (log 33). -/
def State.sweep (b adm : Nat) (x : UpdCtx) (p : ShardMap) (limit : Nat) (s : State) : State × Nat × Option Status :=
  let r := p.live.foldl (State.runTensor b adm x p limit (fun ti => State.gradOf b p ti) (gradRange p)) (s, 0, none)
  ((if r.2.2 == some .aborted || (r.2.2.isSome && decide (0 < r.2.1)) then r.1.abortRecords b x p else r.1).pumpGathers b,
    r.2)

/-- The ranges of the state regions and reduced gradients of the loaded map. -/
def State.mapReads (s : State) (b : Nat) : List (Nat × Nat) := match (s.bay b).train.map with
  | some p => p.regions.map (·.2)
  | none => []

/-- The checks of a STEP_UPDATE at dispatch and the sweep; `limit` bounds the blocks that an abort lets through. -/
def State.stepUpdateEff (b : Nat) (c : Slot) (hp : Nat) (step : W32) (clip stoch : Bool) (limit : Nat) (s : State) : Eff :=
  let tr := (s.bay b).train
  match tr.map with
  | none => (s, .notBound, 0)
  | some p =>
    match s.ioStatus b [(hp, 256)] [] with
    | some st => (s, st, 0)
    | none =>
      let k := s.readBay b hp 256
      let coef : Option W32 := if clip then (match tr.clipRec with
        | some (st, cf) => if st = step then some cf else none
        | none => none) else some one32
      if tr.arm.isSome then (s, .conflict, 0)
      else
        match coef with
        | none => (s, .badParam, 0)
        | some cf =>
          if !hyperOk k false || !tr.stepFits p step then (s, .badParam, 0)
          else
            let r := s.sweep b c.adm (updCtx step (hyperOf k) cf c.ftz stoch 0) p limit
            let res := r.2.1 + bit (clip && clipped cf) 32
            (r.1, r.2.2.getD .ok, res)

/-- STEP_UPDATE (Table 7.6). -/
def execStepUpdate (h : Hdr) (hpAddr : Nat) (step : W32) (clip stoch : Bool) (s : State) :
    Host.Outcome State Fault Refusal :=
  .next (s.onRunning (.stepUpdate h hpAddr step clip stoch) (fun c =>
    match c.bay? with
    | some b =>
      s.completeIn h.adm b ((hpAddr, 256) :: s.mapReads b) (State.stepUpdateEff b c hpAddr step clip stoch (2 ^ 64))
    | none => s))

/-! ### Norms over the group (R241, R242) -/

/-- The partial norm of this member from its reduced-gradient regions. -/
def State.regionNorm (s : State) (b : Nat) (p : ShardMap) : NormAcc :=
  p.live.foldl (fun a ti =>
    let t := nth p.tensors ti
    let n := p.elems t
    (decodeTensor t.gfmt n (s.readBay b t.rgrad (storedBytes t.gfmt n))).foldl NormAcc.add a) NormAcc.zero

def gradRanges (p : ShardMap) : List (Nat × Nat) :=
  (p.regions.filter (fun r => r.1 == 3)).map (·.2)

/-- A partial norm sent to a member, as a segment of the norm's exchange (R241). -/
def normSeg (b group index member : Nat) (opcode : Nat) (a : NormAcc) : CollSeg :=
  { (default : CollSeg) with
    bay := b, group := group, index := index, member := member, vc := 1, opcode := opcode,
    elems := [a.sum, bit a.nan 0, bit a.inf 0] }

/-- This member's partial norm leaves for every other member on VC1: the 704-bit sum and what was met (R241). -/
def State.sendNorm (s : State) (b adm : Nat) (p : ShardMap) (index opcode : Nat) (a : NormAcc) : State :=
  match (s.bay b).formed? p.group with
  | some g => g.peers.foldl (fun s m =>
      (s.emit (.collSeg m (normSeg b p.group index p.thisMember opcode a))).sendMsg b g (some (g.ranks.headD 0)) (some adm) m
        1 3 0 (index % 65536) (toLe 88 a.sum ++ toLe 1 (bit a.nan 0 + bit a.inf 1))) s
  | none => s

/-- Partial norms combined in ascending member order (R241). -/
def totalNorm (ns : List (Nat × NormAcc)) : NormAcc :=
  (sortBy (fun a c => decide (a.1 ≤ c.1)) ns).foldl (fun a n => a.join n.2) NormAcc.zero

/-- NORM_CLIP completes when every member's partial norm is here. -/
def State.settleNorm (s : State) (b : Nat) (w : NormWait) (p : ShardMap) : State :=
  if w.norms.length < p.members then s
  else
    let nf := (totalNorm w.norms).norm
    let norm := nf.1
    let cf := (clipCoef w.maxNorm norm).1
    let s := s.raise b (nf.2 ||| (clipCoef w.maxNorm norm).2)
    let s := s.setTrain b (fun tr => { tr with
      norms := tr.norms.filter (fun (n : NormWait) => n.adm != w.adm)
      clipRec := some (w.step, cf)
      lastNorm := some (w.step, norm) })
    s.finishNat w.adm .ok (norm.toNat + cf.toNat * 2 ^ 32)

/-- The arm completes when every segment is in and the norm is formed (R238, R244). -/
def State.settleArm (s : State) (b : Nat) (p : ShardMap) : State :=
  match (s.bay b).train.arm with
  | none => s
  | some a =>
    if a.norms.length < p.members then s
    else
      let nf := (totalNorm a.norms).norm
      let norm := nf.1
      let s := s.raise b nf.2
      let s := s.setTrain b (fun tr => { tr with arm := none, lastNorm := some (a.step, norm) })
      s.finishNat a.adm .ok (norm.toNat + bit (a.clip && normFlag a.hyper a.coef norm) 32 + bit (a.clip && clipped a.coef) 33)

/-- A member's partial norm arrives: for a NORM_CLIP, for the arm, or ahead of both. -/
def State.takeNorm (s : State) (b index member : Nat) (a : NormAcc) : State :=
  let tr := (s.bay b).train
  match tr.map with
  | none => s
  | some p =>
    match tr.norms.find? (·.index == index) with
    | some w =>
      if w.norms.any (·.1 == member) then s
      else
        let w := { w with norms := w.norms ++ [(member, a)] }
        (s.setTrain b (fun tr => { tr with norms := tr.norms.map (fun (n : NormWait) => if n.adm = w.adm then w else n) })).settleNorm b w p
    | none =>
      match tr.arm with
      | some m =>
        if m.index = index then
          if m.norms.any (·.1 == member) then s
          else
            (s.setTrain b (fun tr => { tr with arm := tr.arm.map (fun (m : Arm) => { m with norms := m.norms ++ [(member, a)] }) })).settleArm b p
        else s.setTrain b (fun tr => { tr with earlyNorms := tr.earlyNorms ++ [(index, member, a)] })
      | none => s.setTrain b (fun tr => { tr with earlyNorms := tr.earlyNorms ++ [(index, member, a)] })

/-- Takes the early partial norms of an exchange. -/
def State.takeEarlyNorms (s : State) (b index : Nat) : State :=
  let early := (s.bay b).train.earlyNorms.filter (fun e => e.1 == index)
  let s := s.setTrain b (fun tr => { tr with
    earlyNorms := tr.earlyNorms.filter (fun (e : Nat × Nat × NormAcc) => e.1 != index) })
  early.foldl (fun s e => s.takeNorm b index e.2.1 e.2.2) s

/-- NORM_CLIP (Table 7.6). -/
def execNormClip (h : Hdr) (group : Nat) (step maxNorm : W32) (s : State) : Host.Outcome State Fault Refusal :=
  .next (s.onRunning (.normClip h group step maxNorm) (fun c =>
    match c.bay? with
    | none => s
    | some b =>
      match (s.bay b).train.map with
      | none => s.fail h.adm .notBound
      | some p =>
        match s.ioStatus b (gradRanges p) [] with
        | some st => s.failIn h.adm b (gradRanges p) st
        | none =>
          if group ≠ p.group ∨ !positive32 maxNorm then s.fail h.adm .badParam
          else
            let a := s.regionNorm b p
            let w : NormWait := ⟨h.adm, step, maxNorm, c.index, [(p.thisMember, a)]⟩
            let s := (s.setActive h.adm).setTrain b (fun tr => { tr with norms := tr.norms ++ [w] })
            let s := s.sendNorm b h.adm p c.index 0x0320 a
            (s.settleNorm b w p).takeEarlyNorms b c.index))

/-! ### The arm (R238, R239, R244) -/

/-- The arm's coefficient, decided at its dispatch (R244). -/
def armCoef (tr : Train) (hy : Hyper) (step : W32) (clip : Bool) : Flagged W32 :=
  if !clip then (one32, 0)
  else match tr.lastNorm with
    | some (st, norm) => if st = step - 1 then clipCoef hy.maxNorm norm else (one32, 0)
    | none => (one32, 0)

/-- Tensors whose segments the arm waits for. -/
def ShardMap.armed (p : ShardMap) : List W32 :=
  (p.live.filter (fun i => decide (0 < p.elems (nth p.tensors i)))).map (fun i => (nth p.tensors i).id)

/-- Tensors of which this member has no rows have no block left to update: their APPLIED advances with the others'
(R239, log 33). -/
def State.advanceEmpty (s : State) (b : Nat) (p : ShardMap) (step : W32) : State :=
  (p.live.filter (fun i => p.elems (nth p.tensors i) == 0)).foldl (fun s i =>
    if (s.bay b).train.appliedOf i == step then s else s.advance b p step 1 i) s

/-- When every segment has been applied, the arm's own partial norm is sent. -/
def State.armNorm (s : State) (b : Nat) (p : ShardMap) : State :=
  match (s.bay b).train.arm with
  | none => s
  | some a =>
    if p.armed.all (fun i => a.delivered.contains i) && !a.norms.any (fun n => n.1 == p.thisMember) then
      let s := s.setTrain b (fun tr => { tr with
        arm := tr.arm.map (fun (m : Arm) => { m with norms := m.norms ++ [(p.thisMember, a.acc)] }) })
      ((s.advanceEmpty b p a.step).sendNorm b a.adm p a.index 0x0311 a.acc).settleArm b p
    else s

/-- A tensor's reduced segment is applied under the arm. -/
def State.applySegment (s : State) (b : Nat) (p : ShardMap) (a : Arm) (t : TensorRec) (gs : List Val) : State :=
  let ti := p.tensors.findIdx (·.id == t.id)
  let ftz := match s.slot? a.adm with
    | some c => c.ftz
    | none => false
  let x := updCtx a.step a.hyper a.coef ftz false 1
  let s := s.setTrain b (fun tr => { tr with arm := tr.arm.map (fun (m : Arm) =>
    { m with begun := true, delivered := m.delivered ++ [t.id], acc := gs.foldl NormAcc.add m.acc }) })
  let r := State.runTensor b a.adm x p (2 ^ 64) (fun _ _ k => slice' gs (16384 * k) (blockElems (p.elems t) k))
    (fun _ _ => []) (s, 0, none) ti
  match r.2.2 with
  | some st =>
    ((r.1.abortRecords b x p).setTrain b (fun tr => { tr with arm := none })).failIn a.adm b (s.mapReads b) st
  | none => (r.1.pumpGathers b).armNorm b p
where slice' (gs : List Val) (i n : Nat) : List Val := (gs.drop i).take n

/-- The segment of a tensor that a pending arm takes: its arm, when the arm has not had the tensor before (R238). -/
def Train.armFor (tr : Train) (id : W32) : Option Arm := match tr.arm with
  | some a => if a.delivered.contains id then none else some a
  | none => none

/-- UPDATE_SEGMENT_ARRIVAL: a tensor's reduced segment, as elements in GFMT, reaches the update units; while a cut is
copied it waits outside (R322). -/
def execUpdateSegmentArrival (bay : Nat) (tensorId : W32) (elems : List Nat) (s : State) :
    Host.Outcome State Fault Refusal :=
  .next (match (s.bay bay).train.map, (s.bay bay).train.armFor tensorId with
  | some p, some a =>
    match p.tensor? tensorId with
    | some t =>
      if t.opt ≠ 3 ∧ elems.length = p.elems t ∧ elems ≠ [] ∧ !(s.bay bay).copying then
        s.applySegment bay p a t (elems.map (elemVal t.gfmt)) else s
    | none => s
  | _, _ => s)

/-- UPDATE_ON_ARRIVAL_ARM (Table 7.6): pending from here until its segments and its norm are complete. -/
def execUpdateArm (h : Hdr) (hpAddr : Nat) (step : W32) (group : Nat) (clip : Bool) (s : State) :
    Host.Outcome State Fault Refusal :=
  .next (s.onRunning (.updateArm h hpAddr step group clip) (fun c =>
    match c.bay? with
    | none => s
    | some b =>
      let tr := (s.bay b).train
      match tr.map with
      | none => s.fail h.adm .notBound
      | some p =>
        match s.ioStatus b [(hpAddr, 256)] [] with
        | some st => s.failIn h.adm b [(hpAddr, 256)] st
        | none =>
          let k := s.readBay b hpAddr 256
          let hy := hyperOf k
          if tr.arm.isSome then s.fail h.adm .conflict
          else if group ≠ p.group ∨ !hyperOk k clip ∨ !tr.stepFits p step then s.fail h.adm .badParam
          else
            let a : Arm := ⟨h.adm, step, group, clip, hy, (armCoef tr hy step clip).1, false, [], NormAcc.zero, [], c.index⟩
            let s := ((s.setActive h.adm).raise b (armCoef tr hy step clip).2).setTrain b (fun tr => { tr with arm := some a })
            (s.armNorm b p).takeEarlyNorms b c.index))

/-- UPDATE_DISARM (Table 7.6): the arm's point of no return is its first segment (R182). -/
def execUpdateDisarm (h : Hdr) (step : W32) (s : State) : Host.Outcome State Fault Refusal :=
  .next (s.onRunning (.updateDisarm h step) (fun c =>
    match c.bay? with
    | none => s
    | some b =>
      match (s.bay b).train.arm with
      | some a =>
        if a.step ≠ step then s.fail h.adm .badParam
        else if a.begun then s.fail h.adm .tooLate
        else ((s.setTrain b (fun tr => { tr with arm := none })).fail a.adm .aborted).finishNat h.adm .ok 0
      | none => s.fail h.adm .badParam))

/-! ### EXPORT_STREAM (R246) -/

/-- The records that the ring holds, oldest first, as their bytes. -/
def State.diffRecords (s : State) (b : Nat) : List (List Byte) :=
  let tr := (s.bay b).train
  match tr.map with
  | none => []
  | some p =>
    if p.diffAddr = 0 then []
    else
      let n := min tr.diffSeq (p.diffLen / 32)
      (List.range n).map (fun i => s.readBay b (p.diffAddr + (tr.diffSeq - n + i) * 32 % p.diffLen) 32)

def recStep (r : List Byte) : W32 := BitVec.ofNat 32 (leAt r 8 4)

/-- The record is the first of its step (MARK [0]). -/
def recFirst (r : List Byte) : Bool := byteAt r 0x1A % 2 == 1

/-- The records of FROM_STEP have been overwritten, whole or in part. -/
def exportTooLate (rs : List (List Byte)) (fromStep : W32) : Bool := match rs with
  | [] => false
  | r :: _ => serialBefore fromStep (recStep r) || (recStep r == fromStep && !recFirst r)

/-- The part of the difference ring that holds records. -/
def State.ringReads (s : State) (b : Nat) : List (Nat × Nat) := match (s.bay b).train.map with
  | some p => if p.diffAddr = 0 then [] else [(p.diffAddr, min ((s.bay b).train.diffSeq * 32) p.diffLen)]
  | none => []

def State.exportEff (b dst maxBytes : Nat) (fromStep : W32) (s : State) : Eff :=
  match (s.bay b).train.map with
  | none => (s, .notBound, 0)
  | some _ =>
    match s.ioStatus b (s.ringReads b) [] with
    | some st => (s, st, 0)
    | none =>
      let rs := s.diffRecords b
      if exportTooLate rs fromStep then (s, .tooLate, 0)
      else
        let out := (rs.dropWhile (fun r => !(recStep r == fromStep && recFirst r))).take (maxBytes / 32)
        -- no record copied: the manual states no last step
        let last := match out.getLast? with
          | some r => (recStep r).toNat
          | none => s.freeNow.toNat % 2 ^ 32
        let s := if out.isEmpty then s.useFree 1 else s
        s.putOut (.bay b 0) dst out.flatten (32 * out.length % 2 ^ 32 + last * 2 ^ 32)

/-- EXPORT_STREAM (Table 7.9). -/
def execExportStream (h : Hdr) (dst maxBytes : Nat) (fromStep : W32) (s : State) : Host.Outcome State Fault Refusal :=
  .next (s.onRunning (.exportStream h dst maxBytes fromStep) (fun c =>
    match c.bay? with
    | some b => s.completeIn h.adm b (s.ringReads b) (State.exportEff b dst maxBytes fromStep)
    | none => s))

end Sys2Proof.Machine
end

