-- ==== Sys2Proof/Machine/Collectives.lean ====
section
/-!
DEFINITION. The collectives (R183 to R185, R263 to R268, R272): the movement of partial and final
values between members, residue failures, lateness, and the rows COLL_ALLREDUCE, COLL_ALLGATHER, COLL_REDUCE_SCATTER,
COLL_BROADCAST, COLLECTIVE_SEGMENT and COLL_SILENT_TIMEOUT.
-/
namespace Sys2Proof.Machine

/-! ### Elements -/

/-- The FP32 encoding of a position's element before any addition: K16T is widened (R185). -/
def leafCode (op fmt code : Nat) : Nat := if op = 0 ∧ fmt ≠ 1 then enc32 (elemVal fmt code) else code

/-- Two values combined (R63, R64, R185). -/
def combine (op fmt : Nat) (ftz : Bool) (a c : Nat) : Flagged Nat :=
  match op with
  | 0 => let x := fadd ftz (in32 ftz a) (in32 ftz c); (enc32 x.1, x.2)
  | 1 => pick maxVal
  | _ => pick minVal
where
  /-- A maximum or minimum; a NaN operand is met even where the other one is the result (R64, R68). -/
  pick (f : Val → Val → Val) : Flagged Nat :=
    let x := elemVal fmt a
    let y := elemVal fmt c
    let r := narrowTo fmt none (f x y)
    (r.1, r.2 ||| flagIf (isNan x || isNan y) Flag.nanIn)

/-- The result's code: a K16T sum is narrowed once (R185); a NaN is the canonical one, one position's too (R53). -/
def finalCode (op fmt code : Nat) : Flagged Nat :=
  if op = 0 ∧ fmt ≠ 1 then narrowTo fmt none (decodeElem FP32 code)
  else if isNan (elemVal fmt code) then narrowTo fmt none .nan
  else (code, 0)

/-! ### A collective in progress -/

/-- Elements of a reduction, or bytes of a gather or broadcast, in one packet of 2,048 bytes: the FP32 partial sums of a
sum, the stored elements of a maximum or minimum (R265, R266). -/
def collChunk (opcode : Nat) (o : CollOps) : Nat :=
  if !isReduce opcode then 2048
  else if o.op = 0 then 512
  else 2048 / groupBytes o.fmt * groupElems o.fmt

/-- Units of the whole: elements for a reduction, bytes otherwise. -/
def collTotal (opcode : Nat) (o : CollOps) (n : Nat) : Nat := match opcode with
  | 0x0401 => gatherOffset o n n
  | 0x0403 => collBytes o
  | _ => o.count

/-- Bytes that a rank's SRC and DST hold. -/
def srcBytes (y : Bay) (opcode : Nat) (o : CollOps) (n p : Nat) : Nat :=
  if opcode = 0x0401 then storedBytes o.fmt (y.segment opcode o n p).2 else collBytes o

def dstBytes (y : Bay) (opcode : Nat) (o : CollOps) (n p : Nat) : Nat := match opcode with
  | 0x0401 => gatherOffset o n n
  | 0x0402 => storedBytes o.fmt (y.segment opcode o n p).2
  | _ => collBytes o

def State.setColl (s : State) (b group index : Nat) (f : Coll → Coll) : State :=
  s.setBay b (fun y => { y with colls := y.colls.map (fun (c : Coll) =>
    if c.group = group ∧ c.index = index then f c else c) })

def State.coll? (s : State) (b group index : Nat) : Option Coll :=
  (s.bay b).colls.find? (fun c => c.group == group && c.index == index)

def Coll.algo (c : Coll) (g : Group) : Nat := algoOf g (elemBytes c.ops.fmt c.ops.count) c.ops.algo

def Coll.chunk (c : Coll) : Nat := collChunk c.opcode c.ops

/-- How the values of a collective travel (Table 10.7). -/
def Coll.net (c : Coll) (g : Group) : Net :=
  ⟨c.opcode, c.algo g, g.blk.members, g.ranks.length, c.ops.root⟩

def Coll.valueOf (c : Coll) (lo hi first : Nat) : Option (List Nat) :=
  (c.known.find? (fun k => k.lo == lo && k.hi == hi && k.first == first)).map (·.elems)

/-- First units of the chunks of the whole. -/
def chunkStarts (total chunk : Nat) : List Nat := (List.range (ceilDiv total chunk)).map (· * chunk)

/-- The segment that carries a value to a member. -/
def Coll.seg (c : Coll) (b me vc : Nat) (stamp : Nat) (final : Bool) (k : Known) : CollSeg :=
  ⟨b, c.group, c.index, me, vc, c.opcode, c.ops, final, k.lo, k.hi, k.first, k.elems, stamp⟩

def Coll.ownStamp (c : Coll) (me : Nat) : Nat := (assoc c.stamps me).getD 0

/-- The payload of a segment: its stamp alone; FP32 partial sums; stored elements; or bytes (R266, R272, log 25). -/
def segBytes (x : CollSeg) : List Byte :=
  if x.elems.isEmpty then toLe 8 x.stamp
  else if !isReduce x.opcode then x.elems.map (BitVec.ofNat 8)
  else if x.ops.op = 0 && !x.final then (x.elems.map (toLe 4)).flatten
  else packCodes x.ops.fmt x.elems

/-- The position that performs the addition of a node: along a chain the one whose element is added, in a tree the lowest
(R265, R268). -/
def adder (algo : Nat) (n : Nat × Nat × Nat) : Nat :=
  if algo = 1 ∨ (algo = 2 ∧ n.2.2 = n.2.1 + 1) then n.2.2 - 1 else n.1

/-- The logical cluster of a position of this member. -/
def Group.clusterOf (g : Group) (p : Nat) : Nat := nth g.ranks (p % max g.ranks.length 1)

/-- The cluster that issues a value: a partial sum's position, and for final values the ranks in turn, chunk by chunk, so
that both dies' ports carry them (R266, log 26). -/
def Coll.issuer (c : Coll) (g : Group) (final : Bool) (k : Known) : Nat :=
  if final then g.clusterOf (k.first / max c.chunk 1) else g.clusterOf (if c.algo g = 1 then k.hi - 1 else k.lo)

/-- A value, or a stamp with no elements, leaves for a member on the channel of Table 10.7; a stamp on VC1 (R272). -/
def State.sendSeg (s : State) (b : Nat) (g : Group) (c : Coll) (final : Bool) (k : Known) (m : Nat) : State :=
  let me := g.blk.thisMember
  let vc := if k.elems.isEmpty then 1 else (c.net g).vc me m
  let x := c.seg b me vc (c.ownStamp me) final k
  (s.emit (.collSeg m x)).sendMsg b g (some (c.issuer g final k)) c.adm m vc 3 (k.first % 2 ^ 48)
    (k.first / max c.chunk 1 % 65536) (segBytes x)

/-- A final value is learned and passed on by its route, once: an allgather's segment on its way up, and again when it
returns. -/
def State.learnFinal (s : State) (b : Nat) (g : Group) (index : Nat) (k : Known) (src : Option Nat) : State :=
  match s.coll? b g.id index with
  | none => s
  | some c =>
    let me := g.blk.thisMember
    let net := c.net g
    let known := c.finals.any (fun f => f.lo == k.lo && f.first == k.first)
    let back := net.isReturn me src
    if (if back then c.sent.any (fun x => x.1 == k.lo && x.2.1 == k.first) else known) then s
    else
      let s := s.setColl b g.id index (fun c => { c with
        finals := if known then c.finals else c.finals ++ [k]
        sent := if back then c.sent ++ [(k.lo, k.first, k.elems.length)] else c.sent })
      (net.routes me k.lo src).foldl (fun s m => s.sendSeg b g c true k m) s

/-- The final values of a chunk of a whole sum: every member's for an allreduce, each owner's part for a
reduce-scatter. -/
def State.rootDone (s : State) (b : Nat) (g : Group) (c : Coll) (first : Nat) (vs : List Nat) : State :=
  let fs := vs.map (finalCode c.ops.op c.ops.fmt)
  let s := s.raise b (orFlags fs)
  let codes := fs.map (·.1)
  let n := g.positions
  let me := g.blk.thisMember
  if c.opcode = 0x0400 then s.learnFinal b g c.index ⟨0, n, first, codes⟩ none
  else
    (List.range n).foldl (fun s p =>
      let sg := (s.bay b).segment c.opcode c.ops n p
      let lo := max first sg.1
      let hi := min (first + codes.length) (sg.1 + sg.2)
      if hi ≤ lo then s
      else
        let k : Known := ⟨p, p + 1, lo, (codes.drop (lo - first)).take (hi - lo)⟩
        let m := p / g.ranks.length
        if m = me then s.setColl b g.id c.index (fun c => { c with finals := c.finals ++ [k] })
        else s.sendSeg b g c true k m) s

/-- Residue failures planned for a chunk of a group: how often its addition fails (R268). -/
def State.reductionFault (s : State) (group chunk : Nat) : Nat × State :=
  match s.faults.reduction.find? (fun f => f.1 == group && f.2.1 == chunk) with
  | some f => (f.2.2, { s with faults := { s.faults with reduction := s.faults.reduction.erase f } })
  | none => (0, s)

/-- One addition of a chunk by this device's reduction unit; none when the chunk's last recompute fails (R268). -/
def State.reduceChunk (s : State) (b : Nat) (c : Coll) (cluster first : Nat) (l r : List Nat) : State × Option (List Nat) :=
  let f := s.reductionFault c.group (first / max c.chunk 1)
  let s := f.2
  let out := (l.zip r).map (fun p => combine c.ops.op c.ops.fmt c.ftz p.1 p.2)
  let s := s.raise b (orFlags out)
  if f.1 = 0 then (s, some (out.map (·.1)))
  else
    let cost := 64 * min f.1 2
    let s := (s.countBay b 4 cost).log1 { Rec.blank with
      code := 0x0110, cls := 2, bay := b, kind := 5, unit := cluster, die := cluster / 17, tag := s.tagOf c.adm
      d0 := min f.1 2, d1 := cost }
    let s := s.setColl b c.group c.index (fun c => { c with corrected := true })
    if f.1 ≤ 2 then (s, some (out.map (·.1)))
    else ((s.askRetire cluster).failAtRisk b cluster, none)

/-- A value of a range is known here: it is kept, and sent on when another member adds it. -/
def State.knowPartial (s : State) (b : Nat) (g : Group) (c : Coll) (k : Known) : State :=
  let me := g.blk.thisMember
  let algo := c.algo g
  let r := g.ranks.length
  let s := s.setColl b g.id c.index (fun c => { c with known := c.known ++ [k] })
  if k.hi - k.lo = g.positions then s.rootDone b g c k.first k.elems
  else
    match parentOwner algo r (planOf algo g.blk.members r).nodes k.lo k.hi with
    | some m => if m = me then s else s.sendSeg b g c false k m
    | none => s

/-- Performs every addition of a chunk that this member owns and whose parts are known. Answers false when one fails. -/
def State.addChunk (b : Nat) (g : Group) (index first : Nat) (s : State) : State × Bool :=
  match s.coll? b g.id index with
  | none => (s, true)
  | some c0 =>
    let algo := c0.algo g
    let r := g.ranks.length
    ((planOf algo g.blk.members r).nodes.filter (fun n => nodeOwner algo r n == g.blk.thisMember)).foldl
      (fun (a : State × Bool) n =>
        match a.2, a.1.coll? b g.id index with
        | true, some c =>
          match c.valueOf n.1 n.2.2 first, c.valueOf n.1 n.2.1 first, c.valueOf n.2.1 n.2.2 first with
          | none, some x, some y =>
            let cluster := (a.1.phys (g.clusterOf (adder algo n))).getD 0
            let o := a.1.reduceChunk b c cluster first x y
            (match o.2 with
            | some vs => (o.1.knowPartial b g c ⟨n.1, n.2.2, first, vs⟩, true)
            | none => (o.1, false))
          | _, _, _ => a
        | _, _ => a) (s, true)

/-! ### Completion (R272) -/

/-- Every final value that this member waits for is here. -/
def Coll.haveFinals (c : Coll) (y : Bay) (g : Group) : Bool :=
  let n := g.positions
  let got := fun (lo : Nat) => ((c.finals.filter (fun f => f.lo == lo)).map (·.elems.length)).sum
  match c.opcode with
  | 0x0402 =>
    -- its own segments, and every addition that is this member's to make
    g.myPositions.all (fun p => got p.1 == (y.segment c.opcode c.ops n p.1).2) &&
      (planOf (c.algo g) g.blk.members g.ranks.length).nodes.all (fun x =>
        nodeOwner (c.algo g) g.ranks.length x != g.blk.thisMember ||
          (chunkStarts c.ops.count c.chunk).all (fun f => (c.valueOf x.1 x.2.2 f).isSome))
  | 0x0401 =>
    -- every segment, and every one returned, since it has been passed on
    (List.range n).all (fun p => got p == storedBytes c.ops.fmt (divide c.ops.count n p).2) &&
      (!(c.net g).hasReturn g.blk.thisMember ||
        (c.sent.map (·.2.2)).sum == collTotal c.opcode c.ops n)
  | _ => got 0 == collTotal c.opcode c.ops n

/-- Final values of one key in order. -/
def Coll.finalsOf (c : Coll) (lo : Nat) : List Nat :=
  ((sortBy (fun a d => decide (a.first ≤ d.first)) (c.finals.filter (fun f => f.lo == lo))).map (·.elems)).flatten

/-- The lateness in core cycles and the slowest member (R272). -/
def Coll.lateness (c : Coll) : Nat × Nat :=
  let hi := (c.stamps.map (·.2)).foldl max 0
  let lo := (c.stamps.map (·.2)).foldl min hi
  let slow := ((c.stamps.filter (fun x => x.2 == hi)).map (·.1)).foldl min 64
  (coreCycles (hi - lo), if slow = 64 then 0 else slow)

/-- The side of a collective ends with a status and a result: its command completes, or its descriptor's counter counts
(R270). -/
def State.endColl (s : State) (b : Nat) (c : Coll) (st : Status) (result : Nat) : State :=
  let s := s.setBay b (fun y => { y with colls := y.colls.filter (fun (x : Coll) =>
    !(x.group == c.group && x.index == c.index)) })
  match c.adm, c.trig with
  | some adm, _ => s.finishNat adm st result
  | none, some t => s.firedEnd b t (!st.success)
  | none, none => s

/-- The writes of a collective's results; a shard-aligned segment goes to a pending arm instead (R238). -/
def State.writeColl (s : State) (b : Nat) (g : Group) (c : Coll) : Option Status × State :=
  let n := g.positions
  let dst := fun (x : Nat × Nat) => rankAddr g c.ops.dst c.ops.rstride x.2
  let outs := g.myPositions.map (fun x => (dst x, dstBytes (s.bay b) c.opcode c.ops n x.1))
  let data := fun (x : Nat × Nat) => match c.opcode with
    | 0x0401 => (((List.range n).map c.finalsOf).flatten).map (BitVec.ofNat 8)
    | 0x0403 => (c.finalsOf 0).map (BitVec.ofNat 8)
    | 0x0400 => packCodes c.ops.fmt (c.finalsOf 0)
    | _ => packCodes c.ops.fmt (c.finalsOf x.1)
  let arm := (s.bay b).aligned c.opcode c.ops |>.bind (fun a =>
    ((s.bay b).train.armFor a.2.id).map (fun m => (a.1, a.2, m)))
  match arm with
  | some (p, t, m) =>
    let es := c.finalsOf p.thisMember
    (none, if es.isEmpty then s else s.applySegment b p m t (es.map (elemVal t.gfmt)))
  | none =>
    match s.ioStatus b [] outs with
    | some st => (some st, s)
    | none =>
      let st := s.outStatus b outs .ok
      (if st = .ok then none else some st, g.myPositions.foldl (fun s x => s.writeBay b (dst x) (data x)) s)

/-- Completes a collective whose final values and stamps are all here. -/
def State.settleColl (s : State) (b : Nat) (g : Group) (index : Nat) : State :=
  match s.coll? b g.id index with
  | none => s
  | some c =>
    let held := (s.bay b).copying && ((s.bay b).aligned c.opcode c.ops).isSome
    if c.haveFinals (s.bay b) g && c.stamps.length == g.blk.members && !held then
      let w := s.writeColl b g c
      let l := c.lateness
      let s := w.2.setGroup b g.id (fun x => { x with late := updNth x.late l.2 (fun v => (v.1 + 1, v.2 + l.1)) })
      s.endColl b c (w.1.getD (if c.corrected then .corrected else .ok)) (l.1 % 2 ^ 58 + l.2 * 2 ^ 58)
    else s

/-- Collectives that a cut held back go on (R322). -/
def State.settleColls (s : State) (b : Nat) : State :=
  ((s.bay b).colls).foldl (fun s c => match (s.bay b).formed? c.group with
    | some g => s.settleColl b g c.index
    | none => s) s

/-- A collective ends in a failure of its own. -/
def State.failColl (s : State) (b group index : Nat) (st : Status) : State :=
  match s.coll? b group index with
  | some c => s.endColl b c st 0
  | none => s

/-! ### Dispatch -/

/-- Starts a collective: this member's stamp goes to every other member with its first contribution, its own parts are
known, and what can be added or passed on is (R266, R272). -/
def State.startColl (s : State) (b : Nat) (g : Group) (c : Coll) : State :=
  let n := g.positions
  let me := g.blk.thisMember
  let now := s.now
  let c := { c with stamps := [(me, now)], heard := g.peers.map (fun m => (m, s.clock.uptime)) }
  let s := s.setBay b (fun y => { y with colls := y.colls ++ [c] })
  let s := g.peers.foldl (fun s m => s.sendSeg b g c false ⟨0, 0, 0, []⟩ m) s
  let src := fun (x : Nat × Nat) => s.readBay b (rankAddr g c.ops.src c.ops.rstride x.2) (srcBytes (s.bay b) c.opcode c.ops n x.1)
  if isReduce c.opcode then
    let starts := chunkStarts c.ops.count c.chunk
    let s := g.myPositions.foldl (fun s0 x =>
      let codes := (rawCodes c.ops.fmt c.ops.count (src x)).map (leafCode c.ops.op c.ops.fmt)
      starts.foldl (fun s f => s.knowPartial b g c ⟨x.1, x.1 + 1, f, (codes.drop f).take c.chunk⟩) s0) s
    let r := starts.foldl (fun (a : State × Bool) f => if a.2 then State.addChunk b g c.index f a.1 else a) (s, true)
    if r.2 then r.1.settleColl b g c.index else r.1.failColl b g.id c.index .machineCheck
  else if c.opcode = 0x0401 then
    (g.myPositions.foldl (fun s x =>
      let off := gatherOffset c.ops n x.1
      let bs := (src x).map (·.toNat)
      (chunkStarts bs.length 2048).foldl (fun s f =>
        s.learnFinal b g c.index ⟨x.1, x.1 + 1, off + f, (bs.drop f).take 2048⟩ none) s) s).settleColl b g c.index
  else
    match g.myPositions.find? (fun x => x.1 == c.ops.root) with
    | some x =>
      let bs := (src x).map (·.toNat)
      ((chunkStarts bs.length 2048).foldl (fun s f =>
        s.learnFinal b g c.index ⟨0, n, f, (bs.drop f).take 2048⟩ none) s).settleColl b g c.index
    | none => s.settleColl b g c.index

/-- The fields in which matched collectives must agree (R263). -/
def sameColl (c : Coll) (g : CollSeg) : Bool :=
  c.opcode == g.opcode && c.ops.count == g.ops.count && c.ops.op == g.ops.op && c.ops.fmt == g.ops.fmt &&
    c.ops.algo == g.ops.algo && c.ops.root == g.ops.root

/-- A segment for a dispatched collective. -/
def State.takeSeg (s : State) (x : CollSeg) : State :=
  match (s.bay x.bay).formed? x.group, s.coll? x.bay x.group x.index with
  | some g, some c =>
    if !sameColl c x then s.mismatch x.bay x.group
    else
      let s := s.setColl x.bay x.group x.index (fun c => { c with
        heard := assocSet c.heard x.member s.clock.uptime
        stamps := if c.stamps.any (·.1 == x.member) then c.stamps else c.stamps ++ [(x.member, x.stamp)] })
      let k : Known := ⟨x.lo, x.hi, x.first, x.elems⟩
      if x.elems.isEmpty then s.settleColl x.bay g x.index
      else if x.final then (s.learnFinal x.bay g x.index k (some x.member)).settleColl x.bay g x.index
      else if (c.valueOf x.lo x.hi x.first).isSome then s
      else
        let s := s.setColl x.bay x.group x.index (fun c => { c with known := c.known ++ [k] })
        let r := State.addChunk x.bay g x.index x.first s
        if r.2 then r.1.settleColl x.bay g x.index else r.1.failColl x.bay x.group x.index .machineCheck
  | _, _ => s

/-- A collective of the group with this place has not started here yet. -/
def State.collAhead (s : State) (b group index : Nat) : Bool :=
  match (s.bay b).formed? group with
  | none => false
  | some g => decide (g.count ≤ index) || s.cmds.any (fun c =>
      c.ofBay b && !c.finished? && c.index == index && groupUse none c.instr == some group)

/-- COLLECTIVE_SEGMENT (R266): a partial norm, or a value of a collective; one that comes ahead of its collective
waits for it, one that comes after it is dropped. -/
def execCollectiveSegment (g : CollSeg) (s : State) : Host.Outcome State Fault Refusal :=
  let s := s.freeMsg 3 g.bay g.group g.member
  .next (if g.opcode = 0x0320 ∨ g.opcode = 0x0311 then
    s.takeNorm g.bay g.index g.member ⟨nth g.elems 0, nth g.elems 1 == 1, nth g.elems 2 == 1⟩
  else if (s.coll? g.bay g.group g.index).isSome then s.takeSeg g
  else if s.collAhead g.bay g.group g.index then s.setBay g.bay (fun y => { y with earlyColls := y.earlyColls ++ [g] })
  else s)

/-- Takes the segments that came ahead. -/
def State.takeEarlySegs (s : State) (b group index : Nat) : State :=
  let mine := fun (x : CollSeg) => x.group == group && x.index == index
  let early := (s.bay b).earlyColls.filter mine
  let s := s.setBay b (fun y => { y with earlyColls := y.earlyColls.filter (fun x => !mine x) })
  early.foldl (fun s x => s.takeSeg x) s

/-- The formats that an operation accepts (R185). -/
def collFmtOk (opcode : Nat) (o : CollOps) : Bool :=
  if isReduce opcode then
    (match o.op with
    | 0 => o.fmt == 1 || o.fmt == 2
    | 1 => decide (1 ≤ o.fmt) && decide (o.fmt ≤ 7)
    | 2 => decide (1 ≤ o.fmt) && decide (o.fmt ≤ 7)
    | _ => false)
  else o.op == 0 && decide (o.fmt ≤ 0xB)

/-- The own checks of the data collectives (R183, R185, R232, Table 7.7). -/
def State.collCheck (s : State) (b opcode : Nat) (o : CollOps) : Option Status :=
  let y := s.bay b
  if !collFmtOk opcode o ∨ 1 < o.algo ∨ 63 < o.group then some .badParam
  else
    match y.formed? o.group with
    | none => some .notBound
    | some g =>
      if (opcode = 0x0403 ∧ g.positions ≤ o.root) ∨ (opcode ≠ 0x0403 ∧ o.root ≠ 0) then some .badParam
      else
        match y.aligned opcode o with
        | some (_, t) =>
          if o.count ≠ t.rows * t.rowLen ∨ o.fmt ≠ t.gfmt ∨ o.op ≠ 0 ∨ t.opt = 3 then some .badParam else none
        | none => none

/-- The ranges that this member's ranks read. -/
def collSrcs (y : Bay) (g : Group) (opcode : Nat) (o : CollOps) : List (Nat × Nat) :=
  (g.myPositions.filter (fun x => opcode != 0x0403 || x.1 == o.root)).map
    (fun x => (rankAddr g o.src o.rstride x.2, srcBytes y opcode o g.positions x.1))

/-- The access checks at dispatch: every rank's SRC, and every DST but that of a shard-aligned reduce-scatter, which an
arm may take (R238). -/
def State.collAccess (s : State) (b : Nat) (g : Group) (opcode : Nat) (o : CollOps) : Option Status :=
  let y := s.bay b
  let dsts := if (y.aligned opcode o).isSome then [] else
    g.myPositions.map (fun x => (rankAddr g o.dst o.rstride x.2, dstBytes y opcode o g.positions x.1))
  s.ioStatus b (collSrcs y g opcode o) dsts

/-- Dispatches a data collective. -/
def State.runColl (s : State) (h : Hdr) (c : Slot) (opcode : Nat) (o : CollOps) : State :=
  match c.bay? with
  | none => s
  | some b =>
    match s.collCheck b opcode o with
    | some st => s.fail h.adm st
    | none =>
      match (s.bay b).formed? o.group with
      | none => s.fail h.adm .notBound
      | some g =>
        match s.collAccess b g opcode o with
        | some st => s.failIn h.adm b (collSrcs (s.bay b) g opcode o) st
        | none =>
          let x : Coll := ⟨some h.adm, none, o.group, c.index, opcode, o, c.ftz, [], [], [], [], false, []⟩
          ((s.setActive h.adm).startColl b g x).takeEarlySegs b o.group c.index

/-- COLL_ALLREDUCE (Table 7.7). -/
def execCollAllreduce (h : Hdr) (o : CollOps) (s : State) : Host.Outcome State Fault Refusal :=
  .next (s.onRunning (.collAllreduce h o) (fun c => s.runColl h c 0x0400 o))

/-- COLL_ALLGATHER (Table 7.7). -/
def execCollAllgather (h : Hdr) (o : CollOps) (s : State) : Host.Outcome State Fault Refusal :=
  .next (s.onRunning (.collAllgather h o) (fun c => s.runColl h c 0x0401 o))

/-- COLL_REDUCE_SCATTER (Table 7.7). -/
def execCollReduceScatter (h : Hdr) (o : CollOps) (s : State) : Host.Outcome State Fault Refusal :=
  .next (s.onRunning (.collReduceScatter h o) (fun c => s.runColl h c 0x0402 o))

/-- COLL_BROADCAST (Table 7.7). -/
def execCollBroadcast (h : Hdr) (o : CollOps) (s : State) : Host.Outcome State Fault Refusal :=
  .next (s.onRunning (.collBroadcast h o) (fun c => s.runColl h c 0x0403 o))

/-! ### Silence (R263) -/

/-- Peers from which this member still waits for something: a stamp, a part it adds, or final values. -/
def Coll.awaited (c : Coll) (y : Bay) (g : Group) : List Nat :=
  let me := g.blk.thisMember
  let algo := c.algo g
  let r := g.ranks.length
  let total := collTotal c.opcode c.ops g.positions
  let noStamp := g.peers.filter (fun m => !c.stamps.any (·.1 == m))
  let parts := if isReduce c.opcode then
      let nodes := (planOf algo g.blk.members r).nodes
      let mine := nodes.filter (fun n => nodeOwner algo r n == me)
      let open_ := fun (lo hi : Nat) => (chunkStarts total c.chunk).any (fun f => (c.valueOf lo hi f).isNone)
      let from_ := fun (lo hi : Nat) => if hi = lo + 1 then lo / r else
        ((nodes.find? (fun n => n.1 == lo && n.2.2 == hi)).map (nodeOwner algo r)).getD me
      ((mine.map (fun n => [(n.1, n.2.1), (n.2.1, n.2.2)])).flatten.filter (fun p => open_ p.1 p.2)).map (fun p => from_ p.1 p.2)
    else []
  let finals := if c.haveFinals y g then [] else
    (c.net g).sources me
  ((noStamp ++ parts ++ (if parts.isEmpty then finals else [])).filter (· != me)).eraseDups

/-- COLL_SILENT_TIMEOUT: a peer that the collective waits on has been silent for SILENT_MS: it completes TIMEOUT and a
group abort goes out (R263). -/
def execCollSilentTimeout (bay group : Nat) (s : State) : Host.Outcome State Fault Refusal :=
  .next (match (s.bay bay).formed? group with
  | none => s
  | some g =>
    let late := fun (c : Coll) => c.group == group && (c.awaited (s.bay bay) g).any (fun m =>
      decide ((assoc c.heard m).getD 0 + g.silentNs ≤ s.clock.uptime))
    match (s.bay bay).colls.find? late with
    | some c => ((s.endColl bay c .timeout 0).sendAbort bay group).abortGroup bay group
    | none => s)

end Sys2Proof.Machine
end

