-- ==== Sys2Proof/Machine/Plane.lean ====
section
/-!
DEFINITION. The Plane codec (R297 to R304): blocks coded, decoded and checked.
-/
namespace Sys2Proof.Machine

/-- Bits most significant first, `n` of them. -/
def bitsMsb : Nat → Nat → List Bool
  | 0, _ => []
  | n + 1, v => decide (v / 2 ^ n % 2 = 1) :: bitsMsb n v

def natOfBits (bs : List Bool) : Nat := bs.foldl (fun a b => 2 * a + (if b then 1 else 0)) 0

/-- EGk(v) (R299). -/
def egPut (k v : Nat) : List Bool :=
  let q := v + 2 ^ k
  let l := Nat.log2 q + 1
  List.replicate (l - k - 1) false ++ bitsMsb l q

/-- adapt() of R300. -/
def planeAdapt (k v : Nat) : Nat :=
  if v ≥ 2 ^ (k + 1) ∧ k < 7 then k + 1 else if k > 0 ∧ v < 2 ^ (k - 1) then k - 1 else k

/-- Table 12.3. -/
def planeK0 (elemW j : Nat) : Nat :=
  match elemW, j with
  | 4, 0 => 7 | 4, 1 => 6 | 4, 2 => 5 | 4, 3 => 3 | 2, 0 => 7 | 2, 1 => 3 | 1, 0 => 5 | _, _ => 0

def mtfStart : List Nat := List.range 256

/-- The element at index r moved to the front. -/
def mtfMove (l : List Nat) (r : Nat) : List Nat := l.getD r 0 :: l.eraseIdx r

/-- The coded bits of a plane (R299); `fuel` bounds the symbols. -/
def planeCode : Nat → List Nat → List Nat → Nat → Bool → List Bool
  | 0, _, _, _, _ => []
  | _, [], _, _, _ => []
  | f + 1, b :: bs, l, k, afterRun =>
    if b = l.getD 0 0 then
      let run := ((b :: bs).takeWhile (· == b)).length
      false :: egPut 0 (run - 1) ++ planeCode f ((b :: bs).drop run) l k true
    else
      let r := l.findIdx (· == b)
      let v := r - 1
      (if afterRun then [] else [true]) ++ egPut k v ++ planeCode f bs (mtfMove l r) (planeAdapt k v) false

/-- Bits packed most significant first, padded with zero bits. -/
def packBits (bs : List Bool) : List Byte :=
  (chunks 8 bs).map (fun c => BitVec.ofNat 8 (natOfBits (c ++ List.replicate (8 - c.length) false)))

/-- Plane j of x (R298). -/
def planeOf (elemW j : Nat) (x : List Byte) : List Nat := (chunks elemW x).map (fun e => (e.getD j 0).toNat)

def codePlane (elemW j : Nat) (x : List Byte) : List Byte :=
  let p := planeOf elemW j x
  packBits (planeCode p.length p mtfStart (planeK0 elemW j) false)

/-- Byte-wise XOR with a reference (R298). -/
def xorRef (x : List Byte) (ref : Option (List Byte)) : List Byte :=
  match ref with
  | none => x
  | some r => (x.zip r).map (fun p => p.1 ^^^ p.2)

/-- The Plane block of an input (R297 to R303); `ref` none is REFZERO. -/
def planeEncode (elemW : Nat) (ref : Option (List Byte)) (crc : Bool) (block : Nat) (input : List Byte) : List Byte :=
  let x := xorRef input ref
  let planes := (List.range elemW).map (fun j => codePlane elemW j x)
  let coded := (planes.map (fun p => toLe 2 p.length)).flatten ++ planes.flatten
  let raw := decide (coded.length ≥ x.length)
  let payload := if raw then x else coded
  let flags := (if raw then 1 else 0) + (if crc then 2 else 0) + (if ref.isNone then 4 else 0)
  let body := toLe 1 1 ++ toLe 1 flags ++ toLe 1 elemW ++ toLe 1 0 ++ toLe 4 x.length ++ toLe 4 payload.length ++
    toLe 4 block ++ payload
  if crc then body ++ toLe 8 (crc64 body) else body

/-- Reads EGk from a bit stream: the value and the rest. -/
def egGet (k : Nat) (bs : List Bool) : Option (Nat × List Bool) :=
  let z := (bs.takeWhile (· == false)).length
  let n := z + k + 1
  let rest := bs.drop z
  if rest.length < n then none else some (natOfBits (rest.take n) - 2 ^ k, rest.drop n)

/-- The bytes of a plane decoded, newest first, and the bits left (R299, R304); `need` counts the bytes still wanted. -/
def planeDecode : Nat → Nat → List Bool → List Nat → Nat → Bool → List Nat → Option (List Nat × List Bool)
  | 0, need, bs, _, _, _, acc => if need = 0 then some (acc, bs) else none
  | f + 1, need, bs, l, k, afterRun, acc =>
    if need = 0 then some (acc, bs)
    else
      let flag := if afterRun then some (true, bs) else match bs with
        | [] => none
        | b :: t => some (b, t)
      match flag with
      | none => none
      | some (false, t) =>
        match egGet 0 t with
        | none => none
        | some (v, t) =>
          if v + 1 > need then none
          else planeDecode f (need - (v + 1)) t l k true (List.replicate (v + 1) (l.getD 0 0) ++ acc)
      | some (true, t) =>
        match egGet k t with
        | none => none
        | some (v, t) =>
          if v > 254 then none
          else planeDecode f (need - 1) t (mtfMove l (v + 1)) (planeAdapt k v) false (l.getD (v + 1) 0 :: acc)

def bitsOfBytes (bs : List Byte) : List Bool := (bs.map (fun b => bitsMsb 8 b.toNat)).flatten

/-- One plane's bytes from its coded bytes, or none when it is malformed (R304). -/
def decodePlane (elemW j n : Nat) (bs : List Byte) : Option (List Nat) :=
  match planeDecode n n (bitsOfBytes bs) mtfStart (planeK0 elemW j) false [] with
  | some (p, rest) => if rest.length < 8 ∧ rest.all (· == false) then some p.reverse else none
  | none => none

/-- A decoded block: its fields and its length in the sequence. -/
structure PlaneBlock where
  elemW : Nat
  refZero : Bool
  len : Nat
  block : Nat
  data : List Byte
  size : Nat
  deriving DecidableEq, Repr, Inhabited

def planeSplit : List Nat → List Byte → List (List Byte)
  | [], _ => []
  | n :: ns, bs => bs.take n :: planeSplit ns (bs.drop n)

/-- The bytes x of the block at the head of a sequence, before the reference is applied: none when it is malformed
(R304). `crc` says whether the form carries the CRC-64. -/
def planeRead (crc : Bool) (bs : List Byte) : Option PlaneBlock :=
  let flags := byteAt bs 1
  let w := byteAt bs 2
  let len := leAt bs 4 4
  let pl := leAt bs 8 4
  let raw := decide (flags % 2 = 1)
  let size := 16 + pl + (if crc then 8 else 0)
  if bs.length < 16 then none
  else if byteAt bs 0 ≠ 1 ∨ flags ≥ 8 ∨ byteAt bs 3 ≠ 0 ∨ ¬(w = 1 ∨ w = 2 ∨ w = 4) then none
  else if len = 0 ∨ len > 65536 ∨ len % w ≠ 0 then none
  else if decide (flags / 2 % 2 = 1) != crc then none
  else if bs.length < size ∨ (raw ∧ pl ≠ len) then none
  else if crc ∧ leAt bs (16 + pl) 8 ≠ crc64 (bs.take (16 + pl)) then none
  else
    let payload := slice bs 16 pl
    let body : Option (List Byte) :=
      if raw then some payload
      else
        let lens := (List.range w).map (fun j => leAt payload (2 * j) 2)
        if pl < 2 * w ∨ lens.sum ≠ pl - 2 * w then none
        else
          let ps := (planeSplit lens (payload.drop (2 * w))).zipIdx.map (fun p => decodePlane w p.2 (len / w) p.1)
          if ps.any (·.isNone) then none
          else
            let ps := ps.map (·.getD [])
            some (((List.range (len / w)).map
              (fun e => (List.range w).map (fun j => BitVec.ofNat 8 ((ps.getD j []).getD e 0)))).flatten)
    body.map (fun x => ⟨w, decide (flags / 4 % 2 = 1), len, leAt bs 0xC 4, x, size⟩)

/-- Every block of a sequence packed end to end, or none when one is malformed. -/
def planeReadAll (crc : Bool) : Nat → List Byte → Option (List PlaneBlock)
  | 0, bs => if bs.isEmpty then some [] else none
  | f + 1, bs =>
    if bs.isEmpty then some []
    else match planeRead crc bs with
      | none => none
      | some b => (planeReadAll crc f (bs.drop b.size)).map (b :: ·)

/-- A block with its CRC flag cleared and its trailer left out (R296). -/
def planeStripCrc (bs : List Byte) : List Byte :=
  bs.take 1 ++ toLe 1 (byteAt bs 1 - 2) ++ slice bs 2 (bs.length - 10)

/-- A block with its CRC flag set and its trailer appended (R296). -/
def planeAddCrc (bs : List Byte) : List Byte :=
  let body := bs.take 1 ++ toLe 1 (byteAt bs 1 + 2) ++ bs.drop 2
  body ++ toLe 8 (crc64 body)

end Sys2Proof.Machine
end

