-- ==== Sys2Proof/Machine/Aes.lean ====
section
/-!
DEFINITION. The cipher engine: AES-256 of FIPS 197, GCM of SP 800-38D with a 96-bit nonce and a 128-bit tag (R307), and
XTS of IEEE 1619 (R309).
-/
namespace Sys2Proof.Machine

/-- Product in GF(2^8) with the AES polynomial, over `n` bits of b. -/
def gmulAux : Nat → Nat → Nat → Nat
  | 0, _, _ => 0
  | n + 1, a, b =>
    let a2 := if a ≥ 128 then Nat.xor (a * 2 % 256) 0x1B else a * 2
    let r := gmulAux n a2 (b / 2)
    if b % 2 = 1 then Nat.xor r a else r

def gmul (a b : Nat) : Nat := gmulAux 8 a b

/-- a^254, the inverse in GF(2^8). -/
def ginv (a : Nat) : Nat :=
  let a2 := gmul a a
  let a4 := gmul a2 a2
  let a8 := gmul a4 a4
  let a16 := gmul a8 a8
  let a32 := gmul a16 a16
  let a64 := gmul a32 a32
  gmul (gmul (gmul (gmul (gmul (gmul (gmul a64 a64) a64) a32) a16) a8) a4) a2

/-- The S-box value of a byte, computed. -/
def sboxOf (a : Nat) : Nat :=
  let b := ginv a
  let rot := fun n => (b * 2 ^ n) % 256 + b / 2 ^ (8 - n)
  Nat.xor (Nat.xor (Nat.xor (Nat.xor (Nat.xor b (rot 1)) (rot 2)) (rot 3)) (rot 4)) 0x63

def sboxTable : List Nat := (List.range 256).map sboxOf

def sboxInvTable : List Nat := (List.range 256).map (fun v => sboxTable.findIdx (· == v))

def sbox (a : Nat) : Nat := sboxTable.getD a 0

def sboxInv (a : Nat) : Nat := sboxInvTable.getD a 0

def xorList (a b : List Nat) : List Nat := (a.zip b).map (fun p => Nat.xor p.1 p.2)

/-- The key expansion for AES-256: words of four bytes, newest first in `acc`. -/
def aesExpand : Nat → Nat → Nat → List (List Nat) → List (List Nat)
  | 0, _, _, acc => acc
  | n + 1, i, rcon, acc =>
    let prev := acc.getD 0 []
    let back := acc.getD 7 []
    let t :=
      if i % 8 = 0 then
        let r := (prev.drop 1 ++ prev.take 1).map sbox
        xorList r [rcon, 0, 0, 0]
      else if i % 8 = 4 then prev.map sbox else prev
    aesExpand n (i + 1) (if i % 8 = 0 then gmul rcon 2 else rcon) (xorList back t :: acc)

/-- The fifteen round keys of sixteen bytes. -/
def aesKeys (key : List Byte) : List (List Nat) :=
  let ws := (chunks 4 (key.map (·.toNat))).reverse
  (chunks 4 (aesExpand 52 8 1 ws).reverse).map (·.flatten)

def shiftRows (s : List Nat) : List Nat := (List.range 16).map (fun i => s.getD ((i + 4 * (i % 4)) % 16) 0)

def unshiftRows (s : List Nat) : List Nat := (List.range 16).map (fun i => s.getD ((i + 12 * (i % 4)) % 16) 0)

def mixColumn (m : List Nat) (c : List Nat) : List Nat :=
  (List.range 4).map (fun r => (List.range 4).foldl
    (fun a j => Nat.xor a (gmul (m.getD ((j + 4 - r) % 4) 0) (c.getD j 0))) 0)

def mixColumns (m : List Nat) (s : List Nat) : List Nat := ((chunks 4 s).map (mixColumn m)).flatten

def aesRounds : List (List Nat) → List Nat → List Nat
  | [], s => s
  | [k], s => xorList (shiftRows (s.map sbox)) k
  | k :: ks, s => aesRounds ks (xorList (mixColumns [2, 3, 1, 1] (shiftRows (s.map sbox))) k)

/-- One block encrypted. -/
def aesEnc (ks : List (List Nat)) (b : List Nat) : List Nat :=
  match ks with
  | [] => b
  | k :: rest => aesRounds rest (xorList b k)

def aesUnrounds : List (List Nat) → List Nat → List Nat
  | [], s => s
  | [k], s => xorList ((unshiftRows s).map sboxInv) k
  | k :: ks, s => aesUnrounds ks (mixColumns [14, 11, 13, 9] (xorList ((unshiftRows s).map sboxInv) k))

/-- One block decrypted. -/
def aesDec (ks : List (List Nat)) (b : List Nat) : List Nat :=
  match ks.reverse with
  | [] => b
  | k :: rest => aesUnrounds rest (xorList b k)

def bytesOf (l : List Nat) : List Byte := l.map (BitVec.ofNat 8)

def natsOf (l : List Byte) : List Nat := l.map (·.toNat)

/-- One block encrypted under a key, as bytes. -/
def aesBlock (key block : List Byte) : List Byte := bytesOf (aesEnc (aesKeys key) (natsOf block))

/-! ### GCM (R307) -/

/-- Product in GF(2^128) as GCM orders its bits: `v` runs through the powers, most significant bit of x first. -/
def ghashMulAux : Nat → Nat → Nat → Nat
  | 0, _, _ => 0
  | n + 1, x, v =>
    let v2 := if v % 2 = 1 then Nat.xor (v / 2) (0xE1 * 2 ^ 120) else v / 2
    let r := ghashMulAux n x v2
    if x / 2 ^ n % 2 = 1 then Nat.xor r v else r

def ghashMul (x y : Nat) : Nat := ghashMulAux 128 x y

/-- GHASH over padded bytes. -/
def ghash (h : Nat) (bs : List Byte) : Nat :=
  (chunks 16 bs).foldl (fun a b => ghashMul (Nat.xor a (beNat b)) h) 0

def xorBytes (a b : List Byte) : List Byte := (a.zip b).map (fun p => p.1 ^^^ p.2)

/-- Text under the key stream that starts at counter block `ctr` + 1. -/
def gcmStream (ks : List (List Nat)) (nonce : List Byte) (text : List Byte) : List Byte :=
  ((chunks 16 text).zipIdx.map (fun p =>
    xorBytes p.1 (bytesOf (aesEnc ks (natsOf (nonce ++ toBe 4 (p.2 + 2))))))).flatten

def gcmTag (ks : List (List Nat)) (nonce aad ct : List Byte) : List Byte :=
  let h := beNat (bytesOf (aesEnc ks (List.replicate 16 0)))
  let g := ghash h (padMul 16 aad ++ padMul 16 ct ++ toBe 8 (8 * aad.length) ++ toBe 8 (8 * ct.length))
  xorBytes (toBe 16 g) (bytesOf (aesEnc ks (natsOf (nonce ++ toBe 4 1))))

/-- Ciphertext and tag. -/
def gcmEncrypt (key nonce aad text : List Byte) : List Byte × List Byte :=
  let ks := aesKeys key
  let ct := gcmStream ks nonce text
  (ct, gcmTag ks nonce aad ct)

/-- The plaintext when the tag verifies. -/
def gcmDecrypt (key nonce aad ct tag : List Byte) : Option (List Byte) :=
  let ks := aesKeys key
  if gcmTag ks nonce aad ct = tag then some (gcmStream ks nonce ct) else none

/-! ### XTS (R309) -/

/-- The tweak times alpha: a 128-bit little-endian value doubled. -/
def xtsDouble (t : Nat) : Nat :=
  let d := 2 * t
  if d ≥ 2 ^ 128 then Nat.xor (d % 2 ^ 128) 0x87 else d

def xtsTweaks : Nat → Nat → List Nat
  | 0, _ => []
  | n + 1, t => t :: xtsTweaks n (xtsDouble t)

/-- One block under its tweak, with the given block cipher. -/
def xtsBlock (f : List Nat → List Nat) (t : Nat) (b : List Byte) : List Byte :=
  let tb := toLe 16 t
  xorBytes (bytesOf (f (natsOf (xorBytes b tb)))) tb

/-- One data unit, with ciphertext stealing when its length is no multiple of 16. -/
def xtsUnit (key1 key2 : List Byte) (decrypt : Bool) (unit : Nat) (bs : List Byte) : List Byte :=
  let ks := aesKeys key1
  let f := if decrypt then aesDec ks else aesEnc ks
  let t0 := leNat (bytesOf (aesEnc (aesKeys key2) (natsOf (toLe 16 (unit % 2 ^ 128)))))
  let n := bs.length / 16
  let tail := bs.length % 16
  let ts := xtsTweaks (n + 1) t0
  let whole := fun k => (((chunks 16 (bs.take (16 * k))).zip ts).map (fun p => xtsBlock f p.2 p.1)).flatten
  if tail = 0 then whole n
  else
    let last := slice bs (16 * (n - 1)) 16
    let part := bs.drop (16 * n)
    let ta := if decrypt then ts.getD n 0 else ts.getD (n - 1) 0
    let tb := if decrypt then ts.getD (n - 1) 0 else ts.getD n 0
    let c := xtsBlock f ta last
    whole (n - 1) ++ xtsBlock f tb (part ++ c.drop tail) ++ c.take tail

/-- Data units of `unitLen` bytes from the first unit number on, the last one as long as what is left. -/
def xtsRun (key1 key2 : List Byte) (decrypt : Bool) (first unitLen : Nat) (bs : List Byte) : List Byte :=
  ((chunks unitLen bs).zipIdx.map (fun p => xtsUnit key1 key2 decrypt (first + p.2) p.1)).flatten

end Sys2Proof.Machine
end

