-- ==== Sys2Proof/Machine/Memory.lean ====
section
/-!
DEFINITION. MEM_FILL, MEM_MAP and MEM_PLACE, and the local part of MEM_COPY (R123, R125, R128 to R130, R179). The
transfers of MEM_COPY with another member are in Transfers.lean.
-/
namespace Sys2Proof.Machine

/-! ### Ascending transfers -/

/-- Bytes at the start of a range that are accessed without failing, whole 2 MiB ranges first, then lines. -/
def State.goodPrefix (s : State) (b : Nat) (acc : Acc) (a n : Nat) : Nat :=
  let ok := fun (p : Nat × Nat) => match s.translate b acc p.1 p.2 with
    | some l => !(acc == .rd && s.poisoned l p.2) && !s.lost l
    | none => false
  let ps := pieces a n
  let good := ps.takeWhile ok
  let sum := (good.map (·.2)).sum
  match ps.drop good.length with
  | [] => n
  | p :: _ => sum + (((linePieces p.1 p.2).takeWhile ok).map (·.2)).sum

/-- The status of the access that stops a transfer at an address. -/
def State.stopStatus (s : State) (b : Nat) (acc : Acc) (a : Nat) : Status :=
  match s.translate b acc a 1 with
  | none => .accessDenied
  | some l => if s.poisoned l 1 || s.lost l then .machineCheck else .accessDenied

/-- Bytes copied from local address to local address: as far as both sides allow, whole destination lines. -/
def State.copyLocal (b : Nat) (tag : W32) (src dst n : Nat) (s : State) : Eff :=
  let rd := s.goodPrefix b .rd src n
  let wr := s.goodPrefix b .wr dst n
  let k := min rd wr
  let k := if k < n then (dst + k) / 64 * 64 - dst else n
  let st :=
    if min rd wr = n then s.outStatus b [(dst, n)] .ok
    else if rd ≤ wr then s.stopStatus b .rd (src + rd) else s.stopStatus b .wr (dst + wr)
  let t := s.writeBay b dst (s.readBay b src k)
  let t := if st = .machineCheck ∧ rd ≤ wr ∧ rd < n then t.logPoisonRead b tag (src + rd) else t
  (t, st, k)

/-- The byte at bay address x is byte (x mod 8) of the pattern (Table 7.3). -/
def fillBytes (pattern : W64) (a n : Nat) : List Byte :=
  (List.range n).map (fun i => pattern.extractLsb' (8 * ((a + i) % 8)) 8)

def State.memFillEff (b dst n : Nat) (pattern : W64) (s : State) : Eff :=
  let wr := s.goodPrefix b .wr dst n
  let k := if wr < n then (dst + wr) / 64 * 64 - dst else n
  let st := if wr = n then s.outStatus b [(dst, n)] .ok else s.stopStatus b .wr (dst + wr)
  (s.writeBay b dst (fillBytes pattern dst k), st, k)

/-- MEM_FILL (Table 7.3). -/
def execMemFill (h : Hdr) (dst length : Nat) (pattern : W64) (s : State) : Host.Outcome State Fault Refusal :=
  .next (s.onRunning (.memFill h dst length pattern) (fun c =>
    match c.bay? with
    | some b => s.complete h.adm (State.memFillEff b dst length pattern)
    | none => s))

/-! ### MEM_MAP (Table 7.14) -/

def mapPageSize (o : MemMapOps) : Nat := if o.size = 1 then gib else mib2

/-- The pages of a MEM_MAP: (bay address, DPA). -/
def mapPages (o : MemMapOps) : List (Nat × Nat) :=
  (List.range o.count).map (fun i => (o.addr + i * mapPageSize o, o.dpa + i * mapPageSize o))

/-- The mapped page of exactly this address and size. -/
def Bay.pageOf (y : Bay) (addr size : Nat) : Option Page :=
  y.pages.find? (fun p => p.addr == addr && p.size == size)

/-- The page that a MEM_MAP makes. -/
def newPage (o : MemMapOps) (p : Nat × Nat) : Page :=
  ⟨p.1, o.size == 1, p.2, o.attr % 2 == 1, o.attr / 2 % 2 == 1, o.attr / 4 % 2 == 1, o.attr / 8 % 2 == 1⟩

/-- The checks of Table 7.14 in its order; `t3` is the capacity of each tier 3 link. -/
def State.memMapCheck (s : State) (b : Nat) (o : MemMapOps) : Option Status :=
  let y := s.bay b
  let sz := mapPageSize o
  let ps := mapPages o
  let kerf := o.attr / 8 % 2 == 1
  let old := fun (p : Nat × Nat) => y.pageOf p.1 sz
  if o.op > 2 ∨ o.size > 1 ∨ o.attr ≥ 16 ∨ o.count = 0 ∨ (o.op ≠ 0 ∧ o.dpa ≠ 0) ∨ (o.op = 1 ∧ o.attr ≠ 0) ∨
      o.addr < 2 ^ 30 ∨ o.addr + o.count * sz > 2 ^ 47 ∨
      (kerf ∧ o.op = 0 ∧ ps.any (fun p => inTier1 p.2)) ∨
      (kerf ∧ o.op = 2 ∧ ps.any (fun p => match old p with | some g => inTier1 g.dpa | none => false)) then
    some .badParam
  else if o.addr % sz ≠ 0 ∨ (o.op = 0 ∧ o.dpa % sz ≠ 0) then some .badAlign
  else if o.op = 0 ∧ ps.any (fun p => !y.bind.granules.contains (p.2 / gib)) then some .notBound
  else if o.op ≠ 0 ∧ ps.any (fun p => (old p).isNone) then some .accessDenied
  else
    let range := (o.addr, o.count * sz)
    let otherSize := y.pages.any (fun g => g.size != sz && meets g.addr g.size range.1 range.2)
    let dup := y.pages.any (fun g => !meets g.addr g.size range.1 range.2 && meets g.dpa g.size o.dpa (o.count * sz))
    let area := ps.any (fun p => y.areas.contains (p.2 / gib))
    let land := y.pageInLanding range.1 range.2
    let heldKerf := ps.any (fun p => match old p with
      | some g => y.kerfPageHeld g
      | none => false)
    if (o.op = 0 ∧ (otherSize || dup || area)) ∨ land ∨ (o.op ≠ 0 ∧ heldKerf) then some .conflict
    else none

/-- The page table after a MEM_MAP, pages kept in ascending address order. -/
def Bay.applyMap (y : Bay) (o : MemMapOps) : Bay :=
  let ps := mapPages o
  let rest := y.pages.filter (fun g => !ps.any (fun p => p.1 == g.addr))
  let made := match o.op with
    | 0 => ps.map (newPage o)
    | 1 => []
    | _ => ps.filterMap (fun p => (y.pageOf p.1 (mapPageSize o)).map (fun g => newPage o (p.1, g.dpa)))
  { y with pages := sortBy (fun a b => decide (a.addr ≤ b.addr)) (rest ++ made) }

/-- A MEM_MAP whose checks pass changes its pages; a kerf page of the bay's drained or absent cut may go (R179). -/
def State.memMapEff (b : Nat) (o : MemMapOps) (s : State) : Eff :=
  match s.memMapCheck b o with
  | some st => (s, st, 0)
  | none => (s.setBay b (fun y => y.applyMap o), .ok, o.count)

/-- MEM_MAP (Table 7.3). -/
def execMemMap (h : Hdr) (o : MemMapOps) (s : State) : Host.Outcome State Fault Refusal :=
  .next (s.onRunning (.memMap h o) (fun c =>
    match c.bay? with
    | some b => s.complete h.adm (State.memMapEff b o)
    | none => s))

/-! ### MEM_PLACE (R128 to R130) -/

/-- Granules of a bay in a place: 0 and 1 tier 1 by die, 2 tier 2, 4 + n link n; ascending (R128). -/
def Bay.placeGranules (y : Bay) (dest : Nat) : List Nat :=
  sortBy (fun a b => decide (a ≤ b)) (y.bind.granules.filter (fun g => match dest with
    | 0 => decide (g < 256)
    | 1 => decide (256 ≤ g) && decide (g < 512)
    | 2 => decide (2048 ≤ g) && decide (g < 4096)
    | d => granuleLink g == some (d - 4)))

/-- The lowest free range of a size in a place: a whole free granule for a 1 GiB page, the lowest free 2 MiB range
otherwise. Areas of a join are never free. -/
def Bay.freeRange (y : Bay) (dest size : Nat) : Option Nat :=
  let gs := (y.placeGranules dest).filter (fun g => !y.areas.contains g)
  let cand := (gs.map (fun g => (List.range (gib / size)).map (fun i => g * gib + i * size))).flatten
  cand.find? (fun d => !y.pages.any (fun p => meets p.dpa p.size d size))

/-- The pages of a range, ascending. -/
def Bay.pagesIn (y : Bay) (a n : Nat) : List Page :=
  sortBy (fun p q => decide (p.addr ≤ q.addr)) (y.pages.filter (fun p => meets p.addr p.size a n))

/-- Every page gets a place while none of the old ranges is released (R130, check 3). -/
def Bay.placeFits (y : Bay) (dest : Nat) : List Page → Bool
  | [] => true
  | p :: ps => match y.freeRange dest p.size with
    | some d => Bay.placeFits { y with pages := y.pages ++ [{ p with addr := 2 ^ 50 + d, dpa := d }] } dest ps
    | none => false

/-- The checks of R130 after the licence and the DEST check. The range's page size is that of its first page, 2 MiB where
none is mapped, and a length of 0 is BAD_PARAM (log 71). -/
def State.memPlaceCheck (s : State) (b addr n dest : Nat) : Option Status :=
  let y := s.bay b
  let size := match y.pageAt addr with
    | some p => p.size
    | none => mib2
  let ps := y.pagesIn addr n
  if addr % size ≠ 0 ∨ n % size ≠ 0 then some .badAlign
  else if n = 0 then some .badParam
  else if (ps.map (·.size)).sum ≠ n ∨ ps.any (fun p => decide (p.addr < addr)) then some .accessDenied
  else if !y.placeFits dest ps then some .notBound
  else if ps.any y.kerfPageHeld || y.pageInLanding addr n then some .conflict
  else none

/-- The bytes of a page copied to another place of its size, which is rewritten whole: its zero and poison marks go. A
range marked zero is copied as zeros (R214). -/
def State.copyPage (s : State) (src dst n : Nat) : State :=
  let kept := s.dram.filter (fun c => decide (src ≤ c.1) && decide (c.1 < src + n) && !s.zeroMarks.contains (c.1 / mib2))
  let s := s.clearLoc ⟨.dram, dst⟩ n
  { s with
    zeroMarks := s.zeroMarks.filter (fun r => !(decide (dst / mib2 ≤ r) && decide (r < (dst + n) / mib2)))
    dram := kept.foldl (fun (m : Mem) c => Mem.set m (c.1 - src + dst) c.2) s.dram }

/-- A page moved: its bytes copied, its translation switched (R129). -/
def State.movePage (s : State) (b dest : Nat) (p : Page) : State :=
  match (s.bay b).freeRange dest p.size with
  | none => s
  | some d =>
    let s := s.copyPage p.dpa d p.size
    s.setBay b (fun y => { y with pages := y.pages.map (fun g => if g.addr = p.addr then { g with dpa := d } else g) })

/-- A page cannot be moved: it holds an unreadable line, or the place it goes to is behind an expander that is gone (R339,
R382). -/
def State.stuckPage (s : State) (b dest : Nat) (p : Page) : Bool :=
  s.poisoned ⟨.dram, p.dpa⟩ p.size || s.lost ⟨.dram, p.dpa⟩ ||
    (((s.bay b).freeRange dest p.size).map (fun d => s.lost ⟨.dram, d⟩)).getD false

/-- Pages are moved one at a time, ascending, until one cannot be (R129, R130): the state, and how many have moved. -/
def State.movePages (s : State) (b dest : Nat) : List Page → State × Nat
  | [] => (s, 0)
  | p :: ps =>
    if s.stuckPage b dest p then (s, 0)
    else
      let r := (s.movePage b dest p).movePages b dest ps
      (r.1, r.2 + 1)

/-- The operation of a MEM_PLACE. -/
def State.memPlaceEff (b addr n dest : Nat) (s : State) : Eff :=
  match s.memPlaceCheck b addr n dest with
  | some st => (s, st, 0)
  | none =>
    let ps := (s.bay b).pagesIn addr n
    let r := s.movePages b dest ps
    (r.1, if r.2 = ps.length then .ok else .machineCheck, r.2)

/-- MEM_PLACE (Table 7.3). -/
def execMemPlace (h : Hdr) (addr length dest : Nat) (s : State) : Host.Outcome State Fault Refusal :=
  .next (s.onRunning (.memPlace h addr length dest) (fun c =>
    match c.bay? with
    | some b => s.completeIn h.adm b [(addr, length)] (State.memPlaceEff b addr length dest)
    | none => s))

end Sys2Proof.Machine
end

