-- ==== Sys2Proof/Machine/Security.lean ====
section
/-!
DEFINITION. Key slots, the cipher engine, digests and entropy (R190 to R192, R307 to R318): KEY_LOAD, KEY_ERASE,
CIPHER_RUN, DIGEST_RUN, ENTROPY_READ and the TRNG's own events.
-/
namespace Sys2Proof.Machine

/-! ### Key slots (R190, R191, R311) -/

/-- SCARF_JOIN holds the slot (R190, R314). -/
def Bay.joinHolds (y : Bay) (slot : Nat) : Bool := match y.join with
  | some j => j.keyHeld && j.keySlot == slot
  | none => false

/-- The key slot that a dispatched command holds until it completes (R191). -/
def keyHeldBy : Instr → Option Nat
  | .cipherRun _ o => some o.slot
  | .ckptDrain _ _ _ _ slot => some slot
  | .ckptRestore _ _ _ slot => some slot
  | .ckptVerify _ _ _ slot => some slot
  | _ => none

/-- A dispatched command of the bay other than `adm` holds the slot. -/
def State.keyBusy (s : State) (b adm slot : Nat) : Bool :=
  s.cmds.any (fun c => c.ofBay b && c.dispatched && c.adm != adm && keyHeldBy c.instr == some slot)

/-- A key slot as KEY_STATE encodes it (Table 18.6). -/
def KeySlot.code : KeySlot → Nat
  | .empty => 0 | .gcm _ => 1 | .xts _ _ => 2

def State.setKey (s : State) (b slot : Nat) (k : KeySlot) : State :=
  s.setBay b (fun y => { y with keys := updNth y.keys slot (fun _ => k) })

/-- The bytes of a key by mode (R311). -/
def keyBytes (mode : Nat) : Nat := if mode = 0 then 32 else 64

/-- The key in its slot: a GCM key whole, an XTS key by halves; equal halves are refused (R311). -/
def keyOf (mode : Nat) (k : List Byte) : Option KeySlot :=
  if mode = 0 then some (.gcm k) else if k.take 32 = k.drop 32 then none else some (.xts (k.take 32) (k.drop 32))

/-- Loads a slot with a key already read. A reload in GCM mode restores a join's hold (R314). -/
def State.keyLoadEff (b slot mode : Nat) (key : List Byte) (s : State) : Eff :=
  if (s.bay b).joinHolds slot then (s, .conflict, 0)
  else
    let ours := match (s.bay b).join with
      | some j => j.keySlot == slot
      | none => false
    if ours && mode != 0 then (s, .conflict, 0)
    else
      match keyOf mode key with
      | none => (s, .badParam, 0)
      | some k =>
        let s := s.setKey b slot k
        (if ours then s.setBay b (fun y => { y with join := y.join.map (fun j => { j with keyHeld := true }) }) else s,
          .ok, 0)

/-- KEY_LOAD reads the key at dispatch; it waits while an alarm condition holds, or while a command holds the slot, with the
key that it read: `work` 1 says that `data` holds it (R191, R311, R314). -/
def execKeyLoad (h : Hdr) (slot mode addr : Nat) (s : State) : Host.Outcome State Fault Refusal :=
  .next (s.onRunning (.keyLoad h slot mode addr) (fun c =>
    match c.bay? with
    | none => s
    | some b =>
      match (if c.work = 1 then none else s.ioStatus b [(addr, keyBytes mode)] []) with
      | some st => (s.logBadReads b .rd h.tag [(addr, keyBytes mode)]).fail h.adm st
      | none =>
        let key := if c.work = 1 then c.data else s.readBay b addr (keyBytes mode)
        let keep := fun (s : State) => s.setSlot h.adm (fun c => { c with data := key, work := 1 })
        if s.dev.condition ≠ 0 then keep (s.setActive h.adm)
        else if s.keyBusy b h.adm slot then keep s
        else s.complete h.adm (State.keyLoadEff b slot mode key)))

/-- KEY_ERASE waits for the slot's holders; a slot that SCARF_JOIN holds is not erased (R190, R191, R312). -/
def execKeyErase (h : Hdr) (slot : Nat) (s : State) : Host.Outcome State Fault Refusal :=
  .next (s.onRunning (.keyErase h slot) (fun c =>
    match c.bay? with
    | none => s
    | some b =>
      let slots := if slot = 0xFF then [0, 1, 2, 3] else [slot]
      if slots.any (fun k => (s.bay b).joinHolds k) then s.fail h.adm .conflict
      else if slots.any (fun k => s.keyBusy b h.adm k) then s
      else (slots.foldl (fun s k => s.setKey b k .empty) s).finishNat h.adm .ok 0))

/-- ALARM_CONDITION_CLEARED: every waiting KEY_LOAD loads its slot; after a voltage or clock alarm the TRNG starts up
again (R314, R317). -/
def execAlarmConditionCleared (s : State) : Host.Outcome State Fault Refusal :=
  let volt := s.dev.condition.getLsbD 1 || s.dev.condition.getLsbD 2
  let s := { s with dev := { s.dev with condition := 0 } }
  let s := if volt then { s with trng := { s.trng with ready := false, pool := [] } } else s
  let waiting := s.cmds.filter (fun c => c.phase == Phase.active)
  .next (waiting.foldl (fun s c => match c.instr, c.bay? with
    | .keyLoad h slot mode _, some b =>
      if s.keyBusy b h.adm slot then s.setSlot h.adm (fun c => { c with phase := .running })
      else s.complete h.adm (State.keyLoadEff b slot mode c.data)
    | _, _ => s) s)

/-! ### CIPHER_RUN (R192, R307, R309) -/

def cipherIns (o : CipherOps) : List (Nat × Nat) := [(o.src, o.length), (o.aadAddr, o.aadLen), (o.auxAddr, 64)]

def cipherOuts (o : CipherOps) : List (Nat × Nat) := [(o.dst, o.length), (o.auxAddr, 64)]

/-- The limits of a mode that the slot's contents select (R192). -/
def cipherLimits (k : KeySlot) (o : CipherOps) (aux : List Byte) : Option Status :=
  match k with
  | .empty => some .notReady
  | .gcm _ => if o.length > 2 ^ 36 - 32 then some .badParam else none
  | .xts _ _ =>
    let unit := leAt aux 16 4
    let last := o.length % (max unit 1)
    if o.aadLen ≠ 0 ∨ o.aadAddr ≠ 0 ∨ unit < 16 ∨ unit > 2 ^ 24 ∨ (last ≠ 0 ∧ last < 16) then some .badParam else none

/-- Core cycles of a 4 KiB chunk on one pipeline of 16 bytes per cycle (R310). -/
def chunkCycles : Nat := 256

/-- The planned disagreements of two pipelines that meet a CIPHER_RUN (Table 14.2, log 8): each chunk is computed again on two
others, which is logged by pipeline and costs its time. The status is then CORRECTED. -/
def State.strikeCipher (s : State) (b : Nat) (tag : W32) : State :=
  let t := { s with faults := { s.faults with cipher := [] } }
  s.faults.cipher.foldl (fun (s : State) f =>
    (s.countBay b 4 (f.2 * chunkCycles)).log1 { Rec.blank with
      code := 0x0110, cls := 2, bay := b, kind := 15, die := 2, sub := f.1, tag := tag, d0 := f.2, d1 := f.2 * chunkCycles }) t

def State.cipherEff (b : Nat) (o : CipherOps) (s : State) : Eff :=
  let k := nth (s.bay b).keys o.slot
  if k = .empty then (s, .notReady, 0)
  else
    match s.ioStatus b (cipherIns o) (cipherOuts o) with
    | some st => (s, st, 0)
    | none =>
      let aux := s.readBay b o.auxAddr 64
      match cipherLimits k o aux with
      | some st => (s, st, 0)
      | none =>
        let src := s.readBay b o.src o.length
        let done := fun (s : State) => s.outStatus b (cipherOuts o) (if s.faults.cipher.isEmpty then .ok else .corrected)
        match k with
        | .empty => (s, .notReady, 0)
        | .gcm key =>
          let aad := s.readBay b o.aadAddr o.aadLen
          if o.decrypt then
            match gcmDecrypt key (aux.take 12) aad src (slice aux 16 16) with
            | some pt => (s.writeBay b o.dst pt, done s, o.length)
            | none => (s.writeBay b o.dst (zeros o.length), .digestMismatch, o.length)
          else
            let e := gcmEncrypt key (aux.take 12) aad src
            ((s.writeBay b o.dst e.1).writeBay b (o.auxAddr + 16) e.2, done s, o.length)
        | .xts k1 k2 =>
          (s.writeBay b o.dst (xtsRun k1 k2 o.decrypt (leAt aux 0 16) (leAt aux 16 4) src), done s, o.length)

/-- CIPHER_RUN (Table 7.11). -/
def execCipherRun (h : Hdr) (o : CipherOps) (s : State) : Host.Outcome State Fault Refusal :=
  .next (s.onRunning (.cipherRun h o) (fun c =>
    match c.bay? with
    | some b => s.completeIn h.adm b (cipherIns o) (fun s =>
      let e := State.cipherEff b o s
      if e.2.1.success then (e.1.strikeCipher b h.tag, e.2) else e)
    | none => s))

/-! ### DIGEST_RUN -/

def State.digestEff (b src dst length : Nat) (s : State) : Eff :=
  match s.ioStatus b [(src, length)] [(dst, 32)] with
  | some st => (s, st, 0)
  | none => (s.writeBay b dst (sha256 (s.readBay b src length)), s.outStatus b [(dst, 32)] .ok, 0)

/-- DIGEST_RUN (Table 7.11). -/
def execDigestRun (h : Hdr) (src dst length : Nat) (s : State) : Host.Outcome State Fault Refusal :=
  .next (s.onRunning (.digestRun h src dst length) (fun c =>
    match c.bay? with
    | some b => s.completeIn h.adm b [(src, length)] (State.digestEff b src dst length)
    | none => s))

/-! ### Entropy (R315 to R318) -/

/-- The bays with a reservation waiting, in round-robin order after the bay served last (R318). -/
def Trng.nextBay (t : Trng) : Option Nat :=
  ((List.range 16).map (fun i => (t.lastBay + 1 + i) % 16)).find? (fun b => t.reservations.any (fun r => r.1 == b))

/-- The destination and length of a waiting ENTROPY_READ. -/
def State.entropyOps (s : State) (adm : Nat) : Nat × Nat := match s.slot? adm with
  | none => (0, 0)
  | some c => match c.instr with
    | .entropyRead _ dst n => (dst, n)
    | _ => (0, 0)

/-- Serves one reservation: its bytes leave the pool and are written (R318). -/
def State.serveOne (s : State) : State :=
  match s.trng.nextBay with
  | none => s
  | some b =>
    match s.trng.reservations.find? (fun r => r.1 == b) with
    | none => s
    | some (_, adm) =>
      let n := (s.entropyOps adm).2
      if s.trng.pool.length < n then s
      else
        let out := s.trng.pool.take n
        let s := { s with trng := { s.trng with
          pool := s.trng.pool.drop n, lastBay := b, reservations := s.trng.reservations.filter (fun r => r.2 != adm) } }
        s.complete adm (fun s => s.putOut (.bay b 0) (s.entropyOps adm).1 out n)

/-- Serves reservations until the next one must wait. -/
def State.serveAll : Nat → State → State
  | 0, s => s
  | n + 1, s => State.serveAll n s.serveOne

/-- ENTROPY_READ: NOT_READY at once, or a reservation of the pool (R318). -/
def execEntropyRead (h : Hdr) (dst length : Nat) (s : State) : Host.Outcome State Fault Refusal :=
  .next (s.onRunning (.entropyRead h dst length) (fun c =>
    match c.bay? with
    | none => s
    | some b =>
      if !s.trng.ready then s.fail h.adm .notReady
      else if !s.rangeOk b .wr dst length then s.fail h.adm .accessDenied
      else
        let s := s.setActive h.adm
        let s := { s with trng := { s.trng with reservations := s.trng.reservations ++ [(b, h.adm)] } }
        s.serveAll s.trng.reservations.length))

/-- Samples as bytes, the earlier sample in the lower bit (log 13). -/
def sampleBytes (samples : List Bool) : List Byte :=
  (chunks 8 samples).map (fun c => BitVec.ofNat 8
    ((c.zipIdx.map (fun p => bit p.1 p.2)).sum))

/-- The longest run of equal samples reaches the cutoff of the repetition count test (R316). -/
def repeats (cutoff : Nat) : List Bool → Nat → Bool → Bool
  | [], _, _ => false
  | x :: xs, run, last =>
    let run := if x == last then run + 1 else 1
    decide (cutoff ≤ run) || repeats cutoff xs run x

/-- The run of equal samples at the end of a list that began with a run of `run` samples equal to `last`. -/
def endRun : List Bool → Nat → Bool → Nat × Bool
  | [], run, last => (run, last)
  | x :: xs, run, last => endRun xs (if x == last then run + 1 else 1) x

/-- The adaptive proportion test over a window: its first sample occurs in it fewer than 800 times (R316). -/
def proportionOk (w : List Bool) : Bool := decide ((w.filter (· == w.headD false)).length < 800)

/-- A continuous test failed, or the event that says so: the pool is discarded and the start-up begins again; a waiting read
completes NOT_READY; the third failure in a row stops the TRNG until a device reset and is logged (R317, R318). -/
def State.trngFail (s : State) : State :=
  let n := s.trng.failures + 1
  let waiting := s.trng.reservations
  let s := { s with trng := { s.trng with
    ready := false, stuck := decide (3 ≤ n), failures := n, pool := [], reservations := [], run := (0, false) } }
  let s := waiting.foldl (fun s r => s.fail r.2 .notReady) s
  if n = 3 then s.log1 { Rec.blank with code := 0x0171, kind := 18, die := 2, d0 := n } else s

/-- TRNG_OUTPUT: a window of 1,024 raw samples has closed. Both tests run over it, the repetition count over the samples
before it too; once they have passed, the output conditioned from it by SHA-256 enters the 16 KiB pool (R315, R316). -/
def execTrngOutput (samples : List Bool) (s : State) : Host.Outcome State Fault Refusal :=
  .next (if s.trng.ready ∧ samples.length = 1024 then
    if repeats 41 samples s.trng.run.1 s.trng.run.2 || !proportionOk samples then s.trngFail
    else
      let s := { s with trng := { s.trng with run := endRun samples s.trng.run.1 s.trng.run.2 } }
      if s.trng.pool.length + 32 ≤ 16384 then
        let s := { s with trng := { s.trng with pool := s.trng.pool ++ sha256 (sampleBytes samples) } }
        s.serveAll s.trng.reservations.length
      else s
  else s)

/-- TRNG_HEALTH_FAILURE: a test has failed outside a whole window, or in the start-up (R316, R317). -/
def execTrngHealthFailure (s : State) : Host.Outcome State Fault Refusal := .next s.trngFail

/-- TRNG_STARTUP_DONE: the start-up sequence has passed (R317). -/
def execTrngStartupDone (s : State) : Host.Outcome State Fault Refusal :=
  .next (if s.trng.stuck ∨ s.dev.hold ≠ 0 then s else { s with trng := { s.trng with ready := true, failures := 0 } })

end Sys2Proof.Machine
end

