-- ==== Sys2Proof/Machine/Cuts.lean ====
section
/-!
DEFINITION. Cuts of a bay: the step boundary (R321), how a cut begins, is copied and is discarded (R322, R323), the
predictive cut (R324), the end of a drain (R323, R328), and the Plane codec's self-check (R305).
-/
namespace Sys2Proof.Machine

def State.setCkpt (s : State) (b : Nat) (f : Ckpt → Ckpt) : State :=
  s.setBay b (fun y => { y with ckpt := f y.ckpt })

def State.setCut (s : State) (b : Nat) (f : Cut → Cut) : State :=
  s.setCkpt b (fun k => { k with cut := k.cut.map f })

/-- The device's own CUT_ID (R323). -/
def deviceCut : W32 := 0xFFFFFFFF

/-! ### The step boundary (R321) -/

/-- Commands that no step boundary lets run. -/
def breaksBoundary : Instr → Bool
  | .stepUpdate _ _ _ _ _ => true | .scarfEpochClose _ _ _ => true | .scarfCatchup _ _ => true
  | .ckptRestore _ _ _ _ => true | _ => false

/-- The APPLIED value that every non-frozen tensor of the map has, when they agree. -/
def Train.common (tr : Train) (p : ShardMap) : Option W32 := match p.live with
  | [] => some (tr.appliedOf 0)
  | i :: is => if is.all (fun j => tr.appliedOf j == tr.appliedOf i) then some (tr.appliedOf i) else none

/-- The step of a cut taken now: none when the bay is not at a step boundary. -/
def State.boundary (s : State) (b : Nat) : Option W32 :=
  let tr := (s.bay b).train
  match tr.map with
  | none => none
  | some p =>
    let running := s.cmds.any (fun c => c.ofBay b && c.dispatched && breaksBoundary c.instr)
    let begun := match tr.arm with
      | some a => a.begun
      | none => false
    if running || begun then none else tr.common p

/-! ### Copying (R322) -/

/-- The epoch that a manifest names: the bay's next one once it has joined (Table 13.2). -/
def Bay.epoch (y : Bay) : W32 := match y.join with
  | some j => if j.joining.isSome then 0xFFFFFFFF else j.nextEpoch
  | none => 0xFFFFFFFF

/-- A cut that waits for its boundary. -/
def newCut (id : W32) (l : CutBlk) (adm : Option Nat) (predictive evicted : Bool) : Cut :=
  { id := id, st := .pending, step := 0, epoch := 0, layout := l, adm := adm, predictive := predictive,
    evicted := evicted, dirty := [], drain := none, mapRaw := [], mapGen := 0 }

/-- A cut begins to copy at a step. -/
def State.beginCopy (s : State) (b : Nat) (step : W32) : State :=
  let y := s.bay b
  s.setCut b (fun c => { c with
    st := .copying, step := step, epoch := y.epoch, mapGen := y.train.mapGen
    mapRaw := match y.train.map with
      | some p => p.raw
      | none => [] })

/-- A cut is gone. -/
def State.discardCut (s : State) (b : Nat) : State := s.setCkpt b (fun k => { k with cut := none })

/-- The status of the accesses of the copy: source regions read, kerf pages written. -/
def State.copyStatus (s : State) (b : Nat) (ks : List (Nat × Nat × Nat × Nat × Nat)) : Option Status :=
  if ks.any (fun k => s.rangeBad b .rd k.2.2.1 k.2.2.2.1 || s.rangeSkips b .kerf k.2.1 k.2.2.2.1) then some .machineCheck
  else if ks.any (fun k => !s.rangeOk b .rd k.2.2.1 k.2.2.2.1 || !s.rangeOk b .kerf k.2.1 k.2.2.2.1) then
    some .accessDenied
  else none

/-- Every region of the layout copied from its live region, in map order. -/
def State.copyKerf (s : State) (b : Nat) (ks : List (Nat × Nat × Nat × Nat × Nat)) : State :=
  ks.foldl (fun s k => s.writeAcc b .kerf k.2.1 (s.readBay b k.2.2.1 k.2.2.2.1)) s

/-! ### The predictive cut (R324) -/

/-- After a warning on a unit bound to the bay, the device takes a cut of its own, or logs why it does not. -/
def State.takePredictive (s : State) (b : Nat) : State :=
  let y := s.bay b
  let skip := fun (why : Nat) => s.log2 b { Rec.blank with code := 0x0152, d0 := why }
  match y.train.map, y.ckpt.layout with
  | none, _ => skip 0
  | some _, none => skip 1
  | some _, some l =>
    if !s.kerfLarge b l then skip 1
    else if y.undrained.isSome then skip 2
    else s.setCkpt b (fun k => { k with cut := some (newCut deviceCut l none true false) })

/-- PREDICTIVE_CUT: the cut that follows a failure warning on a unit of the bay (R324, R343). -/
def execPredictiveCut (bay : Nat) (s : State) : Host.Outcome State Fault Refusal :=
  .next (if (s.bay bay).warned then (s.setBay bay (fun y => { y with warned := false })).takePredictive bay else s)

/-! ### The end of a drain (R323, R328) -/

/-- What a drain keeps of the cut that it drains, for its end: the digest, the step, the epoch and the map. -/
def Cut.mark (c : Cut) (digest : List Byte) : List Byte :=
  digest ++ toLe 4 c.step.toNat ++ toLe 4 c.epoch.toNat ++ toLe 8 c.mapGen

/-- A drain that completed OK or CORRECTED is the parent of the next incremental drain, and the cut that it drained is
DRAINED, unless another cut has replaced it (R323, R328). -/
def State.drained (s : State) (b adm : Nat) (mark : List Byte) : State :=
  s.setCkpt b (fun k => { k with
    cut := k.cut.map (fun (c : Cut) => if c.drain = some adm then { c with st := .drained, drain := none } else c)
    parent := some ⟨BitVec.ofNat 32 (leAt mark 32 4), BitVec.ofNat 32 (leAt mark 36 4), mark.take 32, leAt mark 40 8⟩ })

/-- The command of a drain ends with a status; `mark` is what it kept of its cut. -/
def State.endDrain (s : State) (b adm : Nat) (st : Status) (result : Nat) (mark : List Byte) : State :=
  let s := if st.success then s.drained b adm mark
    else s.setCut b (fun c => if c.drain = some adm then { c with drain := none } else c)
  s.finishNat adm st result

/-! ### The codec (R305) -/

/-- The lanes of the codec still in service. -/
def State.codecLanes (s : State) : List Nat := (List.range 8).filter (fun l => !s.codecFenced.contains l)

/-- Core cycles in which a lane encodes a block, its self-check included (R306). -/
def encodeCycles (len : Nat) : Nat := ceilDiv len 16 + 96

/-- The planned failures that meet one block of `len` bytes (R305): the first on a lane has it coded again there, which is
counted and logged; a second fences the lane, and the block goes on to the next. Answers the failures that remain. -/
def State.strikeCodec (b len : Nat) (adm : Option Nat) : List CodecFault → State → List CodecFault × State
  | [], s => ([], s)
  | f :: rest, s =>
    if 0 < f.after then ({ f with after := f.after - 1 } :: rest, s)
    else if f.times = 0 ∨ !s.codecLanes.contains f.lane then State.strikeCodec b len adm rest s
    else
      let unit : Rec := { Rec.blank with kind := 14, die := 2, sub := f.lane, tag := s.tagOf adm, d1 := encodeCycles len }
      let s := ((s.countBay b 15 1).countBay b 4 (encodeCycles len)).log1
        { unit with code := 0x0110, cls := 2, bay := b, d0 := 1 }
      let s := match adm with
        | some a => s.markCorrected a
        | none => s
      if f.times = 1 then (rest, s)
      else
        let s := (({ s with codecFenced := s.codecFenced ++ [f.lane] }).countBay b 4 (encodeCycles len)).log12 b
          { unit with code := 0x0112, cls := 3 }
        State.strikeCodec b len adm rest s

/-- A block of `len` bytes is encoded and released, unless every lane is fenced: then it cannot be coded. `adm` is the
command that codes. -/
def State.useCodec (s : State) (b len : Nat) (adm : Option Nat) : State × Bool :=
  if s.codecLanes.isEmpty then (s, false)
  else
    let r := State.strikeCodec b len adm s.faults.codec s
    let t := { r.2 with faults := { r.2.faults with codec := r.1 } }
    (t, !t.codecLanes.isEmpty)

/-- Several blocks are encoded in order, by their lengths, until one cannot be coded. -/
def State.useCodecs (b : Nat) (adm : Option Nat) : List Nat → State → State × Bool
  | [], s => (s, true)
  | len :: rest, s =>
    let r := s.useCodec b len adm
    if r.2 then State.useCodecs b adm rest r.1 else r

end Sys2Proof.Machine
end

