-- ==== Sys2Proof/Machine/Transfers.lean ====
section
/-!
DEFINITION. Transfers between members (R126, R127, R253, R269): MEM_COPY, the packets FABRIC_WRITE, READ_REQUEST,
READ_RESPONSE and COUNTER_ADD, and the triggered descriptors: TRIGGER_ARM, TRIGGER_DISARM, TRIGGER_FIRE. What the
packets carry beyond Table 10.3 is log 25.
-/
namespace Sys2Proof.Machine

/-! ### Packets of a transfer -/

/-! ### The end of a transfer -/

/-- Bytes done before the first chunk that failed. -/
def Xfer.doneBytes (x : Xfer) : Nat :=
  ((x.chunks.takeWhile (fun c => assoc x.answered c.1 == some 0)).map (·.2)).sum

/-- The cluster that issues a transfer: a descriptor's ISSUER; a command's is not stated (log 26). -/
def Xfer.issuer (x : Xfer) : Option Nat := x.trig.map (·.issuer)

/-- The status of a transfer whose chunks are all answered: that of the first that failed. -/
def Xfer.status (x : Xfer) : Status :=
  match x.chunks.findSome? (fun c => match assoc x.answered c.1 with
    | some 0 => none
    | some k => some k
    | none => none) with
  | some 1 => .accessDenied
  | some _ => .machineCheck
  | none => .ok

def Xfer.complete? (x : Xfer) : Bool := x.chunks.all (fun c => (assoc x.answered c.1).isSome)

/-- The command or the descriptor of a transfer ends. -/
def State.endXfer (s : State) (b : Nat) (x : Xfer) : State :=
  match x.adm, x.trig with
  | some adm, _ =>
    match s.slot? adm with
    | some c =>
      (match c.instr with
      | .ckptDrain _ _ _ _ _ => s.endDrain b adm x.status x.doneBytes c.data
      | .stepGather _ _ _ => s.gatherPut b adm x.status
      | _ => s.finishNat adm x.status x.doneBytes)
    | none => s
  | none, some t => s.firedEnd b t (!x.status.success)
  | none, none => s

/-- A transfer changed; it ends when every chunk is answered. -/
def State.putXfer (s : State) (b i : Nat) (x : Xfer) : State :=
  if x.complete? then (s.setBay b (fun y => { y with xfers := y.xfers.eraseIdx i })).endXfer b x
  else s.setBay b (fun y => { y with xfers := y.xfers.set i x })

/-! ### The start of a transfer -/

/-- The refusal of a read of a chunk on this device: 2 for an unreadable line, 1 for no right. -/
def State.readFault (s : State) (b a n : Nat) : Option Nat :=
  if s.rangeBad b .rd a n then some 2 else if !s.rangeOk b .rd a n then some 1 else none

/-- Sends the chunks of a transfer whose source is data at hand, up to the first that cannot be read. -/
def State.sendChunks (s : State) (b : Nat) (g : Group) (x : Xfer) (m : Nat) (data : Nat → Nat → List Byte)
    (bad : Nat → Nat → Option Nat) : State :=
  let good := x.chunks.takeWhile (fun c => (bad c.1 c.2).isNone)
  let stop := (x.chunks.drop good.length).take 1
  let x := { x with
    chunks := good ++ stop
    answered := stop.map (fun c => (c.1, (bad c.1 c.2).getD 1)) }
  let s := s.setBay b (fun y => { y with xfers := y.xfers ++ [x] })
  let s := good.zipIdx.foldl (fun s c => s.sendTo b g x.issuer x.adm m x.vc 0 (x.dst + c.1.1) c.2 (data c.1.1 c.1.2)) s
  s.putXfer b ((s.bay b).xfers.length - 1) x

/-- Sends a read request for every chunk of a transfer whose source is another member. -/
def State.askChunks (s : State) (b : Nat) (g : Group) (x : Xfer) (m : Nat) : State :=
  let s := s.setBay b (fun y => { y with xfers := y.xfers ++ [x] })
  x.chunks.zipIdx.foldl (fun s c => s.sendTo b g x.issuer x.adm m x.vc 1 (x.src + c.1.1) c.2 (toLe 4 c.1.2)) s

/-- Starts a transfer between two addresses of which at least one lies with another member. A side that is no member of
a formed group refuses it (R126). -/
def State.startXfer (s : State) (b group : Nat) (vc : Nat) (adm : Option Nat) (trig : Option TrigBlk) (src dst n : Nat) :
    State :=
  let g := (s.bay b).formed? group
  let x : Xfer := {
    adm := adm, trig := trig, group := group, vc := vc, srcMember := sideOf g src, dstMember := sideOf g dst
    src := sideAddr src, dst := sideAddr dst, chunks := cutChunks (sideAddr dst) n, got := [], answered := [] }
  let inGroup := fun (g : Group) (m : Option Nat) => match m with
    | some k => decide (k < g.blk.members)
    | none => true
  match g with
  | none => s.endXfer b { x with chunks := [(0, n)], answered := [(0, 1)] }
  | some g =>
    if !inGroup g x.srcMember || !inGroup g x.dstMember then s.endXfer b { x with chunks := [(0, n)], answered := [(0, 1)] }
    else
      match x.srcMember, x.dstMember with
      | some m, _ => s.askChunks b g x m
      | none, some m =>
        let s := if adm.isNone then s.lateReads b [(src, n)] else s
        let s := match x.chunks.find? (fun c => (s.readFault b (x.src + c.1) c.2).isSome) with
          | some c => if s.readFault b (x.src + c.1) c.2 = some 2 then
              s.logBadReads b .rd (s.tagOf adm) [(x.src + c.1, c.2)] else s
          | none => s
        s.sendChunks b g x m (fun o k => s.readBay b (x.src + o) k) (fun o k => s.readFault b (x.src + o) k)
      | none, none => s.endXfer b { x with chunks := [] }

/-- MEM_COPY (Table 7.3): here by lines, with another member by packets on VC4 (log 25). -/
def execMemCopy (h : Hdr) (src dst length : Nat) (s : State) : Host.Outcome State Fault Refusal :=
  .next (s.onRunning (.memCopy h src dst length) (fun c =>
    match c.bay? with
    | none => s
    | some b =>
      let group := ((s.bay b).shardGroup).getD 64
      let g := (s.bay b).formed? group
      if (sideOf g src).isNone && (sideOf g dst).isNone then
        s.complete h.adm (State.copyLocal b h.tag (sideAddr src) (sideAddr dst) length)
      else (s.setActive h.adm).startXfer b group 4 (some h.adm) none src dst length))

/-! ### Packets received -/

/-- The group of a packet in this device's bay, when its sender is a member. -/
def State.groupOf (s : State) (p : Packet) : Option Group := match (s.bay p.bay).formed? p.group with
  | some g => if (g.blk.nodes.take g.blk.members).contains p.snode then some g else none
  | none => none

/-- Bit 47 of a response's OFFSET, which no bay address has, marks a refusal; its payload is then the code (log 25). -/
def refusedBit : Nat := 2 ^ 47

/-- Answers a request packet: its fields returned, with the data of a read, or a refusal's code. -/
def State.answer (s : State) (p : Packet) (code : Nat) (data : List Byte) : State :=
  s.sendPacket { p with
    dnode := p.snode, snode := s.nv.node, typ := 2, hops := 0
    offset := p.offset % refusedBit + (if code = 0 then 0 else refusedBit)
    data := if code = 0 then data else toLe 1 code }

/-- The code of a response: 0, or the refusal's. -/
def answerCode (p : Packet) : Nat := if refusedBit ≤ p.offset then max 1 (byteAt p.data 0) else 0

/-- FABRIC_WRITE: the target's interface checks the write with its own page table, commits it and answers (R126). -/
def execFabricWrite (p : Packet) (s : State) : Host.Outcome State Fault Refusal :=
  .next (if s.uncommitted p then s
  else
    let s := s.takePacket p
    if (s.groupOf p).isNone || !s.fabricOk p.bay .wr p.offset p.data.length then s.answer p 1 []
    else
      let code := if s.rangeSkips p.bay .wr p.offset p.data.length then 2 else 0
      (s.writeBay p.bay p.offset p.data).answer p code [])

/-- READ_REQUEST: checked like a write, with the page's READ right; answered with the data (R126). -/
def execReadRequest (p : Packet) (s : State) : Host.Outcome State Fault Refusal :=
  let n := leAt p.data 0 4
  .next (if s.uncommitted p then s
  else
    let s := s.takePacket p
    if (s.groupOf p).isNone || !s.fabricOk p.bay .rd p.offset n || decide (2048 < n) then s.answer p 1 []
    else if s.rangeBad p.bay .rd p.offset n then (s.logBadReads p.bay .rd 0 [(p.offset, n)]).answer p 2 []
    else (s.lateReads p.bay [(p.offset, n)]).answer p 0 (s.readBay p.bay p.offset n))

/-- Whether a response answers a chunk's read, or its write. -/
def Xfer.awaits (x : Xfer) (g : Group) (p : Packet) (c : (Nat × Nat) × Nat) : Bool :=
  let o := c.1.1
  let here := fun (m : Option Nat) (a : Nat) => match m with
    | some m => g.node m == p.snode && a + o == p.offset % refusedBit && c.2 % 65536 == p.tag
    | none => false
  (assoc x.answered o).isNone &&
    (if x.srcMember.isSome && !x.got.contains o then here x.srcMember x.src else here x.dstMember x.dst)

/-- A transfer of the group and its chunk that a response answers. -/
def State.findXfer (s : State) (g : Group) (p : Packet) : Option (Nat × Xfer × (Nat × Nat) × Nat) :=
  (s.bay p.bay).xfers.zipIdx.findSome? (fun x =>
    if x.1.group = g.id then (x.1.chunks.zipIdx.find? (x.1.awaits g p)).map (fun c => (x.2, x.1, c.1, c.2)) else none)

/-- A read chunk lands here. -/
def State.landChunk (s : State) (b a : Nat) (bs : List Byte) : State × Nat :=
  if !s.rangeOk b .wr a bs.length then (s, 1)
  else (s.writeBay b a bs, if s.rangeSkips b .wr a bs.length then 2 else 0)

/-- READ_RESPONSE: a chunk read from a member lands here or goes on to its destination, or a write is acknowledged. -/
def execReadResponse (p : Packet) (s : State) : Host.Outcome State Fault Refusal :=
  .next (if s.uncommitted p then s else
  let s := s.takePacket p
  match s.groupOf p with
  | none => s
  | some g =>
    match s.findXfer g p with
    | none => s
    | some (i, x, c, k) =>
      let code := answerCode p
      let done := fun (s : State) (code : Nat) => s.putXfer p.bay i { x with answered := x.answered ++ [(c.1, code)] }
      if code ≠ 0 ∨ x.srcMember.isNone ∨ x.got.contains c.1 then done s code
      else
        let bs := slice p.data 0 c.2
        match x.dstMember with
        | none =>
          let r := s.landChunk p.bay (x.dst + c.1) bs
          done r.1 r.2
        | some m =>
          (s.setBay p.bay (fun y => { y with xfers := y.xfers.set i { x with got := x.got ++ [c.1] } })).sendTo p.bay g
            x.issuer x.adm m x.vc 0 (x.dst + c.1) k bs)

/-- COUNTER_ADD: a remote increment of an event counter (R269). -/
def execCounterAdd (p : Packet) (s : State) : Host.Outcome State Fault Refusal :=
  .next (if s.uncommitted p then s
  else
    let s := s.takePacket p
    if (s.groupOf p).isNone then s
    else s.bump p.bay (p.offset % 256) (leAt p.data 0 8) (byteAt p.data 8 % 2 == 1))

/-! ### Triggered descriptors (R269, R270) -/

/-- The collective that a COLLECTIVE descriptor stands for. -/
def trigOps (t : TrigBlk) : CollOps := ⟨t.src, t.dst, t.length, t.group, t.op, t.fmt, t.algo, t.root, t.rstride⟩

def trigOpcode (t : TrigBlk) : Nat := 0x0400 + t.copcode

/-- A descriptor that uses its group: REMOTE_ADD, COLLECTIVE, and PUT and GET with a fabric address. -/
def usesGroup (t : TrigBlk) : Bool :=
  t.kind == 2 || t.kind == 3 || (decide (t.kind < 2) && (isFabric t.src || isFabric t.dst))

/-- An address of a PUT or GET: a bay address or a fabric address (R127). -/
def sideOk (a : Nat) : Bool := isBayAddr a || isFabric a

/-- The field checks of a descriptor. -/
def trigFields (t : TrigBlk) : Bool :=
  decide (t.kind ≤ 4) && decide (t.group ≤ 63) &&
    (match t.kind with
    | 2 => t.vc == 0 && decide (t.dst < 64)
    | 3 => t.vc == 0 && isBayAddr t.src && isBayAddr t.dst && decide (t.copcode ≤ 3) && collFmtOk (trigOpcode t) (trigOps t) &&
        decide (t.algo ≤ 1)
    | 4 => t.vc == 0
    | _ => decide (1 ≤ t.vc) && decide (t.vc ≤ 6) && decide (1 ≤ t.length) && decide (t.length ≤ 2 ^ 40) && sideOk t.src &&
        sideOk t.dst)

/-- The checks of TRIGGER_ARM (Table 7.7). -/
def State.trigCheck (s : State) (b : Nat) (t : TrigBlk) : Option Status :=
  let y := s.bay b
  let unknown := usesGroup t && (y.formed? t.group).isNone
  if !trigFields t then some .badParam
  else if t.kind = 3 ∧ s.collCheck b (trigOpcode t) (trigOps t) = some .badParam then some .badParam
  else if 1024 ≤ y.trigs.length then some .conflict
  else if !y.bind.clusters.getLsbD t.issuer ∨ unknown then some .notBound
  else if t.kind = 3 then s.collCheck b (trigOpcode t) (trigOps t)
  else none

/-- The lowest free handle (R269). -/
def Bay.freeHandle (y : Bay) : Nat := ((List.range 1024).find? (fun h => !y.trigs.any (·.handle == h))).getD 0

/-- TRIGGER_ARM: a descriptor on a counter that has reached THRESH is due at once (R270). -/
def execTriggerArm (h : Hdr) (t : TrigBlk) (s : State) : Host.Outcome State Fault Refusal :=
  .next (s.onRunning (.triggerArm h t) (fun c =>
    match c.bay? with
    | none => s
    | some b =>
      match s.trigCheck b t with
      | some st => s.fail h.adm st
      | none =>
        let y := s.bay b
        let d : Trig := ⟨y.freeHandle, t, reached (nth y.counters t.waitCtr).value t.thresh, s.clock.uptime, false⟩
        (s.setBay b (fun y => { y with trigs := y.trigs ++ [d] })).finishNat h.adm .ok d.handle))

/-- TRIGGER_DISARM: a descriptor whose counter has reached its threshold fires whole (Table 7.7). -/
def execTriggerDisarm (h : Hdr) (handle : Nat) (s : State) : Host.Outcome State Fault Refusal :=
  .next (s.onRunning (.triggerDisarm h handle) (fun c =>
    match c.bay? with
    | none => s
    | some b =>
      match (s.bay b).trigs.find? (·.handle == handle) with
      | none => s.fail h.adm .badParam
      | some d =>
        if d.due then s.fail h.adm .tooLate
        else
          (s.setBay b (fun y => { y with trigs := y.trigs.filter (fun (d : Trig) => d.handle != handle) })).finishNat h.adm .ok 0))

/-- A collective that a descriptor fires: the next of its group (R263, R269). It takes the FTZ of the binding record at
the moment of firing, as a command takes it at admission (R52; DESIGN CHOICE, log 38). -/
def State.fireColl (s : State) (b : Nat) (t : TrigBlk) : State :=
  let o := trigOps t
  match (s.bay b).formed? t.group, s.collCheck b (trigOpcode t) o with
  | some g, none =>
    let s := s.setGroup b t.group (fun g => { g with count := g.count + 1 })
    match s.collAccess b g (trigOpcode t) o with
    | some _ => s.firedEnd b t true
    | none =>
      let x : Coll := ⟨none, some t, t.group, g.count, trigOpcode t, o, (s.bay b).bind.ftz, [], [], [], [], false, []⟩
      (s.startColl b g x).takeEarlySegs b t.group g.count
  | _, _ => s.firedEnd b t true

/-- What a descriptor does when it fires without ERR. -/
def State.fireEffect (s : State) (b : Nat) (t : TrigBlk) : State :=
  let g := (s.bay b).formed? t.group
  match t.kind with
  | 2 =>
    let known := match g with
      | some g => decide (t.dst % 64 < g.blk.members)
      | none => false
    if known then (s.addAt b g (some t.issuer) (some (t.dst % 64)) t.vc t.remoteCtr t.length false).firedEnd b t false
    else s.firedEnd b t true
  | 3 => s.fireColl b t
  | 4 => (s.bump b t.signalCtr t.length false).firedEnd b t false
  | _ =>
    if (sideOf g t.src).isNone && (sideOf g t.dst).isNone then
      let e := State.copyLocal b 0 (sideAddr t.src) (sideAddr t.dst) t.length s
      e.1.firedEnd b t (!e.2.1.success)
    else s.startXfer b t.group t.vc none (some t) t.src t.dst t.length

/-- After firing, a descriptor with REARM waits for its next threshold; another is gone (R269, R270). -/
def State.afterFire (s : State) (b handle : Nat) : State :=
  s.setBay b (fun y => { y with
    trigs := (y.trigs.filter (fun (d : Trig) => d.handle != handle || d.blk.rearm)).map (fun (d : Trig) =>
      if d.handle = handle then
        let th := d.blk.thresh + d.blk.stride
        { d with
          blk := { d.blk with thresh := th }
          dueAt := s.clock.uptime
          due := d.blk.stride != 0 && reached (nth y.counters d.blk.waitCtr).value th
          spent := d.blk.stride == 0 }
      else d) })

/-- A descriptor's turn at its network interface: no other one of its ISSUER reached its threshold earlier, or at the same
time with a lower handle (R270). -/
def Bay.trigTurn (y : Bay) (d : Trig) : Bool :=
  !y.trigs.any (fun e => e.due && e.blk.issuer == d.blk.issuer &&
    (decide (e.dueAt < d.dueAt) || (e.dueAt == d.dueAt && decide (e.handle < d.handle))))

/-- TRIGGER_FIRE: a due descriptor of a bay that runs fires in its turn; with ERR on its counter it only passes the
failure on. -/
def execTriggerFire (bay handle : Nat) (s : State) : Host.Outcome State Fault Refusal :=
  .next (match (s.bay bay).trigs.find? (·.handle == handle) with
  | none => s
  | some d =>
    if !d.due || !(s.bay bay).runs || !(s.bay bay).trigTurn d then s
    else
      let err := (nth (s.bay bay).counters d.blk.waitCtr).err
      let s := s.afterFire bay handle
      if err then s.passErr bay d.blk else s.fireEffect bay d.blk)

end Sys2Proof.Machine
end

