-- ==== Sys2Proof/Machine/Checkpoint.lean ====
section
/-!
DEFINITION. Checkpoints (R319 to R332): CKPT_CUT, CKPT_DRAIN, CKPT_RELEASE, CKPT_RESTORE, CKPT_VERIFY; the drain stream
and its manifest.
-/
namespace Sys2Proof.Machine

/-! ### CKPT_CUT (R319 to R322) -/

/-- The checks of CKPT_CUT; the layout's fields are checked against the map when one is loaded. -/
def State.cutCheck (s : State) (b : Nat) (cutId : W32) (blk : CutBlk) : Option Status :=
  let y := s.bay b
  let misfit : Bool := match y.train.map with
    | some p => !layoutFits p blk
    | none => false
  if cutId = deviceCut ∨ (blk.layoutOnly ∧ cutId ≠ 0) ∨ misfit then some .badParam
  else if blk.layoutOnly then none
  else if y.train.map.isSome ∧ !s.kerfLarge b blk then some .notBound
  else if y.undrained.isSome then some .conflict
  else none

/-- CKPT_CUT: pending until the bay is at a step boundary, then copying (Table 7.9). -/
def execCkptCut (h : Hdr) (cutId : W32) (blk : CutBlk) (s : State) : Host.Outcome State Fault Refusal :=
  .next (s.onRunning (.ckptCut h cutId blk) (fun c =>
    match c.bay? with
    | none => s
    | some b =>
      match s.cutCheck b cutId blk with
      | some st => s.fail h.adm st
      | none =>
        if blk.layoutOnly then s.finishNat h.adm .ok 0xFFFFFFFF
        else
          let s := (s.setActive h.adm).setCkpt b (fun k => { k with cut := some (newCut cutId blk (some h.adm) false false) })
          match s.boundary b with
          | some step => s.beginCopy b step
          | none => s))

/-! ### The drain stream (R325, R328) -/

/-- The classes of a block group in its order: base, master, moments, outer momentum. -/
def streamClasses : List Nat := [4, 0, 1, 2, 5]

/-- The classes that a tensor has. -/
def classesOf (p : ShardMap) (t : TensorRec) : List Nat :=
  streamClasses.filter (fun cls => (tensorRegions p t).any (fun r => r.1 == cls))

/-- Element width of a class (Table 13.3). -/
def classW (t : TensorRec) : Nat → Nat
  | 1 => if t.mfmt = 1 then 4 else 1
  | 2 => if t.mfmt = 1 then 4 else 1
  | 5 => 2
  | _ => 4

/-- Stored bytes of `n` elements of a class. -/
def classBytes (t : TensorRec) (n : Nat) : Nat → Nat
  | 1 => storedBytes t.mfmt n
  | 2 => storedBytes t.mfmt n
  | 5 => 2 * n
  | _ => 4 * n

/-- The tensor's live region of a class. -/
def classAddr (t : TensorRec) : Nat → Nat
  | 0 => t.master | 1 => t.m1 | 2 => t.m2 | 4 => t.base | 5 => t.omom | _ => 0

/-- The place of a block in its live region: address and bytes. -/
def liveBlock (p : ShardMap) (t : TensorRec) (k cls : Nat) : Nat × Nat :=
  (classAddr t cls + classBytes t (16384 * k) cls, classBytes t (blockElems (p.elems t) k) cls)

/-- The place of a block in a layout's kerf copy. -/
def kerfBlock (p : ShardMap) (l : CutBlk) (ti k cls : Nat) : Nat × Nat :=
  let t := nth p.tensors ti
  let a := ((kerfCopies p l).find? (fun x => x.1 == cls && x.2.2.2.2 == ti)).map (·.2.1)
  (a.getD 0 + classBytes t (16384 * k) cls, classBytes t (blockElems (p.elems t) k) cls)

/-- Where the drain reads a block from: the live base, or the kerf copy (Table 13.3). -/
def drainSource (p : ShardMap) (l : CutBlk) (ti k cls : Nat) : Acc × Nat × Nat :=
  if cls = 4 then (.rd, liveBlock p (nth p.tensors ti) k 4) else (.kerf, kerfBlock p l ti k cls)

/-- The reference of a block: MASTER is coded against the live base when the tensor has one. -/
def State.blockRef (s : State) (b : Nat) (p : ShardMap) (ti k cls : Nat) : Option (List Byte) :=
  let t := nth p.tensors ti
  if cls = 0 ∧ (classesOf p t).contains 4 then
    let r := liveBlock p t k 4
    some (s.readBay b r.1 r.2)
  else none

/-- Groups with a record of any kind for a step after the parent's, up to the cut's. -/
def State.changedGroups (s : State) (b : Nat) (p : ShardMap) (after upto : W32) : List Nat :=
  ((s.diffRecords b).map (fun r =>
    let st := recStep r
    let id := BitVec.ofNat 32 (leAt r 12 4)
    if serialBefore after st && !serialBefore upto st then
      match p.tensors.findIdx? (·.id == id) with
      | some ti => (List.range (leAt r 20 4)).map (fun i => p.firstBlock ti + leAt r 16 4 + i)
      | none => []
    else [])).flatten

/-- How a drain of PATH 2 goes: incremental against a parent, or a full stream with FALLBACK (R328). -/
def State.parentFor (s : State) (b : Nat) (p : ShardMap) : Option Parent :=
  match (s.bay b).ckpt.parent with
  | none => none
  | some q =>
    if q.mapGen ≠ (s.bay b).train.mapGen ∨ p.diffAddr = 0 ∨ exportTooLate (s.diffRecords b) (q.step + 1) then none
    else some q

/-- The blocks of the stream, in order: (group, class). A full stream holds every class of every group. An incremental
one holds master and moments of the changed groups, and every group's base and outer momentum when the epoch moved. -/
def State.streamPlan (s : State) (b : Nat) (p : ShardMap) (c : Cut) (parent : Option Parent) : List (Nat × Nat) :=
  let gs := List.range p.blockCount
  let cls := fun (g : Nat) => match p.locate g with
    | some (ti, _) => classesOf p (nth p.tensors ti)
    | none => []
  match parent with
  | none => (gs.map (fun g => (cls g).map (fun x => (g, x)))).flatten
  | some q =>
    let ch := s.changedGroups b p q.step c.step
    let moved := q.epoch != c.epoch
    (gs.map (fun g => ((cls g).filter (fun x =>
      if x = 4 ∨ x = 5 then moved else ch.contains g)).map (fun x => (g, x)))).flatten

/-- The input of every block of a plan, in stream order. -/
def State.planInputs (s : State) (b : Nat) (p : ShardMap) (l : CutBlk) (plan : List (Nat × Nat)) : List (List Byte) :=
  plan.map (fun x => match p.locate x.1 with
    | some (ti, k) =>
      let r := drainSource p l ti k x.2
      s.readAcc b r.1 r.2.1 r.2.2
    | none => [])

/-- The coded stream before padding and cipher: `crc` in the local form. -/
def State.planStream (s : State) (b : Nat) (p : ShardMap) (crc : Bool) (plan : List (Nat × Nat)) (ins : List (List Byte)) :
    List Byte :=
  ((plan.zip ins).map (fun x => match p.locate x.1.1 with
    | some (ti, k) => planeEncode (classW (nth p.tensors ti) x.1.2) (s.blockRef b p ti k x.1.2) crc x.1.1 x.2
    | none => [])).flatten

/-- The first unit number of a stream (R326). -/
def streamUnit (step : W32) (member : Nat) (incremental : Bool) : Nat :=
  step.toNat * 2 ^ 96 + member * 2 ^ 90 + bit incremental 89

/-- The manifest's bytes (Table 13.2) with MANIFEST_DIGEST zero. -/
def State.manifestBody (s : State) (p : ShardMap) (c : Cut) (path : Nat) (encrypted : Bool) (parent : Option Parent)
    (streamLen rawLen groups : Nat) (shard : List Byte) : List Byte :=
  let flags := bit parent.isSome 0 + bit (path == 2 && parent.isNone) 1 + bit encrypted 2 + bit c.predictive 3 +
    bit c.evicted 4
  toLe 2 1 ++ toLe 1 flags ++ toLe 1 p.members ++ toLe 1 p.thisMember ++ toLe 1 path ++ zeros 2 ++ toLe 4 c.id.toNat ++
    toLe 4 c.step.toNat ++ toLe 4 c.epoch.toNat ++ toLe 4 c.mapRaw.length ++ toLe 8 streamLen ++ toLe 8 rawLen ++
    toLe 8 groups ++ (s.boot.versions.map (fun v => toLe 8 v.toNat)).flatten ++ toLe 16 s.factory.uid ++
    toLe 4 ((parent.map (fun q => q.step.toNat)).getD 0) ++ zeros 4 ++ (parent.map (·.digest)).getD (zeros 32) ++ shard ++
    zeros 32 ++ zeros 48 ++ c.mapRaw

/-- MANIFEST_DIGEST: SHA-256 with its own field zero (R330). -/
def manifestDigest (m : List Byte) : List Byte := sha256 (m.take 0xB0 ++ zeros 32 ++ m.drop 0xD0)

/-- What a drain writes, and its MANIFEST_DIGEST. -/
def State.drainBytes (s : State) (b : Nat) (p : ShardMap) (c : Cut) (path : Nat) (key : KeySlot) (parent : Option Parent) :
    List Byte × List Byte :=
  let plan := s.streamPlan b p c parent
  let ins := s.planInputs b p c.layout plan
  let enc := match key with
    | .xts _ _ => true
    | _ => false
  let plain := padMul 4096 (s.planStream b p (!enc) plan ins)
  let stream := match key with
    | .xts k1 k2 => xtsRun k1 k2 false (streamUnit c.step p.thisMember parent.isSome) 4096 plain
    | _ => plain
  let body := s.manifestBody p c path enc parent stream.length ((ins.map (·.length)).sum)
    ((plan.map (·.1)).eraseDups.length) (sha256 ins.flatten)
  let d := manifestDigest body
  (padMul 4096 (body.take 0xB0 ++ d ++ body.drop 0xD0) ++ stream, d)

/-- What the drain reads: every block's source, and the live base against which MASTER is coded (R325, R329). -/
def drainRanges (p : ShardMap) (l : CutBlk) (plan : List (Nat × Nat)) : List (Acc × Nat × Nat) :=
  (plan.map (fun x => match p.locate x.1 with
    | some (ti, k) =>
      drainSource p l ti k x.2 ::
        (if x.2 = 0 ∧ (classesOf p (nth p.tensors ti)).contains 4 then [drainSource p l ti k 4] else [])
    | none => [])).flatten

/-- The status of the drain's reads. -/
def State.drainReads (s : State) (b : Nat) (p : ShardMap) (l : CutBlk) (plan : List (Nat × Nat)) : Option Status :=
  let rs := drainRanges p l plan
  if rs.any (fun r => s.rangeBad b r.1 r.2.1 r.2.2) then some .machineCheck
  else if rs.any (fun r => !s.rangeOk b r.1 r.2.1 r.2.2) then some .accessDenied
  else none

/-- The slot that a drain or a restore names: none is 0xFF. -/
def Bay.drainKey (y : Bay) (slot : Nat) : Option KeySlot :=
  if slot = 0xFF then some .empty else match nth y.keys slot with
    | .xts a c => some (.xts a c)
    | _ => none

/-- The checks of CKPT_DRAIN (R188, R323, R327, Table 7.9). -/
def State.drainCheck (s : State) (b dst : Nat) (cutId : W32) (path slot : Nat) : Option Status :=
  let y := s.bay b
  let devMem := decide (2 ^ 30 ≤ dst) && decide (dst < 2 ^ 47)
  let place := match path with
    | 1 => isFabric dst && (match y.train.map with
      | some p => fabricMember dst == (p.thisMember + 1) % p.members
      | none => false)
    | _ => isBayAddr dst && decide (2 ^ 30 ≤ dst)
  let known := match y.ckpt.cut with
    | some c => c.id == cutId && (c.st == .held || c.st == .drained)
    | none => false
  if 2 < path ∨ (3 < slot ∧ slot ≠ 0xFF) ∨ !place ∨ !known ∨ (y.drainKey slot).isNone ∨
      (slot = 0xFF ∧ (path = 1 ∨ !devMem)) then
    some .badParam
  else if (y.ckpt.cut.bind (·.drain)).isSome then some .conflict
  else none

/-- A drain over local addresses: the status of its write and the state after it. On PATH 1 the pages carry FABRIC and
WRITE even where the buddy is this member itself (R327). -/
def State.drainLocal (b adm path dst : Nat) (out : List Byte) (s : State) : State × Status :=
  if !(if path = 1 then s.fabricOk b .wr dst out.length else s.rangeOk b .wr dst out.length) then (s, .accessDenied)
  else
    let st := s.outStatus b [(dst, out.length)] (if ((s.slot? adm).map (·.corrected)).getD false then .corrected else .ok)
    (s.writeBay b dst out, st)

/-- The unreadable lines that a drain meets first are logged (R339). -/
def State.logDrain (s : State) (b : Nat) (tag : W32) (rs : List (Acc × Nat × Nat)) : State :=
  match rs.find? (fun r => s.rangeBad b r.1 r.2.1 r.2.2) with
  | some r => s.logBadReads b r.1 tag [r.2]
  | none => s

/-- CKPT_DRAIN (Table 7.9): a local drain completes with its writes; one to the buddy when its packets are answered. -/
def execCkptDrain (h : Hdr) (dst : Nat) (cutId : W32) (path slot : Nat) (s : State) : Host.Outcome State Fault Refusal :=
  .next (s.onRunning (.ckptDrain h dst cutId path slot) (fun c =>
    match c.bay? with
    | none => s
    | some b =>
      match s.drainCheck b dst cutId path slot with
      | some st => s.fail h.adm st
      | none =>
        match (s.bay b).ckpt.cut with
        | none => s.fail h.adm .badParam
        | some k =>
          let p := decodeMap k.mapRaw
          let parent := if path = 2 then s.parentFor b p else none
          let plan := s.streamPlan b p k parent
          match s.drainReads b p k.layout plan with
          | some st => (if st = .machineCheck then s.logDrain b h.tag (drainRanges p k.layout plan) else s).fail h.adm st
          | none =>
            let r := State.useCodecs b (some h.adm) ((s.planInputs b p k.layout plan).map (·.length)) s
            if !r.2 then r.1.fail h.adm .machineCheck
            else
              let key := ((s.bay b).drainKey slot).getD .empty
              let o := r.1.drainBytes b p k path key parent
              let group := ((s.bay b).formed? p.group)
              match sideOf group dst, group with
              | some m, some g =>
                let x : Xfer := {
                  adm := some h.adm, trig := none, group := g.id, vc := 6, srcMember := none, dstMember := some m, src := 0
                  dst := sideAddr dst, chunks := cutChunks (sideAddr dst) o.1.length, got := [], answered := [] }
                let s := (r.1.setActive h.adm).setSlot h.adm (fun c => { c with data := k.mark o.2 })
                let s := s.setCut b (fun k => { k with drain := some h.adm })
                s.sendChunks b g x m (fun off n => slice o.1 off n) (fun _ _ => none)
              | some _, none => r.1.fail h.adm .accessDenied
              | none, _ =>
                let s := r.1.setCut b (fun k => { k with drain := some h.adm })
                let w := State.drainLocal b h.adm path (sideAddr dst) o.1 s
                w.1.endDrain b h.adm w.2 (if w.2.success then o.1.length else 0) (k.mark o.2)))

/-- CKPT_RELEASE (Table 7.9): a cut that is still being taken ends its CKPT_CUT ABORTED. -/
def execCkptRelease (h : Hdr) (cutId : W32) (s : State) : Host.Outcome State Fault Refusal :=
  .next (s.onRunning (.ckptRelease h cutId) (fun c =>
    match c.bay? with
    | none => s
    | some b =>
      match (s.bay b).ckpt.cut with
      | none => s.fail h.adm .badParam
      | some k =>
        if k.id ≠ cutId then s.fail h.adm .badParam
        else if k.drain.isSome then s.fail h.adm .conflict
        else
          let s := (s.discardCut b).settleColls b
          let s := match k.adm with
            | some a => if k.st = CutState.pending ∨ k.st = CutState.copying then s.fail a .aborted else s
            | none => s
          s.finishNat h.adm .ok 0))

/-! ### Verify and restore (R331, R332) -/

/-- A manifest's MAP_LEN, STREAM_LEN, flags. -/
def mfMapLen (m : List Byte) : Nat := leAt m 0x14 4
def mfStreamLen (m : List Byte) : Nat := leAt m 0x18 8
def mfFlag (m : List Byte) (i : Nat) : Bool := byteAt m 2 / 2 ^ i % 2 == 1
def mfMap (m : List Byte) : ShardMap := decodeMap (slice m 0x100 (mfMapLen m))

/-- FORMAT is 1 and reserved fields are zero. -/
def mfFields (m : List Byte) : Bool :=
  leAt m 0 2 == 1 && decide (byteAt m 2 < 32) && zeroAt m 6 2 && zeroAt m 0x6C 4 && zeroAt m 0xD0 48

/-- Checks 1 to 3 of R331. -/
def State.manifestCheck (s : State) (b manifest src slot : Nat) : Option Status :=
  if manifest % 4096 ≠ 0 ∨ src % 4096 ≠ 0 then some .badAlign
  else
    match s.ioStatus b [(manifest, 256)] [] with
    | some st => some st
    | none =>
      let m := s.readBay b manifest 256
      let key := (s.bay b).drainKey slot
      if !mfFields m ∨ (3 < slot ∧ slot ≠ 0xFF) ∨ key.isNone ∨ (slot ≠ 0xFF) ≠ (mfFlag m 2 = true) then some .badParam
      else
        match s.ioStatus b [(manifest, 256 + mfMapLen m)] [] with
        | some st => some st
        | none =>
          let m := s.readBay b manifest (256 + mfMapLen m)
          if manifestDigest m ≠ slice m 0xB0 32 then some .digestMismatch else none

/-- A stream's blocks; what follows the last one is the padding. -/
def planeReadPadded (crc : Bool) : Nat → List Byte → Option (List PlaneBlock)
  | 0, bs => if bs.length < 4096 ∧ bs.all (· == 0) then some [] else none
  | f + 1, bs =>
    if bs.length < 4096 ∧ bs.all (· == 0) then some []
    else match planeRead crc bs with
      | none => none
      | some x => (planeReadPadded crc f (bs.drop x.size)).map (x :: ·)

/-- The class sets that a group may hold, with what each block must look like: (class, ELEM_W, REFZERO). -/
def groupForms (p : ShardMap) (ti : Nat) : List (List (Nat × Nat × Bool)) :=
  let t := nth p.tensors ti
  let cls := classesOf p t
  let shape := fun (x : Nat) => (x, classW t x, !(x == 0 && cls.contains 4))
  [cls, cls.filter (fun x => x != 4 && x != 5), cls.filter (fun x => x == 4 || x == 5)].map (·.map shape)

/-- The blocks of the stream by group, with their classes: (group, class, block). None when a block does not fit. -/
def classify (p : ShardMap) : Nat → List PlaneBlock → Option (List (Nat × Nat × PlaneBlock))
  | 0, bs => if bs.isEmpty then some [] else none
  | f + 1, bs => match bs with
    | [] => some []
    | x :: _ =>
      let run := bs.takeWhile (fun y => y.block == x.block)
      match p.locate x.block with
      | none => none
      | some (ti, k) =>
        let t := nth p.tensors ti
        let n := blockElems (p.elems t) k
        match (groupForms p ti).find? (fun fm =>
            fm.map (fun z => (z.2.1, z.2.2, classBytes t n z.1)) == run.map (fun y => (y.elemW, y.refZero, y.len))) with
        | none => none
        | some fm =>
          (classify p f (bs.drop run.length)).map
            (((fm.zip run).map (fun z => (x.block, z.1.1, z.2))) ++ ·)

/-- The inputs of the stream's blocks: (group, class, bytes); a group without BASE is coded against the live base. -/
def State.streamInputs (s : State) (b : Nat) (p : ShardMap) (xs : List (Nat × Nat × PlaneBlock)) : List (Nat × Nat × List Byte) :=
  let live := (s.bay b).train.map
  xs.map (fun x =>
    if x.2.2.refZero then (x.1, x.2.1, x.2.2.data)
    else
      let base := match xs.find? (fun y => y.1 == x.1 && y.2.1 == 4) with
        | some y => y.2.2.data
        | none => match live, p.locate x.1 with
          | some q, some (ti, k) => let r := liveBlock q (nth q.tensors ti) k 4; s.readBay b r.1 r.2
          | _, _ => zeros x.2.2.len
      (x.1, x.2.1, xorRef x.2.2.data (some base)))

/-- The plaintext stream of a manifest. -/
def State.plainStream (s : State) (b : Nat) (m : List Byte) (src slot : Nat) : List Byte :=
  let raw := s.readBay b src (mfStreamLen m)
  match (s.bay b).drainKey slot with
  | some (.xts k1 k2) =>
    xtsRun k1 k2 true (streamUnit (BitVec.ofNat 32 (leAt m 0xC 4)) (byteAt m 4) (mfFlag m 0)) 4096 raw
  | _ => raw

/-- The verify pass: the stream's inputs, or none when a block is malformed or SHARD_DIGEST differs (R332). -/
def State.verifyStream (s : State) (b : Nat) (m : List Byte) (src slot : Nat) : Option (List (Nat × Nat × List Byte)) :=
  let p := mfMap m
  let bs := s.plainStream b m src slot
  match planeReadPadded (slot == 0xFF) bs.length bs with
  | none => none
  | some xs =>
    match classify p xs.length xs with
    | none => none
    | some ys =>
      let ins := s.streamInputs b p ys
      let raw := (ins.map (fun x => x.2.2)).flatten
      if sha256 raw = slice m 0x90 32 then some ins else none

/-- CKPT_VERIFY (Table 7.9). -/
def State.verifyEff (b manifest src slot : Nat) (s : State) : Eff :=
  match s.manifestCheck b manifest src slot with
  | some st => (s, st, 0)
  | none =>
    let m := s.readBay b manifest (256 + mfMapLen (s.readBay b manifest 256))
    match s.ioStatus b [(src, mfStreamLen m)] [] with
    | some st => (s, st, 0)
    | none => if (s.verifyStream b m src slot).isSome then (s, .ok, 1) else (s, .digestMismatch, 0)

/-- What a verify or a restore reads: the manifest, then its stream. -/
def State.streamReads (s : State) (b manifest src : Nat) : List (Nat × Nat) :=
  let m := s.readBay b manifest 256
  [(manifest, 256 + mfMapLen m), (src, mfStreamLen m)]

/-- CKPT_VERIFY verifies without loading. -/
def execCkptVerify (h : Hdr) (manifest src slot : Nat) (s : State) : Host.Outcome State Fault Refusal :=
  .next (s.onRunning (.ckptVerify h manifest src slot) (fun c =>
    match c.bay? with
    | some b => s.completeIn h.adm b (s.streamReads b manifest src) (State.verifyEff b manifest src slot)
    | none => s))

/-- The loaded map agrees in shape with a manifest's (R331, check 5). -/
def sameShape (p q : ShardMap) : Bool :=
  p.members == q.members && p.thisMember == q.thisMember && p.tensors.length == q.tensors.length &&
    (p.tensors.zip q.tensors).all (fun x =>
      x.1.id == x.2.id && x.1.kind == x.2.kind && x.1.opt == x.2.opt && x.1.mfmt == x.2.mfmt && x.1.gfmt == x.2.gfmt &&
        x.1.rows == x.2.rows && x.1.rowLen == x.2.rowLen && x.1.units == x.2.units &&
        (x.1.base == 0) == (x.2.base == 0) && (x.1.omom == 0) == (x.2.omom == 0))

/-- Check 4 of R331: a join, another group 0x03 command, a cut or a drain in flight. -/
def State.restoreBusy (s : State) (b adm : Nat) : Bool :=
  let y := s.bay b
  (y.join.any (fun j => j.joining.isNone)) || s.trainingBusy b adm || (match y.ckpt.cut with
    | some c => c.st == .pending || c.st == .copying || c.drain.isSome
    | none => false) ||
    s.cmds.any (fun c => c.ofBay b && !c.finished? && c.adm != adm && (match c.instr with
      | .ckptDrain _ _ _ _ _ => true
      | .ckptCut _ _ _ => true
      | _ => false))

/-- Every restored block written to its live region. -/
def State.writeBlocks (s : State) (b : Nat) (p : ShardMap) (xs : List (Nat × Nat × List Byte)) : State :=
  xs.foldl (fun s x => match p.locate x.1 with
    | some (ti, k) => s.writeBay b (liveBlock p (nth p.tensors ti) k x.2.1).1 x.2.2
    | none => s) s

/-- RESTORE_ORIGIN, when VERSIONS or UID differ (R331). -/
def State.logOrigin (s : State) (b : Nat) (m : List Byte) : State :=
  let v := slice m 0x30 40 != (s.boot.versions.map (fun v => toLe 8 v.toNat)).flatten
  let u := leAt m 0x58 16 != s.factory.uid
  if v || u then s.log2 b { Rec.blank with code := 0x0164, d0 := bit v 0 + bit u 1 } else s

/-- The restored state: every APPLIED at STEP, what R226 clears cleared, one record per tensor (R332). -/
def State.afterRestore (s : State) (b : Nat) (p : ShardMap) (step : W32) (m : List Byte) : State :=
  let s := s.setTrain b (fun tr => tr.load p step)
  let s := p.tensors.foldl (fun s t => s.diffRecord b step t.id 0 (p.blocks t) 2 2) s
  let s := s.markDirty b (List.range p.blockCount)
  (s.setCkpt b (fun k => { k with lastRestore := some (slice m 0xB0 32) })).logOrigin b m

/-- The regions' contents after a failed second pass are not specified: every block written is free (R332, log 40). -/
def State.freeBlocks (s : State) (b : Nat) (p : ShardMap) (xs : List (Nat × Nat × List Byte)) : State :=
  xs.foldl (fun s x => match p.locate x.1 with
    | some (ti, k) =>
      let n := x.2.2.length
      let bs := (List.range n).map (fun i => BitVec.setWidth 8 (Config.freeValue (s.free + i)))
      (s.writeBay b (liveBlock p (nth p.tensors ti) k x.2.1).1 bs).useFree n
    | none => s) s

/-- The second pass and its comparison: a source that the writes have changed fails it (R332). -/
def State.restorePass (b : Nat) (p : ShardMap) (m : List Byte) (src : Nat) (xs : List (Nat × Nat × List Byte)) (s : State) :
    Eff :=
  let step := BitVec.ofNat 32 (leAt m 0xC 4)
  let t := s.writeBlocks b p xs
  if t.readBay b src (mfStreamLen m) = s.readBay b src (mfStreamLen m) then
    (t.afterRestore b p step m, t.outStatus b (p.regions.map (·.2)) .ok, step.toNat)
  else
    let u := (s.freeBlocks b p xs).setTrain b (fun tr => { Train.none_ with mapGen := tr.mapGen + 1 })
    (u, .digestMismatch, 0)

/-- CKPT_RESTORE (R331, R332). -/
def State.restoreEff (b adm manifest src slot : Nat) (s : State) : Eff :=
  let last := (s.bay b).ckpt.lastRestore
  let s := s.setCkpt b (fun k => { k with lastRestore := none })
  match s.manifestCheck b manifest src slot with
  | some st => (s, st, 0)
  | none =>
    let m := s.readBay b manifest (256 + mfMapLen (s.readBay b manifest 256))
    if s.restoreBusy b adm then (s, .conflict, 0)
    else
      match (s.bay b).train.map with
      | none => (s, .shapeMismatch, 0)
      | some p =>
        if !sameShape p (mfMap m) then (s, .shapeMismatch, 0)
        else if mfFlag m 0 ∧ last ≠ some (slice m 0x70 32) then (s, .digestMismatch, 0)
        else
          match s.ioStatus b [(src, mfStreamLen m)] ((p.regions.filter (fun r => r.1 != 3)).map (·.2)) with
          | some st => (s, st, 0)
          | none =>
            match s.verifyStream b m src slot with
            | none => (s, .digestMismatch, 0)
            | some xs => State.restorePass b p m src xs s

/-- CKPT_RESTORE (Table 7.9). -/
def execCkptRestore (h : Hdr) (manifest src slot : Nat) (s : State) : Host.Outcome State Fault Refusal :=
  .next (s.onRunning (.ckptRestore h manifest src slot) (fun c =>
    match c.bay? with
    | some b => s.completeIn h.adm b (s.streamReads b manifest src) (State.restoreEff b h.adm manifest src slot)
    | none => s))

end Sys2Proof.Machine
end

