-- ==== Sys2Proof/Machine/Footprint.lean ====
section
/-!
DEFINITION. Footprints (R166, R168, R177): the ranges that a command reads and writes, and when two commands conflict.
-/
namespace Sys2Proof.Machine

/-- An address as footprints take it: a fabric address of this member is its local bay address (R166). -/
def Bay.footAddr (y : Bay) (a : Nat) : Nat := if isFabric a && fabricMember a == y.member then fabricBay a else a

/-- Every state region of the loaded map (R177). -/
def Bay.stateRanges (y : Bay) : List (Nat × Nat) := match y.train.map with
  | some p => p.regions.map (·.2)
  | none => []

/-- The whole bay address space (R168). -/
def wholeSpace : List (Nat × Nat) := [(0, 2 ^ 48)]

/-- Declared ranges of a launch: none declared means the whole space. -/
def kernelRanges (k : KernelBlk) : List (Nat × Nat) × List (Nat × Nat) :=
  let used := fun (rs : List (Nat × Nat)) => rs.filter (fun r => decide (0 < r.2))
  if (used k.readRanges).isEmpty && (used k.writeRanges).isEmpty then (wholeSpace, wholeSpace)
  else (used k.readRanges, used k.writeRanges)

/-- The buffers of a collective: every rank's source and destination. -/
def Bay.collRanges (y : Bay) (opcode : Nat) (o : CollOps) : List (Nat × Nat) × List (Nat × Nat) :=
  match y.formed? o.group with
  | none => ([], [])
  | some g =>
    (g.myPositions.map (fun x => (rankAddr g o.src o.rstride x.2, srcBytes y opcode o g.positions x.1)),
      g.myPositions.map (fun x => (rankAddr g o.dst o.rstride x.2, dstBytes y opcode o g.positions x.1)))

/-- The most bytes that a drain of the bay's cut writes. -/
def Bay.drainBound (y : Bay) : Nat := match y.ckpt.cut with
  | none => 0
  | some c =>
    let p := decodeMap c.mapRaw
    let one := fun (g : Nat) => match p.locate g with
      | some (ti, k) =>
        let t := nth p.tensors ti
        ((classesOf p t).map (fun x => classBytes t (blockElems (p.elems t) k) x + 24)).sum
      | none => 0
    alignUp (256 + c.mapRaw.length) 4096 + alignUp (((List.range p.blockCount).map one).sum) 4096

/-- The ranges of a manifest and its stream. -/
def State.restoreRanges (s : State) (b manifest src : Nat) : List (Nat × Nat) :=
  let m := s.readBay b manifest 256
  [(manifest, 256 + mfMapLen m), (src, mfStreamLen m)]

/-- Every destination of a gather, another member's included. -/
def gatherOuts (rowBytes : GatherEntry → Nat) (es : List GatherEntry) : List (Nat × Nat) :=
  (es.map (fun e => ((List.range e.rowCount).map (fun i => (rowDests e i).map (fun a => (a, rowBytes e)))).flatten)).flatten

/-- The read set and the write set of a bay's command, as ranges (R177). -/
def State.footprint (s : State) (b : Nat) (i : Instr) : List (Nat × Nat) × List (Nat × Nat) :=
  let y := s.bay b
  let st := y.stateRanges
  match i with
  | .identify _ _ dst => ([], [(dst, 256)])
  | .getLog _ _ _ _ dst n _ => ([], [(dst, n)])
  | .memCopy _ src dst n => ([(src, n)], [(dst, n)])
  | .memFill _ dst n _ => ([], [(dst, n)])
  | .memMap _ o => ([], [(o.addr, o.count * mapPageSize o)])
  | .memPlace _ a n _ => ([(a, n)], [(a, n)])
  | .kernelLaunch _ k => let r := kernelRanges k; ((k.imageAddr, k.imageLen) :: r.1, r.2)
  | .matmul _ m => (matIns m, matOuts m)
  | .quantStats _ o => (statsIns o, statsOuts o)
  | .convert _ o => (convertIns o, convertOuts o)
  | .rngFill _ o => ([], rngOuts o)
  | .stepGather _ _ es => match y.train.map with
    | some p => ([], gatherOuts (gatherRowBytes p) es)
    | none => ([], [])
  | .stepUpdate _ hp _ _ _ => ((hp, 256) :: st, st)
  | .updateArm _ _ _ _ _ => (st, st)
  | .shardMapLoad _ a n => ((a, n) :: st, st)
  | .collAllreduce _ o => y.collRanges 0x0400 o
  | .collAllgather _ o => y.collRanges 0x0401 o
  | .collReduceScatter _ o => y.collRanges 0x0402 o
  | .collBroadcast _ o => y.collRanges 0x0403 o
  | .scarfEpochClose _ _ _ => (st, st)
  | .scarfCatchup _ _ => (st, st)
  | .ckptCut _ _ _ => (st, st)
  | .ckptDrain _ dst _ _ _ => ([], [(dst, y.drainBound)])
  | .ckptRestore _ m src _ => (s.restoreRanges b m src ++ st, st)
  | .ckptVerify _ m src _ => (s.restoreRanges b m src, [])
  | .exportStream _ dst n _ => ([], [(dst, n)])
  | .keyLoad _ _ mode a => ([(a, keyBytes mode)], [])
  | .cipherRun _ o => (cipherIns o, cipherOuts o)
  | .digestRun _ src dst n => ([(src, n)], [(dst, 32)])
  | .entropyRead _ dst n => ([], [(dst, n)])
  | .telemetryRead _ _ dst n => ([], [(dst, n)])
  | .floorplanRead _ dst n => ([], [(dst, n)])
  | _ => ([], [])

/-- Two ranges share a 64-byte line (R166). -/
def lineMeet (r q : Nat × Nat) : Bool :=
  decide (0 < r.2) && decide (0 < q.2) && decide (r.1 / 64 ≤ (q.1 + q.2 - 1) / 64) &&
    decide (q.1 / 64 ≤ (r.1 + r.2 - 1) / 64)

def anyLine (rs qs : List (Nat × Nat)) : Bool := rs.any (fun r => qs.any (fun q => lineMeet r q))

/-- Two commands of a bay conflict: the write set of one meets the read set or the write set of the other. -/
def State.conflict (s : State) (b : Nat) (i j : Instr) : Bool :=
  let y := s.bay b
  let n := fun (f : List (Nat × Nat)) => f.map (fun r => (y.footAddr r.1, r.2))
  let fi := s.footprint b i
  let fj := s.footprint b j
  anyLine (n fi.2) (n fj.1) || anyLine (n fi.2) (n fj.2) || anyLine (n fi.1) (n fj.2)

end Sys2Proof.Machine
end

