-- ==== Sys2Proof/Machine/Perform.lean ====
section
/-!
DEFINITION. What a command that is ended before it has completed leaves behind (R89, R129, R196, R197, R212, R240): each
unit of its output old or new, as free values say, and a result that reports the work done.
-/
namespace Sys2Proof.Machine

/-- What a dispatched command would do to memory, for the commands that write it in one operation. -/
def State.performed (s : State) (b : Nat) (c : Slot) : Option Eff :=
  let h := c.hdr
  match c.instr with
  | .identify _ bay dst => some (s.putOut h.org dst (s.identifyBytes (identifyBay h bay)) 0)
  | .getLog _ log _ bay dst n off => some (State.getLogEff h log false bay dst n off s)
  | .memCopy _ src dst n => some (State.copyLocal b h.tag (sideAddr src) (sideAddr dst) n s)
  | .memFill _ dst n pat => some (State.memFillEff b dst n pat s)
  | .quantStats _ o => some (State.quantStatsEff b o s)
  | .convert _ o => some (State.convertEff b c.ftz o s)
  | .rngFill _ o => some (State.rngFillEff b o s)
  | .matmul _ m => some (State.matmulEff b c m s)
  | .exportStream _ dst n from_ => some (State.exportEff b dst n from_ s)
  | .ckptRestore _ m src slot => some (State.restoreEff b h.adm m src slot s)
  | .cipherRun _ o => some (State.cipherEff b o s)
  | .digestRun _ src dst n => some (State.digestEff b src dst n s)
  | .telemetryRead _ w dst n => some (State.telemetryEff h w dst n s)
  | .floorplanRead _ dst n => some (State.floorplanEff h b dst n s)
  | .ckptDrain _ dst id path slot =>
    if path = 1 ∨ (s.drainCheck b dst id path slot).isSome then none
    else (s.bay b).ckpt.cut.map (fun k =>
      let p := decodeMap k.mapRaw
      let parent := if path = 2 then s.parentFor b p else none
      let o := s.drainBytes b p k path (((s.bay b).drainKey slot).getD .empty) parent
      (s.writeBay b dst o.1, .ok, o.1.length))
  | _ => none

/-- The blocks of a MATMUL's result that are written whole (R89): each a list of (address, bytes). A KB8 or KB4 result
block is 32 columns of one row with their scale byte (R92). -/
def matBlocks (m : MatmulBlk) : List (List (Nat × Nat)) :=
  let g := geomOf m.opfmt
  if isBlock m.resfmt then
    ((List.range m.m).map (fun r => (List.range (ceilDiv m.n 32)).map (fun j =>
      [(m.cAddr + r * m.ldc + j * groupBytes m.resfmt, groupBytes m.resfmt)]))).flatten
  else
    ((List.range (ceilDiv m.m g.rows)).map (fun i => (List.range (ceilDiv m.n g.tile)).map (fun j =>
      (List.range (min g.rows (m.m - i * g.rows))).map (fun r =>
        let lo := storedBytes m.resfmt (j * g.tile)
        let hi := storedBytes m.resfmt (min m.n ((j + 1) * g.tile))
        (m.cAddr + (i * g.rows + r) * m.ldc + lo, hi - lo))))).flatten

/-- Memory after an ended MATMUL: each block of C old or new, the maxima by lines. -/
def State.mixMatmul (s t : State) (b : Nat) (m : MatmulBlk) : State :=
  let bs := matBlocks m
  let s1 := bs.zipIdx.foldl (fun (a : State) x =>
    if (Config.freeValue (s.free + x.2)).getLsbD 0 then
      x.1.foldl (fun a r => a.writeBay b r.1 (t.readBay b r.1 r.2)) a
    else a) s
  let s1 := s1.useFree bs.length
  if m.stats then s1.mixed (s1.writeBay b m.statsAddr (t.readBay b m.statsAddr (4 * m.n))) else s1

/-- Arithmetic flags of the part that was done: each of those the whole command raises, or not. -/
def State.mixFlags (s t : State) (b : Nat) : State :=
  (s.raise b ((t.bay b).flags &&& (s.freeNow.setWidth 32))).useFree 1

/-- A count of work done, at most the whole. -/
def State.partResult (s : State) (n : Nat) : Nat := s.freeNow.toNat % (n + 1)

/-- A dispatched command is ended: the state it leaves and the work it reports. -/
def State.endRunning (s : State) (b : Nat) (c : Slot) : State × Nat :=
  match c.instr with
  | .memMap _ o =>
    if (s.memMapCheck b o).isSome then (s, 0)
    else
      let k := s.partResult o.count
      ((s.setBay b (fun y => y.applyMap { o with count := k })).useFree 1, k)
  | .memPlace _ a n dest =>
    if (s.memPlaceCheck b a n dest).isSome then (s, 0)
    else
      let ps := (s.bay b).pagesIn a n
      let r := (s.useFree 1).movePages b dest (ps.take (s.partResult ps.length))
      (r.1, r.2)
  | .stepUpdate _ hp step clip stoch =>
    let limit := s.partResult (((s.bay b).train.map.map (·.blockCount)).getD 0)
    let e := State.stepUpdateEff b c hp step clip stoch limit (s.useFree 1)
    (e.1, e.2.2)
  | .matmul _ m =>
    match s.performed b c with
    | some e =>
      let k := matResult (s.partResult (e.2.2 % 2 ^ 40)) ((s.useFree 1).partResult (e.2.2 / 2 ^ 40))
      (((s.useFree 2).mixMatmul e.1 b m).mixFlags e.1 b, k)
    | none => (s, 0)
  | _ =>
    match s.performed b c with
    | some e =>
      let k := s.partResult e.2.2
      (((s.useFree 1).mixed e.1).mixFlags e.1 b, k)
    | none => (s, 0)

/-- An operation in progress is ended with a status: what waited for it is forgotten, and the work it reports; a launch that
ends otherwise than by a halt reports the fields of a fault (Table 4.7). -/
def State.endActive (s : State) (b : Nat) (c : Slot) (st : Status) : State × Nat :=
  let adm := c.adm
  match c.instr with
  | .memCopy _ _ _ _ =>
    let done := (((s.bay b).xfers.find? (fun x => x.adm == some adm)).map Xfer.doneBytes).getD 0
    (s.setBay b (fun y => { y with xfers := y.xfers.filter (fun x => x.adm != some adm) }), done)
  | .kernelLaunch _ _ =>
    if st = .machineCheck ∨ st = .rebound then s.stopFields c none
    else (s.stopLaunch adm, coreCycles (s.clock.uptime - c.started) % 2 ^ 40)
  | .stepGather _ _ _ =>
    (s.setTrain b (fun tr => { tr with gathers := tr.gathers.filter (fun g => g.adm != adm) }), c.work)
  | .normClip _ _ _ _ => (s.setTrain b (fun tr => { tr with norms := tr.norms.filter (fun (n : NormWait) => n.adm != adm) }), 0)
  | .updateArm _ _ _ _ _ =>
    match (s.bay b).train.arm, (s.bay b).train.map with
    | some a, some p =>
      if a.adm = adm then
        let s := if a.begun then s.abortRecords b (updCtx a.step a.hyper a.coef c.ftz false 1) p else s
        (s.setTrain b (fun tr => { tr with arm := none }), 0)
      else (s, 0)
    | _, _ => (s, 0)
  | .queueDelete _ _ q => (s.setSq b q (fun x => { x with deleting := none }), 0)
  | .ckptCut _ _ _ => (s.discardCut b, 0)
  | .ckptDrain _ _ _ _ _ =>
    let done := (((s.bay b).xfers.find? (fun x => x.adm == some adm)).map Xfer.doneBytes).getD 0
    ((s.setCut b (fun k => { k with drain := none })).setBay b (fun y => { y with
      xfers := y.xfers.filter (fun (x : Xfer) => x.adm != some adm) }), done)
  | .collGroupCreate _ g _ =>
    (s.setBay b (fun y => { y with groups := y.groups.filter (fun (x : Group) => x.formed || x.id != g) }), 0)
  | .entropyRead _ _ _ =>
    ({ s with trng := { s.trng with reservations := s.trng.reservations.filter (fun r => r.2 != adm) } }, 0)
  | .scarfJoin _ _ _ _ => (s.setBay b (fun y => { y with join := none }), 0)
  | .scarfLeave _ => (s.setBay b (fun y => { y with join := y.join.map (fun j => { j with leave := none }) }), 0)
  | .scarfEpochClose _ _ _ =>
    let formed := ((s.bay b).join.bind (fun j => j.close.bind (fun k =>
      (j.forms.find? (fun f => f.epoch == k.epoch)).map (·.formed)))).getD 0
    (s.setBay b (fun y => { y with join := y.join.map (fun j => { j with close := none }) }), formed)
  | .scarfCatchup _ _ => (s.setBay b (fun y => { y with join := y.join.map (fun j => { j with catchup := none }) }), 0)
  | _ => (s, 0)

/-- A command that ends waits for no other site any more: the line that it read keeps its error (R338). -/
def State.dropWaits (s : State) (b adm : Nat) : State :=
  s.setBay b (fun y => { y with join := y.join.map (fun j =>
    { j with lineWaits := j.lineWaits.filter (fun w => w.adm != adm) }) })

/-- A command ends before it has completed, with a status; it reports the work it did. -/
def State.cutShort (s : State) (b : Nat) (st : Status) (adm : Nat) : State :=
  let s := s.dropWaits b adm
  match s.slot? adm with
  | none => s
  | some c =>
    match c.phase with
    | .running => let e := s.endRunning b c; e.1.finishNat adm st e.2
    | .active => let e := s.endActive b c st; e.1.finishNat adm st e.2
    | .held => s.finishNat adm st 0
    | .finished _ _ _ => s

end Sys2Proof.Machine
end

