-- ==== Sys2Proof/Machine/Bays.lean ====
section
/-!
DEFINITION. Halts, bay resets and evictions (R194 to R199, R218, R220, R221, R333, R334, R420, R421): HALT_BAY, EVICT_BAY,
RESUME_BAY, BAY_RESET, BAY_HALTED, HALT_MEMORY_ABSORB, HALT_FLUSH_LATE, EVICT_BOUNDARY_REACHED, EVICT_TIMEOUT and
CUT_COPY, and how a bay enters UNBOUND (R204).
-/
namespace Sys2Proof.Machine

def State.setFlow (s : State) (b : Nat) (f : Flow → Flow) : State :=
  s.setBay b (fun y => { y with flow := f y.flow })

/-! ### Halting (R195 to R197) -/

/-- Groups of the bay whose collectives or gathers a halt aborts: those of its admitted commands and fired
descriptors. -/
def State.groupsInUse (s : State) (b : Nat) : List Nat :=
  let y := s.bay b
  ((s.cmds.filter (fun c => c.ofBay b && !c.finished?)).filterMap (fun c => groupUse y.mapGroup c.instr) ++
    y.colls.map (·.group)).eraseDups

/-- The bay's admitted commands that have not completed, in the order of completions of one cycle (R155). -/
def State.unfinished (s : State) (b : Nat) : List Nat :=
  (postOrder (s.cmds.filter (fun c => c.ofBay b && !c.finished?))).map (·.adm)

/-- The DMA channels of every core stop inside the bay's current descriptors, and the bay's queued ones go (R195). -/
def State.cutBayDma (s : State) (b : Nat) : State :=
  (s.cores.map (·.1)).foldl (fun (s : State) key => s.cutChannels key (· == b)) s

/-- The halt broadcast: every admitted command of the bay that has not completed ends ABORTED; its groups' peers get an
abort; its channels stop; descriptors that have fired are given up, and their counters stay (R196); a cut that is being
taken is discarded. With `quiet` no completion entry is posted. Answers the state and the count of commands aborted. -/
def State.halt (s : State) (b : Nat) (quiet : Bool) : State × Nat :=
  let hit := s.unfinished b
  let s := s.setFlow b (fun f => { f with since := s.clock.uptime, heldFrom := some (f.heldFrom.getD s.nextFin) })
  let s := if quiet then { s with cmds := s.cmds.map (fun (c : Slot) => if c.ofBay b then { c with quiet := true } else c) } else s
  let groups := s.groupsInUse b
  let s := groups.foldl (fun s g => s.sendAbort b g) s
  let s := hit.foldl (State.cutShort · b .aborted ·) s
  let s := s.setBay b (fun y => { y with
    colls := y.colls.filter (fun (c : Coll) => c.trig.isNone)
    xfers := []
    join := y.join.map (fun j => { j with lineWaits := [] }) })
  let s := groups.foldl (fun s g => s.abortGroup b g) s
  let s := s.cutBayDma b
  let taking : Bool := match (s.bay b).ckpt.cut with
    | some c => c.st == .pending || c.st == .copying
    | none => false
  (if taking then s.discardCut b else s, hit.length)

/-! ### The urgent queue's hold (R163) -/

/-- The entry that holds the urgent queue lets it go. -/
def State.releaseUrg (s : State) (adm : Nat) : State :=
  if s.urg.holding = some adm then { s with urg := { s.urg with holding := none } } else s

/-- An urgent or control command completes. -/
def State.finishUrg (s : State) (adm : Nat) (st : Status) (result : Nat) : State :=
  (s.finishNat adm st result).releaseUrg adm

/-! ### Eviction (R198, R333) -/

/-- An eviction ends: the bay is HALTED and its completions may be posted. -/
def State.endEvict (s : State) (b : Nat) (st : Status) (result : Nat) : State :=
  let adm := (s.bay b).flow.evict.map (·.1)
  let s := (s.setFlow b (fun f => { f with evict := none, evictLate := false, heldFrom := none })).enter b .halted
  match adm with
  | some a => s.finishUrg a st result
  | none => s

/-- The cut of a halted eviction: another undrained cut is discarded when its copy begins. With no map no cut is made. -/
def State.evictCut (s : State) (b : Nat) : State :=
  let y := s.bay b
  match y.train.map, y.ckpt.layout, y.flow.evict, s.boundary b with
  | some _, some l, some (adm, id, _), some step =>
    let s := match y.undrained with
      | some c => s.log2 b { Rec.blank with code := 0x0166, d0 := c.id.toNat + c.step.toNat * 2 ^ 32 }
      | none => s
    (s.setCkpt b (fun k => { k with cut := some (newCut id l (some adm) false true) })).beginCopy b step
  | none, _, _, _ => s.endEvict b .ok 0xFFFFFFFF
  | _, _, _, _ => s.endEvict b .notBound 0

/-- The checks of R198; `halted` is the bay's state at decode. -/
def State.evictCheck (s : State) (b : Nat) (id : W32) (halted : Bool) : Option Status :=
  let y := s.bay b
  let small : Bool := match y.ckpt.layout with
    | some l => !s.kerfLarge b l
    | none => true
  if id = deviceCut ∨ (y.undrained.map (·.id)) = some id then some .conflict
  else if y.train.map.isSome ∧ small then some .notBound
  else if halted ∧ y.train.map.isSome ∧ (s.boundary b).isNone then some .conflict
  else none

/-- EVICT_BAY of a HALTED bay: the cut, or the completion at once. -/
def State.evictHalted (s : State) (b adm : Nat) (id : W32) : State :=
  match s.evictCheck b id true with
  | some st => s.finishUrg adm st 0
  | none =>
    let s := (s.setFlow b (fun f => { f with
      evict := some (adm, id, s.clock.uptime), evictLate := false, heldFrom := some s.nextFin })).enter b .evicting
    (s.releaseUrg adm).evictCut b

/-! ### Resets (R218, R220) -/

/-- A physical cluster cleared (R214): cores, cluster SRAM and local memories. -/
def State.clearCluster (s : State) (p : Nat) : State :=
  let s := { s with cores := s.cores.filter (fun c => c.1 / 10 != p) }
  (s.clearLoc ⟨.sram, p * 2 ^ 25⟩ (2 ^ 25)).clearLoc ⟨.local_, p * 10 * 2 ^ 18⟩ (10 * 2 ^ 18)

/-- Granules marked zero, every 2 MiB range of them (R214). -/
def State.markZero (s : State) (gs : List Nat) : State :=
  let rs := (gs.map (fun g => List.range' (g * 512) 512)).flatten
  { s with
    zeroMarks := s.zeroMarks ++ rs.filter (fun r => !s.zeroMarks.contains r)
    poison := s.poison.filter (fun k => !(decide (k < 2 ^ 60) && gs.contains (k * 64 / gib))) }

/-- Knock-down (R209): the staged commands go; a BINDING bay returns to UNBOUND; commits admitted meanwhile will
conflict. -/
def State.knockDown (s : State) (b : Nat) : State :=
  if (s.bay b).txn.isNone then s
  else
    let s := s.setBay b (fun y => { y with txn := none, txnSpan := (y.txnSpan.1, s.nextAdm) })
    if (s.bay b).st = .binding then s.enter b .unbound else s

/-- Queues 1 to 7 deleted and the admin pair's indices set to 0. -/
def Bay.resetQueues (y : Bay) : Bay :=
  { y with
    sqs := y.sqs.zipIdx.map (fun (q : SubQ × Nat) => if q.2 = 0 then { q.1 with head := 0, tail := 0, deleting := none } else SubQ.none_)
    cqs := y.cqs.zipIdx.map (fun (q : CompQ × Nat) =>
      if q.2 = 0 then { q.1 with head := 0, tail := 0, phase := true, posted := 0, firstAt := none } else CompQ.none_) }

/-- What every bay reset clears (R220, step 2). -/
def State.clearBay (s : State) (b : Nat) : State :=
  let s := ((s.bay b).groups.filter (·.formed)).foldl (fun s g => s.sendAbort b g.id) s
  let s := { s with cmds := s.cmds.filter (fun c => !c.ofBay b) }
  let s := s.setBay b (fun y => { y.resetQueues with
    counters := List.replicate 256 ⟨0, false⟩
    trigs := []
    xfers := []
    groups := []
    colls := []
    earlyColls := []
    earlyJoins := []
    flags := 0
    train := { y.train with
      arm := none, reuse := [], stale := [], gathers := [], gatherCount := [], earlyRows := [], norms := [], normCount := 0, earlyNorms := [] } })
  s.knockDown b

/-- What SCRUB clears besides (R220, step 4). -/
def State.scrubBay (s : State) (b : Nat) : State :=
  let y := s.bay b
  let s := s.markZero y.bind.granules
  let s := ((bitsSet y.bind.clusters).filterMap s.phys).foldl State.clearCluster s
  s.setBay b (fun y => { y with
    pages := []
    keys := List.replicate 4 .empty
    train := { Train.none_ with mapGen := y.train.mapGen + 1 }
    ckpt := Ckpt.none_
    join := none })

/-- The bay enters UNBOUND from HALTED (R204, R320). -/
def State.toUnbound (s : State) (b : Nat) : State :=
  let s := ((s.bay b).groups.filter (·.formed)).foldl (fun s g => s.sendAbort b g.id) s
  let s := { s with cmds := s.cmds.filter (fun c => !c.ofBay b) }
  let s := s.setBay b (fun y => { y.resetQueues with
    counters := List.replicate 256 ⟨0, false⟩
    keys := List.replicate 4 .empty
    train := { Train.none_ with mapGen := y.train.mapGen + 1 }
    ckpt := Ckpt.none_
    groups := []
    colls := []
    earlyColls := []
    earlyJoins := []
    bind := { BindRec.fresh with clusters := y.bind.clusters, granules := y.bind.granules }
    flow := Flow.none_ })
  s.enter b .unbound

/-- A reset begins on a bay: an ACTIVE one is halted without completion entries; a HALTED one quiesces at once (R220). -/
def State.beginReset (s : State) (b : Nat) (adm : Option Nat) (scrub : Bool) : State :=
  let was := (s.bay b).st == .active
  let s := if was then (s.halt b true).1 else s.setFlow b (fun f => { f with since := s.clock.uptime, heldFrom := some (f.heldFrom.getD s.nextFin) })
  (s.setFlow b (fun f => { f with reset := some (adm, scrub, was), stay := false })).enter b .quiescing

/-- BAY_RESET, or a function-level reset of the bay's function (R218, R221). -/
def State.resetBay (s : State) (b : Nat) (adm : Option Nat) (scrub : Bool) : State :=
  let done := fun (s : State) (st : Status) => match adm with
    | some a => s.finishNat a st 0
    | none => s
  match (s.bay b).st with
  | .unbound => done s .notBound
  | .binding => done (s.knockDown b) .ok
  | .active => s.beginReset b adm scrub
  | .halted => s.beginReset b adm scrub
  | .quiescing => s.setFlow b (fun f => { f with resetWait := f.resetWait ++ [(adm, scrub)] })
  | .evicting => s.setFlow b (fun f => { f with resetWait := f.resetWait ++ [(adm, scrub)] })

/-- BAY_RESET (Table 7.10). -/
def execBayReset (h : Hdr) (bay : Nat) (scrub : Bool) (s : State) : Host.Outcome State Fault Refusal :=
  .next (s.onRunning (.bayReset h bay scrub) (fun _ =>
    if 15 < bay then s.fail h.adm .badParam else (s.setActive h.adm).resetBay bay (some h.adm) scrub))

/-! ### HALTED (R195, R220, R221) -/

/-- The HALT_BAYs that waited complete, each with the count of its own halt. -/
def State.endHalts (s : State) (b : Nat) : State :=
  let hs := (s.bay b).flow.halts
  hs.foldl (fun s h => s.finishNat h.1 .ok h.2) (s.setFlow b (fun f => { f with halts := [] }))

/-- What waited for HALTED goes on: a reset first, then an eviction. -/
def State.afterHalted (s : State) (b : Nat) : State :=
  let f := (s.bay b).flow
  match f.resetWait, f.evictWait with
  | (adm, scrub) :: rest, _ => (s.setFlow b (fun f => { f with resetWait := rest })).beginReset b adm scrub
  | [], (adm, id) :: rest => (s.setFlow b (fun f => { f with evictWait := rest })).evictHalted b adm id
  | [], [] => s

/-- The reset of a bay that has quiesced: the clear, and the state after it (R220). -/
def State.endReset (s : State) (b : Nat) (adm : Option Nat) (scrub wasActive : Bool) : State :=
  let stay := (s.bay b).flow.stay
  let s := s.enter b .halted
  let s := (s.clearBay b)
  let s := if scrub then s.scrubBay b else s
  let s := s.setFlow b (fun f => { f with reset := none, stay := false, heldFrom := none })
  let s := if wasActive && !stay then s.enter b .active else s
  match adm with
  | some a => s.finishNat a .ok 0
  | none => s

/-- BAY_HALTED: no access of the bay is outstanding; the Joiner writes HALTED, or a halted eviction takes its cut. -/
def execBayHalted (bay : Nat) (s : State) : Host.Outcome State Fault Refusal :=
  let f := (s.bay bay).flow
  .next (match (s.bay bay).st with
  | .quiescing =>
    (match f.reset with
    | some (adm, scrub, was) => ((s.endHalts bay).endReset bay adm scrub was).afterHalted bay
    | none => (((s.enter bay .halted).setFlow bay (fun f => { f with heldFrom := none })).endHalts bay).afterHalted bay)
  | .evicting =>
    if f.heldFrom.isNone ∨ (s.bay bay).copying then s
    else if f.evictLate then (s.endEvict bay .timeout 0xFFFFFFFE).afterHalted bay
    else
      let s := s.evictCut bay
      if (s.bay bay).st = .halted then s.afterHalted bay else s
  | _ => s)

/-! ### The urgent opcodes (Table 7.13) -/

/-- The state of its bay that an urgent opcode met when it was decoded (R194). -/
def Slot.metState (c : Slot) : BayState := match c.work with
  | 0 => .unbound
  | 1 => .binding
  | 2 => .active
  | 3 => .quiescing
  | 4 => .halted
  | _ => .evicting

/-- HALT_BAY, by the state of the bay at its decode (R194, R195). A bay met QUIESCING that has become HALTED since lets it
complete at once, as does one met ACTIVE that something else has halted since. -/
def execHaltBay (h : Hdr) (bay : Nat) (s : State) : Host.Outcome State Fault Refusal :=
  .next (s.onRunning (.haltBay h bay) (fun c =>
    if 15 < bay then s.finishUrg h.adm .badParam 0
    else
      match c.metState with
      | .unbound => s.finishUrg h.adm .notBound 0
      | .binding => s.finishUrg h.adm .notBound 0
      | .evicting => s.finishUrg h.adm .conflict 0
      | .halted => s.finishUrg h.adm .ok 0
      | _ =>
        match (s.bay bay).st with
        | .active =>
          let r := (s.setActive h.adm).halt bay false
          ((r.1.setFlow bay (fun f => { f with halts := f.halts ++ [(h.adm, r.2)] })).enter bay .quiescing).releaseUrg h.adm
        | .quiescing => ((s.setActive h.adm).setFlow bay (fun f => { f with halts := f.halts ++ [(h.adm, 0)] })).releaseUrg h.adm
        | _ => s.finishUrg h.adm .ok 0))

/-- EVICT_BAY, by the state of the bay at its decode (R194, R198, R333). -/
def execEvictBay (h : Hdr) (bay : Nat) (cutId : W32) (s : State) : Host.Outcome State Fault Refusal :=
  .next (s.onRunning (.evictBay h bay cutId) (fun c =>
    if 15 < bay then s.finishUrg h.adm .badParam 0
    else
      match c.metState with
      | .unbound => s.finishUrg h.adm .notBound 0
      | .binding => s.finishUrg h.adm .notBound 0
      | .evicting => s.finishUrg h.adm .conflict 0
      | _ =>
        match (s.bay bay).st with
        | .active =>
          (match s.evictCheck bay cutId false with
          | some st => s.finishUrg h.adm st 0
          | none =>
            let s := ((s.setActive h.adm).setFlow bay (fun f => { f with
              evict := some (h.adm, cutId, s.clock.uptime), evictLate := false })).enter bay .evicting
            let s := s.releaseUrg h.adm
            if (s.bay bay).train.map.isNone ∨ (s.boundary bay).isSome then (s.halt bay false).1 else s)
        | .halted => (s.setActive h.adm).evictHalted bay h.adm cutId
        | .quiescing =>
          (s.setActive h.adm).setFlow bay (fun f => { f with evictWait := f.evictWait ++ [(h.adm, cutId)] })
        | .evicting => s.finishUrg h.adm .conflict 0
        | .unbound => s.finishUrg h.adm .notBound 0
        | .binding => s.finishUrg h.adm .notBound 0))

/-- RESUME_BAY, by the state of the bay at its decode (R194, R199). -/
def execResumeBay (h : Hdr) (bay : Nat) (s : State) : Host.Outcome State Fault Refusal :=
  .next (s.onRunning (.resumeBay h bay) (fun c =>
    if 15 < bay then s.finishUrg h.adm .badParam 0
    else
      match c.metState with
      | .active => s.finishUrg h.adm .ok 0
      | .halted => (if (s.bay bay).st = .halted then s.enter bay .active else s).finishUrg h.adm .ok 0
      | .quiescing => s.finishUrg h.adm .conflict 0
      | .evicting => s.finishUrg h.adm .conflict 0
      | .unbound => s.finishUrg h.adm .notBound 0
      | .binding => s.finishUrg h.adm .notBound 0))

/-! ### Halts in progress (R420, R421) -/

/-- The bay is halting: its broadcast is out and HALTED is not reached. -/
def Bay.halting (y : Bay) : Bool := y.st == .quiescing || (y.st == .evicting && y.flow.heldFrom.isSome)

/-- HALT_MEMORY_ABSORB: 4 us after the broadcast, unanswered tier 3 and host accesses, as many as the event brings, are
absorbed (R420). -/
def execHaltMemoryAbsorb (bay accesses : Nat) (s : State) : Host.Outcome State Fault Refusal :=
  .next (if (s.bay bay).halting ∧ (s.bay bay).flow.since + 4000 ≤ s.clock.uptime then s.countBay bay 9 accesses else s)

/-- HALT_FLUSH_LATE: 12 us after the broadcast the halt waits for the fabric no longer (R421). -/
def execHaltFlushLate (bay : Nat) (s : State) : Host.Outcome State Fault Refusal :=
  .next (if (s.bay bay).halting ∧ (s.bay bay).flow.since + 12000 ≤ s.clock.uptime then s.countBay bay 10 1 else s)

/-! ### The eviction's boundary and cut (R322, R333, R334) -/

/-- An eviction that waits for its step boundary. -/
def Bay.evictWaits (y : Bay) : Bool := y.st == .evicting && y.flow.heldFrom.isNone

/-- EVICT_BOUNDARY_REACHED: the bay halts at the boundary (R333). -/
def execEvictBoundaryReached (bay : Nat) (s : State) : Host.Outcome State Fault Refusal :=
  .next (if (s.bay bay).evictWaits ∧ (s.boundary bay).isSome then (s.halt bay false).1 else s)

/-- The step in progress: the one after the least APPLIED of the map. -/
def Bay.stepInProgress (y : Bay) : W32 := match y.train.map with
  | some p => (p.live.map y.train.appliedOf).foldl (fun a x => if serialBefore x a then x else a) (y.train.appliedOf (p.live.headD 0)) + 1
  | none => 0

/-- EVICT_TIMEOUT: after 4.5 s the bay halts without a cut (R334). -/
def execEvictTimeout (bay : Nat) (s : State) : Host.Outcome State Fault Refusal :=
  .next (match (s.bay bay).flow.evict with
  | some (_, _, since) =>
    if (s.bay bay).evictWaits ∧ since + 4500000000 ≤ s.clock.uptime then
      let s := s.log2 bay { Rec.blank with code := 0x0165, d0 := (s.bay bay).stepInProgress.toNat }
      ((s.setFlow bay (fun f => { f with evictLate := true })).halt bay false).1
    else s
  | none => s)

/-! ### A class 5 event (R337) -/

/-- FATAL is set and logged, with a cause that no table numbers (log 7), and every admitted command of every bay ends
MACHINE_CHECK. -/
def State.goFatal (s : State) (kind : Nat) : State :=
  let s := { s with dev := { s.dev with fatal := true } }
  let s := (s.devCause 1).log1 { Rec.blank with code := 0x0180, cls := 5, kind := kind, die := 2, d0 := s.freeNow.toNat }
  (List.range 16).foldl (fun (s : State) b => (s.unfinished b).foldl (fun s a => s.cutShort b .machineCheck a) s) (s.useFree 1)

/-! ### Cuts (R322) -/

/-- A cut ends without success: it is discarded and its command, or the eviction, completes with the status. -/
def State.failCut (s : State) (b : Nat) (c : Cut) (st : Status) : State :=
  let s := (s.discardCut b).settleColls b
  if c.evicted then (s.endEvict b st 0).afterHalted b
  else match c.adm with
    | some a => s.fail a st
    | none => s

/-- The copy of a cut: every region of the layout, then HELD, and the command or the eviction completes. -/
def State.finishCut (s : State) (b : Nat) (c : Cut) (p : ShardMap) : State :=
  if !layoutFits p c.layout then s.failCut b c .badParam
  else if !s.kerfLarge b c.layout then s.failCut b c .notBound
  else
    let ks := kerfCopies p c.layout
    match s.copyStatus b ks with
    | some st => (if st = .machineCheck then s.logBadReads b .rd (s.tagOf c.adm) (ks.map (fun k => (k.2.2.1, k.2.2.2.1))) else s).failCut b c st
    | none =>
      let s := (s.copyKerf b ks).setCut b (fun c => { c with st := .held })
      let s := s.settleColls b
      if c.evicted then (s.endEvict b .ok c.step.toNat).afterHalted b
      else match c.adm with
        | some a => s.finishNat a .ok c.step.toNat
        | none => (s.log2 b { Rec.blank with code := 0x0151, d0 := c.step.toNat }).bayEvent b 3

/-- CUT_COPY: a pending cut whose bay is at a step boundary begins to copy; a copying cut completes (R322). -/
def execCutCopy (bay : Nat) (s : State) : Host.Outcome State Fault Refusal :=
  .next (match (s.bay bay).ckpt.cut with
  | none => s
  | some c =>
    match c.st, s.boundary bay, (s.bay bay).train.map with
    | .pending, some step, some _ => s.beginCopy bay step
    | .copying, _, some p => s.finishCut bay c p
    | _, _, _ => s)

end Sys2Proof.Machine
end

