-- ==== Sys2Proof/Machine/Binding.lean ====
section
/-!
DEFINITION. Transactions (R189, R200 to R215): TXN_BEGIN, TXN_COMMIT, TXN_ROLLBACK, BIND_CLUSTER, BIND_MEMORY,
BIND_SHARES, PEG_DRAIN_LIMIT and PEG_COMPLETE.
-/
namespace Sys2Proof.Machine

/-! ### Opening and staging (R205 to R207) -/

/-- A bay leaves UNBOUND: its record holds the values of Table 8.1 and its counters begin from zero (R200, R435). -/
def State.leaveUnbound (s : State) (b : Nat) : State :=
  (s.setBay b (fun y => { y with bind := BindRec.fresh, tele := List.replicate 20 0, since := s.now })).enter b .binding

/-- TXN_BEGIN: accepted in every bay state; an UNBOUND bay becomes BINDING (R204, R206). -/
def execTxnBegin (h : Hdr) (bay : Nat) (s : State) : Host.Outcome State Fault Refusal :=
  .next (s.onRunning (.txnBegin h bay) (fun _ =>
    if 15 < bay then s.fail h.adm .badParam
    else if (s.bay bay).txn.isSome then s.fail h.adm .conflict
    else
      let s := s.setBay bay (fun y => { y with txn := some [], txnSpan := (s.nextAdm, 0) })
      let s := if (s.bay bay).st = .unbound then s.leaveUnbound bay else s
      s.finishNat h.adm .ok 0))

/-- TXN_ROLLBACK: the result counts the commands discarded (R209). -/
def execTxnRollback (h : Hdr) (bay : Nat) (s : State) : Host.Outcome State Fault Refusal :=
  .next (s.onRunning (.txnRollback h bay) (fun _ =>
    if 15 < bay then s.fail h.adm .badParam
    else match (s.bay bay).txn with
      | none => s.fail h.adm .badParam
      | some l => (s.knockDown bay).finishNat h.adm .ok l.length))

/-- Granules FIRST to FIRST + COUNT - 1 meet the range of a link above the licensed count (R115). -/
def unlicensedLink (t3 first count : Nat) : Bool :=
  (List.range 4).any (fun n => decide (t3 ≤ n) && decide (0 < count) && decide (first < 16384 + 1024 * (n + 1)) &&
    decide (16384 + 1024 * n < first + count))

/-- The own checks of a binding opcode: its licence first (R174, Table 7.10). -/
def State.bindCheck (s : State) (i : Instr) : Option Status :=
  match i with
  | .bindCluster _ bay _ mask =>
    if mask >>> 24 ≠ 0 ∧ !s.bootFeat.cl32 then some .licenceMissing
    else if 15 < bay ∨ mask = 0 then some .badParam
    else none
  | .bindMemory _ bay _ first count =>
    if unlicensedLink s.bootFeat.t3 first count then some .licenceMissing
    else if 15 < bay ∨ count = 0 ∨ 20480 < count ∨ !(List.range' first count).all (granuleMem s.t3cap) then some .badParam
    else none
  | .bindShares _ bay o =>
    if 15 < bay ∨ o.slotLimit < 16 ∨ 1024 < o.slotLimit ∨ o.weights.length ≠ 8 ∨
        o.weights.any (fun w => decide (w = 0) || decide (255 < w)) ∨ 100 < o.farShare then
      some .badParam
    else none
  | _ => none

/-- Stages a binding opcode into its bay's transaction and completes it DEFERRED (R206, R207). -/
def State.stage (s : State) (adm bay : Nat) (i : Instr) : State :=
  match s.bindCheck i with
  | some st => s.fail adm st
  | none =>
    match (s.bay bay).txn with
    | none => s.fail adm .conflict
    | some l =>
      if 64 ≤ l.length then s.fail adm .conflict
      else (s.setBay bay (fun y => { y with txn := some (l ++ [⟨i⟩]) })).finishNat adm .deferred 0

/-- BIND_CLUSTER (Table 7.10). -/
def execBindCluster (h : Hdr) (bay : Nat) (unbind : Bool) (mask : W32) (s : State) : Host.Outcome State Fault Refusal :=
  .next (s.onRunning (.bindCluster h bay unbind mask) (fun _ => s.stage h.adm bay (.bindCluster h bay unbind mask)))

/-- BIND_MEMORY (Table 7.10). -/
def execBindMemory (h : Hdr) (bay : Nat) (unbind : Bool) (first count : Nat) (s : State) :
    Host.Outcome State Fault Refusal :=
  .next (s.onRunning (.bindMemory h bay unbind first count) (fun _ =>
    s.stage h.adm bay (.bindMemory h bay unbind first count)))

/-- BIND_SHARES (Table 7.10). -/
def execBindShares (h : Hdr) (bay : Nat) (o : ShareOps) (s : State) : Host.Outcome State Fault Refusal :=
  .next (s.onRunning (.bindShares h bay o) (fun _ => s.stage h.adm bay (.bindShares h bay o)))

/-! ### The peg tests (R208, Table 8.3) -/

/-- Clusters that the bay's groups and armed descriptors name. -/
def Bay.clustersNamed (y : Bay) : W32 :=
  y.trigs.foldl (fun m t => m ||| BitVec.ofNat 32 (2 ^ t.blk.issuer)) (y.groups.foldl (fun m g => m ||| g.blk.mask) 0)

/-- A granule that may not leave: it holds an area of the join, or a KERF page of an undrained cut. -/
def Bay.granuleHeld (y : Bay) (g : Nat) : Bool :=
  y.areas.contains g || y.pages.any (fun p => p.granule == g && y.kerfPageHeld p)

/-- Sums of SLOT_LIMIT and FAR_SHARE over the bays that are not UNBOUND, this one included (R203). -/
def State.shareSums (s : State) (b : Nat) (w : List BindRec) : Nat × Nat :=
  let rs := (w.zipIdx.filter (fun r => r.2 == b || (s.bay r.2).st != .unbound)).map (·.1)
  ((rs.map (·.slotLimit)).sum, (rs.map (·.farShare)).sum)

/-- One staged command applied to the working copy: the reason it fails, or the copy after it. -/
def State.applyStaged (s : State) (b : Nat) (w : List BindRec) (i : Instr) : Nat ⊕ List BindRec :=
  let y := s.bay b
  let own := nth w b
  let others := (w.zipIdx.filter (fun r => r.2 != b)).map (·.1)
  match i with
  | .bindCluster _ _ false m =>
    if others.any (fun r => (r.clusters &&& m) != 0) then .inl 1
    else .inr (w.set b { own with clusters := own.clusters ||| m })
  | .bindCluster _ _ true m =>
    if (m &&& ~~~own.clusters) ≠ 0 then .inl 2
    else if (m &&& y.clustersNamed) ≠ 0 then .inl 3
    else .inr (w.set b { own with clusters := own.clusters &&& ~~~m })
  | .bindMemory _ _ false f n =>
    let gs := List.range' f n
    if others.any (fun r => gs.any (fun g => r.granules.contains g)) then .inl 4
    else .inr (w.set b { own with
      granules := sortBy (fun a c => decide (a ≤ c)) (own.granules ++ gs.filter (fun g => !own.granules.contains g)) })
  | .bindMemory _ _ true f n =>
    let gs := List.range' f n
    if gs.any (fun g => !own.granules.contains g || y.granuleHeld g) then .inl 5
    else .inr (w.set b { own with granules := own.granules.filter (fun g => !gs.contains g) })
  | .bindShares _ _ o =>
    let w' := w.set b { own with ftz := o.ftz, slotLimit := o.slotLimit, weights := o.weights, farShare := o.farShare }
    let t := s.shareSums b w'
    if 4096 < t.1 ∨ 100 < t.2 then .inl 6 else .inr w'
  | _ => .inr w

/-- The staged commands in order: (index, reason) of the first failure, or the working copy. -/
def State.applyAll (s : State) (b : Nat) : Nat → List Staged → List BindRec → (Nat × Nat) ⊕ List BindRec
  | _, [], w => .inr w
  | k, x :: xs, w => match s.applyStaged b w x.instr with
    | .inl r => .inl (k, r)
    | .inr w' => s.applyAll b (k + 1) xs w'

/-- Something is bound. -/
def BindRec.bound (r : BindRec) : Bool := r.clusters != 0 || !r.granules.isEmpty

def isShares : Instr → Bool
  | .bindShares _ _ _ => true
  | _ => false

/-- The tests of the whole transaction. -/
def State.wholeTest (s : State) (b : Nat) (l : List Staged) (w : List BindRec) : Option Nat :=
  let y := s.bay b
  let some_ := (nth w b).bound
  if y.st = .active ∧ !some_ then some 7
  else if y.join.isSome ∧ !some_ then some 8
  else if y.st = .binding ∧ some_ ∧ !l.any (fun x => isShares x.instr) ∧ 4096 < (s.shareSums b w).1 then some 9
  else none

/-- The whole of R208's tests: the result bits of a failure, or the new record of the bay. -/
def State.pegTest (s : State) (b : Nat) (l : List Staged) : Nat ⊕ BindRec :=
  match s.applyAll b 0 l (s.bays.map (·.bind)) with
  | .inl (k, r) => .inl (k + r * 2 ^ 16)
  | .inr w => match s.wholeTest b l w with
    | some r => .inl (0xFFFF + r * 2 ^ 16)
    | none => .inr (nth w b)

/-! ### The peg (R211 to R214) -/

/-- The peg begins: the new record and version hold at once, pages of unbound granules go, and every command that is not
dispatched takes the new version (R202, R208, R211, R213). -/
def State.beginPeg (s : State) (b adm drainUs : Nat) (r : BindRec) : State :=
  let old := (s.bay b).bind
  let pages := (s.bay b).pages
  let freed := old.granules.filter (fun g => !r.granules.contains g)
  let s := s.setBay b (fun y => { y with
    bind := r
    txn := none
    txnSpan := (0, 0)
    pages := y.pages.filter (fun (p : Page) => !freed.contains p.granule) })
  let v := s.version + 1
  { s with
    version := v
    cmds := s.cmds.map (fun (c : Slot) => if c.phase == Phase.held then { c with stamp := v } else c)
    peg := some ⟨b, adm, s.clock.uptime, (if drainUs = 0 then 2000 else drainUs) * 1000, old.clusters &&& ~~~r.clusters, freed,
      0, false, old, pages⟩ }

/-- TXN_COMMIT (R208, R209, R211). -/
def execTxnCommit (h : Hdr) (bay drainUs : Nat) (s : State) : Host.Outcome State Fault Refusal :=
  .next (s.onRunning (.txnCommit h bay drainUs) (fun _ =>
    if 15 < bay ∨ 50000 < drainUs then s.fail h.adm .badParam
    else
      let y := s.bay bay
      match y.txn with
      | none => s.fail h.adm (if y.txnSpan.1 ≤ h.adm ∧ h.adm < y.txnSpan.2 then .conflict else .badParam)
      | some l =>
        -- step 1: the commit waits until the bay is HALTED or ACTIVE
        if y.st = .quiescing ∨ y.st = .evicting ∨ s.peg.isSome then s
        else if l.isEmpty then
          let s := s.setBay bay (fun y => { y with txn := none, txnSpan := (0, 0) })
          let s := if y.st = .binding then s.enter bay .unbound else s
          s.finishNat h.adm .ok s.version.toNat
        else match s.pegTest bay l with
          | .inl r => (s.knockDown bay).finishNat h.adm .conflict r
          | .inr r => (s.setActive h.adm).beginPeg bay h.adm drainUs r))

/-- The cluster mask that a command names. -/
def maskOf : Instr → W32
  | .matmul _ m => m.mask
  | .kernelLaunch _ k => k.mask
  | _ => 0

/-- A dispatched command of the old version. -/
def State.ofOldVersion (s : State) (p : Peg) (c : Slot) : Bool :=
  c.ofBay p.bay && c.dispatched && c.stamp != s.version && (match c.instr with
    | .memMap _ _ => false
    | _ => true)

/-- A dispatched command of the old version that uses what the peg has taken: a freed cluster or its SRAM window, or a
page of a freed granule. A launch that declares no ranges is not known to. -/
def State.usesFreed (s : State) (p : Peg) (c : Slot) : Bool :=
  let f := s.footprint p.bay c.instr
  let rs := (f.1 ++ f.2).filter (fun r => decide (r.2 < 2 ^ 48))
  s.ofOldVersion p c &&
    ((maskOf c.instr &&& p.clusters) != 0 ||
      rs.any (fun r => (bitsSet p.clusters).any (fun lc => meets r.1 r.2 (lc * 2 ^ 25) (2 ^ 25))) ||
      rs.any (fun r => p.oldPages.any (fun g => p.granules.contains g.granule && meets r.1 r.2 g.addr g.size)))

/-- A launch, which may access what it does not declare (R168): whether it holds an access to what the peg has taken when
the drain limit passes is open (log 7). -/
def State.mayUseFreed (s : State) (p : Peg) (c : Slot) : Bool :=
  s.ofOldVersion p c && !s.usesFreed p c && (p.clusters != 0 || !p.granules.isEmpty) && c.phase == Phase.active &&
    (match c.instr with
    | .kernelLaunch _ _ => true
    | _ => false)

/-- `f` run under the record and the pages that the bay had before the peg: work in progress was issued under them. -/
def State.underOld (s : State) (p : Peg) (f : State → State × Nat) : State × Nat :=
  let y := s.bay p.bay
  let e := f (s.setBay p.bay (fun z => { z with bind := p.oldBind, pages := p.oldPages }))
  (e.1.setBay p.bay (fun z => { z with bind := y.bind, pages := y.pages }), e.2)

/-- Work that the drain limit meets is given up: a launch stops with the fields of its lowest running core and its channels
with it, each line on its way old or new; any other command as when it is ended in progress. -/
def State.giveUp (b : Nat) (c : Slot) (s : State) : State × Nat := match c.phase with
  | .running => s.endRunning b c
  | _ => match c.instr with
    | .kernelLaunch _ _ =>
      let keys := s.coresOf c.adm
      let e := s.stopFields c none
      (keys.foldl (fun (s : State) key => s.cutChannels key (· == b)) e.1, e.2)
    | _ => s.endActive b c .rebound

/-- A command that the drain limit meets completes REBOUND, each line that it writes old or new (R212). -/
def State.rebind (p : Peg) (s : State) (c : Slot) : State :=
  let e := s.underOld p (State.giveUp p.bay c)
  e.1.finishNat c.adm .rebound e.2

/-- The commands that hold an access to what the peg has taken when the drain limit passes. -/
def State.absorbedCmds (s : State) (p : Peg) : List Slot :=
  let maybe := (s.cmds.filter (s.mayUseFreed p)).zipIdx.filter (fun x => (Config.freeValue (s.free + x.2)).getLsbD 0)
  postOrder (s.cmds.filter (s.usesFreed p) ++ maybe.map (·.1))

/-- PEG_DRAIN_LIMIT: the accesses of the old version that remain are absorbed; their count is open (R212). -/
def execPegDrainLimit (s : State) : Host.Outcome State Fault Refusal :=
  .next (match s.peg with
  | none => s
  | some p =>
    if p.drained ∨ s.clock.uptime < p.since + p.drainNs then s
    else
      let hit := s.absorbedCmds p
      let s := s.useFree (s.cmds.filter (s.mayUseFreed p)).length
      let n := if hit.isEmpty then 0 else s.freeNow.toNat % 2 ^ 32
      let s := if hit.isEmpty then s else s.useFree 1
      let s := hit.foldl (State.rebind p) s
      let s := { s with cmds := s.cmds.map (fun (c : Slot) => { c with stamp := s.version }) }
      { s with peg := some { p with drained := true, absorbed := n } })

/-- The bay's state after its peg (Table 8.2). -/
def State.afterPeg (s : State) (b : Nat) : State :=
  let y := s.bay b
  match y.st, y.bind.bound with
  | .binding, true => s.enter b .active
  | .binding, false => s.enter b .unbound
  | .halted, false => s.toUnbound b
  | _, _ => s

/-- PEG_COMPLETE: the drain has ended; freed clusters are cleared, freed granules marked, and the commit completes
(R211, R214). -/
def execPegComplete (s : State) : Host.Outcome State Fault Refusal :=
  .next (match s.peg with
  | none => s
  | some p =>
    if !p.drained ∧ s.cmds.any (s.usesFreed p) then s
    else
      let s := ((bitsSet p.clusters).filterMap s.phys).foldl State.clearCluster s
      let s := s.markZero p.granules
      let s := { s with
        peg := none
        cmds := s.cmds.map (fun (c : Slot) => { c with stamp := s.version }) }
      (s.afterPeg p.bay).finishNat p.adm .ok (s.version.toNat + p.absorbed * 2 ^ 32))

end Sys2Proof.Machine
end

