-- ==== Sys2Proof/Machine/Admission.lean ====
section
/-!
DEFINITION. The opcodes' own checks at admission (R165 step 6, R172, R174): licences, reserved bits, field ranges,
alignments, the checks that the manual places at admission (R93, R130, R179, R232) and those of the queue commands (R151,
R157). Checks against state that commands in flight may still change are made by each command's own meaning (R176, log 18).
-/
namespace Sys2Proof.Machine

/-! ### Widening (R180) -/

/-- What a format holds: significand bits, its finest unit 2^e, its largest magnitude, and infinities. -/
def fmtGrid : Nat → Nat × Int × (Nat × Int) × Bool
  | 0x8 => (K8T.mbits + 1, 1 - K8T.bias - K8T.mbits - 127, (K8T.topSig, K8T.topUlp + 127), false)
  | 0x9 => (K4.mbits + 1, 1 - K4.bias - K4.mbits - 127, (K4.topSig, K4.topUlp + 127), false)
  | 0xA => (7, 0, (1, 7), false)
  | 0xB => (3, 0, (1, 3), false)
  | n => match ffmt n with
    | some f => (f.mbits + 1, 1 - f.bias - f.mbits, (f.topSig, f.topUlp), f.hasInf)
    | none => (0, 0, (0, 0), false)

/-- The target can represent every value of the source. -/
def widens (src dst : Nat) : Bool :=
  let a := fmtGrid src
  let c := fmtGrid dst
  decide (a.1 ≤ c.1) && decide (c.2.1 ≤ a.2.1) && !magLt c.2.2.1.1 c.2.2.1.2 a.2.2.1.1 a.2.2.1.2 &&
    (!a.2.2.2 || c.2.2.2)

/-! ### MATMUL (R58, R90, R92, R93) -/

/-- Unused addresses and strides are zero, and no address has bits above 47 (Table 3.6, check 3). -/
def matUnused (m : MatmulBlk) : Bool :=
  (m.accIn || (m.cinAddr == 0 && m.ldcin == 0)) && (m.rescale || m.rescaleAddr == 0) && (m.stats || m.statsAddr == 0) &&
    [m.aAddr, m.bAddr, m.cAddr, m.cinAddr, m.rescaleAddr, m.statsAddr].all isBayAddr

/-- Result format, rounding and options (Table 3.5, R50). -/
def matOptions (m : MatmulBlk) : Bool :=
  (if m.opfmt ≤ 1 then decide (m.rnd ≤ 3) else m.rnd == 0) && (m.stats || !m.statsRunning) &&
    (match accFmt m.opfmt with
    | 0 => decide (m.resfmt ≤ 9) && !m.rescale && !m.stats && (!m.stoch || m.resfmt != 0)
    | 0xC => (if m.rescale then decide (1 ≤ m.resfmt) && decide (m.resfmt ≤ 0xC) else m.resfmt == 0xC) &&
        (!m.stoch || m.resfmt != 0xC)
    | _ => decide (m.resfmt ≤ 0xB) && (!m.stoch || decide (2 ≤ m.resfmt)))

/-- Formats narrower than a byte and block formats, stored k-contiguous (R92). -/
def kContiguous (fmt : Nat) : Bool := fmt == 6 || fmt == 7 || fmt == 8 || fmt == 9 || fmt == 0xB

/-- Extents and strides (Table 3.6, check 7). -/
def matExtents (m : MatmulBlk) : Bool :=
  [m.m, m.n, m.k].all (fun x => decide (1 ≤ x) && decide (x ≤ 2 ^ 24)) &&
    decide (storedBytes m.opfmt (aDims m).2 ≤ m.lda) && decide (storedBytes m.opfmt (bDims m).2 ≤ m.ldb) &&
    decide (storedBytes m.resfmt m.n ≤ m.ldc) && (!m.accIn || decide (storedBytes (accFmt m.opfmt) m.n ≤ m.ldcin)) &&
    m.mask != 0 && (!m.rescale || decide (m.n ≤ 65536)) && (!kContiguous m.opfmt || (!m.aT && m.bT))

/-- Alignments (Table 3.6, check 8). -/
def matAligned (m : MatmulBlk) : Bool :=
  [m.aAddr, m.bAddr, m.cAddr, m.cinAddr, m.rescaleAddr, m.statsAddr, m.lda, m.ldb, m.ldc, m.ldcin].all (· % 64 == 0) &&
    (!isBlock m.opfmt || m.k % 32 == 0) && (!isBlock m.resfmt || m.n % 32 == 0)

/-- Some byte is accessed in both lists of ranges. -/
def rangesMeet (rs qs : List (Nat × Nat)) : Bool := rs.any (fun r => qs.any (fun q => meets r.1 r.2 q.1 q.2))

/-- C against the operands, the table and the maxima, and C_IN against all of them (Table 3.6, check 11). -/
def matOverlap (m : MatmulBlk) : Bool :=
  let a := rowRanges m.aAddr m.lda (aDims m).1 (aDims m).2 m.opfmt
  let c := rowRanges m.bAddr m.ldb (bDims m).1 (bDims m).2 m.opfmt
  let out := rowRanges m.cAddr m.ldc m.m m.n m.resfmt
  let cin := if m.accIn then rowRanges m.cinAddr m.ldcin m.m m.n (accFmt m.opfmt) else []
  let table := if m.rescale then [(m.rescaleAddr, 8 * m.n)] else []
  let maxima := if m.stats then [(m.statsAddr, 4 * m.n)] else []
  let others := a ++ c ++ table ++ maxima
  let same := m.cinAddr == m.cAddr && m.ldcin == m.ldc && m.resfmt == accFmt m.opfmt
  rangesMeet out others || (m.accIn && !same && rangesMeet cin (out ++ others))

/-- Checks 3 to 11 of Table 3.6. -/
def State.matmulCheck (s : State) (b : Nat) (m : MatmulBlk) : Option Status :=
  if !matUnused m then some .badParam
  else if 0xC ≤ m.opfmt then some .badParam
  else if m.opfmt = 0 ∧ !s.effFeat.fp64 then some .licenceMissing
  else if !matOptions m then some .badParam
  else if !matExtents m then some .badParam
  else if !matAligned m then some .badAlign
  else if (m.mask &&& ~~~(s.bay b).bind.clusters) ≠ 0 then some .notBound
  else if (matIns m).any (fun r => !s.rangeOk b .rd r.1 r.2) ∨ (matOuts m).any (fun r => !s.rangeOk b .wr r.1 r.2) ∨
      (m.stats ∧ !s.rangeOk b .rd m.statsAddr (4 * m.n)) then
    some .accessDenied
  else if matOverlap m then some .badParam
  else none

/-! ### The other opcodes -/

/-- KERNEL_LAUNCH (Table 7.5): fields, alignment, clusters. -/
def State.kernelCheck (s : State) (b : Nat) (k : KernelBlk) : Option Status :=
  if !isBayAddr k.imageAddr ∨ !isBayAddr k.argAddr ∨ !((k.readRanges ++ k.writeRanges).all (fun r => isBayAddr r.1)) ∨
      k.imageLen < 4 ∨ 262016 < k.imageLen ∨ k.imageLen % 4 ≠ 0 ∨ k.mask = 0 ∨ k.imageLen ≤ k.entry ∨ k.entry % 2 ≠ 0 ∨
      1 < k.policy then
    some .badParam
  else if k.imageAddr % 64 ≠ 0 then some .badAlign
  else if (k.mask &&& ~~~(s.bay b).bind.clusters) ≠ 0 then some .notBound
  else none

/-- QUANT_STATS (Table 7.4). -/
def statsCheck (o : StatsOps) : Option Status :=
  if o.rows = 0 ∨ o.cols = 0 ∨ 65536 < o.cols ∨ 7 < o.fmt then some .badParam
  else if o.dst % 64 ≠ 0 ∨ o.ld % 64 ≠ 0 then some .badAlign
  else none

/-- CONVERT (Table 7.4). -/
def convertCheck (o : ConvertOps) : Option Status :=
  if o.count = 0 ∨ 0xB < o.srcFmt ∨ 0xB < o.dstFmt ∨ o.srcFmt = o.dstFmt ∨
      (o.stoch ∧ (9 < o.dstFmt ∨ widens o.srcFmt o.dstFmt)) then
    some .badParam
  else if (isBlock o.srcFmt || isBlock o.dstFmt) ∧ o.count % 32 ≠ 0 then some .badAlign
  else if rangesMeet (convertIns o) (convertOuts o) then some .badParam
  else none

/-- RNG_FILL (Table 7.4, R181). -/
def rngCheck (o : RngOps) : Option Status :=
  if o.count = 0 ∨ 7 < o.fmt ∨ 2 < o.dist ∨ (o.dist < 2 ∧ (!finite32 o.a || !finite32 o.b)) ∨ (o.dist = 2 ∧ o.b ≠ 0) then
    some .badParam
  else none

/-- A length of MEM_COPY and MEM_FILL: 1 B to 2^40 B (Table 7.3). -/
def lengthOk (n : Nat) : Bool := decide (1 ≤ n) && decide (n ≤ 2 ^ 40)

/-- MEM_COPY (Table 7.3): its addresses may be fabric addresses (R127); the ranges are apart (R166). -/
def State.copyCheck (s : State) (b src dst n : Nat) : Option Status :=
  let y := s.bay b
  if !sideOk src ∨ !sideOk dst ∨ !lengthOk n ∨ meets (y.footAddr src) n (y.footAddr dst) n then some .badParam else none

/-- CIPHER_RUN (R192). -/
def cipherCheck (o : CipherOps) : Option Status :=
  if 3 < o.slot ∨ (o.src ≠ o.dst ∧ meets o.src o.length o.dst o.length) then some .badParam else none

/-- The fields of the join block but those that the shard map and the device give (Table 11.2). -/
def joinFields (j : JoinBlk) : Bool :=
  decide (j.thisSite < 16) && j.siteMask.getLsbD j.thisSite && decide (1 ≤ j.farPorts) && decide (j.farPorts ≤ 3) &&
    decide (1 ≤ j.h) && decide (j.h ≤ 65535) && decide (1000000000 ≤ j.periodNs) &&
    decide (j.periodNs ≤ 86400 * 1000000000) && (j.graceUs == 0 || (decide (1000 ≤ j.graceUs) && decide (j.graceUs ≤ 10000000))) &&
    decide (10000 ≤ j.takeoverUs) && decide (j.takeoverUs ≤ 10000000) && decide (10000 ≤ j.digestUs) &&
    decide (j.digestUs ≤ 60000000) && decide (j.rtxGib ≤ 16) && decide (j.recvGib ≤ 64) && positive32 j.outerLr &&
    unit32 j.outerMu false && j.stale.all (fun w => unit32 w true) && decide (j.noncePrefix.toNat < 2 ^ 63) &&
    isBayAddr j.landAddr && decide (mib2 ≤ j.landLen) && decide (1 ≤ j.udpPort) &&
    (List.range 16).all (fun i => j.siteMask.getLsbD i || nth j.peers i == ⟨0, 0⟩)
where
  /-- 0 or more and below 1, or to 1. -/
  unit32 (w : W32) (one : Bool) : Bool :=
    finite32 w && !ltVal (val32 w) (.fin false 0 0) &&
      (ltVal (val32 w) (val32 one32) || (one && !ltVal (val32 one32) (val32 w)))

/-- SCARF_JOIN's fields and the alignment of its landing store. -/
def joinCheck (j : JoinBlk) (group slot : Nat) : Option Status :=
  if !joinFields j ∨ 63 < group ∨ 3 < slot then some .badParam
  else if j.landAddr % mib2 ≠ 0 ∨ j.landLen % mib2 ≠ 0 then some .badAlign
  else none

/-- A status that names a malformed field, of a check that goes on to state. -/
def onlyFields : Option Status → Option Status
  | some .badParam => some .badParam
  | some .badAlign => some .badAlign
  | _ => none

def failIf (c : Bool) (st : Status) : Option Status := if c then some st else none

def notAligned (a n : Nat) : Bool := a % n != 0

/-- QUEUE_CREATE's fields (Table 6.4), then its ring's alignment once CQID names a queue; R151's other checks are made
at dispatch. -/
def State.queueCreateFields (s : State) (b : Nat) (q : QueueOps) : Option Status :=
  let fields : Bool :=
    decide (q.qtype ≤ 1) && decide (1 ≤ q.qid) && decide (q.qid ≤ 7) && decide (6 ≤ q.log2Size) &&
      decide (q.log2Size ≤ 16) &&
      (if q.qtype = 0 then
        decide (q.cqid ≤ 7) && q.vector == 0 && q.coalCount == 0 && decide (1 ≤ q.weight) && decide (q.weight ≤ 16) &&
          q.coalTime == 0
      else q.cqid == 0 && decide (q.vector < 120) && q.weight == 0 && decide (q.coalTime ≤ 1023))
  if fields then failIf (notAligned q.ringAddr 4096 && (q.qtype != 0 || (nth (s.bay b).cqs q.cqid).live)) .badAlign
  else some .badParam

/-- A queue command of the bay that has not completed: what it does to the queues, a later one's checks must see (log 18). -/
def State.queueWork (s : State) (b : Nat) : Bool := s.cmds.any (fun c => c.ofBay b && !c.finished? && (match c.instr with
  | .queueCreate _ _ => true
  | .queueDelete _ _ _ => true
  | _ => false))

/-- A CKPT_CUT's fields: bay addresses, each zero exactly where the loaded map has no region of its class; a map that a
command in flight may replace is looked at when the cut starts (R127, R319, log 40). -/
def State.cutFields (s : State) (b : Nat) (k : CutBlk) : Bool :=
  let mapWork := s.cmds.any (fun c => c.ofBay b && !c.finished? && (match c.instr with
    | .shardMapLoad _ _ _ => true
    | .ckptRestore _ _ _ _ => true
    | _ => false))
  !([k.kerfMaster, k.kerfM1, k.kerfM2, k.kerfOmom].all isBayAddr) || (match (s.bay b).train.map with
    | some p => !mapWork && !layoutFits p k
    | none => false)

/-- An opcode's own checks after its licence and its reserved bits, for a command of bay `b` (0 for the other queues,
where no check uses it). -/
def State.ownCheck (s : State) (b : Nat) (i : Instr) : Option Status := match i with
  | .identify h bay dst =>
    if (match h.org with | .bay _ _ => bay != 0 | _ => decide (15 < bay) && bay != 0xFF) then some .badParam
    else failIf (notAligned dst 64) .badAlign
  | .getLog h log clear bay _ _ _ =>
    let own := match h.org with | .bay _ _ => true | _ => false
    if 2 < log ∨ (if log = 2 ∧ !own then 15 < bay else bay ≠ 0) then some .badParam
    else failIf (own && (log != 2 || clear)) .accessDenied
  | .queueCreate _ q => if s.queueWork b then s.queueCreateFields b q else s.queueCreateCheck b q
  | .queueDelete _ qtype qid =>
    if s.queueWork b then failIf (decide (1 < qtype) || decide (qid = 0) || decide (7 < qid)) .badParam
    else s.queueDeleteCheck b qtype qid
  | .memCopy _ src dst n => s.copyCheck b src dst n
  | .memFill _ _ n _ => failIf (!lengthOk n) .badParam
  | .memMap _ o => s.memMapCheck b o
  | .memPlace _ a n dest => if dest = 3 ∨ 7 < dest then some .badParam else s.memPlaceCheck b a n dest
  | .kernelLaunch _ k => s.kernelCheck b k
  | .matmul _ m => s.matmulCheck b m
  | .quantStats _ o => statsCheck o
  | .convert _ o => convertCheck o
  | .rngFill _ o => rngCheck o
  | .stepGather _ _ es =>
    if es.isEmpty ∨ 1024 < es.length then some .badParam
    else failIf (es.any (fun e => (e.mcast &&& ~~~(s.bay b).bind.clusters) != 0)) .accessDenied
  | .stepUpdate _ hp _ _ _ => failIf (notAligned hp 64) .badAlign
  | .updateArm _ hp _ _ _ => failIf (notAligned hp 64) .badAlign
  | .normClip _ _ _ mx => failIf (!positive32 mx) .badParam
  | .collAllreduce _ o => onlyFields (s.collCheck b 0x0400 o)
  | .collAllgather _ o => onlyFields (s.collCheck b 0x0401 o)
  | .collReduceScatter _ o => onlyFields (s.collCheck b 0x0402 o)
  | .collBroadcast _ o => onlyFields (s.collCheck b 0x0403 o)
  | .collGroupCreate _ g k =>
    let unbound : Bool := (k.mask &&& ~~~(s.bay b).bind.clusters) != 0
    let st := s.groupCreateCheck b g k
    if unbound then st else onlyFields st
  | .collGroupDestroy _ g => failIf (decide (63 < g)) .badParam
  | .triggerArm _ t =>
    if !trigFields t then some .badParam else failIf (!(s.bay b).bind.clusters.getLsbD t.issuer) .notBound
  | .scarfJoin _ j g k => joinCheck j g k
  | .scarfCancel _ _ site _ => failIf (decide (15 < site) && site != 0xFF) .badParam
  | .scarfCatchup _ site => failIf (decide (15 < site) && site != 0xFF) .badParam
  | .ckptCut _ id k =>
    if id = deviceCut ∨ (k.layoutOnly ∧ id ≠ 0) ∨ s.cutFields b k then some .badParam
    else failIf (!k.layoutOnly && ((s.bay b).undrained.map (·.predictive)).getD false) .conflict
  | .ckptDrain _ _ _ path slot => failIf (decide (2 < path) || (decide (3 < slot) && slot != 0xFF)) .badParam
  | .ckptRestore _ m src slot =>
    if notAligned m 4096 || notAligned src 4096 then some .badAlign else failIf (decide (3 < slot) && slot != 0xFF) .badParam
  | .ckptVerify _ m src slot =>
    if notAligned m 4096 || notAligned src 4096 then some .badAlign else failIf (decide (3 < slot) && slot != 0xFF) .badParam
  | .keyLoad _ slot mode _ => failIf (decide (3 < slot) || decide (1 < mode)) .badParam
  | .keyErase _ slot => failIf (decide (3 < slot) && slot != 0xFF) .badParam
  | .cipherRun _ o => cipherCheck o
  | .digestRun _ _ _ n => failIf (decide (2 ^ 40 < n)) .badParam
  | .entropyRead _ _ n => failIf (decide (n = 0) || decide (4096 < n)) .badParam
  | .telemetryRead h w _ _ => telemetryCheck h w
  | .floorplanRead _ _ n => failIf (decide (n < 32) || n % 32 != 0) .badParam
  | .linkTest _ port pat ms =>
    failIf ((decide (11 < port) && port != 16 && port != 17) || pat != 0 || decide (ms = 0) || decide (10000 < ms)) .badParam
  | .txnBegin _ bay => failIf (decide (15 < bay)) .badParam
  | .txnCommit _ bay drainUs => failIf (decide (15 < bay) || decide (50000 < drainUs)) .badParam
  | .txnRollback _ bay => failIf (decide (15 < bay)) .badParam
  | .bayReset _ bay _ => failIf (decide (15 < bay)) .badParam
  | .bindCluster _ _ _ _ => s.bindCheck i
  | .bindMemory _ _ _ _ _ => s.bindCheck i
  | .bindShares _ _ _ => s.bindCheck i
  | _ => none

/-- A licence that the opcode needs on its operands is missing (R174, Tables 7.3 and 7.10). -/
def State.operandLicence (s : State) (i : Instr) : Bool := match i with
  | .memPlace _ _ _ dest => decide (4 ≤ dest) && decide (dest ≤ 7) && decide (s.bootFeat.t3 ≤ dest - 4)
  | .bindCluster _ _ _ _ => s.bindCheck i == some .licenceMissing
  | .bindMemory _ _ _ _ _ => s.bindCheck i == some .licenceMissing
  | _ => false

/-- Fields of one byte that the command keeps as a bit, and FORMAT 1 of the blocks that have it (Tables 11.2, 13.1). -/
def codesOk (code : Nat) (e k : List Byte) : Bool := match code with
  | 0x0020 => decide (byteAt e 17 ≤ 1)
  | 0x0710 => decide (byteAt e 17 ≤ 1)
  | 0x0711 => decide (byteAt e 17 ≤ 1)
  | 0x0810 => decide (byteAt e 41 ≤ 1)
  | 0x0500 => leAt k 0 2 == 1
  | 0x0600 => leAt k 0 2 == 1
  | _ => true

/-- R165 step 6: the licence, reserved operand bytes, reserved address bits, then the opcode's checks. MATMUL's
reserved bits stand before its licence (Table 3.6). -/
def State.step6 (s : State) (b : Nat) (onBay : Bool) (r : OpRow) (e k : List Byte) (i : Instr) : Option Status :=
  if (r.train ∧ !s.effFeat.train) ∨ (r.far ∧ !s.effFeat.far) ∨ s.operandLicence i then some .licenceMissing
  else if !reservedClear r.named 16 64 e ∨ !blockClear r.code k then some .badParam
  else if onBay ∧ !r.addrs.all (fun o => isBayAddr (leAt e o 8)) then some .badParam
  else if !codesOk r.code e k then some .badParam
  else s.ownCheck b i

end Sys2Proof.Machine
end

