-- ==== Sys2Proof/Machine/Joiner.lean ====
section
/-!
DEFINITION. The Joiner (R142 to R176): ENTRY_FETCH with the admission of Table 6.5, COMMAND_DISPATCH, COMPLETION_POST,
COALESCE_TIMER and URGENT_DOORBELL_SAMPLE.
-/
namespace Sys2Proof.Machine

/-- The device runs and has booted: the Joiner works (R352). -/
def State.up (s : State) : Bool := s.dev.hold == 0 && s.boot.ready

/-- The host link carries accesses: stage 1 has trained it and PCIE_PERST_N does not hold the endpoint (R352, R394). -/
def State.hostUp (s : State) : Bool := s.dev.hold == 0 && s.boot.linkUp

/-! ### Generic checks (Table 6.5, steps 1 to 5) -/

/-- Step 1: the opcode is defined and its group permitted on the queue (R164). -/
def groupOk (org : Origin) (code : Nat) : Bool := match org with
  | .urgent => code / 256 == 0x0F
  | _ => code / 256 != 0x0F

/-- Step 2: the queue is one that the opcode's row names (R150, R173). -/
def queueOk (org : Origin) (r : OpRow) : Bool := match org with
  | .bay _ q => r.bay && (!r.sq0 || q == 0)
  | .control => r.control
  | .urgent => r.urgent

/-- Step 3: reserved header bits, PRIO, IN_TXN, and the fields that the control and urgent queues want zero. -/
def headerOk (org : Origin) (r : OpRow) (e : List Byte) : Bool :=
  let f := byteAt e 2
  decide (f < 16) && decide (byteAt e 3 < 3) && decide (byteAt e 10 < 4) && byteAt e 11 == 0 &&
    ((f / 8 % 2 == 1) == r.txn) &&
    (match org with
    | .bay _ _ => true
    | .control => zeroAt e 8 3 && zeroAt e 12 4
    | .urgent => zeroAt e 2 2 && zeroAt e 8 8)

/-- Bytes of the extended block; the gather block's header holds its count (Table 9.3). -/
def State.blockSize (s : State) (b a size : Nat) : Nat :=
  if size = 0 then
    let n := leAt (s.readBay b a 64) 0 2
    if 1 ≤ n ∧ n ≤ 1024 then 64 * (1 + n) else 64
  else size

/-- Steps 4 and 5: the block's status, or its bytes as copied (R144). -/
def State.readBlock (s : State) (b a size align : Nat) : Status ⊕ List Byte :=
  if a % align ≠ 0 then .inl .badAlign
  else if !s.rangeOk b .rd a 64 ∨ !s.rangeOk b .rd a (s.blockSize b a size) then .inl .accessDenied
  else if s.rangeBad b .rd a (s.blockSize b a size) then .inl .machineCheck
  else .inr (s.readBay b a (s.blockSize b a size))

def orgBay : Origin → Nat
  | .bay b _ => b
  | _ => 0

def onBay : Origin → Bool
  | .bay _ _ => true
  | _ => false

/-- After a class 5 event only IDENTIFY, GET_LOG and TELEMETRY_READ of the control queue are admitted (R337). -/
def State.fatalRefuses (s : State) (org : Origin) (code : Nat) : Bool :=
  s.dev.fatal && !(org == .control && (code == 1 || code == 2 || code == 0x900))

/-- Every check of an entry in order: the status of the first failure, or the command (R165). -/
def State.admission (s : State) (org : Origin) (h : Hdr) (e : List Byte) : Status ⊕ Instr :=
  let code := leAt e 0 2
  if s.fatalRefuses org code then .inl .machineCheck
  else
    match opRow? code with
    | none => .inl .badOpcode
    | some r =>
      if !groupOk org code then .inl .badOpcode
      else if !queueOk org r then .inl .accessDenied
      else if !headerOk org r e then .inl .badParam
      else
        let b := orgBay org
        let block : Status ⊕ List Byte := match r.block with
          | some (size, align) => s.readBlock b (leAt e 16 8) size align
          | none => .inr []
        match block with
        | .inl st => .inl st
        | .inr k =>
          match buildInstr code h e k with
          | none => .inl .badOpcode
          | some i =>
            match s.step6 b (onBay org) r e k i with
            | some st => .inl st
            | none => .inr i

/-! ### What an admission records -/

/-- Reuse records go, and gathers in flight make none, whose destination the command's write set meets (R231); a gather's reusable entries are written by
nothing. -/
def State.dropReuse (s : State) (b : Nat) (i : Instr) : State :=
  match (s.bay b).train.map with
  | none => s
  | some p =>
    let outs := match i with
      | .stepGather _ step es =>
        ((es.filter (fun e => !(s.bay b).train.reusable step e)).map (entryDests p)).flatten
      | _ => ((s.footprint b i).2).map (fun r => ((s.bay b).footAddr r.1, r.2))
    let stale := ((s.cmds.filter (fun c => c.ofBay b && !c.finished?)).map (fun c => match c.instr with
      | .stepGather _ _ es =>
        (es.zipIdx.filter (fun e => anyLine outs (entryDests p e.1))).map (fun e => (c.adm, e.2))
      | _ => [])).flatten
    s.setTrain b (fun tr => { tr with
      reuse := tr.reuse.filter (fun (r : ReuseRec) => !anyLine outs (entryDests p r.entry))
      stale := tr.stale ++ stale })

/-- The number of a gather of its step, of a norm or an arm of the bay, of a collective of its group (R227, R263), and
the state with that number used. -/
def State.takeIndex (s : State) (b : Nat) (i : Instr) : Nat × State :=
  let coll := fun (g : Nat) =>
    ((((s.bay b).group? g).map (·.count)).getD 0, s.setGroup b g (fun x => { x with count := x.count + 1 }))
  let norm := ((s.bay b).train.normCount, s.setTrain b (fun tr => { tr with normCount := tr.normCount + 1 }))
  match i with
  | .stepGather _ step _ =>
    let k := (((s.bay b).train.gatherCount.find? (·.1 == step)).map (·.2)).getD 0
    (k, s.setTrain b (fun tr => { tr with
      gatherCount := tr.gatherCount.filter (fun (x : W32 × Nat) => x.1 != step) ++ [(step, k + 1)] }))
  | .normClip _ _ _ _ => norm
  | .updateArm _ _ _ _ _ => norm
  | .collAllreduce _ o => coll o.group
  | .collAllgather _ o => coll o.group
  | .collReduceScatter _ o => coll o.group
  | .collBroadcast _ o => coll o.group
  | _ => (0, s)

/-- The kerf layout of a CKPT_CUT that passed admission is the bay's (R320). -/
def State.noteLayout (s : State) (b : Nat) (i : Instr) : State := match i with
  | .ckptCut _ _ blk => s.setCkpt b (fun k => { k with layout := some blk })
  | _ => s

/-- The ERR sample of a command whose counter has reached its threshold at admission (R162). -/
def State.sampleAt (s : State) (org : Origin) (h : Hdr) : Option Bool := match org, h.wait with
  | .bay b _, some (c, t) =>
    let k := nth (s.bay b).counters c
    if reached k.value t then some k.err else none
  | _, _ => none

/-- A slot for a command, with the FTZ copy and the stamp of its admission (R52, R213). -/
def State.newSlot (s : State) (org : Origin) (h : Hdr) (i : Instr) (ph : Phase) (index : Nat) : Slot :=
  { instr := i, phase := ph, ftz := onBay org && (s.bay (orgBay org)).bind.ftz, stamp := s.version,
    errSample := s.sampleAt org h, corrected := false, index := index, started := s.clock.uptime, work := 0, quiet := false,
    data := [], retries := [] }

def State.addSlot (s : State) (c : Slot) : State := { s with cmds := s.cmds ++ [c], nextAdm := s.nextAdm + 1 }

/-- One entry is admitted: a failing one performs nothing and completes at once, its signal firing (R165); any other is
held until it may start. Answers the admission number too. -/
def State.admitEntry (s : State) (org : Origin) (e : List Byte) (ph : Phase) : State :=
  let h := decodeHdr org s.nextAdm e
  match s.admission org h e with
  | .inl st => (s.addSlot (s.newSlot org h (.nop h) .held 0)).fail h.adm st
  | .inr i =>
    if onBay org then
      let b := orgBay org
      let s := (s.dropReuse b i).noteLayout b i
      let x := s.takeIndex b i
      x.2.addSlot (x.2.newSlot org h i ph x.1)
    else s.addSlot (s.newSlot org h i ph 0)

/-! ### ENTRY_FETCH (R152 to R154, R159) -/

/-- Entries between two indices of a ring of 2^log2. -/
def ringPending (log2 head tail : Nat) : Nat := (tail + 2 ^ log2 - head) % 2 ^ log2

def SubQ.waiting (q : SubQ) : Nat := if q.live ∧ q.deleting.isNone then ringPending q.log2 q.head q.tail else 0

/-- The index after one of a ring. -/
def ringNext (log2 i : Nat) : Nat := (i + 1) % 2 ^ log2

/-- A queue of the bay that the Joiner may fetch from: the admin queue only while it is enabled (R428). -/
def Bay.fetchable (y : Bay) (q : Nat) : Nat := if q = 0 ∧ !y.regs.en then 0 else (nth y.sqs q).waiting

/-- Free slots of a bay within its limit and the table's (R158, R159). -/
def State.freeSlots (s : State) (b : Nat) : Nat :=
  min ((s.bay b).bind.slotLimit - s.slotsInUse b) (4096 - (s.cmds.filter (fun c => onBay c.hdr.org)).length)

/-- Pending entries, a free slot, and a bay that runs (R153, R154, R333). -/
def State.wantsFetch (s : State) (b : Nat) : Bool :=
  (s.bay b).runs && decide (0 < s.freeSlots b) && (List.range 8).any (fun q => decide (0 < (s.bay b).fetchable q))

/-- Members of 0 to n - 1 in round-robin order from a first one on. -/
def roundFrom (n first : Nat) : List Nat := (List.range n).map (fun k => (first + k) % n)

/-- One entry of a bay's queue fetched and admitted. A ring that can no longer be read gives free bytes (log 10). -/
def State.fetchOne (s : State) (b q : Nat) : State :=
  let x := nth (s.bay b).sqs q
  let a := x.base + 64 * x.head
  let ok := s.rangeOk b .rd a 64 && !s.rangeBad b .rd a 64
  let e := if ok then s.readBay b a 64 else s.freeBytes 64
  let s := if ok then s else s.useFree 64
  (s.setSq b q (fun x => { x with head := ringNext x.log2 x.head })).admitEntry (.bay b q) e .held

/-- Up to `n` entries of a queue, while it has pending entries and the bay a free slot. -/
def State.fetchMany : Nat → Nat → Nat → State → State
  | 0, _, _, s => s
  | n + 1, b, q, s =>
    if s.freeSlots b = 0 ∨ (s.bay b).fetchable q = 0 ∨ !(s.bay b).runs then s
    else State.fetchMany n b q (s.fetchOne b q)

/-- The queue of a bay that the weighted round robin serves next, and its grants left after this one: `rounds` holds the
queue being served and the grants left to it, 0 for a whole WEIGHT. -/
def State.nextQueue (s : State) (b : Nat) : Option (Nat × Nat × Nat) :=
  let r := nth s.joiner.rounds b
  match (roundFrom 8 r.1).find? (fun q => decide (0 < (s.bay b).fetchable q)) with
  | none => none
  | some q =>
    let grants := if q = r.1 ∧ 0 < r.2 then r.2 else (nth (s.bay b).sqs q).weight
    some (if grants ≤ 1 then (q, (q + 1) % 8, 0) else (q, q, grants - 1))

/-- One grant between bays: the next bay in ascending order that wants one, up to 8 entries of one of its queues. -/
def State.fetchBays (s : State) : State :=
  match (roundFrom 16 (s.joiner.lastBay + 1)).find? s.wantsFetch with
  | none => s
  | some b =>
    match s.nextQueue b with
    | none => s
    | some (q, r) => State.fetchMany 8 b q { s with joiner := ⟨b, s.joiner.rounds.set b r⟩ }

/-- Commands of the control queue in flight (R173). -/
def State.controlFlight (s : State) : Nat := (s.cmds.filter (fun c => c.hdr.org == .control)).length

/-- One control entry fetched from host memory and admitted (R154, R427). -/
def State.fetchControlOne (s : State) : State :=
  let x := s.ctl.sq
  let a := x.base + 64 * x.head
  let ok := s.hostOk 0 a 64
  let e := if ok then s.readLoc (hostLoc 0 a) 64 else s.freeBytes 64
  let s := if ok then s else s.useFree 64
  ({ s with ctl := { s.ctl with sq := { x with head := ringNext x.log2 x.head } } }).admitEntry .control e .held

/-- Control entries while fewer than 16 commands are in flight. -/
def State.fetchControl : Nat → State → State
  | 0, s => s
  | n + 1, s =>
    if 16 ≤ s.controlFlight ∨ !s.ctl.en ∨ !s.ctl.live ∨ s.ctl.sq.waiting = 0 then s
    else State.fetchControl n s.fetchControlOne

/-- ENTRY_FETCH: one grant of the arbitration between bays, or the control path (R154). -/
def execEntryFetch (path : FetchPath) (s : State) : Host.Outcome State Fault Refusal :=
  .next (if !s.up then s else match path with
  | .bays => s.fetchBays
  | .control => State.fetchControl 16 s)

/-! ### COMMAND_DISPATCH (R162, R166 to R169, R205, R213, R322, R333, R341) -/

/-- Commands of group 0x07 run one at a time (R205). -/
def isBinding : Instr → Bool
  | .txnBegin _ _ => true | .txnCommit _ _ _ => true | .txnRollback _ _ => true | .bindCluster _ _ _ _ => true
  | .bindMemory _ _ _ _ _ => true | .bindShares _ _ _ => true | .bayReset _ _ _ => true | _ => false

/-- Commands held back while a cut copies (R322), and, with CKPT_CUT, while an eviction waits for its boundary (R333). -/
def heldByCut : Instr → Bool
  | .stepUpdate _ _ _ _ _ => true | .updateArm _ _ _ _ _ => true | .scarfEpochClose _ _ _ => true
  | .scarfCatchup _ _ => true | _ => false

def isCut : Instr → Bool
  | .ckptCut _ _ _ => true
  | _ => false

/-- A close waits for a running catch-up (R294). -/
def Bay.closeWaits (y : Bay) (i : Instr) : Bool := match i, y.join with
  | .scarfEpochClose _ _ _, some j => j.catchup.isSome
  | _, _ => false

/-- The bay holds the command back whatever its queue allows. -/
def Bay.holdsBack (y : Bay) (i : Instr) : Bool :=
  (y.copying && heldByCut i) || (y.evictWaits && (heldByCut i || isCut i)) || y.closeWaits i

/-- Logical clusters that a command names. -/
def named : Instr → W32
  | .matmul _ m => m.mask
  | .kernelLaunch _ k => k.mask
  | .stepGather _ _ es => es.foldl (fun m e => m ||| e.mcast) 0
  | .collGroupCreate _ _ k => k.mask
  | .triggerArm _ t => BitVec.ofNat 32 (2 ^ t.issuer)
  | _ => 0

/-- Commands admitted before `c` in its bay that have not completed. -/
def State.before (s : State) (b : Nat) (c : Slot) : List Slot :=
  s.cmds.filter (fun d => d.ofBay b && decide (d.adm < c.adm) && !d.finished?)

/-- A held command of a bay is ready: its trigger has passed, no fence and no conflict of its queue holds it, and no cluster
that it names is in a reset (R219). -/
def State.ready (s : State) (b : Nat) (c : Slot) : Bool :=
  let pre := s.before b c
  (c.hdr.wait.isNone || c.errSample.isSome) && (!c.hdr.fenceBefore || pre.isEmpty) &&
    !pre.any (fun d => d.hdr.fenceAfter) &&
    !pre.any (fun d => d.hdr.org == c.hdr.org && s.conflict b d.instr c.instr) && (s.bay b).runs &&
    !((s.bay b).holdsBack c.instr && c.errSample != some true) &&
    !s.dev.clusterBusy.any (fun x => (named c.instr).getLsbD x.1)

/-- The opcode group that a command of a bay belongs to, other than the clusters' own work. -/
def groupOf : Instr → Nat
  | .memCopy _ _ _ _ => 1 | .memFill _ _ _ _ => 1 | .memMap _ _ => 1 | .memPlace _ _ _ _ => 1
  | .quantStats _ _ => 2 | .convert _ _ => 2 | .rngFill _ _ => 2
  | .collGroupCreate _ _ _ => 4 | .collGroupDestroy _ _ => 4 | .triggerArm _ _ => 4 | .triggerDisarm _ _ => 4
  | .collAllreduce _ _ => 4 | .collAllgather _ _ => 4 | .collReduceScatter _ _ => 4 | .collBroadcast _ _ => 4
  | .ckptCut _ _ _ => 6 | .ckptDrain _ _ _ _ _ => 6 | .ckptRelease _ _ => 6 | .ckptRestore _ _ _ _ => 6
  | .ckptVerify _ _ _ _ => 6 | .exportStream _ _ _ _ => 6
  | .keyLoad _ _ _ _ => 8 | .keyErase _ _ => 8 | .cipherRun _ _ => 8 | .digestRun _ _ _ _ => 8 | .entropyRead _ _ _ => 8
  | .telemetryRead _ _ _ _ => 9 | .seasonReport _ _ _ => 9 | .floorplanRead _ _ _ => 9 | .linkTest _ _ _ _ => 9
  | .scarfJoin _ _ _ _ => 5 | .scarfLeave _ => 5 | .scarfEpochClose _ _ _ => 5 | .scarfCancel _ _ _ _ => 5
  | .scarfCatchup _ _ => 5
  | i => if isTraining i then 3 else 0

/-- The units that a command starts on: the engines of the clusters a MATMUL names, the cores of those a launch names, else
the unit that serves its opcode group (log 70). -/
def unitsOf : Instr → List (Nat × Nat)
  | .matmul _ m => (bitsSet m.mask).map (fun lc => (10, lc))
  | .kernelLaunch _ k => (bitsSet k.mask).map (fun lc => (11, lc))
  | i => [(groupOf i, 0)]

/-- PRIO as a rank (Table 6.1): 1 high, 0 normal, 2 low. -/
def Slot.rank (c : Slot) : Nat := match c.hdr.prio with
  | 1 => 2
  | 0 => 1
  | _ => 0

/-- Another ready command of the bay goes first on a unit that both want: its priority is higher, or the same and it was
admitted earlier (R143). -/
def State.outranked (s : State) (b : Nat) (c : Slot) : Bool :=
  s.cmds.any (fun d => d.phase == Phase.held && d.ofBay b && d.adm != c.adm &&
    (unitsOf d.instr).any (fun u => (unitsOf c.instr).contains u) &&
    (decide (c.rank < d.rank) || (c.rank == d.rank && decide (d.adm < c.adm))) && s.ready b d)

/-- A ready command starts when none goes before it. -/
def State.mayStart (s : State) (b : Nat) (c : Slot) : Bool := s.ready b c && !s.outranked b c

/-- A held command of the control queue may start. -/
def State.mayStartControl (s : State) (c : Slot) : Bool :=
  !isBinding c.instr ||
    !s.cmds.any (fun d => d.hdr.org == .control && isBinding d.instr && decide (d.adm < c.adm) && !d.finished?)

/-- Why a command ends at dispatch, in the order of R176: MACHINE_CHECK for a FAILED cluster, ABORTED for a counter with
ERR, REBOUND for a cluster no longer bound (R162, R213, R341). -/
def State.atDispatch (s : State) (b : Nat) (c : Slot) : Option Status :=
  if s.lfailed.any (fun lc => (named c.instr).getLsbD lc) then some .machineCheck
  else if c.errSample = some true then some .aborted
  else if (named c.instr &&& ~~~(s.bay b).bind.clusters) ≠ 0 then some .rebound
  else none

/-- An error on the way of a bay's command (Table 14.2): replays and retries are counted against the bay (R26, R436), a
correction for its unit's summary, and a double-bit error on the control network is class 5 (R337). -/
def State.meetPath (s : State) (b : Nat) : PathFault → State
  | .bridge _ n => s.countBay b 2 n
  | .hostLink n => s.countBay b 3 n
  | .icache cluster core => s.countMinor 3 cluster core
  | .mesh stop => s.countMinor 6 stop 0
  | .control stop => s.countMinor 6 stop 1
  | .controlDouble _ => s.goFatal 6
  | .sramBit cluster bank => s.countMinor 4 cluster bank
  | .localBit cluster core => s.countMinor 3 cluster core

/-- The planned path errors of a bay met (log 8). -/
def State.meetPaths (s : State) (b : Nat) : State :=
  let hit := s.faults.path.filter (fun x => x.1 == b)
  let s := { s with faults := { s.faults with path := s.faults.path.filter (fun x => x.1 != b) } }
  hit.foldl (fun s x => s.meetPath b x.2) s

/-- Commands after which a restore starts its two passes again (log 51). -/
def forgetsRestore : Instr → Bool
  | .ckptRestore _ _ _ _ => false
  | .ckptCut _ _ _ => true | .ckptDrain _ _ _ _ _ => true | .ckptRelease _ _ => true | .ckptVerify _ _ _ _ => true
  | .exportStream _ _ _ _ => true | .scarfJoin _ _ _ _ => true | .scarfLeave _ => true | .scarfEpochClose _ _ _ => true
  | .scarfCancel _ _ _ _ => true | .scarfCatchup _ _ => true
  | i => isTraining i

/-- The command starts: it is running, or it ends at once. -/
def State.start (s : State) (c : Slot) : State := match c.bay? with
  | none => s.setSlot c.adm (fun c => { c with phase := .running })
  | some b =>
    match s.atDispatch b c with
    | some st => s.fail c.adm st
    | none =>
      let s := if forgetsRestore c.instr then s.setCkpt b (fun k => { k with lastRestore := none }) else s
      let s := s.lateReads b ((s.footprint b c.instr).1.map (fun r => ((s.bay b).footAddr r.1, r.2)))
      (s.setSlot c.adm (fun c => { c with phase := .running })).meetPaths b

/-- COMMAND_DISPATCH of an admitted command, when it may start. -/
def execCommandDispatch (adm : Nat) (s : State) : Host.Outcome State Fault Refusal :=
  .next (match s.slot? adm with
  | none => s
  | some c =>
    if !s.up ∨ c.phase ≠ .held then s
    else match c.bay? with
      | some b => if s.mayStart b c then s.start c else s
      | none => if s.mayStartControl c then s.start c else s)

/-! ### COMPLETION_POST (R146, R147, R155, R156, R163) -/

/-- A completion entry (Table 6.3). -/
def completionBytes (result : W64) (tag : W32) (st : Status) (phase : Bool) (sqid head : Nat) : List Byte :=
  toLe 8 result.toNat ++ toLe 4 tag.toNat ++ toLe 2 st.code ++ toLe 2 (bit phase 0 + 2 * sqid + head / 16 * 16)

/-- The completion queue that a command reports to (R151). -/
def State.reportsTo (s : State) (c : Slot) : CqRef := match c.hdr.org with
  | .bay b q => .bay b (nth (s.bay b).sqs q).cq
  | .control => .control
  | .urgent => .urgent

def Slot.order? (c : Slot) : Option Nat := match c.phase with
  | .finished _ _ n => some n
  | _ => none

/-- The completion is held until the bay is HALTED (R196). -/
def State.heldPost (s : State) (c : Slot) : Bool := match c.bay?, c.order? with
  | some b, some n => (match (s.bay b).flow.heldFrom with | some k => decide (k ≤ n) | none => false)
  | _, _ => false

/-- The finished command whose entry a completion queue takes next: the first in the order of completion (R155). -/
def State.nextPost (s : State) (r : CqRef) : Option Slot :=
  let xs := s.cmds.filter (fun c => c.finished? && !c.postsNothing && s.reportsTo c == r)
  let first := xs.foldl (fun (m : Option Slot) c => match m with
    | none => some c
    | some d => if c.order?.getD 0 < d.order?.getD 0 then some c else some d) none
  match first with
  | some c => if s.heldPost c then none else some c
  | none => none

/-- A ring of 2^log2 entries is full (R149). -/
def ringFull (log2 head tail : Nat) : Bool := ringNext log2 tail == head

/-- The ring after one entry, with the interrupt's count: whether the vector is raised (R147, R156). -/
def CompQ.after (q : CompQ) (now : Nat) : CompQ × Bool :=
  let t := ringNext q.log2 q.tail
  let q := { q with tail := t, phase := if t = 0 then !q.phase else q.phase, posted := q.posted + 1, firstAt := some (q.firstAt.getD now) }
  if q.coalCount ≠ 0 ∧ (q.coalTime = 0 ∨ q.coalCount ≤ q.posted) then ({ q with posted := 0, firstAt := none }, true)
  else (q, false)

/-- The slot is released, and what waited for its queue goes on (R157, R158, R428). -/
def State.release (s : State) (c : Slot) : State := (s.dropSlot c.adm).settle c.hdr.org

/-- The entry's bytes for a slot. -/
def Slot.entry (c : Slot) (phase : Bool) (sqid head : Nat) : List Byte := match c.phase with
  | .finished st r _ => completionBytes r c.hdr.tag st phase sqid head
  | _ => []

/-- A completion written to a bay's queue. -/
def State.postBay (s : State) (b k : Nat) (c : Slot) : State :=
  let q := nth (s.bay b).cqs k
  if !q.live ∨ ringFull q.log2 q.head q.tail then s
  else
    let sq := match c.hdr.org with
      | .bay _ i => i
      | _ => 0
    let s := s.writeBay b (q.base + 16 * q.tail) (c.entry q.phase sq (nth (s.bay b).sqs sq).head)
    let r := q.after s.now
    let s := s.setCq b k (fun _ => r.1)
    (if r.2 then s.bayIrq b q.vector else s).release c

/-- A write to the physical function's host memory; one that the host refuses is lost. -/
def State.writeHost0 (s : State) (a : Nat) (bs : List Byte) : State :=
  if s.hostOk 0 a bs.length then s.writeLoc (hostLoc 0 a) bs else s

/-- A completion written to the control ring. -/
def State.postControl (s : State) (c : Slot) : State :=
  let q := s.ctl.cq
  if !q.live ∨ ringFull q.log2 q.head q.tail then s
  else
    let s := s.writeHost0 (q.base + 16 * q.tail) (c.entry q.phase 0 s.ctl.sq.head)
    let r := q.after s.now
    let s := { s with ctl := { s.ctl with cq := r.1 } }
    (if r.2 then s.emit (.irq .pf q.vector) else s).release c

/-- A completion written to the urgent ring, which raises its vector every time (Table 18.3). -/
def State.postUrgent (s : State) (c : Slot) : State :=
  let u := s.urg
  let n := u.cqLog2.toNat
  if ringFull n u.cqHead u.cqTail then s
  else
    let s := s.writeHost0 (u.cqBase.toNat + 16 * u.cqTail) (c.entry u.phase 0 u.head)
    let t := ringNext n u.cqTail
    let s := { s with urg := { s.urg with cqTail := t, phase := if t = 0 then !u.phase else u.phase } }
    (s.emit (.irq .pf u.vector.toNat)).release c

/-- COMPLETION_POST: the next entry of a completion queue, if it has one and its ring has room (R155). -/
def execCompletionPost (cq : CqRef) (s : State) : Host.Outcome State Fault Refusal :=
  .next (if s.dev.hold ≠ 0 then s else match s.nextPost cq, cq with
  | none, _ => s
  | some c, .bay b k => s.postBay b k c
  | some c, .control => s.postControl c
  | some c, .urgent => s.postUrgent c)

/-! ### COALESCE_TIMER (R156) -/

/-- COAL_TIME has passed since the first entry after the last interrupt. -/
def CompQ.due (q : CompQ) (now : Nat) : Bool := q.live && q.coalCount != 0 && (match q.firstAt with
  | some t => decide (t + q.coalTime * 1000 ≤ now)
  | none => false)

def CompQ.rested (q : CompQ) : CompQ := { q with posted := 0, firstAt := none }

/-- COALESCE_TIMER: the vector of a queue whose time has run out. -/
def execCoalesceTimer (cq : CqRef) (s : State) : Host.Outcome State Fault Refusal :=
  .next (match cq with
  | .bay b k =>
    let q := nth (s.bay b).cqs k
    if q.due s.now then (s.setCq b k CompQ.rested).bayIrq b q.vector else s
  | .control =>
    let q := s.ctl.cq
    if q.due s.now then ({ s with ctl := { s.ctl with cq := q.rested } }).emit (.irq .pf q.vector) else s
  | .urgent => s)

/-! ### URGENT_DOORBELL_SAMPLE (R163, R428) -/

/-- The bay that an urgent opcode names. -/
def urgentBay : Instr → Nat
  | .haltBay _ bay => bay
  | .evictBay _ bay _ => bay
  | .resumeBay _ bay => bay
  | _ => 16

/-- What an urgent opcode's decoding fixes (R194, R221): the state of its bay, kept in `work`; a reset that is QUIESCING
leaves the bay HALTED after a HALT_BAY or an EVICT_BAY. -/
def State.noteUrgent (s : State) (c : Slot) : State :=
  let b := urgentBay c.instr
  if 15 < b then s
  else
    let y := s.bay b
    let stays : Bool := y.st == .quiescing && y.flow.reset.isSome && (match c.instr with
      | .resumeBay _ _ => false
      | _ => true)
    let s := if stays then s.setFlow b (fun f => { f with stay := true }) else s
    s.setSlot c.adm (fun c => { c with work := y.st.code })

/-- A HALT_BAY of a bay QUIESCING or HALTED sends no broadcast and does not hold the queue (R163). -/
def State.holdsUrgent (s : State) (c : Slot) : Bool := match c.instr with
  | .haltBay _ bay => !(decide (bay < 16) && ((s.bay bay).st == .quiescing || (s.bay bay).st == .halted))
  | _ => true

/-- The entry at the urgent ring's head is decoded. One that passes its checks runs and holds the queue; one that fails
completes at once. -/
def State.decodeUrgent (s : State) : State :=
  let u := s.urg
  if u.holding.isSome ∨ u.head = u.sampled then s
  else
    let e := Mem.read s.urgRing (64 * u.head) 64
    let adm := s.nextAdm
    let s := ({ s with urg := { u with head := (u.head + 1) % 64 } }).admitEntry .urgent e .running
    match s.slot? adm with
    | some c =>
      if c.phase = .running then
        let t := s.noteUrgent c
        if s.holdsUrgent c then { t with urg := { t.urg with holding := some adm } } else t
      else s
    | none => s

/-- URGENT_DOORBELL_SAMPLE: the tail is taken, and the next entry is decoded when none holds the queue. With URG_EN clear
nothing is sampled or decoded, and the entries that an earlier sample took wait for the first sample after it is set again
(log 16). -/
def execUrgentDoorbellSample (s : State) : Host.Outcome State Fault Refusal :=
  .next (if !s.up ∨ !s.urg.en then s
  else ({ s with urg := { s.urg with sampled := s.urg.tailReg } }).decodeUrgent)

end Sys2Proof.Machine
end

