-- ==== Sys2Proof/Machine/Doorbells.lean ====
section
/-!
DEFINITION. Doorbells, event-counter and mask writes, the queue pairs, the apertures and the core and cluster resets
(R107, R152, R219, R379, R425 to R433): the commands of chapter 18 that a host write brings.
-/
namespace Sys2Proof.Machine

/-! ### Host memory written before a doorbell (log 5) -/

/-- Bytes that software put in its own memory before the write that publishes them. -/
def State.hostWrites (s : State) (r : Nat) (ws : List HostWrite) : State :=
  ws.foldl (fun s w => s.writeLoc (hostLoc r w.iova) w.data) s

/-! ### Bay doorbells (R152, R433) -/

/-- A doorbell value that a ring of 2^log2 entries takes: no bit above [15:0] and an index below n. -/
def indexOk (log2 : Nat) (v : W32) : Bool := decide (v.toNat < 65536) && decide (v.toNat < 2 ^ log2)

/-- A submission doorbell of a bay. -/
def State.ringSq (s : State) (b q : Nat) (v : W32) : State :=
  let x := nth (s.bay b).sqs q
  if x.live && decide (q < 8) && indexOk x.log2 v then s.setSq b q (fun x => { x with tail := v.toNat })
  else s.bayDoorbellErr b

/-- A completion doorbell of a bay. -/
def State.ringCq (s : State) (b q : Nat) (v : W32) : State :=
  let x := nth (s.bay b).cqs q
  if x.live && decide (q < 8) && indexOk x.log2 v then s.setCq b q (fun x => { x with head := v.toNat })
  else s.bayDoorbellErr b

/-- SUBMISSION_DOORBELL: new entries, or a dropped write with DOORBELL_ERR. -/
def execSubmissionDoorbell (bay q : Nat) (value : W32) (written : List HostWrite) (s : State) :
    Host.Outcome State Fault Refusal :=
  .next (if !s.hostUp then s else (s.hostWrites (rid bay) written).ringSq bay q value)

/-- COMPLETION_DOORBELL: the entries that software has consumed are free. -/
def execCompletionDoorbell (bay q : Nat) (value : W32) (s : State) : Host.Outcome State Fault Refusal :=
  .next (if !s.hostUp then s else s.ringCq bay q value)

/-! ### Control and urgent doorbells (R427, R428, R433) -/

/-- DB_ERR of the control pair. -/
def State.ctlDbErr (s : State) : State := { s with ctl := { s.ctl with dbErr := true } }

def State.ringCtlSq (s : State) (v : W32) : State :=
  if s.ctl.live && indexOk s.ctl.sq.log2 v then
    { s with ctl := { s.ctl with sq := { s.ctl.sq with tail := v.toNat } } }
  else s.ctlDbErr

def State.ringCtlCq (s : State) (v : W32) : State :=
  if s.ctl.live && indexOk s.ctl.cq.log2 v then
    { s with ctl := { s.ctl with cq := { s.ctl.cq with head := v.toNat } } }
  else s.ctlDbErr

/-- The urgent tail is kept until it is sampled. -/
def State.ringUrgSq (s : State) (v : W32) : State :=
  { s with urg := if v.toNat < 64 then { s.urg with tailReg := v.toNat } else { s.urg with dbErr := true } }

def State.ringUrgCq (s : State) (v : W32) : State :=
  { s with urg := if v.toNat < 4096 ∧ v.toNat < 2 ^ s.urg.cqLog2.toNat then { s.urg with cqHead := v.toNat }
    else { s.urg with dbErr := true } }

/-- CTL_SQ_TAIL. -/
def execCtlSqTail (value : W32) (written : List HostWrite) (s : State) : Host.Outcome State Fault Refusal :=
  .next (if !s.hostUp then s else (s.hostWrites 0 written).ringCtlSq value)

/-- CTL_CQ_HEAD. -/
def execCtlCqHead (value : W32) (s : State) : Host.Outcome State Fault Refusal :=
  .next (if !s.hostUp then s else s.ringCtlCq value)

/-- URG_SQ_TAIL. -/
def execUrgSqTail (value : W32) (s : State) : Host.Outcome State Fault Refusal :=
  .next (if !s.hostUp then s else s.ringUrgSq value)

/-- URG_CQ_HEAD. -/
def execUrgCqHead (value : W32) (s : State) : Host.Outcome State Fault Refusal :=
  .next (if !s.hostUp then s else s.ringUrgCq value)

/-! ### Event counters and masks (R425, R431, R432) -/

/-- A counter after a write of one of its widths. -/
def Counter.write (k : Counter) : CtrWrite → Counter
  | .full v => ⟨v.setWidth 32, k.err && !v.getLsbD 32⟩
  | .low v => { k with value := v }
  | .high v => { k with err := k.err && !v.getLsbD 0 }

/-- EVENT_COUNTER_WRITE: the commands and descriptors that wait on the counter are tested again. -/
def execEventCounterWrite (bay ctr : Nat) (w : CtrWrite) (s : State) : Host.Outcome State Fault Refusal :=
  .next (if !s.hostUp then s else (s.setCounter bay ctr (fun k => k.write w)).recheck bay ctr)

/-- INT_MASK: the vector is raised when a bit is set whose cause is set already. -/
def State.writeIntMask (s : State) (v : W32) : State :=
  let new := v.setWidth 8
  let hit := new &&& ~~~s.dev.intMask &&& s.dev.intCause
  let s := { s with dev := { s.dev with intMask := new } }
  if hit ≠ 0 then s.emit (.irq .pf s.dev.devVector.toNat) else s

/-- INT_MASK_WRITE. -/
def execIntMaskWrite (value : W32) (s : State) : Host.Outcome State Fault Refusal :=
  .next (if !s.hostUp then s else s.writeIntMask value)

/-- EVENT_MASK and EVENT_VECTOR of a bay, under the same rule. -/
def State.writeEventMask (s : State) (b : Nat) (v : W32) : State :=
  let r := (s.bay b).regs
  let new := v.setWidth 6
  let hit := new &&& ~~~r.eventMask &&& r.event
  let vec := (v >>> 16).setWidth 7
  let s := s.setBay b (fun y => { y with regs := { y.regs with eventMask := new, eventVector := vec } })
  if hit ≠ 0 then s.bayIrq b vec.toNat else s

/-- EVENT_MASK_WRITE. -/
def execEventMaskWrite (bay : Nat) (value : W32) (s : State) : Host.Outcome State Fault Refusal :=
  .next (if !s.hostUp then s else s.writeEventMask bay value)

/-! ### Queue pairs (R428) -/

/-- A base of R149 and a size of it. -/
def ringBaseOk (base : W64) (log2 : Nat) : Bool := base.toNat % 4096 == 0 && decide (6 ≤ log2) && decide (log2 ≤ 16)

/-- The control pair's checks: its rings are host memory of the physical function. -/
def Ctl.pairOk (c : Ctl) : Bool := ringBaseOk c.sqBase c.sqLog2.toNat && ringBaseOk c.cqBase c.cqLog2.toNat

/-- A write of 1 to the control pair's EN. -/
def State.enableControl (s : State) : State :=
  let c := s.ctl
  if c.live ∨ !c.pairOk then { s with ctl := { c with err := true } }
  else
    { s with ctl := { c with
      en := true
      live := true
      sq := ⟨true, c.sqBase.toNat, c.sqLog2.toNat, 0, 16, 0, 0, none⟩
      cq := ⟨true, c.cqBase.toNat, c.cqLog2.toNat, c.cqVector.toNat, c.coalCount.toNat, c.coalTime.toNat, 0, 0, true, 0, none⟩ } }

/-- The word at 0x1014: EN, the error bits and COAL_TIME. -/
def State.writeCtlWord (s : State) (v : W32) : State :=
  let coal : BitVec 10 := (v >>> 16).setWidth 10
  if s.ctl.en ∧ coal ≠ s.ctl.coalTime then { s with ctl := { s.ctl with err := true } }
  else
    let s := { s with ctl := { s.ctl with
      err := s.ctl.err && !v.getLsbD 2
      dbErr := s.ctl.dbErr && !v.getLsbD 3
      coalTime := coal } }
    if v.getLsbD 0 then (if s.ctl.en then s else s.enableControl)
    else if s.ctl.en then ({ s with ctl := { s.ctl with en := false } }).settleControl
    else s

/-- CONTROL_PAIR_ENABLE: the write of EN = 1. -/
def execControlPairEnable (value : W32) (s : State) : Host.Outcome State Fault Refusal :=
  .next (if !s.hostUp then s else s.writeCtlWord (value ||| 1))

/-- CONTROL_PAIR_DISABLE: the write of EN = 0. -/
def execControlPairDisable (value : W32) (s : State) : Host.Outcome State Fault Refusal :=
  .next (if !s.hostUp then s else s.writeCtlWord (value &&& ~~~1))

def State.setRegs (s : State) (b : Nat) (f : BayRegs → BayRegs) : State :=
  s.setBay b (fun y => { y with regs := f y.regs })

/-- The admin pair's checks: its rings lie where R149 allows, its vector is the function's. -/
def State.adminOk (s : State) (b : Nat) : Bool :=
  let r := (s.bay b).regs
  ringBaseOk r.asqBase r.asqLog2.toNat && ringBaseOk r.acqBase r.acqLog2.toNat && decide (r.acqVector.toNat < 120) &&
    s.ringOk b r.asqBase.toNat (64 * 2 ^ r.asqLog2.toNat) && s.ringOk b r.acqBase.toNat (16 * 2 ^ r.acqLog2.toNat)

/-- A write of 1 to a bay's EN: queue pair 0 has WEIGHT 16 (R151). -/
def State.enableAdmin (s : State) (b : Nat) : State :=
  let r := (s.bay b).regs
  if r.live ∨ !s.adminOk b then s.setRegs b (fun r => { r with aqErr := true })
  else
    let s := s.setRegs b (fun r => { r with en := true, live := true })
    let s := s.setSq b 0 (fun _ => ⟨true, r.asqBase.toNat, r.asqLog2.toNat, 0, 16, 0, 0, none⟩)
    s.setCq b 0 (fun _ => ⟨true, r.acqBase.toNat, r.acqLog2.toNat, r.acqVector.toNat, r.acqCoalCount.toNat,
      r.acqCoalTime.toNat, 0, 0, true, 0, none⟩)

/-- Some queue 1 to 7 reports to completion queue 0. -/
def Bay.adminReports (y : Bay) : Bool := (y.sqs.drop 1).any (fun q => q.live && q.cq == 0)

/-- The word at 0x034 of a bay window (BAY_AQ_CTRL). -/
def State.writeAdminWord (s : State) (b : Nat) (v : W32) : State :=
  let r := (s.bay b).regs
  let coal : BitVec 10 := (v >>> 16).setWidth 10
  if r.en ∧ coal ≠ r.acqCoalTime then s.setRegs b (fun r => { r with aqErr := true })
  else
    let s := s.setRegs b (fun r => { r with aqErr := r.aqErr && !v.getLsbD 2, acqCoalTime := coal })
    if v.getLsbD 0 then (if r.en then s else s.enableAdmin b)
    else if r.en then
      if (s.bay b).adminReports then s.setRegs b (fun r => { r with aqErr := true })
      else (s.setRegs b (fun r => { r with en := false })).settleAdmin b
    else s

/-- ADMIN_PAIR_ENABLE: the write of EN = 1. -/
def execAdminPairEnable (bay : Nat) (value : W32) (s : State) : Host.Outcome State Fault Refusal :=
  .next (if !s.hostUp then s else s.writeAdminWord bay (value ||| 1))

/-- ADMIN_PAIR_DISABLE: the write of EN = 0. -/
def execAdminPairDisable (bay : Nat) (value : W32) (s : State) : Host.Outcome State Fault Refusal :=
  .next (if !s.hostUp then s else s.writeAdminWord bay (value &&& ~~~1))

/-- Urgent entries decoded whose completion is not posted. -/
def State.urgOpen (s : State) : Bool := s.cmds.any (fun c => c.hdr.org == .urgent)

/-- The word at 0x1048: URG_CQ_LOG2, URG_VECTOR, URG_DB_ERR and URG_EN. -/
def State.writeUrgWord (s : State) (v : W32) : State :=
  let u := s.urg
  let log2 : BitVec 4 := v.setWidth 4
  let en := v.getLsbD 31
  let moved := decide (log2 ≠ u.cqLog2) && (u.en || s.urgOpen)
  let bad := en && !u.en && (u.cqBase.toNat % 4096 != 0 || decide (log2.toNat < 6) || decide (12 < log2.toNat) || s.urgOpen)
  if moved ∨ bad then s.devCause 7
  else
    let u := { u with cqLog2 := log2, vector := (v >>> 16).setWidth 7, dbErr := u.dbErr && !v.getLsbD 29, en := en }
    { s with urg := if en && !s.urg.en then { u with cqTail := 0, cqHead := 0, phase := true } else u }

/-- URGENT_QUEUE_ENABLE: the write of URG_EN = 1. -/
def execUrgentQueueEnable (value : W32) (s : State) : Host.Outcome State Fault Refusal :=
  .next (if !s.hostUp then s else s.writeUrgWord (value ||| 0x80000000))

/-- URGENT_QUEUE_DISABLE: the write of URG_EN = 0. -/
def execUrgentQueueDisable (value : W32) (s : State) : Host.Outcome State Fault Refusal :=
  .next (if !s.hostUp then s else s.writeUrgWord (value &&& 0x7FFFFFFF))

/-! ### Apertures (R379) -/

/-- The bay address behind an aperture offset (Table 16.2). -/
def apertureAddr (offset : Nat) : Nat := 0x40000000 + offset

def inAperture (offset n : Nat) : Bool := decide (offset + n ≤ 2 ^ 36)

/-- APERTURE_READ: the data, or Completer Abort; a poisoned line is logged. -/
def execApertureRead (bay offset length : Nat) (s : State) : Host.Outcome State Fault Refusal :=
  let a := apertureAddr offset
  .next (if !s.hostUp then s
  else if (s.bay bay).st = .unbound ∨ !inAperture offset length ∨ !s.rangeOk bay .rd a length then
    s.emit (.apertureData bay offset none)
  else if s.rangeBad bay .rd a length then (s.logBadReads bay .rd 0 [(a, length)]).emit (.apertureData bay offset none)
  else (s.lateReads bay [(a, length)]).emit (.apertureData bay offset (some (s.readBay bay a length))))

/-- APERTURE_WRITE: performed, or dropped and counted in APERTURE_DROP; in UNBOUND it is dropped. -/
def execApertureWrite (bay offset : Nat) (data : List Byte) (s : State) : Host.Outcome State Fault Refusal :=
  let a := apertureAddr offset
  .next (if !s.hostUp ∨ (s.bay bay).st = .unbound then s
  else if !inAperture offset data.length ∨ !s.rangeOk bay .wr a data.length ∨ s.rangeSkips bay .wr a data.length then
    s.countBay bay 8 1
  else s.writeBay bay a data)

/-! ### Core and cluster resets (R107, R219, R426) -/

/-- The current descriptor of a channel finishes (R107). -/
def State.finishDma (s : State) (c : CoreRef) (chan : Nat) : State := match execDmaDescriptorDone c chan s with
  | .next t => t
  | _ => s

/-- A core is cleared: registers and local memory. -/
def State.clearCore (s : State) (key : Nat) : State :=
  ({ s with cores := s.cores.filter (fun c => c.1 != key) }).clearLoc ⟨.local_, key * 2 ^ 18⟩ (2 ^ 18)

/-- A reset of one core: its channels finish their current descriptors, its launch ends ABORTED with cause 0xFFFD. -/
def State.resetCore (s : State) (c : CoreRef) (key : Nat) : State :=
  let s := (s.finishDma c 0).finishDma c 1
  let s := match (s.core key).launch with
    | some adm => s.failLaunch adm key .aborted 0xFFFD (s.core key).pc
    | none => s
  (s.clearCore key).devCause 6

/-- REJECTED (R426). -/
def State.rejectReset (s : State) : State := { s with dev := { s.dev with rejected := true } }

/-- A reset write is refused: one is in progress, or the cluster is not presented or FAILED. -/
def State.resetRefused (s : State) (lc : Nat) : Bool :=
  !s.dev.clusterBusy.isEmpty || decide (s.lclusters ≤ lc) || s.lfailed.contains lc

/-- CORE_RESET: the register at 0x080. -/
def execCoreReset (value : W32) (s : State) : Host.Outcome State Fault Refusal :=
  let c : CoreRef := ⟨value.toNat % 32, value.toNat / 256 % 16⟩
  .next (if !s.hostUp then s
  else match s.coreKey c with
    | some key =>
      if s.resetRefused c.lc ∨ !((nth s.clusters (key / 10)).good.contains c.core) then s.rejectReset else s.resetCore c key
    | none => s.rejectReset)

/-- A command whose engines, cores or update unit are in the cluster (R233). -/
def State.inCluster (s : State) (lc : Nat) (c : Slot) : Bool :=
  let updates := match c.bay? with
    | some b => (match (s.bay b).train.map with
      | some p => p.updateMask.getLsbD lc
      | none => false)
    | none => false
  match c.instr with
  | .matmul _ m => m.mask.getLsbD lc
  | .kernelLaunch _ k => k.mask.getLsbD lc
  | .stepUpdate _ _ _ _ _ => updates
  | .updateArm _ _ _ _ _ => updates
  | _ => false

/-- A command of the bay that the reset cluster stops: a launch with cause 0xFFFE, any other with its work so far. -/
def State.stopInCluster (lc : Nat) (s : State) (c : Slot) : State := match c.bay?, c.instr, c.phase with
  | some _, .kernelLaunch _ _, .active =>
    let key := ((s.coresOf c.adm).filter (fun k => s.phys lc == some (k / 10))).foldl min 1000
    s.failLaunch c.adm key .aborted 0xFFFE (s.core key).pc
  | some b, _, _ => s.cutShort b .aborted c.adm
  | none, _, _ => s

/-- The keys of a cluster's cores. -/
def State.clusterKeys (s : State) (lc : Nat) : List Nat :=
  (s.cores.map (·.1)).filter (fun k => s.phys lc == some (k / 10))

/-- The cluster's bay. -/
def State.bayOf (s : State) (lc : Nat) : Option Nat := (List.range 16).find? (fun b => (s.bay b).bind.clusters.getLsbD lc)

/-- A cluster reset begins: its engines, cores and update unit stop, and the interface drains: the current descriptors of
its channels go on, those behind them go (R219, Table 8.5). -/
def State.beginClusterReset (s : State) (lc : Nat) : State :=
  let s := { s with dev := { s.dev with clusterBusy := s.dev.clusterBusy ++ [(lc, s.clock.uptime)] } }
  let s := (postOrder (s.cmds.filter (fun c => c.dispatched && s.inCluster lc c))).foldl (State.stopInCluster lc) s
  (s.clusterKeys lc).foldl State.dropQueued s

/-- CLUSTER_RESET: the register at 0x084, or the device's own request during recovery. -/
def execClusterReset (value : W32) (s : State) : Host.Outcome State Fault Refusal :=
  let lc := value.toNat % 32
  .next (if !s.hostUp then s
  else if s.resetRefused lc ∨ (s.phys lc).isNone then s.rejectReset
  else s.beginClusterReset lc)

/-- A dispatched command still waits on the cluster: its SRAM window is in the footprint. A launch that declares no ranges
is not known to. -/
def State.waitsOn (s : State) (lc : Nat) (c : Slot) : Bool := match c.bay? with
  | some b =>
    let f := s.footprint b c.instr
    c.dispatched && (s.bay b).bind.clusters.getLsbD lc &&
      (f.1 ++ f.2).any (fun r => decide (r.2 < 2 ^ 48) && meets ((s.bay b).footAddr r.1) r.2 (lc * 2 ^ 25) (2 ^ 25))
  | none => false

/-- A launch on other clusters of the bay that may hold an access to the cluster's SRAM when the drain ends (R168). -/
def State.mayWaitOn (s : State) (lc : Nat) (c : Slot) : Bool := match c.bay?, c.instr with
  | some b, .kernelLaunch _ _ => c.phase == Phase.active && (s.bay b).bind.clusters.getLsbD lc && !s.waitsOn lc c
  | _, _ => false

/-- What remains of the cluster's accesses is absorbed: the current descriptor of a channel leaves each line old or new; the
commands that wait on the cluster, launches among them as free values say (log 7), and the exchanges of its groups end
ABORTED; fired descriptors of its interface fail. -/
def State.absorbCluster (s : State) (lc : Nat) : State :=
  let s := (s.clusterKeys lc).foldl (fun (s : State) key => s.cutChannels key (fun _ => true)) s
  let maybe := s.cmds.filter (s.mayWaitOn lc)
  let open_ := maybe.zipIdx.filter (fun x => (Config.freeValue (s.free + x.2)).getLsbD 0)
  let late := postOrder (s.cmds.filter (s.waitsOn lc) ++ open_.map (·.1))
  let s := s.useFree maybe.length
  match s.bayOf lc with
  | none => s
  | some b =>
    let y := s.bay b
    let groups := ((late.filterMap (fun c => groupUse y.mapGroup c.instr)) ++
      (y.groups.filter (fun g => g.blk.mask.getLsbD lc && y.colls.any (fun c => c.group == g.id))).map (·.id)).eraseDups
    let s := groups.foldl (fun s g => (s.sendAbort b g).abortGroup b g) s
    let s := late.foldl (fun (s : State) c => match c.instr with
      | .kernelLaunch _ _ => let e := s.stopFields c (some 0xFFFE); e.1.finishNat c.adm .aborted e.2
      | _ => s.cutShort b .aborted c.adm) s
    let mine := fun (x : Xfer) => (x.trig.map (fun t => t.issuer == lc)).getD false
    let fired := ((s.bay b).xfers.filter mine).filterMap (·.trig)
    let s := s.setBay b (fun y => { y with xfers := y.xfers.filter (fun x => !mine x) })
    fired.foldl (fun s t => s.firedEnd b t true) s

/-- The cores of a cluster are cleared; its SRAM keeps its contents. -/
def State.clearCores (s : State) (p : Nat) : State :=
  ({ s with cores := s.cores.filter (fun c => c.1 / 10 != p) }).clearLoc ⟨.local_, p * 10 * 2 ^ 18⟩ (10 * 2 ^ 18)

/-- CLUSTER_RESET_ABSORB: the drain has ended, or its 100 us have passed and what remains is absorbed; the cores are
cleared and the cluster returns to service (R219). -/
def execClusterResetAbsorb (lc : Nat) (s : State) : Host.Outcome State Fault Refusal :=
  .next (match assoc s.dev.clusterBusy lc with
  | none => s
  | some since =>
    if s.clock.uptime < since + 100000 ∧ s.cmds.any (s.waitsOn lc) then s
    else
      let s := s.absorbCluster lc
      let s := match s.phys lc with
        | some p => s.clearCores p
        | none => s
      ({ s with dev := { s.dev with clusterBusy := assocDel s.dev.clusterBusy lc } }).devCause 6)

end Sys2Proof.Machine
end

