-- ==== Sys2Proof/Machine/Repair.lean ====
section
/-!
DEFINITION. Self-repair and ageing (chapter 14): retirements and substitutions (R88, R335, R340, R341), the seasoning
sample and the margin planner (R342 to R345), the history area (R346, R347), patrol scrub (R133) and refresh waits (R135).
-/
namespace Sys2Proof.Machine

/-! ### Idle points -/

/-- No command is in flight on a logical cluster: neither its engines, cores and reduction unit nor its SRAM (R30). -/
def State.clusterIdle (s : State) (lc : Nat) : Bool :=
  !s.cmds.any (fun c => c.dispatched && (s.inCluster lc c || s.waitsOn lc c)) &&
    (match s.bayOf lc with
    | some b =>
      let y := s.bay b
      !y.groups.any (fun g => g.blk.mask.getLsbD lc && y.colls.any (fun c => c.group == g.id)) &&
        !y.xfers.any (fun x => (x.trig.map (fun t => t.issuer == lc)).getD false)
    | none => true)

/-- The logical number of a physical cluster. -/
def State.lcOf (s : State) (p : Nat) : Option Nat := if s.lmap.contains (some p) then some (s.logicalOf p) else none

/-- A physical cluster is idle: nothing runs on the logical cluster it serves. -/
def State.physIdle (s : State) (p : Nat) : Bool := match s.lcOf p with
  | some lc => s.clusterIdle lc
  | none => true

/-- The bay bound to a physical cluster. -/
def State.bayOfPhys (s : State) (p : Nat) : Option Nat := (s.lcOf p).bind s.bayOf

/-- A predictive cut of the bay is still to be taken: its warning stands, or the cut is not yet HELD (R324, R340). -/
def Bay.cutComing (y : Bay) : Bool :=
  y.warned || (match y.ckpt.cut with
    | some c => c.predictive && (c.st == .pending || c.st == .copying)
    | none => false)

/-- A unit of a physical cluster may be retired now: an idle point, after the bay's predictive cut (R340). -/
def State.mayRetire (s : State) (p : Nat) : Bool :=
  s.up && s.physIdle p && (match s.bayOfPhys p with
    | some b => !(s.bay b).cutComing
    | none => true)

/-- A record in log 1 and, when a bay holds the unit, in that bay's event log (Table 14.3, class 3). -/
def State.logUnit (s : State) (b : Option Nat) (r : Rec) : State := match b with
  | some b => s.log12 b r
  | none => s.log1 r

/-! ### Units of a cluster -/

/-- CUBE_SUBSTITUTION: a failing cube gives way to a spare at the engine's idle point; with no spare free the engine is
fenced and the cluster's retirement requested (R88, R340). -/
def execCubeSubstitution (cluster engine cube : Nat) (s : State) : Host.Outcome State Fault Refusal :=
  let c := nth s.clusters cluster
  let unit : Rec := { Rec.blank with kind := 0, die := cluster / 17, unit := cluster, sub := engine * 256 + cube }
  .next (if !s.up ∨ !c.failing.contains (engine, cube) ∨ !s.physIdle cluster then s
  else match c.freeSpares engine with
    | k :: _ =>
      let s := s.setCluster cluster (fun c => c.substitute engine cube)
      let s := match s.bayOfPhys cluster with
        | some b => s.countBay b 4 64
        | none => s
      s.log1 { unit with code := 0x0111, cls := 3, bay := (s.bayOfPhys cluster).getD 0xFF, d0 := k, d1 := 64 }
    | [] =>
      let s := s.setCluster cluster (fun c => { c with
        fenced := c.fenced ++ [engine]
        failing := c.failing.filter (fun x => x != (engine, cube)) })
      (s.askRetire cluster).logUnit (s.bayOfPhys cluster)
        { unit with code := 0x0112, cls := 3, kind := 1, sub := engine })

/-- CORE_RETIREMENT: a core with two uncorrectable events since boot leaves GOOD_MASK once its launch has completed; with
fewer than eight good cores the cluster is retired (R340, Table 14.6). -/
def execCoreRetirement (cluster core : Nat) (s : State) : Host.Outcome State Fault Refusal :=
  let c := nth s.clusters cluster
  let busy := (s.core (cluster * 10 + core)).launch.isSome
  .next (if !s.mayRetire cluster ∨ busy ∨ !c.good.contains core ∨ (assoc c.coreUnc core).getD 0 < 2 then s
  else
    let s := s.setCluster cluster (fun c => { c with retiredCores := c.retiredCores ||| BitVec.ofNat 10 (2 ^ core) })
    let s := { s with flash := { s.flash with repairCores := s.flash.repairCores ++ [(cluster, core)] } }
    let s := s.logUnit (s.bayOfPhys cluster)
      { Rec.blank with code := 0x0120, cls := 3, kind := 3, die := cluster / 17, unit := cluster, sub := core }
    if (nth s.clusters cluster).good.length < 8 then s.askRetire cluster else s)

/-- BANK_RETIREMENT: a bank with two uncorrectable events leaves service at an idle point, the SRAM's contents moving to
the new in-service set; with fewer than 64 left the cluster is retired instead (R95, R340). What the copy costs the manual
leaves open (log 7). -/
def execBankRetirement (cluster bank : Nat) (s : State) : Host.Outcome State Fault Refusal :=
  let c := nth s.clusters cluster
  .next (if !s.mayRetire cluster ∨ !c.goodBanks.getLsbD bank ∨ 67 < bank ∨ (assoc c.bankUnc bank).getD 0 < 2 then s
  else if (bitsSet c.goodBanks).length ≤ 64 then s.askRetire cluster
  else
    let s := s.setCluster cluster (fun c => { c with goodBanks := c.goodBanks &&& ~~~(BitVec.ofNat 68 (2 ^ bank)) })
    let s := { s with flash := { s.flash with repairBanks := s.flash.repairBanks ++ [(cluster, bank)] } }
    let cost := s.freeNow.toNat % 2 ^ 32
    let s := match s.bayOfPhys cluster with
      | some b => s.countBay b 4 cost
      | none => s
    (s.useFree 1).logUnit (s.bayOfPhys cluster) { Rec.blank with
      code := 0x0121, cls := 3, kind := 4, die := cluster / 17, unit := cluster, sub := bank, d1 := cost })

/-! ### Clusters (R30, R340, R341) -/

/-- A byte memory with `len` bytes moved from one place to another, both cleared first. -/
def Mem.move (m : Mem) (src dst len : Nat) : Mem :=
  (m.filter (fun c => decide (src ≤ c.1) && decide (c.1 < src + len))).foldl
    (fun (m : Mem) c => Mem.set m (c.1 - src + dst) c.2) (Mem.clear (Mem.clear m src len) dst len)

/-- Poison keys of a range moved with it. -/
def movePoison (ks : List Nat) (src dst lines : Nat) : List Nat :=
  (ks.filter (fun k => !(decide (dst ≤ k) && decide (k < dst + lines)))).map (fun k =>
    if src ≤ k ∧ k < src + lines then k - src + dst else k)

/-- A cluster's SRAM and the local memories of its cores moved to another (R30). -/
def State.moveCluster (s : State) (p q : Nat) : State :=
  let ps := movePoison s.poison (2 ^ 60 + p * 2 ^ 19) (2 ^ 60 + q * 2 ^ 19) (2 ^ 19)
  { s with
    sram := Mem.move s.sram (p * 2 ^ 25) (q * 2 ^ 25) (2 ^ 25)
    local_ := Mem.move s.local_ (p * 10 * 2 ^ 18) (q * 10 * 2 ^ 18) (10 * 2 ^ 18)
    poison := movePoison ps (2 ^ 61 + p * 10 * 2 ^ 12) (2 ^ 61 + q * 10 * 2 ^ 12) (10 * 2 ^ 12) }

/-- Spare clusters of a die: usable, not retired and unmapped, in ascending number (R29, R335). -/
def State.spares (s : State) (die : Nat) : List Nat :=
  (List.range' (die * 17) 17).filter (fun p =>
    (nth s.clusters p).usable && !(nth s.clusters p).retired && !s.lmap.contains (some p))

/-- The logical clusters of a die whose retirement waits for a spare, in the order in which they get one (R341). -/
def State.waiting (s : State) (die : Nat) : List Nat :=
  let ls := (List.range s.lmap.length).filter (fun lc => !s.lrisk.contains lc && !s.lfailed.contains lc &&
    (match s.phys lc with
    | some p => decide (p / 17 = die) && (nth s.clusters p).retiring
    | none => false))
  let at_ := fun (lc : Nat) => (nth s.clusters ((s.phys lc).getD 0)).askedAt
  sortBy (fun x y => decide (at_ x < at_ y) || (decide (at_ x = at_ y) && decide (x ≤ y))) ls

/-- A power domain of Table 1.12 switched; cluster `p` is domain `p`. -/
def State.setPower (s : State) (i : Nat) (on : Bool) : State := { s with power := updNth s.power i (fun _ => on) }

/-- The boot block of a core (Table 15.3). -/
def State.bootBlock (s : State) (p lc core : Nat) : List Byte :=
  let c := nth s.clusters p
  let body := toLe 1 p ++ toLe 1 core ++ toLe 1 (p / 17) ++ toLe 1 lc ++ toLe 2 (c.goodCores &&& ~~~c.retiredCores).toNat ++
    zeros 2 ++ toLe 16 c.bankMap ++ toLe 8 (nth s.boot.versions 1).toNat ++ zeros 28
  body ++ toLe 4 (crc32 body)

/-- A cluster's good cores receive the GCRT payload and their boot blocks (R358, R359). -/
def State.loadGcrt (s : State) (p lc : Nat) : State :=
  let cores := (nth s.clusters p).good
  { s with gcrt := cores.foldl (fun g k => assocSet g (p * 10 + k) (s.bootBlock p lc k)) s.gcrt }

/-- Core cycles of the copy of 36,175,872 bytes at 819.2 GB/s (R340). -/
def copyCycles : Nat := 70656

/-- The logical cluster moves to a spare: contents, map, power, GCRT and the repair record. -/
def State.moveLogical (s : State) (lc p q : Nat) : State :=
  let s := (s.setPower q true).setCluster q (fun c => { c with offsetMv := 0 })
  let s := (s.loadGcrt q lc).moveCluster p q
  let s := { s with
    lmap := updNth s.lmap lc (fun _ => some q)
    flash := { s.flash with repair := s.flash.repair ++ [p] }
    gcrt := s.gcrt.filter (fun g => g.1 / 10 != p)
    cores := s.cores.filter (fun c => c.1 / 10 != p) }
  let s := (s.setCluster p (fun c => { c with retired := true, retiring := false })).setPower p false
  let s := match s.bayOf lc with
    | some b => s.countBay b 4 copyCycles
    | none => s
  s.logUnit (s.bayOf lc) { Rec.blank with
    code := 0x0122, cls := 3, kind := 2, die := p / 17, unit := p, d0 := lc + q * 256
    d1 := if (s.bayOf lc).isSome then copyCycles else 0 }

/-- A cluster that needs a spare when its die has none is AT_RISK, its voltage held at the ceiling (R341). -/
def State.atRisk (s : State) (lc p : Nat) : State :=
  let s := { s with lrisk := s.lrisk ++ [lc] }
  let s := s.setCluster p (fun c => { c with offsetMv := 40, atCeiling := true })
  s.logUnit (s.bayOf lc) { Rec.blank with code := 0x0123, cls := 3, kind := 2, die := p / 17, unit := p, d0 := lc }

/-- CLUSTER_RETIREMENT: at an idle point the logical cluster moves to the lowest-numbered spare of its die; earlier
requests come first (R30, R340, R341). -/
def execClusterRetirement (lc : Nat) (s : State) : Host.Outcome State Fault Refusal :=
  .next (match s.phys lc with
  | none => s
  | some p =>
    let die := p / 17
    if !(s.waiting die).contains lc then s
    else match s.spares die with
      | [] => if s.up then s.atRisk lc p else s
      | q :: rest =>
        if (s.waiting die).findIdx (· == lc) ≤ rest.length ∧ s.mayRetire p then s.moveLogical lc p q else s)

/-! ### Failure warnings (R343) -/

/-- Bays that hold a unit of a seasoning record; a lane belongs to no bay. -/
def State.holders (s : State) (kind unit : Nat) : List Nat :=
  (List.range 16).filter (fun b =>
    let x := (s.bay b).bind
    match kind with
    | 2 => (match s.lcOf unit with
      | some lc => x.clusters.getLsbD lc
      | none => false)
    | 10 => x.granules.any (fun g => decide (g < 512) && decide (g / 256 = unit / 4))
    | 11 => x.granules.any (fun g => decide (2048 ≤ g) && decide (g < 4096))
    | 12 => x.granules.any (fun g => granuleLink g == some unit)
    | _ => false)

/-- The record of a unit: a lane's port and lane are UNIT and SUBUNIT (Table 14.9). -/
def unitRec (kind unit : Nat) : Rec :=
  if kind = 8 ∨ kind = 13 then { Rec.blank with kind := kind, die := seasonDie kind unit, unit := unit / 32, sub := unit % 32 }
  else { Rec.blank with kind := kind, die := seasonDie kind unit, unit := unit }

/-- A FAILURE_WARNING for the unit of a record: in log 1 and in the event log of each bay that holds the unit, whose
predictive cut it asks for (R324). -/
def State.warnUnit (s : State) (kind unit cause : Nat) : State :=
  let r : Rec := { unitRec kind unit with code := 0x0150, cls := 0, d0 := cause }
  (s.holders kind unit).foldl (fun (s : State) b => (s.setBay b (fun y => { y with warned := true })).log2 b r)
    (s.log1 { r with bay := (s.holders kind unit).headD 0xFF })

/-- Six hours in ns, the least time between two warnings of a unit. -/
def sixHours : Nat := 21600000000000

/-- Raises a warning on record `i`: at most one per 6 hours, but for a threshold crossed by an uncorrectable event. -/
def State.raiseWarning (s : State) (i cause : Nat) (exempt : Bool) : State :=
  let r := nth s.season.recs i
  let due : Bool := match r.lastWarn with
    | some t => decide (t + sixHours ≤ s.clock.uptime)
    | none => true
  if due || exempt then
    let s := { s with season := { s.season with
      recs := updNth s.season.recs i (fun r => { r with warned := true, lastWarn := some s.clock.uptime }) } }
    s.warnUnit r.kind r.unit cause
  else s

/-! ### The seasoning sample (R342 to R345) -/

/-- The required slack of a cluster: its guard band and, with history, the ageing allowance of 6 ps (R344). -/
def State.required (s : State) (p : Nat) : Nat := nth s.factory.guard p + (if s.season.noHistory then 0 else 6)

/-- A rising error trend of record `i` (R343), without rounding. -/
def State.rising (s : State) (i : Nat) : Bool :=
  let r := nth s.season.recs i
  let last := (r.corr.take 6).sum
  let base := if s.season.noHistory then nth s.factory.burnIn i else ((r.corr.drop 6).take 30).sum
  decide (64 ≤ last) && decide (4 * base ≤ 5 * last)

/-- A reading enters its record. -/
def State.sampleInto (s : State) (i : Nat) (x : SeasonReading) : State :=
  let need := match x.kind with
    | 2 => s.required x.unit
    | 8 => s.nv.laneWarn
    | 13 => s.nv.laneWarn
    | _ => 0
  { s with season := { s.season with recs := updNth s.season.recs i (fun r => { r with
    samples := r.samples + 1
    margin := if need = 0 ∧ x.kind ≠ 2 then 0 else x.slack
    required := need
    corr := (x.corrected :: r.corr).take 36
    uncorr := r.uncorr + x.uncorr }) } }

/-- A threshold of Table 14.6 is crossed: by corrected events, residue failures or an eye; by an uncorrectable event.
`before` is the record as the sample found it. -/
def State.crossed (s : State) (before : SeasonRec) (x : SeasonReading) : Bool × Bool :=
  let eye := decide (x.slack < s.nv.laneWarn) && decide (0 < before.samples) && decide (before.margin < s.nv.laneWarn)
  match x.kind with
  | 2 => (decide (s.nv.sramWarn ≤ x.corrected) || decide (4 ≤ x.residue), decide (1 ≤ x.uncorr))
  | 10 => (decide (s.nv.tier1Warn ≤ x.corrected), decide (1 ≤ x.uncorr))
  | 11 => (decide (s.nv.tier2Warn ≤ x.corrected), decide (1 ≤ x.uncorr))
  | 12 => (false, decide (1 ≤ x.uncorr))
  | _ => (eye, false)

/-- The margin planner on a physical cluster: one step of 5 mV, or the ceiling (R344, R345). -/
def State.planMargin (s : State) (i p slack : Nat) : State :=
  let c := nth s.clusters p
  let unit : Rec := unitRec 2 p
  if s.required p ≤ slack then s
  else if c.offsetMv + 5 ≤ 40 then
    (s.setCluster p (fun c => { c with offsetMv := c.offsetMv + 5 })).log1
      { unit with code := 0x0130, cls := 3, bay := (s.bayOfPhys p).getD 0xFF, d0 := c.offsetMv + 5 }
  else if c.atCeiling then s
  else
    let s := (s.setCluster p (fun c => { c with offsetMv := 40, atCeiling := true })).logUnit (s.bayOfPhys p)
      { unit with code := 0x0131, cls := 3 }
    (s.raiseWarning i 2 false).askRetire p

/-- An eye below 8 mV after re-equalisation: the lane gives way to the port's spare, when that is free (R251). -/
def State.swapLane (s : State) (before : SeasonRec) (x : SeasonReading) : State :=
  let p := s.port (x.unit / 32)
  if x.kind = 8 ∧ x.slack < 8 ∧ 0 < before.samples ∧ before.margin < s.nv.laneWarn ∧ p.state = 3 ∧ p.spared = none ∧
      !p.badLanes.contains 16 then
    s.laneLost (x.unit / 32) (x.unit % 32)
  else s

/-- One reading: its record, the summary of corrected events, warnings, the planner, the lane. -/
def State.takeReading (s : State) (x : SeasonReading) : State :=
  let i := s.season.recs.findIdx (fun r => r.kind == x.kind && r.unit == x.unit)
  if s.season.recs.length ≤ i then s
  else
    let before := nth s.season.recs i
    let s := s.sampleInto i x
    let s := if x.corrected = 0 then s else s.log1 { unitRec x.kind x.unit with code := 0x0001, cls := 0, d0 := x.corrected }
    let hit := s.crossed before x
    let s := if s.rising i then s.raiseWarning i 0 false else s
    let s := if hit.2 then s.raiseWarning i 1 true else if hit.1 then s.raiseWarning i 1 false else s
    let s := if x.kind = 2 then s.planMargin i x.unit x.slack else s
    let risk := x.kind == 2 && (match s.lcOf x.unit with
      | some lc => s.lrisk.contains lc
      | none => false)
    let s := if risk then s.raiseWarning i 2 false else s
    s.swapLane before x

/-- Ten minutes in ns. -/
def tenMinutes : Nat := 600000000000

/-- The summary records of what was corrected in place elsewhere in the interval (R337, class 0). -/
def State.logMinor (s : State) : State :=
  s.minor.foldl (fun (s : State) m => s.log1 { unitRec m.kind m.unit with code := 0x0001, cls := 0, sub := m.sub, d0 := m.count })
    { s with minor := [] }

/-- A core whose local memory had an uncorrectable error in the interval raises a warning, in its cluster's record (Table
14.6, log 68). -/
def State.warnCores (s : State) : State :=
  (s.season.coreHits.map (·.1)).foldl (fun (s : State) key =>
    s.raiseWarning (s.season.recs.findIdx (fun r => r.kind == 2 && r.unit == key / 10)) 1 true)
    { s with season := { s.season with coreHits := [] } }

/-- SEASONING_SAMPLE: every 10 minutes of powered operation each unit is sampled once. -/
def execSeasoningSample (readings : List SeasonReading) (s : State) : Host.Outcome State Fault Refusal :=
  .next (if !s.up ∨ s.clock.uptime < s.season.sampledAt + tenMinutes then s
  else
    let s := ((readings.foldl State.takeReading s).logMinor).warnCores
    { s with season := { s.season with tenths := s.season.tenths + 1, sampledAt := s.clock.uptime } })

/-! ### The history area (R346, R347) -/

/-- A copy of the history: header, then 282 entries of 176 bytes. -/
def State.historyBytes (s : State) (seq : Nat) : List Byte :=
  let body := ((List.range s.season.recs.length).map (fun i =>
    s.seasonRec i ++ padTo 144 (((nth s.season.recs i).corr.map (toLe 4)).flatten))).flatten
  let head := toLe 2 1 ++ zeros 2 ++ toLe 4 seq ++ toLe 4 body.length ++ zeros 4 ++ toLe 8 (s.season.tenths / 6) ++
    toLe 8 s.now ++ zeros 28
  head ++ toLe 4 (crc32 (head ++ body)) ++ body

/-- A copy whose CRC is valid, with its SEQ. -/
def historySeq (c : List Byte) : Option Nat :=
  let len := leAt c 8 4
  if c.length = 64 + len ∧ leAt c 0x3C 4 = crc32 (c.take 0x3C ++ c.drop 64) then some (leAt c 4 4) else none

/-- The governing copy is copy 0: valid, with the higher SEQ. -/
def Flash.hist0Governs (f : Flash) : Bool := match historySeq f.hist0, historySeq f.hist1 with
  | some a, some b => decide (b ≤ a)
  | some _, none => true
  | none, _ => false

/-- Writes a new history copy over the one that does not govern, with SEQ + 1. -/
def State.writeHistory (s : State) : State :=
  let seq := (s.season.seq + 1) % 2 ^ 32
  let c := s.historyBytes seq
  { s with
    flash := if s.flash.hist0Governs then { s.flash with hist1 := c } else { s.flash with hist0 := c }
    season := { s.season with seq := seq, siteTime := s.now, written := s.season.tenths } }

/-- HISTORY_WRITE: every 6 hours. -/
def execHistoryWrite (s : State) : Host.Outcome State Fault Refusal :=
  .next (if s.up ∧ s.season.written + 36 ≤ s.season.tenths then s.writeHistory else s)

/-- An event record in the flash's event area, which holds 1,024 (R347). -/
def State.logEvent (s : State) (r : Rec) : State :=
  if s.flash.events.length < 1024 then
    { s with flash := { s.flash with events := s.flash.events ++ [{ r with seq := s.flash.events.length, time := s.now }] } }
  else s

/-! ### Scrub and refresh -/

/-- PATROL_SCRUB: a line is read and written back as it stands; marks are neither raised nor cleared (R133, R339). -/
def execPatrolScrub (_line : Nat) (s : State) : Host.Outcome State Fault Refusal := .next s

/-- DRAM_REFRESH: an access of a bay that meets a bank under refresh waits, at most 190 ns in tier 1 and 410 ns in tier
2; the wait counts in REFRESH_STALL in core cycles (R135). -/
def execDramRefresh (bay : Nat) (tier2 : Bool) (stall : Nat) (s : State) : Host.Outcome State Fault Refusal :=
  .next (if s.up then s.countBay bay 0 (min stall (coreCycles (if tier2 then 410 else 190))) else s)

end Sys2Proof.Machine
end

