-- ==== Sys2Proof/Machine/Reset.lean ====
section
/-!
DEFINITION. Device resets and the start of a boot (R218, R351, R394, R401, R424): POWER_IN_RANGE, RESET_N, PCIE_PERST_N,
DEVICE_RESET, PF_FUNCTION_LEVEL_RESET and VF_FUNCTION_LEVEL_RESET.
-/
namespace Sys2Proof.Machine

/-! ### Flash selection (R362) -/

/-- The bank-select record that governs: the higher SEQ of the valid copies; bank A and none pending without one. -/
def Flash.select (f : Flash) : SelRec := match f.sel0, f.sel1 with
  | some a, some b => if b.seq ≤ a.seq then a else b
  | some a, none => a
  | none, some b => b
  | none, none => ⟨0, 0, none⟩

/-- Copy 0 governs. -/
def Flash.sel0Governs (f : Flash) : Bool := match f.sel0, f.sel1 with
  | some a, some b => decide (b.seq ≤ a.seq)
  | some _, none => true
  | none, _ => false

/-- The record updated in the copy that does not govern, with SEQ + 1. -/
def State.setSelect (s : State) (active : Nat) (pending : Option Nat) : State :=
  let r : SelRec := ⟨s.flash.select.seq + 1, active, pending⟩
  { s with
    flash := if s.flash.sel0Governs then { s.flash with sel1 := some r } else { s.flash with sel0 := some r }
    boot := { s.boot with selChanged := true } }

/-! ### The boot log (R375) -/

/-- A record of Table 15.10 in log 0. -/
def State.bootRec (s : State) (code d0 d1 : Nat) : State :=
  { s with bootLog := s.bootLog.add { Rec.blank with
      code := code, d0 := d0, d1 := d1
      time := if s.clock.locked then s.now else s.clock.uptime - s.boot.start } }

/-! ### Contents that a reset does not specify (R218) -/

/-- Every listed byte becomes a free one (log 7). -/
def freeMem (base : Nat) (m : Mem) : Mem :=
  (m.zipIdx.map (fun p => (p.1.1, (Config.freeValue (base + p.2)).setWidth 8))).filter (fun c => c.2 != 0)

/-- DRAM, cluster SRAM and local memories hold what they hold. -/
def State.loseMemory (s : State) : State :=
  let nd := s.dram.length
  let ns := s.sram.length
  { s with
    dram := freeMem s.free s.dram
    sram := freeMem (s.free + nd) s.sram
    local_ := freeMem (s.free + nd + ns) s.local_
    zeroMarks := []
    free := s.free + nd + ns + s.local_.length }

/-! ### Starting a boot -/

/-- DEV_READY falls (R394). -/
def State.dropReady (s : State) : State :=
  if s.dev.devReady then ({ s with dev := { s.dev with devReady := false } }).emit (.devReady false) else s

/-- The bank whose images a boot tries (R363). -/
def Flash.tried (f : Flash) : Nat := f.select.pending.getD f.select.active

/-- A boot begins: BOOT_START, and the stage is 1. -/
def State.startBoot (s : State) (warm : Bool) : State :=
  let s := { s with boot := { s.boot with
    start := s.clock.uptime, stageAt := s.clock.uptime, trial := s.flash.select.pending, bank := s.flash.tried } }
  s.bootRec 0x0200 (if warm then 1 else 0) s.flash.tried

/-- Everything but the flash is cleared (Table 8.5); the clusters are as manufactured. What stands outside the device, the
pins and the site stays. -/
def State.cleared (s : State) (hold : Nat) : State :=
  let s := (s.dropReady).loseMemory
  { State.reset with
    pending := s.pending, free := s.free, faults := s.faults, outs := s.outs, factory := s.factory, flash := s.flash,
    host := s.host, hostDeny := s.hostDeny, dram := s.dram, sram := s.sram, local_ := s.local_, sensors := s.sensors,
    vin := s.vin, iin := s.iin, pout := s.pout,
    dev := { Dev.reset with hold := hold, resetLow := s.dev.resetLow, perstLow := s.dev.perstLow } }

/-- A power domain of the always-on pair: 62 management, 63 security (Table 1.12). -/
def State.alwaysOn (s : State) : State := (s.setPower 62 true).setPower 63 true

/-- A cold boot begins, or the device waits for RESET_N to be released (R351, R401). -/
def State.coldBoot (s : State) : State :=
  if s.dev.resetLow then (s.cleared 2).alwaysOn else (((s.cleared 0).alwaysOn).startBoot false)

/-- POWER_IN_RANGE: the always-on domains are powered, and the cold boot may begin. -/
def execPowerInRange (s : State) : Host.Outcome State Fault Refusal :=
  .next (if s.dev.hold = 1 then s.coldBoot else s)

/-- RESET_N low for 1 us is a cold reset, and the boot begins at its release. Without power, and while the device is held
in test, only the ball changes (R389, R394). -/
def execResetN (low : Bool) (s : State) : Host.Outcome State Fault Refusal :=
  let t := { s with dev := { s.dev with resetLow := low } }
  .next (if s.dev.hold = 1 ∨ s.dev.hold = 3 then t
  else if low then t.coldBoot
  else if s.dev.resetLow ∧ s.dev.hold = 2 then t.coldBoot
  else t)

/-! ### Warm resets -/

/-- A cluster through a warm reset: the cores retired since the last boot are out of its good mask, and what has counted
since boot counts anew. -/
def Cluster.warm (c : Cluster) : Cluster :=
  { c with goodCores := c.goodCores &&& ~~~c.retiredCores, retiredCores := 0, coreUnc := [], bankUnc := [] }

/-- A port through a warm reset: what bring-up and lane repair left stays, the link layer starts anew. -/
def Port.warm (p : Port) : Port :=
  { Port.reset with
    disabled := p.disabled, noPartner := p.noPartner, powered := p.powered, lanes := p.lanes, badLanes := p.badLanes,
    spared := p.spared }

/-- A warm reset (R218, R353): every bay UNBOUND, every key slot erased, the binding table at version 0, registers at
their reset values; the logs in the device reserve, the stored training results and the history stay. -/
def State.warmReset (s : State) : State :=
  let s := (s.dropReady).loseMemory
  let t : State := { s with
    cmds := [], nextAdm := 0, nextFin := 0, joiner := State.reset.joiner, version := 0, peg := none,
    ctl := Ctl.reset, urg := Urg.reset, urgRing := [], msix := [],
    clock := { Clock.reset with uptime := s.clock.uptime }
    dev := { Dev.reset with
      hold := 0, resetLow := s.dev.resetLow, perstLow := s.dev.perstLow, condition := s.dev.condition
      thermtrip := s.dev.thermtrip }
    clusters := s.clusters.map Cluster.warm
    lmap := State.reset.lmap, lrisk := [], lfailed := [], cores := [], gcrt := []
    poison := s.poison.filter (fun k => decide (k < 2 ^ 60))
    ports := s.ports.map Port.warm
    far := s.far.map (fun (f : FarPort) => { FarPort.reset with mac := f.mac })
    devTele := State.reset.devTele, codecFenced := [], bootLog := State.reset.bootLog, trng := Trng.reset
    bays := s.bays.map (fun (y : Bay) => { Bay.reset with log := y.log, tele := y.tele, since := y.since })
    boot := { Boot.reset with
      warm := true, stored := s.boot.stored, prevReady := s.boot.ready, selChanged := s.boot.selChanged
      cached := s.boot.cached, payload := s.boot.payload, goldenLocked := s.boot.goldenLocked } }
  t.startBoot true

/-- DEVICE_RESET: the magic value starts a warm reset; during an orderly power-down it is ignored (R426). -/
def execDeviceReset (value : W32) (s : State) : Host.Outcome State Fault Refusal :=
  .next (if s.hostUp ∧ value = 0x57525354 ∧ !s.dev.poweringDown then s.warmReset else s)

/-- PF_FUNCTION_LEVEL_RESET acts as a warm reset. -/
def execPfFunctionLevelReset (s : State) : Host.Outcome State Fault Refusal :=
  .next (if s.hostUp ∧ !s.dev.poweringDown then s.warmReset else s)

/-- VF_FUNCTION_LEVEL_RESET acts as BAY_RESET with SCRUB clear. -/
def execVfFunctionLevelReset (bay : Nat) (s : State) : Host.Outcome State Fault Refusal :=
  .next (if s.hostUp ∧ bay < 16 then s.resetBay bay none false else s)

/-- PCIE_PERST_N: before READY it holds only the PCIe endpoint in reset; after READY its assertion begins a warm reset,
and its release lets link training start (R394). -/
def execPciePerstN (low : Bool) (s : State) : Host.Outcome State Fault Refusal :=
  let t := { s with dev := { s.dev with perstLow := low } }
  .next (if s.dev.hold ≠ 0 then t
  else if low then
    (if s.boot.ready ∧ !s.dev.perstLow then t.warmReset else { t with boot := { t.boot with linkUp := false } })
  else { t with boot := { t.boot with linkUp := t.boot.linkUp || decide (2 ≤ t.boot.stage) } })

end Sys2Proof.Machine
end

