-- ==== Sys2Proof/Machine/Images.lean ====
section
/-!
DEFINITION. Boot stages 1 and 2 and the firmware banks (R351 to R354, R360 to R368): BOOT_ROM_STAGE, IMAGE_SELECTION,
PENDING_BANK_TIMEOUT and PLDM_FIRMWARE_UPDATE.
-/
namespace Sys2Proof.Machine

/-! ### Stages -/

/-- The stage that is in progress. -/
def State.inStage (s : State) (n : Nat) : Bool :=
  s.dev.hold == 0 && s.boot.stage == n && !s.boot.ready && !s.boot.mgmtOnly

/-- A stage ends: STAGE_DONE, and the next begins; on the fast path BIST is skipped (Table 15.1). -/
def State.endStage (s : State) : State :=
  let n := s.boot.stage
  let s := s.bootRec 0x0201 n (s.clock.uptime - s.boot.stageAt)
  { s with boot := { s.boot with
    stage := if n = 5 ∧ s.boot.fastPath then 7 else n + 1, stageAt := s.clock.uptime } }

/-- The sequence stops in management-only mode (R354, R366). -/
def State.toMgmtOnly (s : State) : State :=
  ({ s with boot := { s.boot with mgmtOnly := true } }).bootRec 0x0207 s.boot.stage 0

/-- UNIT_FAILED of the boot log. -/
def State.unitFailed (s : State) (kind unit : Nat) : State := s.bootRec 0x020E kind unit

/-- BOOT_ROM_STAGE: stage 1, at whose end the golden bank is protected (R360). A self-test that fails leaves the device held
in reset without a PCIe link. -/
def execBootRomStage (selfTestOk : Bool) (s : State) : Host.Outcome State Fault Refusal :=
  .next (if !s.inStage 1 then s
  else if !selfTestOk then
    let s := (s.unitFailed 18 0).goFatal 18
    { s with dev := { s.dev with hold := 2 } }
  else
    let s := (s.setPower 61 true).setPower 52 true
    let s := { s with
      trng := Trng.reset
      boot := { s.boot with linkUp := !s.dev.perstLow, goldenLocked := true } }
    s.endStage)

/-! ### Images (Table 15.6, R364) -/

/-- Payload room of a slot (Table 15.5), the header's 256 bytes apart; 64 KiB for GCRT. -/
def slotRoom : Nat → Nat
  | 0 => 4 * 2 ^ 20 - 256 | 1 => 65536 | 2 => 2 * 2 ^ 20 - 256 | 3 => 4 * 2 ^ 20 - 256 | _ => 2 ^ 20 - 256

def imageVersion (i : List Byte) : Nat := leAt i 8 8

/-- The range that an image declares for a kind. -/
def imageRange (i : List Byte) (k : Nat) : Nat × Nat := (leAt i (0x18 + 16 * k) 8, leAt i (0x20 + 16 * k) 8)

/-- A version lies in the range that an image declares for a kind (R364). -/
def imageAdmits (i : List Byte) (k v : Nat) : Bool := decide ((imageRange i k).1 ≤ v) && decide (v ≤ (imageRange i k).2)

/-- Every field of Table 15.6 within its range. -/
def imageFields (kind : Nat) (i : List Byte) : Bool :=
  decide (256 ≤ i.length) && decide (leAt i 0 4 = 0x4D514649) && decide (leAt i 4 2 = 1) && decide (byteAt i 6 = kind) &&
    decide (byteAt i 7 ≤ 1) && decide (1 ≤ leAt i 0x10 4) && decide (leAt i 0x10 4 ≤ slotRoom kind) &&
    decide (256 + leAt i 0x10 4 ≤ i.length) && decide (imageRange i kind = (imageVersion i, imageVersion i)) &&
    zeroAt i 0x88 56

/-- Why an image does not verify: 0 a field, 1 a revoked key, 2 the signature, 3 the digest (R364, Table 15.10). -/
def State.imageFault (s : State) (kind : Nat) (i : List Byte) : Option Nat :=
  if !imageFields kind i then some 0
  else if s.factory.revoked.contains (byteAt i 7) then some 1
  else if !edVerify (nth s.factory.romKeys (byteAt i 7)) (i.take 0xC0) (slice i 0xC0 64) then some 2
  else if sha256 (slice i 256 (leAt i 0x10 4)) ≠ slice i 0x68 32 then some 3
  else none

/-! ### The image set (R365) -/

/-- A set under construction: the images, and which of them are golden. -/
structure ImageSet where
  imgs : List (List Byte)
  gold : List Nat

/-- Kind `k` takes its golden image. -/
def State.takeGolden (s : State) (x : ImageSet) (k : Nat) : State × ImageSet :=
  let g := nth s.flash.golden k
  (s.bootRec 0x0205 k (imageVersion g), ⟨x.imgs.set k g, x.gold ++ [k]⟩)

/-- The device's stepping lies outside an image's range. -/
def State.offStep (s : State) (i : List Byte) : Bool :=
  decide (s.factory.stepping < leAt i 0x14 2) || decide (leAt i 0x16 2 < s.factory.stepping)

/-- Why a kind is bad in a set: 0xFF for the stepping, else the other kind of a failing pair. -/
def State.badWhy (s : State) (x : ImageSet) (k : Nat) : Option Nat :=
  let i := nth x.imgs k
  if s.offStep i then some 0xFF
  else (List.range 5).find? (fun j => !imageAdmits i j (imageVersion (nth x.imgs j)) ||
    !imageAdmits (nth x.imgs j) k (imageVersion i))

/-- The loop of R365, with `fuel` passes: an accepted set, or none for management-only mode. -/
def State.formSet : Nat → State → ImageSet → State × Option ImageSet
  | 0, s, _ => (s, none)
  | n + 1, s, x =>
    let bad := (List.range 5).filter (fun k => (s.badWhy x k).isSome)
    if bad.isEmpty then (s, some x)
    else if bad.all x.gold.contains then (s, none)
    else
      let r := (bad.filter (fun k => !x.gold.contains k)).foldl (fun (a : State × ImageSet) k =>
        (a.1.bootRec 0x0204 k ((s.badWhy x k).getD 0)).takeGolden a.2 k) (s, x)
      if r.2.gold.any (fun k => (s.imageFault k (nth r.2.imgs k)).isSome) then (r.1, none)
      else State.formSet n r.1 r.2

/-- The first pass of R365: an image that does not verify gives way to the golden one. -/
def State.verifySet (s : State) (imgs : List (List Byte)) : State × ImageSet :=
  (List.range 5).foldl (fun (a : State × ImageSet) k => match s.imageFault k (nth a.2.imgs k) with
    | some why => (a.1.bootRec 0x0203 k why).takeGolden a.2 k
    | none => a) (s, ⟨imgs, []⟩)

/-- Why the fast path is declined: 0 stored results, 1 bank change, 2 previous boot (R353). -/
def Boot.declined (b : Boot) : Option Nat :=
  if !b.stored then some 0 else if b.selChanged then some 1 else if !b.prevReady then some 2 else none

/-- A pending bank is rejected: PENDING is cleared and PENDING_REJECTED logged (R363). -/
def State.rejectPending (s : State) (bank why : Nat) : State :=
  (({ s with boot := { s.boot with trial := none } }).setSelect s.flash.select.active none).bootRec 0x0206 bank why

/-- Stage 2 ends without a set: management-only mode, with the recovery responder when no MGMT image verifies (R366). -/
def State.noSet (s : State) (imgs : List (List Byte)) (replaced : Bool) : State :=
  let s := { s with boot := { s.boot with
    recovery := (s.imageFault 3 (nth imgs 3)).isSome && (s.imageFault 3 (nth s.flash.golden 3)).isSome } }
  let s := match s.boot.trial with
    | some b => if replaced then s.rejectPending b 0 else s
    | none => s
  s.toMgmtOnly

/-- The accepted set: the version vector, the cached images, the GCRT payload. -/
def State.acceptSet (s : State) (x : ImageSet) : State :=
  let s := (List.range 5).foldl (fun (s : State) k => s.bootRec 0x0202 k (imageVersion (nth x.imgs k))) s
  let vs := x.imgs.map (fun i => BitVec.ofNat 64 (imageVersion i))
  let gcrt := nth x.imgs 1
  { s with boot := { s.boot with
    versions := vs, goldenUsed := !x.gold.isEmpty, replaced := !x.gold.isEmpty, cached := (vs, !x.gold.isEmpty)
    payload := slice gcrt 256 (leAt gcrt 0x10 4), selChanged := false } }.endStage

/-- Stage 2 in full. -/
def State.selectImages (s : State) : State :=
  let imgs := if s.boot.bank = 0 then s.flash.bankA else s.flash.bankB
  let v := s.verifySet imgs
  if v.2.gold.any (fun k => (s.imageFault k (nth v.2.imgs k)).isSome) then v.1.noSet imgs true
  else match v.1.formSet 6 v.2 with
    | (s, some x) => s.acceptSet x
    | (s, none) => s.noSet imgs true

/-- IMAGE_SELECTION: a warm boot on the fast path takes the cached images; any other verifies and forms the set. -/
def execImageSelection (s : State) : Host.Outcome State Fault Refusal :=
  .next (if !s.inStage 2 then s
  else
    let s := (s.setPower 57 true).setPower 58 true
    if !s.boot.warm then s.selectImages
    else match s.boot.declined with
      | some why => (s.bootRec 0x020B why 0).selectImages
      | none =>
        { s with boot := { s.boot with
          fastPath := true, versions := s.boot.cached.1, goldenUsed := s.boot.cached.2, replaced := false } }.endStage)

/-! ### The pending bank and PLDM updates (R362, R363) -/

/-- PENDING_BANK_TIMEOUT: a trial that has not reached READY 120 s after it began is rejected, and the device resets. -/
def execPendingBankTimeout (s : State) : Host.Outcome State Fault Refusal :=
  .next (match s.boot.trial with
  | some b =>
    if s.dev.hold = 0 ∧ !s.boot.ready ∧ s.boot.start + 120000000000 ≤ s.clock.uptime then
      let s := ({ s with boot := { s.boot with trial := none } }).setSelect s.flash.select.active none
      (s.warmReset).bootRec 0x0206 b 1
    else s
  | none => s)

/-- Bytes of an image slot (Table 15.5). -/
def slotSize : Nat → Nat
  | 0 => 4 * 2 ^ 20 | 1 => 2 ^ 20 | 2 => 2 * 2 ^ 20 | 3 => 4 * 2 ^ 20 | 4 => 2 ^ 20 | _ => 2 ^ 20

/-- A valid copy of the NV image: its SEQ (R370). -/
def nvSeq (c : List Byte) : Option Nat :=
  let len := leAt c 8 4
  if 64 + len ≤ c.length ∧ leAt c 60 4 = crc32 (c.take 60 ++ slice c 64 len) then some (leAt c 4 4) else none

/-- NV copy 0 governs. -/
def Flash.nv0Governs (f : Flash) : Bool := match nvSeq f.nv0, nvSeq f.nv1 with
  | some a, some b => decide (b ≤ a)
  | some _, none => true
  | none, _ => false

/-- One component written: an image to the bank that is not ACTIVE, or NV to the copy that does not govern. -/
def Flash.component (f : Flash) (c : Nat × List Byte) : Flash :=
  if c.1 = 5 then (if f.nv0Governs then { f with nv1 := c.2 } else { f with nv0 := c.2 })
  else if f.select.active = 0 then { f with bankB := f.bankB.set c.1 c.2 }
  else { f with bankA := f.bankA.set c.1 c.2 }

/-- PLDM_FIRMWARE_UPDATE: its components are written, then PENDING is set when an image is among them (R362, R387). -/
def execPldmFirmwareUpdate (components : List (Nat × List Byte)) (s : State) : Host.Outcome State Fault Refusal :=
  .next (if s.dev.hold ≠ 0 ∨ components.isEmpty ∨ components.any (fun c => decide (5 < c.1) || decide (slotSize c.1 < c.2.length))
    then s
  else
    let s := { s with flash := components.foldl Flash.component s.flash }
    if components.any (fun c => decide (c.1 < 5)) then s.setSelect s.flash.select.active (some (1 - s.flash.select.active))
    else s)

end Sys2Proof.Machine
end

