-- ==== Sys2Proof/Machine/Boot.lean ====
section
/-!
DEFINITION. Boot stages 3 to 8 (R29, R134, R352 to R359, R369, R370, R382): NV_OVERLAY, DRAM_TRAINING, LANE_TRAINING,
BIST, GCRT_BROADCAST and READY, and PORT_RETRY (R250).
-/
namespace Sys2Proof.Machine

/-! ### Stage 3: factory values, NV overlay, history, licences -/

/-- The records of an NV copy: (KEY, value), with `fuel` records at most (R370). -/
def nvRecords : Nat → List Byte → List (Nat × List Byte)
  | 0, _ => []
  | n + 1, bs =>
    if bs.length < 4 then []
    else
      let size := leAt bs 2 2
      (leAt bs 0 2, slice bs 4 size) :: nvRecords n (bs.drop (4 + alignUp size 4))

/-- The records that stage 3 reads: those of the governing copy. -/
def Flash.nvBody (f : Flash) : Option (List (Nat × List Byte)) :=
  let c := if f.nv0Governs then f.nv0 else f.nv1
  (nvSeq c).map (fun _ => nvRecords c.length (slice c 64 (leAt c 8 4)))

/-- A signed byte. -/
def signed8 (b : Byte) : Int := b.toInt

/-- A value within a range. -/
def within (lo hi v : Nat) : Bool := decide (lo ≤ v) && decide (v ≤ hi)

/-- The fields of Table 15.8: size, legal value, and the result with the value. CHAIN_ABOVE is judged against the TREE_MAX
resolved before it; MAC addresses are not of `Nv` and stay as they are. -/
def nvField (n : Nv) (key : Nat) (v : List Byte) : Option Nv :=
  let x := leNat v
  let ok := fun (size : Nat) (legal : Bool) (r : Nv) => if v.length = size ∧ legal then some r else none
  match key with
  | 0x0001 => ok 2 (decide (x ≤ 0xFFE)) { n with node := x }
  | 0x0002 =>
    let ms := (chunks 2 v).map leNat
    ok 8192 (ms.all (fun m => decide (m < 4096)))
      { n with routes := (ms.zipIdx.filter (fun p => p.1 != 0)).map (fun p => (p.2, p.1)) }
  | 0x0003 => ok 2 (decide (x < 4096)) { n with portUnused := x }
  | 0x0004 => ok 6 (v.all (fun b => within 1 16 b.toNat)) { n with vcWeights := v.map (·.toNat) }
  | 0x0005 => ok 4 (within 4096 1048576 x) { n with treeMax := x }
  | 0x0006 => ok 4 (within n.treeMax 67108864 x) { n with chainAbove := x }
  | 0x0007 => ok 4 (within 1 10000 x) { n with graceMs := x }
  | 0x000A => ok 220 (v.all (fun b => decide (-2 ≤ signed8 b) && decide (signed8 b ≤ 2)))
      { n with presetOffsets := v.map signed8 }
  | 0x000B => ok 64 (v.all (fun b => decide (-8 ≤ signed8 b) && decide (signed8 b ≤ 8))) { n with tempTrim := v.map signed8 }
  | 0x000C => ok 4 (decide (x ≤ 10000)) { n with ppsDelay := x }
  | 0x000D => ok 4 (within 25 400 x) { n with sramWarn := x }
  | 0x000E => ok 4 (within 250 4000 x) { n with tier1Warn := x }
  | 0x000F => ok 4 (within 125 2000 x) { n with tier2Warn := x }
  | 0x0010 => ok 4 (within 10 20 x) { n with laneWarn := x }
  | _ => none

/-- A legal MAC address: 6 bytes, unicast and not zero. -/
def macOk (v : List Byte) : Bool := decide (v.length = 6) && decide (byteAt v 5 % 2 = 0) && decide (leNat v ≠ 0)

/-- The first occurrence of a key governs. -/
def firstOf (rs : List (Nat × List Byte)) : List (Nat × List Byte) :=
  rs.foldl (fun a r => if a.any (·.1 == r.1) then a else a ++ [r]) []

/-- One governing record applied, or logged as unknown or as a fall-back. -/
def State.nvApply (s : State) (r : Nat × List Byte) : State :=
  if r.1 = 0 ∨ 0x10 < r.1 then s.bootRec 0x020A r.1 0
  else if r.1 = 8 ∨ r.1 = 9 then
    if macOk r.2 then { s with far := updNth s.far (r.1 - 8) (fun f => { f with mac := leNat r.2 }) }
    else s.bootRec 0x0209 r.1 0
  else match nvField s.nv r.1 r.2 with
    | some n => { s with nv := n }
    | none => s.bootRec 0x0209 r.1 0

/-- Factory values, then the overlay: TREE_MAX comes before the records that follow it in the copy (R369, R370). -/
def State.loadNv (s : State) : State :=
  let s := { s with
    nv := Nv.factory
    far := s.far.zipIdx.map (fun (f : FarPort × Nat) => { f.1 with mac := nth s.factory.farMacs f.2 }) }
  match s.flash.nvBody with
  | none => s.bootRec 0x0208 0 0
  | some rs =>
    let rs := firstOf rs
    ((rs.filter (·.1 == 5)) ++ (rs.filter (·.1 != 5))).foldl State.nvApply s

/-- A cluster as the factory record and the repair record leave it (R29, R88, R340). -/
def State.madeCluster (s : State) (p : Nat) : Cluster :=
  let good := (s.flash.repairCores.filter (·.1 == p)).foldl (fun (g : BitVec 10) x => g &&& ~~~(BitVec.ofNat 10 (2 ^ x.2)))
    (BitVec.ofNat 10 (nth s.factory.goodCores p))
  let banks := (s.flash.repairBanks.filter (·.1 == p)).foldl (fun (g : BitVec 68) x => g &&& ~~~(BitVec.ofNat 68 (2 ^ x.2)))
    (BitVec.ofNat 68 (nth s.factory.goodBanks p))
  let c := { Cluster.reset with
    usable := !s.factory.defective.contains p, retired := s.flash.repair.contains p, goodCores := good, goodBanks := banks }
  (s.flash.repairCubes.filter (·.1 == p)).foldl (fun (c : Cluster) x => c.substitute x.2.1 x.2.2) c

/-- An entry of a history copy read back into a record (R346, R347). -/
def seasonOf (r : SeasonRec) (e : List Byte) : SeasonRec :=
  { r with
    samples := leAt e 4 4, margin := leAt e 8 2, required := leAt e 0xA 2, warned := decide (byteAt e 0xD % 2 = 1)
    corr := ((chunks 4 (slice e 32 144)).map leNat).take (min 36 (leAt e 4 4)), uncorr := leAt e 0x18 4 }

/-- The offset and the ceiling and retiring marks of a cluster's entry. -/
def Cluster.ofEntry (c : Cluster) (e : List Byte) : Cluster :=
  let st := byteAt e 0xD
  { c with offsetMv := byteAt e 0xC, atCeiling := decide (st / 2 % 2 = 1), retiring := decide (st / 8 % 2 = 1) && !c.retired }

/-- A cold boot reloads the history of the governing copy; without a valid one HISTORY_RESET is logged (R346). -/
def State.loadHistory (s : State) : State :=
  let c := if s.flash.hist0Governs then s.flash.hist0 else s.flash.hist1
  match historySeq c with
  | none => s.log1 { Rec.blank with code := 0x0181 }
  | some seq =>
    let es := chunks 176 (c.drop 64)
    let tenths := leAt c 0x10 8 * 6
    { s with
      season := { s.season with
        recs := s.season.recs.zipIdx.map (fun (r : SeasonRec × Nat) => seasonOf r.1 (nth es r.2))
        tenths := tenths, seq := seq, siteTime := leAt c 0x18 8, written := tenths }
      clusters := s.clusters.zipIdx.map (fun (k : Cluster × Nat) => k.1.ofEntry (nth es k.2)) }

/-- The licence is evaluated: CL32 and the T3 count apply from here on (R372). -/
def State.applyLicence (s : State) : State :=
  let s := s.refreshLicence
  let s := { s with bootFeat := s.effFeat }
  match effectiveLicence s.flash.licences s.licenceTime with
  | some l => s.bootRec 0x020F (leAt l 0x18 4) (byteAt l 7)
  | none => s.bootRec 0x020F 0 0

/-- NV_OVERLAY: stage 3. -/
def execNvOverlay (s : State) : Host.Outcome State Fault Refusal :=
  .next (if !s.inStage 3 then s
  else
    let s := (s.setPower 59 true).setPower 60 true
    let s := s.loadNv
    let s := if s.boot.warm then s
      else ({ s with clusters := (List.range 34).map s.madeCluster }).loadHistory
    s.applyLicence.endStage)

/-! ### Stage 4: DRAM and CXL training -/

/-- A tier 3 link's capacity: licensed, trained, limited to 1 TiB (R115). -/
def State.linkCap (s : State) (t3 : List (Option Nat)) (l : Nat) : Nat :=
  if l < s.bootFeat.t3 then min 1024 ((nth t3 l).getD 0) else 0

/-- DRAM_TRAINING: stage 4. A tower (0 to 7) or package (8 to 23) that still fails after repair stops the sequence; a
tier 3 link that fails contributes nothing. The row repairs of the repair record are applied (R134, R335). -/
def execDramTraining (failedParts : List Nat) (t3Gib : List (Option Nat)) (s : State) : Host.Outcome State Fault Refusal :=
  .next (if !s.inStage 4 then s
  else
    let s := [53, 54, 55, 56].foldl (fun (s : State) i => s.setPower i true) s
    let caps := (List.range 4).map (s.linkCap t3Gib)
    let s := (List.range 4).foldl (fun (s : State) l => s.setPower (48 + l) (decide (0 < nth caps l))) s
    let s := failedParts.foldl (fun (s : State) p => if p < 8 then s.unitFailed 10 p else s.unitFailed 11 (p - 8)) s
    let s := (List.range s.bootFeat.t3).foldl (fun (s : State) l => if (nth t3Gib l).isNone then s.unitFailed 12 l else s) s
    let s := { s with t3cap := caps, dramRepairs := s.flash.repairRows }
    if failedParts.isEmpty then s.endStage else s.toMgmtOnly)

/-! ### Stage 5: lane acceptance (R355 to R357) -/

/-- Lanes whose soak saw more than 400,000 bit errors. -/
def badOf (errs : List Nat) (n : Nat) : List Nat := (List.range n).filter (fun l => decide (400000 < nth errs l))

/-- The lanes of a port with at most one failing lane: the failing one's logical number moves to lane 16. -/
def Port.withLanes (p : Port) (bad : List Nat) : Port :=
  { p with
    badLanes := bad
    lanes := (List.range 16).map (fun l => if bad.contains l then 16 else l)
    spared := bad.find? (fun l => decide (l < 16)) }

/-- A port that bring-up leaves DOWN: its record, and whether its domain stays on. -/
def State.portDown (s : State) (p why : Nat) : State :=
  let s := s.setPort p (fun x => { x with
    disabled := decide (why ≠ 1), noPartner := decide (why = 1), powered := decide (why = 1) })
  ((s.setPower (34 + p) (decide (why = 1))).changePort p 0).bootRec 0x020D p why

/-- A port that trains passes through equalisation and locking (R250). -/
def State.climbPort (s : State) (p st : Nat) : State := ((s.setPortState p 1).setPortState p 2).changePort p st

/-- A fabric port's soak: the port is UP with no or one failing lane, else DOWN and disabled (R355). -/
def State.soakPort (s : State) (p : Nat) (errs : List Nat) : State :=
  let bad := badOf errs 17
  if 1 < bad.length then s.portDown p 0
  else
    let s := match bad with
      | l :: _ => s.bootRec 0x020C (p * 32 + l) (nth errs l)
      | [] => s
    let s := s.setPort p (fun x => { x.withLanes bad with powered := true, disabled := false, noPartner := false })
    (s.setPower (34 + p) true).climbPort p 3

/-- A fabric port of a warm stage 5: the stored equalisation locks; a lane that does not is handled as R251 says. -/
def State.relockPort (s : State) (p : Nat) (errs : List Nat) : State :=
  let x := s.port p
  if x.disabled ∨ x.noPartner then s
  else
    let s := s.climbPort p (if x.lanes.length = 8 then 4 else 3)
    (badOf errs 17).foldl (fun (s : State) l => s.laneLost p l) s

/-- One fabric port at stage 5 (R355, R356); one that counts as disabled stays DOWN until the next cold boot. -/
def State.trainPort (s : State) (p : Nat) (answer : Bool) (errs : List Nat) : State :=
  if s.nv.portUnused / 2 ^ p % 2 = 1 then
    (s.setPort p (fun x => { x with disabled := true, noPartner := false, powered := false })).setPower (34 + p) false
  else if s.nv.node = 0xFFF then s.portDown p 2
  else if s.boot.warm && (s.port p).disabled then s
  else if !answer then s.portDown p 1
  else if s.boot.fastPath then s.relockPort p errs
  else s.soakPort p errs

/-- A far port's state, with its record and cause. -/
def State.setFarState (s : State) (f st : Nat) : State :=
  if (nth s.far f).state = st then s
  else
    let s := { s with far := updNth s.far f (fun x => { x with state := st }) }
    (s.devCause 4).log1 { Rec.blank with code := 0x0141, cls := 1, kind := 13, die := 2, unit := f, sub := 0xFFFF, d0 := st }

/-- A far port at stage 5: UP with no failing lane, else DOWN with its domain off (R357). -/
def State.trainFar (s : State) (f : Nat) (errs : List Nat) : State :=
  if (badOf errs 8).isEmpty then (s.setPower (46 + f) true).setFarState f 3
  else ((s.setPower (46 + f) false).setFarState f 0).bootRec 0x020D (16 + f) 0

/-- LANE_TRAINING: stage 5. The event brings which partners answer and the bit errors of every lane. -/
def execLaneTraining (answers : List Bool) (laneErrors farErrors : List (List Nat)) (s : State) :
    Host.Outcome State Fault Refusal :=
  .next (if !s.inStage 5 then s
  else
    let s := (List.range 12).foldl (fun (s : State) p => s.trainPort p (nth answers p) (nth laneErrors p)) s
    let s := (List.range 2).foldl (fun (s : State) f => s.trainFar f (nth farErrors f)) s
    s.endStage)

/-! ### Stage 6: BIST -/

/-- A cluster that R29 must skip. -/
def Cluster.spent (c : Cluster) : Bool :=
  decide (c.good.length < 8) || decide ((bitsSet c.goodBanks).length < 64) || !c.fenced.isEmpty

/-- A cluster is marked defective in the repair record. -/
def State.markDefective (s : State) (p : Nat) : State :=
  { s.setCluster p (fun c => { c with retired := true }) with
    flash := { s.flash with repair := if s.flash.repair.contains p then s.flash.repair else s.flash.repair ++ [p] } }

/-- What the repair record and the cluster hold after one failure (Table 15.2); a DRAM row is repaired at once, for its part
is trained again within the stage (R134). -/
def State.bistFail (s : State) : BistFail → State
  | .cube c e k =>
    let s := s.unitFailed 0 c
    if ((nth s.clusters c).freeSpares e).isEmpty then s.setCluster c (fun x => { x with fenced := x.fenced ++ [e] })
    else
      { s.setCluster c (fun x => x.substitute e k) with
        flash := { s.flash with repairCubes := s.flash.repairCubes ++ [(c, e, k)] } }
  | .core c k =>
    let s := s.unitFailed 3 c
    { s.setCluster c (fun x => { x with goodCores := x.goodCores &&& ~~~(BitVec.ofNat 10 (2 ^ k)) }) with
      flash := { s.flash with repairCores := s.flash.repairCores ++ [(c, k)] } }
  | .bank c k =>
    let s := s.unitFailed 4 c
    { s.setCluster c (fun x => { x with goodBanks := x.goodBanks &&& ~~~(BitVec.ofNat 68 (2 ^ k)) }) with
      flash := { s.flash with repairBanks := s.flash.repairBanks ++ [(c, k)] } }
  | .cluster c => (s.unitFailed 2 c).markDefective c
  | .dramRow u =>
    let s := if u < 8 then s.unitFailed 10 u else s.unitFailed 11 (u - 8)
    { s with flash := { s.flash with repairRows := s.flash.repairRows ++ [u] }, dramRepairs := s.dramRepairs ++ [u] }
  | .fatal k => s.unitFailed k 0

def BistFail.isFatal : BistFail → Bool
  | .fatal _ => true
  | _ => false

/-- BIST: stage 6. -/
def execBist (failures : List BistFail) (s : State) : Host.Outcome State Fault Refusal :=
  .next (if !s.inStage 6 then s
  else
    let s := (List.range 34).foldl (fun (s : State) p => s.setPower p (!s.factory.defective.contains p)) s
    let s := failures.foldl State.bistFail s
    let s := ((List.range 34).filter (fun p => (nth s.clusters p).spent && !(nth s.clusters p).retired)).foldl
      State.markDefective s
    if failures.any BistFail.isFatal then s.toMgmtOnly else s.endStage)

/-! ### Stage 7: cluster map and GCRT (R29, R358, R359) -/

/-- The logical clusters of a die, in order (R29). -/
def State.dieLogical (s : State) (die : Nat) : List Nat :=
  let n := s.lclusters / 2
  List.range' (die * n) n

/-- The map of both dies: logical clusters in ascending order on the usable physical ones in ascending order. -/
def State.buildMap (s : State) : List (Option Nat) :=
  ((List.range 2).map (fun d =>
    let ps := (List.range' (d * 17) 17).filter (fun p => (nth s.clusters p).usable && !(nth s.clusters p).retired)
    (List.range (s.dieLogical d).length).map (fun i => ps[i]?))).flatten

/-- A core's fetch or check fails twice: it is retired and logged. -/
def State.fetchFail (s : State) (f : Nat × Nat) : State :=
  let s := s.unitFailed 3 f.1
  { s.setCluster f.1 (fun x => { x with goodCores := x.goodCores &&& ~~~(BitVec.ofNat 10 (2 ^ f.2)) }) with
    flash := { s.flash with repairCores := s.flash.repairCores ++ [f] } }

/-- Builds the map and broadcasts; a mapped cluster left with fewer than 8 good cores is marked defective and the map
built again, with `fuel` rounds. -/
def State.bringUp (failures : List (Nat × Nat)) : Nat → State → State
  | 0, s => s
  | n + 1, s =>
    let s := { s with lmap := s.buildMap }
    let hit := failures.filter (fun f => s.lmap.contains (some f.1) && (nth s.clusters f.1).good.contains f.2)
    let s := hit.foldl State.fetchFail s
    let short := (s.lmap.filterMap id).filter (fun p => decide ((nth s.clusters p).good.length < 8))
    if short.isEmpty then s else State.bringUp failures n (short.foldl State.markDefective s)

/-- GCRT_BROADCAST: stage 7. Logical clusters without a physical one are FAILED from the start (R341). -/
def execGcrtBroadcast (failures : List (Nat × Nat)) (s : State) : Host.Outcome State Fault Refusal :=
  .next (if !s.inStage 7 then s
  else
    let s := s.bringUp failures 34
    let s := { s with
      lrisk := []
      lfailed := (List.range s.lclusters).filter (fun lc => (s.phys lc).isNone)
      gcrt := [] }
    let s := (List.range 34).foldl (fun (s : State) p => s.setPower p (s.lmap.contains (some p))) s
    let s := (List.range s.lclusters).foldl (fun (s : State) lc => match s.phys lc with
      | some p => s.loadGcrt p lc
      | none => s) s
    s.endStage)

/-! ### Stage 8: READY (R347, R352, R363, R375) -/

/-- The trial of a pending bank ends at READY. -/
def State.endTrial (s : State) : State := match s.boot.trial with
  | none => s
  | some b =>
    if s.boot.replaced then s.rejectPending b 0
    else ({ s with boot := { s.boot with trial := none } }).setSelect b none

/-- READY: the Joiner starts, event records reach the error log, the history is written, the event area erased, and
DEV_READY rises. -/
def execReady (s : State) : Host.Outcome State Fault Refusal :=
  .next (if !s.inStage 8 then s
  else
    let s := s.bootRec 0x0201 8 (s.clock.uptime - s.boot.stageAt)
    let s := (s.bootRec 0x0210 s.freeNow.toNat 0).useFree 1
    let s := s.endTrial
    let s := s.flash.events.foldl (fun (s : State) r => { s with errLog := s.errLog.add r }) s
    let s := s.writeHistory
    let s := { s with
      flash := { s.flash with events := [], bootLog := s.bootLog.recs }
      boot := { s.boot with ready := true, stored := true }
      devSince := s.now
      dev := { s.dev with devReady := true } }
    s.emit (.devReady true))

/-! ### PORT_RETRY (R250) -/

/-- Lanes for a port that went DOWN in operation, whose failed lanes are known: sixteen, with the spare for one failed
lane, else the eight lowest working ones. -/
def Port.relane (p : Port) : Option Port :=
  if p.badLanes.length ≤ 1 then some (p.withLanes p.badLanes)
  else
    let good := ((List.range 17).filter (fun l => !p.badLanes.contains l)).take 8
    if good.length = 8 then some { p with lanes := good, spared := none } else none

/-- A port that returns calibrates and goes to LOCKING; it is UP after 1,000 flits (R250). -/
def State.relock (s : State) (p : Nat) (x : Port) : State :=
  ((s.setPort p (fun _ => { x with goodFlits := 0 })).setPortState p 1).setPortState p 2

/-- PORT_RETRY: once a second, a DOWN port goes to LOCKING when its partner answers: one that went DOWN in operation with
its stored equalisation and no soak; one whose partner did not answer at bring-up after equalisation and the soak, two
failing lanes of which disable it. -/
def execPortRetry (port : Nat) (answers : Bool) (laneErrors : List Nat) (s : State) : Host.Outcome State Fault Refusal :=
  let x := s.port port
  let bad := badOf laneErrors 17
  .next (if !s.up ∨ 11 < port ∨ x.state ≠ 0 ∨ x.disabled ∨ s.clock.uptime < x.nextTry then s
  else
    let s := s.setPort port (fun x => { x with nextTry := s.clock.uptime + 1000000000 })
    let x := s.port port
    if !answers then s
    else if x.noPartner then
      if 1 < bad.length then s.portDown port 0
      else s.relock port { x.withLanes bad with noPartner := false }
    else if x.inOperation then
      match x.relane with
      | some y => s.relock port { y with inOperation := false }
      | none => s
    else s)

end Sys2Proof.Machine
end

