-- ==== Sys2Proof/Machine/FarLink.lean ====
section
/-!
DEFINITION. The Scarf engine's transport (R279 to R284, R308): frames (Table 11.4), datagrams (Table 11.5), encryption
and acknowledgement of control datagrams, fragments, SACKs, round trips, and what a bundle's destinations release.
Conventions that the manual leaves open are logs 52 to 55.
-/
namespace Sys2Proof.Machine

def State.setJoin (s : State) (b : Nat) (f : Join → Join) : State :=
  s.setBay b (fun y => { y with join := y.join.map f })

/-- STALL_FORM to STALL_SEND after bundles went through the stages: the cycles in which a stage held data it could not
pass on, which only their timing tells (R32, log 68). -/
def State.stageStalls (s : State) (b : Nat) : State :=
  (List.range 4).foldl (fun (s : State) i => (s.countBay b (16 + i) (s.freeNow.toNat % 2 ^ 32)).useFree 1) s

/-- Acts on the join of a bay that has joined. -/
def State.onJoined (s : State) (b : Nat) (f : Join → State) : State := match (s.bay b).join with
  | some j => if j.joining.isNone then f j else s
  | none => s

/-- Acts on the join of a bay that has joined or is joining. -/
def State.onJoin (s : State) (b : Nat) (f : Join → State) : State := match (s.bay b).join with
  | some j => f j
  | none => s

/-! ### Sites -/

/-- The configured sites, ascending. -/
def Join.sites (j : Join) : List Nat := bitsSet j.blk.siteMask

/-- The other configured sites. -/
def Join.others (j : Join) : List Nat := j.sites.filter (fun i => i != j.blk.thisSite)

/-- Member 0 is its site's speaker (R276). -/
def Join.speaker (j : Join) : Bool := j.blk.thisMember == 0

/-- The key of the join while the slot is held (R314). -/
def Bay.joinKey (y : Bay) (j : Join) : Option (List Byte) :=
  if j.keyHeld then
    match nth y.keys j.keySlot with
    | .gcm k => some k
    | _ => none
  else none

/-! ### Frames (Table 11.4) -/

/-- The sum of 16-bit words of a byte string, padded with a zero byte. -/
def sum16 (bs : List Byte) : Nat := ((chunks 2 (padMul 2 bs)).map beNat).sum

/-- The ones' complement of the folded sum; a zero checksum is sent as all ones. -/
def udpChecksum (bs : List Byte) : Nat :=
  let s := sum16 bs
  let f := s % 65535
  let c := if f = 0 ∧ s ≠ 0 then 0 else 65535 - f
  if c = 0 then 65535 else c

/-- A frame: Ethernet, IPv6 and UDP headers, the datagram, and the frame check sequence, low byte first. -/
def frameBytes (j : Join) (mac nexthop site : Nat) (dgram : List Byte) : List Byte :=
  let p := nth j.blk.peers site
  let n := 8 + dgram.length
  let udp := fun (c : Nat) => toBe 2 j.blk.udpPort ++ toBe 2 p.port ++ toBe 2 n ++ toBe 2 c
  let pseudo := toBe 16 j.blk.srcIp ++ toBe 16 p.addr ++ toBe 4 n ++ toBe 4 17
  let c := udpChecksum (pseudo ++ udp 0 ++ dgram)
  let ip := toBe 4 (6 * 2 ^ 28 + j.blk.thisSite * 256 + j.blk.thisMember) ++ toBe 2 n ++ toBe 1 17 ++ toBe 1 64 ++
    toBe 16 j.blk.srcIp ++ toBe 16 p.addr
  let f := toBe 6 nexthop ++ toBe 6 mac ++ toBe 2 0x86DD ++ ip ++ udp c ++ dgram
  f ++ toLe 4 (crc32 f)

/-! ### Datagrams (Table 11.5) -/

/-- The Scarf header in network order; `len` is the payload's length. -/
def scarfHeader (kind src dst member frag seq epoch len count sent echo : Nat) : List Byte :=
  toBe 1 (16 + kind) ++ toBe 1 (src * 16 + dst) ++ toBe 1 member ++ toBe 1 frag ++ toBe 4 seq ++ toBe 4 epoch ++
    toBe 2 len ++ toBe 1 count ++ toBe 1 0 ++ toBe 8 sent ++ toBe 8 echo

/-- The header of a received datagram of a kind. -/
def dgramHeader (kind : Nat) (d : Dgram) : List Byte :=
  scarfHeader kind d.srcSite d.dstSite d.member d.frag d.seq.toNat d.epoch.toNat d.payload.length d.fragCount d.sent d.echo

/-- The bundle has a destination for which it has not won arbitration. -/
def Bundle.waits (x : Bundle) : Bool := x.dests.any (fun d => d.2 == DestState.waiting)

/-- Bundles of a bay that have not been granted and that no port can send are held from now on (R284). -/
def Join.holdBundles (j : Join) (t : Nat) : Join :=
  { j with bundles := j.bundles.map (fun (x : Bundle) =>
    if x.waits then { x with heldSince := some (x.heldSince.getD t) } else x) }

/-- The far ports named in FAR_PORTS that are UP, ascending (R284). -/
def State.farUp (s : State) (j : Join) : List Nat :=
  (List.range 2).filter (fun p => j.blk.farPorts / 2 ^ p % 2 == 1 && (nth s.far p).state == 3)

/-- Every bay's waiting bundles are held when no port named by its join is UP (R284). -/
def State.holdBundles (s : State) : State :=
  { s with bays := s.bays.map (fun (y : Bay) => match y.join with
    | some j => if (s.farUp j).isEmpty then { y with join := some (j.holdBundles s.clock.uptime) } else y
    | none => y) }

/-- A datagram leaves on a port. -/
def State.emitFrame (s : State) (j : Join) (port site : Nat) (dgram : List Byte) : State :=
  let s := { s with far := updNth s.far port (fun (x : FarPort) => { x with txFrames := x.txFrames + 1 }) }
  s.emit (.frame port site (frameBytes j (nth s.far port).mac (if port = 0 then j.blk.mac0 else j.blk.mac1) site dgram))

/-- Datagrams held for want of a port leave first (R284). -/
def State.flushHeld (s : State) (b : Nat) : State := s.onJoined b (fun j =>
  match s.farUp j with
  | [] => s
  | ps =>
    (j.portq.foldl (fun s x => s.emitFrame j (nth ps (x.1 % ps.length)) x.2.1 x.2.2) s).setJoin b
      (fun j => { j with portq := [] }))

/-- A datagram is granted to the named port that its turn selects, or held when none is UP (R284). -/
def State.sendDgram (s : State) (b turn site : Nat) (dgram : List Byte) : State :=
  match (s.bay b).join with
  | none => s
  | some j =>
    match s.farUp j with
    | [] => s.setJoin b (fun j => { j with portq := j.portq ++ [(turn, site, dgram)] })
    | ps => (s.flushHeld b).emitFrame j (nth ps (turn % ps.length)) site dgram

/-! ### Control datagrams (R281, R308) -/

/-- The nonce of a prefix and a sequence number, most significant byte first. -/
def farNonce (pre : W64) (seq : W32) : List Byte := toBe 8 pre.toNat ++ toBe 4 seq.toNat

/-- The control form of a nonce prefix. -/
def ctlPrefix (pre : W64) : W64 := pre ^^^ 0x8000000000000000

/-- A control datagram's bytes: header, ciphertext, tag. -/
def ctlBytes (j : Join) (key : List Byte) (site kind : Nat) (seq epoch : W32) (sent echo : Nat) (payload : List Byte) :
    List Byte :=
  let h := scarfHeader kind j.blk.thisSite site j.blk.thisMember 0 seq.toNat epoch.toNat payload.length 0 sent echo
  let c := gcmEncrypt key (farNonce (ctlPrefix j.blk.noncePrefix) seq) h payload
  h ++ c.1 ++ c.2

/-- A control datagram is sent once; without the key nothing is sent (R314). -/
def State.sendCtl (s : State) (b site kind : Nat) (seq epoch : W32) (sent echo : Nat) (payload : List Byte) : State :=
  match (s.bay b).join with
  | none => s
  | some j =>
    match (s.bay b).joinKey j with
    | none => s
    | some key => s.sendDgram b seq.toNat site (ctlBytes j key site kind seq epoch sent echo payload)

/-- A control datagram under the next control sequence number, resent until acknowledged or until site time `until_`. -/
def State.startCtl (s : State) (b site kind : Nat) (epoch : W32) (until_ : Nat) (payload : List Byte) : State :=
  match (s.bay b).join with
  | none => s
  | some j =>
    let s := s.setJoin b (fun j => { j with
      ctlSeq := j.ctlSeq + 1
      ctlOut := j.ctlOut ++ [⟨site, kind, j.ctlSeq, epoch, payload, s.now, s.clock.uptime, until_⟩] })
    s.sendCtl b site kind j.ctlSeq epoch s.now 0 payload

/-- The acknowledgement of a control datagram (KIND 7), the SEQ that it echoes in network order (R12). -/
def State.ackCtl (s : State) (b : Nat) (d : Dgram) : State :=
  match (s.bay b).join with
  | none => s
  | some j =>
    (s.setJoin b (fun j => { j with ctlSeq := j.ctlSeq + 1 })).sendCtl b d.srcSite 7 j.ctlSeq d.epoch s.now d.sent
      (toBe 4 d.seq.toNat)

/-! ### Receipt -/

/-- A datagram from a peer: it was heard, and sends to it resume (R283). -/
def State.heard (s : State) (b site : Nat) : State :=
  s.setJoin b (fun j => { j with
    lastHeard := assocSet j.lastHeard site s.clock.uptime
    unreach := j.unreach.filter (· != site)
    bundles := j.bundles.map (fun (x : Bundle) => { x with dests := x.dests.map (fun d =>
      if d.1 == site && d.2 == DestState.unreachable then
        (site, if (assoc x.sentAt site).isSome then DestState.granted else DestState.waiting)
      else d) }) })

/-- The datagram comes from another configured site, of this member, to this site, and its sender's versions agree. -/
def Join.takes (j : Join) (d : Dgram) : Bool :=
  j.others.contains d.srcSite && d.dstSite == j.blk.thisSite && d.member == j.blk.thisMember

/-- A datagram that the join accepts is counted at its port and heard. While the join waits for its first answer only a
hello and the acknowledgement of one are taken. -/
def State.takeDgram (s : State) (b port kind : Nat) (d : Dgram) (f : State → Join → State) : State :=
  let s := { s with far := updNth s.far port (fun (x : FarPort) => { x with rxFrames := x.rxFrames + 1 }) }
  match (s.bay b).join with
  | none => s
  | some j =>
    if j.takes d && (kind == 8 || (kind == 7 && j.joining.isSome) || (j.joining.isNone && !j.banned.contains d.srcSite)) then f (s.heard b d.srcSite) j else s

/-- A control datagram: discarded without the key; discarded and counted when its tag fails; else acknowledged, and `f`
acts on its payload (R281, R314). -/
def State.takeCtl (s : State) (b port kind : Nat) (d : Dgram) (f : State → Join → List Byte → State) : State :=
  s.takeDgram b port kind d (fun s j =>
    match (s.bay b).joinKey j with
    | none => s
    | some key =>
      match gcmDecrypt key (farNonce (ctlPrefix d.pre) d.seq) (dgramHeader kind d) d.payload d.tag with
      | none => s.countBay b 11 1
      | some p => f (if kind = 7 then s else s.ackCtl b d) j p)

end Sys2Proof.Machine
end

