-- ==== Sys2Proof/Machine/Merge.lean ====
section
/-!
DEFINITION. Deltas, admission vectors, the ledger, the merge and its digests (R273, R285 to R293), as the Scarf engine
holds and computes them.
-/
namespace Sys2Proof.Machine

/-! ### Deadlines (R285) -/

/-- The highest-numbered entry held for an epoch. -/
def Join.entry? (j : Join) (e : Nat) : Option Ledger :=
  (j.entries.filter (fun l => l.epoch.toNat == e)).foldl (fun a l => match a with
    | none => some l
    | some k => if k.takeover < l.takeover then some l else some k) none

/-- G_0 to G_2. -/
def State.grace0 (s : State) (j : Join) : Nat := if j.blk.graceUs = 0 then s.nv.graceMs * 1000000 else j.blk.graceUs * 1000

/-- G_E: the grace that the latest entry held of epochs 2 to E - 1 carries, else the first grace. -/
def State.graceOf (s : State) (j : Join) (e : Nat) : Nat :=
  let xs := j.entries.filter (fun l => decide (2 ≤ l.epoch.toNat) && decide (l.epoch.toNat < e))
  match xs.foldl (fun a l => max a (l.epoch.toNat + 1)) 0 with
  | 0 => s.grace0 j
  | x + 1 => ((j.entry? x).map (fun l => l.nextGrace * 1000)).getD (s.grace0 j)

/-- K_E, A_E, F_E. -/
def Join.pacing (j : Join) (e : Nat) : Nat := j.blk.t0 + (e + 1) * j.blk.periodNs

def State.cutTime (s : State) (j : Join) (e : Nat) : Nat := j.pacing e + s.graceOf j e

def State.finalTime (s : State) (j : Join) (e : Nat) : Nat :=
  s.cutTime j e + j.sites.length * (j.blk.takeoverUs * 1000)

/-- The first epoch whose deadline, `after` its pacing point, lies in the future. -/
def Join.firstAfter (j : Join) (now after : Nat) : Nat :=
  if now < j.blk.t0 + after + j.blk.periodNs then 0 else (now - j.blk.t0 - after) / j.blk.periodNs

/-- An entry is final (R285). -/
def Join.isFinal (j : Join) (e : Nat) : Bool := decide (e < j.nextFinal)

/-! ### Blocks of a delta -/

/-- The state blocks of the non-frozen tensors in map order, as (tensor, block): block n of a delta is element n. -/
def ShardMap.deltaBlocks (p : ShardMap) : List (Nat × Nat) :=
  (p.live.map (fun ti => (List.range (p.blocks (nth p.tensors ti))).map (fun k => (ti, k)))).flatten

/-- Bytes of FP32 in block n of a delta. -/
def ShardMap.deltaBytes (p : ShardMap) (n : Nat) : Nat := match p.deltaBlocks[n]? with
  | some (ti, k) => 4 * blockElems (p.elems (nth p.tensors ti)) k
  | none => 0

/-- The address and bytes of a class of a state block: 0 master, 4 base, 5 outer momentum. -/
def ShardMap.classRange (p : ShardMap) (ti k cls : Nat) : Nat × Nat := liveBlock p (nth p.tensors ti) k cls

/-! ### Deltas held (R279, R284, R286) -/

/-- A delta that this site holds complete, at a stamp before `t`: its bundles run from 0 to the last, and cover it. -/
def Join.holds (j : Join) (site e t : Nat) : Bool :=
  let ps := j.parts.filter (fun x => x.site == site && x.epoch.toNat == e && decide (x.at_ < t))
  match ps.find? (·.last) with
  | none => false
  | some l =>
    (List.range (l.index + 1)).all (fun i => ps.any (fun x => x.index == i)) &&
      (List.range l.total).all (fun k => ps.any (fun x => decide (x.first ≤ k) && decide (k < x.first + x.count)))

/-- An entry's admissions at a lateness. -/
def Ledger.admitAt (l : Ledger) : Nat → BitVec 16
  | 0 => l.admit0 | 1 => l.admit1 | 2 => l.admit2 | _ => 0

/-- The delta (s, x) is admitted by an entry held for an epoch before `e`. -/
def Join.admittedBy (j : Join) (site x e : Nat) : Bool :=
  (List.range 3).any (fun d => decide (x + d < e) && match j.entry? (x + d) with
    | some l => (l.admitAt d).getLsbD site
    | none => false)

/-- The sites whose delta of epoch `x` this site lists in its report for epoch `e`: complete before A_E, and not yet
admitted or dropped (R286). -/
def Join.holdMask (j : Join) (e x t : Nat) : BitVec 16 :=
  j.sites.foldl (fun m i =>
    if j.holds i x t && !j.admittedBy i x e && !j.dropped.contains (i, BitVec.ofNat 32 x) && decide (j.oldEpochs ≤ x) then m ||| BitVec.ofNat 16 (2 ^ i)
    else m) 0

/-- HOLD0 to HOLD2 for epoch `e`. -/
def Join.holdsFor (j : Join) (e t : Nat) : List (BitVec 16) :=
  (List.range 3).map (fun d => if e < d then 0 else j.holdMask e (e - d) t)

/-! ### Admission vectors (Table 11.7) -/

/-- An admission vector's payload, in network order (R12). -/
def AdmVec.bytes (v : AdmVec) : List Byte :=
  toBe 4 v.epoch.toNat ++ toBe 1 v.site ++ zeros 3 ++ toBe 2 v.hold0.toNat ++ toBe 2 v.hold1.toNat ++
    toBe 2 v.hold2.toNat ++ zeros 2 ++ toBe 4 v.rtt

/-- A payload read as a vector received at site time `at_`. -/
def vectorOf (k : List Byte) (at_ : Nat) : AdmVec :=
  ⟨BitVec.ofNat 32 (beAt k 0 4), byteAt k 4, BitVec.ofNat 16 (beAt k 8 2), BitVec.ofNat 16 (beAt k 10 2),
    BitVec.ofNat 16 (beAt k 12 2), beAt k 16 4, at_⟩

/-- A vector kept: one per site and epoch. -/
def Join.addVector (j : Join) (v : AdmVec) : Join :=
  { j with vectors := j.vectors.filter (fun x => !(x.epoch == v.epoch && x.site == v.site)) ++ [v] }

/-! ### Ledger entries (Table 11.8) -/

/-- A ledger entry's payload, in network order (R12). -/
def Ledger.bytes (l : Ledger) : List Byte :=
  toBe 4 l.epoch.toNat ++ toBe 1 l.tally ++ toBe 1 l.takeover ++ toBe 2 l.present.toNat ++ toBe 2 l.absent.toNat ++
    toBe 2 l.admit0.toNat ++ toBe 2 l.admit1.toNat ++ toBe 2 l.admit2.toNat ++ toBe 2 l.dropped.toNat ++ zeros 2 ++
    (l.weights.map (fun w => toBe 4 w.toNat)).flatten ++ toBe 4 l.nextGrace ++ zeros 4

def ledgerOf (k : List Byte) : Ledger :=
  let m := fun (off : Nat) => BitVec.ofNat 16 (beAt k off 2)
  { epoch := BitVec.ofNat 32 (beAt k 0 4), tally := byteAt k 4, takeover := byteAt k 5, present := m 6, absent := m 8,
    admit0 := m 10, admit1 := m 12, admit2 := m 14, dropped := m 16,
    weights := (List.range 3).map (fun i => BitVec.ofNat 32 (beAt k (20 + 4 * i) 4)), nextGrace := beAt k 32 4 }

/-- The tally site of an epoch at a takeover number (R287). -/
def Join.tallySite (j : Join) (e k : Nat) : Nat := j.sites.getD ((e + k) % j.sites.length) 0

/-- The vectors held for an epoch. -/
def Join.vectorsFor (j : Join) (e : Nat) : List AdmVec := j.vectors.filter (fun v => v.epoch.toNat == e)

/-- NEXT_GRACE in us of the entry for `e` that counts the vectors `own`, over those and the vectors that the entries of
e - 2 and e - 1 count (R288). -/
def Join.nextGraceOf (j : Join) (e : Nat) (own : List AdmVec) : Nat :=
  if e < 2 then 0
  else
    let counted := fun (x : Nat) => match j.entry? x with
      | some l => (j.vectorsFor x).filter (fun v => l.present.getLsbD v.site)
      | none => []
    let vs := counted (e - 2) ++ counted (e - 1) ++ own
    let us := ceilDiv (2 * vs.foldl (fun m v => max m v.rtt) 0 + 1000000) 1000
    max 1000 (min us 10000000)

/-- The entry that this site publishes for epoch `e` with takeover number `k` from the vectors `vs` (R287 to R289). -/
def Join.makeEntry (j : Join) (e k : Nat) (vs : List AdmVec) : Ledger :=
  let present := vs.foldl (fun m v => m ||| BitVec.ofNat 16 (2 ^ v.site)) (0 : BitVec 16)
  let holdAnd := fun (d : Nat) (f : AdmVec → BitVec 16) =>
    if isZero (val32 (nth j.blk.stale d)) then 0 else vs.foldl (fun m v => m &&& f v) (BitVec.allOnes 16)
  let dropped := if e < 3 then 0
    else j.sites.foldl (fun m i => if j.admittedBy i (e - 3) e then m else m ||| BitVec.ofNat 16 (2 ^ i)) (0 : BitVec 16)
  { epoch := BitVec.ofNat 32 e, tally := j.blk.thisSite, takeover := k, present := present,
    absent := j.blk.siteMask &&& ~~~present, admit0 := holdAnd 0 (·.hold0), admit1 := holdAnd 1 (·.hold1),
    admit2 := holdAnd 2 (·.hold2), dropped := dropped, weights := j.blk.stale, nextGrace := j.nextGraceOf e vs }

/-! ### The merge (R290) -/

/-- The blocks of a plaintext bundle of a delta: (block, input bytes). -/
def bundleBlocks (text : List Byte) : List (Nat × List Byte) :=
  ((planeReadAll false text.length text).getD []).map (fun x => (x.block, x.data))

/-- The landed form of block `n` of a delta. -/
def Join.landedBlock (j : Join) (site e n : Nat) : Option Landed :=
  j.landed.find? (fun x => x.site == site && x.epoch.toNat == e && x.block == n)

/-- A landed block that no read gives any more: it fails its CRC-64 or is malformed, and fails so again when it is read
a second time, for nothing has written it between (R296, R304). -/
def Join.unreadable (j : Join) (site e n : Nat) : Bool := match j.landedBlock site e n with
  | some x => (planeRead true x.data).isNone
  | none => false

/-- Block `n` of a delta as FP32 bytes: from the landing store, or from a verified bundle that waits for room (kept with
its header). -/
def Join.deltaBlock (j : Join) (site e n : Nat) : Option (List Byte) :=
  match j.landedBlock site e n with
  | some x => (planeRead true x.data).map (·.data)
  | none => (j.rx.filterMap (·.verified)).findSome? (fun t =>
      if byteAt t 1 == site && beAt t 4 4 == e then ((bundleBlocks (t.drop 64)).find? (fun q => q.1 == n)).map (·.2)
      else none)

/-- FP32 elements that no rule gives: the block is not held (log 56). -/
def freeElems (base n : Nat) : List (Flagged Val) :=
  (List.range n).map (fun i => (val32 ((Config.freeValue (base + i)).setWidth 32), (0 : W32)))

/-- FP32 bytes read as operands under FTZ. -/
def ops32 (ftz : Bool) (bs : List Byte) : List (Flagged Val) := (chunks 4 bs).map (fun e => in32 ftz (leNat e))

/-- The deltas that an entry admits, in ascending site, then ascending epoch: (site, epoch, weight). -/
def Ledger.order (l : Ledger) : List (Nat × Nat × W32) :=
  ((List.range 16).map (fun i => ([2, 1, 0].filter (fun d => (l.admitAt d).getLsbD i && decide (d ≤ l.epoch.toNat))).map
    (fun d => (i, l.epoch.toNat - d, nth l.weights d)))).flatten

/-- One block of the next base and outer momentum under FTZ: their bytes and the flags raised. -/
def State.mergeBlock (s : State) (b : Nat) (ftz : Bool) (j : Join) (p : ShardMap) (l : Ledger) (n ti k : Nat) :
    List Byte × List Byte × W32 :=
  let cnt := blockElems (p.elems (nth p.tensors ti)) k
  let base := s.readOps b ftz 1 (p.classRange ti k 4).1 cnt
  let om := s.readOps b ftz 2 (p.classRange ti k 5).1 cnt
  let ds := l.order.map (fun x => (in32 ftz x.2.2.toNat, match j.deltaBlock x.1 x.2.1 n with
    | some bs => ops32 ftz bs
    | none => freeElems (s.free + x.1 * 16384) cnt))
  let zero : Flagged Val := (.fin false 0 0, 0)
  let one := in32 ftz one32.toNat
  let mu := in32 ftz j.blk.outerMu.toNat
  let lr := in32 ftz j.blk.outerLr.toNat
  let wsum := ds.foldl (fun a d => fadd ftz a d.1) zero
  let outs := (List.range cnt).map (fun i =>
    let acc := ds.foldl (fun a d => fadd ftz a (fmul ftz d.1 (nth d.2 i))) zero
    let v := if ltVal (.fin false 0 0) wsum.1 then fmul ftz acc (fdiv ftz one wsum) else zero
    let om2 := fadd ftz (fmul ftz mu (nth om i)) v
    let step := fadd ftz v (fmul ftz mu om2)
    let b2 := fadd ftz (nth base i) (fmul ftz lr step)
    (b2, om2))
  let bb := packRow ftz 1 none (outs.map (·.1.1))
  let ob := packRow ftz 2 none (outs.map (·.2.1))
  (bb.1, ob.1, outs.foldl (fun f o => f ||| o.1.2 ||| o.2.2) (bb.2 ||| ob.2))

/-- Some block that the merge of an entry needs is not held. -/
def Join.lacks (j : Join) (p : ShardMap) (l : Ledger) : Bool :=
  l.order.any (fun x => (List.range p.deltaBlocks.length).any (fun n => (j.deltaBlock x.1 x.2.1 n).isNone))

/-- Some landed block of the deltas that an entry admits cannot be read. -/
def Join.unreadableFor (j : Join) (p : ShardMap) (l : Ledger) : Bool :=
  l.order.any (fun x => (List.range p.deltaBlocks.length).any (fun n => j.unreadable x.1 x.2.1 n))

/-- Every block of the next base and outer momentum, in map order. What a site prepares belongs to no command: it takes
the FTZ value of the bay's record as it stands (R52, log 60). -/
def State.mergeAll (s : State) (b : Nat) (j : Join) (p : ShardMap) (l : Ledger) : List (List Byte × List Byte) :=
  p.deltaBlocks.zipIdx.map (fun x =>
    let r := s.mergeBlock b (s.bay b).bind.ftz j p l x.2 x.1.1 x.1.2
    (r.1, r.2.1))

/-- The CRC-64 kept of a prepared block: over its base bytes, then its outer-momentum bytes. -/
def preparedCrc (x : List Byte × List Byte) : Nat := crc64 (x.1 ++ x.2)

/-- The outer digest: base bytes of every block, then outer-momentum bytes (R291). -/
def outerDigest (xs : List (List Byte × List Byte)) : List Byte := sha256 ((xs.map (·.1)).flatten ++ (xs.map (·.2)).flatten)

/-- The base that the regions hold: base N for a fresh bay whose next epoch is N, else base N - 1. -/
def Join.baseNow (j : Join) : Nat := if j.fresh then j.nextEpoch.toNat else j.nextEpoch.toNat - 1

/-! ### Digests (R291 to R293) -/

/-- A digest datagram's payload, its base epoch in network order (R12, R291). -/
def digestBytes (epoch phase : Nat) (d : List Byte) : List Byte := toBe 4 epoch ++ toBe 1 phase ++ zeros 3 ++ d

/-- The result prepared from the entry for an epoch. -/
def Join.prepared? (j : Join) (e : Nat) : Option Prepared := j.prepared.find? (fun p => p.epoch.toNat == e)

def Join.setPrepared (j : Join) (p : Prepared) : Join :=
  { j with prepared := j.prepared.filter (fun x => x.epoch != p.epoch) ++ [p] }

/-- Until when the digests of an entry may be resent: the end of their wait (R292). -/
def State.digestTime (s : State) (j : Join) (e : Nat) : Nat := s.finalTime j e + j.blk.digestUs * 1000

/-- Sends this device's digest to its peers at every site in PRESENT. -/
def State.sendDigest (s : State) (b : Nat) (j : Join) (l : Ledger) (phase : Nat) (d : List Byte) : State :=
  (j.others.filter (fun i => l.present.getLsbD i)).foldl (fun s i =>
    s.startCtl b i 4 (l.epoch + 1) (s.digestTime j l.epoch.toNat) (digestBytes (l.epoch.toNat + 1) phase d)) s

/-- Prepares from the best entry held for epoch `e`, when the regions hold base `e` and nothing newer is prepared. -/
def State.prepareFrom (s : State) (b e : Nat) : State :=
  s.onJoined b (fun j =>
    match (s.bay b).train.map, j.entry? e with
    | some p, some l =>
      let old := (j.prepared? e).map (·.takeover)
      if j.detached || j.baseNow != e || !j.passMarks.isEmpty || (old.isSome && old == some l.takeover) then s
      else
        let xs := s.mergeAll b j p l
        let d := outerDigest xs
        let lacks := j.lacks p l
        let s := s.setJoin b (fun j => j.setPrepared ⟨l.epoch, l.takeover, xs.map preparedCrc, d, 0, false, none, false⟩)
        let s := if lacks then s.useFree (16 * 16384) else s
        s.sendDigest b j l 0 d
    | _, _ => s)

/-- Prepares whatever entry the regions are ready for. -/
def State.prepareNow (s : State) (b : Nat) : State := s.onJoined b (fun j => s.prepareFrom b j.baseNow)

/-- Digests of a base from the other sites in PRESENT: each site's latest phase, or phase 0 alone. -/
def Join.digestsOf (j : Join) (l : Ledger) (latest : Bool) : List DigestRec :=
  (j.others.filter (fun i => l.present.getLsbD i)).filterMap (fun i =>
    let ds := j.digests.filter (fun d => d.site == i && d.epoch == l.epoch + 1)
    match (if latest then ds.find? (fun d => d.phase == 1) else none) with
    | some d => some d
    | none => ds.find? (fun d => d.phase == 0))

/-- The value reported by the most sites, as (site, digest) pairs; a tie goes to the tally site's value, then to the
lowest site's. -/
def matchingValue (tally : Nat) (ds : List (Nat × List Byte)) : Option (List Byte) :=
  let count := fun (d : List Byte) => (ds.filter (fun x => x.2 == d)).length
  let best := ds.foldl (fun m x => max m (count x.2)) 0
  let top := ds.filter (fun x => count x.2 == best)
  match top.find? (fun x => x.1 == tally) with
  | some x => some x.2
  | none => (top.head?).map (·.2)

end Sys2Proof.Machine
end

