-- ==== Sys2Proof/Machine/Bundles.lean ====
section
/-!
DEFINITION. Bundles (R279, R281 to R284, R296): forming and sending them, SACKs and resends, receiving and landing, and
what SCARF_LEAVE waits for. The rows BUNDLE_GRANT, BUNDLE_LANDING, FRAGMENT, SACK, ACK_TIMER, RTO_EXPIRY,
PEER_UNREACHABLE, CONTROL_ACKNOWLEDGEMENT and SCARF_CANCEL.
-/
namespace Sys2Proof.Machine

/-! ### Releases (R283, R289, Table 7.8) -/

/-- A bundle that a destination still needs. -/
def Bundle.open_ (x : Bundle) : Bool := x.dests.any (fun d => d.2 == DestState.waiting || d.2 == DestState.granted)

/-- A far-exchange command of the join runs. -/
def Join.working (j : Join) : Bool := j.close.isSome || j.catchup.isSome

/-- SCARF_LEAVE completes when every sent bundle is acknowledged or its epoch deadline has passed; the areas and the slot
are free from then on. -/
def State.settleLeave (s : State) (b : Nat) : State := s.onJoined b (fun j =>
  match j.leave with
  | none => s
  | some adm =>
    if j.working || j.bundles.any (fun x => x.dests.any (fun d => d.2 == DestState.granted) &&
        decide (s.now < s.finalTime j (x.epoch.toNat + 2))) then s
    else (s.setBay b (fun y => { y with join := none })).finishNat adm .ok 0)

/-- Bundles that every destination has released leave the retransmit buffer; an own delta that has served the rebase
of the next close, and whose bundles are released, leaves the landing store. -/
def Join.tidy (j : Join) : Join :=
  let bundles := j.bundles.filter Bundle.open_
  { j with
    bundles := bundles
    landed := j.landed.filter (fun (x : Landed) =>
      !(x.site == j.blk.thisSite && !j.detached && decide (x.epoch.toNat + 2 ≤ j.nextEpoch.toNat) &&
        !bundles.any (fun u => u.epoch == x.epoch) && !j.forms.any (fun f => f.epoch == x.epoch))) }

def State.tidyJoin (s : State) (b : Nat) : State := (s.setJoin b Join.tidy).settleLeave b

/-! ### Room (R275, R279, R284) -/

/-- Bytes of the landing store in use. -/
def Join.landedBytes (j : Join) : Nat := (j.landed.map (·.data.length)).sum

/-- A landing of `n` bytes has room. -/
def Join.landRoom (j : Join) (n : Nat) : Bool := decide (j.landedBytes + n ≤ j.blk.landLen)

/-- GiB of the retransmit buffer, of the receive area (R138). -/
def Join.rtxGib (j : Join) : Nat := if j.blk.rtxGib = 0 then 12 else j.blk.rtxGib

def Join.recvGib (j : Join) : Nat := if j.blk.recvGib = 0 then 16 else j.blk.recvGib

/-- Some of a bundle is held. -/
def RxBundle.holds (x : RxBundle) : Bool := !x.frags.isEmpty || x.verified.isSome

/-- Bytes of the receive area in use: every bundle held in part or whole has its room (log 54). -/
def Join.recvBytes (j : Join) : Nat := ((j.rx.filter RxBundle.holds).map (fun x => x.count * 8192)).sum

/-! ### Forming (R279) -/

/-- Blocks from the head of a list that fit in `room` bytes; at least one. -/
def takeFit (room : Nat) : Bool → List (List Byte) → List (List Byte)
  | _, [] => []
  | first, x :: xs => if first || decide (x.length ≤ room) then x :: takeFit (room - x.length) false xs else []

/-- Ciphertext of a bundle at most: 1 MiB less header and tag. -/
def bundleRoom : Nat := 1048496

/-- The bundle header (Table 11.3), in network order (R12). -/
def bundleHeader (j : Join) (epoch seq : W32) (index first count len total : Nat) (last : Bool) : List Byte :=
  toBe 1 1 ++ toBe 1 j.blk.thisSite ++ toBe 1 j.blk.thisMember ++ toBe 1 (if last then 1 else 0) ++ toBe 4 epoch.toNat ++
    toBe 4 seq.toNat ++ toBe 4 index ++ toBe 4 first ++ toBe 4 count ++ toBe 4 len ++ toBe 4 total ++
    toBe 8 j.blk.noncePrefix.toNat ++ zeros 24

/-- The landed blocks of an own delta from block `n` on, as they are packed: each checked by its CRC-64, which is then
left out. The list ends before a block that cannot be read (R296). -/
def Join.ownBlocks (j : Join) (e n total : Nat) : List (List Byte) :=
  ((List.range' n (total - n)).takeWhile (fun k => !j.unreadable j.blk.thisSite e k)).filterMap (fun k =>
    (j.landedBlock j.blk.thisSite e k).map (fun x => planeStripCrc x.data))

/-- The next bundle of a delta; nothing while the key is erased or the retransmit buffer is full (R32, R314). -/
def State.formOne (s : State) (b : Nat) (f : Form) (total : Nat) : State × Option Form :=
  match (s.bay b).join with
  | none => (s, none)
  | some j =>
    match (s.bay b).joinKey j with
    | none => (s, none)
    | some key =>
      let bs := takeFit bundleRoom true (j.ownBlocks f.epoch.toNat f.next total)
      let text := bs.flatten
      let last := decide (total ≤ f.next + bs.length)
      let h := bundleHeader j f.epoch j.nextSeq f.formed f.next bs.length text.length total last
      let used := (j.bundles.map (·.bytes.length)).sum
      if bs.isEmpty || decide (j.rtxGib * gib < used + text.length + 80) then (s, none)
      else
        let c := gcmEncrypt key (farNonce j.blk.noncePrefix j.nextSeq) h text
        let x : Bundle := {
          seq := j.nextSeq, epoch := f.epoch, index := f.formed, bytes := h ++ c.1 ++ c.2
          dests := j.others.map (fun i => (i, if j.unreach.contains i then .unreachable else .waiting))
          got := [], sentAt := [], resends := []
          heldSince := if (s.farUp j).isEmpty then some s.clock.uptime else none }
        let g : Form := ⟨f.epoch, f.formed + 1, f.next + bs.length⟩
        (s.setJoin b (fun j => { j with
          nextSeq := j.nextSeq + 1
          bundles := if x.open_ then j.bundles ++ [x] else j.bundles
          parts := j.parts ++ [⟨j.blk.thisSite, f.epoch, f.formed, f.next, bs.length, last, total, s.now⟩]
          forms := j.forms.map (fun (y : Form) => if y.epoch == f.epoch then g else y) }), some g)

/-- Bundles of one delta until it is whole or must wait. -/
def State.formMany : Nat → Nat → Nat → Form → State → State
  | 0, _, _, _, s => s
  | n + 1, b, total, f, s =>
    if total ≤ f.next then s
    else match s.formOne b f total with
      | (s, some g) => State.formMany n b total g s
      | (s, none) => s

/-- A delta may be formed: its close runs, or has completed (R284). -/
def Join.mayForm (j : Join) (f : Form) : Bool := decide (f.epoch.toNat < j.nextEpoch.toNat) || match j.close with
  | some c => c.passed && c.epoch == f.epoch
  | none => false

/-- Every delta that may be formed; one of a completed close is forgotten when it is whole. STALL_FORM to STALL_SEND count
whenever some delta is still to be formed, be it held back by its close or by a full retransmit buffer (R32). -/
def State.formAll (s : State) (b : Nat) : State := s.onJoined b (fun j =>
  let total := match (s.bay b).train.map with
    | some p => p.deltaBlocks.length
    | none => 0
  let ready := j.forms.filter j.mayForm
  let s := ready.foldl (fun s f => State.formMany total b total f s) (if j.forms.isEmpty then s else s.stageStalls b)
  s.setJoin b (fun j => { j with forms := j.forms.filter (fun (f : Form) =>
    !(decide (total ≤ f.next) && decide (f.epoch.toNat < j.nextEpoch.toNat))) }))

/-! ### Sending (R281, R284) -/

/-- A fragment's datagram. -/
def fragBytes (j : Join) (x : Bundle) (site f now : Nat) : List Byte :=
  let n := ceilDiv x.bytes.length 8192
  let p := slice x.bytes (8192 * f) 8192
  scarfHeader 0 j.blk.thisSite site j.blk.thisMember f x.seq.toNat x.epoch.toNat p.length n now 0 ++ p

/-- Fragments of a bundle that a destination has not reported held. -/
def Bundle.missing (x : Bundle) (site : Nat) : List Nat :=
  (List.range (ceilDiv x.bytes.length 8192)).filter (fun f => !x.got.contains (site, f))

/-- The missing fragments of a bundle are sent to a site. -/
def State.sendFrags (s : State) (b : Nat) (j : Join) (x : Bundle) (site : Nat) : State :=
  (x.missing site).foldl (fun s f => s.sendDgram b f site (fragBytes j x site f s.now)) s

def Join.setBundle (j : Join) (seq : W32) (f : Bundle → Bundle) : Join :=
  { j with bundles := j.bundles.map (fun (x : Bundle) => if x.seq == seq then f x else x) }

def Bundle.setDest (x : Bundle) (site : Nat) (d : DestState) : Bundle :=
  { x with dests := x.dests.map (fun y => if y.1 == site then (site, d) else y) }

/-- A bay has a bundle that transmit arbitration may grant: it runs (R195), a named port is UP, and it is not leaving with
its commands ended (Table 7.8). -/
def State.farWaits (s : State) (b : Nat) : Bool := (s.bay b).runs && match (s.bay b).join with
  | some j => j.joining.isNone && !(s.farUp j).isEmpty && !(j.leave.isSome && !j.working) && j.bundles.any Bundle.waits
  | none => false

/-- The bays with a share that have bundles waiting. -/
def State.farBays (s : State) : List Nat :=
  (List.range 16).filter (fun b => s.farWaits b && decide (0 < (s.bay b).bind.farShare))

/-- Bytes granted to a bay since the bays that wait last changed. -/
def State.farGranted (s : State) (b : Nat) : Nat :=
  if s.farSent.map (·.1) == s.farBays then (assoc s.farSent b).getD 0 else 0

/-- It is the bay's turn at the far ports (R203): of the bays with a share the one that has been granted the fewest bytes
for its share, the lowest number in a tie; a bay without a share only when no bay with one waits (log 74). -/
def State.farTurn (s : State) (b : Nat) : Bool :=
  let share := fun (o : Nat) => (s.bay o).bind.farShare
  s.farWaits b && (if share b = 0 then s.farBays.isEmpty
    else s.farBays.all (fun o =>
      let mine := s.farGranted b * share o
      let its := s.farGranted o * share b
      decide (mine < its) || (decide (mine = its) && decide (b ≤ o))))

/-- A bay with a share is granted `n` bytes. -/
def State.grantBytes (s : State) (b n : Nat) : State :=
  { s with farSent := s.farBays.map (fun o => (o, s.farGranted o + (if o = b then n else 0))) }

/-- BUNDLE_GRANT: in its bay's turn the pair wins transmit arbitration and is sent whole (R203, R284). -/
def execBundleGrant (bay : Nat) (seq : W32) (site : Nat) (s : State) : Host.Outcome State Fault Refusal :=
  .next (s.onJoined bay (fun j =>
    match j.bundles.find? (fun x => x.seq == seq) with
    | none => s
    | some x =>
      if assoc x.dests site != some DestState.waiting || !s.farTurn bay then s
      else
        let s := (s.grantBytes bay x.bytes.length).stageStalls bay
        let s := s.sendFrags bay j x site
        (s.setJoin bay (fun j => { j with granted := j.granted ++ [(x.epoch, seq, site)] })).setJoin bay (fun j => j.setBundle seq (fun x => { (x.setDest site .granted) with
          sentAt := assocSet x.sentAt site s.clock.uptime, heldSince := none }))))

/-- SCARF_CANCEL (R187): its counts are of pairs of a bundle and a destination (log 57); a pair granted before counts
whether or not its bundle is still buffered. -/
def execScarfCancel (h : Hdr) (epoch : W32) (site : Nat) (seq : W32) (s : State) : Host.Outcome State Fault Refusal :=
  .next (s.onRunning (.scarfCancel h epoch site seq) (fun c =>
    match c.bay? with
    | none => s
    | some b =>
      match (s.bay b).join with
      | none => s.fail h.adm .notBound
      | some j =>
        if j.joining.isSome then s.fail h.adm .notBound
        else
          let hit := fun (x : Bundle) (d : Nat × DestState) =>
            x.epoch == epoch && (seq == 0xFFFFFFFF || x.seq == seq) && (site == 0xFF || d.1 == site)
          let won := fun (x : Bundle) (d : Nat × DestState) => (assoc x.sentAt d.1).isSome
          let pairs := (j.bundles.map (fun x => (x.dests.filter (hit x)).map (fun d => (x, d)))).flatten
          let granted := (j.granted.filter (fun g => g.1 == epoch && (seq == 0xFFFFFFFF || g.2.1 == seq) &&
            (site == 0xFF || g.2.2 == site))).length
          let gone := (pairs.filter (fun q => !won q.1 q.2 && q.2.2 != DestState.cancelled)).length
          let s := s.setJoin b (fun j => { j with bundles := j.bundles.map (fun (x : Bundle) => { x with
            dests := x.dests.map (fun d => if hit x d && !won x d then (d.1, DestState.cancelled) else d) }) })
          (s.finishNat h.adm (if granted = 0 then .ok else .tooLate) (gone + granted * 2 ^ 32)).tidyJoin b))

/-! ### SACKs (R282, Table 11.6) -/

/-- The least sequence number of a site that is not complete, from `n` on. -/
def firstMissing (done : List Nat) : Nat → Nat → Nat
  | 0, n => n
  | f + 1, n => if done.contains n then firstMissing done f (n + 1) else n

/-- Runs of consecutive numbers of an ascending list, as (first, past the last). -/
def runsOf : List Nat → List (Nat × Nat)
  | [] => []
  | x :: xs => match runsOf xs with
    | (lo, hi) :: rest => if lo = x + 1 then (x, hi) :: rest else (x, x + 1) :: (lo, hi) :: rest
    | [] => [(x, x + 1)]

/-- The SACK of this site for a sender, in network order (R12). -/
def Join.sackBytes (j : Join) (site : Nat) : List Byte :=
  let done := sortBy (fun a b => decide (a ≤ b)) ((j.complete.filter (fun x => x.1 == site)).map (·.2.toNat))
  let cum := firstMissing done done.length 0
  let rs := (runsOf (done.filter (fun n => decide (cum ≤ n)))).take 16
  let ps := (j.rx.filter (fun x => x.site == site && x.verified.isNone)).take 4
  toBe 4 cum ++ toBe 1 rs.length ++ toBe 1 ps.length ++ zeros 2 ++
    (rs.map (fun r => toBe 4 r.1 ++ toBe 4 (r.2 % 2 ^ 32))).flatten ++
    (ps.map (fun p => toBe 4 p.seq.toNat ++ toBe 16 ((p.frags.map (fun f => 2 ^ f.1)).sum))).flatten

/-- Sends the SACK due to a site. -/
def State.sendSack (s : State) (b site : Nat) : State := s.onJoined b (fun j =>
  let echo := ((assoc j.ackDue site).map (·.2.2)).getD 0
  let p := j.sackBytes site
  let s := s.setJoin b (fun j => { j with ackDue := assocDel j.ackDue site })
  s.sendDgram b 0 site (scarfHeader 1 j.blk.thisSite site j.blk.thisMember 0 0 0 p.length 0 s.now echo ++ p))

/-- ACK_TIMER: 100 us after the first fragment not yet acknowledged (R282). -/
def execAckTimer (bay site : Nat) (s : State) : Host.Outcome State Fault Refusal :=
  .next (s.onJoined bay (fun j =>
    match assoc j.ackDue site with
    | some d => if d.2.1 + 100000 ≤ s.clock.uptime then s.sendSack bay site else s
    | none => s))

/-- What a SACK's payload says: CUM, complete ranges, bitmaps of partly received bundles. -/
def sackOf (k : List Byte) : Nat × List (Nat × Nat) × List (Nat × Nat) :=
  let nr := min (byteAt k 4) 16
  let np := min (byteAt k 5) 4
  (beAt k 0 4, (List.range nr).map (fun i => (beAt k (8 + 8 * i) 4, beAt k (12 + 8 * i) 4)),
    (List.range np).map (fun i => (beAt k (8 + 8 * nr + 20 * i) 4, beAt k (12 + 8 * nr + 20 * i) 16)))

/-- A bundle counts as complete in a SACK. -/
def sackDone (k : Nat × List (Nat × Nat) × List (Nat × Nat)) (seq : W32) : Bool :=
  serialBefore seq (BitVec.ofNat 32 k.1) ||
    k.2.1.any (fun r => decide ((seq - BitVec.ofNat 32 r.1).toNat < (BitVec.ofNat 32 r.2 - BitVec.ofNat 32 r.1).toNat))

/-- SACK: acknowledged bundles are released, the round trip is measured, reported fragments are noted (R283). -/
def execSack (bay port : Nat) (d : Dgram) (s : State) : Host.Outcome State Fault Refusal :=
  .next ((s.takeDgram bay port 1 d (fun s _ =>
    let k := sackOf d.payload
    let site := d.srcSite
    let sample := s.now - d.echo
    (s.stageStalls bay).setJoin bay (fun j => { j with
      srtt := assocSet j.srtt site (match assoc j.srtt site with
        | some r => (7 * r + sample) / 8
        | none => sample)
      bundles := j.bundles.map (fun (x : Bundle) =>
        if (assoc x.dests site) == some DestState.granted && sackDone k x.seq then x.setDest site .acked
        else match k.2.2.find? (fun p => p.1 == x.seq.toNat) with
          | some p => { x with got := x.got.filter (fun g => g.1 != site) ++
              ((List.range 128).filter (fun f => p.2.testBit f)).map (fun f => (site, f)) }
          | none => x) }))).tidyJoin bay)

/-! ### Resends (R281, R283) -/

/-- RTO of a destination. -/
def Join.rto (j : Join) (site : Nat) : Nat := match assoc j.srtt site with
  | some r => max 1000000 (2 * r)
  | none => 100000000

/-- The RTO of a fragment resent `n` times: doubled by each resend up to 1 s. -/
def rtoAfter (rto n : Nat) : Nat := max rto (min (rto * 2 ^ n) 1000000000)

/-- RTO_EXPIRY: what is unacknowledged for its RTO is sent again, a joining bay's hello too; a control datagram whose
window has ended is not. -/
def execRtoExpiry (bay site : Nat) (s : State) : Host.Outcome State Fault Refusal :=
  .next ((s.onJoin bay (fun j =>
    let rto := j.rto site
    let late := fun (x : Bundle) =>
      assoc x.dests site == some DestState.granted && match assoc x.sentAt site with
        | some t => decide (t + rtoAfter rto ((assoc x.resends site).getD 0) ≤ s.clock.uptime)
        | none => false
    let s := (j.bundles.filter late).foldl (fun s x => s.sendFrags bay j x site) s
    let due := j.ctlOut.filter (fun c => c.site == site && decide (s.now < c.until_) && decide (c.sentAt + rto ≤ s.clock.uptime))
    let s := due.foldl (fun s c => s.sendCtl bay site c.kind c.seq c.epoch c.stamp 0 c.payload) s
    s.setJoin bay (fun j => { j with
      bundles := j.bundles.map (fun (x : Bundle) => if late x then { x with
        sentAt := assocSet x.sentAt site s.clock.uptime
        resends := assocSet x.resends site ((assoc x.resends site).getD 0 + 1) } else x)
      ctlOut := (j.ctlOut.filter (fun (c : CtlOut) => !(c.site == site && decide (c.until_ ≤ s.now)))).map (fun (c : CtlOut) =>
        if due.contains c then { c with sentAt := s.clock.uptime } else c) }))).settleLeave bay)

/-- CONTROL_ACKNOWLEDGEMENT: the datagram whose SEQ it echoes is resent no more (R281). -/
def execControlAcknowledgement (bay port : Nat) (d : Dgram) (s : State) : Host.Outcome State Fault Refusal :=
  .next (s.takeCtl bay port 7 d (fun s _ p =>
    s.setJoin bay (fun j => { j with ctlOut := j.ctlOut.filter (fun (c : CtlOut) =>
      !(c.site == d.srcSite && c.seq.toNat == beAt p 0 4)) })))

/-- PEER_UNREACHABLE: no datagram from a destination for 2 s (R283). -/
def execPeerUnreachable (bay site : Nat) (s : State) : Host.Outcome State Fault Refusal :=
  .next ((s.onJoined bay (fun j =>
    match assoc j.lastHeard site with
    | some t =>
      if t + 2000000000 ≤ s.clock.uptime && !j.unreach.contains site then
        s.setJoin bay (fun j => { j with
          unreach := j.unreach ++ [site]
          bundles := j.bundles.map (fun (x : Bundle) => { x with dests := x.dests.map (fun d =>
            if d.1 == site && (d.2 == DestState.waiting || d.2 == DestState.granted) then (site, DestState.unreachable)
            else d) }) })
      else s
    | none => s)).tidyJoin bay)

/-! ### Receiving (R282, R284) -/

/-- A delta that has already been dropped or merged (R284). -/
def Join.stale (j : Join) (site : Nat) (e : W32) : Bool :=
  j.dropped.contains (site, e) || j.merged.contains (site, e) || decide (e.toNat < j.oldEpochs)

/-- A bundle leaves the receive area. -/
def Join.discardRx (j : Join) (site : Nat) (seq : W32) : Join :=
  { j with rx := j.rx.filter (fun (x : RxBundle) => !(x.site == site && x.seq == seq)) }

/-- A bundle is discarded whole; SACKs report it with every fragment missing until one arrives again (R282). -/
def Join.emptyRx (j : Join) (site : Nat) (seq : W32) : Join :=
  { j with rx := j.rx.map (fun (x : RxBundle) =>
    if x.site == site && x.seq == seq then { x with frags := [], verified := none } else x) }

/-- All fragments of a bundle are here: its tag decides. `x` holds them in any order. -/
def State.verifyRx (s : State) (b : Nat) (j : Join) (key : List Byte) (x : RxBundle) : State :=
  let bytes := ((List.range x.count).map (fun f => (assoc x.frags f).getD [])).flatten
  let h := bytes.take 64
  let body := bytes.drop 64
  let ct := body.take (body.length - 16)
  let good := decide (80 ≤ bytes.length) && byteAt h 1 == x.site && byteAt h 2 == j.blk.thisMember &&
    beAt h 8 4 == x.seq.toNat
  match if good then gcmDecrypt key (farNonce (BitVec.ofNat 64 (beAt h 0x20 8)) x.seq) h ct (body.drop ct.length) else none with
  | none => (s.setJoin b (fun j => j.emptyRx x.site x.seq)).countBay b 11 1
  | some text =>
    let e := BitVec.ofNat 32 (beAt h 4 4)
    let s := s.setJoin b (fun j => { j with complete := j.complete ++ [(x.site, x.seq)] })
    if j.stale x.site e then (s.setJoin b (fun j => j.discardRx x.site x.seq)).countBay b 13 1
    else s.setJoin b (fun j => { j with
      rx := j.rx.map (fun (y : RxBundle) =>
        if y.site == x.site && y.seq == x.seq then { y with frags := [], verified := some (h ++ text) } else y)
      parts := j.parts ++ [⟨x.site, e, beAt h 0xC 4, beAt h 0x10 4, beAt h 0x14 4, byteAt h 3 % 2 == 1, beAt h 0x1C 4, s.now⟩] })

/-- A fragment placed in its bundle, or discarded: the bundle is complete already, the fragment does not fit its
bundle, or the receive area has no room for it. -/
def State.placeFrag (s : State) (b : Nat) (j : Join) (key : List Byte) (d : Dgram) : State :=
  match j.rx.find? (fun x => x.site == d.srcSite && x.seq == d.seq) with
  | some x =>
    if x.verified.isSome || (x.count != d.fragCount && !x.frags.isEmpty) || (assoc x.frags d.frag).isSome then s
    else
      let y := { x with count := d.fragCount, frags := x.frags ++ [(d.frag, d.payload)] }
      let s := s.setJoin b (fun j => { j with rx := j.rx.map (fun (z : RxBundle) =>
        if z.site == d.srcSite && z.seq == d.seq then y else z) })
      if y.frags.length == y.count then s.verifyRx b j key y else s
  | none =>
    let y : RxBundle := ⟨d.srcSite, d.seq, d.fragCount, [(d.frag, d.payload)], none⟩
    let s := s.setJoin b (fun j => { j with rx := j.rx ++ [y] })
    if y.count == 1 then s.verifyRx b j key y else s

/-- The fragment's own fields are in range: whole fragments but for the last (R281). -/
def dgramFragOk (d : Dgram) : Bool :=
  decide (1 ≤ d.fragCount) && decide (d.fragCount ≤ 128) && decide (d.frag < d.fragCount) &&
    (if d.frag + 1 = d.fragCount then decide (1 ≤ d.payload.length) && decide (d.payload.length ≤ 8192)
     else d.payload.length == 8192)

/-- FRAGMENT: the receive area holds it until its bundle is whole; every 32 fragments a SACK is sent (R282, R284). -/
def execFragment (bay port : Nat) (d : Dgram) (s : State) : Host.Outcome State Fault Refusal :=
  .next (s.takeDgram bay port 0 d (fun s j =>
    match (s.bay bay).joinKey j with
    | none => s
    | some key =>
      let known := j.complete.contains (d.srcSite, d.seq)
      let held := j.rx.any (fun x => x.site == d.srcSite && x.seq == d.seq && x.holds)
      if !dgramFragOk d then s
      else if !known && !held && decide (j.recvGib * gib < j.recvBytes + d.fragCount * 8192) then s.countBay bay 12 1
      else
        let s := if known then s else s.placeFrag bay j key d
        let n := match assoc j.ackDue d.srcSite with
          | some (n, t, e) => (n + 1, t, max e d.sent)
          | none => (1, s.clock.uptime, d.sent)
        let s := s.setJoin bay (fun j => { j with ackDue := assocSet j.ackDue d.srcSite n })
        if 32 ≤ n.1 then s.sendSack bay d.srcSite else s))

/-! ### Landing (R284, R296, R304) -/

/-- The blocks of a verified bundle are those its header names, each a Plane block of FP32 against zero. -/
def bundleGood (h : List Byte) (xs : List PlaneBlock) : Bool :=
  xs.length == beAt h 0x14 4 &&
    xs.zipIdx.all (fun x => x.1.elemW == 4 && x.1.refZero && x.1.block == beAt h 0x10 4 + x.2)

/-- The coded blocks of a sequence, cut apart. -/
def cutBlocks : List PlaneBlock → List Byte → List (List Byte)
  | [], _ => []
  | x :: xs, bs => bs.take x.size :: cutBlocks xs (bs.drop x.size)

/-- A malformed block: the whole bundle is discarded, counted and reported missing. -/
def State.badBundle (s : State) (bay site : Nat) (seq e : W32) (h : List Byte) : State :=
  (s.setJoin bay (fun j => { (j.emptyRx site seq) with
    complete := j.complete.filter (fun x => x != (site, seq))
    parts := j.parts.filter (fun (x : DeltaPart) => !(x.site == site && x.epoch == e && x.index == beAt h 0xC 4)) })).countBay
      bay 14 1

/-- BUNDLE_LANDING: a verified bundle lands when the landing store has room for it. -/
def execBundleLanding (bay site : Nat) (seq : W32) (s : State) : Host.Outcome State Fault Refusal :=
  .next (s.onJoined bay (fun j =>
    match (j.rx.find? (fun x => x.site == site && x.seq == seq)).bind (·.verified) with
    | none => s
    | some t =>
      let h := t.take 64
      let body := t.drop 64
      let e := BitVec.ofNat 32 (beAt h 4 4)
      if j.stale site e then (s.setJoin bay (fun j => j.discardRx site seq)).countBay bay 13 1
      else
        match if s.codecLanes.isEmpty then none else planeReadAll false body.length body with
        | none => s.badBundle bay site seq e h
        | some xs =>
          if !bundleGood h xs then s.badBundle bay site seq e h
          else
            let ls := ((cutBlocks xs body).map planeAddCrc).zipIdx.map (fun x => Landed.mk site e (beAt h 0x10 4 + x.2) x.1)
            if !j.landRoom ((ls.map (·.data.length)).sum) then s.stageStalls bay
            else s.setJoin bay (fun j => { (j.discardRx site seq) with landed := j.landed ++ ls })))

end Sys2Proof.Machine
end

