-- ==== Sys2Proof/Machine/Catchup.lean ====
section
/-!
DEFINITION. Catch-up data (R293, R294, R338): the request and data payloads (log 55), what a source serves, how a
requester stages and assembles it, and the rows SCARF_CATCHUP, CATCHUP_REQUEST and CATCHUP_TIMEOUT.
-/
namespace Sys2Proof.Machine

/-! ### Payloads (log 55) -/

/-- A request: 0 the whole catch-up, 1 the blocks of base `epoch` and its outer momentum, 2 block `n` of the delta of
`site` and `epoch`, 3 block `n` of base `epoch` and its outer momentum (R338). -/
def requestBytes (what site epoch n : Nat) : List Byte :=
  toLe 1 what ++ toLe 1 site ++ zeros 2 ++ toLe 4 epoch ++ toLe 4 n ++ zeros 4

/-- One datagram of data: 0 a base block, 1 an outer-momentum block, 2 a ledger entry, 3 the settled digest and the count
of entries sent, 4 a delta block. -/
def dataBytes (what part parts epoch idx : Nat) (bs : List Byte) : List Byte :=
  toLe 1 what ++ toLe 1 part ++ toLe 1 parts ++ zeros 1 ++ toLe 4 epoch ++ toLe 4 idx ++ zeros 4 ++ bs

/-- An item cut into datagrams. -/
def itemData (what epoch idx : Nat) (bs : List Byte) : List (List Byte) :=
  let cs := chunks 8176 bs
  cs.zipIdx.map (fun c => dataBytes what c.2 cs.length epoch idx c.1)

/-- The key under which a part is staged: item, count of parts, part. -/
def partKey (p : List Byte) : Nat := ((byteAt p 0 * 2 ^ 32 + leAt p 8 4) * 256 + byteAt p 2) * 256 + byteAt p 1

/-- A staged item whose parts are all here. -/
def assembled (parts : List (Nat × List Byte)) (what idx : Nat) : Option (List Byte) :=
  match parts.find? (fun x => x.1 / 65536 == what * 2 ^ 32 + idx) with
  | none => none
  | some x =>
    let n := x.1 / 256 % 256
    let ps := (List.range n).map (fun i => assoc parts (((what * 2 ^ 32 + idx) * 256 + n) * 256 + i))
    if ps.all (·.isSome) then some ((ps.map (·.getD [])).flatten) else none

/-! ### The source (R294) -/

/-- Base `e` and its outer momentum as this site has them: in the regions, or prepared, final and settled. -/
def State.baseBlocks (s : State) (b : Nat) (j : Join) (e : Nat) : Option (List (List Byte × List Byte)) :=
  match (s.bay b).train.map with
  | none => none
  | some p =>
    if j.detached || !j.passMarks.isEmpty then none
    else if j.baseNow = e then
      some (p.deltaBlocks.map (fun x =>
        let r := p.classRange x.1 x.2 4
        let o := p.classRange x.1 x.2 5
        (s.readBay b r.1 r.2, s.readBay b o.1 o.2)))
    else
      match j.entry? j.baseNow, j.prepared? j.baseNow with
      | some l, some q =>
        if j.baseNow + 1 = e ∧ j.isFinal j.baseNow ∧ q.settled ∧ q.fetch.isNone then some (s.mergeAll b j p l) else none
      | _, _ => none

/-- Block `n` of a delta as it is sent, in the sealed form: without its CRC-64, from the landing store or, for an own
delta, from a bundle in the retransmit buffer (R295, Table 14.4). -/
def Bay.deltaSealed (y : Bay) (j : Join) (site e n : Nat) : Option (List Byte) :=
  match (j.landedBlock site e n).filter (fun _ => !j.unreadable site e n) with
  | some x => some (planeStripCrc x.data)
  | none =>
    if site ≠ j.blk.thisSite then none
    else (y.joinKey j).bind (fun key => j.bundles.findSome? (fun x =>
      if x.epoch.toNat ≠ e then none
      else
        let h := x.bytes.take 64
        let body := x.bytes.drop 64
        (gcmDecrypt key (farNonce j.blk.noncePrefix x.seq) h (body.take (body.length - 16))
          (body.drop (body.length - 16))).bind (fun text =>
            ((planeReadAll false text.length text).getD []).findSome? (fun q =>
              if q.block = n then some (planeEncode 4 none false n q.data) else none))))

/-- The entries of the three epochs before `x` that this site holds. -/
def Join.lastEntries (j : Join) (x : Nat) : List Ledger :=
  (List.range' (x - 3) (x - (x - 3))).filterMap (fun e => j.entry? e)

/-- A block of a base and its outer momentum as items, in the sealed form (R295). -/
def blockData (e n : Nat) (q : List Byte × List Byte) : List (List Byte) :=
  itemData 0 e n (planeEncode 4 none false n q.1) ++ itemData 1 e n (planeEncode 2 none false n q.2)

/-- The payloads that answer a request with the bytes of every block that the codec encodes for it, or none while this
site cannot answer. -/
def State.answerTo (s : State) (b : Nat) (j : Join) (k : List Byte) : Option (List Nat × List (List Byte)) :=
  let x := j.nextEpoch.toNat
  let lens := fun (bs : List (List Byte × List Byte)) => (bs.map (fun q => [q.1.length, q.2.length])).flatten
  let all := fun (e : Nat) (bs : List (List Byte × List Byte)) => (bs.zipIdx.map (fun q => blockData e q.2 q.1)).flatten
  match byteAt k 0 with
  | 0 => (s.baseBlocks b j x).map (fun bs =>
      let es := j.lastEntries x
      (lens bs, all x bs ++ (es.map (fun l => itemData 2 x l.epoch.toNat l.bytes)).flatten ++
        itemData 3 x x (outerDigest bs ++ toLe 1 es.length)))
  | 1 => (s.baseBlocks b j (leAt k 4 4)).map (fun bs => (lens bs, all (leAt k 4 4) bs))
  | 2 => ((s.bay b).deltaSealed j (byteAt k 1) (leAt k 4 4) (leAt k 8 4)).map (fun bs =>
      ([], itemData 4 (leAt k 4 4) (leAt k 8 4) bs))
  | 3 => (s.baseBlocks b j (leAt k 4 4)).map (fun bs =>
      let q := nth bs (leAt k 8 4)
      (lens [q], blockData (leAt k 4 4) (leAt k 8 4) q))
  | _ => none

/-- Answers a request, or keeps it until this site can. What the codec encodes for it is checked as R305 says, and nothing
is sent of an answer that no lane can code. -/
def State.serve (s : State) (b : Nat) (q : Nat × List Byte) : State := s.onJoined b (fun j =>
  match s.answerTo b j q.2 with
  | some (lens, ps) =>
    let r := State.useCodecs b none lens s
    if r.2 then ps.foldl (fun s p => s.startCtl b q.1 6 j.nextEpoch (s.now + 2 * j.blk.periodNs) p) r.1 else r.1
  | none => s.setJoin b (fun j => { j with requests := j.requests ++ [q] }))

/-- The requests that wait are tried again. -/
def State.serveAgain (s : State) (b : Nat) : State := s.onJoined b (fun j =>
  j.requests.foldl (fun s q => s.serve b q) (s.setJoin b (fun j => { j with requests := [] })))

/-- CATCHUP_REQUEST (R294). -/
def execCatchupRequest (bay port : Nat) (d : Dgram) (s : State) : Host.Outcome State Fault Refusal :=
  .next (s.takeCtl bay port 5 d (fun s _ p => s.serve bay (d.srcSite, p)))

/-! ### The requester -/

/-- Sends a catch-up request. -/
def State.askFor (s : State) (b : Nat) (j : Join) (site : Nat) (k : List Byte) : State :=
  s.startCtl b site 5 j.nextEpoch (s.now + 2 * j.blk.periodNs) k

/-- A staged block: in the local form, its CRC-64 set when it was staged (R294, R295), and decoded. -/
def stagedBlock (parts : List (Nat × List Byte)) (what n : Nat) : Option PlaneBlock :=
  ((assembled parts what n).map planeAddCrc).bind (planeRead true)

/-- The staged blocks of base and outer momentum, decoded. A staged block that is malformed is so again when it is read a
second time (R304). -/
def stagedBlocks (p : ShardMap) (parts : List (Nat × List Byte)) : Option (List (List Byte × List Byte)) :=
  let xs := p.deltaBlocks.zipIdx.map (fun x =>
    match stagedBlock parts 0 x.2, stagedBlock parts 1 x.2 with
    | some a, some o => some (a.data, o.data)
    | _, _ => none)
  if xs.all (·.isSome) then some (xs.map (·.getD ([], []))) else none

/-- Every item of a catch-up is here: the digest, which names X, the blocks, and the entries X - 3 to X - 1 that the source
holds. -/
def catchupWhole (p : ShardMap) (parts : List (Nat × List Byte)) : Option Nat :=
  match parts.find? (fun x => x.1 / 2 ^ 48 == 3) with
  | none => none
  | some y =>
    let x := y.1 / 65536 % 2 ^ 32
    let n := p.deltaBlocks.length
    let es := (List.range' (x - 3) (x - (x - 3))).filter (fun e => (assembled parts 2 e).isSome)
    if (match assembled parts 3 x with
      | some d => byteAt d 32 == es.length
      | none => false) && (List.range n).all (fun k => (assembled parts 0 k).isSome && (assembled parts 1 k).isSome)
    then some x else none

/-- The data matches its digest, and the value that most sites reported for its base when two or more did. -/
def Join.catchupGood (j : Join) (x : Nat) (parts : List (Nat × List Byte)) (xs : List (List Byte × List Byte)) : Bool :=
  let d := outerDigest xs
  let all := j.digests.filter (fun r => r.epoch.toNat == x)
  let last := j.others.filterMap (fun i =>
    ((all.find? (fun r => r.site == i && r.phase == 1)).orElse (fun _ => all.find? (fun r => r.site == i))).map
      (fun r => (i, r.digest)))
  let tally := if x = 0 then 0 else ((assembled parts 2 (x - 1)).map (fun k => (ledgerOf k).tally)).getD 0
  (assembled parts 3 x).map (·.take 32) == some d && (decide (last.length < 2) || matchingValue tally last == some d)

/-- The fetched base becomes the bay's: base and master the base's bytes, the outer momentum, the next epoch X (R294).
Deltas of X - 3 and before have then all been merged or dropped by the entries up to X - 1 (R289). -/
def State.adopt (s : State) (b adm : Nat) (p : ShardMap) (x : Nat) (parts : List (Nat × List Byte))
    (xs : List (List Byte × List Byte)) : State :=
  let s := (p.deltaBlocks.zip xs).foldl (fun s q =>
    let at_ := fun (c : Nat) => (p.classRange q.1.1 q.1.2 c).1
    (((s.writeBay b (at_ 4) q.2.1).writeBay b (at_ 5) q.2.2).writeBay b (at_ 0) q.2.1).markDirty b
      [p.firstBlock q.1.1 + q.1.2]) s
  let es := (List.range' (x - 3) (x - (x - 3))).filterMap (fun e => (assembled parts 2 e).map ledgerOf)
  let s := s.setJoin b (fun j =>
    let old := j.entries.filter (fun l => !es.any (fun m => m.epoch == l.epoch))
    let won := (es.map (fun l => l.order.map (fun o => (o.1, BitVec.ofNat 32 o.2.1)))).flatten
    { j with
      nextEpoch := BitVec.ofNat 32 x, fresh := true, detached := false, passMarks := [], forms := [], prepared := []
      catchup := none, entries := old ++ es, oldEpochs := max j.oldEpochs (x - 2)
      merged := j.merged ++ won.filter (fun o => !j.merged.contains o)
      landed := j.landed.filter (fun (y : Landed) =>
        y.site != j.blk.thisSite && !won.contains (y.site, y.epoch) && decide (x - 2 ≤ y.epoch.toNat)) })
  let s := (p.live.filter (fun ti => p.blocks (nth p.tensors ti) != 0)).foldl (fun s ti =>
    let t := nth p.tensors ti
    s.diffRecord b ((s.bay b).train.appliedOf ti) t.id 0 (p.blocks t) 2 3) s
  ((s.prepareNow b).finishNat adm .ok x).tidyJoin b

/-- The ranges that a catch-up writes. -/
def ShardMap.closeRanges (p : ShardMap) : List (Nat × Nat) :=
  (p.deltaBlocks.map (fun x => [0, 4, 5].map (fun c => p.classRange x.1 x.2 c))).flatten

/-- The sites that a catch-up may still ask. -/
def Catchup.left (c : Catchup) (j : Join) : List Nat :=
  if c.any then j.others.filter (fun i => !c.bad.contains i) else []

/-- A source's data did not match: the next sources are asked, or the command ends DIGEST_MISMATCH. -/
def State.badSource (s : State) (b : Nat) (j : Join) (c : Catchup) : State :=
  let c := { c with bad := c.bad ++ [c.source], source := 0xFF, parts := [] }
  match c.left j with
  | [] => ((s.setJoin b (fun j => { j with catchup := none })).fail c.adm .digestMismatch).settleLeave b
  | l => l.foldl (fun s i => s.askFor b j i (requestBytes 0 0 0 0)) (s.setJoin b (fun j => { j with catchup := some c }))

/-- A catch-up whose data is all here is verified and adopted. -/
def State.settleCatchup (s : State) (b : Nat) : State := s.onJoined b (fun j =>
  match j.catchup, (s.bay b).train.map with
  | some c, some p =>
    match catchupWhole p c.parts with
    | none => s
    | some x =>
      match stagedBlocks p c.parts with
      | none => s.badSource b j c
      | some xs =>
        if !j.catchupGood x c.parts xs then s.badSource b j c
        else match s.ioStatus b [] p.closeRanges with
          | some st => ((s.setJoin b (fun j => { j with catchup := none })).fail c.adm st).settleLeave b
          | none => s.adopt b c.adm p x c.parts xs
  | _, _ => s)

/-- SCARF_CATCHUP (R294). One that finds another running waits for its end (log 61). -/
def execScarfCatchup (h : Hdr) (site : Nat) (s : State) : Host.Outcome State Fault Refusal :=
  .next (s.onRunning (.scarfCatchup h site) (fun c =>
    match c.bay? with
    | none => s
    | some b =>
      match (s.bay b).join with
      | none => s.fail h.adm .notBound
      | some j =>
        if j.joining.isSome then s.fail h.adm .notBound
        else if 15 < site ∧ site ≠ 0xFF then s.fail h.adm .badParam
        else if j.catchup.isSome then s
        else
          let s := (s.setActive h.adm).setJoin b (fun j => { j with
            catchup := some ⟨h.adm, site == 0xFF, site, s.clock.uptime, [], []⟩ })
          (j.others.filter (fun i => site == 0xFF || i == site)).foldl (fun s i =>
            s.askFor b j i (requestBytes 0 0 0 0)) s))

/-- CATCHUP_TIMEOUT: no source has answered within 2 PERIOD_NS (R294). -/
def execCatchupTimeout (bay : Nat) (s : State) : Host.Outcome State Fault Refusal :=
  .next (s.onJoined bay (fun j =>
    match j.catchup with
    | some c =>
      if c.since + 2 * j.blk.periodNs ≤ s.clock.uptime then
        ((s.setJoin bay (fun j => { j with catchup := none })).fail c.adm
          (if c.bad.isEmpty then .timeout else .digestMismatch)).settleLeave bay
      else s
    | none => s))

end Sys2Proof.Machine
end

