-- ==== Sys2Proof/Machine/Power.lean ====
section
/-!
DEFINITION. Power, alarms, thermal protection and clocks (R313, R314, R382, R389, R402, R403, R410, R413 to R416):
POWER_DOWN, INPUT_FAULT, KEY_ALARM, THERMAL_TRIP, JTAG_INSTRUCTION_LOAD, JTAG_TRST_N, THERMAL_SENSOR_SAMPLE,
PROTECTION_LEVEL_EXIT, DRAM_THERMAL_HOLD, DRAM_THERMAL_RELEASE, LANE_LOSS_OF_LOCK (R251, R284), PLL_LOSS_OF_LOCK
and CXL_LINK_DOWN.
-/
namespace Sys2Proof.Machine

/-! ### Key erasure (R191, R313, R314) -/

/-- A dispatched command holds a key slot. -/
def Slot.holdsKey (c : Slot) : Bool := c.dispatched && (match c.instr with
  | .scarfJoin _ _ _ _ => true
  | i => match keyHeldBy i with
    | some k => decide (k < 4)
    | none => false)

/-- The DST range of a holder (R191). -/
def State.holderDst (s : State) (b : Nat) (c : Slot) : Option (Nat × Nat) := match c.instr with
  | .cipherRun _ o => some (o.dst, o.length)
  | .ckptDrain _ dst _ path _ => if path = 1 then none else some (dst, (s.bay b).drainBound)
  | _ => none

/-- A holder ends ABORTED with the work done so far; its DST range is left unspecified, and nothing outside it is written
(R191). -/
def State.endHolder (s : State) (b : Nat) (c : Slot) : State :=
  let range := s.holderDst b c
  let s := match c.instr, c.phase with
    | .cipherRun _ o, .running => (s.useFree 1).finishNat c.adm .aborted (s.partResult o.length)
    | _, _ => s.cutShort b .aborted c.adm
  match range with
  | some (a, n) => if s.rangeOk b .wr a n then (s.writeBay b a (s.freeBytes n)).useFree n else s
  | none => s

/-- Every key slot of every bay is erased: holders end ABORTED, joins lose their hold, and a bay with a slot that was not
EMPTY is told. -/
def State.eraseKeys (s : State) : State :=
  (List.range 16).foldl (fun (s : State) b =>
    let any := (s.bay b).keys.any (· != KeySlot.empty)
    let s := (postOrder (s.cmds.filter (fun c => c.ofBay b && c.holdsKey))).foldl (fun (s : State) c => s.endHolder b c) s
    let s := s.setBay b (fun y => { y with
      keys := List.replicate 4 KeySlot.empty
      join := y.join.map (fun j => { j with keyHeld := false }) })
    if any then s.bayEvent b 4 else s) s

/-- An alarm, or the erase by a test instruction: latched, logged, every key slot erased (Table 12.4, R425). -/
def State.keyAlarm (s : State) (code : Nat) : State :=
  let s := { s with dev := { s.dev with alarm := s.dev.alarm ||| BitVec.ofNat 6 (2 ^ code) ||| 0x20 } }
  ((s.devCause 0).log1 { Rec.blank with code := 0x0170, kind := 18, die := 2, d0 := code }).eraseKeys

/-- KEY_ALARM: a tamper, voltage, clock or temperature condition arises. -/
def execKeyAlarm (code : Nat) (s : State) : Host.Outcome State Fault Refusal :=
  .next (if 3 < code ∨ s.dev.hold = 1 ∨ s.dev.condition.getLsbD code then s
  else
    ({ s with dev := { s.dev with condition := s.dev.condition ||| BitVec.ofNat 4 (2 ^ code) } }).keyAlarm code)

/-! ### Stopping the device -/

/-- Every bay that runs is halted without completion entries. -/
def State.haltQuiet (s : State) : State :=
  (List.range 16).foldl (fun (s : State) b =>
    if (s.bay b).runs then ((s.halt b true).1).enter b .quiescing else s) s

/-- Every domain but the security and management ones is switched off; nothing keeps its contents, and the host link is
down (R402, R405). -/
def State.domainsOff (s : State) : State :=
  let s := s.loseMemory
  { s with
    power := (List.replicate 62 false) ++ [true, true]
    cores := [], gcrt := []
    boot := { s.boot with ready := false, linkUp := false } }

/-- INPUT_FAULT: VIN48 below 38 V or above 62 V (R402). -/
def execInputFault (millivolts : Nat) (s : State) : Host.Outcome State Fault Refusal :=
  .next (if ¬(millivolts < 38000 ∨ 62000 < millivolts) then s
  else if s.dev.hold = 1 then
    { s with vin := millivolts, power := if millivolts < 30000 then List.replicate 64 false else s.power }
  else
    let s := { s with vin := millivolts }
    let s := ((s.keyAlarm 1).haltQuiet).logEvent { Rec.blank with code := 0x0184, kind := 19, die := 2, sub := 0xFFFF, d0 := millivolts }
    let s := s.domainsOff
    { s with
      dev := { s.dev with hold := 1 }
      power := if millivolts < 30000 then List.replicate 64 false else s.power })

/-- A reading in 0.25 C as a signed number. -/
def celsius4 (v : Nat) : Int := (BitVec.ofNat 16 v).toInt

/-- The die of a sensor: 24 on each compute die, then 16 on the I/O die (R413). -/
def sensorDie (i : Nat) : Nat := min 2 (i / 24)

/-- THERMAL_TRIP: a sensor at 125 C (R416). -/
def execThermalTrip (sensor reading : Nat) (s : State) : Host.Outcome State Fault Refusal :=
  .next (if s.dev.hold = 1 ∨ s.dev.thermtrip ∨ celsius4 reading < 500 then s
  else
    let s := { s with dev := { s.dev with condition := s.dev.condition ||| 8, thermtrip := true } }
    let s := ((s.keyAlarm 3).emit .thermtrip).haltQuiet
    let s := s.domainsOff.logEvent
      { Rec.blank with code := 0x0185, kind := 19, die := sensorDie sensor, sub := sensor, d0 := sensor, d1 := reading }
    { s with dev := { s.dev with hold := 4 } })

/-- JTAG_INSTRUCTION_LOAD: an instruction that drives or floats pins erases the keys, halts every bay and holds the device
in test (R389). -/
def execJtagInstructionLoad (drivesPins : Bool) (s : State) : Host.Outcome State Fault Refusal :=
  .next (if !drivesPins ∨ s.dev.hold = 1 ∨ s.dev.hold = 3 then s
  else
    let s := (s.keyAlarm 4).haltQuiet
    { s with dev := { s.dev with hold := 3 }, boot := { s.boot with ready := false, linkUp := false } })

/-- JTAG_TRST_N: a device held in test runs a cold boot. -/
def execJtagTrstN (s : State) : Host.Outcome State Fault Refusal :=
  .next (if s.dev.hold = 3 then s.coldBoot else s)

/-! ### The orderly power-down (R403) -/

/-- A bay is brought to HALTED. -/
def State.haltNow (s : State) (b : Nat) : State :=
  let s := if (s.bay b).st = .active then ((s.halt b false).1).enter b .quiescing else s
  match (s.bay b).st with
  | .quiescing =>
    match execBayHalted b s with
    | .next t => t
    | _ => s
  | .evicting => ((s.halt b false).1).endEvict b .aborted 0
  | _ => s

/-- The completion queues of the device. -/
def allCqs : List CqRef :=
  ((List.range 16).map (fun b => (List.range 8).map (CqRef.bay b))).flatten ++ [.control, .urgent]

/-- Every entry that a queue has room for is posted. -/
def State.postAll (s : State) (q : CqRef) : Nat → State
  | 0 => s
  | n + 1 =>
    let s := State.postAll s q n
    match execCompletionPost q s with
    | .next t => t
    | _ => s

/-- The power-down: bays halt with their entries posted, the history is written, the domains go off and DEV_READY falls. -/
def State.powerOff (s : State) : State :=
  let s := { s with dev := { s.dev with poweringDown := true } }
  let s := (List.range 16).foldl State.haltNow s
  let s := allCqs.foldl (fun (s : State) q => s.postAll q s.cmds.length) s
  let s := ((s.writeHistory).domainsOff).dropReady
  { s with dev := { s.dev with hold := 4 } }

/-- POWER_DOWN: the register's magic value after READY, or a request through PLDM (R403, R426). -/
def execPowerDown (req : PowerReq) (s : State) : Host.Outcome State Fault Refusal :=
  .next (match req with
  | .register v => if s.hostUp ∧ s.boot.ready ∧ v = 0x5057444E then s.powerOff else s
  | .pldm => if s.dev.hold = 0 then s.powerOff else s)

/-! ### Thermal protection (R413 to R415) -/

/-- The entry temperature of a level in 0.25 C (Table 17.7). -/
def levelEntry : Nat → Int
  | 1 => 420 | 2 => 440 | _ => 460

/-- The hottest reading of a die. -/
def State.hottest (s : State) (die : Nat) : Int :=
  (((List.range 64).filter (fun i => sensorDie i == die)).map (fun i => celsius4 (nth s.sensors i))).foldl max (-32768)

def State.setDie (s : State) (d : Nat) (f : Die → Die) : State := { s with dies := updNth s.dies d f }

/-- A die enters a level. -/
def State.enterLevel (s : State) (d level : Nat) : State :=
  (s.setDie d (fun x => { x with
    leftAt := if x.level = 0 then some s.clock.uptime else x.leftAt
    highest := if x.level = 0 then level else max x.highest level
    level := level })).devCause 5

/-- One sample of a die: two in a row at or above an entry temperature enter its level; the time since which every sensor
reads 5 C below an entry is kept. -/
def State.sampleDie (s : State) (d : Nat) : State :=
  let t := s.hottest d
  let s := s.setDie d (fun x => { x with
    hot := x.hot.zipIdx.map (fun (h : Nat × Nat) => if levelEntry (h.2 + 1) ≤ t then h.1 + 1 else 0)
    cool := x.cool.zipIdx.map (fun (c : Option Nat × Nat) =>
      if t < levelEntry (c.2 + 1) - 20 then some (c.1.getD s.clock.uptime) else none) })
  let x := nth s.dies d
  let top := ((x.hot.zipIdx.filter (fun h => decide (2 ≤ h.1))).map (fun h => h.2 + 1)).foldl max 0
  if x.level < top then s.enterLevel d top else s

/-- THERMAL_SENSOR_SAMPLE: the 64 readings in 0.25 C, with the trim of the NV overlay (Table 15.8). -/
def execThermalSensorSample (readings : List Nat) (s : State) : Host.Outcome State Fault Refusal :=
  .next (if s.dev.hold ≠ 0 then s
  else
    let s := { s with sensors := (List.range 64).map (fun i =>
      (BitVec.ofInt 16 (celsius4 (nth readings i) + nth s.nv.tempTrim i)).toNat) }
    (List.range 3).foldl State.sampleDie s)

/-- The bays whose units a hold on a die, or on a DRAM part, delays: their THERMAL_HOLD rises by held cycles that only
their timing tells (log 7). -/
def State.countHolds (s : State) (touches : Bay → Bool) : State :=
  (List.range 16).foldl (fun (s : State) b =>
    if touches (s.bay b) then (s.countBay b 5 (s.freeNow.toNat % 2 ^ 32)).useFree 1 else s) s

/-- The bay has units on the die. -/
def Bay.onDie (d half : Nat) (y : Bay) : Bool :=
  if d = 2 then y.join.isSome || !y.bind.granules.isEmpty
  else (bitsSet y.bind.clusters).any (fun lc => decide (lc / half = d))

/-- PROTECTION_LEVEL_EXIT: after 1 ms below a level's entry minus 5 C the die drops one level; back at level 0 the
THERMAL_PROTECT record is written. -/
def execProtectionLevelExit (die : Nat) (s : State) : Host.Outcome State Fault Refusal :=
  let x := nth s.dies die
  let cool : Bool := match nth x.cool (x.level - 1) with
    | some t => decide (t + 1000000 ≤ s.clock.uptime)
    | none => false
  .next (if s.dev.hold ≠ 0 ∨ 2 < die ∨ x.level = 0 ∨ !cool then s
  else
    let s := (s.setDie die (fun y => { y with level := y.level - 1 })).devCause 5
    let s := s.countHolds (Bay.onDie die (s.lclusters / 2))
    if x.level = 1 then
      (s.setDie die (fun y => { y with leftAt := none, highest := 0 })).log1 { Rec.blank with
        code := 0x0182, kind := 19, die := die, sub := 0xFFFF, d0 := s.clock.uptime - x.leftAt.getD s.clock.uptime
        d1 := x.highest }
    else s)

/-- A DRAM part of the bay's memory: a tower or a package. -/
def Bay.usesPart (tier2 : Bool) (part : Nat) (y : Bay) : Bool :=
  y.bind.granules.any (fun g => if tier2 then decide (2048 ≤ g) && decide (g < 4096)
    else decide (g < 512) && decide (g / 256 = part / 4))

/-- DRAM_THERMAL_HOLD: a tower or package reports 95 C or more; its controller holds issue (R414). -/
def execDramThermalHold (tier2 : Bool) (part : Nat) (s : State) : Host.Outcome State Fault Refusal :=
  .next (if s.dev.hold ≠ 0 ∨ s.dramHolds.any (fun h => h.tier2 == tier2 && h.part == part) then s
  else { s with dramHolds := s.dramHolds ++ [⟨tier2, part, s.clock.uptime⟩] })

/-- DRAM_THERMAL_RELEASE: below 90 C for 1 ms; the hold ends and is logged (R415). -/
def execDramThermalRelease (tier2 : Bool) (part : Nat) (s : State) : Host.Outcome State Fault Refusal :=
  .next (match s.dramHolds.find? (fun h => h.tier2 == tier2 && h.part == part) with
  | none => s
  | some h =>
    if s.dev.hold ≠ 0 ∨ s.clock.uptime < h.since + 1000000 then s
    else
      let s := { s with dramHolds := s.dramHolds.filter (fun x => x != h) }
      let s := s.countHolds (Bay.usesPart tier2 part)
      s.log1 { Rec.blank with
        code := 0x0182, kind := if tier2 then 11 else 10, die := if tier2 then 2 else part / 4, unit := part
        d0 := s.clock.uptime - h.since, d1 := 1 })

/-! ### Clocks and links (R284, R382, R410) -/

/-- LANE_LOSS_OF_LOCK: a fabric port goes on as R251 says; ports 12 and 13 are far ports 0 and 1, which a lane failure takes
DOWN (R284). -/
def execLaneLossOfLock (port lane : Nat) (s : State) : Host.Outcome State Fault Refusal :=
  .next (if port < 12 then s.laneLost port lane
  else if (nth s.far (port - 12)).state = 3 ∧ port < 14 ∧ lane < 8 then (s.setFarState (port - 12) 0).holdBundles
  else s)

/-- PLL_LOSS_OF_LOCK: class 5 in the system and host families; a port PLL takes its port DOWN. -/
def execPllLossOfLock (pll : Pll) (s : State) : Host.Outcome State Fault Refusal :=
  .next (if s.dev.hold ≠ 0 then s
  else match pll with
    | .system => s.goFatal 19
    | .host => s.goFatal 19
    | .fabricPort p =>
      if 11 < p ∨ (s.port p).state = 0 then s
      else (s.setPort p (fun x => { x with inOperation := true })).changePort p 0
    | .farPort f => if 1 < f then s else (s.setFarState f 0).holdBundles)

/-- CXL_LINK_DOWN: every access to the expander's range fails until the next cold boot. -/
def execCxlLinkDown (link : Nat) (s : State) : Host.Outcome State Fault Refusal :=
  .next (if s.dev.hold ≠ 0 ∨ nth s.t3cap link = 0 ∨ s.t3down.contains link then s
  else { s with t3down := s.t3down ++ [link] })

end Sys2Proof.Machine
end

