-- ==== Sys2Proof/Machine/Recovery.lean ====
section
/-!
DEFINITION. Recovery of unreadable lines (R338, R339): the paths of Table 14.4, the blocks asked of other sites and their
answers. The rows LINE_RECOVERY and CATCHUP_DATA.
-/
namespace Sys2Proof.Machine

/-! ### Recovery of unreadable lines (R338, R339) -/

/-- The unit of a line: tower, package, link, SRAM bank or core, with its die (R95, R117, Table 14.9). -/
def State.lineRec (s : State) (line : Nat) : Rec :=
  if line < 2 ^ 60 then
    let a := line * 64
    if inTier1 a then
      let t := a / 2 ^ 38 % 2 * 4 + a / 256 % 4
      { Rec.blank with kind := 10, die := t / 4, unit := t, sub := a / 1024 % 16, addr := a }
    else if inTier2 a then { Rec.blank with kind := 11, die := 2, unit := a / 256 % 16, addr := a }
    else { Rec.blank with kind := 12, die := 2, unit := a / 2 ^ 40 % 4, addr := a }
  else if line < 2 ^ 61 then
    let a := (line - 2 ^ 60) * 64
    let p := a / 2 ^ 25
    let bank := ((bitsSet (nth s.clusters p).goodBanks).take 64).getD (a / 64 % 64) 0
    { Rec.blank with kind := 4, die := p / 17, unit := p, sub := bank, addr := a % 2 ^ 25 }
  else
    let a := (line - 2 ^ 61) * 64
    let k := a / 2 ^ 18
    { Rec.blank with kind := 3, die := k / 170, unit := k / 10, sub := k % 10, addr := a % 2 ^ 18 }

/-- The bay of a line: the bay of the reading command, else the bay that holds its memory. -/
def State.lineBay (s : State) (line adm : Nat) : Option Nat :=
  match (s.slot? adm).bind (·.bay?) with
  | some b => some b
  | none =>
    if line < 2 ^ 60 then (List.range 16).find? (fun b => (s.bay b).bind.granules.contains (line * 64 / gib))
    else if line < 2 ^ 61 then s.bayOfPhys ((line - 2 ^ 60) * 64 / 2 ^ 25)
    else s.bayOfPhys ((line - 2 ^ 61) * 64 / 2 ^ 18 / 10)

/-- Bay addresses at which a bay sees a line. -/
def State.lineAddrs (s : State) (b line : Nat) : List Nat :=
  if line < 2 ^ 60 then
    ((s.bay b).pages.filter (fun p => decide (p.dpa ≤ line * 64) && decide (line * 64 < p.dpa + p.size))).map
      (fun p => p.addr + (line * 64 - p.dpa))
  else
    match s.lcOf ((line - 2 ^ 60) * 64 / 2 ^ 25) with
    | some lc => [lc * 2 ^ 25 + (line - 2 ^ 60) * 64 % 2 ^ 25]
    | none => []

/-- The state block of a place in a region of a tensor: bytes of the region that one block of 16,384 elements takes. -/
def blockAt (p : ShardMap) (tensor bytes off : Nat) : Nat :=
  let e := p.elems (nth p.tensors tensor)
  p.firstBlock tensor + off / max 1 (ceilDiv (bytes * 16384) (max 1 e))

/-- The kerf copy, or for a kerf line the live line, stands for a line: a cut holds intact kerf pages, and the block's
dirty bit is clear (R338). -/
def State.kerfServes (s : State) (b line : Nat) (kerfLine : Bool) : Bool :=
  match (s.bay b).ckpt.cut, (s.bay b).train.map with
  | some c, some p =>
    (c.st == .held || c.st == .drained) && (s.lineAddrs b line).any (fun a => (kerfCopies p c.layout).any (fun k =>
      let base := if kerfLine then k.2.1 else k.2.2.1
      decide (base ≤ a) && decide (a < base + k.2.2.2.1) && !c.dirty.contains (blockAt p k.2.2.2.2 k.2.2.2.1 (a - base))))
  | _, _ => false

/-- The sites that the last final ledger entry counts, other than this one, ascending. -/
def Join.lastPresent (j : Join) : List Nat := match j.entries.find? (fun e => e.epoch.toNat + 1 == j.nextFinal) with
  | some e => (bitsSet e.present).filter (· != j.site)
  | none => []

/-- The state block, as (number, tensor, block), whose base (class 4) or outer momentum (class 5) holds a line of a bay. -/
def State.blockOf (s : State) (b line cls : Nat) : Option (Nat × Nat × Nat) := match (s.bay b).train.map with
  | none => none
  | some p => (p.deltaBlocks.zipIdx.find? (fun x =>
      let r := p.classRange x.1.1 x.1.2 cls
      (s.lineAddrs b line).any (fun a => meets a 64 r.1 r.2))).map (fun x => (x.2, x.1.1, x.1.2))

/-- The CRC-64 kept of block `n` of the base that the regions hold (R290). -/
def Join.keptCrc (j : Join) (n : Nat) : Option Nat := (j.prepared? (j.baseNow - 1)).bind (fun q => q.crcs[n]?)

/-- A line of a base or outer-momentum block can be asked for: another site was present, the block's CRC-64 is kept, and
no pass has begun to change the regions. -/
def State.canAskBase (s : State) (b line cls : Nat) : Bool := match (s.bay b).join, s.blockOf b line cls with
  | some j, some x => j.joining.isNone && !j.lastPresent.isEmpty && j.baseNow != 0 && j.passMarks.isEmpty &&
      (j.keptCrc x.1).isSome
  | _, _ => false

/-- The landed blocks of this site's deltas, or of the other sites', of which an unreadable line of the landing store holds
one: which one the event does not say, so a free value does (log 7). -/
def State.lostLanded (s : State) (b : Nat) (own : Bool) : Option Landed := match (s.bay b).join with
  | none => none
  | some j =>
    let xs := j.landed.filter (fun x => (x.site == j.blk.thisSite) == own)
    xs[s.freeNow.toNat % max 1 xs.length]?

/-- The site that an own delta's block is asked of: the lowest whose vectors list this site's delta of that epoch, else
the lowest other one. -/
def Join.holderOf (j : Join) (e : Nat) : Option Nat :=
  let lists := fun (v : AdmVec) => (List.range 3).any (fun d => v.epoch.toNat == e + d &&
    ([v.hold0, v.hold1, v.hold2].getD d 0).getLsbD j.blk.thisSite)
  ((j.others.filter (fun i => j.vectors.any (fun v => v.site == i && lists v))).head?).or j.others.head?

/-- The recovery paths of a line by the kind of its data, in order (Table 14.4). -/
def State.paths (s : State) (b : Option Nat) (line : Nat) (kind : LineKind) : List Nat :=
  let kerf := fun (live : Bool) => match b with
    | some b => if s.kerfServes b line live then [2] else []
    | none => []
  let far := fun (cls : Nat) => match b with
    | some b => if s.canAskBase b line cls then [3] else []
    | none => []
  let joined := fun (b : Nat) => (((s.bay b).join).map (·.joining.isNone)).getD false
  match kind with
  | .operand => [1, 2]
  | .state _ => 1 :: kerf false
  | .base => 1 :: far 4
  | .outer => 1 :: ((if (b.map joined).getD false then kerf false else []) ++ far 5)
  | .ownDelta => 1 :: (match b with
    | some b => (match (s.bay b).join, s.lostLanded b true with
      | some j, some x =>
        (if ((s.bay b).deltaSealed { j with landed := [] } x.site x.epoch.toNat x.block).isSome then [2] else []) ++
          (if joined b ∧ (j.holderOf x.epoch.toNat).isSome then [3] else [])
      | _, _ => [])
    | none => [])
  | .otherDelta => 1 :: (match b with
    | some b => if joined b ∧ (s.lostLanded b false).isSome then [2] else []
    | none => [])
  | .kerf => 1 :: kerf true
  | .reserve => [1, 2]
  | .other => [1]

/-- An uncorrectable event counts against its bank or core (Table 14.6). -/
def State.countUncorr (s : State) (line : Nat) : State :=
  let r := s.lineRec line
  if line < 2 ^ 60 then s
  else if line < 2 ^ 61 then
    s.setCluster r.unit (fun c => { c with bankUnc := assocSet c.bankUnc r.sub ((assoc c.bankUnc r.sub).getD 0 + 1) })
  else
    let key := r.unit * 10 + r.sub
    let s := { s with season := { s.season with
      coreHits := assocSet s.season.coreHits key ((assoc s.season.coreHits key).getD 0 + 1) } }
    s.setCluster r.unit (fun c => { c with coreUnc := assocSet c.coreUnc r.sub ((assoc c.coreUnc r.sub).getD 0 + 1) })

/-- A kerf line that becomes poisoned discards its cut; a drain running on it completes MACHINE_CHECK (R339). -/
def State.loseCut (s : State) (b : Nat) : State :=
  let drain := ((s.bay b).ckpt.cut).bind (·.drain)
  let s := match drain with
    | some a => s.cutShort b .machineCheck a
    | none => s
  s.discardCut b

/-- A block of the landing store that no path gives back: no read of it succeeds any more (R339). -/
def State.loseLanded (s : State) (b : Nat) (x : Landed) : State :=
  s.setJoin b (fun j => { j with landed := j.landed.map (fun (y : Landed) =>
    if y.site == x.site && y.epoch == x.epoch && y.block == x.block then { y with data := [] } else y) })

/-- What a lost line takes with it, by the kind of its data. -/
def State.loseLine (s : State) (b : Nat) (kind : LineKind) (x : Option Landed) : State :=
  match kind, x with
  | .kerf, _ => s.loseCut b
  | _, some x => s.loseLanded b x
  | _, none => s

/-- Every path has failed: the line is poisoned, and the command that read it ends MACHINE_CHECK (R338, R339); `x` is the
landed block of which it was a line. A line of a cluster at risk makes that cluster FAILED (R341). -/
def State.poisonLine (s : State) (b : Option Nat) (line adm : Nat) (kind : LineKind) (x : Option Landed) : State :=
  if kind = .reserve then s.goFatal 17
  else
    let tag := ((s.slot? adm).map (·.hdr.tag)).getD 0
    let s := { s with poison := if s.poison.contains line then s.poison else s.poison ++ [line] }
    let r : Rec := { s.lineRec line with code := 0x0101, cls := 4, tag := tag, d0 := s.freeNow.toNat }
    let s := (s.useFree 1).logUnit b r
    match b with
    | some b =>
      let s := if 2 ^ 60 ≤ line then s.failAtRisk b r.unit else s
      let s := s.loseLine b kind x
      if ((s.slot? adm).map (fun c => c.dispatched && c.ofBay b)).getD false then s.cutShort b .machineCheck adm else s
    | none => s

/-- Path `k` has given the line back, at a cost in core cycles: logged and counted, and the command that read the line is
CORRECTED (R338). -/
def State.recovered (s : State) (b : Option Nat) (line adm k cost : Nat) : State :=
  let tag := ((s.slot? adm).map (·.hdr.tag)).getD 0
  let s := s.log1 { s.lineRec line with code := 0x0100, cls := 2, bay := b.getD 0xFF, tag := tag, d0 := k, d1 := cost }
  let s := match b with
    | some b => s.countBay b 4 cost
    | none => s
  if ((s.slot? adm).map (·.dispatched)).getD false then s.markCorrected adm else s

/-- An engine recomputes a strip for an operand line of a MATMUL: which strip read it the event does not say, so a free
value does (R87, R97, log 7). -/
def State.retryStrip (s : State) (adm cost : Nat) : State := match s.slot? adm with
  | none => s
  | some c => match c.instr with
    | .matmul _ m =>
      (s.setSlot adm (fun c => { c with
        retries := c.retries ++ [(s.freeNow.toNat % max 1 (stripTiles m).length, cost)] })).useFree 1
    | _ => s

/-- A path of Table 14.4 that asks another site. -/
def remotePath (kind : LineKind) (k : Nat) : Bool := match kind with
  | .base => k == 3
  | .outer => k == 3
  | .ownDelta => k == 3
  | .otherDelta => k == 2
  | _ => false

/-- A wait for another site begins: its request is sent (KIND 5). -/
def State.ask (s : State) (b : Nat) (w : LineWait) : State := s.onJoined b (fun j =>
  let s := s.setJoin b (fun j => { j with lineWaits := j.lineWaits ++ [w] })
  s.askFor b j w.site (if w.what = 4 then requestBytes 2 w.owner w.epoch w.block else requestBytes 3 0 w.epoch w.block))

/-- The wait that a remote path begins for a line. -/
def State.waitFor (s : State) (b line : Nat) (kind : LineKind) (adm k cost : Nat) : Option LineWait :=
  match (s.bay b).join with
  | none => none
  | some j =>
    let base := fun (cls : Nat) => match s.blockOf b line cls, j.lastPresent with
      | some x, i :: _ => some ⟨line, kind, adm, k, i, cls - 4, j.baseNow, x.1, 0, cost, []⟩
      | _, _ => none
    match kind with
    | .base => base 4
    | .outer => base 5
    | .ownDelta => (s.lostLanded b true).bind (fun x => (j.holderOf x.epoch.toNat).map (fun i =>
        ⟨line, kind, adm, k, i, 4, x.epoch.toNat, x.block, x.site, cost, []⟩))
    | .otherDelta => (s.lostLanded b false).map (fun x =>
        ⟨line, kind, adm, k, x.site, 4, x.epoch.toNat, x.block, x.site, cost, []⟩)
    | _ => none

/-- The landed block that a wait is for. -/
def LineWait.landed (w : LineWait) : Option Landed :=
  if w.what = 4 then some ⟨w.owner, BitVec.ofNat 32 w.epoch, w.block, []⟩ else none

/-- The landed block that a line of a kind belongs to. -/
def State.landedOf (s : State) (b : Option Nat) (kind : LineKind) : Option Landed := match kind with
  | .ownDelta => b.bind (fun b => s.lostLanded b true)
  | .otherDelta => b.bind (fun b => s.lostLanded b false)
  | _ => none

/-- LINE_RECOVERY: the first `failing` paths that the line has fail; the next one recovers it at a cost in core cycles,
asks another site for its block, or, when none is left, the line is poisoned (R338). -/
def execLineRecovery (line : Nat) (kind : LineKind) (adm failing cost : Nat) (s : State) :
    Host.Outcome State Fault Refusal :=
  .next (if !s.up then s
  else
    let b := s.lineBay line adm
    let s := s.countUncorr line
    match (s.paths b line kind).drop failing with
    | [] => (s.useFree 1).poisonLine b line adm kind (s.landedOf b kind)
    | k :: _ =>
      if remotePath kind k then
        match b.bind (fun b => (s.waitFor b line kind adm k cost).map (fun w => (b, w))) with
        | some (b, w) => (s.ask b w).useFree 1
        | none => (s.poisonLine b line adm kind none).useFree 1
      else
        let s := if kind = .operand ∧ k = 2 then s.retryStrip adm cost else s
        s.recovered b line adm k cost)

/-! ### Answers of other sites (R294, R338) -/

/-- The bytes of a block of a region that a recovered line holds are written back. -/
def State.writeBackLine (s : State) (b line : Nat) (r : Nat × Nat) (bytes : List Byte) : State :=
  (s.lineAddrs b line).foldl (fun s a =>
    let lo := max a r.1
    let hi := min (a + 64) (r.1 + r.2)
    if lo < hi then s.writeBay b lo (slice bytes (lo - r.1) (hi - lo)) else s) s

/-- A wait whose block is here: the block is checked, against the CRC-64 kept of it or as a block of its delta, and
recovers the line, or its last path has failed. -/
def State.settleWait (s : State) (b : Nat) (w : LineWait) : State := s.onJoined b (fun j =>
  let drop := s.setJoin b (fun j => { j with lineWaits := j.lineWaits.filter (· != w) })
  let lose := drop.poisonLine (some b) w.line w.adm w.kind w.landed
  if w.what = 4 then
    match assembled w.parts 4 w.block with
    | none => s
    | some k =>
      let x := planeAddCrc k
      if (planeRead true x).isNone then lose
      else
        let s := drop.setJoin b (fun j => { j with landed := j.landed.map (fun (y : Landed) =>
          if y.site == w.owner && y.epoch.toNat == w.epoch && y.block == w.block then { y with data := x } else y) })
        s.recovered (some b) w.line w.adm w.path w.cost
  else
    match assembled w.parts 0 w.block, assembled w.parts 1 w.block, (s.bay b).train.map with
    | some _, some _, some p =>
      match stagedBlock w.parts 0 w.block, stagedBlock w.parts 1 w.block, p.deltaBlocks[w.block]? with
      | some q, some o, some (ti, k) =>
        if j.keptCrc w.block = some (preparedCrc (q.data, o.data)) ∧ j.baseNow = w.epoch then
          let s := drop.writeBackLine b w.line (p.classRange ti k (4 + w.what)) (if w.what = 0 then q.data else o.data)
          s.recovered (some b) w.line w.adm w.path w.cost
        else lose
      | _, _, _ => lose
    | _, _, _ => s)

/-- A part of a block that a wait asked for. -/
def LineWait.takePart (w : LineWait) (site : Nat) (p : List Byte) : LineWait :=
  if w.site == site && leAt p 4 4 == w.epoch && leAt p 8 4 == w.block &&
      (if w.what = 4 then byteAt p 0 == 4 else decide (byteAt p 0 < 2)) then
    { w with parts := assocSet w.parts (partKey p) (p.drop 16) }
  else w

/-- CATCHUP_DATA: the first source that answers is the source; a part is staged in the receive area (R294), a fetched
block of R293 with its fetch, a block asked for an unreadable line with its wait (R338). -/
def execCatchupData (bay port : Nat) (d : Dgram) (s : State) : Host.Outcome State Fault Refusal :=
  .next (s.takeCtl bay port 6 d (fun s _ p =>
    let k := partKey p
    let s := s.setJoin bay (fun j => { j with
      lineWaits := j.lineWaits.map (fun w => w.takePart d.srcSite p)
      fetch := j.fetch.map (fun (f : Fetch) =>
        if f.site == d.srcSite && f.epoch.toNat == leAt p 4 4 && decide (byteAt p 0 < 2) then
          { f with parts := assocSet f.parts k (p.drop 16) } else f)
      catchup := j.catchup.map (fun (c : Catchup) =>
        if (c.source == d.srcSite || (c.source == 0xFF && !c.bad.contains d.srcSite)) && decide (byteAt p 0 < 4) then
          { c with source := d.srcSite, parts := assocSet c.parts k (p.drop 16) } else c) })
    let ws := (((s.bay bay).join).map (·.lineWaits)).getD []
    (ws.foldl (fun s w => s.settleWait bay w) s).settleCatchup bay))

end Sys2Proof.Machine
end

