-- ==== Sys2Proof/Machine/Time.lean ====
section
/-!
DEFINITION. Site time (R391 to R393, Tables 16.4 and 18.4): SITE_PPS_EDGE, SITE_TOD_FRAME and PPS_HOLDOVER.
-/
namespace Sys2Proof.Machine

/-! ### Time-of-day frames (R392) -/

/-- NEXT_PPS_NS of a frame; the other fields follow the same table in network order (R12). -/
def todNext (f : List Byte) : Nat := beAt f 4 8
def todValid (f : List Byte) : Bool := decide (byteAt f 3 % 2 = 1)
def todLeap (f : List Byte) : Bool := decide (byteAt f 3 / 2 % 2 = 1)

/-- SITE_TOD_FRAME: the later of two frames before one edge governs; a frame with a bad CRC or an unknown VERSION is
discarded and counted. Bytes without SYNC are no frame. -/
def execSiteTodFrame (frame : TodBytes) (s : State) : Host.Outcome State Fault Refusal :=
  .next (if s.dev.hold ≠ 0 ∨ frame.length ≠ 20 ∨ beAt frame 0 2 ≠ 0xA55A then s
  else if byteAt frame 2 ≠ 1 ∨ crc16 (frame.take 18) ≠ beAt frame 18 2 then s.countDev 5 1
  else { s with clock := { s.clock with frame := some (frame, s.clock.uptime) } })

/-! ### The time unit (R393) -/

/-- The unit's state changes: 0 FREE, 1 ACQUIRING, 2 LOCKED, 3 HOLDOVER. -/
def State.timeState (s : State) (st : Nat) : State :=
  if s.clock.state = st then s else ({ s with clock := { s.clock with state := st, locked := s.clock.locked || decide (st = 2) } }).devCause 3

/-- TIME_STEP, in the error log and the event area. -/
def State.logStep (s : State) (size : Int) (slew : Nat) : State :=
  let r : Rec := { Rec.blank with code := 0x0183, d0 := (BitVec.ofInt 64 size).toNat, d1 := slew }
  (s.log1 r).logEvent r

/-- The counter steps forward to a time; it is never stepped back. -/
def State.stepTo (s : State) (want : Nat) : State :=
  if s.clock.site < want then
    let d : Int := (want : Int) - s.clock.site
    ({ s with clock := { s.clock with site := want % 2 ^ 64, frac := 0, stepped := true } }).logStep d 0
  else s

/-- The rate that removes an error over the next second, by at most 50 ppm. -/
def trimFor (err : Int) : Int := max (-50000) (min 50000 (-err))

/-- The site time that an edge marks: the frame's, or without one the nearest whole second, each after the cable delay. -/
def State.edgeTime (s : State) (gov : Option (List Byte)) : Nat := match gov with
  | some f => todNext f + s.nv.ppsDelay
  | none => (s.clock.site + 500000000 - s.nv.ppsDelay) / 1000000000 * 1000000000 + s.nv.ppsDelay

/-- An error of more than 1 ms that a VALID frame shows: three of them confirm it. Behind, the counter steps at the next
edge; ahead, it is slewed at 50 ppm. -/
def State.bigError (s : State) (want : Nat) (err : Int) : State :=
  let n := s.clock.bigErr
  if err < 0 then
    if n < 3 then { s with clock := { s.clock with bigErr := n + 1 } }
    else
      let s := ({ s with clock := { s.clock with bigErr := 0, trim := 0 } }).stepTo want
      if s.clock.state = 3 then ({ s with clock := { s.clock with goodEdges := 0 } }).timeState 1 else s
  else
    let s := { s with clock := { s.clock with bigErr := min 3 (n + 1) } }
    if n = 2 ∧ !s.clock.slewing then
      ({ s with clock := { s.clock with slewing := true, trim := -50000 } }).logStep (-err) 1
    else s

/-- The edge drives the unit (Table of R393). -/
def State.driveTime (s : State) (gov : Option (List Byte)) (want : Nat) (err : Int) : State :=
  let valid := (gov.map todValid).getD false
  let big := decide (1000000 < err.natAbs)
  let near := decide (err.natAbs < 100)
  if gov.isSome && !valid then
    ({ s with clock := { s.clock with goodEdges := 0, bigErr := 0 } }).timeState 3
  else match s.clock.state with
    | 0 => if valid then ((s.stepTo want).timeState 1) else s
    | 1 =>
      let n := if near then s.clock.goodEdges + 1 else 0
      let s := { s with clock := { s.clock with goodEdges := n } }
      if 3 ≤ n then ({ s with clock := { s.clock with goodEdges := 0, trim := trimFor err } }).timeState 2 else s
    | 2 =>
      if big then
        let s := { s with clock := { s.clock with trim := trimFor err } }
        if valid then s.bigError want err else s
      else { s with clock := { s.clock with trim := trimFor err, bigErr := 0, slewing := false } }
    | _ =>
      if !valid then s
      else if big then s.bigError want err
      else ({ s with clock := { s.clock with goodEdges := if near then 1 else 0, bigErr := 0, slewing := false } }).timeState 1

/-- What an accepted frame shows (Table 18.4). -/
def Clock.take (c : Clock) (gov : Option (List Byte)) : Clock := match gov with
  | some f => { c with
    leap := todLeap f, taiUtc := beAt f 12 2, accuracy := beAt f 14 2, todSeen := c.todSeen || todValid f }
  | none => c

/-- An accepted edge. -/
def State.acceptEdge (s : State) (gov : Option (List Byte)) : State :=
  let want := s.edgeTime gov
  let err : Int := (s.clock.site : Int) - want
  let s := { s with clock := { s.clock.take gov with
    frame := none, lastPps := s.clock.site, lastEdge := some s.clock.uptime, ppsError := err } }
  (s.driveTime gov want err).refreshLicence

/-- SITE_PPS_EDGE: an edge 0.9 s to 1.1 s after the last accepted one is accepted; any other is discarded and counted. A
frame that ended less than 10 ms or more than 990 ms before its edge is discarded and counted. -/
def execSitePpsEdge (s : State) : Host.Outcome State Fault Refusal :=
  let t := s.clock.uptime
  let bad : Bool := match s.clock.lastEdge with
    | some e => decide (t < e + 900000000) || decide (e + 1100000000 < t)
    | none => false
  .next (if s.dev.hold ≠ 0 then s
  else if bad then s.countDev 4 1
  else match s.clock.frame with
    | none => s.acceptEdge none
    | some (f, at_) =>
      if at_ + 10000000 ≤ t ∧ t ≤ at_ + 990000000 then s.acceptEdge (some f)
      else (s.countDev 5 1).acceptEdge none)

/-- PPS_HOLDOVER: no accepted edge for 2 s. The next edge is the first of a new row. -/
def execPpsHoldover (s : State) : Host.Outcome State Fault Refusal :=
  .next (if s.dev.hold = 0 ∧ s.clock.lastEdge.getD s.boot.start + 2000000000 ≤ s.clock.uptime then
    ({ s with clock := { s.clock with lastEdge := none, goodEdges := 0, bigErr := 0 } }).timeState 3
  else s)

end Sys2Proof.Machine
end

