-- ==== Sys2Proof/Machine/Registers.lean ====
section
/-!
DEFINITION. The register map (R422 to R433, Tables 18.1 to 18.6): which accesses are taken, what a write of each register
does (REGISTER_WRITE), and what each register reads.
-/
namespace Sys2Proof.Machine

/-! ### Accesses (R423) -/

/-- How an access meets the registers of a space: at a register whole, at the low or the high half of a 64-bit one, at
none, or in a way that is refused. -/
inductive Meet where
  | whole (reg : Nat)
  | low (reg : Nat)
  | high (reg : Nat)
  | none_
  | refused
  deriving DecidableEq, Repr

/-- The access of `len` bytes at `off` among registers given as (offset, bytes). -/
def meetRegs (regs : List (Nat × Nat)) (off len : Nat) : Meet :=
  if regs.any (fun r => r.1 == off && r.2 == len) then .whole off
  else if len = 4 ∧ regs.any (fun r => r.1 == off && r.2 == 8) then .low off
  else if len = 4 ∧ 4 ≤ off ∧ regs.any (fun r => r.1 + 4 == off && r.2 == 8) then .high (off - 4)
  else if regs.any (fun r => meets off len r.1 r.2) then .refused
  else .none_

/-- The registers of Tables 18.2 to 18.4; the UID is two 64-bit registers. -/
def devRegs : List (Nat × Nat) :=
  [(0x000, 4), (0x004, 4), (0x008, 4), (0x010, 8), (0x018, 8), (0x020, 8), (0x028, 8), (0x030, 8), (0x038, 8), (0x040, 8),
    (0x050, 4), (0x058, 4), (0x060, 4), (0x064, 4), (0x068, 4), (0x080, 4), (0x084, 4), (0x088, 4), (0x090, 4), (0x094, 4)] ++
  [(0x1000, 8), (0x1008, 8), (0x1010, 4), (0x1014, 4), (0x1018, 4), (0x101C, 4), (0x1020, 4), (0x1040, 8), (0x1048, 4),
    (0x104C, 4), (0x1050, 4), (0x1054, 4)] ++
  [(0x2000, 8), (0x2008, 4), (0x2010, 8), (0x2018, 4), (0x201C, 4), (0x2020, 4)]

/-- The registers of Tables 18.5 and 18.6 in a bay window. -/
def bayRegList : List (Nat × Nat) :=
  [(0x000, 4), (0x004, 4), (0x008, 4), (0x00C, 4), (0x010, 4), (0x014, 4), (0x018, 4), (0x020, 8), (0x028, 8), (0x030, 4),
    (0x034, 4), (0x040, 8)] ++
  ((List.range 8).map (fun q => [(0x100 + 8 * q, 8), (0x180 + 8 * q, 8), (0x1000 + 8 * q, 4), (0x1004 + 8 * q, 4)])).flatten ++
  (List.range 256).map (fun c => (0x2000 + 8 * c, 8)) ++ (List.range 20).map (fun i => (0x3000 + 8 * i, 8))

/-- The outcome of `t` as a state: every register command answers a next state. -/
def State.via (s : State) (o : Host.Outcome State Fault Refusal) : State := match o with
  | .next t => t
  | _ => s

/-- ACCESS_ERR of a bay (R423). -/
def State.bayAccessErr (s : State) (b : Nat) : State := s.setRegs b (fun r => { r with accessErr := true })

/-! ### Device registers -/

/-- A 64-bit register after a write of its whole or of a half. -/
def mergeHalf (old : W64) (m : Meet) (v : Nat) : W64 := match m with
  | .low _ => BitVec.ofNat 64 (old.toNat / 2 ^ 32 * 2 ^ 32 + v % 2 ^ 32)
  | .high _ => BitVec.ofNat 64 (v % 2 ^ 32 * 2 ^ 32 + old.toNat % 2 ^ 32)
  | _ => BitVec.ofNat 64 v

/-- Configuration words of the control pair: while EN is 1 a write that would change a field is dropped with ERR (R428). -/
def State.setCtlConfig (s : State) (c : Ctl) : State :=
  if c = s.ctl then s
  else if s.ctl.en then { s with ctl := { s.ctl with err := true } }
  else { s with ctl := c }

/-- The word at 0x1010. -/
def Ctl.withSizes (c : Ctl) (v : W32) : Ctl :=
  { c with
    sqLog2 := v.setWidth 5, cqLog2 := (v >>> 8).setWidth 5, cqVector := (v >>> 16).setWidth 7
    coalCount := (v >>> 24).setWidth 8 }

/-- URG_CQ_BASE changes only while URG_EN is 0 and every decoded entry has posted (R428). -/
def State.setUrgBase (s : State) (x : W64) : State :=
  if x = s.urg.cqBase then s
  else if s.urg.en ∨ s.urgOpen then s.devCause 7
  else { s with urg := { s.urg with cqBase := x } }

/-- A write of a device register (Tables 18.2 to 18.4); read-only ones take none. -/
def State.writeDevReg (s : State) (m : Meet) (reg v : Nat) : State :=
  let w : W32 := BitVec.ofNat 32 v
  match reg with
  | 0x058 => { s with dev := { s.dev with alarm := s.dev.alarm &&& ~~~(w.setWidth 6) } }
  | 0x060 => { s with dev := { s.dev with intCause := s.dev.intCause &&& ~~~(w.setWidth 8) } }
  | 0x064 => s.writeIntMask w
  | 0x068 => { s with dev := { s.dev with devVector := w.setWidth 7 } }
  | 0x080 => s.via (execCoreReset w s)
  | 0x084 => s.via (execClusterReset w s)
  | 0x088 => { s with dev := { s.dev with rejected := s.dev.rejected && !w.getLsbD 1 } }
  | 0x090 => s.via (execDeviceReset w s)
  | 0x094 => s.via (execPowerDown (.register w) s)
  | 0x1000 => s.setCtlConfig { s.ctl with sqBase := mergeHalf s.ctl.sqBase m v }
  | 0x1008 => s.setCtlConfig { s.ctl with cqBase := mergeHalf s.ctl.cqBase m v }
  | 0x1010 => s.setCtlConfig (s.ctl.withSizes w)
  | 0x1014 => s.writeCtlWord w
  | 0x1018 => s.ringCtlSq w
  | 0x101C => s.ringCtlCq w
  | 0x1040 => s.setUrgBase (mergeHalf s.urg.cqBase m v)
  | 0x1048 => s.writeUrgWord w
  | 0x104C => s.ringUrgSq w
  | 0x1054 => s.ringUrgCq w
  | 0x2008 => { s with clock := { s.clock with stepped := s.clock.stepped && !w.getLsbD 4 } }
  | _ => s

/-! ### Bay windows -/

/-- Configuration of a bay's admin pair, under the same rule (R428). -/
def State.setBayConfig (s : State) (b : Nat) (r : BayRegs) : State :=
  let old := (s.bay b).regs
  if r = old then s
  else if old.en then s.setRegs b (fun r => { r with aqErr := true })
  else s.setRegs b (fun _ => r)

/-- The word at 0x030. -/
def BayRegs.withSizes (r : BayRegs) (v : W32) : BayRegs :=
  { r with
    asqLog2 := v.setWidth 5, acqLog2 := (v >>> 8).setWidth 5, acqVector := (v >>> 16).setWidth 7
    acqCoalCount := (v >>> 24).setWidth 8 }

/-- The width of a counter write (R432). -/
def ctrWrite (m : Meet) (v : Nat) : CtrWrite := match m with
  | .low _ => .low (BitVec.ofNat 32 v)
  | .high _ => .high (BitVec.ofNat 32 v)
  | _ => .full (BitVec.ofNat 64 v)

/-- A write of a register of a bay window (Tables 18.5 and 18.6). -/
def State.writeBayReg (s : State) (b : Nat) (m : Meet) (reg v : Nat) : State :=
  let w : W32 := BitVec.ofNat 32 v
  if reg = 0x000 then
    s.setRegs b (fun r => { r with
      doorbellErr := r.doorbellErr && !w.getLsbD 5, accessErr := r.accessErr && !w.getLsbD 11 })
  else if reg = 0x010 then s.setBay b (fun y => { y with flags := clearFlags y.flags w })
  else if reg = 0x014 then s.setRegs b (fun r => { r with event := r.event &&& ~~~(w.setWidth 6) })
  else if reg = 0x018 then s.writeEventMask b w
  else if reg = 0x020 then s.setBayConfig b { (s.bay b).regs with asqBase := mergeHalf (s.bay b).regs.asqBase m v }
  else if reg = 0x028 then s.setBayConfig b { (s.bay b).regs with acqBase := mergeHalf (s.bay b).regs.acqBase m v }
  else if reg = 0x030 then s.setBayConfig b ((s.bay b).regs.withSizes w)
  else if reg = 0x034 then s.writeAdminWord b w
  else if 0x1000 ≤ reg ∧ reg < 0x1040 then
    (if reg % 8 = 0 then s.ringSq b ((reg - 0x1000) / 8) w else s.ringCq b ((reg - 0x1000) / 8) w)
  else if 0x2000 ≤ reg ∧ reg < 0x2800 then
    let c := (reg - 0x2000) / 8
    (s.setCounter b c (fun k => k.write (ctrWrite m v))).recheck b c
  else s

/-! ### Memory of BAR0 -/

/-- An access that the urgent ring takes: 4 to 64 bytes, aligned to 4, within one entry. -/
def urgRingOk (off len : Nat) : Bool :=
  off % 4 == 0 && len % 4 == 0 && decide (4 ≤ len) && decide (off % 64 + len ≤ 64)

/-- An access that an MSI-X structure takes. -/
def msixOk (off len : Nat) : Bool := (len == 4 || len == 8) && off % len == 0

/-- The place of a function's MSI-X table in the store. -/
def msixBase : Func → Nat
  | .pf => 0
  | .vf b => (b + 1) * 65536

/-- A write to an MSI-X table. -/
def State.writeMsix (s : State) (fn : Func) (off : Nat) (data : List Byte) : State :=
  { s with msix := Mem.write [] s.msix (msixBase fn + off) data }

/-- A write into a bay window; the MSI-X regions are reached only through the virtual function (R430). -/
def State.writeWindow (s : State) (fn : Func) (b off : Nat) (data : List Byte) : State :=
  let n := data.length
  if meets off n 0x8000 0x780 ∨ meets off n 0x9000 0x10 then
    if fn = .pf then s
    else if !msixOk off n then s.bayAccessErr b
    else if off < 0x9000 then s.writeMsix fn (off - 0x8000) data
    else s
  else match meetRegs bayRegList off n with
    | .refused => s.bayAccessErr b
    | .none_ => s
    | .whole r => s.writeBayReg b (.whole r) r (leNat data)
    | .low r => s.writeBayReg b (.low r) r (leNat data)
    | .high r => s.writeBayReg b (.high r) r (leNat data)

/-- A write to the physical function's BAR0 (Table 18.1). -/
def State.writeBar0 (s : State) (off : Nat) (data : List Byte) : State :=
  let n := data.length
  if 0x100000 ≤ off ∧ off < 0x200000 then
    s.writeWindow .pf ((off - 0x100000) / 0x10000) (off % 0x10000) data
  else if meets off n 0x10000 0x1000 then
    if urgRingOk off n then { s with urgRing := Mem.write [] s.urgRing (off - 0x10000) data } else s.devCause 7
  else if meets off n 0x20000 0x800 ∨ meets off n 0x21000 0x10 then
    if !msixOk off n then s.devCause 7
    else if off < 0x21000 then s.writeMsix .pf (off - 0x20000) data
    else s
  else match meetRegs devRegs off n with
    | .refused => s.devCause 7
    | .none_ => s
    | .whole r => s.writeDevReg (.whole r) r (leNat data)
    | .low r => s.writeDevReg (.low r) r (leNat data)
    | .high r => s.writeDevReg (.high r) r (leNat data)

/-- REGISTER_WRITE: a write to a register or to BAR0 memory, with its clears, its refusals and what the register starts; a
request of an unsupported kind completes as an Unsupported Request and does nothing else (R377). -/
def execRegisterWrite (fn : HostReq) (offset : Nat) (data : List Byte) (s : State) : Host.Outcome State Fault Refusal :=
  .next (if !s.hostUp then s
  else match fn with
    | .unsupported f => s.emit (.unsupported f)
    | .pf => s.writeBar0 offset data
    | .vf b => if b < 16 ∧ offset < 0x10000 then s.writeWindow (.vf b) b offset data else s)

/-! ### What registers read -/

/-- A number in two's complement of `n` bits. -/
def twos (n : Nat) (v : Int) : Nat := (BitVec.ofInt n v).toNat

/-- The urgent completion ring is full (URG_STALL). -/
def State.urgStall (s : State) : Bool := ringFull s.urg.cqLog2.toNat s.urg.cqHead s.urg.cqTail

/-- The value of a device register (Tables 18.2 to 18.4). -/
def State.readDevReg (s : State) (reg : Nat) : Nat :=
  match reg with
  | 0x000 => 0x53541632
  | 0x004 => s.factory.stepping % 65536
  | 0x008 => s.lclusters + s.licencesByte * 256
  | 0x010 => s.factory.uid % 2 ^ 64
  | 0x018 => s.factory.uid / 2 ^ 64 % 2 ^ 64
  | 0x020 => (nth s.boot.versions 0).toNat
  | 0x028 => (nth s.boot.versions 1).toNat
  | 0x030 => (nth s.boot.versions 2).toNat
  | 0x038 => (nth s.boot.versions 3).toNat
  | 0x040 => (nth s.boot.versions 4).toNat
  | 0x050 => s.boot.stage + bit s.boot.ready 4 + bit s.boot.mgmtOnly 5 + bit s.boot.warm 6 + bit s.boot.fastPath 7 +
      bit s.boot.goldenUsed 8
  | 0x058 => s.dev.alarm.toNat + s.dev.condition.toNat * 256 + bit s.dev.fatal 16
  | 0x060 => s.dev.intCause.toNat
  | 0x064 => s.dev.intMask.toNat
  | 0x068 => s.dev.devVector.toNat
  | 0x088 => bit (!s.dev.clusterBusy.isEmpty) 0 + bit s.dev.rejected 1
  | 0x1000 => s.ctl.sqBase.toNat
  | 0x1008 => s.ctl.cqBase.toNat
  | 0x1010 => s.ctl.sqLog2.toNat + s.ctl.cqLog2.toNat * 2 ^ 8 + s.ctl.cqVector.toNat * 2 ^ 16 + s.ctl.coalCount.toNat * 2 ^ 24
  | 0x1014 => bit s.ctl.en 0 + bit s.ctl.live 1 + bit s.ctl.err 2 + bit s.ctl.dbErr 3 + s.ctl.coalTime.toNat * 2 ^ 16
  | 0x1020 => s.ctl.sq.head
  | 0x1040 => s.urg.cqBase.toNat
  | 0x1048 => s.urg.cqLog2.toNat + s.urg.vector.toNat * 2 ^ 16 + bit s.urg.dbErr 29 + bit s.urgStall 30 + bit s.urg.en 31
  | 0x1050 => s.urg.head
  | 0x2000 => s.clock.site
  | 0x2008 => s.clock.state + bit s.clock.todSeen 2 + bit s.clock.leap 3 + bit s.clock.stepped 4
  | 0x2010 => s.clock.lastPps
  | 0x2018 => twos 32 s.clock.ppsError
  | 0x201C => s.clock.taiUtc + s.clock.accuracy * 65536
  | 0x2020 => twos 32 s.clock.trim
  | _ => 0

/-- BAY_STATUS (Table 18.6). -/
def State.bayStatus (s : State) (b : Nat) : Nat :=
  let y := s.bay b
  y.st.code + bit (decide (y.bind.slotLimit ≤ s.slotsInUse b)) 3 +
    bit (y.cqs.any (fun q => q.live && ringFull q.log2 q.head q.tail)) 4 + bit y.regs.doorbellErr 5 + bit y.txn.isSome 6 +
    bit y.train.map.isSome 7 + bit ((y.join.map (fun j => j.joining.isNone)).getD false) 8 +
    bit ((y.join.map (·.detached)).getD false) 9 + bit y.undrained.isSome 10 + bit y.regs.accessErr 11

/-- The value of a register of a bay window (Tables 18.5, 18.6 and 18.8). -/
def State.readBayReg (s : State) (b reg : Nat) : Nat :=
  let y := s.bay b
  let r := y.regs
  if reg = 0x000 then s.bayStatus b
  else if reg = 0x004 then s.slotsInUse b + y.bind.slotLimit * 65536
  else if reg = 0x008 then s.version.toNat
  else if reg = 0x00C then (y.keys.zipIdx.map (fun k => k.1.code * 4 ^ k.2)).sum
  else if reg = 0x010 then y.flags.toNat
  else if reg = 0x014 then r.event.toNat
  else if reg = 0x018 then r.eventMask.toNat + r.eventVector.toNat * 65536
  else if reg = 0x020 then r.asqBase.toNat
  else if reg = 0x028 then r.acqBase.toNat
  else if reg = 0x030 then
    r.asqLog2.toNat + r.acqLog2.toNat * 2 ^ 8 + r.acqVector.toNat * 2 ^ 16 + r.acqCoalCount.toNat * 2 ^ 24
  else if reg = 0x034 then bit r.en 0 + bit r.live 1 + bit r.aqErr 2 + r.acqCoalTime.toNat * 65536
  else if reg = 0x040 then s.clock.site
  else if 0x100 ≤ reg ∧ reg < 0x140 then
    let q := nth y.sqs ((reg - 0x100) / 8)
    q.head + q.tail * 2 ^ 16 + bit q.live 32
  else if 0x180 ≤ reg ∧ reg < 0x1C0 then
    let q := nth y.cqs ((reg - 0x180) / 8)
    q.tail + q.head * 2 ^ 16 + bit q.phase 32 + bit q.live 33
  else if 0x2000 ≤ reg ∧ reg < 0x2800 then
    let k := nth y.counters ((reg - 0x2000) / 8)
    k.value.toNat + bit k.err 32
  else if 0x3000 ≤ reg ∧ reg < 0x30A0 then nth y.tele ((reg - 0x3000) / 8)
  else 0

/-- What a read of a register returns: the value, or a half of it; a refused access reads zero (R423). -/
def readMeet (m : Meet) (value : Nat → Nat) : Nat := match m with
  | .whole r => value r
  | .low r => value r % 2 ^ 32
  | .high r => value r / 2 ^ 32
  | _ => 0

/-- A read through a function's BAR0 registers; the urgent ring and the MSI-X tables are memory. -/
def State.readReg (s : State) (fn : Func) (off len : Nat) : Nat :=
  match fn with
  | .vf b => readMeet (meetRegs bayRegList off len) (s.readBayReg b)
  | .pf =>
    if 0x100000 ≤ off ∧ off < 0x200000 then
      readMeet (meetRegs bayRegList (off % 0x10000) len) (s.readBayReg ((off - 0x100000) / 0x10000))
    else if 0x10000 ≤ off ∧ off < 0x11000 then
      (if urgRingOk off len then leNat (Mem.read s.urgRing (off - 0x10000) len) else 0)
    else readMeet (meetRegs devRegs off len) s.readDevReg

end Sys2Proof.Machine
end

