-- ==== Sys2Proof/Machine/Scarf.lean ====
section
/-!
DEFINITION. The Scarf engine's commands and events (chapter 11): joining and leaving, the close of an epoch, the
admission cut, the ledger, digests, and the frames that the filter discards (R383, R384).
-/
namespace Sys2Proof.Machine

/-! ### Joining (R274 to R276) -/

/-- Granules of tier 2 that the areas may take: bound to the bay, with no page mapped in them; ascending. -/
def Bay.freeTier2 (y : Bay) : List Nat :=
  ((y.placeGranules 2).filter (fun g => !y.areas.contains g && !y.pages.any (fun p => meets p.dpa p.size (g * gib) gib)))

/-- The checks of SCARF_JOIN after its fields, in the order of Table 7.8 and then that of R275 (R139, R176, R274, R384);
VERSION_MISMATCH, between the first two, comes only with an answer to the hello. -/
def State.joinFails (s : State) (b : Nat) (k : JoinBlk) (slot : Nat) : Option Status :=
  let y := s.bay b
  let gcm := match nth y.keys slot with
    | .gcm _ => true
    | _ => false
  let taken := s.bays.any (fun o => match o.join with
    | some j => j.joining.isNone && j.blk.srcIp == k.srcIp && j.blk.udpPort == k.udpPort
    | none => false)
  let need := (if k.rtxGib = 0 then 12 else k.rtxGib) + (if k.recvGib = 0 then 16 else k.recvGib)
  let mapBad := match y.train.map with
    | none => true
    | some p => p.live.any (fun ti => let t := nth p.tensors ti; p.elems t != 0 && (t.base == 0 || t.omom == 0)) ||
        k.members != p.members || k.thisMember != p.thisMember
  if y.freeTier2.length < need then some .notBound
  else if y.join.isSome || taken then some .conflict
  else if mapBad || !gcm then some .badParam
  else if !s.rangeOk b .land k.landAddr k.landLen then some .accessDenied
  else none

/-- A join as it begins. -/
def newJoin (k : JoinBlk) (group slot : Nat) (gs : List Nat) : Join :=
  let rtx := if k.rtxGib = 0 then 12 else k.rtxGib
  let recv := if k.recvGib = 0 then 16 else k.recvGib
  { blk := { k with stale := if k.stale.all (· == 0) then [0x3F800000, 0x3F000000, 0x3E800000] else k.stale }
    group := group, keySlot := slot, site := k.thisSite, joining := none, leave := none, keyHeld := true
    rtxGranules := gs.take rtx, recvGranules := (gs.drop rtx).take recv, nextEpoch := 0, fresh := true, detached := false
    close := none, passMarks := [], forms := [], catchup := none, fetch := none, landed := [], bundles := [], nextSeq := 0
    ctlSeq := 0, rx := [], complete := [], parts := [], dropped := [], merged := [], ctlOut := [], portq := [], srtt := []
    lastHeard := [], unreach := [], ackDue := [], banned := [], vectors := [], reports := [], nextCut := 0, nextFinal := 0
    entries := [], published := [], prepared := [], digests := [], requests := [], granted := [], peerPre := []
    oldEpochs := 0, lineWaits := [] }

/-- A hello: the version vector in network order (R12), and whether it answers one (log 55). -/
def State.helloBytes (s : State) (answer : Bool) : List Byte :=
  (s.boot.versions.map (fun v => toBe 8 v.toNat)).flatten ++ toBe 1 (if answer then 1 else 0)

def State.sendHello (s : State) (b site : Nat) (answer : Bool) : State :=
  s.startCtl b site 8 0 (s.now + 10000000000) (s.helloBytes answer)

/-- The join is complete: its epochs' deadlines run from here on, and the command completes with the site. -/
def State.completeJoin (s : State) (b : Nat) : State :=
  match (s.bay b).join with
  | none => s
  | some j =>
    match j.joining with
    | none => s
    | some (adm, _) =>
      let g := s.grace0 j
      let last := g + j.sites.length * (j.blk.takeoverUs * 1000)
      let s := s.setJoin b (fun j => { j with
        joining := none
        nextCut := j.firstAfter s.now g
        nextFinal := j.firstAfter s.now last
        lastHeard := j.others.map (fun (i : Nat) => (i, s.clock.uptime)) })
      s.finishNat adm .ok j.site

/-- SCARF_JOIN: its areas are reserved and a hello goes to every other configured site. -/
def execScarfJoin (h : Hdr) (blk : JoinBlk) (group slot : Nat) (s : State) : Host.Outcome State Fault Refusal :=
  .next (s.onRunning (.scarfJoin h blk group slot) (fun c =>
    match c.bay? with
    | none => s
    | some b =>
      match s.joinFails b blk slot with
      | some st => s.fail h.adm st
      | none =>
        let j := newJoin blk group slot (s.bay b).freeTier2
        let s := (s.setActive h.adm).setBay b (fun y => { y with
          join := some { j with joining := some (h.adm, s.clock.uptime) } })
        if j.others.isEmpty then s.completeJoin b else j.others.foldl (fun s i => s.sendHello b i false) s))

/-- A hello under another NONCE_PREFIX than the peer's last is that of a new join of the peer, whose SEQ starts at 0 again
(R279): what was received under the old one is forgotten (log 61). -/
def Join.meetPeer (j : Join) (site : Nat) (pre : W64) : Join :=
  if assoc j.peerPre site == some pre then j
  else { j with
    peerPre := assocSet j.peerPre site pre
    complete := j.complete.filter (fun x => x.1 != site)
    rx := j.rx.filter (fun (x : RxBundle) => x.site != site || x.verified.isSome) }

/-- HELLO: an answer ends the join, or fails it; a peer whose vector differs is logged and its datagrams are discarded
from then on (R276). -/
def execHello (bay port : Nat) (d : Dgram) (s : State) : Host.Outcome State Fault Refusal :=
  .next (s.takeCtl bay port 8 d (fun s j p =>
    let same := p.take 40 == (s.helloBytes false).take 40
    let s := s.setJoin bay (fun j => j.meetPeer d.srcSite d.pre)
    match j.joining with
    | some (adm, _) =>
      if same then
        let s := s.completeJoin bay
        if byteAt p 40 = 0 then s.sendHello bay d.srcSite true else s
      else (s.setBay bay (fun y => { y with join := none })).fail adm .versionMismatch
    | none =>
      let s := s.setJoin bay (fun j => { j with
        banned := j.banned.filter (· != d.srcSite) ++ (if same then [] else [d.srcSite]) })
      let s := if same then s else s.log1 { Rec.blank with code := 0x0163, bay := bay, d0 := d.srcSite }
      if byteAt p 40 = 0 then s.sendHello bay d.srcSite true else s))

/-- JOIN_HELLO_TIMEOUT: 10 s without an answer (R276). -/
def execJoinHelloTimeout (bay : Nat) (s : State) : Host.Outcome State Fault Refusal :=
  .next (match (s.bay bay).join with
  | some j => (match j.joining with
    | some (_, t) => if t + 10000000000 ≤ s.clock.uptime then s.completeJoin bay else s
    | none => s)
  | none => s)

/-- SCARF_LEAVE (Table 7.8). A second one waits for the end of the first, after which the bay is not joined (log 61). -/
def execScarfLeave (h : Hdr) (s : State) : Host.Outcome State Fault Refusal :=
  .next (s.onRunning (.scarfLeave h) (fun c =>
    match c.bay? with
    | none => s
    | some b =>
      match (s.bay b).join with
      | none => s.fail h.adm .notBound
      | some j =>
        if j.joining.isSome then s.fail h.adm .notBound
        else if j.leave.isSome then s
        else ((s.setActive h.adm).setJoin b (fun j => { j with leave := some h.adm })).settleLeave b))

/-! ### Closing an epoch (R277, R278) -/

/-- The step that ends an epoch. -/
def Join.closeStep (j : Join) (epoch : W32) : W32 := j.blk.step0 + (epoch + 1) * BitVec.ofNat 32 j.blk.h - 1

/-- The epoch advances: what the entry that was applied merged is released (R289), a delta not yet whole goes on being
formed, and the next base is prepared when its entry is here. -/
def State.advanceEpoch (s : State) (b : Nat) (e : W32) : State :=
  let s := s.setJoin b (fun j =>
    let won := if j.fresh || j.detached then [] else match j.entry? (e.toNat - 1) with
      | some l => l.order.map (fun o => (o.1, BitVec.ofNat 32 o.2.1))
      | none => []
    { j with
      nextEpoch := e + 1, fresh := j.fresh && j.detached, close := none, passMarks := [], fetch := none
      merged := j.merged ++ won.filter (fun o => !j.merged.contains o)
      landed := j.landed.filter (fun (y : Landed) => y.site == j.blk.thisSite || !won.contains (y.site, y.epoch)) })
  (s.prepareNow b).serveAgain b

/-- The sites that an entry admitted, at any lateness. -/
def Ledger.sites (l : Ledger) : Nat := (l.admit0 ||| l.admit1 ||| l.admit2).toNat

/-- SCARF_EPOCH_CLOSE: its checks; a detached bay's close completes at once (R277, R287). One that finds another close
running waits for its end (log 61). -/
def execScarfEpochClose (h : Hdr) (epoch step : W32) (s : State) : Host.Outcome State Fault Refusal :=
  .next (s.onRunning (.scarfEpochClose h epoch step) (fun c =>
    match c.bay? with
    | none => s
    | some b =>
      match (s.bay b).join, (s.bay b).train.map with
      | some j, some p =>
        if j.joining.isSome then s.fail h.adm .notBound
        else if j.close.isSome then s
        else if epoch ≠ j.nextEpoch ∨ step ≠ j.closeStep epoch ∨
            p.live.any (fun ti => (s.bay b).train.appliedOf ti != step) then s.fail h.adm .badParam
        else if j.detached then (s.advanceEpoch b epoch).finishNat h.adm .ok (2 ^ 48)
        else (s.setActive h.adm).setJoin b (fun j => { j with close := some ⟨h.adm, epoch, step, false⟩ })
      | _, _ => s.fail h.adm .notBound))

/-- The result of the pass over one block: the new master, base and outer momentum (none for a fresh close), the delta,
and the flags. -/
structure PassOut where
  state : Option (List Byte × List Byte × List Byte)
  delta : List Byte
  flags : W32

/-- R277's arithmetic on a block under FTZ; `next` is the prepared base and outer momentum. -/
def passBlock (ftz : Bool) (master base : List (Flagged Val)) (own : List (Flagged Val))
    (next : Option (List Byte × List Byte)) : PassOut :=
  let cnt := master.length
  match next with
  | none =>
    let ps := (List.range cnt).map (fun i => fsub ftz (nth master i) (nth base i))
    let d := packRow ftz 1 none (ps.map (·.1))
    ⟨none, d.1, ps.foldl (fun f x => f ||| x.2) d.2⟩
  | some (b2, om2) =>
    let nb := ops32 ftz b2
    let ps := (List.range cnt).map (fun i => fsub ftz (fsub ftz (nth master i) (nth base i)) (nth own i))
    let ms := (List.range cnt).map (fun i => fadd ftz (nth nb i) (nth ps i))
    let d := packRow ftz 1 none (ps.map (·.1))
    let m := packRow ftz 1 none (ms.map (·.1))
    ⟨some (m.1, b2, om2), d.1, ms.foldl (fun f x => f ||| x.2) (d.2 ||| m.2)⟩

/-- Where a pass stands: it goes on, it waits, or its command fails. -/
inductive PassEnd where
  | goes | waits | fails (st : Status)
  deriving DecidableEq, Repr, Inhabited

/-- Asks the site of a fetch for the blocks of a base, once. -/
def State.startFetch (s : State) (b site : Nat) (epoch : Nat) : State := s.onJoined b (fun j =>
  if (j.fetch.map (·.site)) = some site ∧ (j.fetch.map (·.epoch.toNat)) = some epoch then s
  else
    let s := s.setJoin b (fun j => { j with fetch := some ⟨site, BitVec.ofNat 32 epoch, []⟩ })
    s.askFor b j site (requestBytes 1 0 epoch 0))

/-- The lowest other site in PRESENT that reported this digest. -/
def Join.agrees (j : Join) (l : Ledger) (d : List Byte) : Option Nat :=
  ((j.digestsOf l true).find? (fun r => r.digest == d)).map (·.site)

/-- The prepared block that a close writes (R290, R293): computed again under the close's own FTZ (R52) and compared, or
fetched from another site and
verified as a whole. -/
def State.nextBlock (s : State) (b : Nat) (ftz : Bool) (j : Join) (p : ShardMap) (l : Ledger) (q : Prepared) (n ti k : Nat) (adm : Nat) :
    State × Option (List Byte × List Byte × W32) :=
  let fetched := fun (s : State) (site : Nat) =>
    match (j.fetch.bind (fun f => if f.site = site ∧ f.epoch = l.epoch + 1 then stagedBlocks p f.parts else none)) with
    | some xs =>
      if outerDigest xs == q.digest then (s, some ((nth xs n).1, (nth xs n).2, (0 : W32)))
      else ((s.setJoin b (fun j => { j with fetch := none })).startFetch b site (l.epoch.toNat + 1), none)
    | none => (s.startFetch b site (l.epoch.toNat + 1), none)
  match q.fetch with
  | some site => fetched s site
  | none =>
    let r := s.mergeBlock b ftz j p l n ti k
    if preparedCrc (r.1, r.2.1) = nth q.crcs n then (s, some r)
    else
      let s := s.markCorrected adm
      match j.agrees l q.digest with
      | some site => fetched s site
      | none => (s, some r)

/-- One block of the pass (R277): its master, base and outer momentum are written together, its delta lands, and it is
marked done. -/
def State.passOne (b : Nat) (c : Close) (ftz : Bool) (p : ShardMap) (a : State × PassEnd) (x : (Nat × Nat) × Nat) :
    State × PassEnd :=
  let s := a.1
  match a.2, (s.bay b).join with
  | .goes, some j =>
    if j.passMarks.contains x.2 then a
    else
      let ti := x.1.1
      let k := x.1.2
      let rs := [0, 4, 5].map (fun cl => p.classRange ti k cl)
      let ins := if j.fresh then rs.take 2 else rs
      match s.ioStatus b ins (if j.fresh then [] else rs) with
      | some st => (s, .fails st)
      | none =>
        let cnt := blockElems (p.elems (nth p.tensors ti)) k
        let e := c.epoch.toNat
        let nb : State × Option (Option (List Byte × List Byte × W32)) :=
          if j.fresh then (s, some none)
          else match j.entry? (e - 1), j.prepared? (e - 1) with
            | some l, some q => let r := s.nextBlock b ftz j p l q x.2 ti k c.adm; (r.1, r.2.map some)
            | _, _ => (s, none)
        match nb.2 with
        | none => (nb.1, .waits)
        | some next =>
          if !j.fresh && j.unreadable j.blk.thisSite (e - 1) x.2 then (nb.1, .fails .machineCheck)
          else
          let s := nb.1
          let own := match j.deltaBlock j.blk.thisSite (e - 1) x.2 with
            | some bs => ops32 ftz bs
            | none => freeElems s.free cnt
          let o := passBlock ftz (s.readOps b ftz 1 (nth rs 0).1 cnt) (s.readOps b ftz 1 (nth rs 1).1 cnt) own
            (next.map (fun r => (r.1, r.2.1)))
          let z := planeEncode 4 none true x.2 o.delta
          let cd := s.useCodec b o.delta.length (some c.adm)
          if !j.landRoom z.length then (s.stageStalls b, .waits)
          else if !cd.2 then (cd.1, .fails .machineCheck)
          else
            let s := cd.1.raise b (o.flags ||| (next.map (·.2.2)).getD 0)
            let s := match o.state with
              | some (m, b2, om2) =>
                (((s.writeBay b (nth rs 0).1 m).writeBay b (nth rs 1).1 b2).writeBay b (nth rs 2).1 om2).markDirty b
                  [p.firstBlock ti + k]
              | none => s
            (s.setJoin b (fun j => { j with
              passMarks := j.passMarks ++ [x.2]
              landed := j.landed ++ [⟨j.blk.thisSite, c.epoch, x.2, z⟩] }), .goes)
  | _, _ => a

/-- Runs of blocks of a tensor that the pass has changed since `old`, recorded in the difference stream (R277). -/
def State.passRecords (s : State) (b : Nat) (c : Close) (p : ShardMap) (old new : List Nat) : State :=
  p.live.foldl (fun s ti =>
    let marks := (p.deltaBlocks.zipIdx.filter (fun x => x.1.1 == ti)).map (fun x => new.contains x.2 && !old.contains x.2)
    (markRuns 0 marks).foldl (fun s r =>
      if r.1 then s.diffRecord b c.step (nth p.tensors ti).id r.2.1 r.2.2 0 3 else s) s) s

/-- A close may make its pass: at once when fresh; else the entry before it is final and its digests are settled, and
no undrained cut waits for a drain (R277, R329, log 59). -/
def Bay.passReady (y : Bay) (j : Join) (c : Close) : Bool :=
  let e := c.epoch.toNat - 1
  let cut := match y.ckpt.cut with
    | some k => k.st == .held && k.drain.isNone
    | none => false
  j.fresh || (j.isFinal e && !cut && match j.prepared? e with
    | some q => q.settled
    | none => false)

/-- A close completes: its epoch advances, with the bundles formed and the sites admitted. -/
def State.endClose (s : State) (b : Nat) (j : Join) (c : Close) (st : Status) : State :=
  let e := c.epoch.toNat
  let formed := ((j.forms.find? (fun f => f.epoch == c.epoch)).map (·.formed)).getD 0
  let sites := if e = 0 then 0 else ((j.entry? (e - 1)).map Ledger.sites).getD 0
  let fixed : Bool := !j.fresh && match j.prepared? (e - 1) with
    | some q => q.differed
    | none => false
  let s := if fixed then s.markCorrected c.adm else s
  let s := s.advanceEpoch b c.epoch
  (s.finishNat c.adm st (if st = .ok then formed + sites * 2 ^ 32 else 0)).tidyJoin b

/-- A close that needs a landed block which no read gives: one that its entry admits, or its own delta's block that is
next to be packed (R296, R304, Table 14.3). -/
def Join.closeLost (j : Join) (p : ShardMap) (c : Close) : Bool :=
  let e := c.epoch.toNat
  (!c.passed && !j.fresh && j.isFinal (e - 1) && match j.entry? (e - 1) with
    | some l => j.unreadableFor p l
    | none => false) ||
  (c.passed && match j.forms.find? (fun f => f.epoch == c.epoch) with
    | some f => j.unreadable j.blk.thisSite e f.next
    | none => false)

/-- A close that waited when its bay became detached, before its pass began: it reads and writes nothing, and completes
(R277). -/
def Join.closeDetached (j : Join) (c : Close) : Bool := j.detached && !c.passed && j.passMarks.isEmpty

/-- EPOCH_CLOSE_PASS: the pass over the blocks not marked done, the bundles, and the completion once every bundle is
formed (R277 to R279). -/
def execEpochClosePass (bay : Nat) (s : State) : Host.Outcome State Fault Refusal :=
  .next (s.onJoined bay (fun j =>
    match j.close, (s.bay bay).train.map with
    | some c, some p =>
      let ftz := ((s.slot? c.adm).map (·.ftz)).getD false
      let r : State × PassEnd :=
        if c.passed || j.closeDetached c || !(s.bay bay).passReady j c then (s, .goes)
        else
          let r := p.deltaBlocks.zipIdx.foldl (State.passOne bay c ftz p) (s, .goes)
          let new := ((r.1.bay bay).join.map (·.passMarks)).getD []
          let t := if j.fresh then r.1 else r.1.passRecords bay c p j.passMarks new
          if new.length = p.deltaBlocks.length then
            (t.setJoin bay (fun j => { j with
              close := some { c with passed := true }
              forms := if j.forms.any (fun f => f.epoch == c.epoch) then j.forms else j.forms ++ [⟨c.epoch, 0, 0⟩] }), .goes)
          else (t, r.2)
      let stop := fun (s : State) (st : Status) =>
        ((s.setJoin bay (fun j => { j with close := none })).fail c.adm st).settleLeave bay
      if j.closeDetached c then ((s.advanceEpoch bay c.epoch).finishNat c.adm .ok (2 ^ 48)).tidyJoin bay
      else match r.2 with
      | .fails st => stop r.1 st
      | _ =>
        let s := r.1.formAll bay
        (match (s.bay bay).join with
        | some j =>
          if j.closeLost p c then stop s .machineCheck
          else
          (match j.close, j.forms.find? (fun f => f.epoch == c.epoch) with
          | some k, some f =>
            if k.passed && decide (p.deltaBlocks.length ≤ f.next) then
              let s := s.endClose bay j c .ok
              s.setJoin bay (fun j => { j with forms := j.forms.filter (fun (x : Form) => x.epoch != c.epoch) })
            else s
          | _, _ => s)
        | none => s)
    | _, _ => (s.formAll bay).tidyJoin bay))

/-- PORT_HOLD_TIMEOUT: a bundle of a running close has been held 20 ms with no named port UP (R284). -/
def execPortHoldTimeout (bay : Nat) (s : State) : Host.Outcome State Fault Refusal :=
  .next (s.onJoined bay (fun j =>
    match j.close with
    | some c =>
      if (s.farUp j).isEmpty && j.bundles.any (fun x => x.epoch == c.epoch && x.waits && match x.heldSince with
          | some t => decide (t + 20000000 ≤ s.clock.uptime)
          | none => false) then
        s.endClose bay j c .portNotReady
      else s
    | none => s))

/-! ### The admission cut (R286) -/

/-- A management packet's payload (log 25): 0 and a member's report, 1 and a vector, 2 and a ledger entry. -/
def mgmtBytes : MgmtMsg → List Byte
  | .report m e h0 h1 h2 => toLe 1 0 ++ toLe 1 m ++ zeros 2 ++ toLe 4 e.toNat ++ toLe 2 h0.toNat ++ toLe 2 h1.toNat ++ toLe 2 h2.toNat
  | .vector _ k => toLe 1 1 ++ k
  | .entry _ k => toLe 1 2 ++ k

/-- The group over which a site's members talk: the loaded shard map's (R276). -/
def Bay.siteGroup (y : Bay) : Nat := (y.train.map.map (·.group)).getD 0

/-- A management message to another member of the site, on VC0 of the map's group (R276). -/
def State.sendMgmt (s : State) (b member : Nat) (m : MgmtMsg) : State :=
  let s := s.emit (.mgmt b member m)
  match (s.bay b).formed? (s.bay b).siteGroup with
  | some g => s.sendMsg b g none none member 0 8 0 0 (mgmtBytes m)
  | none => s

/-- The speaker sends the site's vector once every member has reported. -/
def State.sendVector (s : State) (b e : Nat) : State := s.onJoined b (fun j =>
  let rs := j.reports.filter (fun r => r.epoch.toNat == e)
  if !j.speaker || rs.length < j.blk.members || (j.vectorsFor e).any (fun v => v.site == j.blk.thisSite) then s
  else
    let and := fun (f : MemberReport → BitVec 16) => rs.foldl (fun m r => m &&& f r) (BitVec.allOnes 16)
    let v : AdmVec := ⟨BitVec.ofNat 32 e, j.blk.thisSite, and (·.hold0), and (·.hold1), and (·.hold2),
      (j.srtt.map (·.2)).foldl max 0, s.now⟩
    let s := s.setJoin b (fun j => j.addVector v)
    j.others.foldl (fun s i => s.startCtl b i 2 v.epoch (s.finalTime j e) v.bytes) s)

/-- A member's completeness report at the speaker. -/
def State.takeReport (s : State) (b : Nat) (r : MemberReport) : State :=
  (s.setJoin b (fun j => { j with
    reports := j.reports.filter (fun (x : MemberReport) => !(x.member == r.member && x.epoch == r.epoch)) ++ [r] })).sendVector b
      r.epoch.toNat

/-- ADMISSION_CUT: at A_E each member reports what it holds complete. -/
def execAdmissionCut (bay : Nat) (s : State) : Host.Outcome State Fault Refusal :=
  .next (s.onJoined bay (fun j =>
    let e := j.nextCut
    let t := s.cutTime j e
    if s.now < t then s
    else
      let hs := j.holdsFor e t
      let s := s.setJoin bay (fun j => { j with nextCut := e + 1 })
      let r : MemberReport := ⟨j.blk.thisMember, BitVec.ofNat 32 e, nth hs 0, nth hs 1, nth hs 2⟩
      if j.speaker then s.takeReport bay r
      else s.sendMgmt bay 0 (.report r.member r.epoch r.hold0 r.hold1 r.hold2)))

/-! ### The ledger (R285 to R290) -/

/-- A speaker relays to the other members of its site (R276). -/
def State.relaySite (s : State) (b : Nat) (j : Join) (m : MgmtMsg) : State :=
  if j.speaker then (List.range' 1 (j.blk.members - 1)).foldl (fun s i => s.sendMgmt b i m) s else s

/-- An entry that is received: too late it is discarded and logged; it supersedes a lower one (R285, R287). -/
def State.takeEntry (s : State) (b : Nat) (k : List Byte) : State := s.onJoined b (fun j =>
  let l := ledgerOf k
  let e := l.epoch.toNat
  if s.finalTime j e ≤ s.now then s.log2 b { Rec.blank with code := 0x0161, d0 := l.takeover }
  else if (match j.entry? e with
    | some m => decide (l.takeover ≤ m.takeover)
    | none => false) then s
  else
    let s := s.setJoin b (fun j => { j with entries := j.entries.filter (fun (m : Ledger) => m.epoch != l.epoch) ++ [l] })
    (s.relaySite b j (.entry l.epoch k)).prepareNow b)

/-- LEDGER_ENTRY: an entry arrives at the speaker. -/
def execLedgerEntry (bay port : Nat) (d : Dgram) (s : State) : Host.Outcome State Fault Refusal :=
  .next (s.takeCtl bay port 3 d (fun s j p => if j.speaker then s.takeEntry bay p else s))

/-- ADMISSION_VECTOR: a site's vector arrives at the speaker, which relays it. -/
def execAdmissionVector (bay port : Nat) (d : Dgram) (s : State) : Host.Outcome State Fault Refusal :=
  .next (s.takeCtl bay port 2 d (fun s j p =>
    if j.speaker then
      let v := vectorOf p s.now
      (s.setJoin bay (fun j => j.addVector v)).relaySite bay j (.vector v.epoch p)
    else s))

/-- MANAGEMENT_PACKET: a speaker's relay, or a member's report to it (R276, R286). -/
def execManagementPacket (bay : Nat) (m : MgmtMsg) (s : State) : Host.Outcome State Fault Refusal :=
  let s := s.takeMsg 8 bay (s.bay bay).siteGroup (fun _ => true)
  .next (s.onJoined bay (fun j =>
    match m with
    | .report mem e h0 h1 h2 => if j.speaker then s.takeReport bay ⟨mem, e, h0, h1, h2⟩ else s
    | .vector _ k => if j.speaker then s else s.setJoin bay (fun j => j.addVector (vectorOf k s.now))
    | .entry _ k => if j.speaker then s else s.takeEntry bay k))

/-- Slot `k` of epoch `e` is open now. -/
def State.inSlot (s : State) (j : Join) (e k : Nat) : Bool :=
  let t := j.blk.takeoverUs * 1000
  let a := s.cutTime j e + k * t
  decide (a ≤ s.now) && decide (s.now < a + t)

/-- The vectors from which this site publishes the entry of epoch `e` with number `k` now, if it does (R287): those held
at the middle of the slot, once that is past, when they are a quorum with its own; else all of them when every site's is
here. -/
def State.publishes (s : State) (j : Join) (e k : Nat) : Option (List AdmVec) :=
  let vs := j.vectorsFor e
  let t := j.blk.takeoverUs * 1000
  let middle := s.cutTime j e + k * t + t / 2
  let early := vs.filter (fun v => decide (v.at_ ≤ middle))
  if !s.inSlot j e k || j.tallySite e k != j.blk.thisSite || j.published.contains (BitVec.ofNat 32 e) ||
      (match j.entry? e with
        | some l => decide (l.takeover < k)
        | none => false) then none
  else if middle ≤ s.now ∧ j.sites.length / 2 + 1 ≤ early.length ∧ early.any (fun v => v.site == j.blk.thisSite) then
    some early
  else if vs.length = j.sites.length then some vs
  else none

/-- TALLY_SLOT: within its slot a tally site publishes the entry (R287, R288). -/
def execTallySlot (bay slot : Nat) (s : State) : Host.Outcome State Fault Refusal :=
  .next (s.onJoined bay (fun j =>
    if !j.speaker ∨ j.sites.length ≤ slot then s
    else
      match (List.range' j.nextFinal (j.nextCut - j.nextFinal)).findSome? (fun e =>
        (s.publishes j e slot).map (fun vs => (e, vs))) with
      | none => s
      | some (e, vs) =>
        let k := (j.makeEntry e slot vs).bytes
        let s := s.setJoin bay (fun j => { j with published := j.published ++ [BitVec.ofNat 32 e] })
        let s := j.others.foldl (fun s i => s.startCtl bay i 3 (BitVec.ofNat 32 e) (s.finalTime j e) k) s
        s.takeEntry bay k))

/-- What a final entry drops: the deltas two epochs older that no entry has admitted (R289). -/
def Join.dropAt (j : Join) (e : Nat) : List (Nat × W32) :=
  if e < 2 then []
  else (j.sites.filter (fun i => !j.admittedBy i (e - 2) (e + 1))).map (fun i => (i, BitVec.ofNat 32 (e - 2)))

/-- LEDGER_FINAL: at F_E the entry held is final, and lets go of bundles two epochs older (R283, R289); with none the
bay becomes detached (R287). -/
def execLedgerFinal (bay : Nat) (s : State) : Host.Outcome State Fault Refusal :=
  .next (s.onJoined bay (fun j =>
    let e := j.nextFinal
    if s.now < s.finalTime j e then s
    else
      let s := s.setJoin bay (fun j => { j with nextFinal := e + 1 })
      match j.entry? e with
      | some _ =>
        let gone := j.dropAt e
        let s := s.setJoin bay (fun j => { j with
          dropped := j.dropped ++ gone
          bundles := j.bundles.filter (fun (x : Bundle) => decide (e < x.epoch.toNat + 2))
          landed := j.landed.filter (fun (y : Landed) => y.site == j.blk.thisSite || !gone.contains (y.site, y.epoch))
          rx := j.rx.filter (fun (x : RxBundle) => match x.verified with
            | some t => !gone.contains (x.site, BitVec.ofNat 32 (beAt t 4 4))
            | none => true) })
        ((s.prepareNow bay).serveAgain bay).tidyJoin bay
      | none =>
        let s := if j.detached then s else (s.setJoin bay (fun j => { j with detached := true })).bayEvent bay 5
        s.settleLeave bay))

/-! ### Digests and replay (R291 to R293) -/

/-- DIGEST: a peer's digest arrives; one is kept per site, base and phase. -/
def execDigest (bay port : Nat) (d : Dgram) (s : State) : Host.Outcome State Fault Refusal :=
  .next (s.takeCtl bay port 4 d (fun s _ p =>
    let r : DigestRec := ⟨d.srcSite, BitVec.ofNat 32 (beAt p 0 4), byteAt p 4, slice p 8 32⟩
    s.setJoin bay (fun j => { j with digests := j.digests.filter (fun (x : DigestRec) =>
      !(x.site == r.site && x.epoch == r.epoch && x.phase == r.phase)) ++ [r] })))

/-- After a replay, the matching value decides (R293): a site that differs from it fetches at its close. -/
def State.decideDigest (s : State) (b : Nat) (j : Join) (l : Ledger) (q : Prepared) : State :=
  let others := (j.digestsOf l true).map (fun r => (r.site, r.digest))
  let q := { q with settled := true }
  match if others.isEmpty then none else matchingValue l.tally (others ++ [(j.blk.thisSite, q.digest)]) with
  | none => s.setJoin b (fun j => j.setPrepared q)
  | some v =>
    if v = q.digest then s.setJoin b (fun j => j.setPrepared q)
    else
      let site := (others.find? (fun o => o.2 == v)).map (·.1)
      (s.setJoin b (fun j => j.setPrepared { q with digest := v, fetch := site, differed := true })).log1
        { Rec.blank with code := 0x0162, cls := 2, bay := b, d0 := l.epoch.toNat }

/-- The replay: the result is prepared again, and its phase-1 digest sent. -/
def State.replay (s : State) (b : Nat) (j : Join) (p : ShardMap) (l : Ledger) (q : Prepared) : State × Prepared :=
  let xs := s.mergeAll b j p l
  let d := outerDigest xs
  let q := { q with phase := 1, crcs := xs.map preparedCrc, digest := d, differed := q.differed || d != q.digest }
  let s := if j.lacks p l then s.useFree (16 * 16384) else s
  ((s.setJoin b (fun j => j.setPrepared q)).sendDigest b j l 1 d, q)

/-- DIGEST_SETTLE: every digest is here, or the wait is over (R292); a difference starts the replay (R293). -/
def execDigestSettle (bay : Nat) (s : State) : Host.Outcome State Fault Refusal :=
  .next (s.onJoined bay (fun j =>
    let e := j.baseNow
    match (s.bay bay).train.map, j.entry? e, j.prepared? e with
    | some p, some l, some q =>
      let peers := j.others.filter (fun i => l.present.getLsbD i)
      let late := decide (s.digestTime j e ≤ s.now)
      let first := j.digestsOf l false
      if q.settled then s
      else if q.phase = 0 then
        if first.length < peers.length ∧ !late then s
        else if first.all (fun r => r.digest == q.digest) then
          (s.setJoin bay (fun j => j.setPrepared { q with settled := true })).serveAgain bay
        else
          let r := s.replay bay j p l q
          if late then (r.1.decideDigest bay j l r.2).serveAgain bay else r.1
      else
        let second := (j.digestsOf l true).filter (fun r => r.phase == 1)
        if second.length < peers.length ∧ !late then s else (s.decideDigest bay j l q).serveAgain bay
    | _, _, _ => s))

/-! ### Frames that the filter discards (R280, R383, R384) -/

/-- FAR_FILTERED_FRAME: a frame that no joined bay takes is counted by its reason; a frame that one takes comes in
through its own row. -/
def execFarFilteredFrame (f : FarFrame) (s : State) : Host.Outcome State Fault Refusal :=
  let own := s.bays.any (fun y => match y.join with
    | some j => j.blk.srcIp == f.dstIp && j.blk.udpPort == f.dstPort
    | none => false)
  .next (if f.pause ∨ f.tagged then s.countDev 2 1
  else if f.dmac ≠ (nth s.far f.port).mac ∨ f.etherType ≠ 0x86DD ∨ f.nextHeader ≠ 17 ∨ !own then s.countDev 1 1
  else if !f.checksumOk then s.countDev 0 1
  else s)

end Sys2Proof.Machine
end

