-- ==== Sys2Proof/Machine/Dispatch.lean ====
section
/-!
DEFINITION. The dispatch: one arm per command, each one direct call of that command's meaning.
-/
namespace Sys2Proof.Machine

def exec (i : Instr) (s : State) : Host.Outcome State Fault Refusal :=
  match i with
  | .nop h => Sys2Proof.Machine.execNop h s
  | .identify h bay dst => Sys2Proof.Machine.execIdentify h bay dst s
  | .getLog h log clear bay dst length offset => Sys2Proof.Machine.execGetLog h log clear bay dst length offset s
  | .queueCreate h q => Sys2Proof.Machine.execQueueCreate h q s
  | .queueDelete h qtype qid => Sys2Proof.Machine.execQueueDelete h qtype qid s
  | .counterSet h ctr add clearErr value => Sys2Proof.Machine.execCounterSet h ctr add clearErr value s
  | .memCopy h src dst length => Sys2Proof.Machine.execMemCopy h src dst length s
  | .memFill h dst length pattern => Sys2Proof.Machine.execMemFill h dst length pattern s
  | .memMap h o => Sys2Proof.Machine.execMemMap h o s
  | .memPlace h addr length dest => Sys2Proof.Machine.execMemPlace h addr length dest s
  | .kernelLaunch h k => Sys2Proof.Machine.execKernelLaunch h k s
  | .matmul h m => Sys2Proof.Machine.execMatmul h m s
  | .quantStats h o => Sys2Proof.Machine.execQuantStats h o s
  | .convert h o => Sys2Proof.Machine.execConvert h o s
  | .rngFill h o => Sys2Proof.Machine.execRngFill h o s
  | .stepGather h step entries => Sys2Proof.Machine.execStepGather h step entries s
  | .stepUpdate h hpAddr step clip stoch => Sys2Proof.Machine.execStepUpdate h hpAddr step clip stoch s
  | .updateArm h hpAddr step group clip => Sys2Proof.Machine.execUpdateArm h hpAddr step group clip s
  | .updateDisarm h step => Sys2Proof.Machine.execUpdateDisarm h step s
  | .normClip h group step maxNorm => Sys2Proof.Machine.execNormClip h group step maxNorm s
  | .shardMapLoad h addr len => Sys2Proof.Machine.execShardMapLoad h addr len s
  | .collAllreduce h o => Sys2Proof.Machine.execCollAllreduce h o s
  | .collAllgather h o => Sys2Proof.Machine.execCollAllgather h o s
  | .collReduceScatter h o => Sys2Proof.Machine.execCollReduceScatter h o s
  | .collBroadcast h o => Sys2Proof.Machine.execCollBroadcast h o s
  | .collGroupCreate h group blk => Sys2Proof.Machine.execCollGroupCreate h group blk s
  | .collGroupDestroy h group => Sys2Proof.Machine.execCollGroupDestroy h group s
  | .triggerArm h t => Sys2Proof.Machine.execTriggerArm h t s
  | .triggerDisarm h handle => Sys2Proof.Machine.execTriggerDisarm h handle s
  | .scarfJoin h blk group slot => Sys2Proof.Machine.execScarfJoin h blk group slot s
  | .scarfLeave h => Sys2Proof.Machine.execScarfLeave h s
  | .scarfEpochClose h epoch step => Sys2Proof.Machine.execScarfEpochClose h epoch step s
  | .scarfCancel h epoch site seq => Sys2Proof.Machine.execScarfCancel h epoch site seq s
  | .scarfCatchup h site => Sys2Proof.Machine.execScarfCatchup h site s
  | .ckptCut h cutId blk => Sys2Proof.Machine.execCkptCut h cutId blk s
  | .ckptDrain h dst cutId path slot => Sys2Proof.Machine.execCkptDrain h dst cutId path slot s
  | .ckptRelease h cutId => Sys2Proof.Machine.execCkptRelease h cutId s
  | .ckptRestore h manifest src slot => Sys2Proof.Machine.execCkptRestore h manifest src slot s
  | .ckptVerify h manifest src slot => Sys2Proof.Machine.execCkptVerify h manifest src slot s
  | .exportStream h dst maxBytes fromStep => Sys2Proof.Machine.execExportStream h dst maxBytes fromStep s
  | .txnBegin h bay => Sys2Proof.Machine.execTxnBegin h bay s
  | .txnCommit h bay drainUs => Sys2Proof.Machine.execTxnCommit h bay drainUs s
  | .txnRollback h bay => Sys2Proof.Machine.execTxnRollback h bay s
  | .bindCluster h bay unbind mask => Sys2Proof.Machine.execBindCluster h bay unbind mask s
  | .bindMemory h bay unbind first count => Sys2Proof.Machine.execBindMemory h bay unbind first count s
  | .bindShares h bay o => Sys2Proof.Machine.execBindShares h bay o s
  | .bayReset h bay scrub => Sys2Proof.Machine.execBayReset h bay scrub s
  | .keyLoad h slot mode addr => Sys2Proof.Machine.execKeyLoad h slot mode addr s
  | .keyErase h slot => Sys2Proof.Machine.execKeyErase h slot s
  | .cipherRun h o => Sys2Proof.Machine.execCipherRun h o s
  | .digestRun h src dst length => Sys2Proof.Machine.execDigestRun h src dst length s
  | .entropyRead h dst length => Sys2Proof.Machine.execEntropyRead h dst length s
  | .licenceInstall h addr len => Sys2Proof.Machine.execLicenceInstall h addr len s
  | .telemetryRead h window dst length => Sys2Proof.Machine.execTelemetryRead h window dst length s
  | .seasonReport h dst length => Sys2Proof.Machine.execSeasonReport h dst length s
  | .floorplanRead h dst length => Sys2Proof.Machine.execFloorplanRead h dst length s
  | .linkTest h port pattern durationMs => Sys2Proof.Machine.execLinkTest h port pattern durationMs s
  | .haltBay h bay => Sys2Proof.Machine.execHaltBay h bay s
  | .evictBay h bay cutId => Sys2Proof.Machine.execEvictBay h bay cutId s
  | .resumeBay h bay => Sys2Proof.Machine.execResumeBay h bay s
  | .tidyCvt c vd vs2 => Sys2Proof.Machine.execTidyCvt c vd vs2 s
  | .tidyWid c vd vs2 => Sys2Proof.Machine.execTidyWid c vd vs2 s
  | .tidyStat c vd vs2 => Sys2Proof.Machine.execTidyStat c vd vs2 s
  | .tidyRsc c vd vs2 rs1 => Sys2Proof.Machine.execTidyRsc c vd vs2 rs1 s
  | .tidyQblk c vd vs2 => Sys2Proof.Machine.execTidyQblk c vd vs2 s
  | .tidyDrop c vd vs2 rs1 => Sys2Proof.Machine.execTidyDrop c vd vs2 rs1 s
  | .tidyGth c vd vs2 => Sys2Proof.Machine.execTidyGth c vd vs2 s
  | .tidySct c vs3 vs2 => Sys2Proof.Machine.execTidySct c vs3 vs2 s
  | .grainGet c vd rs1 => Sys2Proof.Machine.execGrainGet c vd rs1 s
  | .tidyDma c rs1 rs2 => Sys2Proof.Machine.execTidyDma c rs1 rs2 s
  | .xtenonCsrWrite c csr value => Sys2Proof.Machine.execXtenonCsrWrite c csr value s
  | .kernelEcallExit c => Sys2Proof.Machine.execKernelEcallExit c s
  | .coreException c cause pc => Sys2Proof.Machine.execCoreException c cause pc s
  | .cycleLimit adm => Sys2Proof.Machine.execCycleLimit adm s
  | .dmaDescriptorDone c chan => Sys2Proof.Machine.execDmaDescriptorDone c chan s
  | .submissionDoorbell bay q value written => Sys2Proof.Machine.execSubmissionDoorbell bay q value written s
  | .completionDoorbell bay q value => Sys2Proof.Machine.execCompletionDoorbell bay q value s
  | .ctlSqTail value written => Sys2Proof.Machine.execCtlSqTail value written s
  | .ctlCqHead value => Sys2Proof.Machine.execCtlCqHead value s
  | .urgSqTail value => Sys2Proof.Machine.execUrgSqTail value s
  | .urgCqHead value => Sys2Proof.Machine.execUrgCqHead value s
  | .eventCounterWrite bay ctr w => Sys2Proof.Machine.execEventCounterWrite bay ctr w s
  | .intMaskWrite value => Sys2Proof.Machine.execIntMaskWrite value s
  | .eventMaskWrite bay value => Sys2Proof.Machine.execEventMaskWrite bay value s
  | .coreReset value => Sys2Proof.Machine.execCoreReset value s
  | .clusterReset value => Sys2Proof.Machine.execClusterReset value s
  | .deviceReset value => Sys2Proof.Machine.execDeviceReset value s
  | .powerDown req => Sys2Proof.Machine.execPowerDown req s
  | .controlPairEnable value => Sys2Proof.Machine.execControlPairEnable value s
  | .controlPairDisable value => Sys2Proof.Machine.execControlPairDisable value s
  | .adminPairEnable bay value => Sys2Proof.Machine.execAdminPairEnable bay value s
  | .adminPairDisable bay value => Sys2Proof.Machine.execAdminPairDisable bay value s
  | .urgentQueueEnable value => Sys2Proof.Machine.execUrgentQueueEnable value s
  | .urgentQueueDisable value => Sys2Proof.Machine.execUrgentQueueDisable value s
  | .registerWrite fn offset data => Sys2Proof.Machine.execRegisterWrite fn offset data s
  | .apertureRead bay offset length => Sys2Proof.Machine.execApertureRead bay offset length s
  | .apertureWrite bay offset data => Sys2Proof.Machine.execApertureWrite bay offset data s
  | .vfFunctionLevelReset bay => Sys2Proof.Machine.execVfFunctionLevelReset bay s
  | .pfFunctionLevelReset => Sys2Proof.Machine.execPfFunctionLevelReset s
  | .entryFetch path => Sys2Proof.Machine.execEntryFetch path s
  | .commandDispatch adm => Sys2Proof.Machine.execCommandDispatch adm s
  | .completionPost cq => Sys2Proof.Machine.execCompletionPost cq s
  | .coalesceTimer cq => Sys2Proof.Machine.execCoalesceTimer cq s
  | .urgentDoorbellSample => Sys2Proof.Machine.execUrgentDoorbellSample s
  | .triggerFire bay handle => Sys2Proof.Machine.execTriggerFire bay handle s
  | .pegDrainLimit => Sys2Proof.Machine.execPegDrainLimit s
  | .pegComplete => Sys2Proof.Machine.execPegComplete s
  | .bayHalted bay => Sys2Proof.Machine.execBayHalted bay s
  | .haltMemoryAbsorb bay accesses => Sys2Proof.Machine.execHaltMemoryAbsorb bay accesses s
  | .haltFlushLate bay => Sys2Proof.Machine.execHaltFlushLate bay s
  | .clusterResetAbsorb lc => Sys2Proof.Machine.execClusterResetAbsorb lc s
  | .updateSegmentArrival bay tensorId elems => Sys2Proof.Machine.execUpdateSegmentArrival bay tensorId elems s
  | .cutCopy bay => Sys2Proof.Machine.execCutCopy bay s
  | .predictiveCut bay => Sys2Proof.Machine.execPredictiveCut bay s
  | .evictBoundaryReached bay => Sys2Proof.Machine.execEvictBoundaryReached bay s
  | .evictTimeout bay => Sys2Proof.Machine.execEvictTimeout bay s
  | .epochClosePass bay => Sys2Proof.Machine.execEpochClosePass bay s
  | .bundleGrant bay seq site => Sys2Proof.Machine.execBundleGrant bay seq site s
  | .bundleLanding bay site seq => Sys2Proof.Machine.execBundleLanding bay site seq s
  | .fragment bay port d => Sys2Proof.Machine.execFragment bay port d s
  | .sack bay port d => Sys2Proof.Machine.execSack bay port d s
  | .admissionVector bay port d => Sys2Proof.Machine.execAdmissionVector bay port d s
  | .ledgerEntry bay port d => Sys2Proof.Machine.execLedgerEntry bay port d s
  | .digest bay port d => Sys2Proof.Machine.execDigest bay port d s
  | .catchupRequest bay port d => Sys2Proof.Machine.execCatchupRequest bay port d s
  | .catchupData bay port d => Sys2Proof.Machine.execCatchupData bay port d s
  | .controlAcknowledgement bay port d => Sys2Proof.Machine.execControlAcknowledgement bay port d s
  | .hello bay port d => Sys2Proof.Machine.execHello bay port d s
  | .joinHelloTimeout bay => Sys2Proof.Machine.execJoinHelloTimeout bay s
  | .ackTimer bay site => Sys2Proof.Machine.execAckTimer bay site s
  | .rtoExpiry bay site => Sys2Proof.Machine.execRtoExpiry bay site s
  | .peerUnreachable bay site => Sys2Proof.Machine.execPeerUnreachable bay site s
  | .portHoldTimeout bay => Sys2Proof.Machine.execPortHoldTimeout bay s
  | .admissionCut bay => Sys2Proof.Machine.execAdmissionCut bay s
  | .tallySlot bay slot => Sys2Proof.Machine.execTallySlot bay slot s
  | .ledgerFinal bay => Sys2Proof.Machine.execLedgerFinal bay s
  | .digestSettle bay => Sys2Proof.Machine.execDigestSettle bay s
  | .flitReceive port f => Sys2Proof.Machine.execFlitReceive port f s
  | .replayRequest port f => Sys2Proof.Machine.execReplayRequest port f s
  | .stompFlit port f => Sys2Proof.Machine.execStompFlit port f s
  | .packetRelay port p => Sys2Proof.Machine.execPacketRelay port p s
  | .fabricWrite p => Sys2Proof.Machine.execFabricWrite p s
  | .readRequest p => Sys2Proof.Machine.execReadRequest p s
  | .readResponse p => Sys2Proof.Machine.execReadResponse p s
  | .collectiveSegment g => Sys2Proof.Machine.execCollectiveSegment g s
  | .gatherSegment g => Sys2Proof.Machine.execGatherSegment g s
  | .counterAdd p => Sys2Proof.Machine.execCounterAdd p s
  | .groupControl j => Sys2Proof.Machine.execGroupControl j s
  | .groupAbort bay group => Sys2Proof.Machine.execGroupAbort bay group s
  | .collJoinTimeout bay group => Sys2Proof.Machine.execCollJoinTimeout bay group s
  | .collSilentTimeout bay group => Sys2Proof.Machine.execCollSilentTimeout bay group s
  | .laneLossOfLock port lane => Sys2Proof.Machine.execLaneLossOfLock port lane s
  | .portRetry port answers laneErrors => Sys2Proof.Machine.execPortRetry port answers laneErrors s
  | .seasoningSample readings => Sys2Proof.Machine.execSeasoningSample readings s
  | .cubeSubstitution cluster engine cube => Sys2Proof.Machine.execCubeSubstitution cluster engine cube s
  | .clusterRetirement lc => Sys2Proof.Machine.execClusterRetirement lc s
  | .coreRetirement cluster core => Sys2Proof.Machine.execCoreRetirement cluster core s
  | .bankRetirement cluster bank => Sys2Proof.Machine.execBankRetirement cluster bank s
  | .lineRecovery line kind adm failing cost => Sys2Proof.Machine.execLineRecovery line kind adm failing cost s
  | .historyWrite => Sys2Proof.Machine.execHistoryWrite s
  | .patrolScrub line => Sys2Proof.Machine.execPatrolScrub line s
  | .dramRefresh bay tier2 stall => Sys2Proof.Machine.execDramRefresh bay tier2 stall s
  | .powerInRange => Sys2Proof.Machine.execPowerInRange s
  | .resetN low => Sys2Proof.Machine.execResetN low s
  | .pciePerstN low => Sys2Proof.Machine.execPciePerstN low s
  | .bootRomStage selfTestOk => Sys2Proof.Machine.execBootRomStage selfTestOk s
  | .imageSelection => Sys2Proof.Machine.execImageSelection s
  | .nvOverlay => Sys2Proof.Machine.execNvOverlay s
  | .dramTraining failedParts t3Gib => Sys2Proof.Machine.execDramTraining failedParts t3Gib s
  | .laneTraining answers laneErrors farErrors => Sys2Proof.Machine.execLaneTraining answers laneErrors farErrors s
  | .bist failures => Sys2Proof.Machine.execBist failures s
  | .gcrtBroadcast failures => Sys2Proof.Machine.execGcrtBroadcast failures s
  | .ready => Sys2Proof.Machine.execReady s
  | .pendingBankTimeout => Sys2Proof.Machine.execPendingBankTimeout s
  | .pldmFirmwareUpdate components => Sys2Proof.Machine.execPldmFirmwareUpdate components s
  | .inputFault millivolts => Sys2Proof.Machine.execInputFault millivolts s
  | .keyAlarm code => Sys2Proof.Machine.execKeyAlarm code s
  | .thermalTrip sensor reading => Sys2Proof.Machine.execThermalTrip sensor reading s
  | .jtagInstructionLoad drivesPins => Sys2Proof.Machine.execJtagInstructionLoad drivesPins s
  | .thermalSensorSample readings => Sys2Proof.Machine.execThermalSensorSample readings s
  | .protectionLevelExit die => Sys2Proof.Machine.execProtectionLevelExit die s
  | .dramThermalHold tier2 part => Sys2Proof.Machine.execDramThermalHold tier2 part s
  | .dramThermalRelease tier2 part => Sys2Proof.Machine.execDramThermalRelease tier2 part s
  | .pllLossOfLock pll => Sys2Proof.Machine.execPllLossOfLock pll s
  | .cxlLinkDown link => Sys2Proof.Machine.execCxlLinkDown link s
  | .sitePpsEdge => Sys2Proof.Machine.execSitePpsEdge s
  | .siteTodFrame frame => Sys2Proof.Machine.execSiteTodFrame frame s
  | .ppsHoldover => Sys2Proof.Machine.execPpsHoldover s
  | .licenceWindowEdge => Sys2Proof.Machine.execLicenceWindowEdge s
  | .trngOutput samples => Sys2Proof.Machine.execTrngOutput samples s
  | .trngHealthFailure => Sys2Proof.Machine.execTrngHealthFailure s
  | .trngStartupDone => Sys2Proof.Machine.execTrngStartupDone s
  | .catchupTimeout bay => Sys2Proof.Machine.execCatchupTimeout bay s
  | .alarmConditionCleared => Sys2Proof.Machine.execAlarmConditionCleared s
  | .jtagTrstN => Sys2Proof.Machine.execJtagTrstN s
  | .farFilteredFrame f => Sys2Proof.Machine.execFarFilteredFrame f s
  | .managementPacket bay m => Sys2Proof.Machine.execManagementPacket bay m s

end Sys2Proof.Machine
end

