-- ==== Sys2Proof/Machine/Step.lean ====
section
/-!
DEFINITION. One step: the command at the front of the queue, or one time cycle when none waits (log 3).
-/
namespace Sys2Proof.Machine

/-- Take the front command and run it with the queue's rest; on an empty queue, let one cycle of the time domain pass, in
which the ports with nothing else to send return what they owe (R252). -/
def step (s : State) : Host.Outcome State Fault Refusal :=
  match s.pending with
  | [] => .next (if s.dev.hold = 0 then (tick s).idleFlits else tick s)
  | i :: rest => exec i { s with pending := rest }

/-- The command that a table word spells, put at the front of the queue; the table gives no row any bits (log 11). -/
def State.withFetchWord (s : State) (nbits w : Nat) : State :=
  match Sys2Proof.decodeTableWord nbits w with
  | some i => { s with pending := i :: s.pending }
  | none => s

end Sys2Proof.Machine
end

