-- ==== Sys2Proof/Safety.lean ====
section
/-!
DEFINITION. The terms of the statements: a safe step, a command in progress, a command that ended, what two states
agree on, and the forms that every reachable state keeps.
-/
namespace Sys2Proof
open Machine

/-- The command neither faults nor is refused. -/
def Safe (i : Instr) (s : State) : Prop := ∃ t, exec i s = .next t

/-! ### Commands -/

/-- The queue opcode `i` has been dispatched, and `c` is its slot (R158, R162). -/
abbrev Running (s : State) (c : Slot) (i : Instr) : Prop :=
  s.slot? c.adm = some c ∧ c.phase = .running ∧ c.instr = i

/-- Status and result of a finished command whose entry waits to be posted. -/
def outcome (s : State) (adm : Nat) : Option (Status × W64) := match s.slot? adm with
  | some c => (match c.phase with
    | .finished st r _ => some (st, r)
    | _ => none)
  | none => none

/-- The status posted: OK becomes CORRECTED when an error was recovered for the command (R338). -/
def postedStatus (c : Slot) (st : Status) : Status := if st = .ok ∧ c.corrected then .corrected else st

/-- Nothing is posted: SUPPRESS with OK or CORRECTED (R148), or a command that a reset ended (R220). -/
def silent (c : Slot) (st : Status) : Bool := c.quiet || (c.hdr.suppress && (st == .ok || st == .corrected))

/-- In `t` the command of slot `c` has ended with a status and a result: its entry waits to be posted, or its slot is
free when nothing is posted. -/
abbrev Ended (t : State) (c : Slot) (st : Status) (r : Nat) : Prop :=
  if silent c (postedStatus c st) then t.slot? c.adm = none
  else outcome t c.adm = some (postedStatus c st, BitVec.ofNat 64 r)

/-- In `t` the command's operation has begun; later commands end it. -/
abbrev Begun (t : State) (c : Slot) : Prop := (t.slot? c.adm).map (·.phase) = some .active

/-- No poisoned line must be skipped by a command's output (R339); the physical function's buffers lie in host memory. -/
abbrev NoSkip (s : State) (o : Origin) (a n : Nat) : Prop := match o with
  | .bay b _ => s.rangeSkips b .wr a n = false
  | _ => True

/-! ### What states agree on -/

/-- Every byte of memory reads the same, and so do the marks on it. -/
abbrev SameMemory (s t : State) : Prop :=
  t.dram = s.dram ∧ t.sram = s.sram ∧ t.local_ = s.local_ ∧ t.host = s.host ∧ t.zeroMarks = s.zeroMarks ∧
    t.poison = s.poison

/-- The rest of a bay: all but its event counters, descriptors, rings and registers, which the end of a command may
touch (R157, R161, R270, R428). -/
abbrev SameBayCore (x y : Bay) : Prop :=
  y = { x with counters := y.counters, trigs := y.trigs, sqs := y.sqs, cqs := y.cqs, regs := y.regs }

/-- The bays but `b` are the same. -/
abbrev OtherBays (s t : State) (b : Nat) : Prop := ∀ b', b' ≠ b → t.bay b' = s.bay b'

/-- No queue of the bay waits to be deleted (R157). -/
abbrev NoDelete (s : State) (b : Nat) : Prop := ∀ q, (nth (s.bay b).sqs q).deleting = none

/-- The command performs an effect: it ends with the effect's status and result, on the effect's memory and bays. -/
def Performs (s : State) (c : Slot) (i : Instr) (e : Eff) : Prop :=
  ∃ t, exec i s = .next t ∧ SameMemory e.1 t ∧ (∀ b, SameBayCore (e.1.bay b) (t.bay b)) ∧
    ∃ c', e.1.slot? c.adm = some c' ∧ c'.phase = .running ∧ Ended t c' e.2.1 e.2.2

/-! ### Cores -/

/-- The named core runs a kernel: its key, its registers, the launch and the bay of the launch (R103). -/
abbrev OnCore (s : State) (c : CoreRef) (key : Nat) (k : Core) (adm b : Nat) : Prop :=
  s.coreKey c = some key ∧ s.core key = k ∧ k.launch = some adm ∧ k.exited = false ∧
    (s.slot? adm).bind (·.bay?) = some b

/-- The instruction runs, changes nothing but cores, and leaves the core as given. -/
def CoreOnly (s : State) (i : Instr) (key : Nat) (k : Core) : Prop :=
  ∃ t, exec i s = .next t ∧ t.core key = k ∧ (∀ q, q ≠ key → t.core q = s.core q) ∧ t = { s with cores := t.cores }

/-- The instruction runs: the bytes stand in the vector registers from `vd` on, the pc has moved past it, the flags are
ORed into the bay's word, other cores and all of memory are as before. -/
def VectorWritten (s : State) (i : Instr) (key b : Nat) (k : Core) (vd : Nat) (x : Flagged (List Byte)) : Prop :=
  ∃ t, exec i s = .next t ∧ t.core key = (k.vwrite vd x.1).past ∧
    (∀ q, q ≠ key → t.core q = s.core q) ∧ (t.bay b).flags = raiseFlags (s.bay b).flags x.2 ∧ SameMemory s t

/-! ### The far exchange -/

/-- The command runs and leaves the bay joined, with a join as said. -/
def LeavesJoin (s : State) (i : Instr) (b : Nat) (P : State → Join → Prop) : Prop :=
  ∃ t j, exec i s = .next t ∧ (t.bay b).join = some j ∧ P t j

/-- A control datagram of a kind that the join takes and whose tag is good: its payload (R281, R308). -/
abbrev GoodCtl (s : State) (b kind : Nat) (d : Dgram) (j : Join) (p : List Byte) : Prop :=
  (s.bay b).join = some j ∧ j.takes d = true ∧ ∃ key, (s.bay b).joinKey j = some key ∧
    gcmDecrypt key (farNonce (ctlPrefix d.pre) d.seq) (dgramHeader kind d) d.payload d.tag = some p

/-- The join is complete and takes datagrams of this site (R276). -/
abbrev OpenTo (j : Join) (site : Nat) : Prop := j.joining = none ∧ j.banned.contains site = false

/-! ### Forms that every step keeps -/

/-- Every memory is in its canonical form. -/
abbrev MemoriesCanonical (s : State) : Prop :=
  s.dram.wf ∧ s.sram.wf ∧ s.local_.wf ∧ s.host.wf ∧ s.urgRing.wf ∧ s.msix.wf

/-- Slots stand in admission order, each with a number of its own below the next; finished commands have places of
their own in the completion order, below the next. -/
abbrev CommandsNumbered (s : State) : Prop :=
  s.cmds.Pairwise (fun a b => a.adm < b.adm) ∧ (∀ c ∈ s.cmds, c.adm < s.nextAdm) ∧
    s.cmds.Pairwise (fun a b => ¬ (place a = place b ∧ (place a).isSome)) ∧
    ∀ c ∈ s.cmds, ∀ k, place c = some k → k < s.nextFin
where
  /-- A finished command's place in the completion order (R155). -/
  place (c : Slot) : Option Nat := match c.phase with
    | .finished _ _ k => some k
    | _ => none

/-- The counts of a bay's parts (R149, R160, R311, R436). -/
abbrev BayCounted (y : Bay) : Prop :=
  y.sqs.length = 8 ∧ y.cqs.length = 8 ∧ y.counters.length = 256 ∧ y.keys.length = 4 ∧ y.tele.length = 20

/-- The counts of the machine's parts. -/
abbrev PartsCounted (s : State) : Prop :=
  s.bays.length = 16 ∧ (∀ y ∈ s.bays, BayCounted y) ∧ s.clusters.length = 34 ∧ s.ports.length = 12 ∧ s.far.length = 2 ∧
    s.dies.length = 3 ∧ s.sensors.length = 64 ∧ s.power.length = 64

/-! ### Frames: the fields a command may change (everything else is kept) -/

/-- What each of the queue opcodes may change. -/
def frameQueue (i : Instr) (s t : State) : Prop := match i with
  | .nop _ | .queueCreate _ _ | .queueDelete _ _ _ | .counterSet _ _ _ _ _ | .memMap _ _ | .updateDisarm _ _
  | .collGroupDestroy _ _ | .triggerArm _ _ | .triggerDisarm _ _ | .scarfLeave _ | .scarfCancel _ _ _ _
  | .ckptCut _ _ _ | .bindCluster _ _ _ _ | .bindMemory _ _ _ _ _ | .bindShares _ _ _ | .keyErase _ _ =>
    t = { s with ctl := t.ctl, cmds := t.cmds, nextFin := t.nextFin, bays := t.bays }
  | .linkTest _ _ _ _ =>
    t = { s with free := t.free, ctl := t.ctl, cmds := t.cmds, nextFin := t.nextFin, bays := t.bays }
  | .shardMapLoad _ _ _ | .ckptVerify _ _ _ _ | .keyLoad _ _ _ _ | .txnBegin _ _ | .txnRollback _ _ =>
    t = { s with outs := t.outs, ctl := t.ctl, cmds := t.cmds, nextFin := t.nextFin, bays := t.bays }
  | .licenceInstall _ _ _ =>
    t = { s with flash := t.flash, effFeat := t.effFeat, ctl := t.ctl, cmds := t.cmds, nextFin := t.nextFin,
                  bays := t.bays }
  | .resumeBay _ _ =>
    t = { s with outs := t.outs, ctl := t.ctl, urg := t.urg, cmds := t.cmds, nextFin := t.nextFin, bays := t.bays }
  | .scarfJoin _ _ _ _ | .scarfCatchup _ _ =>
    t = { s with outs := t.outs, ctl := t.ctl, cmds := t.cmds, nextFin := t.nextFin, far := t.far, bays := t.bays }
  | .txnCommit _ _ _ =>
    t = { s with outs := t.outs, ctl := t.ctl, cmds := t.cmds, nextFin := t.nextFin, version := t.version,
                  peg := t.peg, bays := t.bays }
  | .normClip _ _ _ _ | .collGroupCreate _ _ _ =>
    t = { s with outs := t.outs, dev := t.dev, ctl := t.ctl, cmds := t.cmds, nextFin := t.nextFin, ports := t.ports,
                  devTele := t.devTele, errLog := t.errLog, bays := t.bays }
  | .identify _ _ _ | .memFill _ _ _ _ | .rngFill _ _ | .seasonReport _ _ _ | .floorplanRead _ _ _ =>
    t = { s with ctl := t.ctl, cmds := t.cmds, nextFin := t.nextFin, zeroMarks := t.zeroMarks, dram := t.dram,
                  sram := t.sram, local_ := t.local_, host := t.host, poison := t.poison, bays := t.bays }
  | .entropyRead _ _ _ =>
    t = { s with ctl := t.ctl, cmds := t.cmds, nextFin := t.nextFin, zeroMarks := t.zeroMarks, dram := t.dram,
                  sram := t.sram, local_ := t.local_, host := t.host, poison := t.poison, trng := t.trng,
                  bays := t.bays }
  | .memPlace _ _ _ _ | .quantStats _ _ | .convert _ _ | .digestRun _ _ _ _ =>
    t = { s with outs := t.outs, ctl := t.ctl, cmds := t.cmds, nextFin := t.nextFin, zeroMarks := t.zeroMarks,
                  dram := t.dram, sram := t.sram, local_ := t.local_, host := t.host, poison := t.poison,
                  bays := t.bays }
  | .scarfEpochClose _ _ _ =>
    t = { s with free := t.free, faults := t.faults, outs := t.outs, dev := t.dev, ctl := t.ctl, cmds := t.cmds,
                  nextFin := t.nextFin, far := t.far, codecFenced := t.codecFenced, errLog := t.errLog,
                  bays := t.bays }
  | .exportStream _ _ _ _ | .ckptRestore _ _ _ _ =>
    t = { s with free := t.free, outs := t.outs, ctl := t.ctl, cmds := t.cmds, nextFin := t.nextFin,
                  zeroMarks := t.zeroMarks, dram := t.dram, sram := t.sram, local_ := t.local_, host := t.host,
                  poison := t.poison, bays := t.bays }
  | .getLog _ _ _ _ _ _ _ =>
    t = { s with ctl := t.ctl, cmds := t.cmds, nextFin := t.nextFin, zeroMarks := t.zeroMarks, dram := t.dram,
                  sram := t.sram, local_ := t.local_, host := t.host, poison := t.poison, errLog := t.errLog,
                  bootLog := t.bootLog, bays := t.bays }
  | .kernelLaunch _ _ =>
    t = { s with outs := t.outs, ctl := t.ctl, cmds := t.cmds, nextFin := t.nextFin, zeroMarks := t.zeroMarks,
                  cores := t.cores, dram := t.dram, sram := t.sram, local_ := t.local_, host := t.host,
                  poison := t.poison, bays := t.bays }
  | .telemetryRead _ _ _ _ =>
    t = { s with free := t.free, clock := t.clock, ctl := t.ctl, cmds := t.cmds, nextFin := t.nextFin,
                  zeroMarks := t.zeroMarks, dram := t.dram, sram := t.sram, local_ := t.local_, host := t.host,
                  poison := t.poison, bays := t.bays }
  | .cipherRun _ _ =>
    t = { s with faults := t.faults, outs := t.outs, dev := t.dev, ctl := t.ctl, cmds := t.cmds,
                  nextFin := t.nextFin, zeroMarks := t.zeroMarks, dram := t.dram, sram := t.sram, local_ := t.local_,
                  host := t.host, poison := t.poison, errLog := t.errLog, bays := t.bays }
  | .updateArm _ _ _ _ _ =>
    t = { s with outs := t.outs, dev := t.dev, ctl := t.ctl, cmds := t.cmds, nextFin := t.nextFin,
                  zeroMarks := t.zeroMarks, dram := t.dram, sram := t.sram, local_ := t.local_, host := t.host,
                  poison := t.poison, ports := t.ports, devTele := t.devTele, errLog := t.errLog, bays := t.bays }
  | .ckptRelease _ _ | .stepUpdate _ _ _ _ _ =>
    t = { s with faults := t.faults, outs := t.outs, dev := t.dev, ctl := t.ctl, cmds := t.cmds,
                  nextFin := t.nextFin, zeroMarks := t.zeroMarks, dram := t.dram, sram := t.sram, local_ := t.local_,
                  host := t.host, poison := t.poison, ports := t.ports, devTele := t.devTele, errLog := t.errLog,
                  bays := t.bays }
  | .memCopy _ _ _ _ | .stepGather _ _ _ =>
    t = { s with free := t.free, outs := t.outs, dev := t.dev, ctl := t.ctl, cmds := t.cmds, nextFin := t.nextFin,
                  zeroMarks := t.zeroMarks, dram := t.dram, sram := t.sram, local_ := t.local_, host := t.host,
                  poison := t.poison, ports := t.ports, devTele := t.devTele, errLog := t.errLog, bays := t.bays }
  | .ckptDrain _ _ _ _ _ =>
    t = { s with faults := t.faults, outs := t.outs, dev := t.dev, ctl := t.ctl, cmds := t.cmds,
                  nextFin := t.nextFin, zeroMarks := t.zeroMarks, dram := t.dram, sram := t.sram, local_ := t.local_,
                  host := t.host, poison := t.poison, ports := t.ports, devTele := t.devTele,
                  codecFenced := t.codecFenced, errLog := t.errLog, bays := t.bays }
  | .matmul _ _ =>
    t = { s with free := t.free, faults := t.faults, outs := t.outs, dev := t.dev, ctl := t.ctl, cmds := t.cmds,
                  nextFin := t.nextFin, zeroMarks := t.zeroMarks, clusters := t.clusters, lfailed := t.lfailed,
                  dram := t.dram, sram := t.sram, local_ := t.local_, host := t.host, poison := t.poison,
                  errLog := t.errLog, bays := t.bays }
  | .collAllreduce _ _ | .collAllgather _ _ | .collReduceScatter _ _ | .collBroadcast _ _ =>
    t = { s with free := t.free, faults := t.faults, outs := t.outs, dev := t.dev, ctl := t.ctl, cmds := t.cmds,
                  nextFin := t.nextFin, zeroMarks := t.zeroMarks, clusters := t.clusters, lfailed := t.lfailed,
                  dram := t.dram, sram := t.sram, local_ := t.local_, host := t.host, poison := t.poison,
                  ports := t.ports, devTele := t.devTele, errLog := t.errLog, bays := t.bays }
  | .bayReset _ _ _ =>
    t = { s with free := t.free, faults := t.faults, outs := t.outs, dev := t.dev, ctl := t.ctl, cmds := t.cmds,
                  nextFin := t.nextFin, zeroMarks := t.zeroMarks, clusters := t.clusters, lfailed := t.lfailed,
                  cores := t.cores, dram := t.dram, sram := t.sram, local_ := t.local_, host := t.host,
                  poison := t.poison, ports := t.ports, devTele := t.devTele, errLog := t.errLog,
                  bootLog := t.bootLog, trng := t.trng, bays := t.bays }
  | .haltBay _ _ | .evictBay _ _ _ =>
    t = { s with free := t.free, faults := t.faults, outs := t.outs, dev := t.dev, ctl := t.ctl, urg := t.urg,
                  cmds := t.cmds, nextFin := t.nextFin, zeroMarks := t.zeroMarks, clusters := t.clusters,
                  lfailed := t.lfailed, cores := t.cores, dram := t.dram, sram := t.sram, local_ := t.local_,
                  host := t.host, poison := t.poison, ports := t.ports, devTele := t.devTele, errLog := t.errLog,
                  bootLog := t.bootLog, trng := t.trng, bays := t.bays }
  | _ => True

/-- What each of the core steps may change. -/
def frameCore (i : Instr) (s t : State) : Prop := match i with
  | .tidyCvt _ _ _ | .tidyWid _ _ _ | .tidyStat _ _ _ | .tidyDrop _ _ _ _ | .grainGet _ _ _ =>
    t = { s with cores := t.cores, bays := t.bays }
  | .tidyQblk _ _ _ =>
    t = { s with free := t.free, cores := t.cores, bays := t.bays }
  | .xtenonCsrWrite _ _ _ | .kernelEcallExit _ | .coreException _ _ _ =>
    t = { s with ctl := t.ctl, cmds := t.cmds, nextFin := t.nextFin, cores := t.cores, bays := t.bays }
  | .tidyDma _ _ _ | .cycleLimit _ =>
    t = { s with free := t.free, ctl := t.ctl, cmds := t.cmds, nextFin := t.nextFin, cores := t.cores, bays := t.bays
                  }
  | .tidyRsc _ _ _ _ | .tidyGth _ _ _ =>
    t = { s with free := t.free, outs := t.outs, ctl := t.ctl, cmds := t.cmds, nextFin := t.nextFin,
                  cores := t.cores, bays := t.bays }
  | .tidySct _ _ _ =>
    t = { s with free := t.free, ctl := t.ctl, cmds := t.cmds, nextFin := t.nextFin, zeroMarks := t.zeroMarks,
                  cores := t.cores, dram := t.dram, sram := t.sram, local_ := t.local_, host := t.host,
                  poison := t.poison, bays := t.bays }
  | .dmaDescriptorDone _ _ =>
    t = { s with free := t.free, outs := t.outs, ctl := t.ctl, cmds := t.cmds, nextFin := t.nextFin,
                  zeroMarks := t.zeroMarks, cores := t.cores, dram := t.dram, sram := t.sram, local_ := t.local_,
                  host := t.host, poison := t.poison, bays := t.bays }
  | _ => True

/-- What each of the doorbells, registers, apertures and resets may change. -/
def frameRegister (i : Instr) (s t : State) : Prop := match i with
  | .adminPairEnable _ _ | .adminPairDisable _ _ =>
    t = { s with bays := t.bays }
  | .ctlCqHead _ | .controlPairEnable _ | .controlPairDisable _ =>
    t = { s with ctl := t.ctl }
  | .urgSqTail _ | .urgCqHead _ =>
    t = { s with urg := t.urg }
  | .completionDoorbell _ _ _ | .eventMaskWrite _ _ =>
    t = { s with outs := t.outs, bays := t.bays }
  | .eventCounterWrite _ _ _ =>
    t = { s with cmds := t.cmds, bays := t.bays }
  | .intMaskWrite _ =>
    t = { s with outs := t.outs, dev := t.dev }
  | .apertureRead _ _ _ =>
    t = { s with free := t.free, outs := t.outs, bays := t.bays }
  | .urgentQueueEnable _ | .urgentQueueDisable _ =>
    t = { s with outs := t.outs, dev := t.dev, urg := t.urg }
  | .apertureWrite _ _ _ =>
    t = { s with zeroMarks := t.zeroMarks, dram := t.dram, sram := t.sram, local_ := t.local_, host := t.host,
                  poison := t.poison, bays := t.bays }
  | .ctlSqTail _ _ =>
    t = { s with ctl := t.ctl, zeroMarks := t.zeroMarks, dram := t.dram, sram := t.sram, local_ := t.local_,
                  host := t.host, poison := t.poison }
  | .submissionDoorbell _ _ _ _ =>
    t = { s with outs := t.outs, zeroMarks := t.zeroMarks, dram := t.dram, sram := t.sram, local_ := t.local_,
                  host := t.host, poison := t.poison, bays := t.bays }
  | .coreReset _ =>
    t = { s with free := t.free, outs := t.outs, dev := t.dev, ctl := t.ctl, cmds := t.cmds, nextFin := t.nextFin,
                  zeroMarks := t.zeroMarks, cores := t.cores, dram := t.dram, sram := t.sram, local_ := t.local_,
                  host := t.host, poison := t.poison, bays := t.bays }
  | .clusterReset _ | .vfFunctionLevelReset _ =>
    t = { s with free := t.free, faults := t.faults, outs := t.outs, dev := t.dev, ctl := t.ctl, cmds := t.cmds,
                  nextFin := t.nextFin, zeroMarks := t.zeroMarks, clusters := t.clusters, lfailed := t.lfailed,
                  cores := t.cores, dram := t.dram, sram := t.sram, local_ := t.local_, host := t.host,
                  poison := t.poison, ports := t.ports, devTele := t.devTele, errLog := t.errLog,
                  bootLog := t.bootLog, trng := t.trng, bays := t.bays }
  | .powerDown _ =>
    t = { s with free := t.free, faults := t.faults, outs := t.outs, flash := t.flash, boot := t.boot, dev := t.dev,
                  ctl := t.ctl, urg := t.urg, cmds := t.cmds, nextFin := t.nextFin, zeroMarks := t.zeroMarks,
                  clusters := t.clusters, lfailed := t.lfailed, cores := t.cores, gcrt := t.gcrt, dram := t.dram,
                  sram := t.sram, local_ := t.local_, host := t.host, poison := t.poison, ports := t.ports,
                  devTele := t.devTele, power := t.power, season := t.season, errLog := t.errLog,
                  bootLog := t.bootLog, trng := t.trng, bays := t.bays }
  | .deviceReset _ | .pfFunctionLevelReset =>
    t = { s with free := t.free, outs := t.outs, clock := t.clock, boot := t.boot, dev := t.dev, ctl := t.ctl,
                  urg := t.urg, urgRing := t.urgRing, msix := t.msix, cmds := t.cmds, nextAdm := t.nextAdm,
                  nextFin := t.nextFin, joiner := t.joiner, version := t.version, peg := t.peg,
                  zeroMarks := t.zeroMarks, clusters := t.clusters, lmap := t.lmap, lrisk := t.lrisk,
                  lfailed := t.lfailed, cores := t.cores, gcrt := t.gcrt, dram := t.dram, sram := t.sram,
                  local_ := t.local_, poison := t.poison, ports := t.ports, far := t.far, devTele := t.devTele,
                  codecFenced := t.codecFenced, bootLog := t.bootLog, trng := t.trng, bays := t.bays }
  | .registerWrite _ _ _ =>
    t = { s with free := t.free, faults := t.faults, outs := t.outs, clock := t.clock, flash := t.flash,
                  boot := t.boot, dev := t.dev, ctl := t.ctl, urg := t.urg, urgRing := t.urgRing, msix := t.msix,
                  cmds := t.cmds, nextAdm := t.nextAdm, nextFin := t.nextFin, joiner := t.joiner,
                  version := t.version, peg := t.peg, zeroMarks := t.zeroMarks, clusters := t.clusters,
                  lmap := t.lmap, lrisk := t.lrisk, lfailed := t.lfailed, cores := t.cores, gcrt := t.gcrt,
                  dram := t.dram, sram := t.sram, local_ := t.local_, host := t.host, poison := t.poison,
                  ports := t.ports, far := t.far, devTele := t.devTele, codecFenced := t.codecFenced,
                  power := t.power, season := t.season, errLog := t.errLog, bootLog := t.bootLog, trng := t.trng,
                  bays := t.bays }
  | _ => True

/-- What each of the Joiner, pegs, halts, and the training and checkpoint events may change. -/
def frameJoiner (i : Instr) (s t : State) : Prop := match i with
  | .haltMemoryAbsorb _ _ | .haltFlushLate _ =>
    t = { s with bays := t.bays }
  | .predictiveCut _ =>
    t = { s with outs := t.outs, bays := t.bays }
  | .coalesceTimer _ =>
    t = { s with outs := t.outs, ctl := t.ctl, bays := t.bays }
  | .urgentDoorbellSample =>
    t = { s with ctl := t.ctl, urg := t.urg, cmds := t.cmds, nextAdm := t.nextAdm, nextFin := t.nextFin,
                  bays := t.bays }
  | .entryFetch _ =>
    t = { s with free := t.free, ctl := t.ctl, cmds := t.cmds, nextAdm := t.nextAdm, nextFin := t.nextFin,
                  joiner := t.joiner, bays := t.bays }
  | .completionPost _ =>
    t = { s with outs := t.outs, ctl := t.ctl, urg := t.urg, cmds := t.cmds, nextFin := t.nextFin,
                  zeroMarks := t.zeroMarks, dram := t.dram, sram := t.sram, local_ := t.local_, host := t.host,
                  poison := t.poison, bays := t.bays }
  | .updateSegmentArrival _ _ _ =>
    t = { s with faults := t.faults, outs := t.outs, dev := t.dev, ctl := t.ctl, cmds := t.cmds,
                  nextFin := t.nextFin, zeroMarks := t.zeroMarks, dram := t.dram, sram := t.sram, local_ := t.local_,
                  host := t.host, poison := t.poison, ports := t.ports, devTele := t.devTele, errLog := t.errLog,
                  bays := t.bays }
  | .pegComplete =>
    t = { s with outs := t.outs, dev := t.dev, ctl := t.ctl, cmds := t.cmds, nextFin := t.nextFin, peg := t.peg,
                  zeroMarks := t.zeroMarks, cores := t.cores, dram := t.dram, sram := t.sram, local_ := t.local_,
                  host := t.host, poison := t.poison, ports := t.ports, devTele := t.devTele, errLog := t.errLog,
                  bays := t.bays }
  | .triggerFire _ _ =>
    t = { s with free := t.free, faults := t.faults, outs := t.outs, dev := t.dev, ctl := t.ctl, cmds := t.cmds,
                  nextFin := t.nextFin, zeroMarks := t.zeroMarks, clusters := t.clusters, lfailed := t.lfailed,
                  dram := t.dram, sram := t.sram, local_ := t.local_, host := t.host, poison := t.poison,
                  ports := t.ports, devTele := t.devTele, errLog := t.errLog, bays := t.bays }
  | .clusterResetAbsorb _ | .evictBoundaryReached _ | .evictTimeout _ =>
    t = { s with free := t.free, faults := t.faults, outs := t.outs, dev := t.dev, ctl := t.ctl, cmds := t.cmds,
                  nextFin := t.nextFin, zeroMarks := t.zeroMarks, clusters := t.clusters, lfailed := t.lfailed,
                  cores := t.cores, dram := t.dram, sram := t.sram, local_ := t.local_, host := t.host,
                  poison := t.poison, ports := t.ports, devTele := t.devTele, errLog := t.errLog,
                  bootLog := t.bootLog, trng := t.trng, bays := t.bays }
  | .bayHalted _ | .cutCopy _ =>
    t = { s with free := t.free, faults := t.faults, outs := t.outs, dev := t.dev, ctl := t.ctl, urg := t.urg,
                  cmds := t.cmds, nextFin := t.nextFin, zeroMarks := t.zeroMarks, clusters := t.clusters,
                  lfailed := t.lfailed, cores := t.cores, dram := t.dram, sram := t.sram, local_ := t.local_,
                  host := t.host, poison := t.poison, ports := t.ports, devTele := t.devTele, errLog := t.errLog,
                  bootLog := t.bootLog, trng := t.trng, bays := t.bays }
  | .commandDispatch _ =>
    t = { s with free := t.free, faults := t.faults, outs := t.outs, dev := t.dev, ctl := t.ctl, cmds := t.cmds,
                  nextFin := t.nextFin, zeroMarks := t.zeroMarks, clusters := t.clusters, lfailed := t.lfailed,
                  cores := t.cores, dram := t.dram, sram := t.sram, local_ := t.local_, host := t.host,
                  poison := t.poison, ports := t.ports, devTele := t.devTele, minor := t.minor, errLog := t.errLog,
                  bootLog := t.bootLog, trng := t.trng, bays := t.bays }
  | .pegDrainLimit =>
    t = { s with free := t.free, faults := t.faults, outs := t.outs, dev := t.dev, ctl := t.ctl, cmds := t.cmds,
                  nextFin := t.nextFin, peg := t.peg, zeroMarks := t.zeroMarks, clusters := t.clusters,
                  lfailed := t.lfailed, cores := t.cores, dram := t.dram, sram := t.sram, local_ := t.local_,
                  host := t.host, poison := t.poison, ports := t.ports, devTele := t.devTele, errLog := t.errLog,
                  bootLog := t.bootLog, trng := t.trng, bays := t.bays }
  | _ => True

/-- What each of the Scarf engine may change. -/
def frameScarf (i : Instr) (s t : State) : Prop := match i with
  | .bundleLanding _ _ _ =>
    t = { s with free := t.free, bays := t.bays }
  | .fragment _ _ _ | .digest _ _ _ | .controlAcknowledgement _ _ _ | .ackTimer _ _ =>
    t = { s with outs := t.outs, far := t.far, bays := t.bays }
  | .joinHelloTimeout _ | .peerUnreachable _ _ =>
    t = { s with ctl := t.ctl, cmds := t.cmds, nextFin := t.nextFin, bays := t.bays }
  | .bundleGrant _ _ _ =>
    t = { s with free := t.free, outs := t.outs, far := t.far, farSent := t.farSent, bays := t.bays }
  | .rtoExpiry _ _ =>
    t = { s with outs := t.outs, ctl := t.ctl, cmds := t.cmds, nextFin := t.nextFin, far := t.far, bays := t.bays }
  | .sack _ _ _ =>
    t = { s with free := t.free, ctl := t.ctl, cmds := t.cmds, nextFin := t.nextFin, far := t.far, bays := t.bays }
  | .admissionVector _ _ _ | .admissionCut _ =>
    t = { s with outs := t.outs, dev := t.dev, ports := t.ports, far := t.far, devTele := t.devTele,
                  errLog := t.errLog, bays := t.bays }
  | .catchupRequest _ _ _ =>
    t = { s with faults := t.faults, outs := t.outs, dev := t.dev, cmds := t.cmds, far := t.far,
                  codecFenced := t.codecFenced, errLog := t.errLog, bays := t.bays }
  | .hello _ _ _ =>
    t = { s with outs := t.outs, dev := t.dev, ctl := t.ctl, cmds := t.cmds, nextFin := t.nextFin, far := t.far,
                  errLog := t.errLog, bays := t.bays }
  | .ledgerEntry _ _ _ | .tallySlot _ _ =>
    t = { s with free := t.free, outs := t.outs, dev := t.dev, ports := t.ports, far := t.far, devTele := t.devTele,
                  errLog := t.errLog, bays := t.bays }
  | .digestSettle _ =>
    t = { s with free := t.free, faults := t.faults, outs := t.outs, dev := t.dev, cmds := t.cmds, far := t.far,
                  codecFenced := t.codecFenced, errLog := t.errLog, bays := t.bays }
  | .portHoldTimeout _ | .ledgerFinal _ =>
    t = { s with free := t.free, faults := t.faults, outs := t.outs, dev := t.dev, ctl := t.ctl, cmds := t.cmds,
                  nextFin := t.nextFin, far := t.far, codecFenced := t.codecFenced, errLog := t.errLog,
                  bays := t.bays }
  | .epochClosePass _ =>
    t = { s with free := t.free, faults := t.faults, outs := t.outs, dev := t.dev, ctl := t.ctl, cmds := t.cmds,
                  nextFin := t.nextFin, zeroMarks := t.zeroMarks, dram := t.dram, sram := t.sram, local_ := t.local_,
                  host := t.host, poison := t.poison, far := t.far, codecFenced := t.codecFenced, errLog := t.errLog,
                  bays := t.bays }
  | .catchupData _ _ _ =>
    t = { s with free := t.free, faults := t.faults, outs := t.outs, dev := t.dev, ctl := t.ctl, cmds := t.cmds,
                  nextFin := t.nextFin, zeroMarks := t.zeroMarks, clusters := t.clusters, lfailed := t.lfailed,
                  cores := t.cores, dram := t.dram, sram := t.sram, local_ := t.local_, host := t.host,
                  poison := t.poison, ports := t.ports, far := t.far, devTele := t.devTele, errLog := t.errLog,
                  bootLog := t.bootLog, trng := t.trng, bays := t.bays }
  | _ => True

/-- What each of the site fabric may change. -/
def frameFabric (i : Instr) (s t : State) : Prop := match i with
  | .counterAdd _ =>
    t = { s with cmds := t.cmds, ports := t.ports, bays := t.bays }
  | .collJoinTimeout _ _ =>
    t = { s with ctl := t.ctl, cmds := t.cmds, nextFin := t.nextFin, bays := t.bays }
  | .packetRelay _ _ =>
    t = { s with outs := t.outs, dev := t.dev, ports := t.ports, devTele := t.devTele, errLog := t.errLog }
  | .flitReceive _ _ | .replayRequest _ _ | .stompFlit _ _ =>
    t = { s with outs := t.outs, dev := t.dev, ports := t.ports, devTele := t.devTele, errLog := t.errLog,
                  bays := t.bays }
  | .portRetry _ _ _ =>
    t = { s with outs := t.outs, dev := t.dev, ports := t.ports, devTele := t.devTele, power := t.power,
                  errLog := t.errLog, bootLog := t.bootLog }
  | .readRequest _ =>
    t = { s with free := t.free, outs := t.outs, dev := t.dev, ports := t.ports, devTele := t.devTele,
                  errLog := t.errLog, bays := t.bays }
  | .laneLossOfLock _ _ =>
    t = { s with free := t.free, outs := t.outs, dev := t.dev, ports := t.ports, far := t.far, devTele := t.devTele,
                  errLog := t.errLog, bays := t.bays }
  | .groupControl _ =>
    t = { s with outs := t.outs, dev := t.dev, ctl := t.ctl, cmds := t.cmds, nextFin := t.nextFin, ports := t.ports,
                  devTele := t.devTele, errLog := t.errLog, bays := t.bays }
  | .fabricWrite _ =>
    t = { s with outs := t.outs, dev := t.dev, zeroMarks := t.zeroMarks, dram := t.dram, sram := t.sram,
                  local_ := t.local_, host := t.host, poison := t.poison, ports := t.ports, devTele := t.devTele,
                  errLog := t.errLog }
  | .readResponse _ =>
    t = { s with outs := t.outs, dev := t.dev, ctl := t.ctl, cmds := t.cmds, nextFin := t.nextFin,
                  zeroMarks := t.zeroMarks, dram := t.dram, sram := t.sram, local_ := t.local_, host := t.host,
                  poison := t.poison, ports := t.ports, devTele := t.devTele, errLog := t.errLog, bays := t.bays }
  | .groupAbort _ _ | .collSilentTimeout _ _ | .gatherSegment _ =>
    t = { s with free := t.free, outs := t.outs, dev := t.dev, ctl := t.ctl, cmds := t.cmds, nextFin := t.nextFin,
                  zeroMarks := t.zeroMarks, dram := t.dram, sram := t.sram, local_ := t.local_, host := t.host,
                  poison := t.poison, ports := t.ports, devTele := t.devTele, errLog := t.errLog, bays := t.bays }
  | .collectiveSegment _ =>
    t = { s with free := t.free, faults := t.faults, outs := t.outs, dev := t.dev, ctl := t.ctl, cmds := t.cmds,
                  nextFin := t.nextFin, zeroMarks := t.zeroMarks, clusters := t.clusters, lfailed := t.lfailed,
                  dram := t.dram, sram := t.sram, local_ := t.local_, host := t.host, poison := t.poison,
                  ports := t.ports, devTele := t.devTele, errLog := t.errLog, bays := t.bays }
  | _ => True

/-- What each of repair, ageing, boot and firmware may change. -/
def frameBoot (i : Instr) (s t : State) : Prop := match i with
  | .patrolScrub _ =>
    t = s
  | .dramRefresh _ _ _ =>
    t = { s with bays := t.bays }
  | .historyWrite =>
    t = { s with flash := t.flash, season := t.season }
  | .pldmFirmwareUpdate _ =>
    t = { s with flash := t.flash, boot := t.boot }
  | .imageSelection =>
    t = { s with flash := t.flash, boot := t.boot, power := t.power, bootLog := t.bootLog }
  | .cubeSubstitution _ _ _ =>
    t = { s with outs := t.outs, dev := t.dev, clusters := t.clusters, errLog := t.errLog, bays := t.bays }
  | .dramTraining _ _ =>
    t = { s with boot := t.boot, t3cap := t.t3cap, dramRepairs := t.dramRepairs, power := t.power,
                  bootLog := t.bootLog }
  | .bist _ =>
    t = { s with flash := t.flash, boot := t.boot, clusters := t.clusters, dramRepairs := t.dramRepairs,
                  power := t.power, bootLog := t.bootLog }
  | .coreRetirement _ _ =>
    t = { s with outs := t.outs, flash := t.flash, dev := t.dev, clusters := t.clusters, errLog := t.errLog,
                  bays := t.bays }
  | .bankRetirement _ _ =>
    t = { s with free := t.free, outs := t.outs, flash := t.flash, dev := t.dev, clusters := t.clusters,
                  errLog := t.errLog, bays := t.bays }
  | .gcrtBroadcast _ =>
    t = { s with flash := t.flash, boot := t.boot, clusters := t.clusters, lmap := t.lmap, lrisk := t.lrisk,
                  lfailed := t.lfailed, gcrt := t.gcrt, power := t.power, bootLog := t.bootLog }
  | .ready =>
    t = { s with free := t.free, outs := t.outs, flash := t.flash, boot := t.boot, dev := t.dev,
                  devSince := t.devSince, season := t.season, errLog := t.errLog, bootLog := t.bootLog }
  | .laneTraining _ _ _ =>
    t = { s with free := t.free, outs := t.outs, boot := t.boot, dev := t.dev, ports := t.ports, far := t.far,
                  devTele := t.devTele, power := t.power, errLog := t.errLog, bootLog := t.bootLog }
  | .seasoningSample _ =>
    t = { s with free := t.free, outs := t.outs, dev := t.dev, clusters := t.clusters, ports := t.ports,
                  devTele := t.devTele, minor := t.minor, season := t.season, errLog := t.errLog, bays := t.bays }
  | .nvOverlay =>
    t = { s with outs := t.outs, boot := t.boot, bootFeat := t.bootFeat, effFeat := t.effFeat, dev := t.dev,
                  clusters := t.clusters, nv := t.nv, far := t.far, power := t.power, season := t.season,
                  errLog := t.errLog, bootLog := t.bootLog }
  | .clusterRetirement _ =>
    t = { s with outs := t.outs, flash := t.flash, dev := t.dev, clusters := t.clusters, lmap := t.lmap,
                  lrisk := t.lrisk, cores := t.cores, gcrt := t.gcrt, sram := t.sram, local_ := t.local_,
                  poison := t.poison, power := t.power, errLog := t.errLog, bays := t.bays }
  | .bootRomStage _ =>
    t = { s with free := t.free, faults := t.faults, outs := t.outs, boot := t.boot, dev := t.dev, ctl := t.ctl,
                  cmds := t.cmds, nextFin := t.nextFin, zeroMarks := t.zeroMarks, clusters := t.clusters,
                  lfailed := t.lfailed, cores := t.cores, dram := t.dram, sram := t.sram, local_ := t.local_,
                  host := t.host, poison := t.poison, ports := t.ports, devTele := t.devTele, power := t.power,
                  errLog := t.errLog, bootLog := t.bootLog, trng := t.trng, bays := t.bays }
  | .lineRecovery _ _ _ _ _ =>
    t = { s with free := t.free, faults := t.faults, outs := t.outs, dev := t.dev, ctl := t.ctl, cmds := t.cmds,
                  nextFin := t.nextFin, zeroMarks := t.zeroMarks, clusters := t.clusters, lfailed := t.lfailed,
                  cores := t.cores, dram := t.dram, sram := t.sram, local_ := t.local_, host := t.host,
                  poison := t.poison, ports := t.ports, far := t.far, devTele := t.devTele, season := t.season,
                  errLog := t.errLog, bootLog := t.bootLog, trng := t.trng, bays := t.bays }
  | .pciePerstN _ =>
    t = { s with free := t.free, outs := t.outs, clock := t.clock, boot := t.boot, dev := t.dev, ctl := t.ctl,
                  urg := t.urg, urgRing := t.urgRing, msix := t.msix, cmds := t.cmds, nextAdm := t.nextAdm,
                  nextFin := t.nextFin, joiner := t.joiner, version := t.version, peg := t.peg,
                  zeroMarks := t.zeroMarks, clusters := t.clusters, lmap := t.lmap, lrisk := t.lrisk,
                  lfailed := t.lfailed, cores := t.cores, gcrt := t.gcrt, dram := t.dram, sram := t.sram,
                  local_ := t.local_, poison := t.poison, ports := t.ports, far := t.far, devTele := t.devTele,
                  codecFenced := t.codecFenced, bootLog := t.bootLog, trng := t.trng, bays := t.bays }
  | .pendingBankTimeout =>
    t = { s with free := t.free, outs := t.outs, clock := t.clock, flash := t.flash, boot := t.boot, dev := t.dev,
                  ctl := t.ctl, urg := t.urg, urgRing := t.urgRing, msix := t.msix, cmds := t.cmds,
                  nextAdm := t.nextAdm, nextFin := t.nextFin, joiner := t.joiner, version := t.version, peg := t.peg,
                  zeroMarks := t.zeroMarks, clusters := t.clusters, lmap := t.lmap, lrisk := t.lrisk,
                  lfailed := t.lfailed, cores := t.cores, gcrt := t.gcrt, dram := t.dram, sram := t.sram,
                  local_ := t.local_, poison := t.poison, ports := t.ports, far := t.far, devTele := t.devTele,
                  codecFenced := t.codecFenced, bootLog := t.bootLog, trng := t.trng, bays := t.bays }
  | .powerInRange | .resetN _ =>
    t.pending = s.pending ∧ t.faults = s.faults ∧ t.factory = s.factory ∧ t.host = s.host ∧
      t.hostDeny = s.hostDeny ∧ t.sensors = s.sensors ∧ t.vin = s.vin ∧ t.iin = s.iin ∧ t.pout = s.pout
  | _ => True

/-- What each of power, alarms, thermal, clocks, time, entropy and the remaining events may change. -/
def framePower (i : Instr) (s t : State) : Prop := match i with
  | .cxlLinkDown _ =>
    t = { s with t3down := t.t3down }
  | .dramThermalHold _ _ =>
    t = { s with dramHolds := t.dramHolds }
  | .farFilteredFrame _ =>
    t = { s with devTele := t.devTele }
  | .licenceWindowEdge =>
    t = { s with effFeat := t.effFeat }
  | .trngStartupDone =>
    t = { s with trng := t.trng }
  | .siteTodFrame _ =>
    t = { s with clock := t.clock, devTele := t.devTele }
  | .ppsHoldover =>
    t = { s with outs := t.outs, clock := t.clock, dev := t.dev }
  | .catchupTimeout _ =>
    t = { s with ctl := t.ctl, cmds := t.cmds, nextFin := t.nextFin, bays := t.bays }
  | .thermalSensorSample _ =>
    t = { s with outs := t.outs, dev := t.dev, dies := t.dies, sensors := t.sensors }
  | .alarmConditionCleared =>
    t = { s with dev := t.dev, ctl := t.ctl, cmds := t.cmds, nextFin := t.nextFin, trng := t.trng, bays := t.bays }
  | .dramThermalRelease _ _ =>
    t = { s with free := t.free, outs := t.outs, dev := t.dev, dramHolds := t.dramHolds, errLog := t.errLog,
                  bays := t.bays }
  | .protectionLevelExit _ =>
    t = { s with free := t.free, outs := t.outs, dev := t.dev, dies := t.dies, errLog := t.errLog, bays := t.bays }
  | .sitePpsEdge =>
    t = { s with outs := t.outs, clock := t.clock, flash := t.flash, effFeat := t.effFeat, dev := t.dev,
                  devTele := t.devTele, errLog := t.errLog }
  | .managementPacket _ _ =>
    t = { s with free := t.free, outs := t.outs, dev := t.dev, ports := t.ports, far := t.far, devTele := t.devTele,
                  errLog := t.errLog, bays := t.bays }
  | .trngHealthFailure =>
    t = { s with outs := t.outs, dev := t.dev, ctl := t.ctl, cmds := t.cmds, nextFin := t.nextFin,
                  errLog := t.errLog, trng := t.trng, bays := t.bays }
  | .trngOutput _ =>
    t = { s with outs := t.outs, dev := t.dev, ctl := t.ctl, cmds := t.cmds, nextFin := t.nextFin,
                  zeroMarks := t.zeroMarks, dram := t.dram, sram := t.sram, local_ := t.local_, host := t.host,
                  poison := t.poison, errLog := t.errLog, trng := t.trng, bays := t.bays }
  | .keyAlarm _ =>
    t = { s with free := t.free, faults := t.faults, outs := t.outs, dev := t.dev, ctl := t.ctl, cmds := t.cmds,
                  nextFin := t.nextFin, zeroMarks := t.zeroMarks, clusters := t.clusters, lfailed := t.lfailed,
                  cores := t.cores, dram := t.dram, sram := t.sram, local_ := t.local_, host := t.host,
                  poison := t.poison, ports := t.ports, devTele := t.devTele, errLog := t.errLog,
                  bootLog := t.bootLog, trng := t.trng, bays := t.bays }
  | .jtagInstructionLoad _ =>
    t = { s with free := t.free, faults := t.faults, outs := t.outs, boot := t.boot, dev := t.dev, ctl := t.ctl,
                  cmds := t.cmds, nextFin := t.nextFin, zeroMarks := t.zeroMarks, clusters := t.clusters,
                  lfailed := t.lfailed, cores := t.cores, dram := t.dram, sram := t.sram, local_ := t.local_,
                  host := t.host, poison := t.poison, ports := t.ports, devTele := t.devTele, errLog := t.errLog,
                  bootLog := t.bootLog, trng := t.trng, bays := t.bays }
  | .pllLossOfLock _ =>
    t = { s with free := t.free, faults := t.faults, outs := t.outs, dev := t.dev, ctl := t.ctl, cmds := t.cmds,
                  nextFin := t.nextFin, zeroMarks := t.zeroMarks, clusters := t.clusters, lfailed := t.lfailed,
                  cores := t.cores, dram := t.dram, sram := t.sram, local_ := t.local_, host := t.host,
                  poison := t.poison, ports := t.ports, far := t.far, devTele := t.devTele, errLog := t.errLog,
                  bootLog := t.bootLog, trng := t.trng, bays := t.bays }
  | .thermalTrip _ _ =>
    t = { s with free := t.free, faults := t.faults, outs := t.outs, flash := t.flash, boot := t.boot, dev := t.dev,
                  ctl := t.ctl, cmds := t.cmds, nextFin := t.nextFin, zeroMarks := t.zeroMarks,
                  clusters := t.clusters, lfailed := t.lfailed, cores := t.cores, gcrt := t.gcrt, dram := t.dram,
                  sram := t.sram, local_ := t.local_, host := t.host, poison := t.poison, ports := t.ports,
                  devTele := t.devTele, power := t.power, errLog := t.errLog, bootLog := t.bootLog, trng := t.trng,
                  bays := t.bays }
  | .inputFault _ =>
    t = { s with free := t.free, faults := t.faults, outs := t.outs, flash := t.flash, boot := t.boot, dev := t.dev,
                  ctl := t.ctl, cmds := t.cmds, nextFin := t.nextFin, zeroMarks := t.zeroMarks,
                  clusters := t.clusters, lfailed := t.lfailed, cores := t.cores, gcrt := t.gcrt, dram := t.dram,
                  sram := t.sram, local_ := t.local_, host := t.host, poison := t.poison, ports := t.ports,
                  devTele := t.devTele, power := t.power, vin := t.vin, errLog := t.errLog, bootLog := t.bootLog,
                  trng := t.trng, bays := t.bays }
  | .jtagTrstN =>
    t.pending = s.pending ∧ t.faults = s.faults ∧ t.factory = s.factory ∧ t.host = s.host ∧
      t.hostDeny = s.hostDeny ∧ t.sensors = s.sensors ∧ t.vin = s.vin ∧ t.iin = s.iin ∧ t.pout = s.pout
  | _ => True

end Sys2Proof
end

