-- ==== Sys2Proof/WellFormed.lean ====
section
/-!
DEFINITION. Well-formed commands: every operand within the field that carries it. A submission entry's operands come from
fields of fixed width (R142 to R144, chapter 07); an event names a port, lane, unit, bay or site that the device has.
-/
namespace Sys2Proof

/-- A value that a field of `n` bits holds. -/
def fits (n v : Nat) : Bool := decide (v < 2 ^ n)

/-- `n` lists of `m` values. -/
def lists (n m : Nat) (l : List (List Nat)) : Bool := l.length == n && l.all (fun x => x.length == m)

def Origin.wf : Origin → Bool
  | .bay b sq => decide (b < 16) && decide (sq < 8)
  | .control => true
  | .urgent => true

/-- PRIO has two bits, WAIT_CTR and SIGNAL_CTR eight (Table 6.1). -/
def Hdr.wf (h : Hdr) : Bool :=
  h.org.wf && decide (h.prio < 4) && (h.wait.map (fun w => decide (w.1 < 256))).getD true &&
    (h.signal.map (fun c => decide (c < 256))).getD true

def MatmulBlk.wf (m : MatmulBlk) : Bool :=
  [m.aAddr, m.bAddr, m.cAddr, m.cinAddr, m.rescaleAddr, m.statsAddr].all (fits 64) &&
    [m.m, m.n, m.k, m.lda, m.ldb, m.ldc, m.ldcin].all (fits 32) && fits 4 m.opfmt && fits 4 m.resfmt && fits 3 m.rnd

def pairsFit (l : List (Nat × Nat)) : Bool := l.length == 4 && l.all (fun p => fits 64 p.1 && fits 64 p.2)

def KernelBlk.wf (k : KernelBlk) : Bool :=
  fits 64 k.imageAddr && fits 32 k.imageLen && fits 64 k.entry && fits 64 k.argAddr && fits 64 k.cycleLimit &&
    fits 8 k.policy && pairsFit k.readRanges && pairsFit k.writeRanges

def QueueOps.wf (q : QueueOps) : Bool :=
  fits 64 q.ringAddr && [q.qtype, q.qid, q.log2Size, q.cqid, q.coalCount, q.weight].all (fits 8) &&
    fits 16 q.vector && fits 16 q.coalTime

def MemMapOps.wf (o : MemMapOps) : Bool :=
  fits 64 o.addr && fits 64 o.dpa && fits 32 o.count && [o.op, o.size, o.attr].all (fits 8)

def StatsOps.wf (o : StatsOps) : Bool :=
  fits 64 o.src && fits 64 o.dst && [o.rows, o.cols, o.ld].all (fits 32) && fits 8 o.fmt

def ConvertOps.wf (o : ConvertOps) : Bool :=
  fits 64 o.src && fits 64 o.dst && fits 32 o.count && fits 8 o.srcFmt && fits 8 o.dstFmt

def RngOps.wf (o : RngOps) : Bool := fits 64 o.dst && fits 32 o.count && fits 8 o.fmt && fits 8 o.dist

def GatherEntry.wf (g : GatherEntry) : Bool :=
  fits 8 g.fmt && [g.firstRow, g.rowCount, g.dstStride].all (fits 32) && fits 64 g.dst

def CollOps.wf (o : CollOps) : Bool :=
  [o.src, o.dst, o.count, o.rstride].all (fits 64) && fits 16 o.group && [o.op, o.fmt, o.algo].all (fits 8) && fits 32 o.root

def GroupBlk.wf (g : GroupBlk) : Bool :=
  fits 8 g.members && fits 8 g.thisMember && [g.treeMax, g.chainAbove, g.silentMs, g.joinMs].all (fits 32) &&
    g.nodes.length == 64 && g.nodes.all (fits 16)

def TrigBlk.wf (t : TrigBlk) : Bool :=
  [t.kind, t.issuer, t.waitCtr, t.signalCtr, t.remoteCtr, t.vc, t.copcode, t.op, t.fmt, t.algo].all (fits 8) &&
    fits 16 t.group && [t.src, t.dst, t.length, t.rstride].all (fits 64) && fits 32 t.root

def Peer.wf (p : Peer) : Bool := fits 128 p.addr && fits 16 p.port

def JoinBlk.wf (j : JoinBlk) : Bool :=
  [j.thisSite, j.members, j.thisMember, j.farPorts].all (fits 8) &&
    [j.h, j.graceUs, j.takeoverUs, j.digestUs, j.rtxGib, j.recvGib].all (fits 32) &&
    [j.t0, j.periodNs, j.landAddr, j.landLen].all (fits 64) && j.stale.length == 3 && fits 16 j.udpPort &&
    fits 128 j.srcIp && fits 48 j.mac0 && fits 48 j.mac1 && j.peers.length == 16 && j.peers.all Peer.wf

def CutBlk.wf (c : CutBlk) : Bool := [c.kerfMaster, c.kerfM1, c.kerfM2, c.kerfOmom].all (fits 64)

def CipherOps.wf (o : CipherOps) : Bool :=
  [o.src, o.dst, o.length, o.aadAddr, o.auxAddr].all (fits 64) && fits 8 o.slot && fits 32 o.aadLen

def ShareOps.wf (o : ShareOps) : Bool :=
  fits 16 o.slotLimit && o.weights.length == 8 && o.weights.all (fits 8) && fits 8 o.farShare

/-- A core that a cluster has: logical cluster and physical core (Table 1.7). -/
def CoreRef.wf (c : CoreRef) : Bool := decide (c.lc < 32) && decide (c.core < 10)

def HostWrite.wf (w : HostWrite) : Bool := fits 64 w.iova

def Func.wf : Func → Bool
  | .pf => true
  | .vf b => decide (b < 16)

def HostReq.wf : HostReq → Bool
  | .pf => true
  | .vf b => decide (b < 16)
  | .unsupported fn => fn.wf

/-- Field widths of Table 10.3, and at most 2,048 payload bytes (R253). -/
def Packet.wf (p : Packet) : Bool :=
  fits 12 p.dnode && fits 12 p.snode && fits 3 p.vc && fits 5 p.typ && fits 4 p.bay && fits 6 p.group &&
    fits 4 p.hops && fits 48 p.offset && fits 16 p.tag && decide (p.data.length ≤ 2048)

/-- Field widths of Table 10.2, and 2,560 payload bytes. -/
def Flit.wf (f : Flit) : Bool :=
  fits 4 f.kind && fits 12 f.fseq && fits 12 f.ackseq && fits 3 f.crvc && fits 9 f.crcount && f.payload.length == 2560

def CollSeg.wf (g : CollSeg) : Bool :=
  decide (g.bay < 16) && decide (g.group < 64) && decide (g.member < 64) && g.ops.wf && fits 3 g.vc &&
    decide (g.lo ≤ g.hi) && g.elems.all (fits 64)

def GatherSeg.wf (g : GatherSeg) : Bool := decide (g.bay < 16) && decide (g.member < 64) && g.want.wf && fits 3 g.vc

def JoinPacket.wf (j : JoinPacket) : Bool :=
  decide (j.bay < 16) && decide (j.group < 64) && decide (j.member < 64) && fits 12 j.snode &&
    j.versions.length == 5 && (j.digest.length == 32 || j.digest.isEmpty)

/-- Field widths of Table 11.5. -/
def Dgram.wf (d : Dgram) : Bool :=
  fits 4 d.srcSite && fits 4 d.dstSite && fits 8 d.member && fits 8 d.frag && fits 8 d.fragCount && fits 64 d.sent &&
    fits 64 d.echo && decide (d.tag.length ≤ 16)

def FarFrame.wf (f : FarFrame) : Bool :=
  decide (f.port < 2) && fits 48 f.dmac && fits 16 f.etherType && fits 8 f.nextHeader && fits 128 f.dstIp && fits 16 f.dstPort

def MgmtMsg.wf : MgmtMsg → Bool
  | .report m _ _ _ _ => decide (m < 64)
  | .vector _ _ => true
  | .entry _ _ => true

def CqRef.wf : CqRef → Bool
  | .bay b cq => decide (b < 16) && decide (cq < 8)
  | .control => true
  | .urgent => true

def Pll.wf : Pll → Bool
  | .system => true
  | .host => true
  | .fabricPort p => decide (p < 12)
  | .farPort p => decide (p < 2)

def LineKind.wf : LineKind → Bool
  | .state cls => decide (cls < 3)
  | _ => true

def BistFail.wf : BistFail → Bool
  | .cube c e k => decide (c < 34) && decide (e < 4) && decide (k < 68)
  | .core c k => decide (c < 34) && decide (k < 10)
  | .bank c k => decide (c < 34) && decide (k < 68)
  | .cluster c => decide (c < 34)
  | .dramRow u => decide (u < 24)
  | .fatal k => decide (k < 20)

/-- A unit that SEASON_REPORT lists (R348). -/
def SeasonReading.wf (r : SeasonReading) : Bool := match r.kind with
  | 2 => decide (r.unit < 34)
  | 8 => decide (r.unit / 32 < 12) && decide (r.unit % 32 < 17)
  | 10 => decide (r.unit < 8)
  | 11 => decide (r.unit < 16)
  | 12 => decide (r.unit < 4)
  | 13 => decide (r.unit / 32 < 2) && decide (r.unit % 32 < 8)
  | _ => false

/-- A well-formed command. -/
def Instr.wf : Instr → Bool
  | .nop h => h.wf
  | .identify h bay dst => h.wf && fits 8 bay && fits 64 dst
  | .getLog h log _ bay dst length offset =>
    h.wf && fits 8 log && fits 8 bay && fits 64 dst && fits 32 length && fits 32 offset
  | .queueCreate h q => h.wf && q.wf
  | .queueDelete h qtype qid => h.wf && fits 8 qtype && fits 8 qid
  | .counterSet h ctr _ _ _ => h.wf && decide (ctr < 256)
  | .memCopy h src dst length => h.wf && fits 64 src && fits 64 dst && fits 64 length
  | .memFill h dst length _ => h.wf && fits 64 dst && fits 64 length
  | .memMap h o => h.wf && o.wf
  | .memPlace h addr length dest => h.wf && fits 64 addr && fits 64 length && fits 8 dest
  | .kernelLaunch h k => h.wf && k.wf
  | .matmul h m => h.wf && m.wf
  | .quantStats h o => h.wf && o.wf
  | .convert h o => h.wf && o.wf
  | .rngFill h o => h.wf && o.wf
  | .stepGather h _ entries => h.wf && entries.all GatherEntry.wf
  | .stepUpdate h hpAddr _ _ _ => h.wf && fits 64 hpAddr
  | .updateArm h hpAddr _ group _ => h.wf && fits 64 hpAddr && fits 16 group
  | .updateDisarm h _ => h.wf
  | .normClip h group _ _ => h.wf && fits 16 group
  | .shardMapLoad h addr len => h.wf && fits 64 addr && fits 32 len
  | .collAllreduce h o => h.wf && o.wf
  | .collAllgather h o => h.wf && o.wf
  | .collReduceScatter h o => h.wf && o.wf
  | .collBroadcast h o => h.wf && o.wf
  | .collGroupCreate h group blk => h.wf && fits 16 group && blk.wf
  | .collGroupDestroy h group => h.wf && fits 16 group
  | .triggerArm h t => h.wf && t.wf
  | .triggerDisarm h handle => h.wf && fits 16 handle
  | .scarfJoin h blk group slot => h.wf && blk.wf && fits 16 group && fits 8 slot
  | .scarfLeave h => h.wf
  | .scarfEpochClose h _ _ => h.wf
  | .scarfCancel h _ site _ => h.wf && fits 8 site
  | .scarfCatchup h site => h.wf && fits 8 site
  | .ckptCut h _ blk => h.wf && blk.wf
  | .ckptDrain h dst _ path slot => h.wf && fits 64 dst && fits 8 path && fits 8 slot
  | .ckptRelease h _ => h.wf
  | .ckptRestore h manifest src slot => h.wf && fits 64 manifest && fits 64 src && fits 8 slot
  | .ckptVerify h manifest src slot => h.wf && fits 64 manifest && fits 64 src && fits 8 slot
  | .exportStream h dst maxBytes _ => h.wf && fits 64 dst && fits 64 maxBytes
  | .txnBegin h bay => h.wf && fits 8 bay
  | .txnCommit h bay drainUs => h.wf && fits 8 bay && fits 16 drainUs
  | .txnRollback h bay => h.wf && fits 8 bay
  | .bindCluster h bay _ _ => h.wf && fits 8 bay
  | .bindMemory h bay _ first count => h.wf && fits 8 bay && fits 32 first && fits 32 count
  | .bindShares h bay o => h.wf && fits 8 bay && o.wf
  | .bayReset h bay _ => h.wf && fits 8 bay
  | .keyLoad h slot mode addr => h.wf && fits 8 slot && fits 8 mode && fits 64 addr
  | .keyErase h slot => h.wf && fits 8 slot
  | .cipherRun h o => h.wf && o.wf
  | .digestRun h src dst length => h.wf && fits 64 src && fits 64 dst && fits 64 length
  | .entropyRead h dst length => h.wf && fits 64 dst && fits 32 length
  | .licenceInstall h addr len => h.wf && fits 64 addr && fits 32 len
  | .telemetryRead h window dst length => h.wf && fits 8 window && fits 64 dst && fits 32 length
  | .seasonReport h dst length => h.wf && fits 64 dst && fits 32 length
  | .floorplanRead h dst length => h.wf && fits 64 dst && fits 32 length
  | .linkTest h port pattern durationMs => h.wf && fits 8 port && fits 8 pattern && fits 32 durationMs
  | .haltBay h bay => h.wf && fits 8 bay
  | .evictBay h bay _ => h.wf && fits 8 bay
  | .resumeBay h bay => h.wf && fits 8 bay
  | .tidyCvt c vd vs2 => c.wf && decide (vd < 32) && decide (vs2 < 32)
  | .tidyWid c vd vs2 => c.wf && decide (vd < 32) && decide (vs2 < 32)
  | .tidyStat c vd vs2 => c.wf && decide (vd < 32) && decide (vs2 < 32)
  | .tidyRsc c vd vs2 rs1 => c.wf && decide (vd < 32) && decide (vs2 < 32) && decide (rs1 < 32)
  | .tidyQblk c vd vs2 => c.wf && decide (vd < 32) && decide (vs2 < 32)
  | .tidyDrop c vd vs2 rs1 => c.wf && decide (vd < 32) && decide (vs2 < 32) && decide (rs1 < 32)
  | .tidyGth c vd vs2 => c.wf && decide (vd < 32) && decide (vs2 < 32)
  | .tidySct c vs3 vs2 => c.wf && decide (vs3 < 32) && decide (vs2 < 32)
  | .grainGet c vd rs1 => c.wf && decide (vd < 32) && decide (rs1 < 32)
  | .tidyDma c rs1 rs2 => c.wf && decide (rs1 < 32) && decide (rs2 < 32)
  | .xtenonCsrWrite c csr _ => c.wf && fits 12 csr
  | .kernelEcallExit c => c.wf
  | .coreException c cause _ => c.wf && fits 64 cause
  | .cycleLimit _ => true
  | .dmaDescriptorDone c chan => c.wf && decide (chan < 2)
  | .submissionDoorbell bay q _ written => decide (bay < 16) && decide (q < 8) && written.all HostWrite.wf
  | .completionDoorbell bay q _ => decide (bay < 16) && decide (q < 8)
  | .ctlSqTail _ written => written.all HostWrite.wf
  | .ctlCqHead _ => true
  | .urgSqTail _ => true
  | .urgCqHead _ => true
  | .eventCounterWrite bay ctr _ => decide (bay < 16) && decide (ctr < 256)
  | .intMaskWrite _ => true
  | .eventMaskWrite bay _ => decide (bay < 16)
  | .coreReset _ => true
  | .clusterReset _ => true
  | .deviceReset _ => true
  | .powerDown _ => true
  | .controlPairEnable _ => true
  | .controlPairDisable _ => true
  | .adminPairEnable bay _ => decide (bay < 16)
  | .adminPairDisable bay _ => decide (bay < 16)
  | .urgentQueueEnable _ => true
  | .urgentQueueDisable _ => true
  | .registerWrite fn offset data => fn.wf && fits 24 offset && decide (data.length ≤ 64)
  | .apertureRead bay offset length => decide (bay < 16) && fits 64 offset && fits 64 length
  | .apertureWrite bay offset _ => decide (bay < 16) && fits 64 offset
  | .vfFunctionLevelReset bay => decide (bay < 16)
  | .pfFunctionLevelReset => true
  | .entryFetch _ => true
  | .commandDispatch _ => true
  | .completionPost cq => cq.wf
  | .coalesceTimer cq => cq.wf
  | .urgentDoorbellSample => true
  | .triggerFire bay handle => decide (bay < 16) && decide (handle < 64)
  | .pegDrainLimit => true
  | .pegComplete => true
  | .bayHalted bay => decide (bay < 16)
  | .haltMemoryAbsorb bay _ => decide (bay < 16)
  | .haltFlushLate bay => decide (bay < 16)
  | .clusterResetAbsorb lc => decide (lc < 32)
  | .updateSegmentArrival bay _ elems => decide (bay < 16) && elems.all (fits 32)
  | .cutCopy bay => decide (bay < 16)
  | .predictiveCut bay => decide (bay < 16)
  | .evictBoundaryReached bay => decide (bay < 16)
  | .evictTimeout bay => decide (bay < 16)
  | .epochClosePass bay => decide (bay < 16)
  | .bundleGrant bay _ site => decide (bay < 16) && decide (site < 16)
  | .bundleLanding bay site _ => decide (bay < 16) && decide (site < 16)
  | .fragment bay port d => decide (bay < 16) && decide (port < 2) && d.wf
  | .sack bay port d => decide (bay < 16) && decide (port < 2) && d.wf
  | .admissionVector bay port d => decide (bay < 16) && decide (port < 2) && d.wf
  | .ledgerEntry bay port d => decide (bay < 16) && decide (port < 2) && d.wf
  | .digest bay port d => decide (bay < 16) && decide (port < 2) && d.wf
  | .catchupRequest bay port d => decide (bay < 16) && decide (port < 2) && d.wf
  | .catchupData bay port d => decide (bay < 16) && decide (port < 2) && d.wf
  | .controlAcknowledgement bay port d => decide (bay < 16) && decide (port < 2) && d.wf
  | .hello bay port d => decide (bay < 16) && decide (port < 2) && d.wf
  | .joinHelloTimeout bay => decide (bay < 16)
  | .ackTimer bay site => decide (bay < 16) && decide (site < 16)
  | .rtoExpiry bay site => decide (bay < 16) && decide (site < 16)
  | .peerUnreachable bay site => decide (bay < 16) && decide (site < 16)
  | .portHoldTimeout bay => decide (bay < 16)
  | .admissionCut bay => decide (bay < 16)
  | .tallySlot bay slot => decide (bay < 16) && decide (slot < 16)
  | .ledgerFinal bay => decide (bay < 16)
  | .digestSettle bay => decide (bay < 16)
  | .flitReceive port f => decide (port < 12) && f.wf
  | .replayRequest port f => decide (port < 12) && f.wf
  | .stompFlit port f => decide (port < 12) && f.wf
  | .packetRelay port p => decide (port < 12) && p.wf
  | .fabricWrite p => p.wf
  | .readRequest p => p.wf
  | .readResponse p => p.wf
  | .collectiveSegment g => g.wf
  | .gatherSegment g => g.wf
  | .counterAdd p => p.wf
  | .groupControl j => j.wf
  | .groupAbort bay group => decide (bay < 16) && decide (group < 64)
  | .collJoinTimeout bay group => decide (bay < 16) && decide (group < 64)
  | .collSilentTimeout bay group => decide (bay < 16) && decide (group < 64)
  | .laneLossOfLock port lane => decide (port < 14) && decide (lane < if port < 12 then 17 else 8)
  | .portRetry port _ laneErrors => decide (port < 12) && laneErrors.length == 17
  | .seasoningSample readings => readings.all SeasonReading.wf
  | .cubeSubstitution cluster engine cube => decide (cluster < 34) && decide (engine < 4) && decide (cube < 68)
  | .clusterRetirement lc => decide (lc < 32)
  | .coreRetirement cluster core => decide (cluster < 34) && decide (core < 10)
  | .bankRetirement cluster bank => decide (cluster < 34) && decide (bank < 68)
  | .lineRecovery _ kind _ _ _ => kind.wf
  | .historyWrite => true
  | .patrolScrub _ => true
  | .dramRefresh bay _ _ => decide (bay < 16)
  | .powerInRange => true
  | .resetN _ => true
  | .pciePerstN _ => true
  | .bootRomStage _ => true
  | .imageSelection => true
  | .nvOverlay => true
  | .dramTraining failedParts t3Gib => failedParts.all (fun p => decide (p < 24)) && t3Gib.length == 4
  | .laneTraining answers laneErrors farErrors =>
    answers.length == 12 && lists 12 17 laneErrors && lists 2 8 farErrors
  | .bist failures => failures.all BistFail.wf
  | .gcrtBroadcast failures => failures.all (fun f => decide (f.1 < 34) && decide (f.2 < 10))
  | .ready => true
  | .pendingBankTimeout => true
  | .pldmFirmwareUpdate components => components.all (fun c => decide (c.1 < 6))
  | .inputFault _ => true
  | .keyAlarm code => decide (code < 4)
  | .thermalTrip sensor reading => decide (sensor < 64) && fits 16 reading
  | .jtagInstructionLoad _ => true
  | .thermalSensorSample readings => readings.length == 64 && readings.all (fits 16)
  | .protectionLevelExit die => decide (die < 3)
  | .dramThermalHold tier2 part => decide (part < (if tier2 then 16 else 8))
  | .dramThermalRelease tier2 part => decide (part < (if tier2 then 16 else 8))
  | .pllLossOfLock pll => pll.wf
  | .cxlLinkDown link => decide (link < 4)
  | .sitePpsEdge => true
  | .siteTodFrame frame => frame.length == 20
  | .ppsHoldover => true
  | .licenceWindowEdge => true
  | .trngOutput samples => samples.length == 1024
  | .trngHealthFailure => true
  | .trngStartupDone => true
  | .catchupTimeout bay => decide (bay < 16)
  | .alarmConditionCleared => true
  | .jtagTrstN => true
  | .farFilteredFrame f => f.wf
  | .managementPacket bay m => decide (bay < 16) && m.wf

end Sys2Proof
end

