-- ==== Sys2Proof/Certificates/Slice0/Obligations.lean ====
section
/-!
DEFINITION. The statements about the model, for the provers. Each docstring says what its statement claims and which rules
of spec/ it rests on.
-/
open Sys2Proof Sys2Proof.Machine

/-- When a command waits at the front of the queue, a step is that command run on the state whose queue is the rest. The
queue is the form of the block (log 3), not a rule of the spec. (00_scope.md, log 3) -/
def Obligations.StepRunsFrontCommand : Prop :=
  ∀ (i : Instr) (rest : List Instr) (s : State), s.pending = i :: rest → step s = exec i { s with pending := rest }

/-- With no command waiting, a step changes the clock, and beside it only what ports send that owe their partner an
acknowledgement or credits: each sends one idle flit (R252). Without power nothing changes; otherwise uptime counts one
ns more, and site time advances by 0, 1 or 2 ns modulo 2^64 as the trim has gathered a whole ns. That the tick is the
step on an empty queue, and that an idle flit with nothing new is left out, are the model's choices (log 3, log 72).
(R252, R393, log 3, log 72) -/
def Obligations.EmptyQueuePassesOneTimeCycle : Prop :=
  ∀ s : State, s.pending = [] → ∃ t, step s = .next t ∧
    t = { s with clock := t.clock, ports := t.ports, outs := t.outs } ∧
    ((s.dev.hold ≠ 0 ∨ ∀ p, p < 12 → (s.port p).owes = false) → t = { s with clock := t.clock }) ∧
    (s.dev.hold = 0 → PartsCounted s → ∀ p, p < 12 → (s.port p).owes = true →
      (t.port p).acked = (s.port p).rxLast ∧ (t.port p).rxLast = (s.port p).rxLast ∧ (t.port p).replay = (s.port p).replay ∧
        ∃ f, f.kind = 1 ∧ Output.flit p f ∈ t.outs) ∧
    (s.dev.hold = 1 → t = s) ∧
    (s.dev.hold ≠ 1 → t.clock.uptime = s.clock.uptime + 1 ∧
      ∃ d, d ≤ 2 ∧ t.clock.site = (if d = 0 then s.clock.site else (s.clock.site + d) % 2 ^ 64) ∧
        t.clock.frac = s.clock.frac + s.clock.trim + (1 - (d : Int)) * 1000000000)

/-- No command of the block faults or is refused, whatever its operands and the state: a rule that a command breaks shows
in a status, a log record or an error bit, and the machine goes on. (06_command_packets.md Table 6.6, 18_registers.md) -/
def Obligations.EveryCommandAnswersNext : Prop := ∀ (i : Instr) (s : State), Safe i s

/-- Whatever command runs, the queue of waiting commands, the fuses and ROM (R374) and the pages that the host refuses
stay as they are: only the outside world changes them. (R374, 15_bringup.md, log 3, log 5) -/
def Obligations.NoCommandTouchesQueueOrFactory : Prop :=
  ∀ (i : Instr) (s t : State), exec i s = .next t →
    t.pending = s.pending ∧ t.factory = s.factory ∧ t.hostDeny = s.hostDeny

/-- If DRAM, cluster SRAM, core local memory, host memory, the urgent ring and the MSI-X tables each list strictly rising
addresses and no zero byte, they do so after every step, whatever command runs: equal memories stay equal data. The
form is the model's (log 2). (05_memory_tiers.md, log 2) -/
def Obligations.StepKeepsMemoriesCanonical : Prop :=
  ∀ s t : State, MemoriesCanonical s → step s = .next t → MemoriesCanonical t

/-- The admission numbers (R154) of the commands that hold slots rise strictly and lie below the next number to be given,
and no two finished commands share a place in the completion order, which lies below the next place; every step keeps
this. (R154, R155) -/
def Obligations.StepKeepsCommandNumbering : Prop :=
  ∀ s t : State, CommandsNumbered s → step s = .next t → CommandsNumbered t

/-- Sixteen bays of 8 submission queues, 8 completion queues, 256 event counters, 4 key slots and 20 counters each, 34
clusters, 12 fabric ports, 2 far ports, 3 dies, 64 sensors and 64 power domains: no step adds or loses one. (R2, R27,
R149, R160, R311, R250, R404, R413, R436) -/
def Obligations.StepKeepsPartCounts : Prop :=
  ∀ s t : State, PartsCounted s → step s = .next t → PartsCounted t

/-- Right after reset every memory is in its canonical form, no command holds a slot, and every part of the machine is
counted. (R218, log 2) -/
def Obligations.ResetMeetsInvariants : Prop :=
  MemoriesCanonical State.reset ∧ CommandsNumbered State.reset ∧ PartsCounted State.reset

/-- After reset every bay is UNBOUND with an empty binding record and the defaults of Table 8.1, its key slots EMPTY, its
counters 0 without ERR; the binding-table version is 0; interrupt causes, masks and alarms are clear; the site-time
counter is 0 and FREE. (R203, R204, R311, R160, R202, R425, R393) -/
def Obligations.ResetState : Prop :=
  (∀ b, b < 16 → (State.reset.bay b).st = .unbound ∧ (State.reset.bay b).bind.clusters = 0 ∧
    (State.reset.bay b).bind.granules = [] ∧ (State.reset.bay b).bind.slotLimit = 256 ∧
    (State.reset.bay b).bind.weights = List.replicate 8 16 ∧ (State.reset.bay b).bind.farShare = 0 ∧
    (State.reset.bay b).keys = List.replicate 4 .empty ∧
    ∀ c, c < 256 → nth (State.reset.bay b).counters c = ⟨0, false⟩) ∧
  State.reset.version = 0 ∧ State.reset.dev.intCause = 0 ∧ State.reset.dev.intMask = 0 ∧ State.reset.dev.alarm = 0 ∧
  State.reset.clock.site = 0 ∧ State.reset.clock.state = 0 ∧ State.reset.cmds = [] ∧ State.reset.pending = []

/-- For each command of the queue opcodes, the state after it equals the state before it in every field but those that
Safety.lean's frameQueue names for that command: memory is among them only for commands that store, a log only for
those that log, a register group only for those that write it. (07_opcodes.md) -/
def Obligations.FrameOfQueueOpcodes : Prop :=
  ∀ (i : Instr) (s t : State), exec i s = .next t → frameQueue i s t

/-- For each command of the core steps, the state after it equals the state before it in every field but those that
Safety.lean's frameCore names for that command: memory is among them only for commands that store, a log only for
those that log, a register group only for those that write it. (04_clusters.md) -/
def Obligations.FrameOfCoreSteps : Prop :=
  ∀ (i : Instr) (s t : State), exec i s = .next t → frameCore i s t

/-- For each command of the doorbells, registers, apertures and resets, the state after it equals the state before it in
every field but those that Safety.lean's frameRegister names for that command: memory is among them only for commands
that store, a log only for those that log, a register group only for those that write it. (18_registers.md) -/
def Obligations.FrameOfRegisterSteps : Prop :=
  ∀ (i : Instr) (s t : State), exec i s = .next t → frameRegister i s t

/-- For each command of the Joiner steps, pegs, halts, and the training and checkpoint events, the state after it equals
the state before it in every field but those that Safety.lean's frameJoiner names for that command: memory is among
them only for commands that store, a log only for those that log, a register group only for those that write it.
(06_command_packets.md) -/
def Obligations.FrameOfJoinerSteps : Prop :=
  ∀ (i : Instr) (s t : State), exec i s = .next t → frameJoiner i s t

/-- For each command of the Scarf engine, the state after it equals the state before it in every field but those that
Safety.lean's frameScarf names for that command: memory is among them only for commands that store, a log only for
those that log, a register group only for those that write it. (11_far_exchange.md) -/
def Obligations.FrameOfScarfSteps : Prop :=
  ∀ (i : Instr) (s t : State), exec i s = .next t → frameScarf i s t

/-- For each command of the site fabric, the state after it equals the state before it in every field but those that
Safety.lean's frameFabric names for that command: memory is among them only for commands that store, a log only for
those that log, a register group only for those that write it. (10_site_fabric.md) -/
def Obligations.FrameOfFabricSteps : Prop :=
  ∀ (i : Instr) (s t : State), exec i s = .next t → frameFabric i s t

/-- For each command of repair, ageing, boot and firmware, the state after it equals the state before it in every field
but those that Safety.lean's frameBoot names for that command: memory is among them only for commands that store, a
log only for those that log, a register group only for those that write it. (15_bringup.md) -/
def Obligations.FrameOfRepairAndBootSteps : Prop :=
  ∀ (i : Instr) (s t : State), exec i s = .next t → frameBoot i s t

/-- For each command of power, alarms, thermal, clocks, time, entropy and the remaining events, the state after it equals
the state before it in every field but those that Safety.lean's framePower names for that command: memory is among
them only for commands that store, a log only for those that log, a register group only for those that write it.
(17_power_clocks.md) -/
def Obligations.FrameOfPowerAndTimeSteps : Prop :=
  ∀ (i : Instr) (s t : State), exec i s = .next t → framePower i s t

/-- A dispatched NOP ends OK with result 0 and changes nothing but its end. IDENTIFY ends OK and writes the 256-byte
structure of Table 7.2 to DST when every byte of DST may be written and no poisoned line must be skipped. GET_LOG
writes LENGTH bytes of the log from OFFSET, reports the bytes written and the bytes available, and with CLEAR empties
the log's records while SEQ and OVERFLOW go on; without CLEAR the log stays. COUNTER_SET writes or adds VALUE, clears
ERR when told, and reports VALUE before it; its own signal counts one more when it names the same counter (no queue of
the bay being deleted). Memory but the buffer, and every bay's state but counters, rings, descriptors and registers,
stays. (R178, R350, R160, R161, 07_opcodes.md Tables 7.1 and 7.2) -/
def Obligations.AdminCommandsComplete : Prop :=
  ∀ (s : State) (c : Slot) (h : Hdr), PartsCounted s →
    (Running s c (.nop h) → ∃ t, exec (.nop h) s = .next t ∧ Ended t c .ok 0 ∧ SameMemory s t ∧
      ∀ b, SameBayCore (s.bay b) (t.bay b)) ∧
    (∀ bay dst, let bs := s.identifyBytes (identifyBay h bay)
      Running s c (.identify h bay dst) → s.outOk h.org dst bs.length → NoSkip s h.org dst bs.length →
      ∃ t, exec (.identify h bay dst) s = .next t ∧ Ended t c .ok 0 ∧ SameMemory (s.outWrite h.org dst bs) t ∧
        ∀ b, SameBayCore (s.bay b) (t.bay b)) ∧
    (∀ log clear bay dst n off, let all := logBytes log (logBay h bay) (s.logOf h log bay)
      let out := slice all off n
      Running s c (.getLog h log clear bay dst n off) → s.outOk h.org dst out.length → NoSkip s h.org dst out.length →
      logBay h bay < 16 →
      ∃ t, exec (.getLog h log clear bay dst n off) s = .next t ∧ Ended t c .ok (out.length + 2 ^ 32 * all.length) ∧
        SameMemory (s.outWrite h.org dst out) t ∧
        t.logOf h log bay =
          (if clear then { s.logOf h log bay with recs := [], cleared := s.clock.site } else s.logOf h log bay)) ∧
    (∀ ctr add clr v b, Running s c (.counterSet h ctr add clr v) → c.bay? = some b → b < 16 → ctr < 256 →
      (∀ q, (nth (s.bay b).sqs q).deleting = none) →
      let old := nth (s.bay b).counters ctr
      let new : W32 := if add then old.value + v else v
      ∃ t, exec (.counterSet h ctr add clr v) s = .next t ∧ Ended t c .ok old.value.toNat ∧ SameMemory s t ∧
        nth (t.bay b).counters ctr =
          ⟨if h.signal = some ctr then new + 1 else new, old.err && !clr⟩)

/-- QUEUE_CREATE whose checks pass (R151) ends OK and leaves the queue empty with the base, size, completion queue and
weight, or the vector and coalescing, that it names, the completion ring at phase 1. QUEUE_DELETE of a completion
queue without reporters removes it; of a submission queue that holds no command it removes the queue and ends OK, and
of one that holds commands it stops fetching and waits for the last of them to post (R157). Memory stays. (R151, R157) -/
def Obligations.QueueCommandsComplete : Prop :=
  ∀ (s : State) (c : Slot) (h : Hdr) (b : Nat), PartsCounted s → c.bay? = some b → b < 16 →
    (∀ q : QueueOps, Running s c (.queueCreate h q) → s.queueCreateCheck b q = none →
      ∃ t, exec (.queueCreate h q) s = .next t ∧ Ended t c .ok 0 ∧ SameMemory s t ∧
        (q.qtype = 0 → nth (t.bay b).sqs q.qid = ⟨true, q.ringAddr, q.log2Size, q.cqid, q.weight, 0, 0, none⟩) ∧
        (q.qtype = 1 → nth (t.bay b).cqs q.qid =
          ⟨true, q.ringAddr, q.log2Size, q.vector, q.coalCount, q.coalTime, 0, 0, true, 0, none⟩)) ∧
    (∀ qid, Running s c (.queueDelete h 1 qid) → s.queueDeleteCheck b 1 qid = none →
      ∃ t, exec (.queueDelete h 1 qid) s = .next t ∧ Ended t c .ok 0 ∧ SameMemory s t ∧
        (nth (t.bay b).cqs qid).live = false) ∧
    (∀ qid, Running s c (.queueDelete h 0 qid) → s.queueDeleteCheck b 0 qid = none → c.corrected = false →
      ∃ t, exec (.queueDelete h 0 qid) s = .next t ∧ SameMemory s t ∧
        (s.queueEmpty b qid = true → Ended t c .ok 0 ∧ (nth (t.bay b).sqs qid).live = false) ∧
        (s.queueEmpty b qid = false → Begun t c ∧ (nth (t.bay b).sqs qid).deleting = some c.adm))

/-- MEM_COPY within the device ends OK with LENGTH and leaves at DST the bytes of SRC when every byte is readable and
writable; with another member it begins a transfer whose chunks are all the bytes, once its sides are members of the
formed group and the local source is readable. MEM_FILL ends OK with LENGTH and leaves the pattern. MEM_MAP whose
checks pass ends OK with COUNT and leaves in the page table the pages it makes or changes beside the others, in
ascending order. MEM_PLACE whose checks pass moves the pages in ascending order up to one that cannot be read or has no
place to go to, and reports how many: all of them and OK where no line is poisoned and no expander gone. (R126, R129,
R130, 07_opcodes.md Tables 7.3 and 7.14) -/
def Obligations.MemoryCommandsComplete : Prop :=
  ∀ (s : State) (c : Slot) (h : Hdr) (b : Nat), PartsCounted s → c.bay? = some b → b < 16 →
    (∀ src dst n, let g := (s.bay b).formed? (((s.bay b).shardGroup).getD 64)
      Running s c (.memCopy h src dst n) → sideOf g src = none → sideOf g dst = none →
      s.goodPrefix b .rd (sideAddr src) n = n → s.goodPrefix b .wr (sideAddr dst) n = n →
      s.rangeSkips b .wr (sideAddr dst) n = false →
      ∃ t, exec (.memCopy h src dst n) s = .next t ∧ Ended t c .ok n ∧
        SameMemory (s.writeBay b (sideAddr dst) (s.readBay b (sideAddr src) n)) t ∧
        ∀ b', SameBayCore (s.bay b') (t.bay b')) ∧
    (∀ src dst n g, Running s c (.memCopy h src dst n) → 0 < n →
      (s.bay b).formed? (((s.bay b).shardGroup).getD 64) = some g →
      (sideOf (some g) src).isSome ∨ (sideOf (some g) dst).isSome →
      (∀ m, sideOf (some g) src = some m → m < g.blk.members) → (∀ m, sideOf (some g) dst = some m → m < g.blk.members) →
      ((sideOf (some g) src).isNone → ∀ k ∈ cutChunks (sideAddr dst) n, s.readFault b (sideAddr src + k.1) k.2 = none) →
      ∃ t, exec (.memCopy h src dst n) s = .next t ∧ Begun t c ∧ SameMemory s t ∧
        (t.bay b).xfers = (s.bay b).xfers ++ [{
          adm := some c.adm, trig := none, group := ((s.bay b).shardGroup).getD 64, vc := 4,
          srcMember := sideOf (some g) src, dstMember := sideOf (some g) dst, src := sideAddr src, dst := sideAddr dst,
          chunks := cutChunks (sideAddr dst) n, got := [], answered := [] }]) ∧
    (∀ dst n p, Running s c (.memFill h dst n p) → s.goodPrefix b .wr dst n = n → s.rangeSkips b .wr dst n = false →
      ∃ t, exec (.memFill h dst n p) s = .next t ∧ Ended t c .ok n ∧
        SameMemory (s.writeBay b dst (fillBytes p dst n)) t ∧ ∀ b', SameBayCore (s.bay b') (t.bay b')) ∧
    (∀ o : MemMapOps, Running s c (.memMap h o) → s.memMapCheck b o = none →
      ∃ t, exec (.memMap h o) s = .next t ∧ Ended t c .ok o.count ∧ SameMemory s t ∧
        (t.bay b).pages = ((s.bay b).applyMap o).pages ∧
        ∀ b', b' ≠ b → SameBayCore (s.bay b') (t.bay b')) ∧
    (∀ a n dest, Running s c (.memPlace h a n dest) → s.memPlaceCheck b a n dest = none →
      let r := s.movePages b dest ((s.bay b).pagesIn a n)
      ∃ t, exec (.memPlace h a n dest) s = .next t ∧ SameMemory r.1 t ∧ (t.bay b).pages = (r.1.bay b).pages ∧
        (r.2 = ((s.bay b).pagesIn a n).length → Ended t c .ok r.2) ∧
        (r.2 < ((s.bay b).pagesIn a n).length → Ended t c .machineCheck r.2) ∧
        (s.poison = [] → s.t3down = [] → r.2 = ((s.bay b).pagesIn a n).length))

/-- When the inputs can be read and the outputs written whole: QUANT_STATS leaves per column the largest magnitude as
FP32, combined with the stored one when RUNNING (R65); CONVERT leaves every element narrowed once from its exact
source value (R180); RNG_FILL leaves per element the narrowed value that the grain of its index gives (R181). Each
ends OK with result 0, raises in its bay only the flags of its elements, and touches no other byte. (R65, R68, R180,
R181, 07_opcodes.md Table 7.4) -/
def Obligations.ElementCommandsComplete : Prop :=
  ∀ (s : State) (c : Slot) (h : Hdr) (b : Nat), PartsCounted s → c.bay? = some b → b < 16 →
    (∀ o : StatsOps, let old := if o.running then s.readBay b o.dst (4 * o.cols) else []
      let outs := (columns o.cols (s.matRows b o.src o.ld o.rows o.cols o.fmt)).zipIdx.map
        (fun x => statOut o.running (leAt old (4 * x.2) 4) x.1)
      Running s c (.quantStats h o) → s.ioStatus b (statsIns o) (statsOuts o) = none →
      s.rangeSkips b .wr o.dst (4 * o.cols) = false →
      ∃ t, exec (.quantStats h o) s = .next t ∧ Ended t c .ok 0 ∧
        SameMemory (s.writeBay b o.dst ((outs.map (fun x => toLe 4 x.1)).flatten)) t ∧
        (t.bay b).flags = raiseFlags (s.bay b).flags (orFlags outs)) ∧
    (∀ o : ConvertOps,
      let vs := (decodeTensor o.srcFmt o.count (s.readBay b o.src (storedBytes o.srcFmt o.count))).map (matIn c.ftz o.srcFmt)
      let x := packRow c.ftz o.dstFmt (if o.stoch then some (narrowDraw o.seed o.step o.tensorId) else none) (vs.map (·.1))
      Running s c (.convert h o) → s.ioStatus b (convertIns o) (convertOuts o) = none →
      s.rangeSkips b .wr o.dst (storedBytes o.dstFmt o.count) = false →
      ∃ t, exec (.convert h o) s = .next t ∧ Ended t c .ok 0 ∧ SameMemory (s.writeBay b o.dst x.1) t ∧
        (t.bay b).flags = raiseFlags (s.bay b).flags (x.2 ||| orFlags vs)) ∧
    (∀ o : RngOps, let gs := (List.range o.count).map (fun i => grain o.seed i o.step o.tensorId)
      let x := packRow false o.fmt (if o.stoch then some (fun i => (nth gs i).w3 % 65536) else none) (gs.map (rngValue o))
      Running s c (.rngFill h o) → s.ioStatus b [] (rngOuts o) = none →
      s.rangeSkips b .wr o.dst (storedBytes o.fmt o.count) = false →
      ∃ t, exec (.rngFill h o) s = .next t ∧ Ended t c .ok 0 ∧ SameMemory (s.writeBay b o.dst x.1) t ∧
        (t.bay b).flags = raiseFlags (s.bay b).flags x.2)

/-- MATMUL without a failed check ends OK with the engine cycles of R84, and a free stall added when an operand lies
outside the SRAM of an executing cluster (R85, log 67), and leaves row r of C as the narrowed results of the row's dot
products (R60, R80), the maxima when asked, and the flags of every element; nothing else of memory changes. With failures
that the recomputes of R87 and R88 overcome it leaves the same memory and flags, and ends CORRECTED with the time that
they took and the strips recomputed in [55:40] (R94).
KERNEL_LAUNCH whose image can be read begins: every selected core of every named cluster has the image at local
address 0, its configuration block at 0x3FF80, and the registers of Table 4.5 (R103 to R105). (R80, R84, R85, R103,
R87, R88, R94, R104, R105, 03_matrix_engines.md, 04_clusters.md Tables 4.5 and 4.6) -/
def Obligations.EngineCommandsComplete : Prop :=
  ∀ (s : State) (c : Slot) (h : Hdr) (b : Nat), PartsCounted s → c.bay? = some b → b < 16 →
    (∀ m : MatmulBlk, let x := s.matmulRows b c.ftz m
      let rows := x.1.zipIdx.foldl (fun u p => u.writeBay b (m.cAddr + p.2 * m.ldc) p.1) s
      let w := (s.useFree 1).matRun b c.adm m c.retries
      Running s c (.matmul h m) → s.ioStatus b (matIns m) (matOuts m) = none →
      (matOuts m).all (fun r => !s.rangeSkips b .wr r.1 r.2) → w.dead = false →
      ∃ t, exec (.matmul h m) s = .next t ∧
        (s.faults.residue = [] → c.retries = [] → Ended t c .ok (((s.matStart m).time m + s.stall m) % 2 ^ 40)) ∧
        Ended t c (if w.count = 0 then .ok else .corrected) ((w.time m + s.stall m) % 2 ^ 40 + 2 ^ 40 * w.count) ∧
        w.count < 2 ^ 16 ∧
        SameMemory (if m.stats then rows.writeBay b m.statsAddr x.2.1 else rows) t ∧
        (t.bay b).flags = raiseFlags (s.bay b).flags x.2.2) ∧
    (∀ k : KernelBlk, let cores := s.launchCores k.mask k.policy
      Running s c (.kernelLaunch h k) → s.ioStatus b [(k.imageAddr, k.imageLen)] [] = none →
      ∃ t, exec (.kernelLaunch h k) s = .next t ∧ Begun t c ∧ (∀ x ∈ cores, t.core x.2.2 = (s.core x.2.2).start c.adm k) ∧
        SameMemory (cores.foldl (fun u x => (u.writeLoc (localLoc x.2.2 0) (s.readBay b k.imageAddr k.imageLen)).writeLoc
          (localLoc x.2.2 0x3FF80) (s.configBlock b h k x.1 x.2.1 x.2.2)) s) t)

/-- On a core that runs a kernel, tidy.cvt, tidy.wid, tidy.stat, tidy.qblk, tidy.drop and grain.get, tidy.rsc over a
table whose lines can be read, tidy.gth from such aligned addresses, write vd as Table 4.4 says, OR their flags into the
bay's word and move pc and instret on; tidy.qblk with a TFMT.DST that is no block format writes free bytes (log 7).
tidy.sct over writable aligned addresses on no line that it must skip writes its lanes in ascending index and moves the
core on. Registers but vd, other cores and,
but for tidy.sct, memory stay. (R47, R64, R65, R66, R67, R101, 04_clusters.md Table 4.4) -/
def Obligations.VectorInstructionsComplete : Prop :=
  ∀ (s : State) (c : CoreRef) (key adm b : Nat) (k : Core), OnCore s c key k adm b → PartsCounted s → b < 16 →
    (∀ vd vs2, VectorWritten s (.tidyCvt c vd vs2) key b k vd (packRow false (tfmtDst k) k.draw (k.vf32 vs2 k.vl))) ∧
    (∀ vd vs2, VectorWritten s (.tidyWid c vd vs2) key b k vd
      (packRow false 1 none (decodeTensor (tfmtSrc k) k.vl (k.vread vs2 (storedBytes (tfmtSrc k) k.vl))))) ∧
    (∀ vd vs2, VectorWritten s (.tidyStat c vd vs2) key b k vd
      ((((k.vf32 vd k.vl).zip (k.vf32 vs2 k.vl)).map (fun p => toLe 4 (enc32 (maxVal p.1 (absVal p.2))))).flatten,
        flagIf ((k.vf32 vs2 k.vl).any isNan || (k.vf32 vd k.vl).any isNan) Flag.nanIn)) ∧
    (∀ vd vs2, isBlock (tfmtDst k) = true →
      VectorWritten s (.tidyQblk c vd vs2) key b k vd (encodeTensor (tfmtDst k) k.draw (k.vf32 vs2 k.vl))) ∧
    (∀ vd vs2, isBlock (tfmtDst k) = false →
      VectorWritten s (.tidyQblk c vd vs2) key b k vd (s.freeBytes (storedBytes 8 k.vl), 0)) ∧
    (∀ vd vs2 rs1, let out := (k.vf32 vs2 k.vl).zipIdx.map (fun p =>
        if (k.grainAt ((k.xreg rs1).toNat + p.2)).w1 < k.tdrop.toNat % 2 ^ 32 then ((Val.fin false 0 0), (0 : W32))
        else fl32 false (mulVal p.1 k.fa0))
      VectorWritten s (.tidyDrop c vd vs2 rs1) key b k vd
        ((out.map (fun x => toLe 4 (enc32 x.1))).flatten, orFlags out)) ∧
    (∀ vd rs1, VectorWritten s (.grainGet c vd rs1) key b k vd
      (((List.range k.vl).map (fun i => let g := k.grainAt ((k.xreg rs1).toNat + i)
        toLe 4 g.w0 ++ toLe 4 g.w1 ++ toLe 4 g.w2 ++ toLe 4 g.w3)).flatten, 0)) ∧
    (∀ vd vs2 rs1, let a := k.trsc.toNat + 8 * (k.xreg rs1).toNat
      let vs := (k.vf32 vs2 k.vl).zipIdx.map (fun p => rescaled false p.1 (leAt (s.readBay b a (8 * k.vl)) (8 * p.2) 4)
        (leAt (s.readBay b a (8 * k.vl)) (8 * p.2 + 4) 4))
      s.rangeOk b .rd a (8 * k.vl) = true → s.rangeBad b .rd a (8 * k.vl) = false →
      VectorWritten s (.tidyRsc c vd vs2 rs1) key b k vd (packRow false (tfmtDst k) k.draw (vs.map (·.1)))) ∧
    (∀ vd vs2, (k.indices vs2).all (s.elemOk b .rd k.sew) = true →
      (k.indices vs2).any (fun a => s.rangeBad b .rd a k.sew) = false →
      VectorWritten s (.tidyGth c vd vs2) key b k vd (((k.indices vs2).map (fun a => s.readBay b a k.sew)).flatten, 0)) ∧
    (∀ vs3 vs2, (k.indices vs2).all (s.elemOk b .wr k.sew) = true →
      (k.indices vs2).any (fun a => s.rangeSkips b .wr a k.sew) = false →
      ∃ t, exec (.tidySct c vs3 vs2) s = .next t ∧ t.core key = k.past ∧ t.bays = s.bays ∧
        SameMemory ((k.indices vs2).zipIdx.foldl (fun u p =>
          u.writeBay b p.1 (slice (k.vread vs3 (k.sew * k.vl)) (k.sew * p.2) k.sew)) s) t)

/-- On a core that runs a kernel: a legal value written to TFMT, GSEED, GPOS, TRSC or TDROP is held with its reserved bits
dropped (Table 4.5), and the pc moves on; tidy.dma queues the well-formed descriptor at its local address on channel 0
or 1 (R108); ecall with a7 = 0 marks the core as finished, and the launch ends OK with its elapsed cycles when every
core has (R104); any other exception stops every core of the launch and ends it with the status and the fields of
Table 4.7; a launch past its limit ends TIMEOUT; the descriptor at the head of a channel moves its bytes, leaves the
queue and then counts (R108). (R104, R106, R108, 04_clusters.md Tables 4.5 and 4.7) -/
def Obligations.CoreEventsComplete : Prop :=
  ∀ (s : State) (c : CoreRef) (key adm b : Nat) (k : Core), OnCore s c key k adm b → PartsCounted s → b < 16 →
    (∀ v : W64, v.toNat % 16 ≤ 0xC → v.toNat / 16 % 16 ≤ 0xC →
      CoreOnly s (.xtenonCsrWrite c 0x800 v) key ({ k with tfmt := v &&& 0x1FF } : Core).past) ∧
    (∀ v : W64, CoreOnly s (.xtenonCsrWrite c 0x801 v) key ({ k with gseed := v } : Core).past) ∧
    (∀ v : W64, CoreOnly s (.xtenonCsrWrite c 0x802 v) key ({ k with gpos := v } : Core).past) ∧
    (∀ v : W64, v &&& 63 = 0 → CoreOnly s (.xtenonCsrWrite c 0x803 v) key
      ({ k with trsc := v &&& 0xFFFFFFFFFFFF } : Core).past) ∧
    (∀ v : W64, CoreOnly s (.xtenonCsrWrite c 0x804 v) key ({ k with tdrop := v &&& 0xFFFFFFFF } : Core).past) ∧
    (∀ rs1 rs2, let a := (k.xreg rs1).toNat
      let d := s.readLoc (localLoc key a) 32
      let e : Dma := ⟨b, adm, leAt d 0 8, leAt d 8 8, leAt d 0x10 4, byteAt d 0x14 == 1, byteAt d 0x15⟩
      a % 32 = 0 → a + 32 ≤ 2 ^ 18 → dmaOk d = true → s.poisoned (localLoc key a) 32 = false →
      ((k.xreg rs2).toNat = 0 → CoreOnly s (.tidyDma c rs1 rs2) key ({ k with dma0 := k.dma0 ++ [e] } : Core).past) ∧
      ((k.xreg rs2).toNat = 1 → CoreOnly s (.tidyDma c rs1 rs2) key ({ k with dma1 := k.dma1 ++ [e] } : Core).past)) ∧
    (∀ x : Slot, s.slot? adm = some x → x.phase = .active →
      (k.xreg 17 = 0 → ∃ t, exec (.kernelEcallExit c) s = .next t ∧ (t.core key).exited = true ∧ SameMemory s t ∧
        ((∀ q ∈ s.coresOf adm, q ≠ key → (s.core q).exited) →
          Ended t x .ok (coreCycles (s.clock.uptime - x.started) % 2 ^ 40))) ∧
      (∀ cause pc, ∃ t, exec (.coreException c cause pc) s = .next t ∧ SameMemory s t ∧ (t.core key).launch = none ∧
        Ended t x (exceptionStatus cause) (faultResult (s.logicalOf (key / 10)) (key % 10) cause pc)) ∧
      (∀ h i y ys, x.instr = .kernelLaunch h i → 0 < i.cycleLimit →
        i.cycleLimit ≤ coreCycles (s.clock.uptime - x.started) →
        (s.launchCores i.mask i.policy).filter (fun q => (s.core q.2.2).launch == some adm && !(s.core q.2.2).exited) =
          y :: ys →
        ∃ t, exec (.cycleLimit adm) s = .next t ∧ SameMemory s t ∧
          Ended t x .timeout (faultResult (s.logicalOf (y.2.2 / 10)) (y.2.2 % 10) 0xFFFF (s.core y.2.2).pc))) ∧
    (∀ chan d ds, k.channel chan = d :: ds → d.bay = b → s.coreRangeOk b .rd d.src d.len = true →
      s.coreRangeOk b .wr d.dst d.len = true → s.coreBad b key d.src d.len = false →
      s.coreSkips b key d.dst d.len = false → d.ctr < 256 → ∃ t, exec (.dmaDescriptorDone c chan) s = .next t ∧
        t.core key = k.setChannel chan ds ∧
        SameMemory (s.coreWrite b key d.dst (s.coreRead b key d.src d.len)) t ∧
        nth (t.bay b).counters d.ctr = (let o := nth (s.bay b).counters d.ctr
          if d.count then ⟨o.value + 1, o.err⟩ else o))

/-- SHARD_MAP_LOAD of a legal map whose regions may be written, with no training command, arm or join in its way, ends OK
with the counts of tensors and members and leaves that map, every APPLIED at the step before STEP0, and no gather,
reuse, clip or norm record (R222, R226). NORM_CLIP over readable reduced gradients, alone in its group, ends OK with
norm and coefficient and leaves both records (R242, R243); in a larger group it sends its exact partial norm to every
other member and waits (R241). UPDATE_ON_ARRIVAL_ARM with tensors to wait for begins and leaves the arm with the
coefficient of R244. UPDATE_DISARM of an arm that no segment has reached ends OK, takes the arm away and ends its
command ABORTED (R238). (R222, R226, R238, R241, R242, R243, R244, 07_opcodes.md Table 7.6) -/
def Obligations.TrainingCommandsComplete : Prop :=
  ∀ (s : State) (c : Slot) (h : Hdr) (b : Nat), PartsCounted s → c.bay? = some b → b < 16 →
    (∀ a n, let k := s.readBay b a n
      let p := decodeMap k
      Running s c (.shardMapLoad h a n) → s.ioStatus b [(a, n)] [] = none → s.mapBad b k n = false →
      s.mapDenied b p = false → s.trainingBusy b c.adm = false → (s.bay b).train.arm = none → (s.bay b).join = none →
      ∃ t, exec (.shardMapLoad h a n) s = .next t ∧ Ended t c .ok (p.tensors.length + p.members * 2 ^ 16) ∧ SameMemory s t ∧
        (t.bay b).train.map = some p ∧ (t.bay b).train.applied = p.tensors.map (fun _ => p.step0 - 1) ∧
        (t.bay b).train.reuse = [] ∧ (t.bay b).train.clipRec = none ∧ (t.bay b).train.lastNorm = none ∧
        (t.bay b).train.gathers = [] ∧ ∀ b', b' ≠ b → SameBayCore (s.bay b') (t.bay b')) ∧
    (∀ step mx p, let a := s.regionNorm b p
      Running s c (.normClip h p.group step mx) → (s.bay b).train.map = some p → s.ioStatus b (gradRanges p) [] = none →
      positive32 mx = true → (s.bay b).train.earlyNorms.all (fun e => e.1 != c.index) →
      (p.members = 1 → let norm := (NormAcc.zero.join a).norm.1
        let cf := (clipCoef mx norm).1
        ∃ t, exec (.normClip h p.group step mx) s = .next t ∧ SameMemory s t ∧
          Ended t c .ok (norm.toNat + cf.toNat * 2 ^ 32) ∧
          (t.bay b).train.clipRec = some (step, cf) ∧ (t.bay b).train.lastNorm = some (step, norm)) ∧
      (1 < p.members →
        ∃ t, exec (.normClip h p.group step mx) s = .next t ∧ SameMemory s t ∧ Begun t c ∧
          (t.bay b).train.norms = (s.bay b).train.norms ++ [⟨c.adm, step, mx, c.index, [(p.thisMember, a)]⟩] ∧
          ∀ g, (s.bay b).formed? p.group = some g → ∀ m ∈ g.peers,
            Output.collSeg m (normSeg b p.group c.index p.thisMember 0x0320 a) ∈ t.outs)) ∧
    (∀ hp step clip p, let k := s.readBay b hp 256
      Running s c (.updateArm h hp step p.group clip) → (s.bay b).train.map = some p → s.ioStatus b [(hp, 256)] [] = none →
      (s.bay b).train.arm = none → hyperOk k clip = true → (s.bay b).train.stepFits p step = true → p.armed ≠ [] →
      (s.bay b).train.earlyNorms.all (fun e => e.1 != c.index) →
      ∃ t, exec (.updateArm h hp step p.group clip) s = .next t ∧ SameMemory s t ∧ Begun t c ∧
        (t.bay b).train.arm = some ⟨c.adm, step, p.group, clip, hyperOf k, (armCoef (s.bay b).train (hyperOf k) step clip).1,
          false, [], NormAcc.zero, [], c.index⟩) ∧
    (∀ a x, Running s c (.updateDisarm h a.step) → (s.bay b).train.arm = some a → a.begun = false → NoDelete s b →
      s.slot? a.adm = some x → x.phase = .active → x.adm ≠ c.adm → x.bay? = some b →
      ∃ t, exec (.updateDisarm h a.step) s = .next t ∧ SameMemory s t ∧ Ended t c .ok 0 ∧ Ended t x .aborted 0 ∧
        (t.bay b).train.arm = none)

/-- STEP_UPDATE with readable hyperparameters in range, a clip coefficient for the step when asked, every APPLIED at the
step or the one before, no arm, and every block's regions and gradient accessible, updates every unmarked block of the
tensors behind, reports how many with the clip flag, and leaves every APPLIED at the step (R234, R237, R239, R240).
STEP_GATHER of a legal block with writable destinations and readable own rows whose update has been applied: alone in
its group it ends OK with its rows narrowed into its destinations and nothing received; in a larger group it begins and
tells every other member of every entry (R227 to R230; the announcement is log 30). A tensor's whole reduced segment
under a pending arm that has not had it updates the tensor: its APPLIED is the arm's step, the arm has begun and holds
the segment's part of the norm; with the last segment, alone in its group, the arm's command ends OK with norm and flags
(R238, R239, R244). EXPORT_STREAM that is not too late copies the records from FROM_STEP on and reports bytes and last
step (R246). (R237, R238, R239, R240, R244, R246, 09_training_step.md) -/
def Obligations.UpdateCommandsPerform : Prop :=
  ∀ (s : State) (c : Slot) (h : Hdr) (b : Nat), PartsCounted s → c.bay? = some b → b < 16 →
    (∀ hp step clip stoch, let e := State.stepUpdateEff b c hp step clip stoch (2 ^ 64) s
      Running s c (.stepUpdate h hp step clip stoch) → e.2.1 = .ok →
      Performs s c (.stepUpdate h hp step clip stoch) e) ∧
    (∀ hp step clip stoch p cf, let tr := (s.bay b).train
      let behind := p.live.filter (fun i => tr.appliedOf i != step)
      let open_ := fun i => (List.range (p.blocks (nth p.tensors i))).filter (fun k => !tr.marked i k)
      Running s c (.stepUpdate h hp step clip stoch) → tr.map = some p → s.ioStatus b [(hp, 256)] [] = none →
      tr.arm = none → tr.gathers = [] → (if clip then tr.clipRec = some (step, cf) else cf = one32) →
      hyperOk (s.readBay b hp 256) false = true → tr.stepFits p step = true → tr.applied.length = p.tensors.length →
      p.updateMask ≠ 0 → p.blockCount < 2 ^ 64 → s.faults.update = [] →
      (∀ i ∈ p.live, ∀ k, k < p.blocks (nth p.tensors i) →
        s.ioStatus b (blockRanges p (nth p.tensors i) k ++ gradRange p i k) (blockRanges p (nth p.tensors i) k) = none) →
      ∃ t, exec (.stepUpdate h hp step clip stoch) s = .next t ∧
        Ended t c .ok ((behind.map (fun i => (open_ i).length)).sum + bit (clip && clipped cf) 32) ∧
        ∀ i ∈ p.live, (t.bay b).train.appliedOf i = step) ∧
    (∀ step es p, let tr := (s.bay b).train
      let own := fun (e : GatherEntry) (t : TensorRec) => ownRows p t e
      let src := fun (e : GatherEntry) (t : TensorRec) =>
        (t.master + 4 * t.rowLen * ((own e t).1 - (t.rowsOf p.members p.thisMember).1), 4 * t.rowLen * (own e t).2)
      let ready := fun (e : GatherEntry) => ∀ t, p.tensor? e.tensorId = some t → (own e t).2 = 0 ∨
        (s.ioStatus b [src e t] [] = none ∧
          (t.opt = 3 ∨ serialBefore (tr.appliedOf (p.tensors.findIdx (·.id == e.tensorId))) (step - 1) = false))
      Running s c (.stepGather h step es) → tr.map = some p → gatherCheck p es = none →
      (es.map (entryDests p)).flatten.all (fun r => s.rangeOk b .wr r.1 r.2 && !s.rangeSkips b .wr r.1 r.2) = true →
      (∀ e ∈ es, ready e) → tr.gathers.all (fun g => g.adm != c.adm) = true →
      tr.earlyRows.all (fun x => !(x.step == step && x.index == c.index)) = true →
      (p.members = 1 → p.thisMember = 0 →
        (∀ e ∈ es, isRemote p e.dst = false ∧
          ∀ t, p.tensor? e.tensorId = some t → ownRows p t e = (e.firstRow, e.rowCount)) →
        ∃ t, exec (.stepGather h step es) s = .next t ∧ Ended t c .ok 0 ∧
          ∀ e x, es = [e] → isFabric e.dst = false → tr.reusable step e = false → p.tensor? e.tensorId = some x →
            SameMemory ((s.narrowRows b p x e.fmt e.firstRow e.rowCount).zipIdx.foldl (fun u r =>
              (rowDests e r.2).foldl (fun u a => u.writeBay b a r.1.1) u) s) t) ∧
      (∀ g, 1 < p.members → p.thisMember < p.members → (s.bay b).formed? p.group = some g →
        ∃ t, exec (.stepGather h step es) s = .next t ∧ Begun t c ∧
          ∀ m ∈ g.peers, ∀ x ∈ es.zipIdx,
            Output.gatherSeg m ⟨b, step, c.index, x.2, x.1, p.thisMember, es.length, 1, 0, []⟩ ∈ t.outs)) ∧
    (∀ id (es : List Nat) p a x, let tr := (s.bay b).train
      let acc := (es.map (elemVal x.gfmt)).foldl NormAcc.add a.acc
      tr.map = some p → tr.arm = some a → a.delivered.contains id = false → p.tensor? id = some x → x.opt ≠ 3 →
      es.length = p.elems x → es ≠ [] → (s.bay b).copying = false → tr.gathers = [] → p.updateMask ≠ 0 →
      tr.applied.length = p.tensors.length → s.faults.update = [] →
      (∀ k, k < p.blocks x → s.ioStatus b (blockRanges p x k) (blockRanges p x k) = none) →
      ∃ t, exec (.updateSegmentArrival b id es) s = .next t ∧
        (t.bay b).train.appliedOf (p.tensors.findIdx (·.id == id)) = a.step ∧
        (p.armed.all (fun i => i == id || a.delivered.contains i) = false →
          (t.bay b).train.arm = some { a with begun := true, delivered := a.delivered ++ [id], acc := acc }) ∧
        (p.armed.all (fun i => i == id || a.delivered.contains i) = true → p.members = 1 → a.norms = [] →
          s.slot? a.adm = some c → c.phase = .active →
          let norm := (NormAcc.zero.join acc).norm.1
          (t.bay b).train.arm = none ∧ (t.bay b).train.lastNorm = some (a.step, norm) ∧
            Ended t c .ok (norm.toNat + bit (a.clip && normFlag a.hyper a.coef norm) 32 +
              bit (a.clip && clipped a.coef) 33))) ∧
    (∀ dst n from_ p r, let rs := s.diffRecords b
      let out := (rs.dropWhile (fun r => !(recStep r == from_ && recFirst r))).take (n / 32)
      Running s c (.exportStream h dst n from_) → (s.bay b).train.map = some p → s.ioStatus b (s.ringReads b) [] = none →
      exportTooLate rs from_ = false → out.getLast? = some r → s.rangeOk b .wr dst out.flatten.length = true →
      s.rangeSkips b .wr dst out.flatten.length = false →
      ∃ t, exec (.exportStream h dst n from_) s = .next t ∧ SameMemory (s.writeBay b dst out.flatten) t ∧
        Ended t c .ok (32 * out.length % 2 ^ 32 + (recStep r).toNat * 2 ^ 32))

/-- COLL_ALLREDUCE, COLL_ALLGATHER, COLL_REDUCE_SCATTER and COLL_BROADCAST whose operands fit the formed group (R183,
R185, R232) and whose buffers may be accessed. In a group of one position the collective ends OK at once with lateness 0
and leaves at DST the bytes of SRC, each element of a reduction as R185 and R53 give it. In a group of several members it
begins as that group's collective with the index of its admission (R263) and its FTZ copy, and sends every other member
its stamp, its dispatch time (R272). Where another segment of the collective has not come ahead, and no residue failure
is planned. (R183, R184, R185, R263, R272) -/
def Obligations.CollectivesStart : Prop :=
  ∀ (s : State) (c : Slot) (h : Hdr) (b : Nat) (o : CollOps) (g : Group), PartsCounted s → c.bay? = some b → b < 16 →
    (s.bay b).formed? o.group = some g → s.coll? b o.group c.index = none →
    (s.bay b).earlyColls.all (fun x => !(x.group == o.group && x.index == c.index)) = true → s.faults.reduction = [] →
    ∀ k ∈ [(Instr.collAllreduce, 0x0400), (Instr.collAllgather, 0x0401), (Instr.collReduceScatter, 0x0402),
      (Instr.collBroadcast, 0x0403)],
    Running s c (k.1 h o) → s.collCheck b k.2 o = none → s.collAccess b g k.2 o = none →
    (∀ lc, g.blk.members = 1 → g.blk.thisMember = 0 → g.ranks = [lc] → (s.bay b).copying = false →
      (s.bay b).aligned k.2 o = none → s.rangeSkips b .wr o.dst (collBytes o) = false →
      let src := s.readBay b o.src (collBytes o)
      let codes := (rawCodes o.fmt o.count src).map (fun x => (finalCode o.op o.fmt (leafCode o.op o.fmt x)).1)
      ∃ t, exec (k.1 h o) s = .next t ∧ Ended t c .ok 0 ∧
        SameMemory (s.writeBay b o.dst (if isReduce k.2 then packCodes o.fmt codes else src)) t) ∧
    (1 < g.blk.members → g.blk.thisMember < g.blk.members →
      ∃ t x, exec (k.1 h o) s = .next t ∧ Begun t c ∧ t.coll? b o.group c.index = some x ∧ x.adm = some c.adm ∧
        x.opcode = k.2 ∧ x.ops = o ∧ x.ftz = c.ftz ∧ x.stamps = [(g.blk.thisMember, s.now)] ∧
        ∀ m ∈ g.peers, Output.collSeg m
          ⟨b, o.group, c.index, g.blk.thisMember, 1, k.2, o, false, 0, 0, 0, [], s.now⟩ ∈ t.outs)

/-- COLL_GROUP_CREATE of a legal block: a group of one forms at once and the command ends OK with members and positions; a
larger one sends its join packet to every other member and waits (R262). A join packet is held when no command names
its group; the last matching one forms the group and ends the command. JOIN_MS without a full join takes the group
away and ends the command TIMEOUT. COLL_GROUP_DESTROY of a formed idle group takes it away and ends OK. A group abort
forgets the group's collectives and keeps the group, and every unfinished command over the group ends ABORTED with the
work it did (R263). (R261, R262, R263, 07_opcodes.md Table 7.7) -/
def Obligations.GroupCommandsComplete : Prop :=
  ∀ (s : State) (b g : Nat), PartsCounted s → b < 16 →
    (∀ (c : Slot) (h : Hdr) (k : GroupBlk), c.bay? = some b → Running s c (.collGroupCreate h g k) →
      s.groupCreateCheck b g k = none → (s.bay b).earlyJoins.all (fun j => j.2.group != g) →
      let x : Group := ⟨g, k, if k.treeMax = 0 then s.nv.treeMax else k.treeMax,
        if k.chainAbove = 0 then s.nv.chainAbove else k.chainAbove, false, c.adm, s.clock.uptime, [], 0,
        List.replicate 64 (0, 0)⟩
      let own := s.joinPacket b g k.thisMember x.digest
      (k.members = 1 → ∃ t, exec (.collGroupCreate h g k) s = .next t ∧ SameMemory s t ∧
        Ended t c .ok (1 + x.positions * 2 ^ 16) ∧ ((t.bay b).formed? g).isSome) ∧
      (1 < k.members → ∃ t, exec (.collGroupCreate h g k) s = .next t ∧ SameMemory s t ∧ Begun t c ∧
        (∀ m ∈ x.peers, Output.join (x.node m) own ∈ t.outs) ∧
        (t.bay b).groups = (s.bay b).groups ++ [{ x with joins := [own] }])) ∧
    (∀ (c : Slot) (h : Hdr), c.bay? = some b → Running s c (.collGroupDestroy h g) → ((s.bay b).formed? g).isSome →
      s.groupBusy b g = false →
      ∃ t, exec (.collGroupDestroy h g) s = .next t ∧ SameMemory s t ∧ Ended t c .ok 0 ∧ (t.bay b).group? g = none) ∧
    (∀ j : JoinPacket, j.bay = b → j.group = g → j.digest ≠ [] → (s.bay b).group? g = none →
      ∃ t, exec (.groupControl j) s = .next t ∧ SameMemory s t ∧
        (t.bay b).earlyJoins = (s.bay b).earlyJoins ++ [(s.clock.uptime, j)]) ∧
    (∀ (j : JoinPacket) (x : Group) (c : Slot), j.bay = b → j.group = g → (s.bay b).group? g = some x → x.formed = false →
      x.joins.any (fun k => k.member == j.member) = false → x.joins.length + 1 = x.blk.members →
      (x.joins ++ [j]).all (fun k => k.versions == s.boot.versions && k.digest == x.digest) →
      s.slot? x.adm = some c → c.phase = .active →
      ∃ t, exec (.groupControl j) s = .next t ∧ SameMemory s t ∧ ((t.bay b).formed? g).isSome ∧
        Ended t c .ok (x.blk.members + x.positions * 2 ^ 16)) ∧
    (∀ (x : Group) (c : Slot), (s.bay b).group? g = some x → x.formed = false → x.since + x.joinNs ≤ s.clock.uptime →
      x.joins.all (fun k => k.versions == s.boot.versions && k.digest == x.digest) →
      s.slot? x.adm = some c → c.phase = .active →
      ∃ t, exec (.collJoinTimeout b g) s = .next t ∧ SameMemory s t ∧ (t.bay b).group? g = none ∧ Ended t c .timeout 0) ∧
    (CommandsNumbered s → NoDelete s b → ∃ t, exec (.groupAbort b g) s = .next t ∧
      (t.bay b).colls = (s.bay b).colls.filter (fun x => x.group != g) ∧
      (t.bay b).groups.map (fun x => (x.id, x.formed)) = (s.bay b).groups.map (fun x => (x.id, x.formed)) ∧
      ∀ c ∈ s.cmds, c.ofBay b → c.finished? = false → groupUse (s.bay b).mapGroup c.instr = some g →
        Ended t c .aborted c.work)

/-- TRIGGER_ARM of a legal descriptor ends OK with the lowest free handle and leaves the descriptor armed. TRIGGER_DISARM
of one that is not due takes it away and ends OK. A due descriptor of a bay that runs fires in its turn, and then is gone,
or with REARM waits for its next threshold (R270): with ERR on its counter it counts its SIGNAL_CTR with ERR and does
nothing else; LOCAL_ADD adds LENGTH to SIGNAL_CTR; REMOTE_ADD adds it to the counter at its member, here or by a packet;
PUT and GET within the device copy, to another member they start a transfer; COLLECTIVE starts the group's next
collective, with the bay's FTZ at that moment, which is the model's choice (log 38); where these succeed SIGNAL_CTR counts
one when enabled (R269, R270). When a peer that a collective waits for has been silent for SILENT_MS, the collective ends
TIMEOUT, the abort goes out and the group's collectives are forgotten (R263). (R263, R269, R270, 07_opcodes.md
Table 7.7) -/
def Obligations.TriggerCommandsComplete : Prop :=
  ∀ (s : State) (b : Nat), PartsCounted s → b < 16 →
    (∀ (c : Slot) (h : Hdr) (d : TrigBlk), c.bay? = some b → Running s c (.triggerArm h d) → s.trigCheck b d = none →
      ∃ t, exec (.triggerArm h d) s = .next t ∧ SameMemory s t ∧ Ended t c .ok (s.bay b).freeHandle ∧
        ∃ x ∈ (t.bay b).trigs, x.handle = (s.bay b).freeHandle ∧ x.blk = d) ∧
    (∀ (c : Slot) (h : Hdr) (k : Nat) (d : Trig), c.bay? = some b → Running s c (.triggerDisarm h k) →
      (s.bay b).trigs.find? (·.handle == k) = some d → d.due = false →
      ∃ t, exec (.triggerDisarm h k) s = .next t ∧ SameMemory s t ∧ Ended t c .ok 0 ∧
        ∀ x ∈ (t.bay b).trigs, x.handle ≠ k) ∧
    (∀ (k : Nat) (d : Trig), let q := d.blk
      let g := (s.bay b).formed? q.group
      let ctr := fun (u : State) (i : Nat) => nth (u.bay b).counters i
      let fires := fun (P : State → Prop) => ∃ t, exec (.triggerFire b k) s = .next t ∧
        (q.rearm = false → ∀ x ∈ (t.bay b).trigs, x.handle ≠ k) ∧
        (q.rearm = true → ∃ x ∈ (t.bay b).trigs, x.handle = k ∧ x.blk = { q with thresh := q.thresh + q.stride }) ∧ P t
      let signals := fun (t : State) => q.signalEn = true → ctr t q.signalCtr = ⟨(ctr s q.signalCtr).value + 1, (ctr s q.signalCtr).err⟩
      (s.bay b).trigs.find? (·.handle == k) = some d → d.due = true → (s.bay b).runs = true →
      (s.bay b).trigTurn d = true → q.signalCtr < 256 → q.remoteCtr < 256 →
      ((ctr s q.waitCtr).err = true → q.remoteEn = false →
        fires (fun t => SameMemory s t ∧ ctr t q.signalCtr = ⟨(ctr s q.signalCtr).value + 1, true⟩)) ∧
      ((ctr s q.waitCtr).err = false →
        (q.kind = 4 → q.remoteEn = false → fires (fun t => SameMemory s t ∧
          ctr t q.signalCtr = ⟨(ctr s q.signalCtr).value + BitVec.ofNat 32 q.length, (ctr s q.signalCtr).err⟩)) ∧
        (∀ x, q.kind = 2 → g = some x → q.dst % 64 < x.blk.members →
          (q.dst % 64 = x.blk.thisMember → q.signalEn = false → fires (fun t => SameMemory s t ∧
            ctr t q.remoteCtr = ⟨(ctr s q.remoteCtr).value + BitVec.ofNat 32 q.length, (ctr s q.remoteCtr).err⟩)) ∧
          (q.dst % 64 ≠ x.blk.thisMember → s.route (x.node (q.dst % 64)) % 4096 ≠ 0 → fires (fun t => SameMemory s t ∧
            signals t ∧ Output.packet ⟨x.node (q.dst % 64), s.nv.node, q.vc, 5, b, x.id, 0, q.remoteCtr, 0,
              toLe 8 q.length ++ toLe 1 0⟩ ∈ t.outs))) ∧
        (q.kind < 2 → q.remoteEn = false → sideOf g q.src = none → sideOf g q.dst = none →
          s.goodPrefix b .rd (sideAddr q.src) q.length = q.length → s.goodPrefix b .wr (sideAddr q.dst) q.length = q.length →
          s.rangeSkips b .wr (sideAddr q.dst) q.length = false →
          fires (fun t => signals t ∧
            SameMemory (s.writeBay b (sideAddr q.dst) (s.readBay b (sideAddr q.src) q.length)) t)) ∧
        (∀ x, q.kind < 2 → 0 < q.length → g = some x → (sideOf g q.src).isSome ∨ (sideOf g q.dst).isSome →
          (∀ m, sideOf g q.src = some m → m < x.blk.members) → (∀ m, sideOf g q.dst = some m → m < x.blk.members) →
          ((sideOf g q.src).isNone → ∀ e ∈ cutChunks (sideAddr q.dst) q.length, s.readFault b (sideAddr q.src + e.1) e.2 = none) →
          fires (fun t => SameMemory s t ∧ (t.bay b).xfers = (s.bay b).xfers ++ [{
            adm := none, trig := some q, group := q.group, vc := q.vc, srcMember := sideOf g q.src
            dstMember := sideOf g q.dst, src := sideAddr q.src, dst := sideAddr q.dst
            chunks := cutChunks (sideAddr q.dst) q.length, got := [], answered := [] }])) ∧
        (∀ x, q.kind = 3 → g = some x → 1 < x.blk.members → x.blk.thisMember < x.blk.members →
          s.collCheck b (trigOpcode q) (trigOps q) = none → s.collAccess b x (trigOpcode q) (trigOps q) = none →
          s.coll? b q.group x.count = none → s.faults.reduction = [] →
          (s.bay b).earlyColls.all (fun e => !(e.group == q.group && e.index == x.count)) = true →
          fires (fun t => SameMemory s t ∧ ∃ y, t.coll? b q.group x.count = some y ∧ y.adm = none ∧ y.trig = some q ∧
            y.opcode = trigOpcode q ∧ y.ops = trigOps q ∧ y.ftz = (s.bay b).bind.ftz)))) ∧
    (∀ (g a : Nat) (x : Group) (y : Coll) (c : Slot), (s.bay b).formed? g = some x →
      (s.bay b).colls.find? (fun c => c.group == g && (c.awaited (s.bay b) x).any (fun m =>
        decide ((assoc c.heard m).getD 0 + x.silentNs ≤ s.clock.uptime))) = some y →
      y.adm = some a → s.slot? a = some c → c.phase = .active → c.bay? = some b → CommandsNumbered s → NoDelete s b →
      ∃ t, exec (.collSilentTimeout b g) s = .next t ∧ Ended t c .timeout 0 ∧ Output.groupAbort b g ∈ t.outs ∧
        (t.bay b).colls = (s.bay b).colls.filter (fun z => z.group != g))

/-- With the host link up, a submission doorbell of a live queue of a bay with an index below the ring's size becomes the
queue's tail, after the host's writes before it; a completion doorbell becomes the head; any other value or queue sets
DOORBELL_ERR with its event (R152, R433). CTL_SQ_TAIL and CTL_CQ_HEAD do the same to a live control pair, else DB_ERR.
URG_SQ_TAIL below 64 is kept for the next sample and URG_CQ_HEAD below the ring's size becomes the head, else
URG_DB_ERR. That the host's bytes travel with the doorbell is the model's choice (log 5). (R152, R428, R433,
18_registers.md Table 18.3, 18_registers.md Table 18.5) -/
def Obligations.DoorbellsTakeOrDrop : Prop :=
  ∀ (s : State) (v : W32) (ws : List HostWrite), s.hostUp = true → v.toNat < 65536 →
    (∀ b q, let t := s.hostWrites (rid b) ws
      let x := nth (t.bay b).sqs q
      (x.live = true → q < 8 → v.toNat < 2 ^ x.log2 →
        exec (.submissionDoorbell b q v ws) s = .next (t.setSq b q (fun x => { x with tail := v.toNat }))) ∧
      ((x.live = false ∨ 8 ≤ q ∨ 2 ^ x.log2 ≤ v.toNat) → exec (.submissionDoorbell b q v ws) s = .next (t.bayDoorbellErr b))) ∧
    (∀ b q, let x := nth (s.bay b).cqs q
      (x.live = true → q < 8 → v.toNat < 2 ^ x.log2 →
        exec (.completionDoorbell b q v) s = .next (s.setCq b q (fun x => { x with head := v.toNat }))) ∧
      ((x.live = false ∨ 8 ≤ q ∨ 2 ^ x.log2 ≤ v.toNat) → exec (.completionDoorbell b q v) s = .next (s.bayDoorbellErr b))) ∧
    (∀ t, t = s.hostWrites 0 ws →
      (t.ctl.live = true → v.toNat < 2 ^ t.ctl.sq.log2 → exec (.ctlSqTail v ws) s =
        .next { t with ctl := { t.ctl with sq := { t.ctl.sq with tail := v.toNat } } }) ∧
      ((t.ctl.live = false ∨ 2 ^ t.ctl.sq.log2 ≤ v.toNat) → exec (.ctlSqTail v ws) s = .next t.ctlDbErr)) ∧
    (s.ctl.live = true → v.toNat < 2 ^ s.ctl.cq.log2 → exec (.ctlCqHead v) s =
      .next { s with ctl := { s.ctl with cq := { s.ctl.cq with head := v.toNat } } }) ∧
    ((s.ctl.live = false ∨ 2 ^ s.ctl.cq.log2 ≤ v.toNat) → exec (.ctlCqHead v) s = .next s.ctlDbErr) ∧
    (v.toNat < 64 → exec (.urgSqTail v) s = .next { s with urg := { s.urg with tailReg := v.toNat } }) ∧
    (64 ≤ v.toNat → exec (.urgSqTail v) s = .next { s with urg := { s.urg with dbErr := true } }) ∧
    (v.toNat < 4096 → v.toNat < 2 ^ s.urg.cqLog2.toNat →
      exec (.urgCqHead v) s = .next { s with urg := { s.urg with cqHead := v.toNat } }) ∧
    ((4096 ≤ v.toNat ∨ 2 ^ s.urg.cqLog2.toNat ≤ v.toNat) →
      exec (.urgCqHead v) s = .next { s with urg := { s.urg with dbErr := true } })

/-- With the host link up: a write of an event counter sets VALUE, clears ERR or both as its width says, and touches no
other counter (R432); INT_MASK takes its 8 bits, and DEV_VECTOR is raised exactly when a bit is enabled whose cause is
already set (R425); EVENT_MASK and EVENT_VECTOR take theirs (R431); a REGISTER_WRITE of ALARM at 0x058 or of
DEV_INT_CAUSE at 0x060 clears exactly the bits written as 1; a write of BAY_ARITH_FLAGS clears exactly the bits
written as 1 (Table 2.9); a write that only partly meets a device register changes nothing but ACCESS_ERR (R423).
(R423, R425, R431, R432, 02_number_formats.md Table 2.9, 18_registers.md Table 18.2, 18_registers.md Table 18.6) -/
def Obligations.RegisterWritesTake : Prop :=
  ∀ (s : State), PartsCounted s → s.hostUp = true →
    (∀ b c (w : CtrWrite), b < 16 → c < 256 → ∃ t, exec (.eventCounterWrite b c w) s = .next t ∧
      nth (t.bay b).counters c = (match w with
        | .full v => ⟨v.setWidth 32, (nth (s.bay b).counters c).err && !v.getLsbD 32⟩
        | .low v => ⟨v, (nth (s.bay b).counters c).err⟩
        | .high v => ⟨(nth (s.bay b).counters c).value, (nth (s.bay b).counters c).err && !v.getLsbD 0⟩) ∧
      (∀ k, k ≠ c → nth (t.bay b).counters k = nth (s.bay b).counters k) ∧ OtherBays s t b ∧ SameMemory s t) ∧
    (∀ v : W32, ∃ t, exec (.intMaskWrite v) s = .next t ∧ t.dev = { s.dev with intMask := v.setWidth 8 } ∧
      t.outs = (if (v.setWidth 8 &&& ~~~s.dev.intMask &&& s.dev.intCause : BitVec 8) = 0 then s.outs
        else s.outs ++ [.irq .pf s.dev.devVector.toNat])) ∧
    (∀ b (v : W32), b < 16 → ∃ t, exec (.eventMaskWrite b v) s = .next t ∧
      (t.bay b).regs = { (s.bay b).regs with eventMask := v.setWidth 6, eventVector := (v >>> 16).setWidth 7 } ∧
      (t.outs ≠ s.outs ↔ (v.setWidth 6 &&& ~~~(s.bay b).regs.eventMask &&& (s.bay b).regs.event : BitVec 6) ≠ 0 ∧
        ((v >>> 16).setWidth 7 : BitVec 7).toNat < 120)) ∧
    (∀ v : W32, ∃ t, exec (.registerWrite .pf 0x058 (toLe 4 v.toNat)) s = .next t ∧
      t = { s with dev := { s.dev with alarm := s.dev.alarm &&& ~~~(v.setWidth 6) } }) ∧
    (∀ v : W32, ∃ t, exec (.registerWrite .pf 0x060 (toLe 4 v.toNat)) s = .next t ∧
      t = { s with dev := { s.dev with intCause := s.dev.intCause &&& ~~~(v.setWidth 8) } }) ∧
    (∀ b (v : W32), b < 16 → ∃ t, exec (.registerWrite (.vf b) 0x010 (toLe 4 v.toNat)) s = .next t ∧
      (∀ k, (t.bay b).flags.getLsbD k = ((s.bay b).flags.getLsbD k && !(decide (k < 7) && v.getLsbD k))) ∧
      OtherBays s t b) ∧
    (∀ off (bs : List Byte), meetRegs devRegs off bs.length = .refused → off + bs.length ≤ 0x10000 →
      exec (.registerWrite .pf off bs) s = .next (s.devCause 7))

/-- With the host link up and COAL_TIME unchanged: EN = 1 on a control pair that is neither enabled nor live, with legal
bases and sizes, gives a live enabled pair with empty rings of that geometry; an illegal one leaves EN 0 and sets ERR;
EN = 0 clears EN, and LIVE too when no control command is left. The admin pair of a bay does the same within its
window, and EN = 0 is refused with ERR while a queue reports to completion queue 0. URG_EN = 1 with a legal ring and
no open entry takes size and vector and begins a first lap; URG_EN = 0 stops sampling and keeps ring and indices
(R428). (R149, R151, R428, 18_registers.md Table 18.3, 18_registers.md Table 18.6) -/
def Obligations.QueuePairsEnableAndDisable : Prop :=
  ∀ (s : State) (v : W32), PartsCounted s → s.hostUp = true →
    ((v >>> 16).setWidth 10 = s.ctl.coalTime →
      (s.ctl.en = false → s.ctl.live = false → s.ctl.pairOk = true → ∃ t, exec (.controlPairEnable v) s = .next t ∧
        t.ctl.en = true ∧ t.ctl.live = true ∧
        t.ctl.sq = ⟨true, s.ctl.sqBase.toNat, s.ctl.sqLog2.toNat, 0, 16, 0, 0, none⟩ ∧
        t.ctl.cq = ⟨true, s.ctl.cqBase.toNat, s.ctl.cqLog2.toNat, s.ctl.cqVector.toNat, s.ctl.coalCount.toNat,
          s.ctl.coalTime.toNat, 0, 0, true, 0, none⟩ ∧ t = { s with ctl := t.ctl }) ∧
      (s.ctl.en = false → (s.ctl.live = true ∨ s.ctl.pairOk = false) → ∃ t, exec (.controlPairEnable v) s = .next t ∧
        t.ctl.en = false ∧ t.ctl.err = true ∧ t.ctl.live = s.ctl.live ∧ t = { s with ctl := t.ctl }) ∧
      (s.ctl.en = true → ∃ t, exec (.controlPairDisable v) s = .next t ∧ t.ctl.en = false ∧
        t.ctl.live = (s.ctl.live && s.cmds.any (fun c => c.hdr.org == .control)) ∧ t = { s with ctl := t.ctl })) ∧
    (∀ b, b < 16 → (v >>> 16).setWidth 10 = (s.bay b).regs.acqCoalTime →
      let r := (s.bay b).regs
      (r.en = false → r.live = false → s.adminOk b = true → ∃ t, exec (.adminPairEnable b v) s = .next t ∧
        (t.bay b).regs.en = true ∧ (t.bay b).regs.live = true ∧
        nth (t.bay b).sqs 0 = ⟨true, r.asqBase.toNat, r.asqLog2.toNat, 0, 16, 0, 0, none⟩ ∧
        nth (t.bay b).cqs 0 = ⟨true, r.acqBase.toNat, r.acqLog2.toNat, r.acqVector.toNat, r.acqCoalCount.toNat,
          r.acqCoalTime.toNat, 0, 0, true, 0, none⟩ ∧ OtherBays s t b) ∧
      (r.en = false → (r.live = true ∨ s.adminOk b = false) → ∃ t, exec (.adminPairEnable b v) s = .next t ∧
        (t.bay b).regs.en = false ∧ (t.bay b).regs.aqErr = true ∧ (t.bay b).sqs = (s.bay b).sqs ∧ OtherBays s t b) ∧
      (r.en = true → (s.bay b).adminReports = true → ∃ t, exec (.adminPairDisable b v) s = .next t ∧
        (t.bay b).regs.en = true ∧ (t.bay b).regs.aqErr = true ∧ (t.bay b).sqs = (s.bay b).sqs ∧ OtherBays s t b) ∧
      (r.en = true → (s.bay b).adminReports = false → ∃ t, exec (.adminPairDisable b v) s = .next t ∧
        (t.bay b).regs.en = false ∧ (t.bay b).regs.live = (r.live && !s.queueEmpty b 0) ∧ OtherBays s t b)) ∧
    (s.urg.en = false → s.urgOpen = false → s.urg.cqBase.toNat % 4096 = 0 → 6 ≤ v.toNat % 16 → v.toNat % 16 ≤ 12 →
      ∃ t, exec (.urgentQueueEnable v) s = .next t ∧ t.urg.en = true ∧ t.urg.cqLog2 = v.setWidth 4 ∧
        t.urg.vector = (v >>> 16).setWidth 7 ∧ t.urg.cqTail = 0 ∧ t.urg.cqHead = 0 ∧ t.urg.phase = true ∧
        t.urg.tailReg = s.urg.tailReg ∧ t = { s with urg := t.urg }) ∧
    (v.setWidth 4 = s.urg.cqLog2 → ∃ t, exec (.urgentQueueDisable v) s = .next t ∧ t.urg.en = false ∧
      t.urg.cqTail = s.urg.cqTail ∧ t.urg.cqHead = s.urg.cqHead ∧ t.urg.phase = s.urg.phase ∧
      t.urg.tailReg = s.urg.tailReg ∧ t = { s with urg := t.urg })

/-- A host read through a bay's aperture answers the bytes of the bay address 2^30 + offset, and Completer Abort when the
bay is UNBOUND, the range is not mapped readable or a line cannot be read. A write stores exactly its bytes through
the page table, or is dropped and counted in APERTURE_DROP (R379). (R339, R379, 16_interfaces.md Table 16.2) -/
def Obligations.ApertureAccesses : Prop :=
  ∀ (s : State) (b off n : Nat), PartsCounted s → b < 16 → s.hostUp = true → off + n ≤ 2 ^ 36 →
    (((s.bay b).st = .unbound → exec (.apertureRead b off n) s = .next (s.emit (.apertureData b off none))) ∧
    ((s.bay b).st ≠ .unbound → s.rangeOk b .rd (2 ^ 30 + off) n = true → s.rangeBad b .rd (2 ^ 30 + off) n = true →
      exec (.apertureRead b off n) s =
        .next ((s.logBadReads b .rd 0 [(2 ^ 30 + off, n)]).emit (.apertureData b off none)))) ∧
    ((s.bay b).st ≠ .unbound → s.rangeOk b .rd (2 ^ 30 + off) n = true → s.rangeBad b .rd (2 ^ 30 + off) n = false →
      ∃ t, exec (.apertureRead b off n) s = .next t ∧ SameMemory s t ∧
        t.outs = s.outs ++ [.apertureData b off (some (s.readBay b (2 ^ 30 + off) n))] ∧
        ((s.bay b).touchesTier3 (2 ^ 30 + off) n = false → t.bays = s.bays)) ∧
    ((s.bay b).st ≠ .unbound → s.rangeOk b .rd (2 ^ 30 + off) n = false →
      exec (.apertureRead b off n) s = .next (s.emit (.apertureData b off none))) ∧
    (∀ bs : List Byte, bs.length = n → (s.bay b).st ≠ .unbound → s.rangeOk b .wr (2 ^ 30 + off) n = true → s.rangeSkips b .wr (2 ^ 30 + off) n = false →
      ∃ t, exec (.apertureWrite b off bs) s = .next t ∧ t = s.writeBay b (2 ^ 30 + off) bs ∧ t.bays = s.bays) ∧
    (∀ bs : List Byte, bs.length = n → (s.bay b).st ≠ .unbound →
      (s.rangeOk b .wr (2 ^ 30 + off) n = false ∨ s.rangeSkips b .wr (2 ^ 30 + off) n = true) →
      ∃ t, exec (.apertureWrite b off bs) s = .next t ∧ SameMemory s t ∧
        nth (t.bay b).tele 8 = (nth (s.bay b).tele 8 + 1) % 2 ^ 64)

/-- A write to 0x080 for a core that is presented, good and not FAILED while no reset is in progress clears the core and
sets RESET_DONE (R107); a write to 0x084 likewise starts the cluster's drain, with BUSY (R219). In every case that
R426 names, either write only sets REJECTED. When the drain has ended or its 100 us have passed, the cluster leaves
the reset, its cores and their local memories are clear and RESET_DONE is set. (R107, R219, R425, R426) -/
def Obligations.UnitResetsPerform : Prop :=
  ∀ (s : State) (v : W32), PartsCounted s → s.hostUp = true →
    (∀ key, let c : CoreRef := ⟨v.toNat % 32, v.toNat / 256 % 16⟩
      s.coreKey c = some key →
      (s.resetRefused c.lc = false → (nth s.clusters (key / 10)).good.contains c.core = true →
        ∃ t, exec (.coreReset v) s = .next t ∧ t.core key = Core.reset ∧ t.dev.intCause.getLsbD 6 = true ∧
          t.dev.rejected = s.dev.rejected) ∧
      ((s.resetRefused c.lc = true ∨ (nth s.clusters (key / 10)).good.contains c.core = false) →
        exec (.coreReset v) s = .next s.rejectReset)) ∧
    (∀ lc, lc = v.toNat % 32 →
      (s.resetRefused lc = false → (s.phys lc).isSome → ∃ t, exec (.clusterReset v) s = .next t ∧
        t.dev.clusterBusy = s.dev.clusterBusy ++ [(lc, s.clock.uptime)] ∧ t.dev.rejected = s.dev.rejected) ∧
      ((s.resetRefused lc = true ∨ s.phys lc = none) → exec (.clusterReset v) s = .next s.rejectReset)) ∧
    (∀ lc p since, s.dev.clusterBusy = [(lc, since)] → s.phys lc = some p → since + 100000 ≤ s.clock.uptime →
      ∃ t, exec (.clusterResetAbsorb lc) s = .next t ∧ t.dev.clusterBusy = [] ∧ t.dev.intCause.getLsbD 6 = true ∧
        (∀ k, k < 10 → t.core (p * 10 + k) = Core.reset) ∧
        ∀ a, p * 10 * 2 ^ 18 ≤ a → a < (p * 10 + 10) * 2 ^ 18 → Mem.get t.local_ a = 0)

/-- The magic value at 0x090, a function-level reset of the physical function and PCIE_PERST_N falling after READY each
start a warm reset: every bay UNBOUND, every key slot EMPTY, the binding table at version 0, no command left, stage 1
of a warm boot, with error log, flash and history kept (R218, R353, R394). Another value changes nothing (R426).
POWER_IN_RANGE, and the release of RESET_N, begin a cold boot with everything but the flash cleared (R351, R401).
RESET_N low holds the device. (R218, R351, R353, R394, R401, R426) -/
def Obligations.DeviceResetsPerform : Prop :=
  ∀ (s : State), PartsCounted s →
    (s.hostUp = true → s.dev.poweringDown = false →
      (∀ i ∈ [Instr.deviceReset 0x57525354, Instr.pfFunctionLevelReset, Instr.pciePerstN true],
        (i = Instr.pciePerstN true → s.boot.ready = true ∧ s.dev.perstLow = false) →
        ∃ t, exec i s = .next t ∧ (∀ b, b < 16 → (t.bay b).st = .unbound ∧ (t.bay b).keys = List.replicate 4 .empty ∧
            (t.bay b).log = (s.bay b).log) ∧
          t.version = 0 ∧ t.cmds = [] ∧ t.boot.stage = 1 ∧ t.boot.ready = false ∧ t.boot.warm = true ∧
          t.errLog = s.errLog ∧ t.flash = s.flash ∧ t.season = s.season ∧ t.dev.hold = 0)) ∧
    (∀ v, v ≠ 0x57525354 → exec (.deviceReset v) s = .next s) ∧
    (s.dev.resetLow = false → s.dev.hold = 1 → ∃ t, exec .powerInRange s = .next t ∧ t.dev.hold = 0 ∧ t.boot.stage = 1 ∧
      t.boot.warm = false ∧ t.bays = State.reset.bays ∧ t.flash = s.flash ∧ t.errLog = State.reset.errLog ∧
      t.power.getD 62 false = true ∧ t.power.getD 63 false = true) ∧
    (s.dev.hold = 0 → ∃ t, exec (.resetN true) s = .next t ∧ t.dev.hold = 2 ∧ t.dev.resetLow = true ∧
      t.bays = State.reset.bays ∧ t.flash = s.flash) ∧
    (s.dev.hold = 2 → s.dev.resetLow = true → ∃ t, exec (.resetN false) s = .next t ∧ t.dev.hold = 0 ∧
      t.dev.resetLow = false ∧ t.boot.stage = 1 ∧ t.bays = State.reset.bays ∧ t.flash = s.flash)

/-- When one bay alone has entries to fetch, ENTRY_FETCH admits up to eight of its queue (R154); the control path admits
its entries while fewer than 16 are in flight (R173). An entry that waits alone in a readable ring and passes every check
of its admission takes the next admission number and a slot, held, with the bay's FTZ and the binding-table version, and
the ring's head moves past it (R52, R153, R154, R165, R213). A held command that may start becomes running (R162); one that
names no FAILED cluster and whose sampled counter had ERR ends ABORTED, one that names a cluster no longer bound REBOUND
(R176). COMPLETION_POST of a live queue with room writes the 16 bytes of Table 6.3 for
the command that completed first, advances the ring and frees the slot (R146, R155). A coalescing timer that is due
raises the vector once (R156). The urgent sample takes the tail and decodes the next entry when none holds the queue
(R163). (R146, R154, R155, R156, R162, R163, R165, R173, R176, R213, 06_command_packets.md Table 6.3) -/
def Obligations.JoinerActs : Prop :=
  ∀ (s : State), PartsCounted s → s.up = true →
    (∀ b q r, b < 16 → s.wantsFetch b = true → (∀ x, x ≠ b → s.wantsFetch x = false) → s.nextQueue b = some (q, r) →
      exec (.entryFetch .bays) s = .next (State.fetchMany 8 b q { s with joiner := ⟨b, s.joiner.rounds.set b r⟩ })) ∧
    (∀ b q r i, let x := nth (s.bay b).sqs q
      let e := s.readBay b (x.base + 64 * x.head) 64
      let u := ({ s with joiner := ⟨b, s.joiner.rounds.set b r⟩ } : State).setSq b q (fun y => { y with head := ringNext x.log2 x.head })
      b < 16 → s.wantsFetch b = true → (∀ y, y ≠ b → s.wantsFetch y = false) → s.nextQueue b = some (q, r) →
      (s.bay b).fetchable q = 1 → s.rangeOk b .rd (x.base + 64 * x.head) 64 = true →
      s.rangeBad b .rd (x.base + 64 * x.head) 64 = false → CommandsNumbered s →
      u.admission (.bay b q) (decodeHdr (.bay b q) s.nextAdm e) e = .inr i →
      ∃ t c, exec (.entryFetch .bays) s = .next t ∧ SameMemory s t ∧ t.nextAdm = s.nextAdm + 1 ∧
        (nth (t.bay b).sqs q).head = ringNext x.log2 x.head ∧ t.slot? s.nextAdm = some c ∧ c.instr = i ∧ c.phase = .held ∧
        c.ftz = (s.bay b).bind.ftz ∧ c.stamp = s.version) ∧
    exec (.entryFetch .control) s = .next (State.fetchControl 16 s) ∧
    (∀ i, let x := s.ctl.sq
      let e := s.readLoc (hostLoc 0 (x.base + 64 * x.head)) 64
      let u := { s with ctl := { s.ctl with sq := { x with head := ringNext x.log2 x.head } } }
      s.controlFlight < 16 → s.ctl.en = true → s.ctl.live = true → x.waiting = 1 →
      s.hostOk 0 (x.base + 64 * x.head) 64 = true → CommandsNumbered s →
      u.admission .control (decodeHdr .control s.nextAdm e) e = .inr i →
      ∃ t c, exec (.entryFetch .control) s = .next t ∧ SameMemory s t ∧ t.bays = s.bays ∧ t.nextAdm = s.nextAdm + 1 ∧
        t.ctl.sq.head = ringNext x.log2 x.head ∧ t.slot? s.nextAdm = some c ∧ c.instr = i ∧ c.phase = .held ∧
        c.stamp = s.version) ∧
    (∀ c b, s.slot? c.adm = some c → c.phase = .held → c.bay? = some b → s.mayStart b c = true →
      s.faults.path.all (fun x => x.1 != b) = true →
      (s.atDispatch b c = none → ∃ t, exec (.commandDispatch c.adm) s = .next t ∧ SameMemory s t ∧
        t.slot? c.adm = some { c with phase := .running } ∧ ∀ n, n ≠ c.adm → t.slot? n = s.slot? n) ∧
      (s.lfailed.any (fun lc => (named c.instr).getLsbD lc) = false → NoDelete s b →
        (c.errSample = some true → ∃ t, exec (.commandDispatch c.adm) s = .next t ∧ Ended t c .aborted 0) ∧
        (c.errSample ≠ some true → (named c.instr &&& ~~~(s.bay b).bind.clusters) ≠ 0 →
          ∃ t, exec (.commandDispatch c.adm) s = .next t ∧ Ended t c .rebound 0))) ∧
    (∀ c, s.slot? c.adm = some c → c.phase = .held → c.bay? = none → s.mayStartControl c = true →
      exec (.commandDispatch c.adm) s = .next (s.setSlot c.adm (fun c => { c with phase := .running }))) ∧
    (∀ b k c, NoDelete s b → b < 16 → k < 8 → s.nextPost (.bay b k) = some c →
      let q := nth (s.bay b).cqs k
      let x := nth (s.bay b).sqs (match c.hdr.org with | .bay _ i => i | _ => 0)
      q.live = true → ringFull q.log2 q.head q.tail = false → (s.bay b).regs.live = false ∨ (s.bay b).regs.en = true →
      ∃ t, exec (.completionPost (.bay b k)) s = .next t ∧ t.slot? c.adm = none ∧
        SameMemory (s.writeBay b (q.base + 16 * q.tail) (c.entry q.phase (match c.hdr.org with | .bay _ i => i | _ => 0) x.head)) t ∧
        (nth (t.bay b).cqs k).tail = (q.tail + 1) % 2 ^ q.log2 ∧
        (nth (t.bay b).cqs k).phase = (if (q.tail + 1) % 2 ^ q.log2 = 0 then !q.phase else q.phase)) ∧
    (∀ b k, k < 8 → b < 16 → (nth (s.bay b).cqs k).due s.now = true → (nth (s.bay b).cqs k).vector < 120 →
      ∃ t, exec (.coalesceTimer (.bay b k)) s = .next t ∧
        t.outs = s.outs ++ [.irq (.vf b) (nth (s.bay b).cqs k).vector] ∧ (nth (t.bay b).cqs k).due s.now = false) ∧
    (s.urg.en = true → (s.urg.holding.isSome ∨ s.urg.head = s.urg.tailReg) →
      exec .urgentDoorbellSample s = .next { s with urg := { s.urg with sampled := s.urg.tailReg } }) ∧
    (s.urg.en = true → s.urg.holding = none → s.urg.head ≠ s.urg.tailReg → ∃ t, exec .urgentDoorbellSample s = .next t ∧
      t.urg.sampled = s.urg.tailReg ∧ t.urg.head = (s.urg.head + 1) % 64 ∧ t.nextAdm = s.nextAdm + 1 ∧ SameMemory s t)

/-- By the state that the bay had when the entry was decoded (R194): in UNBOUND and BINDING the urgent opcodes end
NOT_BOUND; RESUME_BAY of a HALTED bay makes it ACTIVE and ends OK, of an ACTIVE one it ends OK and changes no bay;
HALT_BAY of a HALTED bay ends OK with result 0; HALT_BAY of an ACTIVE bay ends its commands ABORTED, makes it
QUIESCING and frees the urgent queue; an evicting bay answers CONFLICT (R194, R195, R199, Table 7.13). When no access
is outstanding, a bay that quiesced for HALT_BAY is HALTED and the command ends OK with the count of commands it
aborted. Late accesses and flushes are counted (R420, R421). (R194, R195, R197, R199, R420, R421, 07_opcodes.md Table
7.13) -/
def Obligations.UrgentCommandsComplete : Prop :=
  ∀ (s : State) (c : Slot) (h : Hdr) (b : Nat), PartsCounted s → CommandsNumbered s → b < 16 →
    c.hdr.org = .urgent →
    (∀ i ∈ [Instr.haltBay h b, Instr.resumeBay h b], Running s c i →
      (c.metState = .unbound ∨ c.metState = .binding → ∃ t, exec i s = .next t ∧ Ended t c .notBound 0 ∧ t.bays = s.bays) ∧
      (c.metState = .evicting → ∃ t, exec i s = .next t ∧ Ended t c .conflict 0 ∧ t.bays = s.bays)) ∧
    (∀ id, Running s c (.evictBay h b id) → (c.metState = .unbound ∨ c.metState = .binding) →
      ∃ t, exec (.evictBay h b id) s = .next t ∧ Ended t c .notBound 0 ∧ t.bays = s.bays) ∧
    (∀ id, Running s c (.evictBay h b id) → c.metState = .active → (s.bay b).st = .active → s.evictCheck b id false = none →
      (s.bay b).train.map.isSome → s.boundary b = none → ∃ t, exec (.evictBay h b id) s = .next t ∧ Begun t c ∧
        (t.bay b).st = .evicting ∧ (t.bay b).flow.evict = some (h.adm, id, s.clock.uptime) ∧ t.urg.holding ≠ some h.adm ∧
        OtherBays s t b ∧ SameMemory s t) ∧
    (Running s c (.resumeBay h b) → c.metState = .active → ∃ t, exec (.resumeBay h b) s = .next t ∧ Ended t c .ok 0 ∧
      t.bays = s.bays) ∧
    (Running s c (.resumeBay h b) → c.metState = .halted → (s.bay b).st = .halted → ∃ t, exec (.resumeBay h b) s = .next t ∧ Ended t c .ok 0 ∧
      (t.bay b).st = .active ∧ (t.bay b).counters = (s.bay b).counters ∧ OtherBays s t b) ∧
    (Running s c (.haltBay h b) → c.metState = .halted → ∃ t, exec (.haltBay h b) s = .next t ∧ Ended t c .ok 0 ∧
      t.bays = s.bays) ∧
    (Running s c (.haltBay h b) → c.metState = .active → (s.bay b).st = .active →
      ∃ t, exec (.haltBay h b) s = .next t ∧ Begun t c ∧ (t.bay b).st = .quiescing ∧ t.urg.holding ≠ some h.adm ∧
        (h.adm, (s.unfinished b).length) ∈ (t.bay b).flow.halts ∧
        ∀ x ∈ s.cmds, x.hdr.org ∈ (List.range 8).map (Origin.bay b) → ∀ y, t.slot? x.adm = some y → y.finished? = true) ∧
    (∀ n, (s.bay b).st = .quiescing → (s.bay b).flow.reset = none → (s.bay b).flow.halts = [(c.adm, n)] →
      (s.bay b).flow.resetWait = [] → (s.bay b).flow.evictWait = [] → s.slot? c.adm = some c → c.phase = .active →
      ∃ t, exec (.bayHalted b) s = .next t ∧ (t.bay b).st = .halted ∧ Ended t c .ok n ∧ SameMemory s t ∧ OtherBays s t b) ∧
    (∀ n, (s.bay b).halting = true → (s.bay b).flow.since + 4000 ≤ s.clock.uptime →
      ∃ t, exec (.haltMemoryAbsorb b n) s = .next t ∧ nth (t.bay b).tele 9 = (nth (s.bay b).tele 9 + n) % 2 ^ 64 ∧
        OtherBays s t b ∧ SameMemory s t) ∧
    ((s.bay b).halting = true → (s.bay b).flow.since + 12000 ≤ s.clock.uptime →
      ∃ t, exec (.haltFlushLate b) s = .next t ∧ nth (t.bay b).tele 10 = (nth (s.bay b).tele 10 + 1) % 2 ^ 64 ∧
        OtherBays s t b ∧ SameMemory s t)

/-- BAY_RESET and the function-level reset of the bay's function quiesce an ACTIVE or HALTED bay; BAY_RESET of an UNBOUND
bay ends NOT_BOUND, of a BINDING one knocks the transaction down, ends OK and leaves it UNBOUND (R218, R220, R221). An
eviction that waits for its boundary halts the bay when the boundary is reached (R333), and after 4.5 s halts it with
the record EVICT_TIMEOUT and without a cut (R334). A HALTED bay's reset that has quiesced clears queues 1 to 7,
counters, descriptors, groups and flags. (R218, R220, R221, R333, R334) -/
def Obligations.BayResetsAndEvictionsAct : Prop :=
  ∀ (s : State) (c : Slot) (h : Hdr) (b : Nat), PartsCounted s → CommandsNumbered s → b < 16 →
    (∀ scrub, Running s c (.bayReset h b scrub) → c.bay? = none →
      ((s.bay b).st = .unbound → ∃ t, exec (.bayReset h b scrub) s = .next t ∧ Ended t c .notBound 0 ∧ t.bays = s.bays) ∧
      ((s.bay b).st = .binding → (s.bay b).txn.isSome → ∃ t, exec (.bayReset h b scrub) s = .next t ∧ Ended t c .ok 0 ∧
        (t.bay b).st = .unbound ∧ (t.bay b).txn = none ∧ (t.bay b).bind = (s.bay b).bind ∧ OtherBays s t b) ∧
      (((s.bay b).st = .active ∨ (s.bay b).st = .halted) → ∃ t, exec (.bayReset h b scrub) s = .next t ∧ Begun t c ∧
        (t.bay b).st = .quiescing ∧ (t.bay b).flow.reset = some (some h.adm, scrub, (s.bay b).st == .active))) ∧
    (s.hostUp = true → ((s.bay b).st = .active ∨ (s.bay b).st = .halted) →
      ∃ t, exec (.vfFunctionLevelReset b) s = .next t ∧ (t.bay b).st = .quiescing ∧
        (t.bay b).flow.reset = some (none, false, (s.bay b).st == .active)) ∧
    (∀ was, (s.bay b).st = .quiescing → (s.bay b).flow.reset = some (none, false, was) → (s.bay b).flow.halts = [] →
      (s.bay b).flow.resetWait = [] → (s.bay b).flow.evictWait = [] → (s.bay b).flow.stay = false → (s.bay b).txn = none →
      ∃ t, exec (.bayHalted b) s = .next t ∧ (t.bay b).st = (if was then .active else .halted) ∧
        (t.bay b).counters = List.replicate 256 ⟨0, false⟩ ∧ (t.bay b).trigs = [] ∧ (t.bay b).groups = [] ∧
        (t.bay b).flags = 0 ∧ (∀ q, 1 ≤ q → q < 8 → nth (t.bay b).sqs q = SubQ.none_) ∧ (t.bay b).pages = (s.bay b).pages ∧
        (t.bay b).keys = (s.bay b).keys ∧ (t.bay b).bind = (s.bay b).bind ∧ (t.bay b).train.map = (s.bay b).train.map ∧
        SameMemory s t ∧ ∀ c ∈ t.cmds, c.ofBay b = false) ∧
    ((s.bay b).evictWaits = true → (s.boundary b).isSome →
      ∃ t, exec (.evictBoundaryReached b) s = .next t ∧ (t.bay b).st = .evicting ∧ (t.bay b).flow.heldFrom.isSome ∧
        (t.bay b).flow.evict = (s.bay b).flow.evict ∧ (t.bay b).xfers = [] ∧
        ∀ x ∈ t.cmds, x.ofBay b → x.finished? = true) ∧
    (∀ a id since, (s.bay b).evictWaits = true → (s.bay b).flow.evict = some (a, id, since) →
      since + 4500000000 ≤ s.clock.uptime → ∃ t, exec (.evictTimeout b) s = .next t ∧ (t.bay b).flow.evictLate = true ∧
        (t.bay b).flow.heldFrom.isSome ∧ (t.bay b).st = .evicting)

/-- TXN_BEGIN with none open ends OK and makes an UNBOUND bay BINDING; a binding opcode that passes its checks is staged
and ends DEFERRED, changing no record (R206, R207); TXN_ROLLBACK discards the staged commands and ends OK with their
count (R209); TXN_COMMIT with nothing staged ends OK with the version, with a failing test ends CONFLICT with index
and reason, and when every test passes gives the bay the new record under the next version at once and begins the peg
(R208, R211, R213). The limit marks the drain as over, and at its end the freed clusters and granules read as zero and
the commit ends OK (R212, R214). (R206, R207, R208, R209, R211, R212, R213, R214, 08_bays.md Table 8.3) -/
def Obligations.BindingCommandsComplete : Prop :=
  ∀ (s : State) (c : Slot) (h : Hdr) (b : Nat), PartsCounted s → b < 16 → c.bay? = none →
    (Running s c (.txnBegin h b) → (s.bay b).txn = none → ∃ t, exec (.txnBegin h b) s = .next t ∧ Ended t c .ok 0 ∧
      (t.bay b).txn = some [] ∧ (t.bay b).st = (if (s.bay b).st = .unbound then .binding else (s.bay b).st) ∧
      (t.bay b).bind = (if (s.bay b).st = .unbound then BindRec.fresh else (s.bay b).bind) ∧ OtherBays s t b) ∧
    (∀ i l un m f n o, (i = .bindCluster h b un m ∨ i = .bindMemory h b un f n ∨ i = .bindShares h b o) → Running s c i →
      s.bindCheck i = none → (s.bay b).txn = some l → l.length < 64 → ∃ t, exec i s = .next t ∧ Ended t c .deferred 0 ∧
        (t.bay b).txn = some (l ++ [⟨i⟩]) ∧ ∀ x, (t.bay x).bind = (s.bay x).bind ∧ (t.bay x).st = (s.bay x).st) ∧
    (∀ l, Running s c (.txnRollback h b) → (s.bay b).txn = some l → ∃ t, exec (.txnRollback h b) s = .next t ∧
      Ended t c .ok l.length ∧ (t.bay b).txn = none ∧ (t.bay b).bind = (s.bay b).bind ∧
      (t.bay b).st = (if (s.bay b).st = .binding then .unbound else (s.bay b).st) ∧ OtherBays s t b) ∧
    (∀ us l, Running s c (.txnCommit h b us) → us ≤ 50000 → (s.bay b).txn = some l → s.peg = none →
      (s.bay b).st ≠ .quiescing → (s.bay b).st ≠ .evicting →
      (l = [] → ∃ t, exec (.txnCommit h b us) s = .next t ∧ Ended t c .ok s.version.toNat ∧ t.version = s.version ∧
        (t.bay b).bind = (s.bay b).bind ∧ (t.bay b).txn = none) ∧
      (∀ r, l ≠ [] → s.pegTest b l = .inl r → ∃ t, exec (.txnCommit h b us) s = .next t ∧ Ended t c .conflict r ∧
        t.version = s.version ∧ (t.bay b).bind = (s.bay b).bind ∧ (t.bay b).txn = none) ∧
      (∀ r, l ≠ [] → s.pegTest b l = .inr r → ∃ t p, exec (.txnCommit h b us) s = .next t ∧ Begun t c ∧
        (t.bay b).bind = r ∧ t.version = s.version + 1 ∧ (t.bay b).txn = none ∧ OtherBays s t b ∧
        (∀ x ∈ t.cmds, x.phase = .held → x.stamp = t.version) ∧ t.peg = some p ∧ p.bay = b ∧ p.adm = h.adm ∧
        p.clusters = (s.bay b).bind.clusters &&& ~~~r.clusters)) ∧
    (∀ p, s.peg = some p → p.drained = false → p.since + p.drainNs ≤ s.clock.uptime → ∃ t p', exec .pegDrainLimit s = .next t ∧
      t.peg = some p' ∧ p'.drained = true ∧ p'.bay = p.bay ∧ p'.adm = p.adm ∧ ∀ x ∈ t.cmds, x.stamp = s.version) ∧
    (∀ p, s.peg = some p → p.adm = c.adm → p.drained = true → s.slot? c.adm = some c → c.phase = .active →
      (s.bay p.bay).st = .active → ∃ t, exec .pegComplete s = .next t ∧ t.peg = none ∧
        Ended t c .ok (s.version.toNat + p.absorbed * 2 ^ 32) ∧
        (∀ g ∈ p.granules, ∀ r, g * 512 ≤ r → r < (g + 1) * 512 → r ∈ t.zeroMarks) ∧
        ∀ lc q a, p.clusters.getLsbD lc → s.phys lc = some q → q * 2 ^ 25 ≤ a → a < (q + 1) * 2 ^ 25 → Mem.get t.sram a = 0)

/-- CKPT_CUT that only notes a layout ends OK with 0xFFFFFFFF; any other legal one waits with its cut pending, or copying
at once at a step boundary (R321, R322). A pending cut at a boundary starts to copy, a copying one with its kerf pages
leaves the copy in them, is HELD and ends its command OK with its step. A drain to local memory leaves manifest and
stream there, ends OK with their length and makes the cut DRAINED and the next parent (R323, R328). CKPT_RELEASE of a
cut without a drain takes it away, and ends the CKPT_CUT of one that is still being taken ABORTED. CKPT_VERIFY whose
stream verifies ends OK with 1 and changes nothing (R332); CKPT_RESTORE whose checks pass (R331), over a stream that
verifies and that its own writes leave as it was, writes every block to its live region and ends OK with the step, which
every APPLIED is then, and this manifest's digest is the base of the next incremental restore (R332). A bay with a warning takes the device's own cut, or logs why
not (R324). (R319, R321, R322, R323, R324, R328, R330, R331, R332, 07_opcodes.md Table 7.9) -/
def Obligations.CheckpointCommandsComplete : Prop :=
  ∀ (s : State) (c : Slot) (h : Hdr) (b : Nat), PartsCounted s → c.bay? = some b → b < 16 →
    (∀ id blk, Running s c (.ckptCut h id blk) → s.cutCheck b id blk = none →
      (blk.layoutOnly = true → ∃ t, exec (.ckptCut h id blk) s = .next t ∧ SameMemory s t ∧ Ended t c .ok 0xFFFFFFFF ∧
        (t.bay b).ckpt = (s.bay b).ckpt) ∧
      (blk.layoutOnly = false → ∃ t k, exec (.ckptCut h id blk) s = .next t ∧ SameMemory s t ∧ Begun t c ∧
        (t.bay b).ckpt.cut = some k ∧ k.id = id ∧ k.adm = some h.adm ∧ k.layout = blk ∧
        (s.boundary b = none → k.st = .pending) ∧
        ∀ step, s.boundary b = some step → k.st = .copying ∧ k.step = step)) ∧
    (∀ dst id path slot k, Running s c (.ckptDrain h dst id path slot) → s.drainCheck b dst id path slot = none →
      (s.bay b).ckpt.cut = some k → path ≠ 1 → s.faults.codec = [] → s.codecLanes ≠ [] →
      let p := decodeMap k.mapRaw
      let parent := if path = 2 then s.parentFor b p else none
      let o := s.drainBytes b p k path (((s.bay b).drainKey slot).getD .empty) parent
      s.drainReads b p k.layout (s.streamPlan b p k parent) = none → s.rangeOk b .wr dst o.1.length = true →
      s.rangeSkips b .wr dst o.1.length = false →
      ∃ t, exec (.ckptDrain h dst id path slot) s = .next t ∧ SameMemory (s.writeBay b dst o.1) t ∧ Ended t c .ok o.1.length ∧
        (t.bay b).ckpt.cut = some { k with st := .drained, drain := none } ∧
        (t.bay b).ckpt.parent = some ⟨k.step, k.epoch, o.2, k.mapGen % 2 ^ 64⟩) ∧
    (∀ k, Running s c (.ckptRelease h k.id) → (s.bay b).ckpt.cut = some k → k.drain = none →
      (s.bay b).colls = [] →
      ((k.st = .held ∨ k.st = .drained) → ∃ t, exec (.ckptRelease h k.id) s = .next t ∧ SameMemory s t ∧ Ended t c .ok 0 ∧
        (t.bay b).ckpt.cut = none) ∧
      (∀ x, (k.st = .pending ∨ k.st = .copying) → k.adm = some x.adm → s.slot? x.adm = some x → x.phase = .active →
        x.adm ≠ c.adm → NoDelete s b → ∃ t, exec (.ckptRelease h k.id) s = .next t ∧ SameMemory s t ∧ Ended t c .ok 0 ∧
        Ended t x .aborted 0 ∧ (t.bay b).ckpt.cut = none)) ∧
    (∀ mf src slot, let m := s.readBay b mf (256 + mfMapLen (s.readBay b mf 256))
      Running s c (.ckptVerify h mf src slot) → s.manifestCheck b mf src slot = none →
      s.ioStatus b [(src, mfStreamLen m)] [] = none → (s.verifyStream b m src slot).isSome →
      ∃ t, exec (.ckptVerify h mf src slot) s = .next t ∧ SameMemory s t ∧ Ended t c .ok 1 ∧
        ∀ x, SameBayCore (s.bay x) (t.bay x)) ∧
    (∀ mf src slot p xs, let m := s.readBay b mf (256 + mfMapLen (s.readBay b mf 256))
      let u := s.writeBlocks b p xs
      let step : W32 := BitVec.ofNat 32 (leAt m 0xC 4)
      Running s c (.ckptRestore h mf src slot) → s.manifestCheck b mf src slot = none → s.restoreBusy b c.adm = false →
      (s.bay b).train.map = some p → sameShape p (mfMap m) = true →
      (mfFlag m 0 = true → (s.bay b).ckpt.lastRestore = some (slice m 0x70 32)) →
      s.ioStatus b [(src, mfStreamLen m)] ((p.regions.filter (fun r => r.1 != 3)).map (·.2)) = none →
      s.verifyStream b m src slot = some xs → u.readBay b src (mfStreamLen m) = s.readBay b src (mfStreamLen m) →
      (p.regions.all fun r => !u.rangeSkips b .wr r.2.1 r.2.2) = true →
      ∃ t, exec (.ckptRestore h mf src slot) s = .next t ∧ Ended t c .ok step.toNat ∧ (t.bay b).train.map = some p ∧
        (t.bay b).train.applied = p.tensors.map (fun _ => step) ∧
        (t.bay b).ckpt.lastRestore = some (slice m 0xB0 32) ∧ (p.diffAddr = 0 → SameMemory u t)) ∧
    (∀ k p step, (s.bay b).ckpt.cut = some k → (s.bay b).train.map = some p → k.st = .pending → s.boundary b = some step →
      ∃ t, exec (.cutCopy b) s = .next t ∧ SameMemory s t ∧ OtherBays s t b ∧ (t.bay b).ckpt.cut = some { k with
        st := .copying, step := step, epoch := (s.bay b).epoch, mapGen := (s.bay b).train.mapGen, mapRaw := p.raw }) ∧
    (∀ k p, (s.bay b).ckpt.cut = some k → (s.bay b).train.map = some p → k.st = .copying → k.evicted = false →
      k.adm = some c.adm → s.slot? c.adm = some c → c.phase = .active → (s.bay b).colls = [] → layoutFits p k.layout = true →
      s.kerfLarge b k.layout = true →
      s.copyStatus b (kerfCopies p k.layout) = none → ∃ t, exec (.cutCopy b) s = .next t ∧
        SameMemory (s.copyKerf b (kerfCopies p k.layout)) t ∧ Ended t c .ok k.step.toNat ∧
        (t.bay b).ckpt.cut = some { k with st := .held }) ∧
    ((s.bay b).warned = true → (s.bay b).train.map.isSome → ∀ l, (s.bay b).ckpt.layout = some l → s.kerfLarge b l = true →
      (s.bay b).undrained = none → ∃ t, exec (.predictiveCut b) s = .next t ∧ SameMemory s t ∧
        (t.bay b).ckpt.cut = some (newCut deviceCut l none true false) ∧ (t.bay b).warned = false)

/-- KEY_LOAD of a readable key into a slot that nothing holds ends OK and leaves the key in that slot alone; while an
alarm condition holds it waits with its key read, and goes on when the condition has gone (R191, R311, R314).
KEY_ERASE of a slot that nothing holds ends OK and leaves it EMPTY. DIGEST_RUN leaves the SHA-256 of its source.
CIPHER_RUN within its mode's limits reports LENGTH and leaves the AES-GCM ciphertext and the tag, the plaintext of a good
tag, zeros with DIGEST_MISMATCH of a bad one, or the XTS output (R192, R307, R309). ENTROPY_READ that the pool can serve takes its bytes from the front
of the pool (R318). (R190, R191, R192, R307, R309, R311, R314, R318, 07_opcodes.md Table 7.11) -/
def Obligations.SecurityCommandsComplete : Prop :=
  ∀ (s : State) (c : Slot) (h : Hdr) (b : Nat), PartsCounted s → c.bay? = some b → b < 16 →
    (∀ slot mode addr k, slot < 4 → Running s c (.keyLoad h slot mode addr) → c.work = 0 →
      s.ioStatus b [(addr, keyBytes mode)] [] = none → (s.bay b).join = none →
      keyOf mode (s.readBay b addr (keyBytes mode)) = some k →
      (s.dev.condition = 0 → s.keyBusy b h.adm slot = false → ∃ t, exec (.keyLoad h slot mode addr) s = .next t ∧
        SameMemory s t ∧ Ended t c .ok 0 ∧ (t.bay b).keys = (s.bay b).keys.set slot k ∧ ∀ x, x ≠ b → t.bay x = s.bay x) ∧
      (s.dev.condition ≠ 0 → ∃ t, exec (.keyLoad h slot mode addr) s = .next t ∧ Begun t c ∧ t.bays = s.bays)) ∧
    (∀ slot mode addr k, slot < 4 → c.instr = .keyLoad h slot mode addr → s.cmds = [c] → c.phase = .active →
      (s.bay b).join = none → keyOf mode c.data = some k → ∃ t, exec .alarmConditionCleared s = .next t ∧
        t.dev.condition = 0 ∧ Ended t c .ok 0 ∧ (t.bay b).keys = (s.bay b).keys.set slot k ∧
        t.trng.ready = (s.trng.ready && !(s.dev.condition.getLsbD 1 || s.dev.condition.getLsbD 2))) ∧
    (∀ slot, slot < 4 → Running s c (.keyErase h slot) → (s.bay b).joinHolds slot = false → s.keyBusy b h.adm slot = false →
      ∃ t, exec (.keyErase h slot) s = .next t ∧ SameMemory s t ∧ Ended t c .ok 0 ∧
        (t.bay b).keys = (s.bay b).keys.set slot .empty) ∧
    (∀ o, let aux := s.readBay b o.auxAddr 64
      let aad := s.readBay b o.aadAddr o.aadLen
      let src := s.readBay b o.src o.length
      let k := nth (s.bay b).keys o.slot
      Running s c (.cipherRun h o) → s.ioStatus b (cipherIns o) (cipherOuts o) = none → cipherLimits k o aux = none →
      ((cipherOuts o).all fun r => !s.rangeSkips b .wr r.1 r.2) = true → s.faults.cipher = [] →
      (∀ key, k = .gcm key → o.decrypt = false → let e := gcmEncrypt key (aux.take 12) aad src
        ∃ t, exec (.cipherRun h o) s = .next t ∧ Ended t c .ok o.length ∧
          SameMemory ((s.writeBay b o.dst e.1).writeBay b (o.auxAddr + 16) e.2) t) ∧
      (∀ key p, k = .gcm key → o.decrypt = true → gcmDecrypt key (aux.take 12) aad src (slice aux 16 16) = some p →
        ∃ t, exec (.cipherRun h o) s = .next t ∧ Ended t c .ok o.length ∧ SameMemory (s.writeBay b o.dst p) t) ∧
      (∀ key, k = .gcm key → o.decrypt = true → gcmDecrypt key (aux.take 12) aad src (slice aux 16 16) = none →
        ∃ t, exec (.cipherRun h o) s = .next t ∧ Ended t c .digestMismatch o.length ∧
          SameMemory (s.writeBay b o.dst (zeros o.length)) t) ∧
      (∀ k1 k2, k = .xts k1 k2 → ∃ t, exec (.cipherRun h o) s = .next t ∧ Ended t c .ok o.length ∧
        SameMemory (s.writeBay b o.dst (xtsRun k1 k2 o.decrypt (leAt aux 0 16) (leAt aux 16 4) src)) t)) ∧
    (∀ src dst n, Running s c (.digestRun h src dst n) → s.ioStatus b [(src, n)] [(dst, 32)] = none →
      s.rangeSkips b .wr dst 32 = false → ∃ t, exec (.digestRun h src dst n) s = .next t ∧ Ended t c .ok 0 ∧
        SameMemory (s.writeBay b dst (sha256 (s.readBay b src n))) t) ∧
    (∀ dst n, Running s c (.entropyRead h dst n) → s.trng.ready = true → s.rangeOk b .wr dst n = true →
      s.rangeSkips b .wr dst n = false → s.trng.reservations = [] → n ≤ s.trng.pool.length →
      ∃ t, exec (.entropyRead h dst n) s = .next t ∧ Ended t c .ok n ∧ t.trng.pool = s.trng.pool.drop n ∧
        SameMemory (s.writeBay b dst (s.trng.pool.take n)) t)

/-- A key alarm that newly arises latches its bit and KEYS_ERASED, raises the condition, and leaves every key slot of
every bay EMPTY (R313). A window of 1,024 samples that passes both continuous tests adds its SHA-256 to a pool with room;
one that fails a test, like a health failure, discards the pool, ends waiting reads NOT_READY and after three in a row
stops the TRNG; the start-up restores it unless stopped (R315, R316, R317, R318). LICENCE_INSTALL of a licence that passes
every check of R371 stores it and reports the licences; installation and a window's edge leave the feature set of the
effective licence (R372). (R313, R315, R317, R318, R371, R372,
12_compression_cipher.md Table 12.4) -/
def Obligations.AlarmsAndEntropyAct : Prop :=
  ∀ (s : State), PartsCounted s →
    (∀ k, k ≤ 3 → s.dev.hold ≠ 1 → s.dev.condition.getLsbD k = false → ∃ t, exec (.keyAlarm k) s = .next t ∧
      t.dev.alarm.getLsbD k = true ∧ t.dev.alarm.getLsbD 5 = true ∧ t.dev.condition.getLsbD k = true ∧
      ∀ b, b < 16 → (t.bay b).keys = List.replicate 4 .empty) ∧
    (∀ xs : List Bool, xs.length = 1024 → s.trng.ready = true → s.trng.reservations = [] →
      s.trng.pool.length + 32 ≤ 16384 → repeats 41 xs s.trng.run.1 s.trng.run.2 = false → proportionOk xs = true →
      exec (.trngOutput xs) s = .next { s with trng := { s.trng with
        pool := s.trng.pool ++ sha256 (sampleBytes xs), run := endRun xs s.trng.run.1 s.trng.run.2 } }) ∧
    (∀ xs : List Bool, xs.length = 1024 → s.trng.ready = true → s.trng.reservations = [] →
      repeats 41 xs s.trng.run.1 s.trng.run.2 = true ∨ proportionOk xs = false →
      ∃ t, exec (.trngOutput xs) s = .next t ∧ t.trng = { s.trng with
        ready := false, stuck := decide (2 ≤ s.trng.failures), failures := s.trng.failures + 1, pool := [], run := (0, false) }) ∧
    (s.trng.reservations = [] → ∃ t, exec .trngHealthFailure s = .next t ∧
      t.trng = { s.trng with
        ready := false, stuck := decide (2 ≤ s.trng.failures), failures := s.trng.failures + 1, pool := [],
        run := (0, false) } ∧
      SameMemory s t ∧ t.cmds = s.cmds) ∧
    (∀ (c : Slot) (b : Nat), s.trng.reservations = [(b, c.adm)] → s.slot? c.adm = some c → c.phase = .active →
      ∃ t, exec .trngHealthFailure s = .next t ∧ t.trng.reservations = [] ∧ Ended t c .notReady 0) ∧
    (s.trng.stuck = false → s.dev.hold = 0 →
      exec .trngStartupDone s = .next { s with trng := { s.trng with ready := true, failures := 0 } }) ∧
    (∀ (c : Slot) (h : Hdr) (a : Nat), let l := s.readLoc (hostLoc 0 a) 128
      let kept := storeLicence s.flash.licences l
      Running s c (.licenceInstall h a 128) → s.hostOk 0 a 128 = true → s.licenceFields l = true →
      leAt l 8 16 = s.factory.uid → edVerify (nth s.factory.romKeys (byteAt l 6)) (l.take 64) (l.drop 64) = true →
      (∀ x ∈ s.flash.licences, leAt x 0x18 4 < leAt l 0x18 4) →
      (s.licenceTime < leAt l 0x28 8 ∨ leAt l 0x28 8 = 2 ^ 64 - 1) →
      ∃ t, exec (.licenceInstall h a 128) s = .next t ∧ SameMemory s t ∧ Ended t c .ok t.licencesByte ∧
        t.flash = { s.flash with licences := kept } ∧ l ∈ t.flash.licences ∧
        t.effFeat = effectiveFeatures kept s.licenceTime ∧ t.bootFeat = s.bootFeat) ∧
    (∃ t, exec .licenceWindowEdge s = .next t ∧ t = { s with effFeat := t.effFeat } ∧
      t.effFeat = effectiveFeatures s.flash.licences s.licenceTime)

/-- TELEMETRY_READ of a window that its queue may read, SEASON_REPORT and FLOORPLAN_READ write the first bytes of their
report, as many as LENGTH allows, and end with the count that Table 7.12 gives (R348, R434, R435); LINK_TEST of a port
that nothing uses ends OK, its bit errors being what the lanes show, a free value (log 24). (R193, R348, R434, R435,
07_opcodes.md Table 7.12) -/
def Obligations.DiagnosticCommandsComplete : Prop :=
  ∀ (s : State) (c : Slot) (h : Hdr), PartsCounted s →
    (∀ w dst n, let out := (s.nextInstant.window w).take n
      Running s c (.telemetryRead h w dst n) → telemetryCheck h w = none → s.outOk h.org dst out.length = true →
      NoSkip s h.org dst out.length →
      ∃ t, exec (.telemetryRead h w dst n) s = .next t ∧ Ended t c .ok out.length ∧ SameMemory (s.outWrite h.org dst out) t) ∧
    (∀ dst n, let out := s.seasonBytes.take n
      Running s c (.seasonReport h dst n) → s.outOk h.org dst out.length = true → NoSkip s h.org dst out.length →
      ∃ t, exec (.seasonReport h dst n) s = .next t ∧ Ended t c .ok out.length ∧ SameMemory (s.outWrite h.org dst out) t) ∧
    (∀ b dst n, let ls := bitsSet (s.bay b).bind.clusters
      let out := (ls.take (n / 32)).map s.floorRec
      Running s c (.floorplanRead h dst n) → c.bay? = some b → s.outOk h.org dst out.flatten.length = true →
      NoSkip s h.org dst out.flatten.length →
      ∃ t, exec (.floorplanRead h dst n) s = .next t ∧ Ended t c .ok (out.length + 256 * ls.length) ∧
        SameMemory (s.outWrite h.org dst out.flatten) t) ∧
    (∀ port pat ms, Running s c (.linkTest h port pat ms) → s.portInUse port = false →
      ∃ t r, exec (.linkTest h port pat ms) s = .next t ∧ Ended t c .ok r ∧ SameMemory s t ∧
        r / 2 ^ 32 < (if port < 16 then 17 else 8))

/-- At a port that carries traffic an intact data flit with the next FSEQ is taken and becomes the last one received; with
another FSEQ it is not taken, and a replay request goes out unless one is outstanding (R255). A replay request sends
everything after its ACKSEQ again and is counted; a stomp flit in order discards the copies it lists (R260). The
1,000th good flit in a row ends LOCKING (R250). A packet for another node is sent on and counted (R258). A lane that
loses lock gives way to the free spare; with the spare used the port goes on with eight lanes, DEGRADED; a further
loss takes it DOWN (R251); a far port with a lane lost goes DOWN (R284). A DOWN port whose second has passed and whose
partner answers with enough lanes goes to LOCKING (R250). (R250, R251, R254, R255, R258, R259, R260, R284) -/
def Obligations.FabricLinkActs : Prop :=
  ∀ (s : State) (p : Nat), PartsCounted s → p < 12 →
    let x := s.port p
    (∀ f : Flit, x.usable = true → flitIntact f = true → f.kind = 0 →
      (f.fseq = (x.rxLast + 1) % 4096 → ∃ t, exec (.flitReceive p f) s = .next t ∧ (t.port p).rxLast = f.fseq ∧
        (t.port p).asked = none ∧ (t.port p).rxFlits = x.rxFlits + 1 ∧
        t = ((s.countFlit p f).takeAck p f).takeData p f) ∧
      (f.fseq ≠ (x.rxLast + 1) % 4096 → ∃ t, exec (.flitReceive p f) s = .next t ∧ (t.port p).rxLast = x.rxLast ∧
        (t.port p).rx = x.rx ∧ (t.port p).asked = some (x.asked.getD x.rxLast))) ∧
    (∀ f : Flit, x.state = 2 → f.decodes = true → ∃ t, exec (.flitReceive p f) s = .next t ∧
      (x.goodFlits < 999 → (t.port p).goodFlits = x.goodFlits + 1 ∧ (t.port p).state = 2) ∧
      (999 ≤ x.goodFlits → (t.port p).state = (if x.lanes.length = 8 then 4 else 3))) ∧
    (∀ f : Flit, x.usable = true → f.decodes = true →
      let g : Flit := { f with kind := 2, crc := BitVec.ofNat 32 (flitCrc { f with kind := 2 }) }
      ∃ t, exec (.replayRequest p f) s = .next t ∧ t = (s.countFlit p g).takeReplay p g ∧
        (t.port p).replayCount = x.replayCount + 1) ∧
    (∀ f : Flit, x.usable = true → f.decodes = true → f.fseq = (x.rxLast + 1) % 4096 →
      let g : Flit := { f with kind := 4, crc := BitVec.ofNat 32 (flitCrc { f with kind := 4 }) }
      ∃ t, exec (.stompFlit p f) s = .next t ∧ t = ((s.countFlit p g).takeAck p g).takeStomp p g ∧
        (t.port p).await = [] ∧ (t.port p).rx = x.rx ++ x.await.filter (fun k => !stomps (stompList f) k)) ∧
    (∀ k : Packet, k.dnode ≠ s.nv.node → x.usable = true → ∃ t, exec (.packetRelay p k) s = .next t ∧
      (t.port p).relayed = x.relayed + 1 ∧ SameMemory s t) ∧
    (∀ l, x.lanes.contains l = true →
      (x.state = 3 → x.spared = none → x.badLanes.contains 16 = false → ∃ t, exec (.laneLossOfLock p l) s = .next t ∧
        (t.port p).lanes = x.lanes.set (x.lanes.findIdx (· == l)) 16 ∧ (t.port p).state = 3 ∧
        (t.port p).badLanes = x.badLanes ++ [l] ∧ (t.port p).spared = some (x.lanes.findIdx (· == l))) ∧
      (x.state = 3 → (x.spared.isSome ∨ x.badLanes.contains 16 = true) → ∃ t, exec (.laneLossOfLock p l) s = .next t ∧
        (t.port p).state = 4 ∧ (t.port p).lanes.length ≤ 8 ∧ (t.port p).lanes.contains l = false) ∧
      (x.state = 4 → ∃ t, exec (.laneLossOfLock p l) s = .next t ∧ (t.port p).state = 0)) ∧
    (∀ q l, q < 2 → l < 8 → (nth s.far q).state = 3 → ∃ t, exec (.laneLossOfLock (12 + q) l) s = .next t ∧
      (nth t.far q).state = 0 ∧ SameMemory s t) ∧
    (∀ errs, s.up = true → x.state = 0 → x.disabled = false → x.nextTry ≤ s.clock.uptime →
      (x.noPartner = true → (badOf errs 17).length ≤ 1 → ∃ t, exec (.portRetry p true errs) s = .next t ∧
        (t.port p).state = 2 ∧ (t.port p).noPartner = false) ∧
      (x.noPartner = false → x.inOperation = true → x.relane.isSome → ∃ t,
        exec (.portRetry p true errs) s = .next t ∧ (t.port p).state = 2 ∧ (t.port p).inOperation = false))

/-- A committed fabric write from a member into pages that allow it stores exactly its bytes and is answered with success;
one from another node stores nothing and is answered with a refusal (R126). A read request is answered with the bytes
read. The last answer to a transfer's write ends its MEM_COPY OK; a chunk that was read lands in its destination. A counter
add raises the counter by its amount, with ERR when it says so, and touches no other counter (R269). A packet that no
flit has committed has no effect yet (R260). A collective's last stamp, its values being here, ends it with the lateness
of R272 and leaves its results; an earlier stamp or a final value is kept; a partial norm is kept and the last one ends
NORM_CLIP with norm and coefficient (R241, R242). A gather's announcement is noted, its rows land at their destinations
(R227, R229). What comes ahead of its command waits (R227, R266). How the packets carry the answers is log 25. (R126,
R227, R229, R241, R242, R253, R260, R266, R269, R272, log 25) -/
def Obligations.MemberPacketsAct : Prop :=
  ∀ (s : State) (p : Packet), PartsCounted s → p.bay < 16 →
    (s.uncommitted p = true → ∀ i ∈ [Instr.fabricWrite p, .readRequest p, .readResponse p, .counterAdd p], exec i s = .next s) ∧
    (s.uncommitted p = false →
      let back := fun (off : Nat) (bs : List Byte) => ({ p with
        dnode := p.snode, snode := s.nv.node, typ := 2, hops := 0, offset := off, data := bs } : Packet)
      let routed := s.route p.snode % 4096 ≠ 0
      ((s.groupOf p).isSome →
        (s.fabricOk p.bay .wr p.offset p.data.length = true → s.rangeSkips p.bay .wr p.offset p.data.length = false →
          ∃ t, exec (.fabricWrite p) s = .next t ∧ SameMemory (s.writeBay p.bay p.offset p.data) t ∧ t.bays = s.bays ∧
            (routed → Output.packet (back (p.offset % refusedBit) []) ∈ t.outs)) ∧
        (∀ n, n = leAt p.data 0 4 → n ≤ 2048 → s.fabricOk p.bay .rd p.offset n = true →
          s.rangeBad p.bay .rd p.offset n = false → ∃ t, exec (.readRequest p) s = .next t ∧ SameMemory s t ∧
            (routed → Output.packet (back (p.offset % refusedBit) (s.readBay p.bay p.offset n)) ∈ t.outs)) ∧
        (∃ t, exec (.counterAdd p) s = .next t ∧ SameMemory s t ∧
          nth (t.bay p.bay).counters (p.offset % 256) =
            ⟨(nth (s.bay p.bay).counters (p.offset % 256)).value + BitVec.ofNat 32 (leAt p.data 0 8),
              (nth (s.bay p.bay).counters (p.offset % 256)).err || byteAt p.data 8 % 2 == 1⟩ ∧
          ∀ k, k ≠ p.offset % 256 → nth (t.bay p.bay).counters k = nth (s.bay p.bay).counters k) ∧
        (∀ g i x c k, s.groupOf p = some g → s.findXfer g p = some (i, x, c, k) →
          (x.srcMember = none → x.chunks.any (fun e => e.1 != c.1 && (assoc x.answered e.1).isNone) = true →
            ∃ t, exec (.readResponse p) s = .next t ∧ SameMemory s t ∧
              (t.bay p.bay).xfers = (s.bay p.bay).xfers.set i { x with answered := x.answered ++ [(c.1, answerCode p)] }) ∧
          (∀ y h src dst n, x.srcMember = none → x.chunks = [c] → x.answered = [] → answerCode p = 0 →
            x.adm = some y.adm → s.slot? y.adm = some y → y.phase = .active → y.instr = .memCopy h src dst n →
            ∃ t, exec (.readResponse p) s = .next t ∧ SameMemory s t ∧ Ended t y .ok c.2 ∧
              (t.bay p.bay).xfers = (s.bay p.bay).xfers.eraseIdx i) ∧
          (x.srcMember.isSome → x.dstMember = none → x.got.contains c.1 = false → answerCode p = 0 →
            let bs := slice p.data 0 c.2
            s.rangeOk p.bay .wr (x.dst + c.1) bs.length = true → s.rangeSkips p.bay .wr (x.dst + c.1) bs.length = false →
            ∃ t, exec (.readResponse p) s = .next t ∧ SameMemory (s.writeBay p.bay (x.dst + c.1) bs) t))) ∧
      ((s.groupOf p).isNone →
        (∀ i ∈ [Instr.fabricWrite p, .readRequest p], ∃ t, exec i s = .next t ∧ SameMemory s t ∧ t.bays = s.bays ∧
          (routed → Output.packet (back (p.offset % refusedBit + refusedBit) (toLe 1 1)) ∈ t.outs)) ∧
        ∃ t, exec (.counterAdd p) s = .next t ∧ t = { s with ports := t.ports })) ∧
    (∀ g : CollSeg, g.bay < 16 → g.opcode ≠ 0x0320 → g.opcode ≠ 0x0311 →
      (s.coll? g.bay g.group g.index = none → s.collAhead g.bay g.group g.index = true →
        ∃ t, exec (.collectiveSegment g) s = .next t ∧ SameMemory s t ∧
          (t.bay g.bay).earlyColls = (s.bay g.bay).earlyColls ++ [g]) ∧
      (∀ k y, (s.bay g.bay).formed? g.group = some k → s.coll? g.bay g.group g.index = some y → sameColl y g = true →
        let z := { y with stamps := y.stamps ++ [(g.member, g.stamp)] }
        (g.elems = [] → y.stamps.any (·.1 == g.member) = false → y.stamps.length + 1 < k.blk.members →
          ∃ t x, exec (.collectiveSegment g) s = .next t ∧ SameMemory s t ∧ t.coll? g.bay g.group g.index = some x ∧
            x.stamps = z.stamps ∧ x.finals = y.finals) ∧
        (∀ c, g.elems = [] → y.stamps.any (·.1 == g.member) = false → y.stamps.length + 1 = k.blk.members →
          y.haveFinals (s.bay g.bay) k = true → (s.bay g.bay).aligned y.opcode y.ops = none → y.corrected = false →
          (s.writeColl g.bay k y).1 = none → y.adm = some c.adm → s.slot? c.adm = some c → c.phase = .active →
          ∃ t, exec (.collectiveSegment g) s = .next t ∧ SameMemory (s.writeColl g.bay k y).2 t ∧
            t.coll? g.bay g.group g.index = none ∧
            Ended t c .ok (z.lateness.1 % 2 ^ 58 + z.lateness.2 * 2 ^ 58)) ∧
        (g.elems ≠ [] → g.final = true → y.stamps.any (·.1 == g.member) = true → y.stamps.length < k.blk.members →
          (y.net k).isReturn k.blk.thisMember (some g.member) = false →
          y.finals.any (fun e => e.lo == g.lo && e.first == g.first) = false →
          ∃ t x, exec (.collectiveSegment g) s = .next t ∧ SameMemory s t ∧ t.coll? g.bay g.group g.index = some x ∧
            x.stamps = y.stamps ∧ x.finals = y.finals ++ [⟨g.lo, g.hi, g.first, g.elems⟩]))) ∧
    (∀ (g : CollSeg) m w, let a : NormAcc := ⟨nth g.elems 0, nth g.elems 1 == 1, nth g.elems 2 == 1⟩
      g.bay < 16 → g.opcode = 0x0320 → (s.bay g.bay).train.map = some m → (s.bay g.bay).train.norms = [w] →
      w.index = g.index → w.norms.any (·.1 == g.member) = false →
      (w.norms.length + 1 < m.members → ∃ t, exec (.collectiveSegment g) s = .next t ∧ SameMemory s t ∧
        (t.bay g.bay).train.norms = [{ w with norms := w.norms ++ [(g.member, a)] }]) ∧
      (∀ c, w.norms.length + 1 = m.members → w.adm = c.adm → s.slot? c.adm = some c → c.phase = .active →
        let norm := (totalNorm (w.norms ++ [(g.member, a)])).norm.1
        let cf := (clipCoef w.maxNorm norm).1
        ∃ t, exec (.collectiveSegment g) s = .next t ∧ SameMemory s t ∧ Ended t c .ok (norm.toNat + cf.toNat * 2 ^ 32) ∧
          (t.bay g.bay).train.clipRec = some (w.step, cf) ∧ (t.bay g.bay).train.lastNorm = some (w.step, norm))) ∧
    (∀ g : GatherSeg, g.bay < 16 →
      ((s.bay g.bay).train.gathers.any (fun x => x.step == g.step && x.index == g.index) = false →
        ∃ t, exec (.gatherSegment g) s = .next t ∧ SameMemory s t ∧
          (t.bay g.bay).train.earlyRows = (s.bay g.bay).train.earlyRows ++ [g]) ∧
      (∀ y m, (s.bay g.bay).train.gathers = [y] → y.step = g.step → y.index = g.index → y.entries.length = g.count →
        g.entry < g.count → sameEntry (nth y.entries g.entry) g.want = true → (s.bay g.bay).train.map = some m →
        let k := (s.bay g.bay).formed? m.group
        let z := { y with heard := y.heard ++ [(g.member, g.entry)] }
        let e := nth y.entries g.entry
        (g.rows = [] → z.complete? m k = false → ∃ t, exec (.gatherSegment g) s = .next t ∧ SameMemory s t ∧
          (t.bay g.bay).train.gathers = [z]) ∧
        (∀ c, g.rows = [] → z.complete? m k = true → y.bad = none → y.adm = c.adm → s.slot? c.adm = some c →
          c.phase = .active → (y.outs m).all (fun r => !s.rangeSkips g.bay .wr r.1 r.2) = true →
          ∃ t, exec (.gatherSegment g) s = .next t ∧ SameMemory s t ∧ Ended t c .ok y.bytes ∧
            (t.bay g.bay).train.gathers = []) ∧
        (∀ x r, g.rows ≠ [] → k = some x → m.tensor? g.want.tensorId = some r →
          (gatherNet x m g.want).isReturn m.thisMember (some g.member) = false → holdsRows y.got g.entry g.firstRow = false →
          y.reused.contains g.entry = false →
          (∀ q, q < g.rows.length → ∀ a ∈ rowDests e (g.firstRow - e.firstRow + q), isRemote m a = false) →
          ∃ t, exec (.gatherSegment g) s = .next t ∧ SameMemory (g.rows.zipIdx.foldl (fun u q =>
            (rowDests e (g.firstRow - e.firstRow + q.2)).foldl (fun u a => u.writeBay g.bay (localAddr a) q.1) u) s) t)))

/-- At an idle point a failing cube gives way to a free spare of its engine, or the engine is fenced and the cluster's
retirement asked for (R88, R340); a core, and a bank while more than 64 are good, with two uncorrectable events leaves
service and enters the repair record (R340, R95); a cluster whose retirement waits first moves to the lowest-numbered
spare of its die, which then serves the logical cluster with its contents, and is retired; with no spare on the die
the logical cluster is AT_RISK at the voltage ceiling (R30, R341). (R30, R88, R95, R340, R341, 14_reliability.md Table
14.6) -/
def Obligations.RepairCommandsAct : Prop :=
  ∀ (s : State) (p : Nat), PartsCounted s → s.up = true → p < 34 →
    let x := nth s.clusters p
    (∀ e k, x.failing.contains (e, k) = true → s.physIdle p = true →
      (∀ sp rest, x.freeSpares e = sp :: rest → ∃ t, exec (.cubeSubstitution p e k) s = .next t ∧
        nth t.clusters p = x.substitute e k ∧ SameMemory s t ∧ ∀ q, q ≠ p → nth t.clusters q = nth s.clusters q) ∧
      (x.freeSpares e = [] → ∃ t, exec (.cubeSubstitution p e k) s = .next t ∧ e ∈ (nth t.clusters p).fenced ∧
        (nth t.clusters p).failing = x.failing.filter (fun y => y != (e, k)) ∧ SameMemory s t)) ∧
    (∀ k, s.mayRetire p = true → (s.core (p * 10 + k)).launch = none → x.good.contains k = true → k < 10 →
      2 ≤ (assoc x.coreUnc k).getD 0 → ∃ t, exec (.coreRetirement p k) s = .next t ∧
        (nth t.clusters p).retiredCores.getLsbD k = true ∧ t.flash.repairCores = s.flash.repairCores ++ [(p, k)] ∧
        SameMemory s t) ∧
    (∀ k, s.mayRetire p = true → x.goodBanks.getLsbD k = true → 2 ≤ (assoc x.bankUnc k).getD 0 →
      64 < (bitsSet x.goodBanks).length → ∃ t, exec (.bankRetirement p k) s = .next t ∧
        (nth t.clusters p).goodBanks.getLsbD k = false ∧ t.flash.repairBanks = s.flash.repairBanks ++ [(p, k)] ∧
        SameMemory s t) ∧
    (∀ lc q rest, s.phys lc = some p → (s.waiting (p / 17)).findIdx (· == lc) = 0 → (s.waiting (p / 17)).contains lc = true →
      s.spares (p / 17) = q :: rest → s.mayRetire p = true → s.lmap.length = 32 → q ≠ p →
      ∃ t, exec (.clusterRetirement lc) s = .next t ∧ t.phys lc = some q ∧ (nth t.clusters p).retired = true ∧
        t.flash.repair = s.flash.repair ++ [p] ∧
        t.sram = Mem.move s.sram (p * 2 ^ 25) (q * 2 ^ 25) (2 ^ 25)) ∧
    (∀ lc, s.phys lc = some p → (s.waiting (p / 17)).contains lc = true → s.spares (p / 17) = [] →
      ∃ t, exec (.clusterRetirement lc) s = .next t ∧ t.lrisk = s.lrisk ++ [lc] ∧ (nth t.clusters p).offsetMv = 40 ∧
        (nth t.clusters p).atCeiling = true ∧ SameMemory s t)

/-- A line that a recovery path of this device brings back is logged, its cost counted for its bay, and the command that read
it marked CORRECTED; a path that asks another site begins a wait for its block (R338). With every path failed it is
poisoned, and the dispatched command that read it ends MACHINE_CHECK (R339). A patrol scrub changes nothing. A refresh wait counts in REFRESH_STALL, bounded as R135 says. A due seasoning
sample takes every reading and counts one interval (R342); a due history write leaves a copy with SEQ + 1 in the flash
(R346). (R133, R135, R338, R339, R342, R346) -/
def Obligations.ReliabilityEventsAct : Prop :=
  ∀ (s : State) (line : Nat) (kind : LineKind) (c : Slot) (b n cost : Nat), PartsCounted s → s.up = true → b < 16 →
    s.slot? c.adm = some c → c.dispatched = true → c.bay? = some b →
    let paths := (s.countUncorr line).paths (some b) line kind
    (n < paths.length → remotePath kind (nth paths n) = false →
      ∃ t, exec (.lineRecovery line kind c.adm n cost) s = .next t ∧ SameMemory s t ∧
      (t.slot? c.adm).map (·.corrected) = some true ∧ nth (t.bay b).tele 4 = (nth (s.bay b).tele 4 + cost) % 2 ^ 64) ∧
    (∀ j w, n < paths.length → remotePath kind (nth paths n) = true → (s.bay b).join = some j → j.joining = none →
      (s.countUncorr line).waitFor b line kind c.adm (nth paths n) cost = some w →
      ∃ t j', exec (.lineRecovery line kind c.adm n cost) s = .next t ∧ SameMemory s t ∧ (t.bay b).join = some j' ∧
        w ∈ j'.lineWaits ∧ t.slot? c.adm = some c) ∧
    (paths.length ≤ n → s.lrisk = [] → kind = .operand → c.phase = .active → (∃ h g st mx, c.instr = .normClip h g st mx) →
      ∃ t, exec (.lineRecovery line kind c.adm n cost) s = .next t ∧ line ∈ t.poison ∧ Ended t c .machineCheck 0) ∧
    exec (.patrolScrub line) s = .next s ∧
    (∀ tier2 stall, ∃ t, exec (.dramRefresh b tier2 stall) s = .next t ∧ SameMemory s t ∧ OtherBays s t b ∧
      nth (t.bay b).tele 0 = (nth (s.bay b).tele 0 + min stall (if tier2 then 656 else 304)) % 2 ^ 64) ∧
    (∀ xs, s.season.sampledAt + 600000000000 ≤ s.clock.uptime → ∃ t, exec (.seasoningSample xs) s = .next t ∧
      t.season.tenths = s.season.tenths + 1 ∧ t.season.sampledAt = s.clock.uptime ∧ SameMemory s t ∧
      t.season.recs.length = s.season.recs.length) ∧
    (s.season.written + 36 ≤ s.season.tenths → ∃ t, exec .historyWrite s = .next t ∧
      t.season.seq = (s.season.seq + 1) % 2 ^ 32 ∧ t.season.written = s.season.tenths ∧ SameMemory s t ∧
      (t.flash.hist0 = s.historyBytes t.season.seq ∨ t.flash.hist1 = s.historyBytes t.season.seq))

/-- A stage's event in its stage leaves the next stage in progress: stage 1 when the self-test passes, else the device
stays in reset; stage 2 on the fast path with the cached versions, else with the set of verified images or in
management-only mode; stages 3 to 7 with the NV values, the trained memory, the ports, the repaired units and the
cluster map (R352 to R359, R365, R369). Stage 8 raises READY and DEV_READY. A bank on trial that is late is rejected
by a warm reset (R363); an update with an image sets PENDING to the other bank (R362). (R352, R353, R354, R359, R362,
R363, R365, R366, R369, 15_bringup.md Table 15.1) -/
def Obligations.BootStagesAdvance : Prop :=
  ∀ (s : State), PartsCounted s →
    (s.inStage 1 = true → (∃ t, exec (.bootRomStage true) s = .next t ∧ t.boot.stage = 2 ∧ t.boot.linkUp = !s.dev.perstLow ∧
        t.dev.hold = 0) ∧ ∃ t, exec (.bootRomStage false) s = .next t ∧ t.dev.hold = 2 ∧ t.boot.stage = 1) ∧
    (s.inStage 2 = true → s.boot.warm = true → s.boot.declined = none → ∃ t, exec .imageSelection s = .next t ∧
      t.boot.stage = 3 ∧ t.boot.fastPath = true ∧ t.boot.versions = s.boot.cached.1) ∧
    (s.inStage 2 = true → s.boot.warm = false → ∃ t, exec .imageSelection s = .next t ∧
      ((t.boot.stage = 3 ∧ t.boot.mgmtOnly = false) ∨ (t.boot.stage = 2 ∧ t.boot.mgmtOnly = true))) ∧
    (s.inStage 3 = true → ∃ t, exec .nvOverlay s = .next t ∧ t.boot.stage = 4 ∧ t.bootFeat = t.effFeat ∧
      t.effFeat = effectiveFeatures s.flash.licences t.licenceTime) ∧
    (∀ t3 : List (Option Nat), s.inStage 4 = true → ∃ t, exec (.dramTraining [] t3) s = .next t ∧ t.boot.stage = 5 ∧
      t.t3cap = (List.range 4).map (s.linkCap t3)) ∧
    (∀ part parts t3, s.inStage 4 = true → ∃ t, exec (.dramTraining (part :: parts) t3) s = .next t ∧
      t.boot.mgmtOnly = true) ∧
    (∀ an le fe, s.inStage 5 = true → ∃ t, exec (.laneTraining an le fe) s = .next t ∧
      t.boot.stage = (if s.boot.fastPath then 7 else 6)) ∧
    (∀ fs, s.inStage 6 = true → fs.any BistFail.isFatal = false → ∃ t, exec (.bist fs) s = .next t ∧ t.boot.stage = 7) ∧
    (∀ fs, s.inStage 7 = true → ∃ t, exec (.gcrtBroadcast fs) s = .next t ∧ t.boot.stage = 8 ∧
      t.lfailed = (List.range s.lclusters).filter (fun lc => (t.phys lc).isNone)) ∧
    (s.inStage 8 = true → ∃ t, exec .ready s = .next t ∧ t.boot.ready = true ∧ t.dev.devReady = true ∧
      Output.devReady true ∈ t.outs ∧ t.flash.events = []) ∧
    (∀ k, s.boot.trial = some k → s.dev.hold = 0 → s.boot.ready = false → s.boot.start + 120000000000 ≤ s.clock.uptime →
      ∃ t, exec .pendingBankTimeout s = .next t ∧ t.flash.select.pending = none ∧ t.boot.stage = 1 ∧ t.boot.warm = true ∧
        t.flash.select.active = s.flash.select.active) ∧
    (∀ k img, k < 5 → s.dev.hold = 0 → img.length ≤ slotSize k → ∃ t, exec (.pldmFirmwareUpdate [(k, img)]) s = .next t ∧
      t.flash.select = ⟨s.flash.select.seq + 1, s.flash.select.active, some (1 - s.flash.select.active)⟩ ∧ SameMemory s t)

/-- An orderly power-down ends with the domains off, DEV_READY low and the history written (R403); an input outside 38 V
to 62 V, a sensor at 125 C and a test instruction that drives pins each latch their alarm, erase every key slot and
stop the device (R389, R402, R416); TRST_N restarts a device held in test. A PLL of the system or host family that
loses lock is a class 5 event; a fabric port's takes its port DOWN, a far port's its port (R410). An expander whose
link is down fails every access from then on (R382). (R382, R389, R402, R403, R410, R416) -/
def Obligations.PowerEventsAct : Prop :=
  ∀ (s : State), PartsCounted s →
    (s.hostUp = true → s.boot.ready = true → ∃ t, exec (.powerDown (.register 0x5057444E)) s = .next t ∧ t.dev.hold = 4 ∧
      t.dev.devReady = false ∧ t.power = List.replicate 62 false ++ [true, true] ∧ t.boot.linkUp = false ∧
      t.season.seq = (s.season.seq + 1) % 2 ^ 32) ∧
    (∀ v, v ≠ 0x5057444E → exec (.powerDown (.register v)) s = .next s) ∧
    (s.dev.hold = 0 → ∃ t, exec (.powerDown .pldm) s = .next t ∧ t.dev.hold = 4) ∧
    (∀ mv, (mv < 38000 ∨ 62000 < mv) → s.dev.hold ≠ 1 → ∃ t, exec (.inputFault mv) s = .next t ∧ t.dev.hold = 1 ∧
      t.vin = mv ∧ t.dev.alarm.getLsbD 1 = true ∧ t.boot.linkUp = false ∧
      (mv < 30000 → t.power = List.replicate 64 false) ∧ ∀ b, b < 16 → (t.bay b).keys = List.replicate 4 .empty) ∧
    (∀ sensor reading, 500 ≤ celsius4 reading → s.dev.hold ≠ 1 → s.dev.thermtrip = false →
      ∃ t, exec (.thermalTrip sensor reading) s = .next t ∧ t.dev.hold = 4 ∧ t.dev.thermtrip = true ∧
        t.dev.alarm.getLsbD 3 = true ∧ Output.thermtrip ∈ t.outs ∧ ∀ b, b < 16 → (t.bay b).keys = List.replicate 4 .empty) ∧
    (s.dev.hold ≠ 1 → s.dev.hold ≠ 3 → ∃ t, exec (.jtagInstructionLoad true) s = .next t ∧ t.dev.hold = 3 ∧
      t.dev.alarm.getLsbD 4 = true ∧ t.boot.ready = false ∧ ∀ b, b < 16 → (t.bay b).keys = List.replicate 4 .empty) ∧
    exec (.jtagInstructionLoad false) s = .next s ∧
    (s.dev.hold = 3 → s.dev.resetLow = false → ∃ t, exec .jtagTrstN s = .next t ∧ t.dev.hold = 0 ∧ t.boot.stage = 1 ∧
      t.boot.warm = false ∧ t.bays = State.reset.bays ∧ t.flash = s.flash) ∧
    (s.dev.hold = 0 → ∀ q ∈ [Pll.system, Pll.host], ∃ t, exec (.pllLossOfLock q) s = .next t ∧ t.dev.fatal = true) ∧
    (∀ p, p < 12 → s.dev.hold = 0 → (s.port p).state ≠ 0 → ∃ t, exec (.pllLossOfLock (.fabricPort p)) s = .next t ∧
      (t.port p).state = 0 ∧ (t.port p).inOperation = true ∧ SameMemory s t) ∧
    (∀ f, f < 2 → s.dev.hold = 0 → ∃ t, exec (.pllLossOfLock (.farPort f)) s = .next t ∧ (nth t.far f).state = 0 ∧
      SameMemory s t) ∧
    (∀ l, s.dev.hold = 0 → nth s.t3cap l ≠ 0 → s.t3down.contains l = false →
      exec (.cxlLinkDown l) s = .next { s with t3down := s.t3down ++ [l] })

/-- A sample of the sensors takes its readings with the overlay's trim (R413). A die that has read 5 C below its level's
entry for 1 ms drops one level and raises the THERMAL cause (R414, R415). A tower or package that reports 95 C is
held, and released after 1 ms below 90 C (R414, R415). A time-of-day frame with a good CRC governs the next edge, a
bad one is counted (R392). A PPS edge out of its window is counted and changes nothing else of the unit; an accepted
edge records the counter as LAST_PPS; with no accepted edge for 2 s the unit is in HOLDOVER (R393). (R392, R393, R413,
R414, R415, 18_registers.md Table 18.4) -/
def Obligations.ThermalAndTimeEventsAct : Prop :=
  ∀ (s : State), PartsCounted s → s.dev.hold = 0 →
    (∀ rs : List Nat, ∃ t, exec (.thermalSensorSample rs) s = .next t ∧ SameMemory s t ∧ t.bays = s.bays ∧
      t.sensors = (List.range 64).map (fun i =>
        (BitVec.ofInt 16 (celsius4 (nth rs i) + nth s.nv.tempTrim i)).toNat)) ∧
    (∀ d at_, d ≤ 2 → 0 < (nth s.dies d).level → nth (nth s.dies d).cool ((nth s.dies d).level - 1) = some at_ →
      at_ + 1000000 ≤ s.clock.uptime → ∃ t, exec (.protectionLevelExit d) s = .next t ∧
        (nth t.dies d).level = (nth s.dies d).level - 1 ∧ t.dev.intCause.getLsbD 5 = true ∧ SameMemory s t) ∧
    (∀ tier2 part, s.dramHolds.any (fun h => h.tier2 == tier2 && h.part == part) = false →
      exec (.dramThermalHold tier2 part) s = .next { s with dramHolds := s.dramHolds ++ [⟨tier2, part, s.clock.uptime⟩] }) ∧
    (∀ tier2 part x, s.dramHolds.find? (fun h => h.tier2 == tier2 && h.part == part) = some x →
      x.since + 1000000 ≤ s.clock.uptime → ∃ t, exec (.dramThermalRelease tier2 part) s = .next t ∧
        t.dramHolds = s.dramHolds.filter (fun y => y != x) ∧ SameMemory s t) ∧
    (∀ f : TodBytes, f.length = 20 → beAt f 0 2 = 0xA55A →
      (byteAt f 2 = 1 → crc16 (f.take 18) = beAt f 18 2 →
        exec (.siteTodFrame f) s = .next { s with clock := { s.clock with frame := some (f, s.clock.uptime) } }) ∧
      ((byteAt f 2 ≠ 1 ∨ crc16 (f.take 18) ≠ beAt f 18 2) → exec (.siteTodFrame f) s = .next (s.countDev 5 1))) ∧
    (∀ e, s.clock.lastEdge = some e → (s.clock.uptime < e + 900000000 ∨ e + 1100000000 < s.clock.uptime) →
      exec .sitePpsEdge s = .next (s.countDev 4 1)) ∧
    ((∀ e, s.clock.lastEdge = some e → e + 900000000 ≤ s.clock.uptime ∧ s.clock.uptime ≤ e + 1100000000) →
      ∃ t, exec .sitePpsEdge s = .next t ∧ t.clock.lastPps = s.clock.site ∧ t.clock.lastEdge = some s.clock.uptime ∧
        t.clock.frame = none ∧ SameMemory s t) ∧
    (s.clock.lastEdge.getD s.boot.start + 2000000000 ≤ s.clock.uptime → ∃ t, exec .ppsHoldover s = .next t ∧
      t.clock.state = 3 ∧ t.clock.site = s.clock.site ∧ SameMemory s t)

/-- SCARF_JOIN that passes its checks takes its areas; alone it ends OK with its site, else it waits for a hello and,
after 10 s, completes without one (R274, R276). SCARF_LEAVE with nothing running and nothing sent unacknowledged ends
OK and the join is gone. SCARF_EPOCH_CLOSE of the next epoch begins, or ends at once with the detached bit, as does one
that waited when the bay became detached (R277, R287). SCARF_CANCEL ends OK when no chosen pair was granted, else TOO_LATE,
with its counts (R187). SCARF_CATCHUP asks its sources and begins, and ends TIMEOUT when none has answered in two periods
(R294). A second leave, close or catch-up waits for the end of the first (the model's choice, log 61). A fresh close whose
bundles are formed ends OK with their count and opens the next epoch; held 20 ms without a port it ends PORT_NOT_READY (R284).
(R187, R274, R275, R276, R277, R279, R284, R287, R294, 07_opcodes.md Table 7.8) -/
def Obligations.ScarfCommandsComplete : Prop :=
  ∀ (s : State) (c : Slot) (h : Hdr) (b : Nat), PartsCounted s → c.bay? = some b → b < 16 →
    (∀ blk g slot, Running s c (.scarfJoin h blk g slot) → s.joinFails b blk slot = none →
      let n := newJoin blk g slot (s.bay b).freeTier2
      (n.others = [] → LeavesJoin s (.scarfJoin h blk g slot) b (fun t j => Ended t c .ok n.site ∧ j.joining = none ∧
        j.rtxGranules = n.rtxGranules ∧ j.recvGranules = n.recvGranules ∧ j.nextEpoch = 0)) ∧
      (n.others ≠ [] → LeavesJoin s (.scarfJoin h blk g slot) b (fun t j => Begun t c ∧ SameMemory s t ∧
        j.joining = some (h.adm, s.clock.uptime) ∧ j.blk = n.blk ∧ j.ctlOut.map (·.site) = n.others))) ∧
    (∀ j, (s.bay b).join = some j →
      (∀ at_, j.joining = some (c.adm, at_) → s.slot? c.adm = some c → c.phase = .active →
        at_ + 10000000000 ≤ s.clock.uptime →
        LeavesJoin s (.joinHelloTimeout b) b (fun t k => Ended t c .ok j.site ∧ k.joining = none)) ∧
      (j.joining = none →
        (Running s c (.scarfLeave h) → j.leave = none → j.working = false → j.bundles = [] →
          ∃ t, exec (.scarfLeave h) s = .next t ∧ Ended t c .ok 0 ∧ (t.bay b).join = none ∧ SameMemory s t) ∧
        (∀ p step, Running s c (.scarfEpochClose h j.nextEpoch step) → (s.bay b).train.map = some p → j.close = none →
          step = j.closeStep j.nextEpoch → p.live.all (fun ti => (s.bay b).train.appliedOf ti == step) →
          (j.detached = true → LeavesJoin s (.scarfEpochClose h j.nextEpoch step) b (fun t k =>
            Ended t c .ok (2 ^ 48) ∧ k.nextEpoch = j.nextEpoch + 1)) ∧
          (j.detached = false → LeavesJoin s (.scarfEpochClose h j.nextEpoch step) b (fun t k =>
            Begun t c ∧ SameMemory s t ∧ k = { j with close := some ⟨h.adm, j.nextEpoch, step, false⟩ }))) ∧
        (∀ e, Running s c (.scarfCancel h e 0xFF 0xFFFFFFFF) → j.leave = none →
          let pairs := ((j.bundles.filter (fun x => x.epoch == e)).map (fun x => x.dests.map (fun d => (x, d)))).flatten
          let won := (j.granted.filter (fun g => g.1 == e)).length
          let gone := (pairs.filter (fun q => (assoc q.1.sentAt q.2.1).isNone && q.2.2 != DestState.cancelled)).length
          LeavesJoin s (.scarfCancel h e 0xFF 0xFFFFFFFF) b (fun t k => SameMemory s t ∧
            Ended t c (if won = 0 then .ok else .tooLate) (gone + won * 2 ^ 32) ∧
            ∀ x ∈ k.bundles, x.epoch = e → ∀ d ∈ x.dests, (assoc x.sentAt d.1).isNone → d.2 = .cancelled)) ∧
        (∀ site, Running s c (.scarfCatchup h site) → (site ≤ 15 ∨ site = 0xFF) → j.catchup = none →
          LeavesJoin s (.scarfCatchup h site) b (fun t k => Begun t c ∧ SameMemory s t ∧
            k.catchup = some ⟨h.adm, site == 0xFF, site, s.clock.uptime, [], []⟩)) ∧
        ((Running s c (.scarfLeave h) → j.leave.isSome → exec (.scarfLeave h) s = .next s) ∧
          (∀ e step p, Running s c (.scarfEpochClose h e step) → j.close.isSome → (s.bay b).train.map = some p →
            exec (.scarfEpochClose h e step) s = .next s) ∧
          (∀ site, Running s c (.scarfCatchup h site) → (site ≤ 15 ∨ site = 0xFF) → j.catchup.isSome →
            exec (.scarfCatchup h site) s = .next s)) ∧
        (s.slot? c.adm = some c → c.phase = .active → j.leave = none →
          (∀ u p, j.close = some u → u.adm = c.adm → u.passed = false → j.passMarks = [] → j.detached = true →
            (s.bay b).train.map = some p → LeavesJoin s (.epochClosePass b) b (fun t k =>
              Ended t c .ok (2 ^ 48) ∧ k.nextEpoch = u.epoch + 1 ∧ k.close = none)) ∧
          (∀ u, j.catchup = some u → u.adm = c.adm → u.since + 2 * j.blk.periodNs ≤ s.clock.uptime →
            LeavesJoin s (.catchupTimeout b) b (fun t k =>
              Ended t c (if u.bad = [] then .timeout else .digestMismatch) 0 ∧ k.catchup = none)) ∧
          (∀ u p f, j.close = some u → u.adm = c.adm → u.passed = true → u.epoch = j.nextEpoch → j.fresh = true →
            j.detached = false → (s.bay b).train.map = some p → j.forms = [f] → f.epoch = u.epoch →
            p.deltaBlocks.length ≤ f.next → j.closeLost p u = false →
            let sites := if u.epoch.toNat = 0 then 0 else ((j.entry? (u.epoch.toNat - 1)).map Ledger.sites).getD 0
            LeavesJoin s (.epochClosePass b) b (fun t k =>
              Ended t c .ok (f.formed + sites * 2 ^ 32) ∧ k.nextEpoch = u.epoch + 1 ∧ k.close = none ∧ k.fresh = false)) ∧
          (∀ u x at_, j.close = some u → u.adm = c.adm → s.farUp j = [] → x ∈ j.bundles → x.epoch = u.epoch →
            x.waits = true → x.heldSince = some at_ → at_ + 20000000 ≤ s.clock.uptime →
            LeavesJoin s (.portHoldTimeout b) b (fun t k =>
              Ended t c .portNotReady 0 ∧ k.nextEpoch = u.epoch + 1 ∧ k.close = none)))))

/-- A datagram that the join takes, with a good tag where it is a control datagram, acts: a fragment of a new bundle is
held in the receive area; a SACK samples the round trip and releases what it reports; a matching hello completes the
join; vectors, entries, digests, catch-up data and acknowledgements are kept as Tables 11.6 to 11.8 say; a request that
this site can answer is answered, any other kept; the last part of a good catch-up ends it OK with its epoch (R276, R281 to
R283, R286, R287, R291, R294). A speaker's relay acts at the other members of its site. A frame that no bay takes is
counted by its reason (R383, R384). (R276, R281, R282, R283, R286, R287, R291, R294, R383, R384) -/
def Obligations.FarDatagramsAct : Prop :=
  ∀ (s : State) (b port : Nat) (d : Dgram) (j : Join), PartsCounted s → b < 16 → (s.bay b).join = some j →
    (OpenTo j d.srcSite → j.takes d = true → (s.bay b).joinKey j ≠ none →
      (dgramFragOk d = true → 2 ≤ d.fragCount → j.complete.contains (d.srcSite, d.seq) = false →
        j.rx.any (fun x => x.site == d.srcSite && x.seq == d.seq) = false → assoc j.ackDue d.srcSite = none →
        j.recvBytes + d.fragCount * 8192 ≤ j.recvGib * gib →
        LeavesJoin s (.fragment b port d) b (fun t k => SameMemory s t ∧
          k.rx = j.rx ++ [⟨d.srcSite, d.seq, d.fragCount, [(d.frag, d.payload)], none⟩] ∧
          assoc k.ackDue d.srcSite = some (1, s.clock.uptime, d.sent))) ∧
      (j.leave = none → LeavesJoin s (.sack b port d) b (fun t k => SameMemory s t ∧
        assoc k.srtt d.srcSite = some (match assoc j.srtt d.srcSite with
          | some r => (7 * r + (s.now - d.echo)) / 8
          | none => s.now - d.echo) ∧
        ∀ x ∈ k.bundles, assoc x.dests d.srcSite = some .granted → sackDone (sackOf d.payload) x.seq = false))) ∧
    (∀ p (c : Slot) at_, GoodCtl s b 8 d j p → j.joining = some (c.adm, at_) → s.slot? c.adm = some c → c.phase = .active →
      p.take 40 = (s.helloBytes false).take 40 →
      LeavesJoin s (.hello b port d) b (fun t k => Ended t c .ok j.site ∧ k.joining = none)) ∧
    (OpenTo j d.srcSite →
      (∀ p, GoodCtl s b 7 d j p → LeavesJoin s (.controlAcknowledgement b port d) b (fun t k => SameMemory s t ∧
        k.ctlOut = j.ctlOut.filter (fun x => !(x.site == d.srcSite && x.seq.toNat == beAt p 0 4)))) ∧
      (∀ p, GoodCtl s b 2 d j p → j.speaker = true → LeavesJoin s (.admissionVector b port d) b (fun t k =>
        SameMemory s t ∧ vectorOf p s.now ∈ k.vectors)) ∧
      (∀ p, GoodCtl s b 3 d j p → j.speaker = true → j.entry? (ledgerOf p).epoch.toNat = none →
        s.now < s.finalTime j (ledgerOf p).epoch.toNat →
        LeavesJoin s (.ledgerEntry b port d) b (fun t k => SameMemory s t ∧ ledgerOf p ∈ k.entries)) ∧
      (∀ p, GoodCtl s b 4 d j p → LeavesJoin s (.digest b port d) b (fun t k => SameMemory s t ∧
        ⟨d.srcSite, BitVec.ofNat 32 (beAt p 0 4), byteAt p 4, slice p 8 32⟩ ∈ k.digests)) ∧
      (∀ p, GoodCtl s b 5 d j p → s.answerTo b j p = none → LeavesJoin s (.catchupRequest b port d) b (fun t k =>
        SameMemory s t ∧ k.requests = j.requests ++ [(d.srcSite, p)])) ∧
      (∀ p lens ps, GoodCtl s b 5 d j p → s.answerTo b j p = some (lens, ps) → s.faults.codec = [] → s.codecLanes ≠ [] →
        LeavesJoin s (.catchupRequest b port d) b (fun t k => SameMemory s t ∧ k.requests = j.requests ∧
          ∀ q ∈ ps, ∃ x ∈ k.ctlOut, x.site = d.srcSite ∧ x.kind = 6 ∧ x.payload = q)) ∧
      (∀ p c m, GoodCtl s b 6 d j p → j.lineWaits = [] → j.catchup = some c → c.source = d.srcSite → byteAt p 0 < 4 →
        (s.bay b).train.map = some m →
        let parts := assocSet c.parts (partKey p) (p.drop 16)
        (catchupWhole m parts = none → LeavesJoin s (.catchupData b port d) b (fun t k => SameMemory s t ∧
          k.catchup = some { c with parts := parts })) ∧
        (∀ x xs (u : Slot), catchupWhole m parts = some x → stagedBlocks m parts = some xs →
          j.catchupGood x parts xs = true → s.ioStatus b [] m.closeRanges = none → j.leave = none →
          s.slot? c.adm = some u → u.phase = .active → LeavesJoin s (.catchupData b port d) b (fun t k =>
            Ended t u .ok x ∧ k.catchup = none ∧ k.nextEpoch = BitVec.ofNat 32 x ∧ k.fresh = true)))) ∧
    (j.joining = none →
      (∀ m e h0 h1 h2, j.speaker = true → LeavesJoin s (.managementPacket b (.report m e h0 h1 h2)) b (fun t q =>
        SameMemory s t ∧ ⟨m, e, h0, h1, h2⟩ ∈ q.reports)) ∧
      (∀ e k, j.speaker = false → LeavesJoin s (.managementPacket b (.vector e k)) b (fun t q => SameMemory s t ∧
        vectorOf k s.now ∈ q.vectors)) ∧
      (∀ e k, j.speaker = false → j.entry? (ledgerOf k).epoch.toNat = none →
        s.now < s.finalTime j (ledgerOf k).epoch.toNat →
        LeavesJoin s (.managementPacket b (.entry e k)) b (fun t q => SameMemory s t ∧ ledgerOf k ∈ q.entries))) ∧
    (∀ f : FarFrame,
      ((f.pause = true ∨ f.tagged = true) → exec (.farFilteredFrame f) s = .next (s.countDev 2 1)) ∧
      (f.pause = false → f.tagged = false → f.nextHeader ≠ 17 → exec (.farFilteredFrame f) s = .next (s.countDev 1 1)) ∧
      (f.pause = false → f.tagged = false → f.dmac = (nth s.far f.port).mac → f.etherType = 0x86DD → f.nextHeader = 17 →
        f.dstIp = j.blk.srcIp → f.dstPort = j.blk.udpPort → f.checksumOk = false →
        exec (.farFilteredFrame f) s = .next (s.countDev 0 1)))

/-- In its bay's turn a pair is granted, sent whole and marked (R203, R284); a verified bundle with room lands its blocks and leaves the receive
area; a due SACK goes out (R282); what is unacknowledged for its RTO is sent again and counted (R281, R283); a silent
peer is marked unreachable (R283). At A_E the member reports to the speaker and the next cut is that of E + 1 (R286); a tally site
publishes its entry once (R287); at F_E an entry held is final and older bundles and unadmitted deltas go, with none the bay is detached
(R287, R289); digests that all agree settle the result (R292). (R203, R281, R282, R283, R284, R286, R287, R289, R292) -/
def Obligations.FarTimersAct : Prop :=
  ∀ (s : State) (b : Nat) (j : Join), PartsCounted s → b < 16 → (s.bay b).join = some j → j.joining = none →
    (∀ x site, j.bundles.find? (fun y => y.seq == x.seq) = some x → assoc x.dests site = some .waiting →
      s.farTurn b = true → LeavesJoin s (.bundleGrant b x.seq site) b (fun t k => SameMemory s t ∧
        k.granted = j.granted ++ [(x.epoch, x.seq, site)] ∧
        ∃ y ∈ k.bundles, y.seq = x.seq ∧ y.bytes = x.bytes ∧ assoc y.sentAt site = some s.clock.uptime ∧
          y.heldSince = none ∧ assoc y.dests site = some .granted)) ∧
    (∀ site seq x bytes xs, j.rx.find? (fun y => y.site == site && y.seq == seq) = some x → x.verified = some bytes →
      j.stale site (BitVec.ofNat 32 (beAt (bytes.take 64) 4 4)) = false → s.codecLanes ≠ [] →
      planeReadAll false (bytes.drop 64).length (bytes.drop 64) = some xs → bundleGood (bytes.take 64) xs = true →
      let ls := ((cutBlocks xs (bytes.drop 64)).map planeAddCrc).zipIdx.map (fun y =>
        Landed.mk site (BitVec.ofNat 32 (beAt (bytes.take 64) 4 4)) (beAt (bytes.take 64) 0x10 4 + y.2) y.1)
      j.landRoom ((ls.map (·.data.length)).sum) = true →
      LeavesJoin s (.bundleLanding b site seq) b (fun t k => SameMemory s t ∧ k.landed = j.landed ++ ls ∧
        k.rx.any (fun y => y.site == site && y.seq == seq) = false)) ∧
    (∀ site due, assoc j.ackDue site = some due → due.2.1 + 100000 ≤ s.clock.uptime →
      LeavesJoin s (.ackTimer b site) b (fun t k => SameMemory s t ∧ k.ackDue = assocDel j.ackDue site ∧ t ≠ s)) ∧
    (j.leave = none → ∀ site,
      (∀ x at_, x ∈ j.bundles → assoc x.dests site = some .granted → assoc x.sentAt site = some at_ →
        at_ + rtoAfter (j.rto site) ((assoc x.resends site).getD 0) ≤ s.clock.uptime →
        LeavesJoin s (.rtoExpiry b site) b (fun t k => SameMemory s t ∧ ∃ y ∈ k.bundles, y.seq = x.seq ∧
          assoc y.sentAt site = some s.clock.uptime ∧
          assoc y.resends site = some ((assoc x.resends site).getD 0 + 1))) ∧
      (∀ at_, assoc j.lastHeard site = some at_ → at_ + 2000000000 ≤ s.clock.uptime → j.unreach.contains site = false →
        LeavesJoin s (.peerUnreachable b site) b (fun t k => SameMemory s t ∧ k.unreach = j.unreach ++ [site] ∧
          ∀ x ∈ k.bundles, assoc x.dests site ≠ some .waiting ∧ assoc x.dests site ≠ some .granted))) ∧
    (s.cutTime j j.nextCut ≤ s.now → LeavesJoin s (.admissionCut b) b (fun t k => SameMemory s t ∧
      k.nextCut = j.nextCut + 1 ∧
      let hs := j.holdsFor j.nextCut (s.cutTime j j.nextCut)
      let r : MemberReport := ⟨j.blk.thisMember, BitVec.ofNat 32 j.nextCut, nth hs 0, nth hs 1, nth hs 2⟩
      if j.speaker then r ∈ k.reports
      else Output.mgmt b 0 (.report r.member r.epoch r.hold0 r.hold1 r.hold2) ∈ t.outs)) ∧
    (∀ slot e vs, j.speaker = true → slot < j.sites.length →
      (List.range' j.nextFinal (j.nextCut - j.nextFinal)).findSome? (fun e =>
        (s.publishes j e slot).map (fun vs => (e, vs))) = some (e, vs) →
      LeavesJoin s (.tallySlot b slot) b (fun t k => SameMemory s t ∧ k.published = j.published ++ [BitVec.ofNat 32 e])) ∧
    (j.leave = none → s.finalTime j j.nextFinal ≤ s.now →
      (j.entry? j.nextFinal = none → LeavesJoin s (.ledgerFinal b) b (fun t k => SameMemory s t ∧ k.detached = true ∧
        k.nextFinal = j.nextFinal + 1)) ∧
      ((j.entry? j.nextFinal).isSome → LeavesJoin s (.ledgerFinal b) b (fun t k => SameMemory s t ∧
        k.nextFinal = j.nextFinal + 1 ∧ k.dropped = j.dropped ++ j.dropAt j.nextFinal ∧ ∀ x ∈ k.bundles, j.nextFinal < x.epoch.toNat + 2))) ∧
    (∀ p l q, (s.bay b).train.map = some p → j.entry? j.baseNow = some l → j.prepared? j.baseNow = some q →
      q.settled = false → q.phase = 0 →
      ((j.others.filter (fun i => l.present.getLsbD i)).length ≤ (j.digestsOf l false).length ∨
        s.digestTime j j.baseNow ≤ s.now) →
      (j.digestsOf l false).all (fun r => r.digest == q.digest) = true →
      LeavesJoin s (.digestSettle b) b (fun t k => SameMemory s t ∧
        (k.prepared? j.baseNow).map (·.settled) = some true))

/-- A command finishes with any status. With SUPPRESS and a posted status OK or CORRECTED its slot is free at once and no
memory changes: no entry is posted. With any other status, or without SUPPRESS, its entry waits, and COMPLETION_POST
of its completion queue, when it comes next and the ring has room, writes the 16 bytes of Table 6.3 and releases the
slot. In both cases its SIGNAL_CTR rises by one, and ERR is set for a failure: the same values whatever SUPPRESS
holds. A command ended by a reset, which posts nothing (Table 8.5), is not one of these. (R148) -/
def Obligations.SuppressedCompletions : Prop :=
  ∀ (s : State) (c : Slot) (b : Nat) (st : Status) (r : Nat), PartsCounted s → CommandsNumbered s → b < 16 →
    s.slot? c.adm = some c → c.finished? = false → c.quiet = false → c.bay? = some b → NoDelete s b →
    ∀ t p, t = s.finishNat c.adm st r → p = postedStatus c st →
      (c.hdr.suppress = true → (p = .ok ∨ p = .corrected) → t.slot? c.adm = none ∧ SameMemory s t) ∧
      ((c.hdr.suppress = false ∨ (p ≠ .ok ∧ p ≠ .corrected)) → ∃ c', t.slot? c.adm = some c' ∧
        (∃ n, c'.phase = .finished p (BitVec.ofNat 64 r) n) ∧ c'.instr = c.instr ∧
        ∀ q k x, q < 8 → c.hdr.org = .bay b q → k = (nth (t.bay b).sqs q).cq → k < 8 → x = nth (t.bay b).cqs k → t.dev.hold = 0 →
          t.nextPost (.bay b k) = some c' → x.live = true → ringFull x.log2 x.head x.tail = false →
          ∃ u, exec (.completionPost (.bay b k)) t = .next u ∧ u.slot? c.adm = none ∧
            SameMemory (t.writeBay b (x.base + 16 * x.tail)
              (completionBytes (BitVec.ofNat 64 r) c.hdr.tag p x.phase q (nth (t.bay b).sqs q).head)) u) ∧
      (∀ k, c.hdr.signal = some k → k < 256 → nth (t.bay b).counters k =
        ⟨(nth (s.bay b).counters k).value + 1, (nth (s.bay b).counters k).err || !p.success⟩)

/-- RESUME_BAY of a HALTED bay makes it ACTIVE and ends OK. While it was HALTED no fetch was due from it; after it, a
fetch is due as soon as the bay has a free slot and a pending entry, as R153 says of an ACTIVE bay. Every event
counter keeps its ERR bit and VALUE, and a write of 1 to ERR by software, and only that among the three widths' bits,
clears it. (R199) -/
def Obligations.ResumedBayFetches : Prop :=
  ∀ (s : State) (c : Slot) (h : Hdr) (b : Nat), PartsCounted s → CommandsNumbered s → b < 16 → c.hdr.org = .urgent →
    Running s c (.resumeBay h b) → (s.bay b).st = .halted → c.metState = .halted → s.wantsFetch b = false ∧
      ∃ t, exec (.resumeBay h b) s = .next t ∧ (t.bay b).st = .active ∧ Ended t c .ok 0 ∧
        t.wantsFetch b = (decide (0 < s.freeSlots b) && (List.range 8).any (fun q => decide (0 < (s.bay b).fetchable q))) ∧
        (t.bay b).counters = (s.bay b).counters ∧
        (t.hostUp = true → ∀ k (v : W32), k < 256 → ∃ u, exec (.eventCounterWrite b k (.high v)) t = .next u ∧
          (nth (u.bay b).counters k).err = ((nth (t.bay b).counters k).err && !v.getLsbD 0))

/-- Every command that a fetch or an urgent sample admits carries the binding-table version of that moment and, from a
bay's queue, FTZ of the bay's record. A TXN_COMMIT whose tests pass raises the version by one, and every command of
the bay that is held takes the new version, keeping all else of its slot, the FTZ copy included. At dispatch a command
that names a cluster outside its bay's record ends REBOUND with memory unchanged and its signal fired with ERR; one
whose counter carried ERR ends ABORTED even then. (R213) -/
def Obligations.AdmissionStampsAndRebinding : Prop :=
  ∀ (s : State), PartsCounted s → CommandsNumbered s →
    (∀ i ∈ [Instr.entryFetch .bays, .entryFetch .control, .urgentDoorbellSample], ∃ t, exec i s = .next t ∧
      ∀ c ∈ t.cmds, s.nextAdm ≤ c.adm → c.stamp = s.version ∧ ∀ b, c.bay? = some b → c.ftz = (s.bay b).bind.ftz) ∧
    (∀ c h b d l r, Running s c (.txnCommit h b d) → b < 16 → d ≤ 50000 → (s.bay b).txn = some l → l ≠ [] → s.peg = none →
      (s.bay b).st ≠ .quiescing → (s.bay b).st ≠ .evicting → s.pegTest b l = .inr r →
      ∃ t, exec (.txnCommit h b d) s = .next t ∧ t.version = s.version + 1 ∧ (t.bay b).bind = r ∧
        ∀ x ∈ s.cmds, x.ofBay b = true → x.phase = .held → t.slot? x.adm = some { x with stamp := s.version + 1 }) ∧
    (∀ c b, s.up = true → b < 16 → s.slot? c.adm = some c → c.phase = .held → c.quiet = false → c.bay? = some b →
      s.mayStart b c = true → NoDelete s b → s.lfailed.any (fun lc => (named c.instr).getLsbD lc) = false → (named c.instr &&& ~~~(s.bay b).bind.clusters) ≠ 0 →
      ∃ t, exec (.commandDispatch c.adm) s = .next t ∧ SameMemory s t ∧
        outcome t c.adm = some (if c.errSample = some true then .aborted else .rebound, 0) ∧
        ∀ k, c.hdr.signal = some k → k < 256 → nth (t.bay b).counters k = ⟨(nth (s.bay b).counters k).value + 1, true⟩)

/-- Whatever command the block takes next, a command that holds a slot before and after it is the same command, with the
same operands, with the FTZ copy of its admission (R52), and once finished with the same status, result and place in
the order of completion (R155). (R52, R155, R158) -/
def Obligations.SlotsKeepTheirFacts : Prop :=
  ∀ (s t : State), CommandsNumbered s → step s = .next t →
    ∀ c ∈ s.cmds, ∀ c', t.slot? c.adm = some c' →
      c'.instr = c.instr ∧ c'.ftz = c.ftz ∧ (c.finished? = true → c'.phase = c.phase)

/-- If every admitted command has its operands within the fields that carry them, and its queue exists, so it is after
every step: what the Joiner decodes from a ring's 64 bytes and the extended block, whatever they hold, is well formed
or is refused admission. (R142, R144, R165, 06_command_packets.md Table 6.1, 07_opcodes.md) -/
def Obligations.StepKeepsCommandsWellFormed : Prop :=
  ∀ (s t : State), (∀ c ∈ s.cmds, c.instr.wf = true) → step s = .next t → ∀ c ∈ t.cmds, c.instr.wf = true

/-- After bytes are written at a place of DRAM, cluster SRAM or core local memory, each byte of the range reads as
written, but on a poisoned line that the write does not cover whole, which keeps its bytes and its mark; a covered
line loses its mark (R339); every byte elsewhere reads as before, in marked ranges (R214) too. A write of host memory
reads back whole. (R214, R339, 05_memory_tiers.md) -/
def Obligations.StoresReadBack : Prop :=
  ∀ (s t : State) (l : Loc) (bs : List Byte), MemoriesCanonical s → t = s.writeLoc l bs →
    (∀ l' : Loc, (l'.sp ≠ l.sp ∨ l'.addr < l.addr ∨ l.addr + bs.length ≤ l'.addr) → t.readLoc l' 1 = s.readLoc l' 1) ∧
    (l.sp = .host → t.readLoc l bs.length = bs) ∧
    (l.sp ≠ .host → l.addr + bs.length ≤ 2 ^ 64 →
      (∀ j, j < bs.length → t.readLoc ⟨l.sp, l.addr + j⟩ 1 =
        if (Loc.mk l.sp (l.addr + j)).line ∈ s.poison ∧ coversLine l.addr bs.length ((l.addr + j) / 64) = false
        then s.readLoc ⟨l.sp, l.addr + j⟩ 1 else [nth bs j]) ∧
      (∀ l' : Loc, l'.addr < 2 ^ 64 → (l'.line ∈ t.poison ↔ l'.line ∈ s.poison ∧
        ¬ (l'.sp = l.sp ∧ coversLine l.addr bs.length (l'.addr / 64) = true))))
end

