-- ==== Sys2Proof/Laws/Crc.lean ====
section
/-!
SUPPORT. The CRC-32 of any bytes is a 32-bit number.
-/
namespace Sys2Proof.Machine
theorem crcShiftR_lt (poly : Nat) (hp : poly < 2 ^ 32) : ∀ n r, r < 2 ^ 32 → crcShiftR poly n r < 2 ^ 32
  | 0, r, h => h
  | n + 1, r, h => by
    refine crcShiftR_lt poly hp n _ ?_
    split
    · exact Nat.xor_lt_two_pow (by omega) hp
    · omega
theorem crcReflected_lt (poly : Nat) (hp : poly < 2 ^ 32) (bs : List Byte) :
    ∀ r, r < 2 ^ 32 → crcReflected poly r bs < 2 ^ 32 := by
  induction bs with
  | nil => intro r h; exact h
  | cons b bs ih =>
    intro r h
    refine ih _ (crcShiftR_lt poly hp 8 _ ?_)
    exact Nat.xor_lt_two_pow h (by omega)
theorem crc32_lt (bs : List Byte) : crc32 bs < 2 ^ 32 :=
  Nat.xor_lt_two_pow (crcReflected_lt _ (by decide) bs _ (by decide)) (by decide)
end Sys2Proof.Machine
end

