-- ==== Sys2Proof/Laws/State.lean ====
section
/-!
SUPPORT. What each primitive update of the state leaves unchanged, field by field (true by computation), so that no proof
unfolds a record update; and the frame of each shared operation as one equation.
-/
namespace Sys2Proof.Machine

variable (s : State)

/-! `setBay` changes `bays` alone. -/

@[simp] theorem State.setBay_pending (b : Nat) (g : Bay → Bay) : (s.setBay b g).pending = s.pending := rfl
@[simp] theorem State.setBay_free (b : Nat) (g : Bay → Bay) : (s.setBay b g).free = s.free := rfl
@[simp] theorem State.setBay_faults (b : Nat) (g : Bay → Bay) : (s.setBay b g).faults = s.faults := rfl
@[simp] theorem State.setBay_outs (b : Nat) (g : Bay → Bay) : (s.setBay b g).outs = s.outs := rfl
@[simp] theorem State.setBay_clock (b : Nat) (g : Bay → Bay) : (s.setBay b g).clock = s.clock := rfl
@[simp] theorem State.setBay_factory (b : Nat) (g : Bay → Bay) : (s.setBay b g).factory = s.factory := rfl
@[simp] theorem State.setBay_flash (b : Nat) (g : Bay → Bay) : (s.setBay b g).flash = s.flash := rfl
@[simp] theorem State.setBay_boot (b : Nat) (g : Bay → Bay) : (s.setBay b g).boot = s.boot := rfl
@[simp] theorem State.setBay_bootFeat (b : Nat) (g : Bay → Bay) : (s.setBay b g).bootFeat = s.bootFeat := rfl
@[simp] theorem State.setBay_effFeat (b : Nat) (g : Bay → Bay) : (s.setBay b g).effFeat = s.effFeat := rfl
@[simp] theorem State.setBay_dev (b : Nat) (g : Bay → Bay) : (s.setBay b g).dev = s.dev := rfl
@[simp] theorem State.setBay_ctl (b : Nat) (g : Bay → Bay) : (s.setBay b g).ctl = s.ctl := rfl
@[simp] theorem State.setBay_urg (b : Nat) (g : Bay → Bay) : (s.setBay b g).urg = s.urg := rfl
@[simp] theorem State.setBay_urgRing (b : Nat) (g : Bay → Bay) : (s.setBay b g).urgRing = s.urgRing := rfl
@[simp] theorem State.setBay_msix (b : Nat) (g : Bay → Bay) : (s.setBay b g).msix = s.msix := rfl
@[simp] theorem State.setBay_cmds (b : Nat) (g : Bay → Bay) : (s.setBay b g).cmds = s.cmds := rfl
@[simp] theorem State.setBay_nextAdm (b : Nat) (g : Bay → Bay) : (s.setBay b g).nextAdm = s.nextAdm := rfl
@[simp] theorem State.setBay_nextFin (b : Nat) (g : Bay → Bay) : (s.setBay b g).nextFin = s.nextFin := rfl
@[simp] theorem State.setBay_joiner (b : Nat) (g : Bay → Bay) : (s.setBay b g).joiner = s.joiner := rfl
@[simp] theorem State.setBay_version (b : Nat) (g : Bay → Bay) : (s.setBay b g).version = s.version := rfl
@[simp] theorem State.setBay_peg (b : Nat) (g : Bay → Bay) : (s.setBay b g).peg = s.peg := rfl
@[simp] theorem State.setBay_zeroMarks (b : Nat) (g : Bay → Bay) : (s.setBay b g).zeroMarks = s.zeroMarks := rfl
@[simp] theorem State.setBay_clusters (b : Nat) (g : Bay → Bay) : (s.setBay b g).clusters = s.clusters := rfl
@[simp] theorem State.setBay_lmap (b : Nat) (g : Bay → Bay) : (s.setBay b g).lmap = s.lmap := rfl
@[simp] theorem State.setBay_lrisk (b : Nat) (g : Bay → Bay) : (s.setBay b g).lrisk = s.lrisk := rfl
@[simp] theorem State.setBay_lfailed (b : Nat) (g : Bay → Bay) : (s.setBay b g).lfailed = s.lfailed := rfl
@[simp] theorem State.setBay_cores (b : Nat) (g : Bay → Bay) : (s.setBay b g).cores = s.cores := rfl
@[simp] theorem State.setBay_gcrt (b : Nat) (g : Bay → Bay) : (s.setBay b g).gcrt = s.gcrt := rfl
@[simp] theorem State.setBay_dram (b : Nat) (g : Bay → Bay) : (s.setBay b g).dram = s.dram := rfl
@[simp] theorem State.setBay_sram (b : Nat) (g : Bay → Bay) : (s.setBay b g).sram = s.sram := rfl
@[simp] theorem State.setBay_local_ (b : Nat) (g : Bay → Bay) : (s.setBay b g).local_ = s.local_ := rfl
@[simp] theorem State.setBay_host (b : Nat) (g : Bay → Bay) : (s.setBay b g).host = s.host := rfl
@[simp] theorem State.setBay_hostDeny (b : Nat) (g : Bay → Bay) : (s.setBay b g).hostDeny = s.hostDeny := rfl
@[simp] theorem State.setBay_poison (b : Nat) (g : Bay → Bay) : (s.setBay b g).poison = s.poison := rfl
@[simp] theorem State.setBay_t3cap (b : Nat) (g : Bay → Bay) : (s.setBay b g).t3cap = s.t3cap := rfl
@[simp] theorem State.setBay_t3down (b : Nat) (g : Bay → Bay) : (s.setBay b g).t3down = s.t3down := rfl
@[simp] theorem State.setBay_dramRepairs (b : Nat) (g : Bay → Bay) : (s.setBay b g).dramRepairs = s.dramRepairs := rfl
@[simp] theorem State.setBay_nv (b : Nat) (g : Bay → Bay) : (s.setBay b g).nv = s.nv := rfl
@[simp] theorem State.setBay_ports (b : Nat) (g : Bay → Bay) : (s.setBay b g).ports = s.ports := rfl
@[simp] theorem State.setBay_far (b : Nat) (g : Bay → Bay) : (s.setBay b g).far = s.far := rfl
@[simp] theorem State.setBay_farSent (b : Nat) (g : Bay → Bay) : (s.setBay b g).farSent = s.farSent := rfl
@[simp] theorem State.setBay_devTele (b : Nat) (g : Bay → Bay) : (s.setBay b g).devTele = s.devTele := rfl
@[simp] theorem State.setBay_devSince (b : Nat) (g : Bay → Bay) : (s.setBay b g).devSince = s.devSince := rfl
@[simp] theorem State.setBay_dies (b : Nat) (g : Bay → Bay) : (s.setBay b g).dies = s.dies := rfl
@[simp] theorem State.setBay_sensors (b : Nat) (g : Bay → Bay) : (s.setBay b g).sensors = s.sensors := rfl
@[simp] theorem State.setBay_dramHolds (b : Nat) (g : Bay → Bay) : (s.setBay b g).dramHolds = s.dramHolds := rfl
@[simp] theorem State.setBay_codecFenced (b : Nat) (g : Bay → Bay) : (s.setBay b g).codecFenced = s.codecFenced := rfl
@[simp] theorem State.setBay_minor (b : Nat) (g : Bay → Bay) : (s.setBay b g).minor = s.minor := rfl
@[simp] theorem State.setBay_power (b : Nat) (g : Bay → Bay) : (s.setBay b g).power = s.power := rfl
@[simp] theorem State.setBay_vin (b : Nat) (g : Bay → Bay) : (s.setBay b g).vin = s.vin := rfl
@[simp] theorem State.setBay_iin (b : Nat) (g : Bay → Bay) : (s.setBay b g).iin = s.iin := rfl
@[simp] theorem State.setBay_pout (b : Nat) (g : Bay → Bay) : (s.setBay b g).pout = s.pout := rfl
@[simp] theorem State.setBay_mgmt (b : Nat) (g : Bay → Bay) : (s.setBay b g).mgmt = s.mgmt := rfl
@[simp] theorem State.setBay_season (b : Nat) (g : Bay → Bay) : (s.setBay b g).season = s.season := rfl
@[simp] theorem State.setBay_errLog (b : Nat) (g : Bay → Bay) : (s.setBay b g).errLog = s.errLog := rfl
@[simp] theorem State.setBay_bootLog (b : Nat) (g : Bay → Bay) : (s.setBay b g).bootLog = s.bootLog := rfl
@[simp] theorem State.setBay_trng (b : Nat) (g : Bay → Bay) : (s.setBay b g).trng = s.trng := rfl

/-! `emit` changes `outs` alone. -/

@[simp] theorem State.emit_pending (o : Output) : (s.emit o).pending = s.pending := rfl
@[simp] theorem State.emit_free (o : Output) : (s.emit o).free = s.free := rfl
@[simp] theorem State.emit_faults (o : Output) : (s.emit o).faults = s.faults := rfl
@[simp] theorem State.emit_clock (o : Output) : (s.emit o).clock = s.clock := rfl
@[simp] theorem State.emit_factory (o : Output) : (s.emit o).factory = s.factory := rfl
@[simp] theorem State.emit_flash (o : Output) : (s.emit o).flash = s.flash := rfl
@[simp] theorem State.emit_boot (o : Output) : (s.emit o).boot = s.boot := rfl
@[simp] theorem State.emit_bootFeat (o : Output) : (s.emit o).bootFeat = s.bootFeat := rfl
@[simp] theorem State.emit_effFeat (o : Output) : (s.emit o).effFeat = s.effFeat := rfl
@[simp] theorem State.emit_dev (o : Output) : (s.emit o).dev = s.dev := rfl
@[simp] theorem State.emit_ctl (o : Output) : (s.emit o).ctl = s.ctl := rfl
@[simp] theorem State.emit_urg (o : Output) : (s.emit o).urg = s.urg := rfl
@[simp] theorem State.emit_urgRing (o : Output) : (s.emit o).urgRing = s.urgRing := rfl
@[simp] theorem State.emit_msix (o : Output) : (s.emit o).msix = s.msix := rfl
@[simp] theorem State.emit_cmds (o : Output) : (s.emit o).cmds = s.cmds := rfl
@[simp] theorem State.emit_nextAdm (o : Output) : (s.emit o).nextAdm = s.nextAdm := rfl
@[simp] theorem State.emit_nextFin (o : Output) : (s.emit o).nextFin = s.nextFin := rfl
@[simp] theorem State.emit_joiner (o : Output) : (s.emit o).joiner = s.joiner := rfl
@[simp] theorem State.emit_version (o : Output) : (s.emit o).version = s.version := rfl
@[simp] theorem State.emit_peg (o : Output) : (s.emit o).peg = s.peg := rfl
@[simp] theorem State.emit_zeroMarks (o : Output) : (s.emit o).zeroMarks = s.zeroMarks := rfl
@[simp] theorem State.emit_clusters (o : Output) : (s.emit o).clusters = s.clusters := rfl
@[simp] theorem State.emit_lmap (o : Output) : (s.emit o).lmap = s.lmap := rfl
@[simp] theorem State.emit_lrisk (o : Output) : (s.emit o).lrisk = s.lrisk := rfl
@[simp] theorem State.emit_lfailed (o : Output) : (s.emit o).lfailed = s.lfailed := rfl
@[simp] theorem State.emit_cores (o : Output) : (s.emit o).cores = s.cores := rfl
@[simp] theorem State.emit_gcrt (o : Output) : (s.emit o).gcrt = s.gcrt := rfl
@[simp] theorem State.emit_dram (o : Output) : (s.emit o).dram = s.dram := rfl
@[simp] theorem State.emit_sram (o : Output) : (s.emit o).sram = s.sram := rfl
@[simp] theorem State.emit_local_ (o : Output) : (s.emit o).local_ = s.local_ := rfl
@[simp] theorem State.emit_host (o : Output) : (s.emit o).host = s.host := rfl
@[simp] theorem State.emit_hostDeny (o : Output) : (s.emit o).hostDeny = s.hostDeny := rfl
@[simp] theorem State.emit_poison (o : Output) : (s.emit o).poison = s.poison := rfl
@[simp] theorem State.emit_t3cap (o : Output) : (s.emit o).t3cap = s.t3cap := rfl
@[simp] theorem State.emit_t3down (o : Output) : (s.emit o).t3down = s.t3down := rfl
@[simp] theorem State.emit_dramRepairs (o : Output) : (s.emit o).dramRepairs = s.dramRepairs := rfl
@[simp] theorem State.emit_nv (o : Output) : (s.emit o).nv = s.nv := rfl
@[simp] theorem State.emit_ports (o : Output) : (s.emit o).ports = s.ports := rfl
@[simp] theorem State.emit_far (o : Output) : (s.emit o).far = s.far := rfl
@[simp] theorem State.emit_farSent (o : Output) : (s.emit o).farSent = s.farSent := rfl
@[simp] theorem State.emit_devTele (o : Output) : (s.emit o).devTele = s.devTele := rfl
@[simp] theorem State.emit_devSince (o : Output) : (s.emit o).devSince = s.devSince := rfl
@[simp] theorem State.emit_dies (o : Output) : (s.emit o).dies = s.dies := rfl
@[simp] theorem State.emit_sensors (o : Output) : (s.emit o).sensors = s.sensors := rfl
@[simp] theorem State.emit_dramHolds (o : Output) : (s.emit o).dramHolds = s.dramHolds := rfl
@[simp] theorem State.emit_codecFenced (o : Output) : (s.emit o).codecFenced = s.codecFenced := rfl
@[simp] theorem State.emit_minor (o : Output) : (s.emit o).minor = s.minor := rfl
@[simp] theorem State.emit_power (o : Output) : (s.emit o).power = s.power := rfl
@[simp] theorem State.emit_vin (o : Output) : (s.emit o).vin = s.vin := rfl
@[simp] theorem State.emit_iin (o : Output) : (s.emit o).iin = s.iin := rfl
@[simp] theorem State.emit_pout (o : Output) : (s.emit o).pout = s.pout := rfl
@[simp] theorem State.emit_mgmt (o : Output) : (s.emit o).mgmt = s.mgmt := rfl
@[simp] theorem State.emit_season (o : Output) : (s.emit o).season = s.season := rfl
@[simp] theorem State.emit_errLog (o : Output) : (s.emit o).errLog = s.errLog := rfl
@[simp] theorem State.emit_bootLog (o : Output) : (s.emit o).bootLog = s.bootLog := rfl
@[simp] theorem State.emit_trng (o : Output) : (s.emit o).trng = s.trng := rfl
@[simp] theorem State.emit_bays (o : Output) : (s.emit o).bays = s.bays := rfl

/-! `useFree` changes `free` alone. -/

@[simp] theorem State.useFree_pending (n : Nat) : (s.useFree n).pending = s.pending := rfl
@[simp] theorem State.useFree_faults (n : Nat) : (s.useFree n).faults = s.faults := rfl
@[simp] theorem State.useFree_outs (n : Nat) : (s.useFree n).outs = s.outs := rfl
@[simp] theorem State.useFree_clock (n : Nat) : (s.useFree n).clock = s.clock := rfl
@[simp] theorem State.useFree_factory (n : Nat) : (s.useFree n).factory = s.factory := rfl
@[simp] theorem State.useFree_flash (n : Nat) : (s.useFree n).flash = s.flash := rfl
@[simp] theorem State.useFree_boot (n : Nat) : (s.useFree n).boot = s.boot := rfl
@[simp] theorem State.useFree_bootFeat (n : Nat) : (s.useFree n).bootFeat = s.bootFeat := rfl
@[simp] theorem State.useFree_effFeat (n : Nat) : (s.useFree n).effFeat = s.effFeat := rfl
@[simp] theorem State.useFree_dev (n : Nat) : (s.useFree n).dev = s.dev := rfl
@[simp] theorem State.useFree_ctl (n : Nat) : (s.useFree n).ctl = s.ctl := rfl
@[simp] theorem State.useFree_urg (n : Nat) : (s.useFree n).urg = s.urg := rfl
@[simp] theorem State.useFree_urgRing (n : Nat) : (s.useFree n).urgRing = s.urgRing := rfl
@[simp] theorem State.useFree_msix (n : Nat) : (s.useFree n).msix = s.msix := rfl
@[simp] theorem State.useFree_cmds (n : Nat) : (s.useFree n).cmds = s.cmds := rfl
@[simp] theorem State.useFree_nextAdm (n : Nat) : (s.useFree n).nextAdm = s.nextAdm := rfl
@[simp] theorem State.useFree_nextFin (n : Nat) : (s.useFree n).nextFin = s.nextFin := rfl
@[simp] theorem State.useFree_joiner (n : Nat) : (s.useFree n).joiner = s.joiner := rfl
@[simp] theorem State.useFree_version (n : Nat) : (s.useFree n).version = s.version := rfl
@[simp] theorem State.useFree_peg (n : Nat) : (s.useFree n).peg = s.peg := rfl
@[simp] theorem State.useFree_zeroMarks (n : Nat) : (s.useFree n).zeroMarks = s.zeroMarks := rfl
@[simp] theorem State.useFree_clusters (n : Nat) : (s.useFree n).clusters = s.clusters := rfl
@[simp] theorem State.useFree_lmap (n : Nat) : (s.useFree n).lmap = s.lmap := rfl
@[simp] theorem State.useFree_lrisk (n : Nat) : (s.useFree n).lrisk = s.lrisk := rfl
@[simp] theorem State.useFree_lfailed (n : Nat) : (s.useFree n).lfailed = s.lfailed := rfl
@[simp] theorem State.useFree_cores (n : Nat) : (s.useFree n).cores = s.cores := rfl
@[simp] theorem State.useFree_gcrt (n : Nat) : (s.useFree n).gcrt = s.gcrt := rfl
@[simp] theorem State.useFree_dram (n : Nat) : (s.useFree n).dram = s.dram := rfl
@[simp] theorem State.useFree_sram (n : Nat) : (s.useFree n).sram = s.sram := rfl
@[simp] theorem State.useFree_local_ (n : Nat) : (s.useFree n).local_ = s.local_ := rfl
@[simp] theorem State.useFree_host (n : Nat) : (s.useFree n).host = s.host := rfl
@[simp] theorem State.useFree_hostDeny (n : Nat) : (s.useFree n).hostDeny = s.hostDeny := rfl
@[simp] theorem State.useFree_poison (n : Nat) : (s.useFree n).poison = s.poison := rfl
@[simp] theorem State.useFree_t3cap (n : Nat) : (s.useFree n).t3cap = s.t3cap := rfl
@[simp] theorem State.useFree_t3down (n : Nat) : (s.useFree n).t3down = s.t3down := rfl
@[simp] theorem State.useFree_dramRepairs (n : Nat) : (s.useFree n).dramRepairs = s.dramRepairs := rfl
@[simp] theorem State.useFree_nv (n : Nat) : (s.useFree n).nv = s.nv := rfl
@[simp] theorem State.useFree_ports (n : Nat) : (s.useFree n).ports = s.ports := rfl
@[simp] theorem State.useFree_far (n : Nat) : (s.useFree n).far = s.far := rfl
@[simp] theorem State.useFree_farSent (n : Nat) : (s.useFree n).farSent = s.farSent := rfl
@[simp] theorem State.useFree_devTele (n : Nat) : (s.useFree n).devTele = s.devTele := rfl
@[simp] theorem State.useFree_devSince (n : Nat) : (s.useFree n).devSince = s.devSince := rfl
@[simp] theorem State.useFree_dies (n : Nat) : (s.useFree n).dies = s.dies := rfl
@[simp] theorem State.useFree_sensors (n : Nat) : (s.useFree n).sensors = s.sensors := rfl
@[simp] theorem State.useFree_dramHolds (n : Nat) : (s.useFree n).dramHolds = s.dramHolds := rfl
@[simp] theorem State.useFree_codecFenced (n : Nat) : (s.useFree n).codecFenced = s.codecFenced := rfl
@[simp] theorem State.useFree_minor (n : Nat) : (s.useFree n).minor = s.minor := rfl
@[simp] theorem State.useFree_power (n : Nat) : (s.useFree n).power = s.power := rfl
@[simp] theorem State.useFree_vin (n : Nat) : (s.useFree n).vin = s.vin := rfl
@[simp] theorem State.useFree_iin (n : Nat) : (s.useFree n).iin = s.iin := rfl
@[simp] theorem State.useFree_pout (n : Nat) : (s.useFree n).pout = s.pout := rfl
@[simp] theorem State.useFree_mgmt (n : Nat) : (s.useFree n).mgmt = s.mgmt := rfl
@[simp] theorem State.useFree_season (n : Nat) : (s.useFree n).season = s.season := rfl
@[simp] theorem State.useFree_errLog (n : Nat) : (s.useFree n).errLog = s.errLog := rfl
@[simp] theorem State.useFree_bootLog (n : Nat) : (s.useFree n).bootLog = s.bootLog := rfl
@[simp] theorem State.useFree_trng (n : Nat) : (s.useFree n).trng = s.trng := rfl
@[simp] theorem State.useFree_bays (n : Nat) : (s.useFree n).bays = s.bays := rfl

/-! `setSlot` changes `cmds` alone. -/

@[simp] theorem State.setSlot_pending (a : Nat) (g : Slot → Slot) : (s.setSlot a g).pending = s.pending := rfl
@[simp] theorem State.setSlot_free (a : Nat) (g : Slot → Slot) : (s.setSlot a g).free = s.free := rfl
@[simp] theorem State.setSlot_faults (a : Nat) (g : Slot → Slot) : (s.setSlot a g).faults = s.faults := rfl
@[simp] theorem State.setSlot_outs (a : Nat) (g : Slot → Slot) : (s.setSlot a g).outs = s.outs := rfl
@[simp] theorem State.setSlot_clock (a : Nat) (g : Slot → Slot) : (s.setSlot a g).clock = s.clock := rfl
@[simp] theorem State.setSlot_factory (a : Nat) (g : Slot → Slot) : (s.setSlot a g).factory = s.factory := rfl
@[simp] theorem State.setSlot_flash (a : Nat) (g : Slot → Slot) : (s.setSlot a g).flash = s.flash := rfl
@[simp] theorem State.setSlot_boot (a : Nat) (g : Slot → Slot) : (s.setSlot a g).boot = s.boot := rfl
@[simp] theorem State.setSlot_bootFeat (a : Nat) (g : Slot → Slot) : (s.setSlot a g).bootFeat = s.bootFeat := rfl
@[simp] theorem State.setSlot_effFeat (a : Nat) (g : Slot → Slot) : (s.setSlot a g).effFeat = s.effFeat := rfl
@[simp] theorem State.setSlot_dev (a : Nat) (g : Slot → Slot) : (s.setSlot a g).dev = s.dev := rfl
@[simp] theorem State.setSlot_ctl (a : Nat) (g : Slot → Slot) : (s.setSlot a g).ctl = s.ctl := rfl
@[simp] theorem State.setSlot_urg (a : Nat) (g : Slot → Slot) : (s.setSlot a g).urg = s.urg := rfl
@[simp] theorem State.setSlot_urgRing (a : Nat) (g : Slot → Slot) : (s.setSlot a g).urgRing = s.urgRing := rfl
@[simp] theorem State.setSlot_msix (a : Nat) (g : Slot → Slot) : (s.setSlot a g).msix = s.msix := rfl
@[simp] theorem State.setSlot_nextAdm (a : Nat) (g : Slot → Slot) : (s.setSlot a g).nextAdm = s.nextAdm := rfl
@[simp] theorem State.setSlot_nextFin (a : Nat) (g : Slot → Slot) : (s.setSlot a g).nextFin = s.nextFin := rfl
@[simp] theorem State.setSlot_joiner (a : Nat) (g : Slot → Slot) : (s.setSlot a g).joiner = s.joiner := rfl
@[simp] theorem State.setSlot_version (a : Nat) (g : Slot → Slot) : (s.setSlot a g).version = s.version := rfl
@[simp] theorem State.setSlot_peg (a : Nat) (g : Slot → Slot) : (s.setSlot a g).peg = s.peg := rfl
@[simp] theorem State.setSlot_zeroMarks (a : Nat) (g : Slot → Slot) : (s.setSlot a g).zeroMarks = s.zeroMarks := rfl
@[simp] theorem State.setSlot_clusters (a : Nat) (g : Slot → Slot) : (s.setSlot a g).clusters = s.clusters := rfl
@[simp] theorem State.setSlot_lmap (a : Nat) (g : Slot → Slot) : (s.setSlot a g).lmap = s.lmap := rfl
@[simp] theorem State.setSlot_lrisk (a : Nat) (g : Slot → Slot) : (s.setSlot a g).lrisk = s.lrisk := rfl
@[simp] theorem State.setSlot_lfailed (a : Nat) (g : Slot → Slot) : (s.setSlot a g).lfailed = s.lfailed := rfl
@[simp] theorem State.setSlot_cores (a : Nat) (g : Slot → Slot) : (s.setSlot a g).cores = s.cores := rfl
@[simp] theorem State.setSlot_gcrt (a : Nat) (g : Slot → Slot) : (s.setSlot a g).gcrt = s.gcrt := rfl
@[simp] theorem State.setSlot_dram (a : Nat) (g : Slot → Slot) : (s.setSlot a g).dram = s.dram := rfl
@[simp] theorem State.setSlot_sram (a : Nat) (g : Slot → Slot) : (s.setSlot a g).sram = s.sram := rfl
@[simp] theorem State.setSlot_local_ (a : Nat) (g : Slot → Slot) : (s.setSlot a g).local_ = s.local_ := rfl
@[simp] theorem State.setSlot_host (a : Nat) (g : Slot → Slot) : (s.setSlot a g).host = s.host := rfl
@[simp] theorem State.setSlot_hostDeny (a : Nat) (g : Slot → Slot) : (s.setSlot a g).hostDeny = s.hostDeny := rfl
@[simp] theorem State.setSlot_poison (a : Nat) (g : Slot → Slot) : (s.setSlot a g).poison = s.poison := rfl
@[simp] theorem State.setSlot_t3cap (a : Nat) (g : Slot → Slot) : (s.setSlot a g).t3cap = s.t3cap := rfl
@[simp] theorem State.setSlot_t3down (a : Nat) (g : Slot → Slot) : (s.setSlot a g).t3down = s.t3down := rfl
@[simp] theorem State.setSlot_dramRepairs (a : Nat) (g : Slot → Slot) : (s.setSlot a g).dramRepairs = s.dramRepairs := rfl
@[simp] theorem State.setSlot_nv (a : Nat) (g : Slot → Slot) : (s.setSlot a g).nv = s.nv := rfl
@[simp] theorem State.setSlot_ports (a : Nat) (g : Slot → Slot) : (s.setSlot a g).ports = s.ports := rfl
@[simp] theorem State.setSlot_far (a : Nat) (g : Slot → Slot) : (s.setSlot a g).far = s.far := rfl
@[simp] theorem State.setSlot_farSent (a : Nat) (g : Slot → Slot) : (s.setSlot a g).farSent = s.farSent := rfl
@[simp] theorem State.setSlot_devTele (a : Nat) (g : Slot → Slot) : (s.setSlot a g).devTele = s.devTele := rfl
@[simp] theorem State.setSlot_devSince (a : Nat) (g : Slot → Slot) : (s.setSlot a g).devSince = s.devSince := rfl
@[simp] theorem State.setSlot_dies (a : Nat) (g : Slot → Slot) : (s.setSlot a g).dies = s.dies := rfl
@[simp] theorem State.setSlot_sensors (a : Nat) (g : Slot → Slot) : (s.setSlot a g).sensors = s.sensors := rfl
@[simp] theorem State.setSlot_dramHolds (a : Nat) (g : Slot → Slot) : (s.setSlot a g).dramHolds = s.dramHolds := rfl
@[simp] theorem State.setSlot_codecFenced (a : Nat) (g : Slot → Slot) : (s.setSlot a g).codecFenced = s.codecFenced := rfl
@[simp] theorem State.setSlot_minor (a : Nat) (g : Slot → Slot) : (s.setSlot a g).minor = s.minor := rfl
@[simp] theorem State.setSlot_power (a : Nat) (g : Slot → Slot) : (s.setSlot a g).power = s.power := rfl
@[simp] theorem State.setSlot_vin (a : Nat) (g : Slot → Slot) : (s.setSlot a g).vin = s.vin := rfl
@[simp] theorem State.setSlot_iin (a : Nat) (g : Slot → Slot) : (s.setSlot a g).iin = s.iin := rfl
@[simp] theorem State.setSlot_pout (a : Nat) (g : Slot → Slot) : (s.setSlot a g).pout = s.pout := rfl
@[simp] theorem State.setSlot_mgmt (a : Nat) (g : Slot → Slot) : (s.setSlot a g).mgmt = s.mgmt := rfl
@[simp] theorem State.setSlot_season (a : Nat) (g : Slot → Slot) : (s.setSlot a g).season = s.season := rfl
@[simp] theorem State.setSlot_errLog (a : Nat) (g : Slot → Slot) : (s.setSlot a g).errLog = s.errLog := rfl
@[simp] theorem State.setSlot_bootLog (a : Nat) (g : Slot → Slot) : (s.setSlot a g).bootLog = s.bootLog := rfl
@[simp] theorem State.setSlot_trng (a : Nat) (g : Slot → Slot) : (s.setSlot a g).trng = s.trng := rfl
@[simp] theorem State.setSlot_bays (a : Nat) (g : Slot → Slot) : (s.setSlot a g).bays = s.bays := rfl

/-! `setCluster` changes `clusters` alone. -/

@[simp] theorem State.setCluster_pending (k : Nat) (g : Cluster → Cluster) : (s.setCluster k g).pending = s.pending := rfl
@[simp] theorem State.setCluster_free (k : Nat) (g : Cluster → Cluster) : (s.setCluster k g).free = s.free := rfl
@[simp] theorem State.setCluster_faults (k : Nat) (g : Cluster → Cluster) : (s.setCluster k g).faults = s.faults := rfl
@[simp] theorem State.setCluster_outs (k : Nat) (g : Cluster → Cluster) : (s.setCluster k g).outs = s.outs := rfl
@[simp] theorem State.setCluster_clock (k : Nat) (g : Cluster → Cluster) : (s.setCluster k g).clock = s.clock := rfl
@[simp] theorem State.setCluster_factory (k : Nat) (g : Cluster → Cluster) : (s.setCluster k g).factory = s.factory := rfl
@[simp] theorem State.setCluster_flash (k : Nat) (g : Cluster → Cluster) : (s.setCluster k g).flash = s.flash := rfl
@[simp] theorem State.setCluster_boot (k : Nat) (g : Cluster → Cluster) : (s.setCluster k g).boot = s.boot := rfl
@[simp] theorem State.setCluster_bootFeat (k : Nat) (g : Cluster → Cluster) : (s.setCluster k g).bootFeat = s.bootFeat := rfl
@[simp] theorem State.setCluster_effFeat (k : Nat) (g : Cluster → Cluster) : (s.setCluster k g).effFeat = s.effFeat := rfl
@[simp] theorem State.setCluster_dev (k : Nat) (g : Cluster → Cluster) : (s.setCluster k g).dev = s.dev := rfl
@[simp] theorem State.setCluster_ctl (k : Nat) (g : Cluster → Cluster) : (s.setCluster k g).ctl = s.ctl := rfl
@[simp] theorem State.setCluster_urg (k : Nat) (g : Cluster → Cluster) : (s.setCluster k g).urg = s.urg := rfl
@[simp] theorem State.setCluster_urgRing (k : Nat) (g : Cluster → Cluster) : (s.setCluster k g).urgRing = s.urgRing := rfl
@[simp] theorem State.setCluster_msix (k : Nat) (g : Cluster → Cluster) : (s.setCluster k g).msix = s.msix := rfl
@[simp] theorem State.setCluster_cmds (k : Nat) (g : Cluster → Cluster) : (s.setCluster k g).cmds = s.cmds := rfl
@[simp] theorem State.setCluster_nextAdm (k : Nat) (g : Cluster → Cluster) : (s.setCluster k g).nextAdm = s.nextAdm := rfl
@[simp] theorem State.setCluster_nextFin (k : Nat) (g : Cluster → Cluster) : (s.setCluster k g).nextFin = s.nextFin := rfl
@[simp] theorem State.setCluster_joiner (k : Nat) (g : Cluster → Cluster) : (s.setCluster k g).joiner = s.joiner := rfl
@[simp] theorem State.setCluster_version (k : Nat) (g : Cluster → Cluster) : (s.setCluster k g).version = s.version := rfl
@[simp] theorem State.setCluster_peg (k : Nat) (g : Cluster → Cluster) : (s.setCluster k g).peg = s.peg := rfl
@[simp] theorem State.setCluster_zeroMarks (k : Nat) (g : Cluster → Cluster) : (s.setCluster k g).zeroMarks = s.zeroMarks := rfl
@[simp] theorem State.setCluster_lmap (k : Nat) (g : Cluster → Cluster) : (s.setCluster k g).lmap = s.lmap := rfl
@[simp] theorem State.setCluster_lrisk (k : Nat) (g : Cluster → Cluster) : (s.setCluster k g).lrisk = s.lrisk := rfl
@[simp] theorem State.setCluster_lfailed (k : Nat) (g : Cluster → Cluster) : (s.setCluster k g).lfailed = s.lfailed := rfl
@[simp] theorem State.setCluster_cores (k : Nat) (g : Cluster → Cluster) : (s.setCluster k g).cores = s.cores := rfl
@[simp] theorem State.setCluster_gcrt (k : Nat) (g : Cluster → Cluster) : (s.setCluster k g).gcrt = s.gcrt := rfl
@[simp] theorem State.setCluster_dram (k : Nat) (g : Cluster → Cluster) : (s.setCluster k g).dram = s.dram := rfl
@[simp] theorem State.setCluster_sram (k : Nat) (g : Cluster → Cluster) : (s.setCluster k g).sram = s.sram := rfl
@[simp] theorem State.setCluster_local_ (k : Nat) (g : Cluster → Cluster) : (s.setCluster k g).local_ = s.local_ := rfl
@[simp] theorem State.setCluster_host (k : Nat) (g : Cluster → Cluster) : (s.setCluster k g).host = s.host := rfl
@[simp] theorem State.setCluster_hostDeny (k : Nat) (g : Cluster → Cluster) : (s.setCluster k g).hostDeny = s.hostDeny := rfl
@[simp] theorem State.setCluster_poison (k : Nat) (g : Cluster → Cluster) : (s.setCluster k g).poison = s.poison := rfl
@[simp] theorem State.setCluster_t3cap (k : Nat) (g : Cluster → Cluster) : (s.setCluster k g).t3cap = s.t3cap := rfl
@[simp] theorem State.setCluster_t3down (k : Nat) (g : Cluster → Cluster) : (s.setCluster k g).t3down = s.t3down := rfl
@[simp] theorem State.setCluster_dramRepairs (k : Nat) (g : Cluster → Cluster) : (s.setCluster k g).dramRepairs = s.dramRepairs := rfl
@[simp] theorem State.setCluster_nv (k : Nat) (g : Cluster → Cluster) : (s.setCluster k g).nv = s.nv := rfl
@[simp] theorem State.setCluster_ports (k : Nat) (g : Cluster → Cluster) : (s.setCluster k g).ports = s.ports := rfl
@[simp] theorem State.setCluster_far (k : Nat) (g : Cluster → Cluster) : (s.setCluster k g).far = s.far := rfl
@[simp] theorem State.setCluster_farSent (k : Nat) (g : Cluster → Cluster) : (s.setCluster k g).farSent = s.farSent := rfl
@[simp] theorem State.setCluster_devTele (k : Nat) (g : Cluster → Cluster) : (s.setCluster k g).devTele = s.devTele := rfl
@[simp] theorem State.setCluster_devSince (k : Nat) (g : Cluster → Cluster) : (s.setCluster k g).devSince = s.devSince := rfl
@[simp] theorem State.setCluster_dies (k : Nat) (g : Cluster → Cluster) : (s.setCluster k g).dies = s.dies := rfl
@[simp] theorem State.setCluster_sensors (k : Nat) (g : Cluster → Cluster) : (s.setCluster k g).sensors = s.sensors := rfl
@[simp] theorem State.setCluster_dramHolds (k : Nat) (g : Cluster → Cluster) : (s.setCluster k g).dramHolds = s.dramHolds := rfl
@[simp] theorem State.setCluster_codecFenced (k : Nat) (g : Cluster → Cluster) : (s.setCluster k g).codecFenced = s.codecFenced := rfl
@[simp] theorem State.setCluster_minor (k : Nat) (g : Cluster → Cluster) : (s.setCluster k g).minor = s.minor := rfl
@[simp] theorem State.setCluster_power (k : Nat) (g : Cluster → Cluster) : (s.setCluster k g).power = s.power := rfl
@[simp] theorem State.setCluster_vin (k : Nat) (g : Cluster → Cluster) : (s.setCluster k g).vin = s.vin := rfl
@[simp] theorem State.setCluster_iin (k : Nat) (g : Cluster → Cluster) : (s.setCluster k g).iin = s.iin := rfl
@[simp] theorem State.setCluster_pout (k : Nat) (g : Cluster → Cluster) : (s.setCluster k g).pout = s.pout := rfl
@[simp] theorem State.setCluster_mgmt (k : Nat) (g : Cluster → Cluster) : (s.setCluster k g).mgmt = s.mgmt := rfl
@[simp] theorem State.setCluster_season (k : Nat) (g : Cluster → Cluster) : (s.setCluster k g).season = s.season := rfl
@[simp] theorem State.setCluster_errLog (k : Nat) (g : Cluster → Cluster) : (s.setCluster k g).errLog = s.errLog := rfl
@[simp] theorem State.setCluster_bootLog (k : Nat) (g : Cluster → Cluster) : (s.setCluster k g).bootLog = s.bootLog := rfl
@[simp] theorem State.setCluster_trng (k : Nat) (g : Cluster → Cluster) : (s.setCluster k g).trng = s.trng := rfl
@[simp] theorem State.setCluster_bays (k : Nat) (g : Cluster → Cluster) : (s.setCluster k g).bays = s.bays := rfl

end Sys2Proof.Machine
end

