-- ==== Sys2Proof/Laws/Ops.lean ====
section
/-!
SUPPORT. One lemma per shared operation of Machine/Ops.lean that says everything it can change: each is an equation
`op s = { s with … }` whose right side names the fields that may differ.
-/
namespace Sys2Proof.Machine

/-! ### Bays -/

/-- Changing one bay changes that bay, when there is one of that number. -/
theorem State.bay_setBay_self (s : State) (b : Nat) (g : Bay → Bay) (hb : b < s.bays.length) :
    (s.setBay b g).bay b = g (s.bay b) := by
  simp [State.bay, State.setBay, nth, updNth, List.getD, hb]

/-- Changing one bay leaves the others. -/
theorem State.bay_setBay_other (s : State) (b b' : Nat) (g : Bay → Bay) (h : b' ≠ b) :
    (s.setBay b g).bay b' = s.bay b' := by
  simp [State.bay, State.setBay, nth, updNth, List.getD, Ne.symm h]

/-- The number of bays stays. -/
@[simp] theorem State.setBay_length (s : State) (b : Nat) (g : Bay → Bay) :
    (s.setBay b g).bays.length = s.bays.length := by
  simp [State.setBay, updNth]

@[simp] theorem State.emit_bay (s : State) (o : Output) (b : Nat) : (s.emit o).bay b = s.bay b := rfl
@[simp] theorem State.useFree_bay (s : State) (n b : Nat) : (s.useFree n).bay b = s.bay b := rfl
@[simp] theorem State.setSlot_bay (s : State) (a : Nat) (g : Slot → Slot) (b : Nat) :
    (s.setSlot a g).bay b = s.bay b := rfl

/-! ### Interrupts and events -/

theorem State.devCause_frame (s : State) (i : Nat) :
    s.devCause i = { s with dev := (s.devCause i).dev, outs := (s.devCause i).outs } := by
  unfold State.devCause; dsimp only; split <;> (try split) <;> rfl

theorem State.bayIrq_frame (s : State) (b v : Nat) : s.bayIrq b v = { s with outs := (s.bayIrq b v).outs } := by
  unfold State.bayIrq; split <;> rfl

@[simp] theorem State.bayIrq_bays (s : State) (b v : Nat) : (s.bayIrq b v).bays = s.bays := by
  rw [State.bayIrq_frame]

theorem State.bayEvent_frame (s : State) (b i : Nat) :
    s.bayEvent b i = { s with bays := (s.bayEvent b i).bays, outs := (s.bayEvent b i).outs } := by
  unfold State.bayEvent; dsimp only
  split
  · rfl
  · split
    · rw [State.bayIrq_frame]; rfl
    · rfl

theorem State.bayDoorbellErr_frame (s : State) (b : Nat) :
    s.bayDoorbellErr b = { s with bays := (s.bayDoorbellErr b).bays, outs := (s.bayDoorbellErr b).outs } := by
  unfold State.bayDoorbellErr; rw [State.bayEvent_frame]; rfl

/-! ### Logs and telemetry -/

theorem State.log1_frame (s : State) (r : Rec) :
    s.log1 r = { s with errLog := (s.log1 r).errLog, dev := (s.log1 r).dev, outs := (s.log1 r).outs } := by
  unfold State.log1; dsimp only
  split
  · rw [State.devCause_frame]
  · rfl

theorem State.log2_frame (s : State) (b : Nat) (r : Rec) :
    s.log2 b r = { s with bays := (s.log2 b r).bays, outs := (s.log2 b r).outs } := by
  unfold State.log2; rw [State.bayEvent_frame]; rfl

theorem State.log12_frame (s : State) (b : Nat) (r : Rec) :
    s.log12 b r = { s with
      errLog := (s.log12 b r).errLog, dev := (s.log12 b r).dev, bays := (s.log12 b r).bays,
      outs := (s.log12 b r).outs } := by
  unfold State.log12; rw [State.log2_frame, State.log1_frame]

/-- A log never holds more records than its capacity allows. -/
theorem Log.add_length (l : Log) (r : Rec) (h : l.recs.length ≤ l.cap) : (l.add r).recs.length ≤ (l.add r).cap := by
  simp only [Log.add]; split <;> simp_all

theorem State.countBay_frame (s : State) (b i n : Nat) :
    s.countBay b i n = { s with bays := (s.countBay b i n).bays } := rfl

theorem State.raise_frame (s : State) (b : Nat) (f : W32) : s.raise b f = { s with bays := (s.raise b f).bays } := by
  unfold State.raise; split <;> rfl

/-! ### Commands -/

/-- The slot of an admission number, after a change of that slot that keeps its number. -/
theorem State.slot?_setSlot (s : State) (adm : Nat) (g : Slot → Slot) (hg : ∀ c : Slot, (g c).adm = c.adm) :
    (s.setSlot adm g).slot? adm = (s.slot? adm).map g := by
  unfold State.slot? State.setSlot
  dsimp only
  induction s.cmds with
  | nil => rfl
  | cons x xs ih =>
    by_cases hx : x.adm = adm
    · simp [hx, hg]
    · simpa [List.find?_cons, hx] using ih

/-- A dropped slot is gone. -/
theorem State.slot?_dropSlot (s : State) (adm : Nat) : (s.dropSlot adm).slot? adm = none := by
  unfold State.slot? State.dropSlot
  simp [List.find?_eq_none]

/-- A command found running under its own number runs its operation. -/
theorem State.onRunning_run (s : State) (i : Instr) (h : Hdr) (c : Slot) (g : Slot → State) (hi : hdrOf i = some h)
    (hs : s.slot? h.adm = some c) (hp : c.phase = .running) (hc : c.instr = i) : s.onRunning i g = g c := by
  simp [State.onRunning, hi, hs, hp, hc]

theorem State.recheck_frame (s : State) (b c : Nat) :
    s.recheck b c = { s with cmds := (s.recheck b c).cmds, bays := (s.recheck b c).bays } := rfl

theorem State.bump_frame (s : State) (b c n : Nat) (e : Bool) :
    s.bump b c n e = { s with cmds := (s.bump b c n e).cmds, bays := (s.bump b c n e).bays } := rfl

theorem State.markFinished_frame (s : State) (adm : Nat) (st : Status) (r : W64) :
    s.markFinished adm st r = { s with
      cmds := (s.markFinished adm st r).cmds, bays := (s.markFinished adm st r).bays,
      nextFin := (s.markFinished adm st r).nextFin } := by
  unfold State.markFinished
  split
  · rfl
  · split
    · rfl
    · dsimp only; split
      · rw [State.bump_frame]; rfl
      · rfl

theorem State.dropIfSilent_frame (s : State) (adm : Nat) :
    s.dropIfSilent adm = { s with cmds := (s.dropIfSilent adm).cmds } := by
  unfold State.dropIfSilent
  split
  · split <;> rfl
  · rfl

theorem State.settleQueue_frame (s : State) (b q : Nat) :
    s.settleQueue b q = { s with
      cmds := (s.settleQueue b q).cmds, bays := (s.settleQueue b q).bays, nextFin := (s.settleQueue b q).nextFin } := by
  unfold State.settleQueue
  split
  · split
    · dsimp only; rw [State.dropIfSilent_frame, State.markFinished_frame]; rfl
    · rfl
  · rfl

theorem State.settleAdmin_frame (s : State) (b : Nat) :
    s.settleAdmin b = { s with bays := (s.settleAdmin b).bays } := by
  unfold State.settleAdmin
  dsimp only
  split <;> rfl

theorem State.settleControl_frame (s : State) : s.settleControl = { s with ctl := s.settleControl.ctl } := by
  unfold State.settleControl
  split <;> rfl

theorem State.settle_frame (s : State) (o : Origin) :
    s.settle o = { s with
      cmds := (s.settle o).cmds, bays := (s.settle o).bays, nextFin := (s.settle o).nextFin, ctl := (s.settle o).ctl } := by
  cases o with
  | bay b q => simp only [State.settle]; rw [State.settleAdmin_frame, State.settleQueue_frame]
  | control => simp only [State.settle]; rw [State.settleControl_frame]
  | urgent => rfl

/-- Finishing a command changes slots, completion numbers, bays and the control pair, and nothing else. -/
theorem State.finish_frame (s : State) (adm : Nat) (st : Status) (r : W64) :
    s.finish adm st r = { s with
      cmds := (s.finish adm st r).cmds, bays := (s.finish adm st r).bays, nextFin := (s.finish adm st r).nextFin,
      ctl := (s.finish adm st r).ctl } := by
  unfold State.finish
  split
  · rfl
  · dsimp only; rw [State.settle_frame, State.dropIfSilent_frame, State.markFinished_frame]

theorem State.enter_frame (s : State) (b : Nat) (st : BayState) :
    s.enter b st = { s with bays := (s.enter b st).bays, outs := (s.enter b st).outs } := by
  unfold State.enter
  split
  · rfl
  · rw [State.bayEvent_frame]; rfl

end Sys2Proof.Machine
end

