-- ==== Sys2Proof/Laws/Finish.lean ====
section
/-!
SUPPORT. What ending a command does, said once: the entry that waits, what stays, the bays it may touch.
-/
namespace Sys2Proof.Machine

/-! ### The slot -/

@[simp] theorem State.slot?_setBay (s : State) (b adm : Nat) (g : Bay → Bay) : (s.setBay b g).slot? adm = s.slot? adm := rfl

/-- A change that keeps admission numbers, and slots that are not held, keeps the slot found when it is not held. -/
theorem find_map_keep (l : List Slot) (g : Slot → Slot) (adm : Nat) (c : Slot) (hg : ∀ x : Slot, (g x).adm = x.adm)
    (hk : ∀ x : Slot, x.phase ≠ .held → g x = x) (h : l.find? (·.adm == adm) = some c) (hp : c.phase ≠ .held) :
    (l.map g).find? (·.adm == adm) = some c := by
  induction l with
  | nil => simp at h
  | cons x xs ih =>
    rw [List.map_cons, List.find?_cons, hg]
    rw [List.find?_cons] at h
    cases hx : x.adm == adm
    · rw [hx] at h; exact ih h
    · rw [hx] at h
      injection h with h
      subst h
      exact congrArg some (hk _ hp)

/-- The tests of R162 leave a slot that is not held as it is. -/
theorem State.slot?_recheck (s : State) (b k adm : Nat) (c : Slot) (h : s.slot? adm = some c) (hp : c.phase ≠ .held) :
    (s.recheck b k).slot? adm = some c := by
  refine find_map_keep _ _ adm c ?_ ?_ h hp
  · intro x
    split
    · split
      · split <;> rfl
      · rfl
    · rfl
  · intro x hx
    have : (x.phase == Phase.held) = false := by simpa using hx
    simp [this]

/-- A finished slot after `markFinished` on a slot that was not finished. -/
theorem State.slot?_markFinished (s : State) (adm : Nat) (st : Status) (r : W64) (c : Slot) (h : s.slot? adm = some c)
    (hp : c.phase ≠ .held) (hf : c.finished? = false) :
    ∃ k, (s.markFinished adm st r).slot? adm = some { c with phase := .finished st r k } := by
  have key : ∀ u : State, u.slot? adm = some c →
      ({ u.setSlot adm (fun c => { c with phase := .finished st r u.nextFin }) with nextFin := u.nextFin + 1 } :
        State).slot? adm = some { c with phase := .finished st r u.nextFin } := by
    intro u hu
    have := State.slot?_setSlot u adm (fun c => { c with phase := .finished st r u.nextFin }) (fun _ => rfl)
    rw [hu] at this
    exact this
  unfold State.markFinished
  rw [h]
  simp only [hf, Bool.false_eq_true, if_false]
  split
  · exact ⟨_, key _ (State.slot?_recheck _ _ _ _ _ h hp)⟩
  · exact ⟨_, key _ h⟩

/-- Marking a finished command again, or one that is gone, changes nothing. -/
theorem State.markFinished_again (s : State) (adm : Nat) (st : Status) (r : W64)
    (h : ∀ c, s.slot? adm = some c → c.finished? = true) : s.markFinished adm st r = s := by
  unfold State.markFinished
  split
  · rfl
  · rename_i c hc; simp [h c hc]

/-! ### A number that no slot has stays free -/

theorem find_map_none (l : List Slot) (g : Slot → Slot) (adm : Nat) (hg : ∀ x : Slot, (g x).adm = x.adm)
    (h : l.find? (·.adm == adm) = none) : (l.map g).find? (·.adm == adm) = none := by
  rw [List.find?_eq_none] at *
  intro x hx
  obtain ⟨y, hy, rfl⟩ := List.mem_map.1 hx
  rw [hg]; exact h y hy

theorem State.slot?_none_bump (s : State) (b k n adm : Nat) (e : Bool) (h : s.slot? adm = none) :
    (s.bump b k n e).slot? adm = none := by
  refine find_map_none _ _ adm ?_ h
  intro x
  split
  · split
    · split <;> rfl
    · rfl
  · rfl

theorem State.slot?_none_markFinished (s : State) (adm d : Nat) (st : Status) (r : W64) (h : s.slot? adm = none) :
    (s.markFinished d st r).slot? adm = none := by
  have key : ∀ u : State, u.slot? adm = none →
      ({ u.setSlot d (fun c => { c with phase := .finished st r u.nextFin }) with nextFin := u.nextFin + 1 } :
        State).slot? adm = none := fun u hu => find_map_none _ _ adm (fun x => by split <;> rfl) hu
  unfold State.markFinished
  split
  · exact h
  · split
    · exact h
    · simp only
      split
      · exact key _ (State.slot?_none_bump _ _ _ _ _ _ h)
      · exact key _ h

theorem State.slot?_none_dropIfSilent (s : State) (adm d : Nat) (h : s.slot? adm = none) :
    (s.dropIfSilent d).slot? adm = none := by
  unfold State.dropIfSilent
  split
  · split
    · unfold State.slot? State.dropSlot at *
      rw [List.find?_eq_none] at *
      exact fun x hx => h x (List.mem_filter.1 hx).1
    · exact h
  · exact h

theorem State.slot?_none_settle (s : State) (adm : Nat) (o : Origin) (h : s.slot? adm = none) :
    (s.settle o).slot? adm = none := by
  cases o with
  | bay b q =>
    show ((s.settleQueue b q).settleAdmin b).slot? adm = none
    have h1 : (s.settleQueue b q).slot? adm = none := by
      unfold State.settleQueue
      split
      · split
        · exact State.slot?_none_dropIfSilent _ _ _ (State.slot?_none_markFinished _ _ _ _ _ h)
        · exact h
      · exact h
    rw [State.settleAdmin_frame]; exact h1
  | control => show s.settleControl.slot? adm = none; rw [State.settleControl_frame]; exact h
  | urgent => exact h

/-! ### A slot keeps its queue from settling -/

theorem State.slot?_settle (s : State) (adm : Nat) (c : Slot) (h : s.slot? adm = some c) :
    (s.settle c.hdr.org).slot? adm = some c := by
  cases ho : c.hdr.org with
  | bay b q =>
    show ((s.settleQueue b q).settleAdmin b).slot? adm = some c
    have hq : s.queueEmpty b q = false := by
      unfold State.queueEmpty
      have : s.cmds.any (fun c => c.hdr.org == .bay b q) = true :=
        List.any_eq_true.2 ⟨c, List.mem_of_find?_eq_some h, by simp [ho]⟩
      simp [this]
    have h1 : s.settleQueue b q = s := by
      unfold State.settleQueue
      split
      · simp [hq]
      · rfl
    rw [h1, State.settleAdmin_frame]; exact h
  | control => show s.settleControl.slot? adm = some c; rw [State.settleControl_frame]; exact h
  | urgent => exact h

/-! ### Ending a command -/

/-- A command that was not finished ends: its entry waits with the status and the result given, or its slot is free. -/
theorem State.finish_ended (s : State) (c : Slot) (st : Status) (r : Nat) (h : s.slot? c.adm = some c)
    (hp : c.phase ≠ .held) (hf : c.finished? = false) : Ended (s.finishNat c.adm st r) c st r := by
  unfold State.finishNat State.finish
  rw [h]
  simp only
  obtain ⟨k, hk⟩ := State.slot?_markFinished s c.adm (postedStatus c st) (BitVec.ofNat 64 r) c h hp hf
  have hd : ({ c with phase := .finished (postedStatus c st) (BitVec.ofNat 64 r) k } : Slot).postsNothing =
      silent c (postedStatus c st) := rfl
  change Ended (((s.markFinished c.adm (postedStatus c st) _).dropIfSilent c.adm).settle c.hdr.org) c st r
  unfold Ended
  split
  · rename_i hs
    refine State.slot?_none_settle _ _ _ ?_
    unfold State.dropIfSilent
    rw [hk]
    simp only [hd, hs, if_true]
    exact State.slot?_dropSlot _ _
  · rename_i hs
    have h2 : (s.markFinished c.adm (postedStatus c st) (BitVec.ofNat 64 r)).dropIfSilent c.adm =
        s.markFinished c.adm (postedStatus c st) (BitVec.ofNat 64 r) := by
      unfold State.dropIfSilent
      rw [hk]
      simp only [hd, hs]
      rfl
    rw [h2]
    have h3 := State.slot?_settle _ _ _ hk
    unfold outcome
    have h4 : ({ c with phase := .finished (postedStatus c st) (BitVec.ofNat 64 r) k } : Slot).hdr.org = c.hdr.org := rfl
    rw [h4] at h3
    rw [h3]

/-- Ending a command touches no memory. -/
theorem State.finish_memory (s : State) (adm : Nat) (st : Status) (r : Nat) : SameMemory s (s.finishNat adm st r) := by
  unfold State.finishNat
  rw [State.finish_frame]
  exact ⟨rfl, rfl, rfl, rfl, rfl, rfl⟩

/-! ### Bays -/

/-- A bay after one bay was changed: the changed one, or as before. -/
theorem State.bay_setBay (s : State) (b b' : Nat) (g : Bay → Bay) :
    (s.setBay b g).bay b' = g (s.bay b') ∧ b' = b ∨ (s.setBay b g).bay b' = s.bay b' := by
  by_cases h : b' = b
  · subst h
    by_cases hb : b' < s.bays.length
    · exact .inl ⟨State.bay_setBay_self s b' g hb, rfl⟩
    · refine .inr ?_
      simp [State.bay, State.setBay, nth, updNth, List.getD, hb]
  · exact .inr (State.bay_setBay_other s b b' g h)

/-- Every bay keeps all but its counters, descriptors, rings and registers. -/
abbrev CoresKept (s t : State) : Prop := ∀ b, SameBayCore (s.bay b) (t.bay b)

theorem CoresKept.refl (s : State) : CoresKept s s := fun _ => rfl

theorem CoresKept.of_eq {s t : State} (h : t.bays = s.bays) : CoresKept s t := fun b => by
  have e : t.bay b = s.bay b := by unfold State.bay; rw [h]
  rw [e]

theorem CoresKept.trans {s t u : State} (h1 : CoresKept s t) (h2 : CoresKept t u) : CoresKept s u := fun b => by
  have a := h1 b
  have c := h2 b
  rw [c]; rw [a]

theorem CoresKept.setBay (s : State) (b : Nat) (g : Bay → Bay) (hg : ∀ y, SameBayCore y (g y)) :
    CoresKept s (s.setBay b g) := fun b' => by
  rcases State.bay_setBay s b b' g with ⟨h, -⟩ | h
  · rw [h]; exact hg _
  · rw [h]

theorem State.recheck_cores (s : State) (b k : Nat) : CoresKept s (s.recheck b k) :=
  CoresKept.trans (CoresKept.of_eq (t := { s with cmds := (s.recheck b k).cmds }) rfl)
    (CoresKept.setBay { s with cmds := (s.recheck b k).cmds } b _ (fun _ => rfl))

theorem State.bump_cores (s : State) (b k n : Nat) (e : Bool) : CoresKept s (s.bump b k n e) :=
  (CoresKept.setBay s b _ (fun _ => rfl)).trans (State.recheck_cores _ b k)

theorem State.markFinished_cores (s : State) (adm : Nat) (st : Status) (r : W64) :
    CoresKept s (s.markFinished adm st r) := by
  have key : ∀ u : State, CoresKept s u → CoresKept s
      { u.setSlot adm (fun c => { c with phase := .finished st r u.nextFin }) with nextFin := u.nextFin + 1 } :=
    fun u hu => hu.trans (CoresKept.of_eq rfl)
  unfold State.markFinished
  split
  · exact .refl s
  · split
    · exact .refl s
    · simp only
      split
      · exact key _ (State.bump_cores _ _ _ _ _)
      · exact key _ (.refl s)

theorem State.dropIfSilent_cores (s : State) (adm : Nat) : CoresKept s (s.dropIfSilent adm) :=
  CoresKept.of_eq (by rw [State.dropIfSilent_frame])

theorem State.settleAdmin_cores (s : State) (b : Nat) : CoresKept s (s.settleAdmin b) := by
  unfold State.settleAdmin
  simp only
  split
  · exact CoresKept.setBay _ _ _ (fun _ => rfl)
  · exact .refl _

theorem State.settleQueue_cores (s : State) (b q : Nat) : CoresKept s (s.settleQueue b q) := by
  unfold State.settleQueue
  split
  · split
    · exact (CoresKept.setBay s b _ (fun _ => rfl)).trans
        ((State.markFinished_cores _ _ _ _).trans (State.dropIfSilent_cores _ _))
    · exact .refl s
  · exact .refl s

theorem State.settle_cores (s : State) (o : Origin) : CoresKept s (s.settle o) := by
  cases o with
  | bay b q => exact (State.settleQueue_cores s b q).trans (State.settleAdmin_cores _ b)
  | control => exact CoresKept.of_eq (by show s.settleControl.bays = _; rw [State.settleControl_frame])
  | urgent => exact .refl s

/-- Ending a command keeps every bay but its counters, descriptors, rings and registers. -/
theorem State.finish_cores (s : State) (adm : Nat) (st : Status) (r : Nat) : CoresKept s (s.finishNat adm st r) := by
  unfold State.finishNat State.finish
  split
  · exact .refl s
  · exact (State.markFinished_cores _ _ _ _).trans ((State.dropIfSilent_cores _ _).trans (State.settle_cores _ _))

/-! ### Completing with an operation's effect -/

/-- A running command completes with what its operation left: its end, the memory and the bays of that state. -/
theorem State.complete_spec (s : State) (c : Slot) (f : State → Eff) (h : (f s).1.slot? c.adm = some c)
    (hp : c.phase = .running) :
    Ended (s.complete c.adm f) c (f s).2.1 (f s).2.2 ∧ SameMemory (f s).1 (s.complete c.adm f) ∧
      CoresKept (f s).1 (s.complete c.adm f) :=
  ⟨State.finish_ended _ c _ _ h (by rw [hp]; exact fun e => by cases e) (by simp [Slot.finished?, hp]),
    State.finish_memory _ _ _ _, State.finish_cores _ _ _ _⟩

end Sys2Proof.Machine
end

