-- ==== Sys2Proof/Laws/Mem.lean ====
section
/-!
SUPPORT. Byte memory: what a read gives after a write, and that every memory operation keeps the canonical form.
-/
namespace Sys2Proof.Machine

/-! ### One byte -/

/-- Every listed address lies above `a`. -/
abbrev Above (a : Nat) (m : Mem) : Prop := ∀ c ∈ m, a < c.1

theorem Mem.wf_nil : Mem.wf [] := ⟨List.Pairwise.nil, fun _ h => by cases h⟩

theorem Mem.wf_cons {k : Nat} {v : Byte} {m : Mem} :
    Mem.wf ((k, v) :: m) ↔ (Above k m ∧ v ≠ 0 ∧ Mem.wf m) := by
  simp only [Mem.wf, List.pairwise_cons, List.forall_mem_cons]
  exact ⟨fun ⟨⟨a, b⟩, c, d⟩ => ⟨a, c, b, d⟩, fun ⟨a, c, b, d⟩ => ⟨⟨a, b⟩, c, d⟩⟩

/-- A written byte lies where it was put; no other address appears. -/
theorem Mem.mem_set {m : Mem} {a : Nat} {b : Byte} {c : Host.Cell} (h : c ∈ Mem.set m a b) : c.1 = a ∨ c ∈ m := by
  induction m with
  | nil => unfold Mem.set at h; split at h <;> simp_all
  | cons x xs ih =>
    obtain ⟨k, v⟩ := x
    unfold Mem.set at h
    split at h
    · split at h
      · exact .inr h
      · rcases List.mem_cons.1 h with h | h
        · exact .inl (by rw [h])
        · exact .inr h
    · split at h
      · split at h
        · exact .inr (List.mem_cons_of_mem _ h)
        · rcases List.mem_cons.1 h with h | h
          · exact .inl (by rw [h])
          · exact .inr (List.mem_cons_of_mem _ h)
      · rcases List.mem_cons.1 h with h | h
        · exact .inr (by rw [h]; exact List.mem_cons_self)
        · rcases ih h with h | h
          · exact .inl h
          · exact .inr (List.mem_cons_of_mem _ h)

/-- Writing a byte keeps the canonical form. -/
theorem Mem.wf_set {m : Mem} (h : m.wf) (a : Nat) (b : Byte) : (Mem.set m a b).wf := by
  induction m with
  | nil =>
    unfold Mem.set
    split
    · exact Mem.wf_nil
    · rename_i hb; exact Mem.wf_cons.2 ⟨fun _ h => absurd h List.not_mem_nil, hb, Mem.wf_nil⟩
  | cons x xs ih =>
    obtain ⟨k, v⟩ := x
    obtain ⟨hk, hv, hx⟩ := Mem.wf_cons.1 h
    unfold Mem.set
    split
    · rename_i ha
      split
      · exact h
      · rename_i hb
        refine Mem.wf_cons.2 ⟨?_, hb, h⟩
        intro c hc
        rcases List.mem_cons.1 hc with hc | hc
        · rw [hc]; exact ha
        · exact Nat.lt_trans ha (hk c hc)
    · split
      · rename_i ha
        split
        · exact hx
        · rename_i hb
          exact Mem.wf_cons.2 ⟨fun c hc => by rw [ha]; exact hk c hc, hb, hx⟩
      · rename_i h1 h2
        refine Mem.wf_cons.2 ⟨?_, hv, ih hx⟩
        intro c hc
        rcases Mem.mem_set hc with hc | hc
        · omega
        · exact hk c hc

theorem Mem.get_above {m : Mem} {a : Nat} (h : Above a m) : Mem.get m a = 0 := by
  induction m with
  | nil => rfl
  | cons x xs ih =>
    obtain ⟨k, v⟩ := x
    have h1 : a < k := h _ List.mem_cons_self
    unfold Mem.get
    rw [if_neg (by omega)]
    exact ih (fun c hc => h c (List.mem_cons_of_mem _ hc))

/-- A read after a write of one byte: the byte written at its address, the old byte at every other. -/
theorem Mem.get_set {m : Mem} (h : m.wf) (a x : Nat) (b : Byte) :
    Mem.get (Mem.set m a b) x = if x = a then b else Mem.get m x := by
  induction m with
  | nil =>
    unfold Mem.set
    split
    · rename_i hb; subst hb; split <;> rfl
    · by_cases hx : x = a
      · simp [Mem.get, hx]
      · simp [Mem.get, hx, Ne.symm hx]
  | cons p xs ih =>
    obtain ⟨k, v⟩ := p
    obtain ⟨hk, hv, hw⟩ := Mem.wf_cons.1 h
    unfold Mem.set
    split
    · rename_i ha
      have hz : Mem.get ((k, v) :: xs) a = 0 := Mem.get_above (fun c hc => by
        rcases List.mem_cons.1 hc with hc | hc
        · rw [hc]; exact ha
        · exact Nat.lt_trans ha (hk c hc))
      split
      · rename_i hb
        split
        · rename_i hx; rw [hx, hz, hb]
        · rfl
      · by_cases hx : x = a
        · simp [Mem.get, hx]
        · rw [if_neg hx]; rw [Mem.get.eq_2]; rw [if_neg (Ne.symm hx)]
    · split
      · rename_i _ ha
        subst ha
        split
        · rename_i hb
          split
          · rename_i hx; rw [hx, hb]; exact Mem.get_above hk
          · rename_i hx; rw [Mem.get.eq_2, if_neg (Ne.symm hx)]
        · by_cases hx : x = a
          · simp [Mem.get, hx]
          · rw [if_neg hx, Mem.get.eq_2, Mem.get.eq_2, if_neg (Ne.symm hx), if_neg (Ne.symm hx)]
      · rename_i _ ha
        rw [Mem.get.eq_2, Mem.get.eq_2, ih hw]
        by_cases hx : k = x
        · subst hx
          rw [if_pos rfl, if_pos rfl, if_neg (Ne.symm ha)]
        · rw [if_neg hx, if_neg hx]

/-! ### Ranges -/

/-- Writing bytes keeps the canonical form. -/
theorem Mem.wf_write {m : Mem} (h : m.wf) (skip : List Nat) (a : Nat) (bs : List Byte) : (Mem.write skip m a bs).wf := by
  induction bs generalizing m a with
  | nil => exact h
  | cons b bs ih =>
    unfold Mem.write
    refine ih ?_ _
    split
    · exact h
    · exact Mem.wf_set h a b

/-- A read after bytes are written: the byte written, but on a skipped line; every other address reads as before. -/
theorem Mem.get_write {m : Mem} (h : m.wf) (skip : List Nat) (a x : Nat) (bs : List Byte) :
    Mem.get (Mem.write skip m a bs) x =
      if a ≤ x ∧ x < a + bs.length ∧ x / 64 ∉ skip then bs.getD (x - a) 0 else Mem.get m x := by
  induction bs generalizing m a with
  | nil =>
    rw [if_neg (by simp only [List.length_nil]; omega)]
    rfl
  | cons b bs ih =>
    unfold Mem.write
    have tail : ¬ x = a → (a + 1 ≤ x ∧ x < a + 1 + bs.length ↔ a ≤ x ∧ x < a + (bs.length + 1)) := by omega
    have next : a + 1 ≤ x → (b :: bs).getD (x - a) 0 = bs.getD (x - (a + 1)) 0 := by
      intro h1
      rw [show x - a = x - (a + 1) + 1 from by omega]; rfl
    by_cases hs : a / 64 ∈ skip
    · rw [if_pos hs, ih h]
      by_cases hx : x = a
      · subst hx
        simp [hs]
      · simp only [List.length_cons, ← and_assoc, tail hx]
        split
        · rw [next (by omega)]
        · rfl
    · rw [if_neg hs, ih (Mem.wf_set h a b)]
      by_cases hx : x = a
      · subst hx
        rw [if_neg (by omega), if_pos ⟨Nat.le_refl _, by simp only [List.length_cons]; omega, hs⟩, Mem.get_set h,
          if_pos rfl]
        simp
      · simp only [List.length_cons, ← and_assoc, tail hx]
        split
        · rw [next (by omega)]
        · rw [Mem.get_set h, if_neg hx]

/-- Leaving cells out keeps the canonical form. -/
theorem Mem.wf_filter {m : Mem} (h : m.wf) (p : Host.Cell → Bool) : Mem.wf (m.filter p) :=
  ⟨h.1.filter _, fun c hc => h.2 c (List.mem_filter.1 hc).1⟩

theorem Mem.wf_clear {m : Mem} (h : m.wf) (a n : Nat) : (Mem.clear m a n).wf := Mem.wf_filter h _

/-- Bytes set one after the other keep the canonical form. -/
theorem Mem.wf_fold {α : Type} (l : List α) (g : Mem → α → Mem) (hg : ∀ m x, m.wf → (g m x).wf) {m : Mem}
    (h : m.wf) :
    (l.foldl g m).wf := by
  induction l generalizing m with
  | nil => exact h
  | cons x xs ih => exact ih (hg m x h)

theorem Mem.wf_move {m : Mem} (h : m.wf) (src dst len : Nat) : (Mem.move m src dst len).wf :=
  Mem.wf_fold _ _ (fun _ _ hm => Mem.wf_set hm _ _) (Mem.wf_clear (Mem.wf_clear h _ _) _ _)

theorem wf_mixMem (base : Nat) {old : Mem} (new : Mem) (h : old.wf) : (mixMem base old new).wf :=
  Mem.wf_fold _ _ (fun _ _ hm => by
    split
    · exact Mem.wf_write hm _ _ _
    · exact hm) h

theorem wf_freeMem (base : Nat) {m : Mem} (h : m.wf) : (freeMem base m).wf := by
  constructor
  · unfold freeMem
    refine List.Pairwise.filter _ ?_
    rw [List.pairwise_map]
    have h1 : (m.zipIdx.map Prod.fst).Pairwise (fun a b => a.1 < b.1) := by
      rw [List.zipIdx_map_fst]; exact h.1
    rw [List.pairwise_map] at h1
    exact h1
  · intro c hc
    have := (List.mem_filter.1 hc).2
    simpa using this

/-! ### Places -/

/-- The canonical form of the four memories that commands write. -/
abbrev SpacesWf (s : State) : Prop := s.dram.wf ∧ s.sram.wf ∧ s.local_.wf ∧ s.host.wf

theorem State.unmark_wf (s : State) (r : Nat) (h : SpacesWf s) : SpacesWf (s.unmark r) := by
  unfold State.unmark
  split
  · exact ⟨Mem.wf_clear h.1 _ _, h.2⟩
  · exact h

theorem State.unmarks_wf (l : List Nat) (s : State) (h : SpacesWf s) : SpacesWf (l.foldl State.unmark s) := by
  induction l generalizing s with
  | nil => exact h
  | cons r rs ih => exact ih _ (State.unmark_wf s r h)

/-- Writing bytes at a place keeps the canonical form of every memory. -/
theorem State.writeLoc_wf (s : State) (l : Loc) (bs : List Byte) (h : SpacesWf s) : SpacesWf (s.writeLoc l bs) := by
  unfold State.writeLoc
  simp only
  split
  · have key : ∀ u : State, SpacesWf u → SpacesWf { u with
        dram := Mem.write (s.skipped l bs.length) u.dram l.addr bs } :=
      fun u hu => ⟨Mem.wf_write hu.1 _ _ _, hu.2⟩
    exact key _ (State.unmarks_wf _ _ h)
  · exact ⟨h.1, Mem.wf_write h.2.1 _ _ _, h.2.2⟩
  · exact ⟨h.1, h.2.1, Mem.wf_write h.2.2.1 _ _ _, h.2.2.2⟩
  · exact ⟨h.1, h.2.1, h.2.2.1, Mem.wf_write h.2.2.2 _ _ _⟩

/-- Clearing a place keeps the canonical form of every memory. -/
theorem State.clearLoc_wf (s : State) (l : Loc) (n : Nat) (h : SpacesWf s) : SpacesWf (s.clearLoc l n) := by
  unfold State.clearLoc
  simp only
  split
  · exact ⟨Mem.wf_clear h.1 _ _, h.2⟩
  · exact ⟨h.1, Mem.wf_clear h.2.1 _ _, h.2.2⟩
  · exact ⟨h.1, h.2.1, Mem.wf_clear h.2.2.1 _ _, h.2.2.2⟩
  · exact ⟨h.1, h.2.1, h.2.2.1, Mem.wf_clear h.2.2.2 _ _⟩

theorem State.writePieces_wf (b : Nat) (acc : Acc) (ps : List (Nat × Nat)) (bs : List Byte) (s : State) (h : SpacesWf s) :
    SpacesWf (State.writePieces b acc ps bs s) := by
  induction ps generalizing bs s with
  | nil => exact h
  | cons p ps ih =>
    unfold State.writePieces
    simp only
    refine ih _ _ ?_
    split
    · split
      · exact h
      · exact State.writeLoc_wf _ _ _ h
    · exact h

/-! ### What a write touches -/

/-- A write at a place changes memory and its marks, and nothing else. -/
theorem State.writeLoc_frame (s : State) (l : Loc) (bs : List Byte) :
    s.writeLoc l bs = { s with
      dram := (s.writeLoc l bs).dram, sram := (s.writeLoc l bs).sram, local_ := (s.writeLoc l bs).local_,
      host := (s.writeLoc l bs).host, zeroMarks := (s.writeLoc l bs).zeroMarks, poison := (s.writeLoc l bs).poison } := by
  have hu : ∀ (l : List Nat) (u : State), l.foldl State.unmark u =
      { u with dram := (l.foldl State.unmark u).dram, zeroMarks := (l.foldl State.unmark u).zeroMarks } := by
    intro l
    induction l with
    | nil => intro u; rfl
    | cons r rs ih =>
      intro u
      rw [List.foldl_cons, ih]
      unfold State.unmark
      split <;> rfl
  unfold State.writeLoc
  simp only
  split
  · rw [hu]
  · rfl
  · rfl
  · rfl

theorem State.writePieces_frame (b : Nat) (acc : Acc) (ps : List (Nat × Nat)) (bs : List Byte) (s : State) :
    State.writePieces b acc ps bs s = { s with
      dram := (State.writePieces b acc ps bs s).dram, sram := (State.writePieces b acc ps bs s).sram,
      local_ := (State.writePieces b acc ps bs s).local_, host := (State.writePieces b acc ps bs s).host,
      zeroMarks := (State.writePieces b acc ps bs s).zeroMarks, poison := (State.writePieces b acc ps bs s).poison } := by
  induction ps generalizing bs s with
  | nil => rfl
  | cons p ps ih =>
    unfold State.writePieces
    simp only
    rw [ih]
    split
    · split
      · rfl
      · rw [State.writeLoc_frame]
    · rfl

/-- A write of a range of bay addresses changes memory and its marks, and nothing else. -/
theorem State.writeBay_frame (s : State) (b a : Nat) (bs : List Byte) :
    s.writeBay b a bs = { s with
      dram := (s.writeBay b a bs).dram, sram := (s.writeBay b a bs).sram, local_ := (s.writeBay b a bs).local_,
      host := (s.writeBay b a bs).host, zeroMarks := (s.writeBay b a bs).zeroMarks,
      poison := (s.writeBay b a bs).poison } := State.writePieces_frame _ _ _ _ _

/-- Writing a range of bay addresses keeps the canonical form of every memory. -/
theorem State.writeBay_wf (s : State) (b a : Nat) (bs : List Byte) (h : SpacesWf s) : SpacesWf (s.writeBay b a bs) :=
  State.writePieces_wf b _ _ _ s h

/-- A page copied within device memory keeps the canonical form of every memory. -/
theorem State.copyPage_wf (s : State) (src dst n : Nat) (h : SpacesWf s) : SpacesWf (s.copyPage src dst n) :=
  have hc := State.clearLoc_wf s ⟨.dram, dst⟩ n h
  ⟨Mem.wf_fold _ _ (fun _ _ hm => Mem.wf_set hm _ _) hc.1, hc.2⟩

theorem State.moveCluster_wf (s : State) (p q : Nat) (h : SpacesWf s) : SpacesWf (s.moveCluster p q) :=
  ⟨h.1, Mem.wf_move h.2.1 _ _ _, Mem.wf_move h.2.2.1 _ _ _, h.2.2.2⟩

theorem State.loseMemory_wf (s : State) (h : SpacesWf s) : SpacesWf s.loseMemory :=
  ⟨wf_freeMem _ h.1, wf_freeMem _ h.2.1, wf_freeMem _ h.2.2.1, h.2.2.2⟩

theorem State.mixed_wf (s t : State) (h : SpacesWf s) : SpacesWf (s.mixed t) := by
  have hu := State.unmarks_wf (s.zeroMarks.filter (fun r => !t.zeroMarks.contains r)) s h
  exact ⟨wf_mixMem _ _ hu.1, wf_mixMem _ _ hu.2.1, wf_mixMem _ _ hu.2.2.1, wf_mixMem _ _ hu.2.2.2⟩

/-- The memories after reset are canonical. -/
theorem reset_wf : SpacesWf State.reset := ⟨Mem.wf_nil, Mem.wf_nil, Mem.wf_nil, Mem.wf_nil⟩

end Sys2Proof.Machine
end

