-- ==== Sys2Proof/Machine/Board.lean ====
section
/-! DEFINITION. What the board reads and reaches without a command of the table (R386, R387, R389, R396 to R399): the
management buses, the test port's IDCODE, and the signal of every ball. -/

namespace Sys2Proof.Machine

/-! ### Management (R366, R386, R387) -/

/-- The management buses of Table 16.3. -/
inductive BoardBus where
  | smb
  | i3c
  | pmb
  deriving DecidableEq, Repr, Inhabited

/-- The quantities that the PMBus target reports (Table 16.3). -/
inductive Quantity where
  | vin
  | iin
  | pout
  | temperature1
  | statusWord
  deriving DecidableEq, Repr, Inhabited

/-- The 7-bit address of a bus's target: the I3C target answers its dynamic address once it has one (log 75). -/
def State.busAddress (s : State) : BoardBus → BitVec 7
  | .smb => 0x6A
  | .i3c => s.mgmt.i3c.getD 0x6A
  | .pmb => 0x40

/-- A target answers while the management controller has power. The recovery responder of the boot ROM answers on the SMBus
target only (R366). -/
def State.busAnswers (s : State) (bus : BoardBus) (address : BitVec 7) : Bool :=
  nth s.power 62 && address == s.busAddress bus && (!s.boot.recovery || bus == .smb)

/-- The hottest junction, in 0.25 C. -/
def State.hottestJunction (s : State) : Int := ((List.range 3).map s.hottest).foldl max (-32768)

/-- A quantity as R438 scales it: mV, mA, mW and 0.25 C. The manual gives no bit of STATUS_WORD: it is free (log 75). -/
def State.pmbus (s : State) : Quantity → Int
  | .vin => s.vin
  | .iin => s.iin
  | .pout => s.pout
  | .temperature1 => s.hottestJunction
  | .statusWord => (s.freeNow.toNat % 2 ^ 16 : Nat)

/-- The numeric sensors that PLDM serves: every PMBus quantity, the states of the bays, of the far ports and of the fabric
ports (R387). -/
def State.pldmSensors (s : State) : List Int :=
  [s.pmbus .vin, s.pmbus .iin, s.pmbus .pout, s.pmbus .temperature1, s.pmbus .statusWord] ++
    s.bays.map (fun b => (b.st.code : Int)) ++ s.far.map (fun p => (p.state : Int)) ++ s.ports.map (fun p => (p.state : Int))

/-- IDCODE of the test port (R389). -/
def State.idcode (s : State) : BitVec 32 :=
  BitVec.ofNat 4 s.factory.stepping ++ 0x1632#16 ++ 0x2B5#11 ++ 1#1

/-! ### Ballout (R396 to R399) -/

/-- The interfaces that use pair slots (Table 16.5). -/
inductive PairIface where
  | fabric (port : Nat)
  | pcie
  | cxl (link : Nat)
  | far (port : Nat)
  deriving DecidableEq, Repr, Inhabited

/-- What a pair of balls of an interface carries. -/
inductive PairUse where
  | tx (lane : Nat)
  | rx (lane : Nat)
  | refclk
  deriving DecidableEq, Repr, Inhabited

/-- The signal of a ball. -/
inductive Ball where
  | vin48
  | gnd
  | pair (iface : PairIface) (use : PairUse) (negative : Bool)
  | misc (signal : String)
  deriving DecidableEq, Repr, Inhabited

/-- The use of a tile (R397), with the place of the tile within its interface. The two far ports share their tiles. -/
inductive Tile where
  | power
  | gnd
  | fabric (port u : Nat)
  | pcie (u : Nat)
  | cxl (link u : Nat)
  | far (u : Nat)
  | misc (u : Nat)
  deriving DecidableEq, Repr, Inhabited

/-- The tile of I/O sequence s (R397). -/
def ioTile (s : Nat) : Tile :=
  if s < 3 then .pcie s
  else if s < 15 then .cxl ((s - 3) / 3) ((s - 3) % 3)
  else if s < 18 then .far (s - 15)
  else .misc (s - 18)

/-- Tile (i, j) of the array (R397). -/
def tileAt (i j : Nat) : Tile :=
  if 4 ≤ i ∧ i ≤ 5 ∧ 4 ≤ j ∧ j ≤ 5 then .power
  else if i < 9 ∧ j < 2 then .fabric ((9 * j + i) / 3) (i % 3)
  else if i < 9 ∧ 8 ≤ j ∧ j ≤ 9 then .fabric (6 + (9 * (9 - j) + i) / 3) (i % 3)
  else if i = 9 then ioTile j
  else if i = 8 ∧ 2 ≤ j ∧ j ≤ 7 then ioTile (j + 8)
  else if i = 7 ∧ 2 ≤ j ∧ j ≤ 5 then ioTile (j + 14)
  else .gnd

/-- TX of lane q / 2 in even slots and RX in odd ones. -/
def laneUse (q : Nat) : PairUse := if q % 2 = 0 then .tx (q / 2) else .rx (q / 2)

/-- Slot q of an interface's tiles (Table 16.5). -/
def slotUse (t : Tile) (q : Nat) : Option (PairIface × PairUse) := match t with
  | .fabric p _ => if q < 34 then some (.fabric p, laneUse q) else if q = 34 then some (.fabric p, .refclk) else none
  | .pcie _ => if q < 32 then some (.pcie, laneUse q) else if q = 32 then some (.pcie, .refclk) else none
  | .cxl n _ => if q < 32 then some (.cxl n, laneUse q) else if q = 32 then some (.cxl n, .refclk) else none
  | .far _ =>
    if q < 32 then some (.far (q / 16), laneUse (q % 16)) else if q < 34 then some (.far (q - 32), .refclk) else none
  | _ => none

/-- The tile's place within its interface. -/
def tilePlace : Tile → Nat
  | .fabric _ u | .pcie u | .cxl _ u | .far u | .misc u => u
  | _ => 0

/-- The single balls of the miscellaneous tiles, in site order (Table 16.6). -/
def miscSignals : List String :=
  ["SYS_REFCLK_25M", "RESET_N", "PCIE_PERST_N", "PCIE_CLKREQ_N", "PCIE_WAKE_N", "CXL_PERST_N0", "CXL_PERST_N1",
    "CXL_PERST_N2", "CXL_PERST_N3"] ++
  ["SMB_SCL", "SMB_SDA", "SMB_ALERT_N", "I3C_SCL", "I3C_SDA", "PMB_SCL", "PMB_SDA", "PMB_ALERT_N"] ++
  ["SPI_CLK", "SPI_CS_N", "SPI_IO0", "SPI_IO1", "SPI_IO2", "SPI_IO3"] ++
  ["JTAG_TCK", "JTAG_TMS", "JTAG_TDI", "JTAG_TDO", "JTAG_TRST_N", "TAMPER_N", "SITE_PPS", "SITE_TOD"] ++
  ["FAR_PHY_RESET_N", "FAR_PHY_INT_N", "FAR_MDC", "FAR_MDIO", "THERMTRIP_N", "DEV_READY"]

/-- The ball at local place (a, b) of a tile (R397, R398). -/
def tileBall (t : Tile) (a b : Nat) : Ball :=
  let negative := b % 3 = 2
  let slot := a % 2 = 1 ∧ a < 11 ∧ b % 3 ≠ 0 ∧ b < 9
  let k := 3 * (a / 2) + b / 3
  let q := 15 * tilePlace t + k
  match t with
  | .power => if (a + b) % 2 = 0 then .vin48 else .gnd
  | .misc _ =>
    if slot then (miscSignals[2 * q + (if negative then 1 else 0)]?.map Ball.misc).getD .gnd else .gnd
  | _ =>
    if slot then ((slotUse t q).map (fun x => Ball.pair x.1 x.2 negative)).getD .gnd else .gnd

/-- The ball in row r and column c, each from 1 to 110 (R396). -/
def ballAt (r c : Nat) : Ball :=
  tileBall (tileAt ((r - 1) / 11) ((c - 1) / 11)) ((r - 1) % 11) ((c - 1) % 11)

end Sys2Proof.Machine
end

