-- ==== Sys2Proof/Tests/Slice0.lean ====
section
/-!
SUPPORT. Tests of one step each, and for every obligation with hypotheses a witness: a state and operands that meet them,
with the answer where that is small. Expected values come from the manual, or where a comment says so from the published
test vectors of the algorithm it names. Last come an ill-formed term for each check of WellFormed.
-/
namespace Sys2Proof.Tests
open Machine
set_option Elab.async false

/-! ### States to test on -/

/-- A command of bay 0's queue 1, number 0, that signals counter 255. -/
def h0 : Hdr := ⟨.bay 0 1, 0, false, false, false, false, 0, 7, none, some 255⟩

/-- The same from the control queue, from the urgent queue. -/
def hc : Hdr := ⟨.control, 0, false, false, false, false, 0, 9, none, none⟩
def hu : Hdr := ⟨.urgent, 0, false, false, false, false, 0, 11, none, none⟩

def mkSlot (i : Instr) (p : Phase) : Slot := ⟨i, p, false, 0, none, false, 0, 0, 0, false, [], []⟩

/-- Bay 0: ACTIVE, logical cluster 0, one granule with a 2 MiB page at bay address 2^30, queue pair 1. -/
def bay0 : Bay := { Bay.reset with
  st := .active
  bind := { BindRec.fresh with clusters := 1, granules := [1, 2048] }
  sqs := [SubQ.none_, ⟨true, 0x40000000, 6, 1, 16, 0, 0, none⟩] ++ List.replicate 6 SubQ.none_
  cqs := [CompQ.none_, ⟨true, 0x40001000, 6, 1, 0, 0, 0, 0, true, 0, none⟩] ++ List.replicate 6 CompQ.none_
  pages := [⟨2 ^ 30, false, 2 ^ 30, true, true, true, false⟩] }

/-- A booted device with every licence, bay 0 as above. -/
def on : State := { State.reset with
  dev := { Dev.reset with hold := 0 }
  boot := { Boot.reset with ready := true, linkUp := true }
  effFeat := ⟨true, true, true, 2, true⟩
  lmap := (List.range 32).map some
  bays := bay0 :: List.replicate 15 Bay.reset }

/-- Bay 0 changed. -/
def on' (g : Bay → Bay) : State := { on with bays := g bay0 :: List.replicate 15 Bay.reset }

/-- The command running, begun, on a state. -/
def run (s : State) (i : Instr) : State := { s with cmds := [mkSlot i .running], nextAdm := 1 }
def begun (s : State) (i : Instr) : State := { s with cmds := [mkSlot i .active], nextAdm := 1 }

def after (i : Instr) (s : State) : State := match exec i s with
  | .next t => t
  | _ => s

/-- The command runs on the state and ends so. -/
abbrev Ends (s : State) (i : Instr) (st : Status) (r : Nat) : Prop :=
  Running (run s i) (mkSlot i .running) i ∧ Ended (after i (run s i)) (mkSlot i .running) st r

/-- The command runs on the state and has begun. -/
abbrev Begins (s : State) (i : Instr) : Prop :=
  Running (run s i) (mkSlot i .running) i ∧ Begun (after i (run s i)) (mkSlot i .running)

/-- The state after the command runs. -/
def done (s : State) (i : Instr) : State := after i (run s i)

theorem witness_counted : PartsCounted on ∧ CommandsNumbered on ∧ MemoriesCanonical on ∧ (mkSlot (.nop h0) .running).bay? = some 0 ∧
  NoDelete on 0 := by
  refine ⟨by decide +kernel, by decide +kernel, by decide +kernel, by decide +kernel, fun q => ?_⟩
  match q with
  | 0 | 1 | 2 | 3 | 4 | 5 | 6 | 7 => decide +kernel
  | n + 8 => rfl

/-! ### The queue, admin, queue and memory commands -/

/-- The state after a step. -/
def stepped (s : State) : State := match step s with
  | .next t => t
  | _ => s

theorem test_step_front : (stepped { on with pending := [.intMaskWrite 5, .nop h0] }).pending = [.nop h0] ∧
    (stepped { on with pending := [.intMaskWrite 5, .nop h0] }).dev.intMask = 5 := by decide +kernel
theorem test_step_idle : (stepped on).clock.uptime = 1 ∧ on.pending = [] ∧ on.dev.hold ≠ 1 ∧ State.reset.dev.hold = 1 := by decide +kernel

theorem witness_nop : Ends on (.nop h0) .ok 0 ∧ nth ((done on (.nop h0)).bay 0).counters 255 = ⟨1, false⟩ := by decide +kernel
theorem witness_identify : (run on (.identify h0 0 0)).outOk h0.org 0 256 = true ∧ on.rangeSkips 0 .wr 0 256 = false ∧
    Ends on (.identify h0 0 0) .ok 0 ∧ ((done on (.identify h0 0 0)).readBay 0 0 256).length = 256 := by decide +kernel
theorem witness_getLog : logBay h0 0 < 16 ∧ Ends on (.getLog h0 2 true 0 64 64 0) .ok (64 + 2 ^ 32 * 64) := by decide +kernel
theorem witness_counterSet : Ends (on' (fun y => { y with counters := y.counters.set 255 ⟨5, true⟩ })) (.counterSet h0 255 true true 0xFFFFFFFF) .ok 5 ∧
    nth ((done (on' (fun y => { y with counters := y.counters.set 255 ⟨5, true⟩ }))
      (.counterSet h0 255 true true 0xFFFFFFFF)).bay 0).counters 255 = ⟨5, false⟩ := by decide +kernel

def sqOps : QueueOps := ⟨0x40010000, 0, 7, 16, 1, 0, 0, 16, 0⟩
def cqOps : QueueOps := ⟨0x40010000, 1, 7, 6, 0, 119, 0, 0, 1023⟩
theorem witness_queueCreate : on.queueCreateCheck 0 sqOps = some .accessDenied ∧
    on.queueCreateCheck 0 { sqOps with log2Size := 6 } = none ∧ on.queueCreateCheck 0 cqOps = none ∧
    Ends on (.queueCreate h0 { sqOps with log2Size := 6 }) .ok 0 ∧ Ends on (.queueCreate h0 cqOps) .ok 0 ∧
    (nth ((done on (.queueCreate h0 cqOps)).bay 0).cqs 7).phase = true := by decide +kernel
theorem witness_queueDelete :
    let s := on' (fun y => { y with cqs := y.cqs.set 2 { CompQ.none_ with live := true } })
    s.queueDeleteCheck 0 1 2 = none ∧ Ends s (.queueDelete h0 1 2) .ok 0 ∧
    on.queueDeleteCheck 0 0 1 = none ∧ Begins on (.queueDelete h0 0 1) ∧
    (run on (.queueDelete { h0 with org := .bay 0 0 } 0 1)).queueEmpty 0 1 = true ∧
    Ends on (.queueDelete { h0 with org := .bay 0 0 } 0 1) .ok 0 := by decide +kernel

theorem witness_memFill : on.goodPrefix 0 .wr 3 9 = 9 ∧ on.rangeSkips 0 .wr 3 9 = false ∧
    Ends on (.memFill h0 3 9 0x0807060504030201) .ok 9 ∧
    (done on (.memFill h0 3 9 0x0807060504030201)).readBay 0 0 13 = [0, 0, 0, 4, 5, 6, 7, 8, 1, 2, 3, 4, 0] := by decide +kernel
theorem witness_memCopy :
    let s := on.writeBay 0 0 [1, 2, 3]
    sideOf none 0 = none ∧ s.goodPrefix 0 .rd 0 3 = 3 ∧ s.goodPrefix 0 .wr (2 ^ 30) 3 = 3 ∧ s.rangeSkips 0 .wr (2 ^ 30) 3 = false ∧
    Ends s (.memCopy h0 0 (2 ^ 30) 3) .ok 3 ∧ (done s (.memCopy h0 0 (2 ^ 30) 3)).readBay 0 (2 ^ 30) 3 = [1, 2, 3] := by decide +kernel

def group0 : Group := ⟨0, ⟨2, 0, 1, 0, 0, 0, 0, List.replicate 64 0⟩, 65536, 1048576, true, 9, 0, [], 0, []⟩
def map0 : ShardMap := ⟨2, 0, 0, 1, 0, 0x40100000, 0x2000, [], []⟩
def far1 : Nat := 2 ^ 63 + 2 ^ 56

theorem witness_memCopy_fabric :
    let s := on' (fun y => { y with groups := [group0], train := { y.train with map := some map0 } })
    isFabric far1 = true ∧ fabricMember far1 = 1 ∧
    (s.bay 0).formed? (((s.bay 0).shardGroup).getD 64) = some group0 ∧ sideOf (some group0) far1 = some 1 ∧
    s.readFault 0 64 100 = none ∧ Begins s (.memCopy h0 64 far1 100) ∧
    ((done s (.memCopy h0 64 far1 100)).bay 0).xfers.length = 1 := by decide +kernel

def mapOps : MemMapOps := ⟨2 ^ 30 + 2 ^ 21, 2 ^ 30 + 2 ^ 21, 3, 0, 0, 3⟩
theorem witness_memMap : on.memMapCheck 0 mapOps = none ∧ Ends on (.memMap h0 mapOps) .ok 3 ∧
    ((done on (.memMap h0 mapOps)).bay 0).pages.length = 4 ∧
    (done on (.memMap h0 mapOps)).rangeOk 0 .wr (2 ^ 30) (2 ^ 23) = true ∧
    (done on (.memMap h0 mapOps)).rangeOk 0 .wr (2 ^ 30) (2 ^ 23 + 1) = false := by decide +kernel
theorem witness_memPlace :
    let s := on.writeBay 0 (2 ^ 30) [7, 8]
    s.memPlaceCheck 0 (2 ^ 30) (2 ^ 21) 2 = none ∧
    ((s.bay 0).pagesIn (2 ^ 30) (2 ^ 21)).all (fun p => !s.poisoned ⟨.dram, p.dpa⟩ p.size && !s.lost ⟨.dram, p.dpa⟩) = true ∧
    Ends s (.memPlace h0 (2 ^ 30) (2 ^ 21) 2) .ok 1 ∧
    (done s (.memPlace h0 (2 ^ 30) (2 ^ 21) 2)).readBay 0 (2 ^ 30) 2 = [7, 8] ∧
    (((done s (.memPlace h0 (2 ^ 30) (2 ^ 21) 2)).bay 0).pages.map (·.dpa)) ≠ [2 ^ 30] := by decide +kernel

/-! ### Elements, engines and cores -/

/-- FP32 words 1.0, -2.0, 0.5, 3.0 at bay address 0. -/
def fp4 : List Byte := toLe 4 0x3F800000 ++ toLe 4 0xC0000000 ++ toLe 4 0x3F000000 ++ toLe 4 0x40400000
def onFp : State := on.writeBay 0 0 fp4

def statsOps : StatsOps := ⟨0, 0x100, 2, 2, 8, 1, false⟩
theorem witness_quantStats : onFp.ioStatus 0 (statsIns statsOps) (statsOuts statsOps) = none ∧
    onFp.rangeSkips 0 .wr 0x100 8 = false ∧ Ends onFp (.quantStats h0 statsOps) .ok 0 ∧
    (done onFp (.quantStats h0 statsOps)).readBay 0 0x100 8 = toLe 4 0x3F800000 ++ toLe 4 0x40400000 := by decide +kernel
def convertOps : ConvertOps := ⟨0, 0x200, 4, 1, 2, false, 0, 0, 0⟩
theorem witness_convert : onFp.ioStatus 0 (convertIns convertOps) (convertOuts convertOps) = none ∧
    onFp.rangeSkips 0 .wr 0x200 (storedBytes 2 4) = false ∧ Ends onFp (.convert h0 convertOps) .ok 0 ∧
    (done onFp (.convert h0 convertOps)).readBay 0 0x200 8 = toLe 2 0x3F80 ++ toLe 2 0xC000 ++ toLe 2 0x3F00 ++ toLe 2 0x4040 := by
  decide +kernel
def rngOps : RngOps := ⟨0x300, 4, 1, 0, false, 0, 0, 0, 0, 0x3F800000⟩
theorem witness_rngFill : on.ioStatus 0 [] (rngOuts rngOps) = none ∧ on.rangeSkips 0 .wr 0x300 (storedBytes 1 4) = false ∧
    Ends on (.rngFill h0 rngOps) .ok 0 ∧ (done on (.rngFill h0 rngOps)).readBay 0 0x300 4 ≠ zeros 4 := by decide +kernel
/-- The known answer of Philox4x32-10 for key 0 and counter 0 (the published generator's test vectors). -/
theorem test_grain : let g := grain 0 0 0 0
    (g.w0, g.w1, g.w2, g.w3) = (0x6627e8d5, 0xe169c58d, 0xbc57ac4c, 0x9b00dbd8) := by decide +kernel

/-- C = A B with A = [1 -2], B = [0.5; 3]: 0.5 - 6 = -5.5. -/
def mmBlk : MatmulBlk := ⟨0, 8, 0x400, 0, 0, 0, 1, 1, 2, 8, 4, 4, 0, 1, 1, 1, 0, false, false, false, false, false, false, false, 0, 0, 0⟩
theorem witness_matmul : onFp.faults.residue = [] ∧ onFp.operandsNear mmBlk = true ∧
    onFp.operandsNear { mmBlk with mask := 2 } = false ∧ outcome (done onFp (.matmul h0 mmBlk)) 0 = some (.ok, 21) ∧ onFp.ioStatus 0 (matIns mmBlk) (matOuts mmBlk) = none ∧
    (matOuts mmBlk).all (fun r => !onFp.rangeSkips 0 .wr r.1 r.2) = true ∧
    (outcome (done onFp (.matmul h0 mmBlk)) 0).map (·.1) = some .ok ∧
    (done onFp (.matmul h0 mmBlk)).readBay 0 0x400 4 = toLe 4 0xC0B00000 := by decide +kernel

def kBlk : KernelBlk := ⟨0, 16, 1, 4, 0x1000, 7, 1, 2, 1, 0, List.replicate 4 (0, 0), List.replicate 4 (0, 0)⟩
theorem witness_kernelLaunch : onFp.ioStatus 0 [(kBlk.imageAddr, kBlk.imageLen)] [] = none ∧ Begins onFp (.kernelLaunch h0 kBlk) ∧
    (onFp.launchCores 1 0).length = 8 ∧ ((done onFp (.kernelLaunch h0 kBlk)).core 7).pc = 4 ∧ ((done onFp (.kernelLaunch h0 kBlk)).core 7).x = (Core.start 0 kBlk Core.reset).x := by decide +kernel

/-! Core 3 of logical cluster 0 runs launch 0: v1 holds fp4, v2 indices, x5 = 0x20, x6 = 1. -/

def c3 : CoreRef := ⟨0, 3⟩
def k3 : Core := { Core.reset with
  f := (List.replicate 32 (0 : W64)).set 10 0xFFFFFFFF3F800000
  launch := some 0, vl := 4, sew := 4, pc := 0x80, tfmt := 0x21
  v := (zeros 128 ++ fp4 ++ zeros 112 ++ toLe 8 0 ++ toLe 8 4 ++ toLe 8 8 ++ toLe 8 12 ++ zeros 3808)
  x := ((List.replicate 32 (0 : W64)).set 5 0x20).set 6 1 }
def onK' (f : Core → Core) : State :=
  let s := begun onFp (.kernelLaunch h0 kBlk)
  let s := { s with cores := [(3, f k3)] }
  s.writeLoc (localLoc 3 0x20) (toLe 8 (2 ^ 48) ++ toLe 8 0x500 ++ toLe 4 8 ++ toLe 1 1 ++ toLe 1 9 ++ zeros 10)
def onK : State := onK' id
theorem witness_core : OnCore onK c3 3 k3 0 0 ∧ PartsCounted onK :=
  ⟨⟨by decide +kernel, rfl, by decide +kernel, by decide +kernel, by decide +kernel⟩, by decide +kernel⟩
theorem witness_cvt : (((after (.tidyCvt c3 4 1) onK).core 3).vread 4 8, ((after (.tidyCvt c3 4 1) onK).core 3).pc) =
    (toLe 2 0x3F80 ++ toLe 2 0xC000 ++ toLe 2 0x3F00 ++ toLe 2 0x4040, 0x84) := by decide +kernel
theorem witness_wid : ((after (.tidyWid c3 4 1) onK).core 3).vread 4 16 = fp4 := by decide +kernel
theorem witness_stat : ((after (.tidyStat c3 4 1) onK).core 3).vread 4 16 =
    toLe 4 0x3F800000 ++ toLe 4 0x40000000 ++ toLe 4 0x3F000000 ++ toLe 4 0x40400000 := by decide +kernel
theorem witness_qblk : isBlock (tfmtDst k3) = false ∧ isBlock (tfmtDst { k3 with tfmt := 0x81 }) = true := by decide +kernel
theorem witness_drop : ((after (.tidyDrop c3 4 1 5) onK).core 3).vread 4 16 = fp4 := by decide +kernel
theorem witness_grainGet : leNat (((after (.grainGet c3 4 0) (onK' fun k => { k with vl := 1 })).core 3).vread 4 16) =
    0x6627e8d5 + 0xe169c58d * 2 ^ 32 + 0xbc57ac4c * 2 ^ 64 + 0x9b00dbd8 * 2 ^ 96 := by decide +kernel
theorem witness_rsc : onK.rangeOk 0 .rd 0x100 (8 * k3.vl) = true := by decide +kernel
theorem witness_gth : (k3.indices 2).all (onK.elemOk 0 .rd k3.sew) = true ∧ (k3.indices 2).all (onK.elemOk 0 .wr k3.sew) = true ∧
    ((after (.tidyGth c3 4 2) onK).core 3).vread 4 16 = fp4 := by decide +kernel
theorem witness_sct : ((after (.tidySct c3 4 2) onK).readBay 0 0 16) = zeros 16 ∧ ((after (.tidySct c3 4 2) onK).core 3).pc = 0x84 := by
  decide +kernel

theorem witness_csr : (0xC : W64).toNat % 16 ≤ 0xC ∧ ((after (.xtenonCsrWrite c3 0x800 0x1CC) onK).core 3).tfmt = 0x1CC ∧
    ((after (.xtenonCsrWrite c3 0x803 0x1000000000040) onK).core 3).trsc = 0x40 ∧
    ((after (.xtenonCsrWrite c3 0x804 0x1FFFFFFFF) onK).core 3).tdrop = 0xFFFFFFFF := by decide +kernel
theorem witness_tidyDma : dmaOk (onK.readLoc (localLoc 3 0x20) 32) = true ∧ 0x20 % 32 = 0 ∧ 0x20 + 32 ≤ 2 ^ 18 ∧
    ((after (.tidyDma c3 5 6) onK).core 3).dma1 = [⟨0, 0, 2 ^ 48, 0x500, 8, true, 9⟩] ∧
    ((after (.tidyDma c3 5 0) onK).core 3).dma0 = [⟨0, 0, 2 ^ 48, 0x500, 8, true, 9⟩] := by decide +kernel
def onD : State := (onK' fun k => { k with dma0 := [⟨0, 0, 0x20, 2 ^ 48 + 0x500, 8, true, 9⟩] })
theorem witness_dma : onD.coreRangeOk 0 .rd 0x20 8 = true ∧ onD.coreRangeOk 0 .wr (2 ^ 48 + 0x500) 8 = true ∧
    (after (.dmaDescriptorDone c3 0) onD).readBay 0 0x500 8 = toLe 8 (2 ^ 48) ∧
    nth ((after (.dmaDescriptorDone c3 0) onD).bay 0).counters 9 = ⟨1, false⟩ ∧
    ((after (.dmaDescriptorDone c3 0) onD).core 3).dma0 = [] := by decide +kernel
theorem witness_exit : onK.slot? 0 = some (mkSlot (.kernelLaunch h0 kBlk) .active) ∧ k3.xreg 17 = 0 ∧
    onK.coresOf 0 = [3] ∧ Ended (after (.kernelEcallExit c3) onK) (mkSlot (.kernelLaunch h0 kBlk) .active) .ok 0 ∧
    Ended (after (.coreException c3 2 0x80) onK) (mkSlot (.kernelLaunch h0 kBlk) .active) .aborted (faultResult 0 3 2 0x80) ∧
    0 < kBlk.cycleLimit := by decide +kernel
theorem witness_cycleLimit :
    let s := { onK with clock := { onK.clock with uptime := 1 } }
    kBlk.cycleLimit ≤ coreCycles s.clock.uptime ∧
    (s.launchCores 1 0).filter (fun q => (s.core q.2.2).launch == some 0 && !(s.core q.2.2).exited) = [(0, 3, 3)] ∧
    Ended (after (.cycleLimit 0) s) (mkSlot (.kernelLaunch h0 kBlk) .active) .timeout (faultResult 0 3 0xFFFF 0x80) := by decide +kernel

/-! ### Training, collectives, triggers -/

def fp8 : List Byte := fp4.take 8
/-- A map of one 2 by 2 tensor under AdamW; addresses in bay 0's page. -/
def rec7 : TensorRec := ⟨7, 0, 0, 1, 1, 2, 2, 0, 0, 0x40020000, 0x40020040, 0x40020080, 0x400200C0, 0x40020100, 0x40020140⟩
def mapBytes (members : Nat) : List Byte :=
  toLe 2 1 ++ toLe 1 members ++ toLe 1 0 ++ toLe 4 1 ++ toLe 2 0 ++ zeros 2 ++ toLe 4 1 ++ toLe 4 1 ++ zeros 44 ++
    toLe 4 7 ++ toLe 1 0 ++ toLe 1 0 ++ toLe 1 1 ++ toLe 1 1 ++ toLe 4 2 ++ toLe 4 2 ++ zeros 8 ++ toLe 8 0x40020000 ++
    toLe 8 0x40020040 ++ toLe 8 0x40020080 ++ toLe 8 0x400200C0 ++ toLe 8 0x40020100 ++ toLe 8 0x40020140 ++ zeros 56
def mapOf (members : Nat) : ShardMap := ⟨members, 0, 0, 1, 1, 0, 0, [rec7], mapBytes members⟩
def grp (members : Nat) : Group :=
  ⟨0, ⟨members, 0, 1, 0, 0, 0, 0, 0xFFF :: (members - 1) :: List.replicate 62 0⟩, 65536, 1048576, true, 9, 0, [], 0, List.replicate 64 (0, 0)⟩
/-- Bay 0 with a formed group 0 of `members`, the map's bytes at 0x1000, and the map loaded when `loaded`. -/
def onT (members : Nat) (loaded : Bool) : State :=
  (on' fun y => { y with
    groups := [grp members]
    train := if loaded then { y.train with map := some (mapOf members), applied := [0] } else y.train }).writeBay 0 0x1000
      (mapBytes members)

theorem witness_shardMapLoad : let s := onT 1 false
    s.readBay 0 0x1000 192 = mapBytes 1 ∧ s.ioStatus 0 [(0x1000, 192)] [] = none ∧ s.mapBad 0 (mapBytes 1) 192 = false ∧
    s.mapDenied 0 (mapOf 1) = false ∧ (run s (.shardMapLoad h0 0x1000 192)).trainingBusy 0 0 = false ∧
    Ends s (.shardMapLoad h0 0x1000 192) .ok (1 + 2 ^ 16) ∧
    ((done s (.shardMapLoad h0 0x1000 192)).bay 0).train.map = some (mapOf 1) ∧
    ((done s (.shardMapLoad h0 0x1000 192)).bay 0).train.applied = [0] := by decide +kernel
/-- Gradients 3 and 4: norm 5, clipped to 1: coefficient 0.2. -/
def onG (members : Nat) : State := (onT members true).writeBay 0 0x400200C0 (toLe 4 0x40400000 ++ toLe 4 0x40800000)
theorem witness_normClip : (onG 1).ioStatus 0 (gradRanges (mapOf 1)) [] = none ∧ positive32 0x3F800000 = true ∧
    (onG 1).regionNorm 0 (mapOf 1) = ⟨25 * 2 ^ 298, false, false⟩ ∧
    Ends (onG 1) (.normClip h0 0 1 0x3F800000) .ok (0x40A00000 + 0x3E4CCCCD * 2 ^ 32) ∧
    Begins (onG 2) (.normClip h0 0 1 0x3F800000) ∧ (done (onG 2) (.normClip h0 0 1 0x3F800000)).outs.length = 1 := by decide +kernel

/-- Learning rate 1, beta1 = beta2 = 0, eps 1, bias corrections 1. -/
def hyperBytes : List Byte :=
  toLe 4 0x3F800000 ++ zeros 28 ++ zeros 4 ++ toLe 4 0x3F800000 ++ zeros 4 ++ toLe 4 0x3F800000 ++ toLe 4 0x3F800000 ++
    toLe 4 0x3F800000 ++ toLe 4 0x3F800000 ++ toLe 4 0x3F800000 ++ zeros 192
def onU (members : Nat) : State := (onG members).writeBay 0 0x2000 hyperBytes
theorem witness_updateArm : (onU 1).ioStatus 0 [(0x2000, 256)] [] = none ∧ hyperOk ((onU 1).readBay 0 0x2000 256) false = true ∧
    ((onU 1).bay 0).train.stepFits (mapOf 1) 1 = true ∧ (mapOf 1).armed = [7] ∧ Begins (onU 1) (.updateArm h0 0x2000 1 0 false) := by
  decide +kernel
theorem witness_stepUpdate :
    (State.stepUpdateEff 0 (mkSlot (.stepUpdate h0 0x2000 1 false false) .running) 0x2000 1 false false (2 ^ 64)
      (run (onU 1) (.stepUpdate h0 0x2000 1 false false))).2.1 = .ok ∧
    Ends (onU 1) (.stepUpdate h0 0x2000 1 false false) .ok 1 ∧
    ((done (onU 1) (.stepUpdate h0 0x2000 1 false false)).bay 0).train.applied = [1] ∧
    -- the first moment is the gradient, the master 0 - 3 / (3 + 1)
    (done (onU 1) (.stepUpdate h0 0x2000 1 false false)).readBay 0 0x40020040 4 = toLe 4 0x40400000 ∧
    (done (onU 1) (.stepUpdate h0 0x2000 1 false false)).readBay 0 0x40020000 4 = toLe 4 0xBF400000 := by decide +kernel
def arm1 : Arm := ⟨3, 1, 0, false, hyperOf hyperBytes, one32, false, [], NormAcc.zero, [], 0⟩
def hArm : Hdr := { h0 with adm := 3, signal := none }
def onArm : State := (on' fun y => { y with
  groups := [grp 1], train := { y.train with map := some (mapOf 1), applied := [0], arm := some arm1 } })
def withArm (i : Instr) : State := { onArm with
  cmds := [mkSlot i .running, mkSlot (.updateArm hArm 0x2000 1 0 false) .active], nextAdm := 4 }
theorem witness_updateDisarm : Running (withArm (.updateDisarm h0 1)) (mkSlot (.updateDisarm h0 1) .running) (.updateDisarm h0 1) ∧
    Ended (after (.updateDisarm h0 1) (withArm (.updateDisarm h0 1))) (mkSlot (.updateDisarm h0 1) .running) .ok 0 ∧
    Ended (after (.updateDisarm h0 1) (withArm (.updateDisarm h0 1))) (mkSlot (.updateArm hArm 0x2000 1 0 false) .active) .aborted 0 := by
  decide +kernel
theorem witness_segment : let s := withArm (.nop h0)
    (mapOf 1).tensor? 7 = some rec7 ∧ (mapOf 1).elems rec7 = 4 ∧ (s.bay 0).copying = false ∧
    (after (.updateSegmentArrival 0 7 [0x40400000, 0, 0, 0]) s).readBay 0 0x40020000 4 = toLe 4 0xBF400000 := by decide +kernel
def gEntry : GatherEntry := ⟨7, 1, false, 0, 2, 0x4000, 64, 0⟩
theorem witness_stepGather : gatherCheck (mapOf 1) [gEntry] = none ∧
    (entryDests (mapOf 1) gEntry).any (fun r => !(onT 1 true).rangeOk 0 .wr r.1 r.2) = false ∧
    (outcome (done ((onT 1 true).writeBay 0 0x40020008 fp8) (.stepGather h0 0 [gEntry])) 0).map (·.1) = some .ok ∧
    (done ((onT 1 true).writeBay 0 0x40020008 fp8) (.stepGather h0 0 [gEntry])).readBay 0 0x4040 8 = fp8 := by decide +kernel
/-- The map with a ring of differences in a tier 2 page at bay address 2^31, after the step above. -/
def mapD : ShardMap := { mapOf 1 with diffAddr := 2 ^ 31, diffLen := 65536 }
def onX : State := { on with
  bays := ({ bay0 with
    groups := [grp 1], train := { bay0.train with map := some mapD, applied := [0] }
    pages := bay0.pages ++ [⟨2 ^ 31, false, 2 ^ 41, true, true, false, false⟩] } : Bay) :: List.replicate 15 Bay.reset }
def onX1 : State := done (onX.writeBay 0 0x2000 hyperBytes) (.stepUpdate h0 0x2000 1 false false)
theorem witness_exportStream : (State.exportEff 0 0x3000 64 1 (run onX1 (.exportStream h0 0x3000 64 1))).2.1 = .ok ∧
    Ends onX1 (.exportStream h0 0x3000 64 1) .ok (64 + 2 ^ 32) ∧
    leNat ((done onX1 (.exportStream h0 0x3000 64 1)).readBay 0 0x3008 4) = 1 := by decide +kernel

def collOps : CollOps := ⟨0, 0x5000, 4, 0, 0, 1, 0, 0, 0⟩
theorem witness_coll : let s := (onT 1 false).writeBay 0 0 fp4
    [0x0400, 0x0401, 0x0402, 0x0403].all (fun k => (s.collCheck 0 k collOps).isNone && (s.collAccess 0 (grp 1) k collOps).isNone) = true ∧
    (done s (.collAllreduce h0 collOps)).readBay 0 0x5000 16 = fp4 ∧ (outcome (done s (.collAllgather h0 collOps)) 0).isSome ∧
    (outcome (done s (.collReduceScatter h0 collOps)) 0).isSome ∧ (outcome (done s (.collBroadcast h0 collOps)) 0).isSome := by
  decide +kernel
theorem witness_groupCreate : on.groupCreateCheck 0 63 (grp 1).blk = none ∧ on.groupCreateCheck 0 63 (grp 2).blk = none ∧
    Ends on (.collGroupCreate h0 63 (grp 1).blk) .ok (1 + 2 ^ 16) ∧ Begins on (.collGroupCreate h0 63 (grp 2).blk) := by decide +kernel
theorem witness_groupDestroy : ((onT 2 false).bay 0).formed? 0 = some (grp 2) ∧
    (run (onT 2 false) (.collGroupDestroy h0 0)).groupBusy 0 0 = false ∧ Ends (onT 2 false) (.collGroupDestroy h0 0) .ok 0 := by
  decide +kernel
def joining : Group := { grp 2 with formed := false, adm := 0, joins := [⟨0, 0, 0, 0, State.reset.boot.versions, (grp 2).digest⟩] }
def onJ : State := begun (on' fun y => { y with groups := [joining] }) (.collGroupCreate h0 0 (grp 2).blk)
def join1 : JoinPacket := ⟨0, 0, 1, 9, onJ.boot.versions, joining.digest⟩
theorem witness_groupControl : join1.digest ≠ [] ∧ (joining.joins ++ [join1]).all (fun k => k.versions == onJ.boot.versions && k.digest == joining.digest) ∧
    Ended (after (.groupControl join1) onJ) (mkSlot (.collGroupCreate h0 0 (grp 2).blk) .active) .ok (2 + 2 * 2 ^ 16) ∧
    ((after (.groupControl join1) onJ).bay 0).formed? 0 ≠ none ∧
    (after (.groupControl { join1 with group := 5 }) onJ).bays.map (·.earlyJoins.length) = 1 :: List.replicate 15 0 := by decide +kernel
theorem witness_joinTimeout : let s := { onJ with clock := { onJ.clock with uptime := joining.joinNs } }
    Ended (after (.collJoinTimeout 0 0) s) (mkSlot (.collGroupCreate h0 0 (grp 2).blk) .active) .timeout 0 ∧
    ((after (.collJoinTimeout 0 0) s).bay 0).group? 0 = none := by decide +kernel
def onC : State := done ((onT 2 false).writeBay 0 0 fp4) (.collAllreduce h0 collOps)
theorem witness_abort : (onC.bay 0).colls.length = 1 ∧
    Ended (after (.groupAbort 0 0) onC) (mkSlot (.collAllreduce h0 collOps) .active) .aborted 0 := by decide +kernel
theorem witness_silent : let s := { onC with clock := { onC.clock with uptime := (grp 2).silentNs } }
    ((s.bay 0).colls.find? (fun c => c.group == 0 && (c.awaited (s.bay 0) (grp 2)).any (fun m =>
        decide ((assoc c.heard m).getD 0 + (grp 2).silentNs ≤ s.clock.uptime)))).isSome ∧
    Ended (after (.collSilentTimeout 0 0) s) (mkSlot (.collAllreduce h0 collOps) .active) .timeout 0 := by decide +kernel

def trig0 : TrigBlk := { (default : TrigBlk) with kind := 0, issuer := 0, waitCtr := 255, signalEn := true, thresh := 1, signalCtr := 7, length := 64, dst := 0x6000 }
theorem witness_trigger : let s := begun on (.nop h0)
    s.trigCheck 0 trig0 = some .badParam ∧ s.trigCheck 0 { trig0 with vc := 1 } = none ∧
    Ends on (.triggerArm h0 { trig0 with vc := 1 }) .ok 0 := by decide +kernel
def onTrig (due : Bool) (err : Bool) : State := on' fun y => { y with
  trigs := [⟨3, { trig0 with vc := 1 }, due, 0, false⟩], counters := y.counters.set 255 ⟨1, err⟩ }
theorem witness_triggerDisarm : Ends (onTrig false false) (.triggerDisarm h0 3) .ok 0 ∧
    ((done (onTrig false false) (.triggerDisarm h0 3)).bay 0).trigs = [] := by decide +kernel
theorem witness_triggerFire : ((onTrig true true).bay 0).runs = true ∧
    nth ((after (.triggerFire 0 3) (onTrig true true)).bay 0).counters 7 = ⟨1, true⟩ ∧
    nth ((after (.triggerFire 0 3) (onTrig true false)).bay 0).counters 7 = ⟨1, false⟩ ∧
    (after (.triggerFire 0 3) ((onTrig true false).writeBay 0 0 fp4)).readBay 0 0x6000 16 = fp4 := by decide +kernel

/-! ### Doorbells, registers, resets -/

theorem test_doorbells : on.hostUp = true ∧ ((nth bay0.sqs 1).log2, (nth bay0.cqs 1).log2) = (6, 6) ∧
    (nth ((after (.submissionDoorbell 0 1 63 [⟨5, [9]⟩]) on).bay 0).sqs 1).tail = 63 ∧
    (after (.submissionDoorbell 0 1 63 [⟨5, [9]⟩]) on).readLoc (hostLoc 1 5) 1 = [9] ∧
    (after (.submissionDoorbell 0 1 64 []) on).bays.map (·.regs.doorbellErr) = true :: List.replicate 15 false ∧
    (nth ((after (.completionDoorbell 0 1 63) on).bay 0).cqs 1).head = 63 ∧
    (after (.completionDoorbell 0 2 0) on).bays.map (·.regs.doorbellErr) = true :: List.replicate 15 false := by decide +kernel
def ctlOn : Ctl := { Ctl.reset with
  en := true, live := true, sq := { SubQ.none_ with live := true }, cq := { CompQ.none_ with live := true } }
theorem test_ctl_doorbells : (after (.ctlSqTail 63 []) { on with ctl := ctlOn }).ctl.sq.tail = 63 ∧
    (after (.ctlSqTail 64 []) { on with ctl := ctlOn }).ctl.dbErr = true ∧
    (after (.ctlCqHead 63) { on with ctl := ctlOn }).ctl.cq.head = 63 ∧ (after (.ctlCqHead 0) on).ctl.dbErr = true ∧
    (after (.urgSqTail 63) on).urg.tailReg = 63 ∧ (after (.urgSqTail 64) on).urg.dbErr = true ∧
    (after (.urgCqHead 63) on).urg.cqHead = 63 ∧ (after (.urgCqHead 64) on).urg.dbErr = true := by decide +kernel
theorem test_registers : nth ((after (.eventCounterWrite 0 255 (.full 0x100000007)) on).bay 0).counters 255 = ⟨7, false⟩ ∧
    (after (.intMaskWrite 3) { on with dev := { on.dev with intCause := 2 } }).outs = [.irq .pf 0] ∧
    ((after (.eventMaskWrite 0 0x00770021) on).bay 0).regs.eventVector = 0x77 ∧
    (after (.registerWrite .pf 0x058 (toLe 4 5)) { on with dev := { on.dev with alarm := 7 } }).dev.alarm = 2 ∧
    (after (.registerWrite .pf 0x060 (toLe 4 5)) { on with dev := { on.dev with intCause := 7 } }).dev.intCause = 2 ∧
    ((after (.registerWrite (.vf 0) 0x010 (toLe 4 5)) (on' fun y => { y with flags := 0x187 })).bay 0).flags = 0x182 ∧
    meetRegs devRegs 0x091 2 = .refused ∧
    (after (.registerWrite .pf 0x091 [1, 2]) on).dev.intCause = 0x80 := by decide +kernel

theorem witness_controlPair : ((0x10000000 : W32) >>> 16).setWidth 10 = on.ctl.coalTime ∧ on.ctl.pairOk = true ∧
    (after (.controlPairEnable 0x10000001) on).ctl.live = true ∧
    (after (.controlPairEnable 1) { on with ctl := { on.ctl with sqLog2 := 17 } }).ctl.err = true ∧
    (after (.controlPairDisable 0) { on with ctl := ctlOn }).ctl.live = false := by decide +kernel
def onAdmin (q : Nat) : State := on' fun y => { y with
  regs := { y.regs with asqBase := 0x40000000, acqBase := 0x40001000, en := decide (q = 2), live := decide (q = 2) }
  sqs := y.sqs.set 1 { nth y.sqs 1 with cq := q - 2 } }
theorem witness_adminPair : (onAdmin 1).adminOk 0 = true ∧ ((after (.adminPairEnable 0 1) (onAdmin 1)).bay 0).regs.live = true ∧
    on.adminOk 0 = false ∧ ((after (.adminPairEnable 0 1) on).bay 0).regs.aqErr = true ∧
    ((onAdmin 2).bay 0).adminReports = true ∧ ((after (.adminPairDisable 0 0) (onAdmin 2)).bay 0).regs.aqErr = true := by decide +kernel
theorem witness_urgentPair : on.urgOpen = false ∧ 6 ≤ (0x0077000C : W32).toNat % 16 ∧
    (after (.urgentQueueEnable 0x0077000C) on).urg.cqLog2 = 12 ∧
    ((6 : W32).setWidth 4 = on.urg.cqLog2 ∧ (after (.urgentQueueDisable 6) { on with urg := { on.urg with en := true } }).urg.en = false) := by
  decide +kernel

theorem witness_aperture : (on.bay 1).st = .unbound ∧ on.rangeOk 0 .rd (2 ^ 30) 8 = true ∧
    (after (.apertureRead 1 0 4) on).outs = [.apertureData 1 0 none] ∧
    (after (.apertureWrite 0 0 [1, 2]) on).readBay 0 (2 ^ 30) 3 = [1, 2, 0] ∧
    (after (.apertureRead 0 0 3) (after (.apertureWrite 0 0 [1, 2]) on)).outs = [.apertureData 0 0 (some [1, 2, 0])] ∧
    nth ((after (.apertureWrite 0 (2 ^ 21) [1]) on).bay 0).tele 8 = 1 ∧
    ({ on with poison := [2 ^ 24] } : State).rangeBad 0 .rd (2 ^ 30) 8 = true ∧
    ({ on with poison := [2 ^ 24] } : State).rangeSkips 0 .wr (2 ^ 30) 8 = true := by decide +kernel

theorem witness_coreReset : on.coreKey ⟨0, 9⟩ = some 9 ∧ on.resetRefused 0 = false ∧ (nth on.clusters 0).good.contains 9 = true ∧
    (after (.coreReset 0x900) on).dev.intCause = 0x40 ∧ (after (.coreReset 0xA00) on).dev.rejected = true ∧
    (after (.clusterReset 0) on).dev.clusterBusy = [(0, 0)] ∧ (after (.clusterReset 31) on).dev.rejected = true := by decide +kernel
theorem witness_clusterAbsorb : let s := { (onK.writeLoc (localLoc 9 7) [1]) with
      clock := { on.clock with uptime := 100000 }, dev := { on.dev with clusterBusy := [(0, 0)] } }
    s.phys 0 = some 0 ∧ Mem.get s.local_ (9 * 2 ^ 18 + 7) = 1 ∧ (after (.clusterResetAbsorb 0) s).dev.clusterBusy = [] ∧
    Mem.get (after (.clusterResetAbsorb 0) s).local_ (9 * 2 ^ 18 + 7) = 0 ∧
    (outcome (after (.clusterResetAbsorb 0) s) 0).map (·.1) = some .aborted := by decide +kernel
theorem witness_deviceReset : on.dev.poweringDown = false ∧ on.dev.perstLow = false ∧
    (after (.deviceReset 0x57525354) on).boot.warm = true ∧ (after .pfFunctionLevelReset on).bays.map (·.st) = List.replicate 16 .unbound ∧
    (after (.pciePerstN true) on).boot.ready = false ∧ (after (.deviceReset 1) on).boot.ready = true ∧
    (after .powerInRange State.reset).dev.hold = 0 ∧ (after (.resetN true) on).dev.hold = 2 ∧
    (after (.resetN false) (after (.resetN true) on)).boot.stage = 1 := by decide +kernel

/-! ### The Joiner and the urgent queue -/

/-- A NOP entry with TAG 0x21 and SIGNAL_CTR 3, at the head of bay 0's queue 1. -/
def nopEntry : List Byte := toLe 2 0 ++ zeros 2 ++ toLe 4 0x21 ++ [0, 3, 2, 0] ++ zeros 52
def onE : State := (on' fun y => { y with sqs := y.sqs.set 1 { nth y.sqs 1 with tail := 1 } }).writeBay 0 0x40000000 nopEntry
theorem witness_entryFetch : onE.up = true ∧ onE.wantsFetch 0 = true ∧ (List.range 16).filter onE.wantsFetch = [0] ∧
    onE.nextQueue 0 = some (1, (1, 15)) ∧ ((after (.entryFetch .bays) onE).cmds.map (·.phase)) = [.held] ∧
    ((after (.entryFetch .bays) onE).cmds.map (fun c => (c.hdr.tag, c.hdr.signal))) = [(0x21, some 3)] := by decide +kernel
def held1 : Slot := mkSlot (.nop h0) .held
def onH (c : Slot) : State := { on with cmds := [c], nextAdm := 1 }
theorem witness_dispatch : (onH held1).slot? 0 = some held1 ∧ (onH held1).mayStart 0 held1 = true ∧ (onH held1).atDispatch 0 held1 = none ∧
    (outcome (after (.commandDispatch 0) (onH { held1 with errSample := some true })) 0) = some (.aborted, 0) ∧
    ((after (.commandDispatch 0) (onH held1)).slot? 0).map (·.phase) = some .running ∧
    (onH (mkSlot (.nop hc) .held)).mayStartControl (mkSlot (.nop hc) .held) = true := by decide +kernel
theorem witness_post : let s := done on (.nop h0)
    s.nextPost (.bay 0 1) = s.slot? 0 ∧ (nth (s.bay 0).cqs 1).live = true ∧ ringFull 6 0 0 = false ∧
    (after (.completionPost (.bay 0 1)) s).readBay 0 0x40001000 16 = zeros 8 ++ toLe 4 7 ++ zeros 2 ++ [3, 0] ∧
    (after (.completionPost (.bay 0 1)) s).cmds = [] := by decide +kernel
theorem witness_coalesce : let s := { (on' fun y => { y with
      cqs := y.cqs.set 1 { nth y.cqs 1 with coalCount := 2, coalTime := 5, posted := 1, firstAt := some 0, vector := 119 } }) with
      clock := { on.clock with uptime := 5000 } }
    (nth (s.bay 0).cqs 1).due s.now = false ∧ (nth (s.bay 0).cqs 1).due 5000 = true ∧
    (after (.coalesceTimer (.bay 0 1)) { s with clock := { s.clock with site := 5000 } }).outs = [.irq (.vf 0) 119] := by decide +kernel
def onUrg : State := { on with
  urg := { on.urg with en := true, tailReg := 1 }
  urgRing := Mem.write [] [] 0 (toLe 2 0x0F02 ++ zeros 2 ++ toLe 4 5 ++ zeros 56) }
theorem witness_urgent : onUrg.urg.holding = none ∧ onUrg.urg.head ≠ onUrg.urg.tailReg ∧
    (after .urgentDoorbellSample onUrg).urg.head = 1 ∧ (after .urgentDoorbellSample onUrg).nextAdm = 1 ∧
    (after .urgentDoorbellSample (after .urgentDoorbellSample onUrg)).urg.head = 1 := by decide +kernel

/-! ### Halts, evictions, transactions -/

/-- A state with bay 0 changed, and one urgent command. -/
def bayIs (st : BayState) (g : Flow → Flow) : State := on' fun y => { y with st := st, flow := g y.flow }
def onFresh : State := { on with urg := { on.urg with en := true, holding := some 0 } }
/-- An urgent command runs whose bay was in state `st` when it was decoded. -/
def met (st : BayState) (i : Instr) : Slot := { mkSlot i .running with work := st.code }
def runMet (s : State) (st : BayState) (i : Instr) : State := { s with cmds := [met st i], nextAdm := 1 }
/-- It ends so on a bay that is still in that state. -/
abbrev EndsMet (st : BayState) (i : Instr) (o : Status) (r : Nat) : Prop :=
  Running (runMet (bayIs st id) st i) (met st i) i ∧ (met st i).metState = st ∧
    Ended (after i (runMet (bayIs st id) st i)) (met st i) o r
theorem witness_urgentOpcodes :
    EndsMet .unbound (.haltBay hu 0) .notBound 0 ∧ EndsMet .binding (.resumeBay hu 0) .notBound 0 ∧
    EndsMet .evicting (.haltBay hu 0) .conflict 0 ∧ EndsMet .unbound (.evictBay hu 0 1) .notBound 0 ∧
    EndsMet .active (.resumeBay hu 0) .ok 0 := by
  decide +kernel
theorem witness_urgentOpcodes_halted :
    EndsMet .halted (.resumeBay hu 0) .ok 0 ∧ EndsMet .halted (.haltBay hu 0) .ok 0 ∧
    Begun (after (.haltBay hu 0) (runMet on .active (.haltBay hu 0))) (met .active (.haltBay hu 0)) ∧
    ((after (.haltBay hu 0) (runMet on .active (.haltBay hu 0))).bay 0).st = .quiescing := by decide +kernel
/-- Bay 0 with the map, a page of kerf memory and a layout in it. -/
def lay : CutBlk := ⟨false, 2 ^ 32, 2 ^ 32 + 0x1000, 2 ^ 32 + 0x2000, 2 ^ 32 + 0x3000⟩
def onKerf (g : Bay → Bay) : State := (on' fun y => g { y with
  groups := [grp 1]
  train := { y.train with map := some (mapOf 1), applied := [0] }
  pages := y.pages ++ [⟨2 ^ 32, false, 2 ^ 41, true, true, false, true⟩]
  ckpt := { y.ckpt with layout := some lay } }).writeBay 0 0x2000 hyperBytes
def evState (g : Bay → Bay) : State := { (onKerf g) with
  urg := { on.urg with en := true, holding := some 0 }
  cmds := [met .active (.evictBay hu 0 1), mkSlot (.stepUpdate { h0 with adm := 1 } 0x2000 1 false false) .running], nextAdm := 2 }
def evicting (late : Nat) : State :=
  { (evState fun y => { y with st := .evicting, flow := { y.flow with evict := some (0, 1, 0) } }) with
    clock := { on.clock with uptime := late } }
theorem witness_evict : (evState id).evictCheck 0 1 false = none ∧ (evState id).boundary 0 = none ∧
    Running (evState id) (met .active (.evictBay hu 0 1)) (.evictBay hu 0 1) ∧
    ((after (.evictBay hu 0 1) (evState id)).bay 0).st = .evicting ∧ (after (.evictBay hu 0 1) (evState id)).urg.holding = none ∧
    ((evicting 0).bay 0).evictWaits = true ∧ ({ evicting 0 with cmds := [] } : State).boundary 0 = some 0 := by decide +kernel
def evAlone (late : Nat) : State := { evicting late with cmds := [mkSlot (.evictBay hu 0 1) .active] }
theorem witness_evictEnds : ((evAlone 4500000000).bay 0).evictWaits = true ∧
    ((after (.evictTimeout 0) (evAlone 4500000000)).bay 0).flow.evictLate = true ∧
    ((after (.evictTimeout 0) (evAlone 4500000000)).bay 0).st = .evicting ∧
    ((after (.evictBoundaryReached 0) (evAlone 0)).bay 0).flow.heldFrom.isSome = true := by decide +kernel
theorem witness_halted : let s := { (bayIs .quiescing fun f => { f with halts := [(0, 5)] }) with
      cmds := [mkSlot (.haltBay hu 0) .active], nextAdm := 1 }
    Ended (after (.bayHalted 0) s) (mkSlot (.haltBay hu 0) .active) .ok 5 ∧ ((after (.bayHalted 0) s).bay 0).st = .halted := by
  decide +kernel
theorem witness_absorb : let s := { (bayIs .quiescing id) with clock := { on.clock with uptime := 12000 } }
    (s.bay 0).halting = true ∧ nth ((after (.haltMemoryAbsorb 0 9) s).bay 0).tele 9 = 9 ∧
    nth ((after (.haltFlushLate 0) s).bay 0).tele 10 = 1 := by decide +kernel
theorem witness_bayReset : (mkSlot (.bayReset hc 0 true) .running).bay? = none ∧
    Ends (bayIs .unbound id) (.bayReset hc 0 true) .notBound 0 ∧
    Ends (on' fun y => { y with st := .binding, txn := some [] }) (.bayReset hc 0 false) .ok 0 ∧
    Begins on (.bayReset hc 0 true) ∧ ((after (.vfFunctionLevelReset 0) on).bay 0).flow.reset = some (none, false, true) := by
  decide +kernel
theorem witness_bayReset_end : let s := (bayIs .quiescing fun f => { f with reset := some (none, false, true) })
    ((after (.bayHalted 0) s).bay 0).st = .active ∧ nth ((after (.bayHalted 0) s).bay 0).sqs 1 = SubQ.none_ := by decide +kernel

def stage1 : Instr := .bindCluster hc 0 false 2
theorem witness_txn : Ends (on' fun y => { y with st := .unbound }) (.txnBegin hc 0) .ok 0 ∧ on.bindCheck stage1 = none ∧
    Ends (on' fun y => { y with txn := some (List.replicate 63 ⟨stage1⟩) }) stage1 .deferred 0 ∧
    Ends (on' fun y => { y with txn := some (List.replicate 64 ⟨stage1⟩) }) (.txnRollback hc 0) .ok 64 ∧
    Ends (on' fun y => { y with txn := some [] }) (.txnCommit hc 0 50000) .ok 0 := by decide +kernel
def onPeg (i : Instr) : State := on' fun y => { y with txn := some [⟨i⟩] }
theorem witness_commit :
    (onPeg stage1).pegTest 0 [⟨stage1⟩] = .inr { bay0.bind with clusters := 3 } ∧ Begins (onPeg stage1) (.txnCommit hc 0 0) ∧
    (onPeg (.bindCluster hc 0 true 2)).pegTest 0 [⟨.bindCluster hc 0 true 2⟩] = .inl (2 * 2 ^ 16) ∧
    Ends (onPeg (.bindCluster hc 0 true 2)) (.txnCommit hc 0 0) .conflict (2 * 2 ^ 16) ∧
    (done (onPeg stage1) (.txnCommit hc 0 0)).peg.map (·.drainNs) = some 2000000 := by decide +kernel
/-- A commit that takes cluster 0 and granule 1 away has been dispatched; its drain has ended. -/
def onDrained : State := { (begun (onFp.writeBay 0 (2 ^ 30) [9]) (.txnCommit hc 0 0)) with
  version := 1, peg := some ⟨0, 0, 0, 0, 1, [1], 3, true, bay0.bind, bay0.pages⟩ }
theorem witness_peg : onDrained.peg ≠ none ∧ Ended (after .pegComplete onDrained) (mkSlot (.txnCommit hc 0 0) .active) .ok (1 + 3 * 2 ^ 32) ∧
    (after .pegComplete onDrained).readBay 0 0 16 = zeros 16 ∧ (after .pegComplete onDrained).readBay 0 (2 ^ 30) 1 = [0] ∧
    ((after .pegDrainLimit { onDrained with peg := some ⟨0, 0, 0, 0, 1, [1], 3, false, bay0.bind, bay0.pages⟩ }).peg.map (·.drained)) = some true := by
  decide +kernel

/-! ### Suppression, resumption, stamps, stores -/

def hs : Hdr := { h0 with suppress := true }
theorem witness_suppress : (mkSlot (.nop hs) .running).quiet = false ∧ (mkSlot (.nop hs) .running).finished? = false ∧
    Ends on (.nop hs) .ok 0 ∧ (done on (.nop hs)).cmds = [] ∧ nth ((done on (.nop hs)).bay 0).counters 255 = ⟨1, false⟩ ∧
    outcome (State.finishNat (run on (.nop hs)) 0 .badParam 7) 0 = some (.badParam, 7) ∧
    nth ((State.finishNat (run on (.nop hs)) 0 .badParam 7).bay 0).counters 255 = ⟨1, true⟩ := by decide +kernel
theorem witness_resume : (bayIs .halted id).wantsFetch 0 = false ∧
    (after (.resumeBay hu 0) (runMet { onE with bays := (onE.bays.map fun y => if y.st = .active then { y with st := .halted } else y) }
      .halted (.resumeBay hu 0))).wantsFetch 0 = true := by
  decide +kernel
theorem witness_rebound :
    let c := mkSlot (.matmul h0 { mmBlk with mask := 2 }) .held
    (onH c).up = true ∧ (onH c).mayStart 0 c = true ∧ (named c.instr &&& ~~~((onH c).bay 0).bind.clusters) ≠ 0 ∧
    outcome (after (.commandDispatch 0) (onH c)) 0 = some (.rebound, 0) ∧
    nth ((after (.commandDispatch 0) (onH c)).bay 0).counters 255 = ⟨1, true⟩ := by decide +kernel
theorem witness_stamp : let s := { (onPeg stage1) with
      cmds := [mkSlot (.txnCommit hc 0 0) .running, mkSlot (.nop { h0 with adm := 5 }) .held], nextAdm := 6 }
    CommandsNumbered s ∧ ((after (.txnCommit hc 0 0) s).slot? 5).map (·.stamp) = some 1 ∧ ((after (.entryFetch .bays) { onE with version := 4 }).cmds.map (·.stamp)) = [4] := by
  decide +kernel
theorem witness_store : let s := { on with poison := [(2 ^ 30 + 64) / 64] }
    MemoriesCanonical s ∧ coversLine (2 ^ 30) 65 (2 ^ 24 + 1) = false ∧ coversLine (2 ^ 30) 65 (2 ^ 24) = true ∧
    (s.writeLoc ⟨.dram, 2 ^ 30⟩ (List.replicate 65 7)).readLoc ⟨.dram, 2 ^ 30 + 63⟩ 2 = [7, 0] := by decide +kernel

/-! ### Checkpoints -/

theorem witness_cut : let s := onKerf id
    s.cutCheck 0 0 { lay with layoutOnly := true } = none ∧ s.cutCheck 0 5 lay = none ∧ s.boundary 0 = some 0 ∧
    Ends s (.ckptCut h0 0 { lay with layoutOnly := true }) .ok 0xFFFFFFFF ∧ Begins s (.ckptCut h0 5 lay) ∧
    (((done s (.ckptCut h0 5 lay)).bay 0).ckpt.cut.map (fun k => (k.id, k.st, k.adm))) = some (5, .copying, some 0) ∧
    on.boundary 0 = none ∧ (((done on (.ckptCut h0 5 lay)).bay 0).ckpt.cut.map (·.st)) = some .pending := by decide +kernel
def heldCut : Cut := { newCut 5 lay none false false with st := .held, mapRaw := mapBytes 1 }
def onCut (k : Cut) : State := onKerf fun y => { y with ckpt := { y.ckpt with cut := some k } }
theorem witness_copy : let s := begun (onCut { heldCut with adm := some 0, st := .copying }) (.ckptCut h0 5 lay)
    s.kerfLarge 0 lay = true ∧ s.copyStatus 0 (kerfCopies (mapOf 1) lay) = none ∧
    Ended (after (.cutCopy 0) s) (mkSlot (.ckptCut h0 5 lay) .active) .ok 0 ∧
    (((after (.cutCopy 0) (onCut { heldCut with st := .pending })).bay 0).ckpt.cut.map (·.st)) = some .copying := by decide +kernel
/-- The held cut drained to 0x40100000. -/
def drainTo : Instr := .ckptDrain h0 0x40100000 5 0 0xFF
def onDr : State := done (onCut heldCut) drainTo
theorem witness_drain : (onCut heldCut).drainCheck 0 0x40100000 5 0 0xFF = none ∧ (onCut heldCut).codecLanes ≠ [] ∧
    (onCut heldCut).drainReads 0 (mapOf 1) lay ((onCut heldCut).streamPlan 0 (mapOf 1) heldCut none) = none ∧
    Running (run (onCut heldCut) drainTo) (mkSlot drainTo .running) drainTo := by decide +kernel
theorem witness_release : Ends (onCut heldCut) (.ckptRelease h0 5) .ok 0 ∧
    ((done (onCut heldCut) (.ckptRelease h0 5)).bay 0).ckpt.cut = none ∧ Ends (onCut heldCut) (.ckptRelease h0 6) .badParam 0 := by
  decide +kernel
theorem witness_predictive : let s := onKerf fun y => { y with warned := true }
    s.kerfLarge 0 lay = true ∧ (s.bay 0).undrained = none ∧
    ((after (.predictiveCut 0) s).bay 0).ckpt.cut = some (newCut deviceCut lay none true false) := by decide +kernel
theorem witness_drained : outcome onDr 0 = some (.ok, 8192) ∧ ((onDr.bay 0).ckpt.cut.map (·.st)) = some .drained := by decide +kernel
/-- A manifest at 0x40100000 of an incremental drain that found nothing changed: its stream is empty. -/
def onMf : State :=
  let s := onKerf fun y => { y with ckpt := { y.ckpt with lastRestore := some (zeros 32) } }
  let m := s.manifestBody (mapOf 1) heldCut 2 false (some ⟨0, 0, zeros 32, 0⟩) 0 0 0 (sha256 [])
  s.writeBay 0 0x40100000 (m.take 0xB0 ++ manifestDigest m ++ m.drop 0xD0)
theorem witness_verify_restore : (State.verifyEff 0 0x40100000 0x40101000 0xFF onMf).2 = (.ok, 1) ∧
    (State.restoreEff 0 0 0x40100000 0x40101000 0xFF onMf).2 = (.ok, 0) := by decide +kernel

/-! ### Keys, cipher, entropy, alarms, licences, diagnostics -/

/-- A key that is not zero, in XTS halves that differ. -/
def onKey : State := on.writeBay 0 0 (1 :: zeros 63)
def onHot : State := { onKey with dev := { onKey.dev with condition := 2 } }
theorem witness_keyLoad : onKey.ioStatus 0 [(0, keyBytes 1)] [] = none ∧ (onKey.bay 0).join = none ∧
    keyOf 1 (onKey.readBay 0 0 64) = some (.xts (1 :: zeros 31) (zeros 32)) ∧ onKey.keyBusy 0 0 3 = false ∧
    Ends onKey (.keyLoad h0 3 1 0) .ok 0 ∧ Ends onKey (.keyLoad h0 3 1 64) .badParam 0 ∧
    nth ((done onKey (.keyLoad h0 3 0 0)).bay 0).keys 3 = .gcm (1 :: zeros 31) ∧ Begins onHot (.keyLoad h0 3 1 0) := by decide +kernel
theorem witness_conditionCleared :
    let c := { mkSlot (.keyLoad h0 0 0 0) .active with data := zeros 32 }
    let s := { onHot with cmds := [c], nextAdm := 1, trng := { on.trng with ready := true } }
    Ended (after .alarmConditionCleared s) c .ok 0 ∧ nth ((after .alarmConditionCleared s).bay 0).keys 0 = .gcm (zeros 32) ∧
    (after .alarmConditionCleared s).trng.ready = false := by decide +kernel
theorem witness_keyErase : (on.bay 0).joinHolds 3 = false ∧
    nth ((done (done onKey (.keyLoad h0 3 1 0)) (.keyErase { h0 with adm := 1 } 3)).bay 0).keys 3 = .empty ∧
    Ends on (.keyErase h0 3) .ok 0 ∧ Ends on (.keyErase h0 0xFF) .ok 0 := by decide +kernel
/-- AES-256-GCM with a zero key, IV and block: test case 14 of the GCM specification. -/
def onGcm : State := on' fun y => { y with keys := y.keys.set 0 (.gcm (zeros 32)) }
def gcmRun : Instr := .cipherRun h0 ⟨0x100, 0x200, 16, 0, false, 0, 0, 0x300⟩
theorem test_gcm : Ends onGcm gcmRun .ok 16 ∧
    beNat ((done onGcm gcmRun).readBay 0 0x200 16) = 0xcea7403d4d606b6e074ec5d3baf39d18 ∧
    beNat ((done onGcm gcmRun).readBay 0 0x310 16) = 0xd0d1c8a799996bf0265b98b5d48ab919 := by decide +kernel
/-- SHA-256 of "abc" (FIPS 180-4's example). -/
theorem test_digest : let s := on.writeBay 0 0 [0x61, 0x62, 0x63]
    s.ioStatus 0 [(0, 3)] [(0x100, 32)] = none ∧ Ends s (.digestRun h0 0 0x100 3) .ok 0 ∧
    beNat ((done s (.digestRun h0 0 0x100 3)).readBay 0 0x100 32) =
      0xba7816bf8f01cfea414140de5dae2223b00361a396177a9cb410ff61f20015ad := by decide +kernel
def onPool : State := { on with trng := { on.trng with ready := true, pool := [1, 2, 3] } }
theorem witness_entropy : Ends onPool (.entropyRead h0 0x100 2) .ok 2 ∧ (done onPool (.entropyRead h0 0x100 2)).trng.pool = [3] ∧
    (done onPool (.entropyRead h0 0x100 2)).readBay 0 0x100 2 = [1, 2] ∧ Begins onPool (.entropyRead h0 0x100 4) ∧
    Ended (after .trngHealthFailure (done onPool (.entropyRead h0 0x100 4))) (mkSlot (.entropyRead h0 0x100 4) .active) .notReady 0 := by
  decide +kernel
/-- 1,024 samples that alternate: no run, each value 512 times. -/
def window : List Bool := (List.range 1024).map (fun i => i % 2 == 0)
theorem witness_trng : ((after (.trngOutput window) onPool).trng.pool.length) = 35 ∧ window.length = 1024 ∧
    (repeats 41 window onPool.trng.run.1 onPool.trng.run.2, proportionOk window) = (false, true) ∧
    -- 41 equal samples in a row, and a first sample that occurs 800 times
    (after (.trngOutput (List.replicate 41 true ++ window.drop 41)) onPool).trng.pool = [] ∧
    (after (.trngOutput ((List.range 1024).map (fun i => i % 5 != 4))) onPool).trng.ready = false ∧
    onPool.trng.reservations = [] ∧ (after .trngHealthFailure { on with trng := { on.trng with failures := 2 } }).trng.stuck = true ∧
    (after .trngHealthFailure { on with trng := { on.trng with failures := 1 } }).trng.stuck = false ∧
    (after .trngStartupDone on).trng.ready = true ∧ on.trng.stuck = false := by decide +kernel
theorem witness_keyAlarm : onGcm.dev.condition.getLsbD 3 = false ∧ onGcm.dev.hold ≠ 1 ∧
    (after (.keyAlarm 3) onGcm).dev.alarm.toNat = 0x28 ∧ ((after (.keyAlarm 3) onGcm).bay 0).keys = List.replicate 4 .empty ∧
    (after (.keyAlarm 0) onGcm).dev.condition.toNat = 1 := by decide +kernel

/-- A licence of every feature for UID 5, signed with the private key of RFC 8032's first Ed25519 test. -/
def licence9 : List Byte := toLe 4 0x4D514C43 ++ [1, 0, 2, 0x57] ++ toLe 16 5 ++ toLe 4 9 ++ zeros 12 ++ toLe 8 (2 ^ 64 - 1) ++ zeros 16
def sign9 : List Byte :=
  toLe 64 0x135472fe49380a3b92d61728b04a2f0912d01ecebf9ccb9ac804e0f0ce31db2d9ea7320658b7b6db60be8165c2c174dacda59c83252c1e0fc38642e69e4a19e
def onLic : State := { on.writeLoc (hostLoc 0 0x1000) (licence9 ++ sign9) with
  factory := { on.factory with
    uid := 5
    romKeys := [[], [], toLe 32 0x1a5107f7681a02af2523a6daf372e10e3a0764c9d3fe4bd5b70ab18201985ad7, []] } }
def install : Instr := .licenceInstall hc 0x1000 128
theorem witness_licence : (State.licenceInstallEff 0x1000 128 onLic).2.1 = .ok ∧
    (State.licenceInstallEff 0x1000 128 onLic).1.effFeat = ⟨true, true, true, 2, true⟩ ∧
    Running (run onLic install) (mkSlot install .running) install ∧
    (after .licenceWindowEdge { on with clock := { on.clock with todSeen := true } }).effFeat = ⟨true, false, false, 0, false⟩ := by
  decide +kernel

theorem witness_diag : telemetryCheck h0 0 = none ∧ telemetryCheck h0 0x80 = some .accessDenied ∧ telemetryCheck hc 0xB0 = none ∧
    (State.telemetryEff h0 0 0x100 192 on).2 = (.ok, 192) ∧ (on.window 0).length = 192 ∧
    (on.putOut (.bay 0 1) 0x100 (on.seasonBytes.take 33) 33).2.1 = .ok ∧ (on.seasonBytes.take 33).length = 33 ∧
    (State.floorplanEff h0 0 0x100 33 on).2 = (.ok, 257) ∧ (mkSlot (.floorplanRead h0 0x100 33) .running).bay? = some 0 ∧
    on.portInUse 11 = false ∧ on.portInUse 17 = false := by decide +kernel

/-! ### The fabric -/

def onPort (g : Port → Port) : State := { on with ports := g { Port.reset with state := 3 } :: List.replicate 11 Port.reset }
def flitOf (kind fseq : Nat) (payload : List Byte) : Flit :=
  let f : Flit := ⟨true, 0, kind, fseq, 4095, 0, 0, 0, payload⟩
  { f with crc := BitVec.ofNat 32 (flitCrc f) }
theorem witness_flit : (onPort id).port 0 = { Port.reset with state := 3 } ∧ flitIntact (flitOf 0 0 (zeros 64)) = true ∧
    ((after (.flitReceive 0 (flitOf 0 0 (zeros 64))) (onPort id)).port 0).rxLast = 0 ∧
    ((after (.flitReceive 0 (flitOf 0 1 (zeros 64))) (onPort id)).port 0).asked = some 4095 ∧
    ((after (.flitReceive 0 (flitOf 0 1 [])) (onPort fun x => { x with state := 2, goodFlits := 998 })).port 0).state = 2 ∧
    ((after (.flitReceive 0 (flitOf 0 1 [])) (onPort fun x => { x with state := 2, goodFlits := 999 })).port 0).state = 3 := by
  decide +kernel
def pkt : Packet := ⟨0xFFF, 1, 2, 0, 0, 0, 0, 2 ^ 30, 5, [7]⟩
theorem witness_stomp : let s := onPort fun x => { x with await := [pkt, { pkt with tag := 6 }], replay := [flitOf 0 3 []] }
    ((after (.replayRequest 0 (flitOf 0 0 [])) s).port 0).replayCount = 1 ∧
    (after (.replayRequest 0 (flitOf 0 0 [])) s).outs.length = 1 ∧
    ((after (.stompFlit 0 (flitOf 0 0 (toBe 4 (2 ^ 16 + 5)))) s).port 0).rx = [{ pkt with tag := 6 }] ∧
    ((after (.packetRelay 0 { pkt with dnode := 9 }) s).port 0).relayed = 1 := by decide +kernel
theorem witness_lanes : ((onPort id).port 0).lanes.contains 15 = true ∧
    ((after (.laneLossOfLock 0 15) (onPort id)).port 0).lanes = List.range 15 ++ [16] ∧
    ((after (.laneLossOfLock 0 2) (after (.laneLossOfLock 0 15) (onPort id))).port 0).lanes = [0, 1, 3, 4, 5, 6, 7, 8] ∧
    ((after (.laneLossOfLock 0 0) (onPort fun x => { x with state := 4 })).port 0).state = 0 ∧
    ((after (.laneLossOfLock 0 0) (onPort fun x => { x with badLanes := [16] })).port 0).state = 4 := by decide +kernel
def errsOf (l : List Nat) : List Nat := (List.range 17).map (fun k => if l.contains k then 400001 else 400000)
theorem witness_portRetry : on.up = true ∧ badOf (errsOf [3]) 17 = [3] ∧
    ((after (.portRetry 0 true (errsOf [3])) (onPort fun x => { x with state := 0, noPartner := true })).port 0).state = 2 ∧
    ((after (.portRetry 0 true (errsOf [3, 4])) (onPort fun x => { x with state := 0, inOperation := true })).port 0).state = 2 ∧
    ((after (.portRetry 0 true (errsOf [3, 4])) (onPort fun x => { x with state := 0, inOperation := true })).port 0).lanes.length = 16 ∧
    ((after (.portRetry 0 true (errsOf [3, 4])) (onPort fun x => { x with state := 0, noPartner := true })).port 0).state = 0 := by decide +kernel

/-- Bay 0 in a group of two: node 0xFFF, the device's own, and node 1. -/
def onM : State := { onT 2 false with nv := { on.nv with node := 0xFFF, routes := [(1, 4)] } }
theorem witness_packets : (onM.groupOf pkt).isSome ∧ (onM.takePacket pkt).fabricOk 0 .wr (2 ^ 30) 1 = true ∧
    (onM.takePacket pkt).rangeSkips 0 .wr (2 ^ 30) 1 = false ∧ (after (.fabricWrite pkt) onM).readBay 0 (2 ^ 30) 1 = [7] ∧
    ((after (.fabricWrite pkt) onM).port 2).txq.map (·.pkt) = [{ pkt with dnode := 1, snode := 0xFFF, typ := 2, data := [] }] ∧
    (onM.groupOf { pkt with snode := 2 }).isNone ∧
    ((after (.fabricWrite { pkt with snode := 1, offset := 5 }) onM).port 2).txq.map (·.pkt.data) = [[1]] ∧
    ((after (.readRequest { pkt with data := toLe 4 2 }) (after (.apertureWrite 0 0 [4, 5]) onM)).port 2).txq.map (·.pkt.data) = [[4, 5]] ∧
    nth ((after (.counterAdd { pkt with offset := 255, data := toLe 8 3 ++ [1] }) onM).bay 0).counters 255 = ⟨3, true⟩ ∧
    (after (.counterAdd { pkt with snode := 2 }) onM).bays = onM.bays := by decide +kernel
def xfer1 : Xfer := ⟨some 0, none, 0, 6, none, some 1, 0, 2 ^ 30, [(0, 64)], [], []⟩
def onXfer : State := { onM with
  bays := (onM.bays.map fun y => if y.st = .active then { y with xfers := [xfer1] } else y)
  cmds := [mkSlot (.memCopy h0 0 (2 ^ 47 + 2 ^ 41 + 2 ^ 30) 64) .active], nextAdm := 1 }
def ack1 : Packet := { pkt with vc := 6, typ := 2, tag := 0, data := [] }
theorem witness_response : ((onXfer.findXfer (grp 2) ack1).map (fun r => (r.1, r.2.2))) = some (0, ((0, 64), 0)) ∧
    onXfer.groupOf ack1 = some (grp 2) ∧ (onXfer.takePacket ack1).findXfer (grp 2) ack1 = onXfer.findXfer (grp 2) ack1 ∧
    (outcome (after (.readResponse ack1) onXfer) 0).map (·.1) = some .ok := by decide +kernel
def seg1 : CollSeg := ⟨0, 0, 0, 1, 2, 0x0400, collOps, false, 1, 2, 0, [0], 0⟩
def gseg : GatherSeg := ⟨0, 1, 0, 0, gEntry, 1, 1, 2, 0, [fp8]⟩
theorem witness_segments : (onC.coll? 0 0 0).isSome ∧ onM.coll? 0 0 0 = none ∧ onM.collAhead 0 0 0 = true ∧
    ((after (.collectiveSegment seg1) onM).bay 0).earlyColls = [seg1] ∧ ((after (.gatherSegment gseg) onM).bay 0).train.earlyRows = [gseg] := by
  decide +kernel
theorem witness_rows : let s := done (onT 2 true) (.stepGather h0 0 [gEntry])
    (s.bay 0).train.gathers.any (fun x => x.step == 0 && x.index == 0) = true := by decide +kernel

/-! ### Repair, boot, power, time -/

def onCl (p : Nat) (g : Cluster → Cluster) : State := { on with clusters := updNth on.clusters p g }
theorem witness_cube : let s := onCl 33 fun c => { c with failing := [(3, 63)] }
    s.up = true ∧ s.physIdle 33 = true ∧ ((nth s.clusters 33).freeSpares 3).length = 4 ∧
    (nth (after (.cubeSubstitution 33 3 63) s).clusters 33).failing = [] ∧
    let u := onCl 33 fun c => { c with failing := [(3, 63)], spares := (List.range 4).map (fun k => (3, k, 64 + k)) }
    (nth u.clusters 33).freeSpares 3 = [] ∧ (nth (after (.cubeSubstitution 33 3 63) u).clusters 33).fenced = [3] := by decide +kernel
theorem witness_coreRetirement : let s := onCl 31 fun c => { c with coreUnc := [(9, 2)], bankUnc := [(67, 2)] }
    s.mayRetire 31 = true ∧ (s.core 319).launch = none ∧ (nth s.clusters 31).good.contains 9 = true ∧
    (after (.coreRetirement 31 9) s).flash.repairCores = [(31, 9)] ∧ (nth (after (.coreRetirement 31 9) s).clusters 31).good.contains 9 = false ∧
    (bitsSet (nth s.clusters 31).goodBanks).length = 68 ∧ (after (.bankRetirement 31 67) s).flash.repairBanks = [(31, 67)] ∧
    (after (.coreRetirement 31 8) s).flash.repairCores = [] := by decide +kernel
theorem witness_clusterRetirement :
    let s := { (onCl 31 fun c => { c with retiring := true }) with sram := [(31 * 2 ^ 25 + 5, 9)] }
    let u := onCl 0 fun c => { c with retiring := true }
    s.phys 31 = some 31 ∧ s.waiting 1 = [31] ∧ s.spares 1 = [32, 33] ∧ (after (.clusterRetirement 31) s).phys 31 = some 32 ∧
    (after (.clusterRetirement 31) s).sram = [(32 * 2 ^ 25 + 5, 9)] ∧ (after (.clusterRetirement 31) s).flash.repair = [31] ∧
    u.waiting 0 = [0] ∧ u.spares 0 = [] ∧ (after (.clusterRetirement 0) u).lrisk = [0] ∧
    (nth (after (.clusterRetirement 0) u).clusters 0).offsetMv = 40 := by decide +kernel

def norm1 : Instr := .normClip h0 0 1 0x3F800000
theorem witness_recovery : let s := begun on norm1
    (s.countUncorr 5).paths (some 0) 5 .operand = [1, 2] ∧ (mkSlot norm1 .active).bay? = some 0 ∧
    ((after (.lineRecovery 5 .operand 0 1 30) s).slot? 0).map (·.corrected) = some true ∧
    nth ((after (.lineRecovery 5 .operand 0 1 30) s).bay 0).tele 4 = 30 ∧
    (after (.lineRecovery 5 .operand 0 2 30) s).poison = [5] ∧
    (outcome (after (.lineRecovery 5 .operand 0 2 30) s) 0) = some (.machineCheck, 0) := by decide +kernel
theorem witness_refresh : nth ((after (.dramRefresh 0 false 1000) on).bay 0).tele 0 = 304 ∧
    nth ((after (.dramRefresh 0 true 1000) on).bay 0).tele 0 = 656 ∧ nth ((after (.dramRefresh 0 true 655) on).bay 0).tele 0 = 655 := by
  decide +kernel
theorem witness_season : let s := { on with
      clock := { on.clock with uptime := tenMinutes }, season := { on.season with tenths := 35 } }
    (after (.seasoningSample [⟨2, 33, 0, 0, 0, 0⟩]) s).season.tenths = 36 ∧ (nth (after (.seasoningSample [⟨2, 33, 0, 0, 0, 0⟩]) s).clusters 33).offsetMv = 0 ∧
    (after .historyWrite { s with season := { s.season with tenths := 36 } }).season.seq = 1 ∧
    (after .historyWrite s).season.seq = 0 := by decide +kernel

def atStage (n : Nat) : State := { on with boot := { on.boot with stage := n, ready := false } }
theorem witness_boot : (atStage 1).inStage 1 = true ∧ (after (.bootRomStage true) (atStage 1)).boot.stage = 2 ∧
    (after (.bootRomStage false) (atStage 1)).dev.hold = 2 ∧ (atStage 3).inStage 3 = true ∧
    (after .nvOverlay { (atStage 3) with boot := { (atStage 3).boot with warm := true } }).boot.stage = 4 ∧
    (after (.dramTraining [] [some 2000, none]) { (atStage 4) with bootFeat := on.effFeat }).t3cap = [1024, 0, 0, 0] ∧
    (after (.dramTraining [23] []) (atStage 4)).boot.mgmtOnly = true ∧ (after (.laneTraining [] [] []) (atStage 5)).boot.stage = 6 ∧
    (after (.laneTraining [] [] []) { (atStage 5) with boot := { (atStage 5).boot with fastPath := true } }).boot.stage = 7 ∧
    (after (.bist [.core 0 9]) (atStage 6)).boot.stage = 7 ∧ (atStage 7).inStage 7 = true ∧ (atStage 8).inStage 8 = true ∧
    (after .ready (atStage 8)).boot.ready = true ∧ (after .ready (atStage 8)).dev.devReady = true := by decide +kernel
theorem witness_stage2 : let s := { (atStage 2) with boot := { (atStage 2).boot with warm := true, stored := true, prevReady := true, cached := ([1, 2, 3, 4, 5], false) } }
    s.inStage 2 = true ∧ s.boot.declined = none ∧ (after .imageSelection s).boot.versions = [1, 2, 3, 4, 5] ∧
    (after .imageSelection (atStage 2)).boot.mgmtOnly = true := by decide +kernel
theorem witness_update : let s := (after (.pldmFirmwareUpdate [(4, [1])]) on)
    s.flash.select.pending = some (1 - on.flash.select.active) ∧
    let u := { (atStage 3) with boot := { (atStage 3).boot with trial := some 1 }, clock := { on.clock with uptime := 120000000000 } }
    (after .pendingBankTimeout u).boot.stage = 1 ∧ (after .pendingBankTimeout u).boot.warm = true := by decide +kernel

theorem witness_power : on.hostUp = true ∧ on.boot.ready = true ∧ (after (.powerDown (.register 0x5057444E)) on).dev.hold = 4 ∧
    (after (.powerDown (.register 0)) on).dev.hold = 0 ∧ (after (.powerDown .pldm) on).dev.hold = 4 ∧
    (after (.inputFault 37999) on).dev.hold = 1 ∧ (after (.inputFault 38000) on).dev.hold = 0 ∧
    (after (.inputFault 62001) on).dev.hold = 1 ∧ (after (.inputFault 29999) on).power = List.replicate 64 false ∧
    (after (.thermalTrip 0 500) on).dev.hold = 4 ∧ on.dev.thermtrip = false ∧ celsius4 500 = 500 ∧
    (after (.jtagInstructionLoad true) on).dev.hold = 3 ∧
    (after .jtagTrstN (after (.jtagInstructionLoad true) on)).boot.stage = 1 ∧
    (after (.pllLossOfLock .system) on).dev.fatal = true ∧ (after (.pllLossOfLock .host) on).dev.fatal = true ∧
    ((after (.pllLossOfLock (.fabricPort 11)) { on with ports := List.replicate 12 { Port.reset with state := 3 } }).port 11).state = 0 ∧
    (after (.pllLossOfLock (.farPort 1)) on).far.map (·.state) = [0, 0] ∧
    (after (.cxlLinkDown 3) { on with t3cap := [0, 0, 0, 7] }).t3down = [3] := by decide +kernel
theorem witness_thermal : let s := { on with
      dies := updNth on.dies 2 (fun d => { d with level := 3, cool := d.cool.set 2 (some 0) }), clock := { on.clock with uptime := 1000000 } }
    (after (.thermalSensorSample (List.replicate 64 0xFFF8)) on).sensors = List.replicate 64 0xFFF8 ∧
    (nth s.dies 2).level = 3 ∧ (nth (after (.protectionLevelExit 2) s).dies 2).level = 2 ∧
    (nth (after (.protectionLevelExit 2) { s with clock := { s.clock with uptime := 999999 } }).dies 2).level = 3 ∧
    (after (.dramThermalHold true 15) on).dramHolds = [⟨true, 15, 0⟩] ∧
    (after (.dramThermalRelease true 15) { s with dramHolds := [⟨true, 15, 0⟩] }).dramHolds = [] ∧
    (after (.dramThermalRelease true 15) { s with dramHolds := [⟨true, 15, 1⟩] }).dramHolds = [⟨true, 15, 1⟩] := by decide +kernel
def tod : TodBytes := [0xA5, 0x5A, 1, 1] ++ zeros 14
def edgeAt (t : Nat) : State := { on with clock := { on.clock with uptime := t, lastEdge := some 0, site := 7 } }
theorem witness_time : (tod ++ toBe 2 (crc16 tod)).length = 20 ∧
    (after (.siteTodFrame (tod ++ toBe 2 (crc16 tod))) on).clock.frame = some (tod ++ toBe 2 (crc16 tod), 0) ∧
    (after (.siteTodFrame (tod ++ toBe 2 (crc16 tod + 1))) on).devTele = [0, 0, 0, 0, 0, 1] ∧
    (after .sitePpsEdge (edgeAt 899999999)).devTele = [0, 0, 0, 0, 1, 0] ∧ (after .sitePpsEdge (edgeAt 1100000001)).devTele = [0, 0, 0, 0, 1, 0] ∧
    (after .sitePpsEdge (edgeAt 900000000)).clock.lastPps = 7 ∧ (after .sitePpsEdge (edgeAt 1100000000)).clock.lastEdge = some 1100000000 ∧
    (after .ppsHoldover (edgeAt 2000000000)).clock.state = 3 ∧ (after .ppsHoldover (edgeAt 1999999999)).clock.state = 0 := by decide +kernel

/-! ### The far exchange -/

/-- Sites 0 and 1 (or 0 alone), one member each, epochs of two steps from step 1; landing store at 0x40100000. -/
def joinBlk (mask : BitVec 16) : JoinBlk :=
  ⟨mask, 0, 1, 0, 3, 2, 1, 0, 1000000, 1, 1, 1, 1, 1, 0x3F800000, 0, [0, 0, 0], 0x77, 0x40100000, 0x100000, 9000, 5, 6, 7, List.replicate 16 ⟨8, 9⟩⟩
def onFar (j : Option Join) : State := { onT 1 true with
  far := List.replicate 2 { FarPort.reset with state := 3 }
  bays := ((onT 1 true).bays.map fun y => if y.st = .active then { y with
    join := j, keys := y.keys.set 0 (.gcm (zeros 32)), bind := { y.bind with granules := [1, 2048, 2049] }
    train := { y.train with applied := [2] } } else y) }
def j2 : Join := newJoin (joinBlk 3) 0 0 [2048, 2049]
def at10 (s : State) (t : Nat) : State := { s with clock := { s.clock with uptime := t, site := t } }
theorem witness_join : (onFar none).joinFails 0 (joinBlk 3) 0 = none ∧ ((onFar none).bay 0).freeTier2 = [2048, 2049] ∧
    (newJoin (joinBlk 1) 0 0 [2048, 2049]).others = [] ∧ j2.others = [1] ∧
    Ends (onFar none) (.scarfJoin h0 (joinBlk 1) 0 0) .ok 0 ∧
    Running (run (onFar none) (.scarfJoin h0 (joinBlk 3) 0 0)) (mkSlot (.scarfJoin h0 (joinBlk 3) 0 0) .running) (.scarfJoin h0 (joinBlk 3) 0 0) := by
  decide +kernel
/-- The join waits for a hello; its command is number 0. -/
def onWait (p : Phase) : State := { onFar (some { j2 with joining := some (0, 0) }) with
  cmds := [mkSlot (.scarfJoin h0 (joinBlk 3) 0 0) p], nextAdm := 1 }
theorem witness_helloTimeout : Ended (after (.joinHelloTimeout 0) (at10 (onWait .active) 10000000000))
    (mkSlot (.scarfJoin h0 (joinBlk 3) 0 0) .active) .ok 0 := by decide +kernel
def bun (sent : Option Nat) : Bundle := ⟨5, 0, 0, zeros 100, [(1, if sent.isSome then .granted else .waiting)], [], sent.toList.map fun t => (1, t), [], none⟩
theorem witness_leave : let s := onFar (some j2)
    j2.joining = none ∧ j2.leave = none ∧ j2.working = false ∧ j2.bundles = [] ∧ Ends s (.scarfLeave h0) .ok 0 ∧
    ((done s (.scarfLeave h0)).bay 0).join = none := by decide +kernel
theorem witness_close : j2.closeStep j2.nextEpoch = 2 ∧ (mapOf 1).live.all (fun ti => ((onFar (some j2)).bay 0).train.appliedOf ti == 2) = true ∧
    Begins (onFar (some j2)) (.scarfEpochClose h0 0 2) ∧ Ends (onFar (some { j2 with detached := true })) (.scarfEpochClose h0 0 2) .ok (2 ^ 48) := by
  decide +kernel
theorem witness_cancel :
    Ends (onFar (some { j2 with bundles := [bun none] })) (.scarfCancel h0 0 0xFF 0xFFFFFFFF) .ok 1 ∧
    Ends (onFar (some { j2 with bundles := [bun (some 3)], granted := [(0, 5, 1)] })) (.scarfCancel h0 0 0xFF 0xFFFFFFFF) .tooLate (2 ^ 32) := by decide +kernel
theorem witness_catchup : Running (run (onFar (some j2)) (.scarfCatchup h0 0xFF)) (mkSlot (.scarfCatchup h0 0xFF) .running) (.scarfCatchup h0 0xFF) ∧
    j2.catchup = none ∧
    let c := mkSlot (.scarfCatchup h0 0xFF) .active
    let s := begun (at10 (onFar (some { j2 with catchup := some ⟨0, true, 0xFF, 0, [], []⟩ })) 2000000) c.instr
    Ended (after (.catchupTimeout 0) s) c .timeout 0 := by decide +kernel
def closing (u : Close) (j : Join) (t : Nat) : State :=
  begun (at10 (onFar (some { j with close := some u })) t) (.scarfEpochClose h0 0 2)
theorem witness_closeEnds : let c := mkSlot (.scarfEpochClose h0 0 2) .active
    (mapOf 1).deltaBlocks.length ≤ 1 ∧
    Ended (after (.epochClosePass 0) (closing ⟨0, 0, 2, true⟩ { j2 with forms := [⟨0, 3, 1⟩] } 0)) c .ok 3 ∧
    let held := { closing ⟨0, 0, 2, false⟩ { j2 with bundles := [{ bun none with heldSince := some 0 }] } 20000000 with far := List.replicate 2 FarPort.reset }
    held.farUp j2 = [] ∧ Ended (after (.portHoldTimeout 0) held) c .portNotReady 0 := by decide +kernel

def dg : Dgram := ⟨0x99, 1, 0, 0, 0, 5, 0, 2, 0, 0, zeros 8192, []⟩
theorem gcm_empty (key nonce aad : List Byte) :
    gcmDecrypt key nonce aad [] (gcmTag (aesKeys key) nonce aad []) = some [] := by
  simp [gcmDecrypt, gcmStream, chunks, chunksAux]
/-- A control datagram of a kind with an empty payload and its tag. -/
def ctl (kind : Nat) : Dgram :=
  { dg with
    payload := []
    tag := gcmTag (aesKeys (zeros 32)) (farNonce (ctlPrefix 0x99) 5) (dgramHeader kind { dg with payload := [] }) [] }
theorem goodCtl_empty {j : Join} (kind : Nat) (h0 : ((onFar (some j)).bay 0).join = some j)
    (h1 : ((onFar (some j)).bay 0).joinKey j = some (zeros 32)) (h2 : j.takes dg = true) :
    GoodCtl (onFar (some j)) 0 kind (ctl kind) j [] :=
  ⟨h0, h2, zeros 32, h1, gcm_empty _ _ _⟩
def jCatch : Join := { j2 with catchup := some ⟨0, false, 1, 0, [], []⟩ }
def jDet : Join := { j2 with detached := true }
theorem witness_goodCtl (kind : Nat) : GoodCtl (onFar (some j2)) 0 kind (ctl kind) j2 [] :=
  goodCtl_empty kind (by decide +kernel) (by decide +kernel) (by decide +kernel)
theorem witness_goodCtl_request : GoodCtl (onFar (some jDet)) 0 5 (ctl 5) jDet [] :=
  goodCtl_empty 5 (by decide +kernel) (by decide +kernel) (by decide +kernel)
theorem witness_goodCtl_data : GoodCtl (onFar (some jCatch)) 0 6 (ctl 6) jCatch [] :=
  goodCtl_empty 6 (by decide +kernel) (by decide +kernel) (by decide +kernel)
theorem witness_dgram : OpenTo j2 1 ∧ j2.takes dg = true ∧ ((onFar (some j2)).bay 0).joinKey j2 ≠ none ∧ dg.payload.length = 8192 ∧
    (dg.fragCount, dg.frag) = (2, 0) ∧ j2.complete = [] ∧ j2.rx = [] ∧ j2.ackDue = [] ∧ j2.recvBytes + 2 * 8192 ≤ j2.recvGib * gib := by
  decide +kernel
theorem witness_ctl_clauses : j2.speaker = true ∧ j2.entry? 0 = none ∧ (onFar (some j2)).now < (onFar (some j2)).finalTime j2 0 ∧
    (ledgerOf []).epoch = 0 ∧ (onFar (some jDet)).answerTo 0 jDet [] = none ∧
    catchupWhole (mapOf 1) (assocSet [] (partKey []) []) = none ∧ { j2 with blk := { j2.blk with thisMember := 1 } }.speaker = false := by
  decide +kernel
def hello8 : List Byte := (onFar none).helloBytes false
theorem witness_hello : let e := gcmEncrypt (zeros 32) (farNonce (ctlPrefix 0x99) 5) (dgramHeader 8 { dg with payload := hello8 }) hello8
    gcmDecrypt (zeros 32) (farNonce (ctlPrefix 0x99) 5) (dgramHeader 8 { dg with payload := e.1 }) e.1 e.2 = some hello8 := by
  decide +kernel
theorem witness_filtered : let f : FarFrame := ⟨0, 0, 0x86DD, false, false, 6, 0, 0, true⟩
    (after (.farFilteredFrame f) on).devTele = [0, 1, 0, 0, 0, 0] ∧ (after (.farFilteredFrame { f with pause := true }) on).devTele = [0, 0, 1, 0, 0, 0] := by
  decide +kernel
/-! Timers. -/

theorem witness_grant : let x := bun none
    let s := onFar (some { j2 with bundles := [x] })
    s.farUp j2 = [0, 1] ∧ assoc x.dests 1 = some .waiting ∧
    (((after (.bundleGrant 0 5 1) s).bay 0).join.map (fun k => k.bundles.map (·.dests))) = some [[(1, .granted)]] := by decide +kernel
/-- A bundle of one coded block of two FP32 words, first block 0 of epoch 0, and its plaintext. -/
def rxBytes : List Byte := zeros 20 ++ toBe 4 1 ++ zeros 40 ++ planeEncode 4 none false 0 (zeros 8)
def rx1 : RxBundle := ⟨1, 5, 1, [(0, zeros 64)], some rxBytes⟩
theorem witness_landing : let j := { j2 with rx := [rx1] }
    (planeReadAll false (rxBytes.drop 64).length (rxBytes.drop 64)).map (bundleGood (rxBytes.take 64)) = some true ∧
    j.stale 1 (BitVec.ofNat 32 (beAt (rxBytes.take 64) 4 4)) = false ∧ (onFar (some j)).codecLanes ≠ [] ∧
    (((after (.bundleLanding 0 1 5) (onFar (some j))).bay 0).join.map (fun k => (k.landed.length, k.rx.length))) = some (1, 0) := by
  decide +kernel
theorem witness_timers :
    let s := at10 (onFar (some { j2 with ackDue := [(1, 1, 0, 3)] })) 100000
    (((after (.ackTimer 0 1) s).bay 0).join.map (·.ackDue)) = some [] ∧
    let u := at10 (onFar (some { j2 with bundles := [bun (some 0)] })) 100000000
    (((after (.rtoExpiry 0 1) u).bay 0).join.map (fun k => k.bundles.map (·.resends))) = some [[(1, 1)]] ∧
    let v := at10 (onFar (some { j2 with bundles := [bun none], lastHeard := [(1, 0)] })) 2000000000
    (((after (.peerUnreachable 0 1) v).bay 0).join.map (fun k => (k.unreach, k.bundles.length))) = some ([1], 0) := by decide +kernel
theorem witness_cutTimes : let late := at10 (onFar (some j2)) 1000000000
    late.cutTime j2 j2.nextCut ≤ late.now ∧ late.finalTime j2 j2.nextFinal ≤ late.now ∧
    (((after (.admissionCut 0) late).bay 0).join.map (·.nextCut)) = some 1 ∧
    (((after (.ledgerFinal 0) late).bay 0).join.map (fun k => (k.detached, k.nextFinal))) = some (true, 1) := by decide +kernel
def vec0 (site : Nat) : AdmVec := ⟨0, site, 0, 0, 0, 0, 0⟩
def led0 : Ledger := ⟨0, 0, 0, 3, 0, 3, 0, 0, 0, [], 0⟩
theorem witness_ledger :
    let j := { j2 with vectors := [vec0 0, vec0 1], nextCut := 1 }
    let s := onFar (some j)
    let t := at10 s (s.cutTime j 0)
    j.speaker = true ∧ (List.range' j.nextFinal (j.nextCut - j.nextFinal)).findSome? (fun e => (t.publishes j e 0).map (fun vs => (e, vs))) = some (0, [vec0 0, vec0 1]) ∧
    (((after (.tallySlot 0 0) t).bay 0).join.map (·.published)) = some [0] ∧
    let k := { j2 with entries := [led0], nextCut := 1 }
    let u := at10 (onFar (some k)) 1000000000
    (k.entry? k.nextFinal).isSome ∧ (((after (.ledgerFinal 0) u).bay 0).join.map (fun k => (k.detached, k.nextFinal))) = some (false, 1) := by
  decide +kernel
def prep0 : Prepared := ⟨0, 0, [0], zeros 32, 0, false, none, false⟩
theorem witness_settle : let j := { j2 with entries := [led0], prepared := [prep0], digests := [⟨1, 1, 0, zeros 32⟩] }
    let s := onFar (some j)
    j.entry? j.baseNow = some led0 ∧ j.prepared? j.baseNow = some prep0 ∧ (j.others.filter (fun i => led0.present.getLsbD i)).length ≤ (j.digestsOf led0 false).length ∧
    (j.digestsOf led0 false).all (fun r => r.digest == prep0.digest) = true ∧
    (((after (.digestSettle 0) s).bay 0).join.bind (fun k => (k.prepared? 0).map (·.settled))) = some true := by decide +kernel
theorem witness_management : (((after (.managementPacket 0 (.vector 0 (zeros 16))) (onFar (some { j2 with blk := { j2.blk with thisMember := 1 } }))).bay 0).join.map (·.vectors)) =
    some [vectorOf (zeros 16) 0] := by decide +kernel
theorem witness_fragment : (((after (.fragment 0 1 dg) (onFar (some j2))).bay 0).join.map (fun k => (k.rx.map (·.count), k.ackDue))) = some ([2], [(1, 1, 0, 0)]) ∧
    (((after (.sack 0 1 { dg with payload := toBe 4 6, echo := 0 }) (at10 (onFar (some { j2 with bundles := [bun (some 0)] })) 40)).bay 0).join.map
      (fun k => (k.srtt, k.bundles.length))) = some ([(1, 40)], 0) := by decide +kernel

/-! ### Further clauses: what they suppose, and what they then say -/

theorem witness_idleFlit : let s := onPort fun x => { x with rxLast := 5, acked := 4 }
    s.pending = [] ∧ s.dev.hold = 0 ∧ PartsCounted s ∧ (s.port 0).owes = true ∧ (s.port 1).owes = false ∧
    ((stepped s).port 0).acked = 5 ∧ (stepped s).outs.length = 1 := by decide +kernel
/-- Two pages, the first of which holds a poisoned line. -/
def onBad : State := { on with
  poison := [2 ^ 24]
  bays := ({ bay0 with pages := bay0.pages ++ [⟨2 ^ 30 + 2 ^ 21, false, 2 ^ 30 + 2 ^ 21, true, true, true, false⟩] } : Bay) ::
    List.replicate 15 Bay.reset }
theorem witness_memPlace_bad : onBad.memPlaceCheck 0 (2 ^ 30) (2 ^ 22) 2 = none ∧
    ((onBad.bay 0).pagesIn (2 ^ 30) (2 ^ 22)).length = 2 ∧ (onBad.movePages 0 2 ((onBad.bay 0).pagesIn (2 ^ 30) (2 ^ 22))).2 = 0 ∧
    Ends onBad (.memPlace h0 (2 ^ 30) (2 ^ 22) 2) .machineCheck 0 := by decide +kernel
theorem witness_core_lines : onK.rangeBad 0 .rd 0x100 (8 * k3.vl) = false ∧
    (k3.indices 2).any (fun a => onK.rangeBad 0 .rd a k3.sew) = false ∧
    (k3.indices 2).any (fun a => onK.rangeSkips 0 .wr a k3.sew) = false ∧ onK.poisoned (localLoc 3 0x20) 32 = false ∧
    (nth onD.cores 0).2.channel 0 = [⟨0, 0, 0x20, 2 ^ 48 + 0x500, 8, true, 9⟩] ∧ onD.coreBad 0 3 0x20 8 = false ∧
    onD.coreSkips 0 3 (2 ^ 48 + 0x500) 8 = false := by decide +kernel
def onRes : State := { onFp with faults := { onFp.faults with residue := [⟨0, 0, .cube 3, 0, 5, 1⟩] } }
theorem witness_matmul_recompute :
    let w := ((run onRes (.matmul h0 mmBlk)).useFree 1).matRun 0 0 mmBlk []
    (w.dead, w.count) = (false, 1) ∧ (outcome (done onRes (.matmul h0 mmBlk)) 0).map (·.1) = some .corrected ∧
    ((outcome (done onRes (.matmul h0 mmBlk)) 0).map (fun x => x.2.toNat / 2 ^ 40)) = some 1 ∧
    (done onRes (.matmul h0 mmBlk)).readBay 0 0x400 4 = toLe 4 0xC0B00000 := by decide +kernel
/-- A second tensor, which the map divides like the first. -/
def rec8 : TensorRec := { rec7 with id := 8 }
def map2 : ShardMap := { mapOf 1 with tensors := [rec7, rec8] }
theorem witness_stepUpdate_checks : let s := run (onU 1) (.stepUpdate h0 0x2000 1 false false)
    let tr := (s.bay 0).train
    let p := mapOf 1
    tr.map = some p ∧ s.ioStatus 0 [(0x2000, 256)] [] = none ∧ tr.arm = none ∧ tr.gathers = [] ∧
    hyperOk (s.readBay 0 0x2000 256) false = true ∧ tr.stepFits p 1 = true ∧ tr.applied.length = p.tensors.length ∧
    p.updateMask ≠ 0 ∧ p.blockCount < 2 ^ 64 ∧ s.faults.update = [] ∧
    p.live.all (fun i => (List.range (p.blocks (nth p.tensors i))).all (fun k =>
      s.ioStatus 0 (blockRanges p (nth p.tensors i) k ++ gradRange p i k) (blockRanges p (nth p.tensors i) k) == none)) = true ∧
    (p.live, p.blocks rec7) = ([0], 1) ∧
    ({ tr with clipRec := some (1, 0x3F000000) } : Train).clipRec = some (1, 0x3F000000) := by decide +kernel
theorem witness_stepGather_checks : let s := run ((onT 1 true).writeBay 0 0x40020008 fp8) (.stepGather h0 0 [gEntry])
    let tr := (s.bay 0).train
    let p := mapOf 1
    (([gEntry].map (entryDests p)).flatten.all (fun r => s.rangeOk 0 .wr r.1 r.2 && !s.rangeSkips 0 .wr r.1 r.2)) = true ∧
    (p.tensor? gEntry.tensorId = some rec7 ∧ s.ioStatus 0 [(rec7.master + 4 * rec7.rowLen *
      ((ownRows p rec7 gEntry).1 - (rec7.rowsOf 1 0).1), 4 * rec7.rowLen * (ownRows p rec7 gEntry).2)] [] = none ∧
      serialBefore (tr.appliedOf (p.tensors.findIdx (·.id == gEntry.tensorId))) (0 - 1) = false) ∧
    tr.gathers = [] ∧ tr.earlyRows = [] ∧ p.members = 1 ∧ p.thisMember = 0 ∧ isRemote p gEntry.dst = false ∧
    ownRows p rec7 gEntry = (gEntry.firstRow, gEntry.rowCount) ∧ isFabric gEntry.dst = false ∧ tr.reusable 0 gEntry = false ∧
    Ends ((onT 1 true).writeBay 0 0x40020008 fp8) (.stepGather h0 0 [gEntry]) .ok 0 := by decide +kernel
theorem witness_stepGather_members : let s := run (onT 2 true) (.stepGather h0 0 [gEntry])
    let p := mapOf 2
    gatherCheck p [gEntry] = none ∧ (s.bay 0).formed? p.group = some (grp 2) ∧ (grp 2).peers = [1] ∧
    (p.tensor? gEntry.tensorId = some rec7) ∧ serialBefore ((s.bay 0).train.appliedOf 0) (0 - 1) = false ∧
    s.ioStatus 0 [(rec7.master + 4 * rec7.rowLen * ((ownRows p rec7 gEntry).1 - (rec7.rowsOf 2 0).1),
      4 * rec7.rowLen * (ownRows p rec7 gEntry).2)] [] = none ∧
    (([gEntry].map (entryDests p)).flatten.all (fun r => s.rangeOk 0 .wr r.1 r.2 && !s.rangeSkips 0 .wr r.1 r.2)) = true ∧
    Begins (onT 2 true) (.stepGather h0 0 [gEntry]) ∧
    Output.gatherSeg 1 ⟨0, 0, 0, 0, gEntry, 0, 1, 1, 0, []⟩ ∈ (done (onT 2 true) (.stepGather h0 0 [gEntry])).outs := by
  decide +kernel
/-- The pending arm's command is number 3; the map has one tensor, or two. -/
def onSeg (p : ShardMap) : State := { onArm with
  bays := (onArm.bays.map fun y => if y.st = .active then { y with train := { y.train with map := some p, applied := p.tensors.map (fun _ => 0) } } else y)
  cmds := [mkSlot (.updateArm hArm 0x2000 1 0 false) .active], nextAdm := 4 }
def slotArm : Slot := mkSlot (.updateArm hArm 0x2000 1 0 false) .active
theorem witness_segment_checks :
    [mapOf 1, map2].all (fun p => let s := onSeg p
      p.tensor? 7 == some rec7 && rec7.opt != 3 && p.elems rec7 == 4 && (s.bay 0).train.gathers == [] && p.updateMask != 0 &&
      (s.bay 0).train.applied.length == p.tensors.length && s.faults.update == [] && !(s.bay 0).copying &&
      (List.range (p.blocks rec7)).all (fun k => s.ioStatus 0 (blockRanges p rec7 k) (blockRanges p rec7 k) == none)) = true ∧
    (mapOf 1).armed.all (fun i => i == 7 || arm1.delivered.contains i) = true ∧
    map2.armed.all (fun i => i == 7 || arm1.delivered.contains i) = false ∧ arm1.norms = [] ∧
    (onSeg (mapOf 1)).slot? arm1.adm = some slotArm ∧
    -- the gradient is 3: norm 3
    Ended (after (.updateSegmentArrival 0 7 [0x40400000, 0, 0, 0]) (onSeg (mapOf 1))) slotArm .ok 0x40400000 ∧
    (((after (.updateSegmentArrival 0 7 [0x40400000, 0, 0, 0]) (onSeg map2)).bay 0).train.arm.map (fun a => (a.begun, a.delivered))) =
      some (true, [7]) ∧
    ((after (.updateSegmentArrival 0 7 [0x40400000, 0, 0, 0]) (onSeg map2)).bay 0).train.appliedOf 0 = 1 := by decide +kernel
theorem witness_export_checks : let s := run onX1 (.exportStream h0 0x3000 64 1)
    s.ioStatus 0 (s.ringReads 0) [] = none ∧ exportTooLate (s.diffRecords 0) 1 = false ∧
    (((s.diffRecords 0).dropWhile (fun r => !(recStep r == 1 && recFirst r))).take 2).length = 2 ∧
    s.rangeOk 0 .wr 0x3000 64 = true ∧ s.rangeSkips 0 .wr 0x3000 64 = false := by decide +kernel
theorem witness_coll_one : let s := run ((onT 1 false).writeBay 0 0 fp4) (.collAllreduce h0 collOps)
    (s.bay 0).formed? 0 = some (grp 1) ∧ (grp 1).blk.members = 1 ∧ (grp 1).blk.thisMember = 0 ∧ (grp 1).ranks = [0] ∧
    s.coll? 0 0 0 = none ∧ (s.bay 0).earlyColls = [] ∧ s.faults.reduction = [] ∧ (s.bay 0).copying = false ∧
    [0x0400, 0x0401, 0x0402, 0x0403].all (fun k => ((s.bay 0).aligned k collOps).isNone) = true ∧
    s.rangeSkips 0 .wr 0x5000 (collBytes collOps) = false ∧
    Ends ((onT 1 false).writeBay 0 0 fp4) (.collAllreduce h0 collOps) .ok 0 := by decide +kernel
theorem witness_coll_two : let s := (onT 2 false).writeBay 0 0 fp4
    [0x0400, 0x0401, 0x0402, 0x0403].all (fun k => (s.collCheck 0 k collOps).isNone && (s.collAccess 0 (grp 2) k collOps).isNone) = true ∧
    (s.bay 0).formed? 0 = some (grp 2) ∧ (grp 2).peers = [1] ∧ Begins s (.collBroadcast h0 collOps) ∧
    Output.collSeg 1 ⟨0, 0, 0, 0, 1, 0x0400, collOps, false, 0, 0, 0, [], 0⟩ ∈ (done s (.collAllreduce h0 collOps)).outs := by
  decide +kernel
theorem witness_silent_slot : let s := { onC with clock := { onC.clock with uptime := (grp 2).silentNs } }
    (s.bay 0).formed? 0 = some (grp 2) ∧ ((s.bay 0).colls.map (·.adm)) = [some 0] ∧ CommandsNumbered s ∧
    s.slot? 0 = some (mkSlot (.collAllreduce h0 collOps) .active) ∧
    Output.groupAbort 0 0 ∈ (after (.collSilentTimeout 0 0) s).outs := by decide +kernel

/-- One due descriptor, number 3, of a bay in a group of two whose partner is node 1, with the counters' state. -/
def onTr (q : TrigBlk) : State := { (onT 2 false) with
  nv := { on.nv with node := 0xFFF, routes := [(1, 4)] }
  bays := ((onT 2 false).bays.map fun y => if y.st = .active then
    { y with trigs := [⟨3, q, true, 0, false⟩], counters := y.counters.set 255 ⟨1, false⟩ } else y) }
def tq : TrigBlk := { trig0 with vc := 1 }
/-- After the descriptor fires. -/
def fired (q : TrigBlk) : State := after (.triggerFire 0 3) (onTr q)
theorem witness_fires :
    [tq, { tq with kind := 4 }, { tq with kind := 2, dst := 1 }].all (fun q =>
      ((onTr q).bay 0).trigTurn ⟨3, q, true, 0, false⟩ && ((onTr q).bay 0).runs && decide (q.signalCtr < 256)) = true ∧
    -- LOCAL_ADD; REMOTE_ADD here and at the other member
    nth ((fired { tq with kind := 4 }).bay 0).counters 7 = ⟨64, false⟩ ∧
    nth ((fired { tq with kind := 2, dst := 0, remoteCtr := 9, signalEn := false }).bay 0).counters 9 = ⟨64, false⟩ ∧
    (onTr tq).route 1 % 4096 ≠ 0 ∧ (grp 2).node 1 = 1 ∧
    Output.packet ⟨1, 0xFFF, 1, 5, 0, 0, 0, 9, 0, toLe 8 64 ++ toLe 1 0⟩ ∈ (fired { tq with kind := 2, dst := 1, remoteCtr := 9 }).outs ∧
    ((fired { tq with kind := 2, dst := 1, remoteCtr := 9, rearm := true, stride := 4 }).bay 0).trigs.map (·.blk.thresh) = [5] := by
  decide +kernel
theorem witness_fires_copy : let s := onTr tq
    sideOf (some (grp 2)) tq.src = none ∧ sideOf (some (grp 2)) tq.dst = none ∧ s.goodPrefix 0 .rd 0 64 = 64 ∧
    s.goodPrefix 0 .wr 0x6000 64 = 64 ∧ s.rangeSkips 0 .wr 0x6000 64 = false ∧
    -- to the other member a transfer begins
    sideOf (some (grp 2)) (far1 + 64) = some 1 ∧ (cutChunks 64 64).all (fun e => (s.readFault 0 e.1 e.2).isNone) = true ∧
    ((fired { tq with dst := far1 + 64 }).bay 0).xfers.length = 1 := by decide +kernel
/-- A COLLECTIVE descriptor: the all-reduce of collOps. -/
def cq : TrigBlk := { tq with kind := 3, copcode := 0, src := 0, dst := 0x5000, length := 4, op := 0, fmt := 1, algo := 0, group := 0 }
theorem witness_fires_coll : let s := onTr cq
    s.collCheck 0 (trigOpcode cq) (trigOps cq) = none ∧ s.collAccess 0 (grp 2) (trigOpcode cq) (trigOps cq) = none ∧
    s.coll? 0 0 (grp 2).count = none ∧ (s.bay 0).earlyColls = [] ∧ s.faults.reduction = [] ∧
    (((fired cq).coll? 0 0 0).map (fun y => (y.adm, y.opcode, y.ftz))) = some (none, trigOpcode cq, false) := by decide +kernel
/-- A transfer of two chunks to node 1, and one from it; bay 0 as in onM. -/
def onX2 (x : Xfer) : State := { onXfer with bays := (onXfer.bays.map fun y => if y.st = .active then { y with xfers := [x] } else y) }
def xfer2 : Xfer := { xfer1 with chunks := [(0, 64), (64, 64)] }
def xferIn : Xfer := ⟨some 0, none, 0, 2, some 1, none, 0, 2 ^ 30, [(0, 64)], [], []⟩
def ackIn : Packet := { ack1 with vc := 2, offset := 0, data := List.replicate 64 9 }
theorem witness_packet_checks : onM.uncommitted pkt = false ∧ onM.route pkt.snode % 4096 ≠ 0 ∧ leAt (toLe 4 2) 0 4 = 2 ∧
    onM.fabricOk 0 .rd (2 ^ 30) 2 = true ∧ onM.rangeBad 0 .rd (2 ^ 30) 2 = false ∧
    ({ onM with ports := updNth onM.ports 0 (fun x => { x with await := [pkt] }) } : State).uncommitted pkt = true ∧
    Output.packet { pkt with dnode := 1, snode := 0xFFF, typ := 2, data := [] } ∈ (after (.fabricWrite pkt) onM).outs ∧
    Output.packet { pkt with dnode := 2, snode := 0xFFF, typ := 2, offset := 2 ^ 30 + refusedBit, data := [1] } ∈
      (after (.readRequest { pkt with snode := 2 }) { onM with nv := { onM.nv with routes := [(2, 4)] } }).outs := by decide +kernel
theorem witness_response_checks :
    ((onX2 xfer2).findXfer (grp 2) ack1).map (fun r => (r.1, r.2.1.chunks.length, r.2.2.1)) = some (0, 2, (0, 64)) ∧
    ((after (.readResponse ack1) (onX2 xfer2)).bay 0).xfers = [{ xfer2 with answered := [(0, 0)] }] ∧
    (xfer1.srcMember, xfer1.answered, answerCode ack1) = (none, [], 0) ∧
    ((onX2 xferIn).findXfer (grp 2) ackIn).map (fun r => r.2.2.1) = some (0, 64) ∧
    (onX2 xferIn).rangeOk 0 .wr (2 ^ 30) 64 = true ∧ (onX2 xferIn).rangeSkips 0 .wr (2 ^ 30) 64 = false ∧
    (after (.readResponse ackIn) (onX2 xferIn)).readBay 0 (2 ^ 30) 1 = [9] := by decide +kernel
/-- The other member's stamp, and a final value, of onC's collective; the collective with its values here. -/
def stampSeg : CollSeg := ⟨0, 0, 0, 1, 1, 0x0400, collOps, false, 0, 0, 0, [], 80⟩
def finalSeg : CollSeg := ⟨0, 0, 0, 1, 3, 0x0400, collOps, true, 0, 2, 0, [5, 6, 7, 8], 0⟩
def collC (f : Coll → Coll) : State := { onC with
  bays := (onC.bays.map fun y => if y.st = .active then { y with colls := y.colls.map f } else y) }
def valued : State := collC fun y => { y with finals := [⟨0, 2, 0, [5, 6, 7, 8]⟩] }
theorem witness_stamps : (onC.coll? 0 0 0).map (fun y => (sameColl y stampSeg, y.stamps, y.corrected)) = some (true, [(0, 0)], false) ∧
    ((valued.coll? 0 0 0).map (fun y => y.haveFinals (valued.bay 0) (grp 2))) = some true ∧
    ((valued.bay 0).aligned 0x0400 collOps).isNone ∧
    ((valued.coll? 0 0 0).map (fun y => (valued.writeColl 0 (grp 2) y).1.isNone)) = some true ∧
    valued.slot? 0 = some (mkSlot (.collAllreduce h0 collOps) .active) ∧
    (outcome (after (.collectiveSegment stampSeg) valued) 0).map (·.1) = some .ok ∧
    -- a group of three: the stamp is not the last
    (let s := collC id
     let t := { s with bays := (s.bays.map fun y => if y.st = .active then { y with groups := [grp 3] } else y) }
     ((after (.collectiveSegment stampSeg) t).coll? 0 0 0).map (·.stamps) = some [(0, 0), (1, 80)]) := by decide +kernel
/-- Member 2 of a tree of three waits for its values from the root. -/
def leaf : Group := { grp 3 with blk := { (grp 3).blk with thisMember := 2 } }
def onLeaf : State := { (collC fun y => { y with stamps := [(2, 0), (1, 0)] }) with
  bays := ((collC fun y => { y with stamps := [(2, 0), (1, 0)] }).bays.map fun y => if y.st = .active then { y with groups := [leaf] } else y) }
theorem witness_final : (onLeaf.coll? 0 0 0).map (fun y => (sameColl y finalSeg, y.stamps.any (·.1 == 1),
      (y.net leaf).isReturn 2 (some 1), y.finals)) = some (true, true, false, []) ∧
    ((after (.collectiveSegment finalSeg) onLeaf).coll? 0 0 0).map (·.finals) = some [⟨0, 2, 0, [5, 6, 7, 8]⟩] := by decide +kernel
/-- NORM_CLIP of two members waits for the other's part; and of three. -/
def onNorm (n : Nat) : State := done (onG n) (.normClip h0 0 1 0x3F800000)
def normPart : CollSeg := ⟨0, 0, 0, 1, 1, 0x0320, collOps, false, 0, 0, 0, [0, 0, 0], 0⟩
theorem witness_normPart : ((onNorm 2).bay 0).train.norms.map (fun w => (w.adm, w.index, w.norms.length)) = [(0, 0, 1)] ∧
    (onNorm 2).slot? 0 = some (mkSlot (.normClip h0 0 1 0x3F800000) .active) ∧
    (outcome (after (.collectiveSegment normPart) (onNorm 2)) 0).map (·.1) = some .ok ∧
    ((after (.collectiveSegment normPart) (onNorm 3)).bay 0).train.norms.map (fun w => w.norms.map (·.1)) = [[0, 1]] := by
  decide +kernel
/-- A gather of two members begun: the other's announcement, and its row. -/
def onG2 : State := done (onT 2 true) (.stepGather h0 0 [gEntry])
def announce : GatherSeg := ⟨0, 0, 0, 0, gEntry, 1, 1, 1, 0, []⟩
def rowSeg : GatherSeg := ⟨0, 0, 0, 0, gEntry, 1, 1, 1, 1, [fp8]⟩
theorem witness_gather_segments :
    ((onG2.bay 0).train.gathers.map (fun y => (y.entries.length, sameEntry (nth y.entries 0) gEntry, holdsRows y.got 0 1, y.reused))) =
      [(1, true, false, [])] ∧
    (onG2.bay 0).formed? 0 = some (grp 2) ∧ (mapOf 2).tensor? 7 = some rec7 ∧
    (gatherNet (grp 2) (mapOf 2) gEntry).isReturn 0 (some 1) = false ∧ (rowDests gEntry 1).all (fun a => !isRemote (mapOf 2) a) = true ∧
    ((onG2.bay 0).train.gathers.map (fun y => ({ y with heard := y.heard ++ [(1, 0)] } : Gather).complete? (mapOf 2) (some (grp 2)))) = [false] ∧
    ((after (.gatherSegment announce) onG2).bay 0).train.gathers.map (·.heard) = [[(1, 0)]] ∧
    (after (.gatherSegment rowSeg) onG2).readBay 0 0x4040 8 = fp8 ∧
    (outcome (after (.gatherSegment announce) (after (.gatherSegment rowSeg) onG2)) 0) = some (.ok, 8) := by decide +kernel
/-- Bay 0 with a page of device memory that holds its rings, and nothing else to fetch. -/
theorem witness_admission : let u := ({ onE with joiner := ⟨0, onE.joiner.rounds.set 0 (1, 15)⟩ } : State).setSq 0 1 (fun y => { y with head := 1 })
    (onE.bay 0).fetchable 1 = 1 ∧ onE.rangeOk 0 .rd 0x40000000 64 = true ∧ onE.rangeBad 0 .rd 0x40000000 64 = false ∧
    CommandsNumbered onE ∧ (onE.readBay 0 0x40000000 64 == nopEntry) = true ∧
    (match u.admission (.bay 0 1) (decodeHdr (.bay 0 1) 0 nopEntry) nopEntry with
      | .inr (.nop _) => true
      | _ => false) = true ∧
    ((after (.entryFetch .bays) onE).slot? 0).map (·.phase) = some .held ∧ (nth ((after (.entryFetch .bays) onE).bay 0).sqs 1).head = 1 := by
  decide +kernel
/-- The control pair with one entry, a TXN_BEGIN of bay 0. -/
def ctlEntry : List Byte := toLe 2 0x0700 ++ zeros 62
def onCtl : State := { (on.writeLoc (hostLoc 0 0x8000) ctlEntry) with
  ctl := { ctlOn with sq := { ctlOn.sq with base := 0x8000, log2 := 6, tail := 1 } } }
theorem witness_admission_control : onCtl.controlFlight = 0 ∧ onCtl.ctl.sq.waiting = 1 ∧ onCtl.hostOk 0 0x8000 64 = true ∧
    (match ({ onCtl with ctl := { onCtl.ctl with sq := { onCtl.ctl.sq with head := 1 } } } : State).admission .control
        (decodeHdr .control 0 ctlEntry) ctlEntry with
      | .inr (.txnBegin _ 0) => true
      | _ => false) = true ∧
    ((after (.entryFetch .control) onCtl).slot? 0).map (·.phase) = some .held := by decide +kernel
theorem witness_dispatch_rebound : let c := mkSlot (.matmul h0 { mmBlk with mask := 2 }) .held
    (onH c).faults.path = [] ∧ (onH c).lfailed = [] ∧ c.errSample ≠ some true ∧
    (named c.instr &&& ~~~((onH c).bay 0).bind.clusters) ≠ 0 := by decide +kernel
theorem witness_evictBoundary : ((evAlone 0).bay 0).evictWaits = true ∧ ((evAlone 0).boundary 0).isSome ∧
    ((after (.evictBoundaryReached 0) (evAlone 0)).bay 0).st = .evicting := by decide +kernel
theorem witness_release_pending : let k := { heldCut with st := .pending, adm := some 7 }
    let x := mkSlot (.ckptCut { h0 with adm := 7, signal := none } 5 lay) .active
    let s := { (onCut k) with cmds := [mkSlot (.ckptRelease h0 5) .running, x], nextAdm := 8 }
    Running s (mkSlot (.ckptRelease h0 5) .running) (.ckptRelease h0 5) ∧ (s.bay 0).colls = [] ∧ s.slot? 7 = some x ∧
    Ended (after (.ckptRelease h0 5) s) (mkSlot (.ckptRelease h0 5) .running) .ok 0 ∧
    Ended (after (.ckptRelease h0 5) s) x .aborted 0 := by decide +kernel
theorem witness_cutCopy : (mapOf 1).raw = ((onKerf id).bay 0).train.map.elim [] (·.raw) ∧ layoutFits (mapOf 1) lay = true ∧
    (onCut { heldCut with st := .pending }).boundary 0 = some 0 := by decide +kernel
theorem witness_restore : let i : Instr := .ckptRestore h0 0x40100000 0x40101000 0xFF
    let s := run onMf i
    let m := s.readBay 0 0x40100000 (256 + mfMapLen (s.readBay 0 0x40100000 256))
    s.manifestCheck 0 0x40100000 0x40101000 0xFF = none ∧ s.restoreBusy 0 0 = false ∧ sameShape (mapOf 1) (mfMap m) = true ∧
    mfFlag m 0 = true ∧ (s.bay 0).ckpt.lastRestore = some (slice m 0x70 32) ∧ mfStreamLen m = 0 ∧
    s.ioStatus 0 [(0x40101000, 0)] (((mapOf 1).regions.filter (fun r => r.1 != 3)).map (·.2)) = none ∧
    s.verifyStream 0 m 0x40101000 0xFF = some [] ∧ (mapOf 1).diffAddr = 0 ∧
    (outcome (after i s) 0).map (·.1) = some .ok ∧ ((after i s).bay 0).ckpt.lastRestore = some (slice m 0xB0 32) := by decide +kernel
/-- Test case 14's block decrypted with its tag, and with another. -/
def gcmBack (tag : Nat) : State := (onGcm.writeBay 0 0x100 (toBe 16 0xcea7403d4d606b6e074ec5d3baf39d18)).writeBay 0 0x310 (toBe 16 tag)
def gcmDec : Instr := .cipherRun h0 ⟨0x100, 0x200, 16, 0, true, 0, 0, 0x300⟩
theorem witness_cipher : let s := gcmBack 0xd0d1c8a799996bf0265b98b5d48ab919
    let o : CipherOps := ⟨0x100, 0x200, 16, 0, true, 0, 0, 0x300⟩
    nth (s.bay 0).keys 0 = .gcm (zeros 32) ∧ s.ioStatus 0 (cipherIns o) (cipherOuts o) = none ∧
    cipherLimits (.gcm (zeros 32)) o (s.readBay 0 0x300 64) = none ∧ s.faults.cipher = [] ∧
    ((cipherOuts o).all fun r => !s.rangeSkips 0 .wr r.1 r.2) = true ∧
    Ends s gcmDec .ok 16 ∧ (done s gcmDec).readBay 0 0x200 16 = zeros 16 ∧
    Ends (gcmBack 1) gcmDec .digestMismatch 16 := by decide +kernel
def onXts : State := (on' fun y => { y with keys := y.keys.set 0 (.xts (zeros 32) (1 :: zeros 31)) }).writeBay 0 0x310 (toLe 4 16)
theorem witness_xts : let o : CipherOps := ⟨0x100, 0x200, 16, 0, false, 0, 0, 0x300⟩
    cipherLimits (nth (onXts.bay 0).keys 0) o (onXts.readBay 0 0x300 64) = none ∧
    (outcome (done onXts (.cipherRun h0 o)) 0).map (·.1) = some .ok := by decide +kernel
theorem witness_licence_checks : let l := onLic.readLoc (hostLoc 0 0x1000) 128
    onLic.hostOk 0 0x1000 128 = true ∧ onLic.licenceFields l = true ∧ leAt l 8 16 = onLic.factory.uid ∧
    (onLic.flash.licences.all fun x => decide (leAt x 0x18 4 < leAt l 0x18 4)) = true ∧ leAt l 0x28 8 = 2 ^ 64 - 1 := by decide +kernel
theorem witness_failure_waits : let s := done onPool (.entropyRead h0 0x100 4)
    s.trng.reservations = [(0, 0)] ∧ s.slot? 0 = some (mkSlot (.entropyRead h0 0x100 4) .active) := by decide +kernel
theorem witness_telemetry_window : (on.nextInstant.window 0).length = 192 ∧ Ends on (.telemetryRead h0 0 0x100 192) .ok 192 := by
  decide +kernel
theorem witness_link : let s := onPort id
    (s.port 0).usable = true ∧ (flitOf 2 0 []).decodes = true ∧ (flitOf 4 0 (toBe 4 (2 ^ 16 + 5))).decodes = true ∧
    (flitOf 4 0 []).fseq = ((s.port 0).rxLast + 1) % 4096 ∧ stomps (stompList (flitOf 4 0 (toBe 4 (2 ^ 16 + 5)))) pkt = true ∧
    ((s.port 0).spared, (s.port 0).badLanes) = (none, []) ∧
    -- a far port with a lane lost, and a port in operation that comes back after its second
    ((after (.laneLossOfLock 12 7) { on with far := List.replicate 2 { FarPort.reset with state := 3 } }).far.map (·.state)) = [0, 3] ∧
    (({ Port.reset with inOperation := true } : Port).relane).isSome ∧
    ((after (.portRetry 0 true (errsOf [])) { (onPort fun x => { x with state := 0, inOperation := true, nextTry := 5 }) with
      clock := { on.clock with uptime := 4 } }).port 0).state = 0 ∧
    ((after (.laneLossOfLock 0 2) (onPort fun x => { x with spared := some 1 })).port 0).state = 4 := by decide +kernel
/-- The regions hold base 2, whose blocks' CRC-64 values are kept and which site 1 has too; a line of the base cannot be read. -/
def jBase : Join := { j2 with
  nextEpoch := 2, entries := [{ (default : Ledger) with epoch := 1, present := 3 }], nextFinal := 2, prepared := [⟨1, 0, [7], zeros 32, 0, false, none, false⟩] }
def baseLine : Nat := (2 ^ 30 + 0x20100) / 64
theorem witness_remote : let c := mkSlot norm1 .active
    let s := begun (onFar (some jBase)) norm1
    s.up = true ∧ (s.countUncorr baseLine).paths (some 0) baseLine .base = [1, 3] ∧ remotePath .base 3 = true ∧ jBase.joining = none ∧
    ((s.countUncorr baseLine).waitFor 0 baseLine .base 0 3 30).map (fun w => (w.site, w.epoch, w.block)) = some (1, 2, 0) ∧
    s.slot? 0 = some c ∧ c.dispatched = true ∧ s.lrisk = [] ∧
    (((after (.lineRecovery baseLine .base 0 1 30) s).bay 0).join.map (·.lineWaits.length)) = some 1 ∧
    (((after (.lineRecovery baseLine .base 0 1 30) s).bay 0).join.map (fun j => j.ctlOut.map (·.kind))) = some [5] := by decide +kernel
theorem witness_seconds : let u : Close := ⟨7, 0, 2, false⟩
    let s := run (onFar (some { j2 with leave := some 7, close := some u, catchup := some ⟨7, true, 0xFF, 0, [], []⟩ }))
    after (.scarfLeave h0) (s (.scarfLeave h0)) = s (.scarfLeave h0) ∧
    after (.scarfEpochClose h0 0 2) (s (.scarfEpochClose h0 0 2)) = s (.scarfEpochClose h0 0 2) ∧
    after (.scarfCatchup h0 1) (s (.scarfCatchup h0 1)) = s (.scarfCatchup h0 1) := by decide +kernel
theorem witness_closeEnds_more : let c := mkSlot (.scarfEpochClose h0 0 2) .active
    let j := { j2 with forms := [⟨0, 3, 1⟩] }
    j.closeLost (mapOf 1) ⟨0, 0, 2, true⟩ = false ∧
    Ended (after (.epochClosePass 0) (closing ⟨0, 0, 2, false⟩ { j2 with detached := true } 0)) c .ok (2 ^ 48) ∧
    -- the close of epoch 1 reports the sites that the entry of epoch 0 admitted
    (let k := { j2 with nextEpoch := 1, forms := [⟨1, 3, 1⟩], entries := [{ (default : Ledger) with admit0 := 3 }] }
     Ended (after (.epochClosePass 0) (closing ⟨0, 1, 2, true⟩ k 0)) c .ok (3 + 3 * 2 ^ 32)) ∧
    (bun none).waits = true := by decide +kernel
/-- The parts of a whole catch-up, as site 1 would send them. -/
def parts2 : List (Nat × List Byte) := match (onFar (some j2)).answerTo 0 j2 [] with
  | some (_, ps) => ps.map (fun p => (partKey p, p.drop 16))
  | none => []
def jLast : Join := { j2 with catchup := some ⟨0, false, 1, 0, parts2, []⟩ }
def onLast : State := begun (onFar (some jLast)) (.scarfCatchup h0 1)
set_option maxRecDepth 10000 in
theorem witness_goodCtl_last : GoodCtl onLast 0 6 (ctl 6) jLast [] :=
  ⟨by decide +kernel, by decide +kernel, zeros 32, by decide +kernel, gcm_empty _ _ _⟩
theorem witness_catchup_whole : let parts := assocSet parts2 (partKey []) []
    catchupWhole (mapOf 1) parts = some 0 ∧
    (match stagedBlocks (mapOf 1) parts with
      | some xs => jLast.catchupGood 0 parts xs
      | none => false) = true ∧
    onLast.ioStatus 0 [] (mapOf 1).closeRanges = none ∧ jLast.leave = none ∧ jLast.lineWaits = [] ∧
    onLast.slot? 0 = some (mkSlot (.scarfCatchup h0 1) .active) ∧
    ((onFar (some j2)).answerTo 0 j2 []).isSome ∧ (onFar (some j2)).faults.codec = [] ∧ (onFar (some j2)).codecLanes ≠ [] := by
  decide +kernel
theorem witness_farTurn : (onFar (some { j2 with bundles := [bun none] })).farTurn 0 = true ∧
    (((after (.bundleGrant 0 5 1) (onFar (some { j2 with bundles := [bun none] }))).bay 0).join.map (·.granted)) = some [(0, 5, 1)] := by
  decide +kernel
theorem witness_reports : let late := at10 (onFar (some j2)) 1000000000
    let jm := { j2 with blk := { j2.blk with thisMember := 1 } }
    (((after (.admissionCut 0) late).bay 0).join.map (fun k => k.reports.map (·.member))) = some [0] ∧
    Output.mgmt 0 0 (.report 1 0 0 0 0) ∈ (after (.admissionCut 0) (at10 (onFar (some jm)) 1000000000)).outs ∧
    (((after (.managementPacket 0 (.report 3 0 1 2 3)) (onFar (some j2))).bay 0).join.map (·.reports)) = some [⟨3, 0, 1, 2, 3⟩] ∧
    (((after (.managementPacket 0 (.entry 0 [])) (onFar (some jm))).bay 0).join.map (·.entries)) = some [ledgerOf []] ∧
    jm.speaker = false ∧ jm.entry? 0 = none ∧ (onFar (some jm)).now < (onFar (some jm)).finalTime jm 0 := by decide +kernel
theorem witness_checksum : let f : FarFrame := { (default : FarFrame) with
      etherType := 0x86DD, nextHeader := 17, dstIp := (joinBlk 3).srcIp, dstPort := (joinBlk 3).udpPort, dmac := FarPort.reset.mac }
    (f.pause, f.tagged, f.checksumOk) = (false, false, false) ∧
    (after (.farFilteredFrame f) (onFar (some j2))).devTele = [1, 0, 0, 0, 0, 0] := by decide +kernel
theorem witness_dropped : let k := { j2 with nextFinal := 2, entries := [{ (default : Ledger) with epoch := 2 }] }
    (((after (.ledgerFinal 0) (at10 (onFar (some k)) 1000000000)).bay 0).join.map (·.dropped)) = some [(0, 0), (1, 0)] ∧
    k.dropAt 2 = [(0, 0), (1, 0)] := by decide +kernel

/-! ### The board (the worked examples of chapter 16) -/

theorem test_ball_of_fabric_rx : ballAt 41 107 = .pair (.fabric 7) (.rx 5) false ∧
    ballAt 41 108 = .pair (.fabric 7) (.rx 5) true ∧ ballAt 56 56 = .vin48 := by decide +kernel
theorem test_idcode : State.reset.idcode = 0x0163256B#32 := by decide +kernel

/-! ### Ill-formed commands -/

def hBad : Hdr := { h0 with prio := 4 }
def okShare : ShareOps := ⟨false, 0, List.replicate 8 1, 0⟩
def okFlit : Flit := ⟨true, 0, 0, 0, 0, 0, 0, 0, zeros 2560⟩
def okJoin : JoinPacket := ⟨0, 0, 0, 0, List.replicate 5 0, zeros 32⟩
def okAns : List Bool := List.replicate 12 true
def okErr : List (List Nat) := List.replicate 12 (List.replicate 17 0)
def okFar : List (List Nat) := List.replicate 2 (List.replicate 8 0)
def okTemp : List Nat := List.replicate 64 0
def okRaw : List Bool := List.replicate 1024 true

theorem test_wf_MatmulBlk : (([
   { mmBlk with aAddr := 2 ^ 64 }, { mmBlk with bAddr := 2 ^ 64 }, { mmBlk with cAddr := 2 ^ 64 },
   { mmBlk with cinAddr := 2 ^ 64 }, { mmBlk with rescaleAddr := 2 ^ 64 }, { mmBlk with statsAddr := 2 ^ 64 },
   { mmBlk with m := 2 ^ 32 }, { mmBlk with n := 2 ^ 32 }, { mmBlk with k := 2 ^ 32 }, { mmBlk with lda := 2 ^ 32 },
   { mmBlk with ldb := 2 ^ 32 }, { mmBlk with ldc := 2 ^ 32 }, { mmBlk with ldcin := 2 ^ 32 }, { mmBlk with opfmt := 2 ^ 4 },
   { mmBlk with resfmt := 2 ^ 4 }, { mmBlk with rnd := 2 ^ 3 }] : List MatmulBlk).all (fun x => !x.wf)) = true ∧ (mmBlk).wf = true := by decide +kernel
theorem test_wf_KernelBlk : (([
   { kBlk with imageAddr := 2 ^ 64 }, { kBlk with entry := 2 ^ 64 }, { kBlk with argAddr := 2 ^ 64 },
   { kBlk with cycleLimit := 2 ^ 64 }, { kBlk with imageLen := 2 ^ 32 }, { kBlk with policy := 2 ^ 8 },
   { kBlk with readRanges := [] }, { kBlk with readRanges := List.replicate 4 (2 ^ 64, 0) },
   { kBlk with readRanges := List.replicate 4 (0, 2 ^ 64) }, { kBlk with writeRanges := [] }] : List KernelBlk).all (fun x => !x.wf)) = true ∧ (kBlk).wf = true := by decide +kernel
theorem test_wf_QueueOps : (([
   { (default : QueueOps) with ringAddr := 2 ^ 64 }, { (default : QueueOps) with qtype := 2 ^ 8 },
   { (default : QueueOps) with qid := 2 ^ 8 }, { (default : QueueOps) with log2Size := 2 ^ 8 },
   { (default : QueueOps) with cqid := 2 ^ 8 }, { (default : QueueOps) with coalCount := 2 ^ 8 },
   { (default : QueueOps) with weight := 2 ^ 8 }, { (default : QueueOps) with vector := 2 ^ 16 },
   { (default : QueueOps) with coalTime := 2 ^ 16 }] : List QueueOps).all (fun x => !x.wf)) = true ∧ ((default : QueueOps)).wf = true := by decide +kernel
theorem test_wf_MemMapOps : (([
   { (default : MemMapOps) with addr := 2 ^ 64 }, { (default : MemMapOps) with dpa := 2 ^ 64 },
   { (default : MemMapOps) with count := 2 ^ 32 }, { (default : MemMapOps) with op := 2 ^ 8 },
   { (default : MemMapOps) with size := 2 ^ 8 }, { (default : MemMapOps) with attr := 2 ^ 8 }] : List MemMapOps).all (fun x => !x.wf)) = true ∧ ((default : MemMapOps)).wf = true := by decide +kernel
theorem test_wf_StatsOps : (([
   { statsOps with src := 2 ^ 64 }, { statsOps with dst := 2 ^ 64 }, { statsOps with rows := 2 ^ 32 },
   { statsOps with cols := 2 ^ 32 }, { statsOps with ld := 2 ^ 32 }, { statsOps with fmt := 2 ^ 8 }] : List StatsOps).all (fun x => !x.wf)) = true ∧ (statsOps).wf = true := by decide +kernel
theorem test_wf_ConvertOps : (([
   { convertOps with src := 2 ^ 64 }, { convertOps with dst := 2 ^ 64 }, { convertOps with count := 2 ^ 32 },
   { convertOps with srcFmt := 2 ^ 8 }, { convertOps with dstFmt := 2 ^ 8 }] : List ConvertOps).all (fun x => !x.wf)) = true ∧ (convertOps).wf = true := by decide +kernel
theorem test_wf_RngOps : (([
   { rngOps with dst := 2 ^ 64 }, { rngOps with count := 2 ^ 32 }, { rngOps with fmt := 2 ^ 8 },
   { rngOps with dist := 2 ^ 8 }] : List RngOps).all (fun x => !x.wf)) = true ∧ (rngOps).wf = true := by decide +kernel
theorem test_wf_GatherEntry : (([
   { gEntry with fmt := 2 ^ 8 }, { gEntry with firstRow := 2 ^ 32 }, { gEntry with rowCount := 2 ^ 32 },
   { gEntry with dstStride := 2 ^ 32 }, { gEntry with dst := 2 ^ 64 }] : List GatherEntry).all (fun x => !x.wf)) = true ∧ (gEntry).wf = true := by decide +kernel
theorem test_wf_CollOps : (([
   { collOps with src := 2 ^ 64 }, { collOps with dst := 2 ^ 64 }, { collOps with count := 2 ^ 64 },
   { collOps with rstride := 2 ^ 64 }, { collOps with group := 2 ^ 16 }, { collOps with op := 2 ^ 8 },
   { collOps with fmt := 2 ^ 8 }, { collOps with algo := 2 ^ 8 }, { collOps with root := 2 ^ 32 }] : List CollOps).all (fun x => !x.wf)) = true ∧ (collOps).wf = true := by decide +kernel
theorem test_wf_GroupBlk : (([
   { (grp 1).blk with members := 2 ^ 8 }, { (grp 1).blk with thisMember := 2 ^ 8 }, { (grp 1).blk with treeMax := 2 ^ 32 },
   { (grp 1).blk with chainAbove := 2 ^ 32 }, { (grp 1).blk with silentMs := 2 ^ 32 }, { (grp 1).blk with joinMs := 2 ^ 32 },
   { (grp 1).blk with nodes := [] }, { (grp 1).blk with nodes := List.replicate 64 65536 }] : List GroupBlk).all (fun x => !x.wf)) = true ∧ ((grp 1).blk).wf = true := by decide +kernel
theorem test_wf_TrigBlk : (([
   { trig0 with kind := 2 ^ 8 }, { trig0 with issuer := 2 ^ 8 }, { trig0 with waitCtr := 2 ^ 8 },
   { trig0 with signalCtr := 2 ^ 8 }, { trig0 with remoteCtr := 2 ^ 8 }, { trig0 with vc := 2 ^ 8 },
   { trig0 with copcode := 2 ^ 8 }, { trig0 with op := 2 ^ 8 }, { trig0 with fmt := 2 ^ 8 }, { trig0 with algo := 2 ^ 8 },
   { trig0 with group := 2 ^ 16 }, { trig0 with src := 2 ^ 64 }, { trig0 with dst := 2 ^ 64 },
   { trig0 with length := 2 ^ 64 }, { trig0 with rstride := 2 ^ 64 }, { trig0 with root := 2 ^ 32 }] : List TrigBlk).all (fun x => !x.wf)) = true ∧ (trig0).wf = true := by decide +kernel
theorem test_wf_JoinBlk : (([
   { joinBlk 3 with thisSite := 2 ^ 8 }, { joinBlk 3 with members := 2 ^ 8 }, { joinBlk 3 with thisMember := 2 ^ 8 },
   { joinBlk 3 with farPorts := 2 ^ 8 }, { joinBlk 3 with h := 2 ^ 32 }, { joinBlk 3 with graceUs := 2 ^ 32 },
   { joinBlk 3 with takeoverUs := 2 ^ 32 }, { joinBlk 3 with digestUs := 2 ^ 32 }, { joinBlk 3 with rtxGib := 2 ^ 32 },
   { joinBlk 3 with recvGib := 2 ^ 32 }, { joinBlk 3 with t0 := 2 ^ 64 }, { joinBlk 3 with periodNs := 2 ^ 64 },
   { joinBlk 3 with landAddr := 2 ^ 64 }, { joinBlk 3 with landLen := 2 ^ 64 }, { joinBlk 3 with stale := [] },
   { joinBlk 3 with udpPort := 2 ^ 16 }, { joinBlk 3 with srcIp := 2 ^ 128 }, { joinBlk 3 with mac0 := 2 ^ 48 },
   { joinBlk 3 with mac1 := 2 ^ 48 }, { joinBlk 3 with peers := [] },
   { joinBlk 3 with peers := List.replicate 16 ⟨2 ^ 128, 0⟩ }, { joinBlk 3 with peers := List.replicate 16 ⟨0, 2 ^ 16⟩ }] : List JoinBlk).all (fun x => !x.wf)) = true ∧ (joinBlk 3).wf = true := by decide +kernel
theorem test_wf_CutBlk : (([
   { lay with kerfMaster := 2 ^ 64 }, { lay with kerfM1 := 2 ^ 64 }, { lay with kerfM2 := 2 ^ 64 },
   { lay with kerfOmom := 2 ^ 64 }] : List CutBlk).all (fun x => !x.wf)) = true ∧ (lay).wf = true := by decide +kernel
theorem test_wf_CipherOps : (([
   { (default : CipherOps) with src := 2 ^ 64 }, { (default : CipherOps) with dst := 2 ^ 64 },
   { (default : CipherOps) with length := 2 ^ 64 }, { (default : CipherOps) with aadAddr := 2 ^ 64 },
   { (default : CipherOps) with auxAddr := 2 ^ 64 }, { (default : CipherOps) with slot := 2 ^ 8 },
   { (default : CipherOps) with aadLen := 2 ^ 32 }] : List CipherOps).all (fun x => !x.wf)) = true ∧ ((default : CipherOps)).wf = true := by decide +kernel
theorem test_wf_ShareOps : (([
   { okShare with slotLimit := 2 ^ 16 }, { okShare with weights := [] }, { okShare with weights := List.replicate 8 256 },
   { okShare with farShare := 2 ^ 8 }] : List ShareOps).all (fun x => !x.wf)) = true ∧ (okShare).wf = true := by decide +kernel
theorem test_wf_Packet : (([
   { pkt with dnode := 2 ^ 12 }, { pkt with snode := 2 ^ 12 }, { pkt with vc := 2 ^ 3 }, { pkt with typ := 2 ^ 5 },
   { pkt with bay := 2 ^ 4 }, { pkt with hops := 2 ^ 4 }, { pkt with group := 2 ^ 6 }, { pkt with offset := 2 ^ 48 },
   { pkt with tag := 2 ^ 16 }, { pkt with data := zeros 2049 }] : List Packet).all (fun x => !x.wf)) = true ∧ (pkt).wf = true := by decide +kernel
theorem test_wf_Flit : (([
   { okFlit with kind := 2 ^ 4 }, { okFlit with fseq := 2 ^ 12 }, { okFlit with ackseq := 2 ^ 12 },
   { okFlit with crvc := 2 ^ 3 }, { okFlit with crcount := 2 ^ 9 }, { okFlit with payload := zeros 2559 }] : List Flit).all (fun x => !x.wf)) = true ∧ (okFlit).wf = true := by decide +kernel
theorem test_wf_CollSeg : (([
   { seg1 with bay := 2 ^ 4 }, { seg1 with group := 2 ^ 6 }, { seg1 with member := 2 ^ 6 },
   { seg1 with ops := { collOps with fmt := 256 } }, { seg1 with lo := 3 }, { seg1 with vc := 8 }, { seg1 with elems := [2 ^ 64] }] : List CollSeg).all (fun x => !x.wf)) = true ∧ (seg1).wf = true := by decide +kernel
theorem test_wf_GatherSeg : (([
   { gseg with bay := 2 ^ 4 }, { gseg with member := 2 ^ 6 }, { gseg with want := { gEntry with fmt := 256 } }, { gseg with vc := 8 }] : List GatherSeg).all (fun x => !x.wf)) = true ∧ (gseg).wf = true := by decide +kernel
theorem test_wf_JoinPacket : (([
   { okJoin with bay := 2 ^ 4 }, { okJoin with group := 2 ^ 6 }, { okJoin with member := 2 ^ 6 }, { okJoin with snode := 2 ^ 12 },
   { okJoin with versions := [] }, { okJoin with digest := [0] }] : List JoinPacket).all (fun x => !x.wf)) = true ∧ (okJoin).wf = true := by decide +kernel
theorem test_wf_Dgram : (([
   { dg with srcSite := 2 ^ 4 }, { dg with dstSite := 2 ^ 4 }, { dg with member := 2 ^ 8 }, { dg with frag := 2 ^ 8 },
   { dg with fragCount := 2 ^ 8 }, { dg with sent := 2 ^ 64 }, { dg with echo := 2 ^ 64 }, { dg with tag := zeros 17 }] : List Dgram).all (fun x => !x.wf)) = true ∧ (dg).wf = true := by decide +kernel
theorem test_wf_FarFrame : (([
   { (default : FarFrame) with port := 2 ^ 1 }, { (default : FarFrame) with dmac := 2 ^ 48 },
   { (default : FarFrame) with etherType := 2 ^ 16 }, { (default : FarFrame) with dstPort := 2 ^ 16 },
   { (default : FarFrame) with nextHeader := 2 ^ 8 }, { (default : FarFrame) with dstIp := 2 ^ 128 }] : List FarFrame).all (fun x => !x.wf)) = true ∧ ((default : FarFrame)).wf = true := by decide +kernel
theorem test_wf_Hdr : (([
   { h0 with org := .bay 16 0 }, { h0 with org := .bay 0 8 }, { h0 with prio := 4 }, { h0 with wait := some (256, 0) },
   { h0 with signal := some 256 }] : List Hdr).all (fun x => !x.wf)) = true ∧ (h0).wf = true := by decide +kernel
theorem test_wf_CoreRef : (([
   ⟨32, 0⟩, ⟨0, 10⟩] : List CoreRef).all (fun x => !x.wf)) = true := by decide +kernel
theorem test_wf_Func : (([
   .vf 16] : List Func).all (fun x => !x.wf)) = true := by decide +kernel
theorem test_wf_HostWrite : (([
   ⟨2 ^ 64, []⟩] : List HostWrite).all (fun x => !x.wf)) = true := by decide +kernel
theorem test_wf_CqRef : (([
   .bay 16 0, .bay 0 8] : List CqRef).all (fun x => !x.wf)) = true := by decide +kernel
theorem test_wf_Pll : (([
   .fabricPort 12, .farPort 2] : List Pll).all (fun x => !x.wf)) = true := by decide +kernel
theorem test_wf_MgmtMsg : (([
   .report 64 0 0 0 0] : List MgmtMsg).all (fun x => !x.wf)) = true := by decide +kernel
theorem test_wf_LineKind : (([
   .state 3] : List LineKind).all (fun x => !x.wf)) = true := by decide +kernel
theorem test_wf_BistFail : (([
   .cube 34 0 0, .cube 0 4 0, .cube 0 0 68, .core 34 0, .core 0 10, .bank 34 0, .bank 0 68, .cluster 34, .dramRow 24,
   .fatal 20] : List BistFail).all (fun x => !x.wf)) = true := by decide +kernel
theorem test_wf_SeasonReading : (([
   ⟨2, 34, 0, 0, 0, 0⟩, ⟨8, 384, 0, 0, 0, 0⟩, ⟨8, 17, 0, 0, 0, 0⟩, ⟨10, 8, 0, 0, 0, 0⟩, ⟨11, 16, 0, 0, 0, 0⟩,
   ⟨12, 4, 0, 0, 0, 0⟩, ⟨13, 64, 0, 0, 0, 0⟩, ⟨13, 8, 0, 0, 0, 0⟩, ⟨0, 0, 0, 0, 0, 0⟩] : List SeasonReading).all (fun x => !x.wf)) = true := by decide +kernel
def illFormed0 : List Instr :=
  [.nop hBad, .identify hBad 0 0, .identify h0 (2 ^ 8) 0, .identify h0 0 (2 ^ 64), .getLog hBad 0 false 0 0 0 0,
   .getLog h0 (2 ^ 8) false 0 0 0 0, .getLog h0 0 false (2 ^ 8) 0 0 0, .getLog h0 0 false 0 (2 ^ 64) 0 0,
   .getLog h0 0 false 0 0 (2 ^ 32) 0, .getLog h0 0 false 0 0 0 (2 ^ 32), .queueCreate hBad default,
   .queueCreate h0 { (default : QueueOps) with qtype := 256 }, .queueDelete hBad 0 0, .queueDelete h0 (2 ^ 8) 0,
   .queueDelete h0 0 (2 ^ 8), .counterSet hBad 0 false false 0, .counterSet h0 256 false false 0, .memCopy hBad 0 0 0,
   .memCopy h0 (2 ^ 64) 0 0, .memCopy h0 0 (2 ^ 64) 0, .memCopy h0 0 0 (2 ^ 64), .memFill hBad 0 0 0,
   .memFill h0 (2 ^ 64) 0 0, .memFill h0 0 (2 ^ 64) 0, .memMap hBad default,
   .memMap h0 { (default : MemMapOps) with op := 256 }, .memPlace hBad 0 0 0, .memPlace h0 (2 ^ 64) 0 0,
   .memPlace h0 0 (2 ^ 64) 0, .memPlace h0 0 0 (2 ^ 8)]
def illFormed1 : List Instr :=
  [.kernelLaunch hBad kBlk, .kernelLaunch h0 { kBlk with policy := 256 }, .matmul hBad mmBlk,
   .matmul h0 { mmBlk with rnd := 8 }, .quantStats hBad statsOps, .quantStats h0 { statsOps with fmt := 256 },
   .convert hBad convertOps, .convert h0 { convertOps with srcFmt := 256 }, .rngFill hBad rngOps,
   .rngFill h0 { rngOps with dist := 256 }, .stepGather hBad 0 [gEntry], .stepGather h0 0 [{ gEntry with fmt := 256 }],
   .stepUpdate hBad 0 0 false false, .stepUpdate h0 (2 ^ 64) 0 false false, .updateArm hBad 0 0 0 false,
   .updateArm h0 (2 ^ 64) 0 0 false, .updateArm h0 0 0 (2 ^ 16) false, .updateDisarm hBad 0, .normClip hBad 0 0 0,
   .normClip h0 (2 ^ 16) 0 0, .shardMapLoad hBad 0 0, .shardMapLoad h0 (2 ^ 64) 0, .shardMapLoad h0 0 (2 ^ 32),
   .collAllreduce hBad collOps, .collAllreduce h0 { collOps with op := 256 }, .collAllgather hBad collOps,
   .collAllgather h0 { collOps with op := 256 }, .collReduceScatter hBad collOps,
   .collReduceScatter h0 { collOps with op := 256 }, .collBroadcast hBad collOps]
def illFormed2 : List Instr :=
  [.collBroadcast h0 { collOps with op := 256 }, .collGroupCreate hBad 0 (grp 1).blk,
   .collGroupCreate h0 (2 ^ 16) (grp 1).blk, .collGroupCreate h0 0 { (grp 1).blk with members := 256 },
   .collGroupDestroy hBad 0, .collGroupDestroy h0 (2 ^ 16), .triggerArm hBad trig0,
   .triggerArm h0 { trig0 with kind := 256 }, .triggerDisarm hBad 0, .triggerDisarm h0 (2 ^ 16),
   .scarfJoin hBad (joinBlk 3) 0 0, .scarfJoin h0 { joinBlk 3 with farPorts := 256 } 0 0,
   .scarfJoin h0 (joinBlk 3) (2 ^ 16) 0, .scarfJoin h0 (joinBlk 3) 0 (2 ^ 8), .scarfLeave hBad, .scarfEpochClose hBad 0 0,
   .scarfCancel hBad 0 0 0, .scarfCancel h0 0 (2 ^ 8) 0, .scarfCatchup hBad 0, .scarfCatchup h0 (2 ^ 8), .ckptCut hBad 0 lay,
   .ckptCut h0 0 { lay with kerfM1 := 2 ^ 64 }, .ckptDrain hBad 0 0 0 0, .ckptDrain h0 (2 ^ 64) 0 0 0,
   .ckptDrain h0 0 0 (2 ^ 8) 0, .ckptDrain h0 0 0 0 (2 ^ 8), .ckptRelease hBad 0, .ckptRestore hBad 0 0 0,
   .ckptRestore h0 (2 ^ 64) 0 0, .ckptRestore h0 0 (2 ^ 64) 0]
def illFormed3 : List Instr :=
  [.ckptRestore h0 0 0 (2 ^ 8), .ckptVerify hBad 0 0 0, .ckptVerify h0 (2 ^ 64) 0 0, .ckptVerify h0 0 (2 ^ 64) 0,
   .ckptVerify h0 0 0 (2 ^ 8), .exportStream hBad 0 0 0, .exportStream h0 (2 ^ 64) 0 0, .exportStream h0 0 (2 ^ 64) 0,
   .txnBegin hBad 0, .txnBegin h0 (2 ^ 8), .txnCommit hBad 0 0, .txnCommit h0 (2 ^ 8) 0, .txnCommit h0 0 (2 ^ 16),
   .txnRollback hBad 0, .txnRollback h0 (2 ^ 8), .bindCluster hBad 0 false 0, .bindCluster h0 (2 ^ 8) false 0,
   .bindMemory hBad 0 false 0 0, .bindMemory h0 (2 ^ 8) false 0 0, .bindMemory h0 0 false (2 ^ 32) 0,
   .bindMemory h0 0 false 0 (2 ^ 32), .bindShares hBad 0 okShare, .bindShares h0 (2 ^ 8) okShare,
   .bindShares h0 0 { okShare with farShare := 256 }, .bayReset hBad 0 false, .bayReset h0 (2 ^ 8) false,
   .keyLoad hBad 0 0 0, .keyLoad h0 (2 ^ 8) 0 0, .keyLoad h0 0 (2 ^ 8) 0, .keyLoad h0 0 0 (2 ^ 64)]
def illFormed4 : List Instr :=
  [.keyErase hBad 0, .keyErase h0 (2 ^ 8), .cipherRun hBad default, .cipherRun h0 { (default : CipherOps) with slot := 256 },
   .digestRun hBad 0 0 0, .digestRun h0 (2 ^ 64) 0 0, .digestRun h0 0 (2 ^ 64) 0, .digestRun h0 0 0 (2 ^ 64),
   .entropyRead hBad 0 0, .entropyRead h0 (2 ^ 64) 0, .entropyRead h0 0 (2 ^ 32), .licenceInstall hBad 0 0,
   .licenceInstall h0 (2 ^ 64) 0, .licenceInstall h0 0 (2 ^ 32), .telemetryRead hBad 0 0 0, .telemetryRead h0 (2 ^ 8) 0 0,
   .telemetryRead h0 0 (2 ^ 64) 0, .telemetryRead h0 0 0 (2 ^ 32), .seasonReport hBad 0 0, .seasonReport h0 (2 ^ 64) 0,
   .seasonReport h0 0 (2 ^ 32), .floorplanRead hBad 0 0, .floorplanRead h0 (2 ^ 64) 0, .floorplanRead h0 0 (2 ^ 32),
   .linkTest hBad 0 0 0, .linkTest h0 (2 ^ 8) 0 0, .linkTest h0 0 (2 ^ 8) 0, .linkTest h0 0 0 (2 ^ 32), .haltBay hBad 0,
   .haltBay h0 (2 ^ 8)]
def illFormed5 : List Instr :=
  [.evictBay hBad 0 0, .evictBay h0 (2 ^ 8) 0, .resumeBay hBad 0, .resumeBay h0 (2 ^ 8), .tidyCvt ⟨32, 0⟩ 0 0,
   .tidyCvt c3 32 0, .tidyCvt c3 0 32, .tidyWid ⟨32, 0⟩ 0 0, .tidyWid c3 32 0, .tidyWid c3 0 32, .tidyStat ⟨32, 0⟩ 0 0,
   .tidyStat c3 32 0, .tidyStat c3 0 32, .tidyRsc ⟨32, 0⟩ 0 0 0, .tidyRsc c3 32 0 0, .tidyRsc c3 0 32 0, .tidyRsc c3 0 0 32,
   .tidyQblk ⟨32, 0⟩ 0 0, .tidyQblk c3 32 0, .tidyQblk c3 0 32, .tidyDrop ⟨32, 0⟩ 0 0 0, .tidyDrop c3 32 0 0,
   .tidyDrop c3 0 32 0, .tidyDrop c3 0 0 32, .tidyGth ⟨32, 0⟩ 0 0, .tidyGth c3 32 0, .tidyGth c3 0 32, .tidySct ⟨32, 0⟩ 0 0,
   .tidySct c3 32 0, .tidySct c3 0 32]
def illFormed6 : List Instr :=
  [.grainGet ⟨32, 0⟩ 0 0, .grainGet c3 32 0, .grainGet c3 0 32, .tidyDma ⟨32, 0⟩ 0 0, .tidyDma c3 32 0, .tidyDma c3 0 32,
   .xtenonCsrWrite ⟨32, 0⟩ 0 0, .xtenonCsrWrite c3 (2 ^ 12) 0, .kernelEcallExit ⟨32, 0⟩, .coreException ⟨32, 0⟩ 0 0,
   .coreException c3 (2 ^ 64) 0, .dmaDescriptorDone ⟨32, 0⟩ 0, .dmaDescriptorDone c3 2, .submissionDoorbell 16 0 0 [],
   .submissionDoorbell 0 8 0 [], .submissionDoorbell 0 0 0 [⟨2 ^ 64, []⟩], .completionDoorbell 16 0 0,
   .completionDoorbell 0 8 0, .ctlSqTail 0 [⟨2 ^ 64, []⟩], .eventCounterWrite 16 0 (.full 0),
   .eventCounterWrite 0 256 (.full 0), .eventMaskWrite 16 0, .adminPairEnable 16 0, .adminPairDisable 16 0,
   .registerWrite (.vf 16) 0 [], .registerWrite .pf (2 ^ 24) [], .registerWrite .pf 0 (zeros 65), .apertureRead 16 0 0,
   .apertureRead 0 (2 ^ 64) 0, .apertureRead 0 0 (2 ^ 64)]
def illFormed7 : List Instr :=
  [.apertureWrite 16 0 [], .apertureWrite 0 (2 ^ 64) [], .vfFunctionLevelReset 16, .completionPost (.bay 0 8),
   .coalesceTimer (.bay 0 8), .triggerFire 16 0, .triggerFire 0 64, .bayHalted 16, .haltMemoryAbsorb 16 0, .haltFlushLate 16,
   .clusterResetAbsorb 32, .updateSegmentArrival 16 0 [], .updateSegmentArrival 0 0 [2 ^ 32], .cutCopy 16, .predictiveCut 16,
   .evictBoundaryReached 16, .evictTimeout 16, .epochClosePass 16, .bundleGrant 16 0 0, .bundleGrant 0 0 16,
   .bundleLanding 16 0 0, .bundleLanding 0 16 0, .fragment 16 0 dg, .fragment 0 2 dg,
   .fragment 0 0 { dg with srcSite := 16 }, .sack 16 0 dg, .sack 0 2 dg, .sack 0 0 { dg with srcSite := 16 },
   .admissionVector 16 0 dg, .admissionVector 0 2 dg]
def illFormed8 : List Instr :=
  [.admissionVector 0 0 { dg with srcSite := 16 }, .ledgerEntry 16 0 dg, .ledgerEntry 0 2 dg,
   .ledgerEntry 0 0 { dg with srcSite := 16 }, .digest 16 0 dg, .digest 0 2 dg, .digest 0 0 { dg with srcSite := 16 },
   .catchupRequest 16 0 dg, .catchupRequest 0 2 dg, .catchupRequest 0 0 { dg with srcSite := 16 }, .catchupData 16 0 dg,
   .catchupData 0 2 dg, .catchupData 0 0 { dg with srcSite := 16 }, .controlAcknowledgement 16 0 dg,
   .controlAcknowledgement 0 2 dg, .controlAcknowledgement 0 0 { dg with srcSite := 16 }, .hello 16 0 dg, .hello 0 2 dg,
   .hello 0 0 { dg with srcSite := 16 }, .joinHelloTimeout 16, .ackTimer 16 0, .ackTimer 0 16, .rtoExpiry 16 0,
   .rtoExpiry 0 16, .peerUnreachable 16 0, .peerUnreachable 0 16, .portHoldTimeout 16, .admissionCut 16, .tallySlot 16 0,
   .tallySlot 0 16]
def illFormed9 : List Instr :=
  [.ledgerFinal 16, .digestSettle 16, .flitReceive 12 okFlit, .flitReceive 0 { okFlit with kind := 16 },
   .replayRequest 12 okFlit, .replayRequest 0 { okFlit with kind := 16 }, .stompFlit 12 okFlit,
   .stompFlit 0 { okFlit with kind := 16 }, .packetRelay 12 pkt, .packetRelay 0 { pkt with typ := 32 },
   .fabricWrite { pkt with typ := 32 }, .readRequest { pkt with typ := 32 }, .readResponse { pkt with typ := 32 },
   .collectiveSegment { seg1 with bay := 16 }, .gatherSegment { gseg with bay := 16 }, .counterAdd { pkt with typ := 32 },
   .groupControl { okJoin with bay := 16 }, .groupAbort 16 0, .groupAbort 0 64, .collJoinTimeout 16 0, .collJoinTimeout 0 64,
   .collSilentTimeout 16 0, .collSilentTimeout 0 64, .laneLossOfLock 14 0, .laneLossOfLock 0 17, .laneLossOfLock 12 8,
   .portRetry 12 false (List.replicate 17 0), .portRetry 0 false [], .seasoningSample [⟨2, 34, 0, 0, 0, 0⟩],
   .cubeSubstitution 34 0 0, .cubeSubstitution 0 4 0]
def illFormed10 : List Instr :=
  [.cubeSubstitution 0 0 68, .clusterRetirement 32, .coreRetirement 34 0, .coreRetirement 0 10, .bankRetirement 34 0,
   .bankRetirement 0 68, .lineRecovery 0 (.state 3) 0 0 0, .dramRefresh 16 false 0,
   .dramTraining [24] [none, none, none, none], .dramTraining [] [], .laneTraining [] okErr okFar,
   .laneTraining okAns (List.replicate 12 []) okFar, .laneTraining okAns okErr [], .bist [.fatal 20],
   .gcrtBroadcast [(34, 0)], .gcrtBroadcast [(0, 10)], .pldmFirmwareUpdate [(6, [])], .keyAlarm 4, .thermalTrip 64 0,
   .thermalTrip 0 (2 ^ 16), .thermalSensorSample [], .thermalSensorSample (List.replicate 64 65536), .protectionLevelExit 3,
   .dramThermalHold true 16, .dramThermalHold false 8, .dramThermalRelease true 16, .dramThermalRelease false 8,
   .pllLossOfLock (.farPort 2), .cxlLinkDown 4, .siteTodFrame []]
def illFormed11 : List Instr :=
  [.trngOutput [], .catchupTimeout 16, .farFilteredFrame { (default : FarFrame) with port := 2 },
   .managementPacket 16 (.vector 0 []), .managementPacket 0 (.report 64 0 0 0 0)]
theorem test_illFormed0 : illFormed0.all (fun i => !i.wf) = true := by decide +kernel
theorem test_illFormed1 : illFormed1.all (fun i => !i.wf) = true := by decide +kernel
theorem test_illFormed2 : illFormed2.all (fun i => !i.wf) = true := by decide +kernel
theorem test_illFormed3 : illFormed3.all (fun i => !i.wf) = true := by decide +kernel
theorem test_illFormed4 : illFormed4.all (fun i => !i.wf) = true := by decide +kernel
theorem test_illFormed5 : illFormed5.all (fun i => !i.wf) = true := by decide +kernel
theorem test_illFormed6 : illFormed6.all (fun i => !i.wf) = true := by decide +kernel
theorem test_illFormed7 : illFormed7.all (fun i => !i.wf) = true := by decide +kernel
theorem test_illFormed8 : illFormed8.all (fun i => !i.wf) = true := by decide +kernel
theorem test_illFormed9 : illFormed9.all (fun i => !i.wf) = true := by decide +kernel
theorem test_illFormed10 : illFormed10.all (fun i => !i.wf) = true := by decide +kernel
theorem test_illFormed11 : illFormed11.all (fun i => !i.wf) = true := by decide +kernel
def wellFormed0 : List Instr :=
  [.nop h0, .identify h0 0 0, .getLog h0 0 false 0 0 0 0, .queueCreate h0 default, .queueDelete h0 0 0,
   .counterSet h0 0 false false 0, .memCopy h0 0 0 0, .memFill h0 0 0 0, .memMap h0 default, .memPlace h0 0 0 0,
   .kernelLaunch h0 kBlk, .matmul h0 mmBlk, .quantStats h0 statsOps, .convert h0 convertOps, .rngFill h0 rngOps,
   .stepGather h0 0 [gEntry], .stepUpdate h0 0 0 false false, .updateArm h0 0 0 0 false, .updateDisarm h0 0,
   .normClip h0 0 0 0, .shardMapLoad h0 0 0, .collAllreduce h0 collOps, .collAllgather h0 collOps,
   .collReduceScatter h0 collOps, .collBroadcast h0 collOps, .collGroupCreate h0 0 (grp 1).blk, .collGroupDestroy h0 0,
   .triggerArm h0 trig0, .triggerDisarm h0 0, .scarfJoin h0 (joinBlk 3) 0 0, .scarfLeave h0, .scarfEpochClose h0 0 0,
   .scarfCancel h0 0 0 0, .scarfCatchup h0 0, .ckptCut h0 0 lay, .ckptDrain h0 0 0 0 0, .ckptRelease h0 0,
   .ckptRestore h0 0 0 0, .ckptVerify h0 0 0 0, .exportStream h0 0 0 0]
def wellFormed1 : List Instr :=
  [.txnBegin h0 0, .txnCommit h0 0 0, .txnRollback h0 0, .bindCluster h0 0 false 0, .bindMemory h0 0 false 0 0,
   .bindShares h0 0 okShare, .bayReset h0 0 false, .keyLoad h0 0 0 0, .keyErase h0 0, .cipherRun h0 default,
   .digestRun h0 0 0 0, .entropyRead h0 0 0, .licenceInstall h0 0 0, .telemetryRead h0 0 0 0, .seasonReport h0 0 0,
   .floorplanRead h0 0 0, .linkTest h0 0 0 0, .haltBay h0 0, .evictBay h0 0 0, .resumeBay h0 0, .tidyCvt c3 0 0,
   .tidyWid c3 0 0, .tidyStat c3 0 0, .tidyRsc c3 0 0 0, .tidyQblk c3 0 0, .tidyDrop c3 0 0 0, .tidyGth c3 0 0,
   .tidySct c3 0 0, .grainGet c3 0 0, .tidyDma c3 0 0, .xtenonCsrWrite c3 0 0, .kernelEcallExit c3, .coreException c3 0 0,
   .cycleLimit 0, .dmaDescriptorDone c3 0, .submissionDoorbell 0 0 0 [], .completionDoorbell 0 0 0, .ctlSqTail 0 [],
   .ctlCqHead 0, .urgSqTail 0]
def wellFormed2 : List Instr :=
  [.urgCqHead 0, .eventCounterWrite 0 0 (.full 0), .intMaskWrite 0, .eventMaskWrite 0 0, .coreReset 0, .clusterReset 0,
   .deviceReset 0, .powerDown .pldm, .controlPairEnable 0, .controlPairDisable 0, .adminPairEnable 0 0,
   .adminPairDisable 0 0, .urgentQueueEnable 0, .urgentQueueDisable 0, .registerWrite .pf 0 [], .apertureRead 0 0 0,
   .apertureWrite 0 0 [], .vfFunctionLevelReset 0, .pfFunctionLevelReset, .entryFetch .bays, .commandDispatch 0,
   .completionPost .control, .coalesceTimer .control, .urgentDoorbellSample, .triggerFire 0 0, .pegDrainLimit, .pegComplete,
   .bayHalted 0, .haltMemoryAbsorb 0 0, .haltFlushLate 0, .clusterResetAbsorb 0, .updateSegmentArrival 0 0 [], .cutCopy 0,
   .predictiveCut 0, .evictBoundaryReached 0, .evictTimeout 0, .epochClosePass 0, .bundleGrant 0 0 0, .bundleLanding 0 0 0,
   .fragment 0 0 dg]
def wellFormed3 : List Instr :=
  [.sack 0 0 dg, .admissionVector 0 0 dg, .ledgerEntry 0 0 dg, .digest 0 0 dg, .catchupRequest 0 0 dg, .catchupData 0 0 dg,
   .controlAcknowledgement 0 0 dg, .hello 0 0 dg, .joinHelloTimeout 0, .ackTimer 0 0, .rtoExpiry 0 0, .peerUnreachable 0 0,
   .portHoldTimeout 0, .admissionCut 0, .tallySlot 0 0, .ledgerFinal 0, .digestSettle 0, .flitReceive 0 okFlit,
   .replayRequest 0 okFlit, .stompFlit 0 okFlit, .packetRelay 0 pkt, .fabricWrite pkt, .readRequest pkt, .readResponse pkt,
   .collectiveSegment seg1, .gatherSegment gseg, .counterAdd pkt, .groupControl okJoin, .groupAbort 0 0,
   .collJoinTimeout 0 0, .collSilentTimeout 0 0, .laneLossOfLock 0 0, .portRetry 0 false (List.replicate 17 0),
   .seasoningSample [], .cubeSubstitution 0 0 0, .clusterRetirement 0, .coreRetirement 0 0, .bankRetirement 0 0,
   .lineRecovery 0 .operand 0 0 0, .historyWrite]
def wellFormed4 : List Instr :=
  [.patrolScrub 0, .dramRefresh 0 false 0, .powerInRange, .resetN false, .pciePerstN false, .bootRomStage false,
   .imageSelection, .nvOverlay, .dramTraining [] [none, none, none, none], .laneTraining okAns okErr okFar, .bist [],
   .gcrtBroadcast [], .ready, .pendingBankTimeout, .pldmFirmwareUpdate [], .inputFault 0, .keyAlarm 0, .thermalTrip 0 0,
   .jtagInstructionLoad false, .thermalSensorSample okTemp, .protectionLevelExit 0, .dramThermalHold false 0,
   .dramThermalRelease false 0, .pllLossOfLock .system, .cxlLinkDown 0, .sitePpsEdge, .siteTodFrame (zeros 20), .ppsHoldover,
   .licenceWindowEdge, .trngOutput okRaw, .trngHealthFailure, .trngStartupDone, .catchupTimeout 0, .alarmConditionCleared,
   .jtagTrstN, .farFilteredFrame default, .managementPacket 0 (.vector 0 [])]
theorem test_wellFormed0 : wellFormed0.all (fun i => i.wf) = true := by decide +kernel
theorem test_wellFormed1 : wellFormed1.all (fun i => i.wf) = true := by decide +kernel
theorem test_wellFormed2 : wellFormed2.all (fun i => i.wf) = true := by decide +kernel
theorem test_wellFormed3 : wellFormed3.all (fun i => i.wf) = true := by decide +kernel
theorem test_wellFormed4 : wellFormed4.all (fun i => i.wf) = true := by decide +kernel

/-- No word spells a command: the table gives no row any bits (log 11). -/
theorem test_decodeTableWord : ∀ nbits w, decodeTableWord nbits w = none := fun _ _ => rfl

end Sys2Proof.Tests
end

section
/-!
The counts of the machine's parts through every operation of the model. `PartsCounted.f` says that the operation `f`
keeps them; its proof follows the text of `f`, one rule for each operation that `f` is made of.
-/
set_option Elab.async false
namespace Sys2Proof
open Machine

namespace PartsCounted

variable {s t : State}

/-! ### The state's parts -/

/-- A state with the same bays and as many of each other part is counted. -/
theorem of_lengths (h : PartsCounted s) (hb : t.bays = s.bays := by rfl)
    (hc : t.clusters.length = s.clusters.length := by rfl) (hp : t.ports.length = s.ports.length := by rfl)
    (hf : t.far.length = s.far.length := by rfl) (hd : t.dies.length = s.dies.length := by rfl)
    (hs : t.sensors.length = s.sensors.length := by rfl) (hw : t.power.length = s.power.length := by rfl) :
    PartsCounted t := by
  unfold PartsCounted
  rw [hb, hc, hp, hf, hd, hs, hw]
  exact h

/-- No other field of the state bears on the counts. -/
theorem update
    {pending free faults outs clock factory flash boot bootFeat effFeat dev ctl urg urgRing msix cmds nextAdm
    nextFin joiner version peg zeroMarks lmap lrisk lfailed cores gcrt dram sram local_ host hostDeny poison t3cap
    t3down dramRepairs nv farSent devTele devSince dramHolds codecFenced minor vin iin pout mgmt season errLog
    bootLog trng}
    (h : PartsCounted s) : PartsCounted { s with
      pending := pending, free := free, faults := faults, outs := outs, clock := clock, factory := factory,
      flash := flash, boot := boot, bootFeat := bootFeat, effFeat := effFeat, dev := dev, ctl := ctl,
      urg := urg, urgRing := urgRing, msix := msix, cmds := cmds, nextAdm := nextAdm, nextFin := nextFin,
      joiner := joiner, version := version, peg := peg, zeroMarks := zeroMarks, lmap := lmap, lrisk := lrisk,
      lfailed := lfailed, cores := cores, gcrt := gcrt, dram := dram, sram := sram, local_ := local_,
      host := host, hostDeny := hostDeny, poison := poison, t3cap := t3cap, t3down := t3down,
      dramRepairs := dramRepairs, nv := nv, farSent := farSent, devTele := devTele, devSince := devSince,
      dramHolds := dramHolds, codecFenced := codecFenced, minor := minor, vin := vin, iin := iin, pout := pout,
      mgmt := mgmt, season := season, errLog := errLog, bootLog := bootLog, trng := trng } := h

theorem ite {c : Prop} [Decidable c] (hs : PartsCounted s) (ht : PartsCounted t) :
    PartsCounted (if c then s else t) := by
  split
  · exact hs
  · exact ht

theorem ite_fst {α : Type} {c : Prop} [Decidable c] {a b : State × α}
    (ha : PartsCounted a.1) (hb : PartsCounted b.1) : PartsCounted (if c then a else b).1 := by
  split
  · exact ha
  · exact hb

theorem ite_snd {α : Type} {c : Prop} [Decidable c] {a b : α × State}
    (ha : PartsCounted a.2) (hb : PartsCounted b.2) : PartsCounted (if c then a else b).2 := by
  split
  · exact ha
  · exact hb

theorem foldl {α : Type} {f : State → α → State} {l : List α} (h : PartsCounted s)
    (hf : ∀ s a, PartsCounted s → PartsCounted (f s a)) : PartsCounted (l.foldl f s) := by
  induction l generalizing s with
  | nil => exact h
  | cons a l ih => exact ih (hf _ _ h)

theorem foldl_fst {α β : Type} {f : State × β → α → State × β} {l : List α} {a : State × β}
    (h : PartsCounted a.1) (hf : ∀ a x, PartsCounted a.1 → PartsCounted (f a x).1) :
    PartsCounted (l.foldl f a).1 := by
  induction l generalizing a with
  | nil => exact h
  | cons x l ih => exact ih (hf _ _ h)

theorem foldl_st {α : Type} {f : MatRun → α → MatRun} {l : List α} {w : MatRun} (h : PartsCounted w.st)
    (hf : ∀ w x, PartsCounted w.st → PartsCounted (f w x).st) : PartsCounted (l.foldl f w).st := by
  induction l generalizing w with
  | nil => exact h
  | cons x l ih => exact ih (hf _ _ h)

end PartsCounted

/-- Whatever state an outcome goes on with has its parts counted. -/
def NextCounted (o : Host.Outcome State Fault Refusal) : Prop := ∀ t, o = .next t → PartsCounted t

theorem NextCounted.next {t : State} (h : PartsCounted t) : NextCounted (.next t) := fun _ e => by
  cases e
  exact h

theorem BayCounted.of_lengths {y z : Bay} (h : BayCounted y) (hs : z.sqs.length = y.sqs.length := by rfl)
    (hc : z.cqs.length = y.cqs.length := by rfl) (hn : z.counters.length = y.counters.length := by rfl)
    (hk : z.keys.length = y.keys.length := by rfl) (ht : z.tele.length = y.tele.length := by rfl) : BayCounted z := by
  unfold BayCounted
  rw [hs, hc, hn, hk, ht]
  exact h

theorem length_updNth {α : Type} (l : List α) (i : Nat) (f : α → α) : (updNth l i f).length = l.length :=
  List.length_modify ..

/-- An element of a list with one element changed is an old one, or the new one. -/
theorem mem_updNth {α : Type} {l : List α} {i : Nat} {f : α → α} {x : α} (h : x ∈ updNth l i f) :
    x ∈ l ∨ ∃ y ∈ l, f y = x := by
  obtain ⟨j, hj, rfl⟩ := List.getElem_of_mem h
  have hl : j < l.length := by simpa [updNth] using hj
  by_cases hij : i = j
  · exact .inr ⟨l[j], List.getElem_mem hl, by simp [updNth, hij]⟩
  · exact .inl (by simp [updNth, List.getElem_modify_ne, hij])

/-- A reset empties the queues of a bay and leaves as many (R220). -/
theorem BayCounted.resetQueues {y : Bay} (h : BayCounted y) : BayCounted y.resetQueues :=
  h.of_lengths (hs := by simp [Bay.resetQueues]) (hc := by simp [Bay.resetQueues])

namespace PartsCounted

variable {s t : State}

theorem setBay {b} {f : Bay → Bay} (h : PartsCounted s)
    (hf : ∀ y, BayCounted y → BayCounted (f y) := by exact fun _ hy => hy) : PartsCounted (s.setBay b f) := by
  obtain ⟨hb, hy, hr⟩ := h
  refine ⟨(length_updNth ..).trans hb, fun y hm => ?_, hr⟩
  rcases mem_updNth hm with hm | ⟨z, hz, rfl⟩
  · exact hy y hm
  · exact hf z (hy z hz)

/-- Every bay is replaced by what a function that keeps the counts makes of it. -/
theorem mapBays {f : Bay → Bay} (h : PartsCounted s) (hf : ∀ y, BayCounted y → BayCounted (f y)) :
    PartsCounted { s with bays := s.bays.map f } := by
  obtain ⟨hb, hy, hr⟩ := h
  refine ⟨List.length_map .. |>.trans hb, fun y hm => ?_, hr⟩
  obtain ⟨z, hz, rfl⟩ := List.mem_map.1 hm
  exact hf z (hy z hz)

theorem reset : PartsCounted State.reset := by
  refine ⟨List.length_replicate .., fun y hy => ?_, List.length_replicate .., List.length_replicate ..,
    List.length_replicate .., List.length_replicate .., List.length_replicate .., List.length_replicate ..⟩
  rw [List.eq_of_mem_replicate hy]
  exact ⟨List.length_replicate .., List.length_replicate .., List.length_replicate .., List.length_replicate ..,
    List.length_replicate ..⟩

theorem setCluster {c f} (h : PartsCounted s) : PartsCounted (s.setCluster c f) := h.of_lengths (hc := length_updNth ..)
theorem setPort {p f} (h : PartsCounted s) : PartsCounted (s.setPort p f) := h.of_lengths (hp := length_updNth ..)
theorem setPower {i on} (h : PartsCounted s) : PartsCounted (s.setPower i on) := h.of_lengths (hw := length_updNth ..)
theorem setDie {d f} (h : PartsCounted s) : PartsCounted (s.setDie d f) := h.of_lengths (hd := length_updNth ..)

/-! ### Machine/Mem.lean -/

theorem unmark {r} (h : PartsCounted s) : PartsCounted (s.unmark r) :=
  h.update.ite h

theorem writeLoc {l bs} (h : PartsCounted s) : PartsCounted (s.writeLoc l bs) := by
  unfold State.writeLoc
  dsimp only
  split
  · exact (h.update.foldl fun _ _ hs => hs.unmark).update
  · exact h.update.update
  · exact h.update.update
  · exact h.update.update

theorem clearLoc {l n} (h : PartsCounted s) : PartsCounted (s.clearLoc l n) := by
  unfold State.clearLoc
  dsimp only
  split <;> exact h.update.update

/-! ### Machine/Access.lean -/

theorem writePieces {b acc ps bs} (h : PartsCounted s) : PartsCounted (State.writePieces b acc ps bs s) := by
  induction ps generalizing bs s with
  | nil => exact h
  | cons p ps ih =>
    refine ih ?_
    split
    · exact h.ite h.writeLoc
    · exact h

theorem writeAcc {b acc a bs} (h : PartsCounted s) : PartsCounted (s.writeAcc b acc a bs) :=
  h.writePieces

theorem writeBay {b a bs} (h : PartsCounted s) : PartsCounted (s.writeBay b a bs) :=
  h.writeAcc

/-! ### Machine/Ops.lean -/

theorem useFree {n} (h : PartsCounted s) : PartsCounted (s.useFree n) :=
  h.update

theorem emit {o} (h : PartsCounted s) : PartsCounted (s.emit o) :=
  h.update

theorem devCause {i} (h : PartsCounted s) : PartsCounted (s.devCause i) :=
  h.ite (h.update.emit.ite h.update)

theorem bayIrq {b v} (h : PartsCounted s) : PartsCounted (s.bayIrq b v) :=
  h.emit.ite h

theorem bayEvent {b i} (h : PartsCounted s) : PartsCounted (s.bayEvent b i) :=
  h.ite (h.setBay.bayIrq.ite h.setBay)

theorem bayDoorbellErr {b} (h : PartsCounted s) : PartsCounted (s.bayDoorbellErr b) :=
  h.setBay.bayEvent

theorem log1 {r} (h : PartsCounted s) : PartsCounted (s.log1 r) :=
  h.update.devCause.ite h.update

theorem log2 {b r} (h : PartsCounted s) : PartsCounted (s.log2 b r) :=
  h.setBay.bayEvent

theorem log12 {b r} (h : PartsCounted s) : PartsCounted (s.log12 b r) :=
  h.log1.log2

theorem logPoisonRead {b tag a} (h : PartsCounted s) : PartsCounted (s.logPoisonRead b tag a) :=
  h.log2

theorem logBadReads {b acc tag rs} (h : PartsCounted s) : PartsCounted (s.logBadReads b acc tag rs) := by
  unfold State.logBadReads
  split
  · exact h.logPoisonRead
  · exact h

theorem countBay {b i n} (h : PartsCounted s) : PartsCounted (s.countBay b i n) :=
  h.setBay fun _ hy => hy.of_lengths (ht := length_updNth ..)

theorem countDev {i n} (h : PartsCounted s) : PartsCounted (s.countDev i n) :=
  h.update

theorem countMinor {kind unit sub} (h : PartsCounted s) : PartsCounted (s.countMinor kind unit sub) :=
  h.update

theorem lateReads {b rs} (h : PartsCounted s) : PartsCounted (s.lateReads b rs) :=
  h.countBay.useFree.ite h

theorem raise {b f} (h : PartsCounted s) : PartsCounted (s.raise b f) :=
  h.ite h.setBay

theorem setSlot {adm} {f : Slot → Slot} (h : PartsCounted s) : PartsCounted (s.setSlot adm f) :=
  h.update

theorem onRunning {i} {f : Slot → State} (h : PartsCounted s) (hf : ∀ a, PartsCounted (f a)) :
    PartsCounted (s.onRunning i f) := by
  unfold State.onRunning
  split
  · exact h
  · split
    · exact h
    · exact (hf _).ite h

theorem setActive {adm} (h : PartsCounted s) : PartsCounted (s.setActive adm) :=
  h.setSlot

theorem recheck {b c} (h : PartsCounted s) : PartsCounted (s.recheck b c) :=
  h.update.setBay

theorem bump {b c n err} (h : PartsCounted s) : PartsCounted (s.bump b c n err) :=
  (h.setBay fun _ hy => hy.of_lengths (hn := length_updNth ..)).recheck

theorem markFinished {adm st result} (h : PartsCounted s) : PartsCounted (s.markFinished adm st result) := by
  unfold State.markFinished
  split
  · exact h
  · refine h.ite (.update (.setSlot ?_))
    split
    · exact h.bump
    · exact h

theorem dropSlot {adm} (h : PartsCounted s) : PartsCounted (s.dropSlot adm) :=
  h.update

theorem dropIfSilent {adm} (h : PartsCounted s) : PartsCounted (s.dropIfSilent adm) := by
  unfold State.dropIfSilent
  split
  · exact h.dropSlot.ite h
  · exact h

theorem setSq {b q f} (h : PartsCounted s) : PartsCounted (s.setSq b q f) :=
  h.setBay fun _ hy => hy.of_lengths (hs := length_updNth ..)

theorem setCq {b q f} (h : PartsCounted s) : PartsCounted (s.setCq b q f) :=
  h.setBay fun _ hy => hy.of_lengths (hc := length_updNth ..)

theorem setCounter {b c f} (h : PartsCounted s) : PartsCounted (s.setCounter b c f) :=
  h.setBay fun _ hy => hy.of_lengths (hn := length_updNth ..)

theorem settleQueue {b q} (h : PartsCounted s) : PartsCounted (s.settleQueue b q) := by
  unfold State.settleQueue
  split
  · exact h.setSq.markFinished.dropIfSilent.ite h
  · exact h

theorem settleAdmin {b} (h : PartsCounted s) : PartsCounted (s.settleAdmin b) :=
  .ite (h.setBay fun _ hy => hy.of_lengths (hs := length_updNth ..) (hc := length_updNth ..)) h

theorem settleControl (h : PartsCounted s) : PartsCounted s.settleControl :=
  h.update.ite h

theorem settle {o} (h : PartsCounted s) : PartsCounted (s.settle o) := by
  unfold State.settle
  split
  · exact h.settleQueue.settleAdmin
  · exact h.settleControl
  · exact h

theorem finish {adm st result} (h : PartsCounted s) : PartsCounted (s.finish adm st result) := by
  unfold State.finish
  split
  · exact h
  · exact h.markFinished.dropIfSilent.settle

theorem finishNat {adm st result} (h : PartsCounted s) : PartsCounted (s.finishNat adm st result) :=
  h.finish

theorem fail {adm st} (h : PartsCounted s) : PartsCounted (s.fail adm st) :=
  h.finish

theorem markCorrected {adm} (h : PartsCounted s) : PartsCounted (s.markCorrected adm) :=
  h.setSlot

theorem enter {b st} (h : PartsCounted s) : PartsCounted (s.enter b st) :=
  h.ite h.setBay.bayEvent

theorem mixed {t : State} (h : PartsCounted s) : PartsCounted (s.mixed t) :=
  (h.foldl fun _ _ hs => hs.unmark).update

/-! ### Machine/Matmul.lean -/

theorem failAtRisk {b p} (h : PartsCounted s) : PartsCounted (s.failAtRisk b p) :=
  h.update.log12.ite h

theorem askRetire {p} (h : PartsCounted s) : PartsCounted (s.askRetire p) :=
  h.setCluster

theorem substituteNow {b r cube unit} (h : PartsCounted s) : PartsCounted (s.substituteNow b r cube unit) :=
  h.setCluster.log1

theorem afterStrike {b adm r k} (h : PartsCounted s) : PartsCounted (s.afterStrike b adm r k) := by
  unfold State.afterStrike
  extract_lets
  split
  · extract_lets _ s1
    have h1 : PartsCounted s1 := (h.ite h.countBay).foldl fun _ _ hs => hs.substituteNow
    exact h1.setCluster.askRetire.log12.ite (h1.setCluster.ite h1)
  · exact (h.ite h.countBay).log1
  · exact h.ite h.countBay

theorem complete {adm} {f : State → Eff} (h : PartsCounted s) (hf : ∀ a, PartsCounted a → PartsCounted (f a).1) :
    PartsCounted (s.complete adm f) :=
  (hf _ h).finishNat

theorem completeIn {adm b ins} {f : State → Eff} (h : PartsCounted s)
    (hf : ∀ a, PartsCounted a → PartsCounted (f a).1) : PartsCounted (s.completeIn adm b ins f) := by
  unfold State.completeIn
  refine h.complete fun _ hs => .ite_fst ?_ (hf _ hs)
  dsimp only
  split
  · exact (hf _ hs).logPoisonRead
  · exact hf _ hs

theorem failIn {adm b ins st} (h : PartsCounted s) : PartsCounted (s.failIn adm b ins st) :=
  (h.logBadReads.ite h).fail

theorem matStart {m} (h : PartsCounted s) : PartsCounted (s.matStart m).st :=
  h

theorem matRunMeet {b adm ps} {w : MatRun} {r} (h : PartsCounted w.st) :
    PartsCounted (MatRun.meet b adm ps w r).st := by
  unfold MatRun.meet
  split
  · exact h
  · dsimp only
    split <;> exact h.afterStrike.update

theorem matRun {b adm m retries} (h : PartsCounted s) : PartsCounted (s.matRun b adm m retries).st :=
  h.matStart.foldl_st fun _ _ hs => hs.matRunMeet

theorem matRunLog {w : MatRun} {ps b tag} (h : PartsCounted w.st) : PartsCounted (w.log ps b tag) :=
  h.foldl fun _ _ hs => hs.log1

theorem matRunFailed {w : MatRun} {ps b} (h2 : PartsCounted s) : PartsCounted (w.failed ps b s) := by
  unfold MatRun.failed
  refine h2.foldl fun _ _ hs => ?_
  split
  · exact hs.failAtRisk
  · exact hs

theorem matmulEff {b c m} (h : PartsCounted s) : PartsCounted (State.matmulEff b c m s).1 := by
  unfold State.matmulEff
  split
  · exact h
  · refine h.useFree.matRun.matRunLog.matRunFailed.ite_fst ?_
    extract_lets _ s1
    have h1 : PartsCounted s1 := h.useFree.matRun.matRunLog.foldl fun _ _ hs => hs.writeBay
    exact (h1.writeBay.ite h1).raise

theorem execMatmul {hd m} (h : PartsCounted s) : NextCounted (execMatmul hd m s) := by
  unfold Machine.execMatmul
  refine .next (h.onRunning fun _ => ?_)
  split
  · exact h.completeIn fun _ hs => hs.matmulEff
  · exact h

/-! ### Machine/Licence.lean -/

theorem refreshLicence (h : PartsCounted s) : PartsCounted s.refreshLicence :=
  h.update

theorem licenceInstallEff {addr len} (h : PartsCounted s) : PartsCounted (State.licenceInstallEff addr len s).1 :=
  h.ite_fst (h.ite_fst (h.ite_fst (h.ite_fst (h.ite_fst h.update.refreshLicence))))

theorem execLicenceInstall {hd addr len} (h : PartsCounted s) : NextCounted (execLicenceInstall hd addr len s) :=
  .next (h.onRunning fun _ => h.complete fun _ hs => hs.licenceInstallEff)

theorem execLicenceWindowEdge (h : PartsCounted s) : NextCounted (execLicenceWindowEdge s) :=
  .next h.refreshLicence

/-! ### Machine/Admin.lean -/

theorem outWrite {o a bs} (h : PartsCounted s) : PartsCounted (s.outWrite o a bs) := by
  unfold State.outWrite
  split
  · exact h.writeBay
  · exact h.writeLoc

theorem putOut {o a bs result} (h : PartsCounted s) : PartsCounted (s.putOut o a bs result).1 :=
  h.ite_fst h.outWrite

theorem execNop {hd} (h : PartsCounted s) : NextCounted (execNop hd s) :=
  .next (h.onRunning fun _ => h.finishNat)

theorem execIdentify {hd bay dst} (h : PartsCounted s) : NextCounted (execIdentify hd bay dst s) :=
  .next (h.onRunning fun _ => h.complete fun _ hs => hs.putOut)

theorem clearLog {hd log bay} (h : PartsCounted s) : PartsCounted (s.clearLog hd log bay) := by
  unfold State.clearLog
  split
  · exact h.update
  · exact h.update
  · exact h.setBay
  · exact h.setBay

theorem getLogEff {hd log clear bay dst length offset} (h : PartsCounted s) :
    PartsCounted (State.getLogEff hd log clear bay dst length offset s).1 :=
  h.putOut.clearLog.ite h.putOut

theorem execGetLog {hd log clear bay dst length offset} (h : PartsCounted s) :
    NextCounted (execGetLog hd log clear bay dst length offset s) :=
  .next (h.onRunning fun _ => h.complete fun _ hs => hs.getLogEff)

theorem queueCreateEff {b q} (h : PartsCounted s) : PartsCounted (State.queueCreateEff b q s).1 := by
  unfold State.queueCreateEff
  split
  · exact h
  · exact h.setSq.ite_fst h.setCq

theorem execQueueCreate {hd q} (h : PartsCounted s) : NextCounted (execQueueCreate hd q s) := by
  unfold Machine.execQueueCreate
  refine .next (h.onRunning fun _ => ?_)
  split
  · exact h.complete fun _ hs => hs.queueCreateEff
  · exact h

theorem execQueueDelete {hd qtype qid} (h : PartsCounted s) : NextCounted (execQueueDelete hd qtype qid s) := by
  unfold Machine.execQueueDelete
  refine .next (h.onRunning fun _ => ?_)
  split
  · exact h
  · split
    · exact h.fail
    · exact h.setActive.setSq.settleQueue.ite h.setCq.finishNat

theorem execCounterSet {hd ctr add clearErr value} (h : PartsCounted s) :
    NextCounted (execCounterSet hd ctr add clearErr value s) := by
  unfold Machine.execCounterSet
  refine .next (h.onRunning fun _ => ?_)
  split
  · exact h
  · exact h.setCounter.recheck.finishNat

/-! ### Machine/Compute.lean -/

theorem quantStatsEff {b o} (h : PartsCounted s) : PartsCounted (State.quantStatsEff b o s).1 := by
  unfold State.quantStatsEff
  split
  · exact h
  · exact h.writeBay.raise

theorem execQuantStats {hd o} (h : PartsCounted s) : NextCounted (execQuantStats hd o s) := by
  unfold Machine.execQuantStats
  refine .next (h.onRunning fun _ => ?_)
  split
  · exact h.completeIn fun _ hs => hs.quantStatsEff
  · exact h

theorem convertEff {b ftz o} (h : PartsCounted s) : PartsCounted (State.convertEff b ftz o s).1 := by
  unfold State.convertEff
  split
  · exact h
  · exact h.writeBay.raise

theorem execConvert {hd o} (h : PartsCounted s) : NextCounted (execConvert hd o s) := by
  unfold Machine.execConvert
  refine .next (h.onRunning fun _ => ?_)
  split
  · exact h.completeIn fun _ hs => hs.convertEff
  · exact h

theorem rngFillEff {b o} (h : PartsCounted s) : PartsCounted (State.rngFillEff b o s).1 := by
  unfold State.rngFillEff
  split
  · exact h
  · exact h.writeBay.raise

theorem execRngFill {hd o} (h : PartsCounted s) : NextCounted (execRngFill hd o s) := by
  unfold Machine.execRngFill
  refine .next (h.onRunning fun _ => ?_)
  split
  · exact h.complete fun _ hs => hs.rngFillEff
  · exact h

/-! ### Machine/Cores.lean -/

theorem setCore {k} {f : Core → Core} (h : PartsCounted s) : PartsCounted (s.setCore k f) :=
  h.update

theorem execKernelLaunch {hd k} (h : PartsCounted s) : NextCounted (execKernelLaunch hd k s) := by
  unfold Machine.execKernelLaunch
  refine .next (h.onRunning fun _ => ?_)
  split
  · exact h
  · split
    · exact h.logBadReads.fail
    · exact h.setActive.foldl fun _ _ hs => hs.writeLoc.writeLoc.setCore

theorem stopLaunch {adm} (h : PartsCounted s) : PartsCounted (s.stopLaunch adm) :=
  h.update

theorem failLaunch {adm key st cause pc} (h : PartsCounted s) : PartsCounted (s.failLaunch adm key st cause pc) :=
  h.stopLaunch.finishNat

theorem coreFault {key cause pc} (h : PartsCounted s) : PartsCounted (s.coreFault key cause pc) := by
  unfold State.coreFault
  split
  · exact h.failLaunch
  · exact h

theorem coreCheck {key pc} (h : PartsCounted s) : PartsCounted (s.coreCheck key pc) := by
  unfold State.coreCheck
  split
  · exact h.useFree.failLaunch
  · exact h

theorem coreBadRead {key b pc rs} (h : PartsCounted s) : PartsCounted (s.coreBadRead key b pc rs) :=
  h.logBadReads.coreCheck

theorem stopFields {c cause} (h : PartsCounted s) : PartsCounted (s.stopFields c cause).1 :=
  h.stopLaunch.ite h.stopLaunch.useFree

theorem onCore {c} {f : Nat → Core → Nat → State} (h : PartsCounted s) (hf : ∀ a b c, PartsCounted (f a b c)) :
    PartsCounted (s.onCore c f) := by
  unfold State.onCore
  split
  · exact h
  · dsimp only
    split
    · exact h
    · refine h.ite ?_
      split
      · exact h
      · exact (hf _ _ _).setCore.ite (hf _ _ _)

theorem putVec {key b vd x} (h : PartsCounted s) : PartsCounted (s.putVec key b vd x) :=
  h.setCore.raise

theorem execTidyCvt {c vd vs2} (h : PartsCounted s) : NextCounted (execTidyCvt c vd vs2 s) :=
  .next (h.onCore fun _ _ _ => h.putVec)

theorem execTidyWid {c vd vs2} (h : PartsCounted s) : NextCounted (execTidyWid c vd vs2 s) :=
  .next (h.onCore fun _ _ _ => h.putVec)

theorem execTidyStat {c vd vs2} (h : PartsCounted s) : NextCounted (execTidyStat c vd vs2 s) :=
  .next (h.onCore fun _ _ _ => h.putVec)

theorem execTidyRsc {c vd vs2 rs1} (h : PartsCounted s) : NextCounted (execTidyRsc c vd vs2 rs1 s) :=
  .next (h.onCore fun _ _ _ => h.lateReads.coreBadRead.ite (h.lateReads.coreFault.ite h.lateReads.putVec))

theorem execTidyQblk {c vd vs2} (h : PartsCounted s) : NextCounted (execTidyQblk c vd vs2 s) :=
  .next (h.onCore fun _ _ _ => h.putVec.ite h.putVec.useFree)

theorem execTidyDrop {c vd vs2 rs1} (h : PartsCounted s) : NextCounted (execTidyDrop c vd vs2 rs1 s) :=
  .next (h.onCore fun _ _ _ => h.putVec)

theorem execTidyGth {c vd vs2} (h : PartsCounted s) : NextCounted (execTidyGth c vd vs2 s) :=
  .next (h.onCore fun _ _ _ => h.lateReads.coreBadRead.ite (h.lateReads.coreFault.ite h.lateReads.putVec))

theorem execTidySct {c vs3 vs2} (h : PartsCounted s) : NextCounted (execTidySct c vs3 vs2 s) := by
  unfold Machine.execTidySct
  refine .next (h.onCore fun _ _ _ => ?_)
  extract_lets _ _ t1
  have h1 : PartsCounted t1 := h.foldl fun _ _ hs => hs.writeBay
  exact h1.coreCheck.ite (h1.ite h1.coreFault)

theorem execGrainGet {c vd rs1} (h : PartsCounted s) : NextCounted (execGrainGet c vd rs1 s) :=
  .next (h.onCore fun _ _ _ => h.putVec)

theorem execTidyDma {c rs1 rs2} (h : PartsCounted s) : NextCounted (execTidyDma c rs1 rs2 s) :=
  .next (h.onCore fun _ _ _ => h.coreCheck.ite (h.coreFault.ite h.setCore))

theorem execXtenonCsrWrite {c csr value} (h : PartsCounted s) : NextCounted (execXtenonCsrWrite c csr value s) := by
  unfold Machine.execXtenonCsrWrite
  refine .next (h.onCore fun _ _ _ => ?_)
  dsimp only
  split
  · exact h.coreFault.ite h.setCore
  · exact h.setCore
  · exact h.setCore
  · exact h.coreFault.ite h.setCore
  · exact h.setCore
  · exact h.coreFault

theorem execKernelEcallExit {c} (h : PartsCounted s) : NextCounted (execKernelEcallExit c s) :=
  .next (h.onCore fun _ _ _ => h.coreFault.ite (h.setCore.update.finishNat.ite h.setCore))

theorem execCoreException {c cause pc} (h : PartsCounted s) : NextCounted (execCoreException c cause pc s) :=
  .next (h.onCore fun _ _ _ => h.coreFault)

theorem execCycleLimit {adm} (h : PartsCounted s) : NextCounted (execCycleLimit adm s) := by
  unfold Machine.execCycleLimit
  refine .next ?_
  split
  · exact h
  · split
    · exact h.stopFields.finishNat.ite h
    · exact h

theorem coreWrite {b key a bs} (h : PartsCounted s) : PartsCounted (s.coreWrite b key a bs) :=
  h.writeLoc.ite h.writeBay

theorem runDma {key d} (h : PartsCounted s) : PartsCounted (s.runDma key d) :=
  h.failLaunch.ite (h.failLaunch.ite ((h.logBadReads.ite h).useFree.failLaunch.ite (((h.lateReads.ite
    h).coreWrite.bump.ite (h.lateReads.ite h).coreWrite).useFree.failLaunch.ite ((h.lateReads.ite
    h).coreWrite.bump.ite (h.lateReads.ite h).coreWrite))))

theorem execDmaDescriptorDone {c chan} (h : PartsCounted s) : NextCounted (execDmaDescriptorDone c chan s) := by
  unfold Machine.execDmaDescriptorDone
  refine .next ?_
  split
  · exact h
  · split
    · exact h
    · exact h.setCore.runDma

theorem partDma {key d} (h : PartsCounted s) : PartsCounted (s.partDma key d) :=
  h.mixed.ite h

theorem cutChannels {key} {f : Nat → Bool} (h : PartsCounted s) : PartsCounted (s.cutChannels key f) := by
  unfold State.cutChannels
  refine h.foldl fun _ _ hs => ?_
  split
  · exact hs
  · exact (hs.partDma.ite hs).setCore

theorem dropQueued {key} (h : PartsCounted s) : PartsCounted (s.dropQueued key) :=
  h.setCore

/-! ### Machine/Tick.lean -/

theorem tick (h : PartsCounted s) : PartsCounted (tick s) :=
  h.ite h.update

/-! ### Machine/Diagnostics.lean -/

theorem nextInstant (h : PartsCounted s) : PartsCounted s.nextInstant :=
  h.tick.tick.ite h.tick

theorem telemetryEff {hd w dst length} (h : PartsCounted s) :
    PartsCounted (State.telemetryEff hd w dst length s).1 := by
  unfold State.telemetryEff
  split
  · exact h
  · exact (h.nextInstant.useFree.ite h.nextInstant).putOut

theorem execTelemetryRead {hd window dst length} (h : PartsCounted s) :
    NextCounted (execTelemetryRead hd window dst length s) :=
  .next (h.onRunning fun _ => h.complete fun _ hs => hs.telemetryEff)

theorem execSeasonReport {hd dst length} (h : PartsCounted s) : NextCounted (execSeasonReport hd dst length s) :=
  .next (h.onRunning fun _ => h.complete fun _ hs => hs.putOut)

theorem floorplanEff {hd b dst length} (h : PartsCounted s) : PartsCounted (State.floorplanEff hd b dst length s).1 :=
  h.putOut

theorem execFloorplanRead {hd dst length} (h : PartsCounted s) : NextCounted (execFloorplanRead hd dst length s) := by
  unfold Machine.execFloorplanRead
  refine .next (h.onRunning fun _ => ?_)
  split
  · exact h.complete fun _ hs => hs.floorplanEff
  · exact h

theorem linkTestEff {port} (h : PartsCounted s) : PartsCounted (State.linkTestEff port s).1 :=
  h.ite_fst h.useFree

theorem execLinkTest {hd port pattern durationMs} (h : PartsCounted s) :
    NextCounted (execLinkTest hd port pattern durationMs s) :=
  .next (h.onRunning fun _ => h.complete fun _ hs => hs.linkTestEff)

/-! ### Machine/Link.lean -/

theorem setPortState {p st} (h : PartsCounted s) : PartsCounted (s.setPortState p st) :=
  h.ite h.setPort.devCause.log1

theorem sendFlit {p kind payload} (h : PartsCounted s) : PartsCounted (s.sendFlit p kind payload) :=
  h.setPort.emit

theorem sendStomps {p} (h : PartsCounted s) : PartsCounted (s.sendStomps p) :=
  h.ite h.setPort.sendFlit

theorem pumpOnce {p} (h : PartsCounted s) : PartsCounted (s.pumpOnce p) := by
  unfold State.pumpOnce
  refine h.sendStomps.ite ?_
  split
  · exact h.sendStomps
  · split
    · exact h.sendStomps
    · exact h.sendStomps.setPort.sendFlit

theorem pump {p} (h : PartsCounted s) : PartsCounted (s.pump p) :=
  h.foldl fun _ _ hs => hs.pumpOnce

theorem routeDrop {p} (h : PartsCounted s) : PartsCounted (s.routeDrop p) :=
  h.countDev.log1

theorem enqueue {die adm relayed p} (h : PartsCounted s) : PartsCounted (s.enqueue die adm relayed p) := by
  unfold State.enqueue
  split
  · exact h.routeDrop
  · exact h.emit.setPort

theorem inject {die adm relayed p} (h : PartsCounted s) : PartsCounted (s.inject die adm relayed p) := by
  unfold State.inject
  split
  · exact h.routeDrop
  · exact h.enqueue.pump

theorem sendPacket {p} (h : PartsCounted s) : PartsCounted (s.sendPacket p) :=
  h.inject

theorem reroute (h : PartsCounted s) : PartsCounted s.reroute :=
  h.foldl fun _ _ hs => hs.pump.ite (hs.setPort.foldl fun _ _ ht => ht.inject)

theorem resend {p} (h : PartsCounted s) : PartsCounted (s.resend p) :=
  h.foldl fun _ _ hs => hs.emit

theorem changePort {p st} (h : PartsCounted s) : PartsCounted (s.changePort p st) :=
  (h.setPortState.resend.setPort.ite h.setPortState).reroute

theorem lockFlit {p f} (h : PartsCounted s) : PartsCounted (s.lockFlit p f) :=
  h.setPort.ite (h.setPort.ite h.setPort.setPort.changePort)

theorem takeAck {p f} (h : PartsCounted s) : PartsCounted (s.takeAck p f) :=
  h.setPort.pump

theorem relay {p k} (h : PartsCounted s) : PartsCounted (s.relay p k) :=
  h.setPort.inject

theorem commit {p stomp} (h : PartsCounted s) : PartsCounted (s.commit p stomp) :=
  h.setPort

theorem askReplay {p} (h : PartsCounted s) : PartsCounted (s.askReplay p) :=
  h.setPort.sendFlit

theorem discardLate {p} (h : PartsCounted s) : PartsCounted (s.discardLate p) :=
  h.ite h.askReplay

theorem takeData {p f} (h : PartsCounted s) : PartsCounted (s.takeData p f) :=
  h.setPort.commit.setPort.foldl fun _ _ hs => hs.relay

theorem takeBack {q} (h : PartsCounted s) : PartsCounted (s.takeBack q) :=
  h.setPort

theorem takeBackAll {qs} (h : PartsCounted s) : PartsCounted (s.takeBackAll qs) :=
  (h.foldl fun _ _ hs => hs.takeBack).foldl fun _ _ hs => hs.pump

theorem takeBadData {p f} (h : PartsCounted s) : PartsCounted (s.takeBadData p f) :=
  ((h.foldl fun _ _ hs => hs.inject).takeBackAll.ite h).askReplay

theorem takeStomp {p f} (h : PartsCounted s) : PartsCounted (s.takeStomp p f) :=
  h.setPort.commit.takeBackAll

theorem takeReplay {p f} (h : PartsCounted s) : PartsCounted (s.takeReplay p f) := by
  unfold State.takeReplay
  extract_lets _ _ _ _ s1
  have h1 : PartsCounted s1 := h.takeAck.setPort.foldl fun _ _ hs => hs.countBay
  exact h1.resend.setPort.changePort.ite h1.resend

theorem countFlit {p f} (h : PartsCounted s) : PartsCounted (s.countFlit p f) :=
  h.setPort

theorem receive {p f} (h : PartsCounted s) : PartsCounted (s.receive p f) :=
  h.countFlit.lockFlit.ite (h.ite ((h.countFlit.takeBadData.ite h.countFlit.askReplay).ite
    (h.countFlit.takeReplay.ite ((h.countFlit.takeAck.takeData.ite h.countFlit.discardLate).ite
    ((h.countFlit.takeAck.takeStomp.ite h.countFlit.discardLate).ite (h.countFlit.takeAck.commit.ite
    h.countFlit.takeAck))))))

theorem idleFlits (h : PartsCounted s) : PartsCounted s.idleFlits :=
  h.foldl fun _ _ hs => hs.sendFlit.ite hs

theorem execFlitReceive {port f} (h : PartsCounted s) : NextCounted (execFlitReceive port f s) :=
  .next h.receive

theorem execReplayRequest {port f} (h : PartsCounted s) : NextCounted (execReplayRequest port f s) :=
  .next h.receive

theorem execStompFlit {port f} (h : PartsCounted s) : NextCounted (execStompFlit port f s) :=
  .next h.receive

theorem execPacketRelay {port p} (h : PartsCounted s) : NextCounted (execPacketRelay port p s) :=
  .next (h.relay.ite h)

theorem takePacket {k} (h : PartsCounted s) : PartsCounted (s.takePacket k) := by
  unfold State.takePacket
  split
  · exact h.setPort
  · exact h

theorem takeMsg {typ bay group} {pick : Packet → Bool} (h : PartsCounted s) :
    PartsCounted (s.takeMsg typ bay group pick) :=
  h.foldl fun _ _ hs => hs.foldl fun _ _ ht => ht.takePacket

theorem laneLost {port lane} (h : PartsCounted s) : PartsCounted (s.laneLost port lane) :=
  h.ite (h.setPort.setPort.useFree.log1.ite (h.setPort.setPort.changePort.ite h.setPort.setPort.changePort))

/-! ### Machine/Groups.lean -/

theorem setGroup {b g} {f : Machine.Group → Machine.Group} (h : PartsCounted s) : PartsCounted (s.setGroup b g f) :=
  h.setBay

theorem mixColl {b g c} (h : PartsCounted s) : PartsCounted (s.mixColl b g c) :=
  h.mixed

theorem sendMsg {b g lc adm member vc typ offset tag data} (h : PartsCounted s) :
    PartsCounted (s.sendMsg b g lc adm member vc typ offset tag data) :=
  h.foldl fun _ _ hs => hs.inject

theorem sendTo {b g lc adm member vc typ offset tag data} (h : PartsCounted s) :
    PartsCounted (s.sendTo b g lc adm member vc typ offset tag data) :=
  h.inject

theorem addAt {b g lc member vc ctr n err} (h : PartsCounted s) :
    PartsCounted (s.addAt b g lc member vc ctr n err) := by
  unfold State.addAt
  split
  · exact h.bump.ite (h.sendTo.ite h)
  · exact h.bump

theorem countTrig {b t signal remote err} (h : PartsCounted s) : PartsCounted (s.countTrig b t signal remote err) :=
  (h.bump.ite h).addAt.ite (h.bump.ite h)

theorem firedEnd {b t err} (h : PartsCounted s) : PartsCounted (s.firedEnd b t err) :=
  h.countTrig

theorem passErr {b t} (h : PartsCounted s) : PartsCounted (s.passErr b t) :=
  h.countTrig

theorem abortGroup {b g} (h : PartsCounted s) : PartsCounted (s.abortGroup b g) := by
  unfold State.abortGroup
  refine .foldl (.foldl (.setBay ?_) fun _ _ hs => hs.finishNat) fun _ _ hs => ?_
  · split
    · exact h.foldl fun _ _ hs => hs.mixColl
    · exact h
  · split
    · exact hs.firedEnd
    · exact hs

theorem sendAbort {b g} (h : PartsCounted s) : PartsCounted (s.sendAbort b g) := by
  unfold State.sendAbort
  split
  · exact h.emit.foldl fun _ _ hs => hs.sendMsg
  · exact h

theorem mismatch {b g} (h : PartsCounted s) : PartsCounted (s.mismatch b g) :=
  h.log2.sendAbort.abortGroup

theorem execGroupAbort {bay group} (h : PartsCounted s) : NextCounted (execGroupAbort bay group s) :=
  .next h.takeMsg.abortGroup

theorem sendJoin {node adm j} (h : PartsCounted s) : PartsCounted (s.sendJoin node adm j) :=
  h.emit.inject

theorem endJoin {b x full} (h : PartsCounted s) : PartsCounted (s.endJoin b x full) := by
  unfold State.endJoin
  split
  · exact h.setBay.fail
  · exact h.setGroup.finishNat

theorem settleJoin {b g} (h : PartsCounted s) : PartsCounted (s.settleJoin b g) := by
  unfold State.settleJoin
  split
  · exact h.endJoin.ite h
  · exact h

theorem takeJoin {j} (h : PartsCounted s) : PartsCounted (s.takeJoin j) := by
  unfold State.takeJoin
  split
  · exact h.ite h.setBay
  · exact (h.ite h.sendJoin).ite (h.ite h.setGroup.settleJoin)

theorem execGroupControl {j} (h : PartsCounted s) : NextCounted (execGroupControl j s) :=
  .next h.takeMsg.takeJoin

theorem execCollGroupCreate {hd group blk} (h : PartsCounted s) :
    NextCounted (execCollGroupCreate hd group blk s) := by
  unfold Machine.execCollGroupCreate
  refine .next (h.onRunning fun _ => ?_)
  split
  · exact h
  · split
    · exact h.fail
    · exact (h.setActive.setBay.foldl fun _ _ hs => hs.sendJoin).settleJoin.foldl fun _ _ hs => hs.takeJoin

theorem execCollJoinTimeout {bay group} (h : PartsCounted s) : NextCounted (execCollJoinTimeout bay group s) := by
  unfold Machine.execCollJoinTimeout
  refine .next ?_
  split
  · exact h.endJoin.ite h
  · exact h

theorem execCollGroupDestroy {hd group} (h : PartsCounted s) : NextCounted (execCollGroupDestroy hd group s) := by
  unfold Machine.execCollGroupDestroy
  refine .next (h.onRunning fun _ => ?_)
  split
  · exact h
  · exact h.fail.ite (h.fail.ite h.setBay.finishNat)

/-! ### Machine/Update.lean -/

theorem diffRecord {b step tensor first count kind source} (h : PartsCounted s) :
    PartsCounted (s.diffRecord b step tensor first count kind source) := by
  unfold State.diffRecord
  dsimp only
  split
  · exact h
  · exact h.ite h.writeBay.setBay

theorem markDirty {b blocks} (h : PartsCounted s) : PartsCounted (s.markDirty b blocks) :=
  h.setBay

theorem updateFault {b adm n rate unit} (h : PartsCounted s) : PartsCounted (s.updateFault b adm n rate unit) := by
  unfold State.updateFault
  split
  · exact h
  · exact h.update.ite h.update.markCorrected.countBay.log1

theorem updateBlock {b adm x p ti k gs} (h : PartsCounted s) : PartsCounted (s.updateBlock b adm x p ti k gs) :=
  (h.updateFault.writeBay.writeBay.writeBay.ite h.updateFault.writeBay.writeBay).raise.setBay.markDirty

theorem advance {b p step source ti} (h : PartsCounted s) : PartsCounted (s.advance b p step source ti) :=
  (h.setBay.diffRecord.ite h.setBay).ite h

theorem segmentRecord {b x p ti seg before} (h : PartsCounted s) :
    PartsCounted (s.segmentRecord b x p ti seg before) :=
  h.diffRecord.ite h

theorem abortRecords {b x p} (h : PartsCounted s) : PartsCounted (s.abortRecords b x p) :=
  h.foldl fun _ _ hs => hs.foldl fun _ _ ht => ht.ite (ht.foldl fun _ _ hu => hu.diffRecord)

theorem stepBlock {b adm x p limit ti} {grad : State → Nat → List Val} {gRange : Nat → List (Nat × Nat)}
    {a : State × Nat × Option Status} {k} (h : PartsCounted a.1) :
    PartsCounted (State.stepBlock b adm x p limit ti grad gRange a k).1 := by
  unfold State.stepBlock
  dsimp only
  split
  · exact h
  · split
    · exact h
    · split
      · exact h
      · exact h.updateBlock

theorem runTensor {b adm x p limit} {grad : Nat → State → Nat → List Val}
    {gRange : Nat → Nat → List (Nat × Nat)} {a : State × Nat × Option Status} {ti} (h : PartsCounted a.1) :
    PartsCounted (State.runTensor b adm x p limit grad gRange a ti).1 := by
  unfold State.runTensor
  refine h.ite_fst ?_
  extract_lets r1
  have h1 : PartsCounted r1.1 := h.foldl_fst fun _ _ hs => hs.ite_fst (hs.foldl_fst
    fun _ _ ht => ht.stepBlock).segmentRecord
  exact h1.ite_fst h1.advance

/-! ### Machine/Training.lean -/

theorem setTrain {b} {f : Train → Train} (h : PartsCounted s) : PartsCounted (s.setTrain b f) :=
  h.setBay

theorem mapLoadEff {b adm addr len} (h : PartsCounted s) : PartsCounted (State.mapLoadEff b adm addr len s).1 := by
  unfold State.mapLoadEff
  split
  · exact h
  · exact h.ite_fst (h.ite_fst (h.ite_fst h.setTrain))

theorem execShardMapLoad {hd addr len} (h : PartsCounted s) : NextCounted (execShardMapLoad hd addr len s) := by
  unfold Machine.execShardMapLoad
  refine .next (h.onRunning fun _ => ?_)
  split
  · exact h.completeIn fun _ hs => hs.mapLoadEff
  · exact h

theorem setGather {b adm} {f : Gather → Gather} (h : PartsCounted s) : PartsCounted (s.setGather b adm f) :=
  h.setTrain

theorem putRemote {b adm p a bs} (h : PartsCounted s) : PartsCounted (s.putRemote b adm p a bs) := by
  unfold State.putRemote
  dsimp only
  split
  · exact (h.setBay.setGather.foldl fun _ _ hs => hs.sendTo).ite h.setGather
  · exact h.setGather

theorem putRow {b adm p a bs} (h : PartsCounted s) : PartsCounted (s.putRow b adm p a bs) :=
  h.putRemote.ite h.writeBay

theorem landRows {b adm i first rows received} (h : PartsCounted s) :
    PartsCounted (s.landRows b adm i first rows received) := by
  unfold State.landRows
  split
  · refine h.ite ?_
    extract_lets _ _ s1
    have h1 : PartsCounted s1 := h.ite (h.foldl fun _ _ hs => hs.foldl fun _ _ ht => ht.putRow)
    split
    · exact h1.setGather.setSlot.setTrain.ite h1.setGather.setSlot
    · exact h1.setGather.setSlot
  · exact h

theorem dropGather {b adm} (h : PartsCounted s) : PartsCounted (s.dropGather b adm) :=
  h.setTrain

theorem settleGather {b adm} (h : PartsCounted s) : PartsCounted (s.settleGather b adm) := by
  unfold State.settleGather
  split
  · exact h.dropGather.finishNat.ite h
  · exact h

theorem gatherPut {b adm st} (h : PartsCounted s) : PartsCounted (s.gatherPut b adm st) :=
  h.setGather.settleGather

theorem failGather {b adm st bytes} (h : PartsCounted s) : PartsCounted (s.failGather b adm st bytes) :=
  h.dropGather.finishNat

theorem sendGather {b adm p g x m} (h : PartsCounted s) : PartsCounted (s.sendGather b adm p g x m) :=
  h.emit.sendMsg

theorem spreadRows {b adm x src} (h : PartsCounted s) : PartsCounted (s.spreadRows b adm x src) := by
  unfold State.spreadRows
  split
  · split
    · exact h.ite ((h.landRows.setGather.ite h.landRows).foldl fun _ _ hs => hs.sendGather)
    · exact h.landRows
  · exact h

theorem sendEntry {b adm i} (h : PartsCounted s) : PartsCounted (State.sendEntry b adm s i) := by
  unfold State.sendEntry
  split
  · dsimp only
    split
    · exact h
    · refine h.ite (h.setGather.ite (h.ite ?_))
      split
      · exact (h.logBadReads.ite h).failGather
      · exact (h.countBay.ite h).raise.setGather.spreadRows
  · exact h

theorem announceGather {b g} (h : PartsCounted s) : PartsCounted (s.announceGather b g) := by
  unfold State.announceGather
  split
  · split
    · exact h.foldl fun _ _ hs => hs.foldl fun _ _ ht => ht.sendGather
    · exact h
  · exact h

theorem pumpGather {b adm} (h : PartsCounted s) : PartsCounted (State.pumpGather b s adm) := by
  unfold State.pumpGather
  split
  · exact h
  · exact (h.foldl fun _ _ hs => hs.sendEntry).settleGather

theorem pumpGathers {b} (h : PartsCounted s) : PartsCounted (s.pumpGathers b) :=
  h.foldl fun _ _ hs => hs.pumpGather

theorem takeRows {x} (h : PartsCounted s) : PartsCounted (s.takeRows x) := by
  unfold State.takeRows
  split
  · exact h
  · exact h.mismatch.ite (h.setGather.ite h.spreadRows).settleGather

theorem freeMsg {typ b group member} (h : PartsCounted s) : PartsCounted (s.freeMsg typ b group member) := by
  unfold State.freeMsg
  split
  · exact h.takeMsg
  · exact h

theorem execGatherSegment {g} (h : PartsCounted s) : NextCounted (execGatherSegment g s) :=
  .next (h.freeMsg.takeRows.ite h.freeMsg.setTrain)

theorem execStepGather {hd step entries} (h : PartsCounted s) : NextCounted (execStepGather hd step entries s) := by
  unfold Machine.execStepGather
  refine .next (h.onRunning fun _ => ?_)
  split
  · exact h
  · split
    · exact h.fail
    · split
      · exact h.fail
      · exact h.fail.ite (h.setActive.countBay.setTrain.announceGather.pumpGather.foldl fun _ _ hs => hs.takeRows)

theorem sweep {b adm x p limit} (h : PartsCounted s) : PartsCounted (State.sweep b adm x p limit s).1 := by
  unfold State.sweep
  extract_lets r1
  have h1 : PartsCounted r1.1 := h.foldl_fst fun _ _ hs => hs.runTensor
  exact (h1.abortRecords.ite h1).pumpGathers

theorem stepUpdateEff {b c hp step clip stoch limit} (h : PartsCounted s) :
    PartsCounted (State.stepUpdateEff b c hp step clip stoch limit s).1 := by
  unfold State.stepUpdateEff
  dsimp only
  split
  · exact h
  · split
    · exact h
    · refine h.ite_fst ?_
      split
      · exact h
      · exact h.ite_fst h.sweep

theorem execStepUpdate {hd hpAddr step clip stoch} (h : PartsCounted s) :
    NextCounted (execStepUpdate hd hpAddr step clip stoch s) := by
  unfold Machine.execStepUpdate
  refine .next (h.onRunning fun _ => ?_)
  split
  · exact h.completeIn fun _ hs => hs.stepUpdateEff
  · exact h

theorem sendNorm {b adm p index opcode a} (h : PartsCounted s) :
    PartsCounted (s.sendNorm b adm p index opcode a) := by
  unfold State.sendNorm
  split
  · exact h.foldl fun _ _ hs => hs.emit.sendMsg
  · exact h

theorem settleNorm {b w p} (h : PartsCounted s) : PartsCounted (s.settleNorm b w p) :=
  h.ite h.raise.setTrain.finishNat

theorem settleArm {b p} (h : PartsCounted s) : PartsCounted (s.settleArm b p) := by
  unfold State.settleArm
  split
  · exact h
  · exact h.ite h.raise.setTrain.finishNat

theorem takeNorm {b index member a} (h : PartsCounted s) : PartsCounted (s.takeNorm b index member a) := by
  unfold State.takeNorm
  dsimp only
  split
  · exact h
  · split
    · exact h.ite h.setTrain.settleNorm
    · split
      · exact (h.ite h.setTrain.settleArm).ite h.setTrain
      · exact h.setTrain

theorem takeEarlyNorms {b index} (h : PartsCounted s) : PartsCounted (s.takeEarlyNorms b index) :=
  h.setTrain.foldl fun _ _ hs => hs.takeNorm

theorem execNormClip {hd group step maxNorm} (h : PartsCounted s) :
    NextCounted (execNormClip hd group step maxNorm s) := by
  unfold Machine.execNormClip
  refine .next (h.onRunning fun _ => ?_)
  split
  · exact h
  · split
    · exact h.fail
    · split
      · exact h.failIn
      · exact h.fail.ite h.setActive.setTrain.sendNorm.settleNorm.takeEarlyNorms

theorem advanceEmpty {b p step} (h : PartsCounted s) : PartsCounted (s.advanceEmpty b p step) :=
  h.foldl fun _ _ hs => hs.ite hs.advance

theorem armNorm {b p} (h : PartsCounted s) : PartsCounted (s.armNorm b p) := by
  unfold State.armNorm
  split
  · exact h
  · exact h.setTrain.advanceEmpty.sendNorm.settleArm.ite h

theorem applySegment {b p a t gs} (h : PartsCounted s) : PartsCounted (s.applySegment b p a t gs) := by
  unfold State.applySegment
  dsimp only
  split
  · exact h.setTrain.runTensor.abortRecords.setTrain.failIn
  · exact h.setTrain.runTensor.pumpGathers.armNorm

theorem execUpdateSegmentArrival {bay tensorId elems} (h : PartsCounted s) :
    NextCounted (execUpdateSegmentArrival bay tensorId elems s) := by
  unfold Machine.execUpdateSegmentArrival
  refine .next ?_
  split
  · split
    · exact h.applySegment.ite h
    · exact h
  · exact h

theorem execUpdateArm {hd hpAddr step group clip} (h : PartsCounted s) :
    NextCounted (execUpdateArm hd hpAddr step group clip s) := by
  unfold Machine.execUpdateArm
  refine .next (h.onRunning fun _ => ?_)
  split
  · exact h
  · dsimp only
    split
    · exact h.fail
    · split
      · exact h.failIn
      · exact h.fail.ite (h.fail.ite h.setActive.raise.setTrain.armNorm.takeEarlyNorms)

theorem execUpdateDisarm {hd step} (h : PartsCounted s) : NextCounted (execUpdateDisarm hd step s) := by
  unfold Machine.execUpdateDisarm
  refine .next (h.onRunning fun _ => ?_)
  split
  · exact h
  · split
    · exact h.fail.ite (h.fail.ite h.setTrain.fail.finishNat)
    · exact h.fail

theorem exportEff {b dst maxBytes fromStep} (h : PartsCounted s) :
    PartsCounted (State.exportEff b dst maxBytes fromStep s).1 := by
  unfold State.exportEff
  split
  · exact h
  · split
    · exact h
    · exact h.ite_fst (h.useFree.ite h).putOut

theorem execExportStream {hd dst maxBytes fromStep} (h : PartsCounted s) :
    NextCounted (execExportStream hd dst maxBytes fromStep s) := by
  unfold Machine.execExportStream
  refine .next (h.onRunning fun _ => ?_)
  split
  · exact h.completeIn fun _ hs => hs.exportEff
  · exact h

/-! ### Machine/Collectives.lean -/

theorem setColl {b group index} {f : Coll → Coll} (h : PartsCounted s) : PartsCounted (s.setColl b group index f) :=
  h.setBay

theorem sendSeg {b g c final k m} (h : PartsCounted s) : PartsCounted (s.sendSeg b g c final k m) :=
  h.emit.sendMsg

theorem learnFinal {b g index k src} (h : PartsCounted s) : PartsCounted (s.learnFinal b g index k src) := by
  unfold State.learnFinal
  split
  · exact h
  · exact h.ite (h.setColl.foldl fun _ _ hs => hs.sendSeg)

theorem rootDone {b g c first vs} (h : PartsCounted s) : PartsCounted (s.rootDone b g c first vs) :=
  h.raise.learnFinal.ite (h.raise.foldl fun _ _ hs => hs.ite (hs.setColl.ite hs.sendSeg))

theorem reductionFault {group chunk} (h : PartsCounted s) : PartsCounted (s.reductionFault group chunk).2 := by
  unfold State.reductionFault
  split
  · exact h.update
  · exact h

theorem reduceChunk {b c cluster first l r} (h : PartsCounted s) :
    PartsCounted (s.reduceChunk b c cluster first l r).1 := by
  unfold State.reduceChunk
  refine h.reductionFault.raise.ite_fst ?_
  extract_lets _ _ logged corrected
  have hc : PartsCounted corrected := h.reductionFault.raise.countBay.log1.setColl
  exact hc.ite_fst hc.askRetire.failAtRisk

theorem knowPartial {b g c k} (h : PartsCounted s) : PartsCounted (s.knowPartial b g c k) := by
  unfold State.knowPartial
  refine h.setColl.rootDone.ite ?_
  split
  · exact h.setColl.ite h.setColl.sendSeg
  · exact h.setColl

theorem addChunk {b g index first} (h : PartsCounted s) : PartsCounted (State.addChunk b g index first s).1 := by
  unfold State.addChunk
  split
  · exact h
  · refine h.foldl_fst fun _ _ hs => ?_
    split
    · split
      · dsimp only
        split
        · exact hs.reduceChunk.knowPartial
        · exact hs.reduceChunk
      · exact hs
    · exact hs

theorem endColl {b c st result} (h : PartsCounted s) : PartsCounted (s.endColl b c st result) := by
  unfold State.endColl
  dsimp only
  split
  · exact h.setBay.finishNat
  · exact h.setBay.firedEnd
  · exact h.setBay

theorem writeColl {b g c} (h : PartsCounted s) : PartsCounted (s.writeColl b g c).2 := by
  unfold State.writeColl
  dsimp only
  split
  · exact h.ite h.applySegment
  · split
    · exact h
    · exact h.foldl fun _ _ hs => hs.writeBay

theorem settleColl {b g index} (h : PartsCounted s) : PartsCounted (s.settleColl b g index) := by
  unfold State.settleColl
  split
  · exact h
  · exact h.writeColl.setGroup.endColl.ite h

theorem settleColls {b} (h : PartsCounted s) : PartsCounted (s.settleColls b) := by
  unfold State.settleColls
  refine h.foldl fun _ _ hs => ?_
  split
  · exact hs.settleColl
  · exact hs

theorem failColl {b group index st} (h : PartsCounted s) : PartsCounted (s.failColl b group index st) := by
  unfold State.failColl
  split
  · exact h.endColl
  · exact h

theorem startColl {b g c} (h : PartsCounted s) : PartsCounted (s.startColl b g c) := by
  unfold State.startColl
  extract_lets _ _ _ _ _ sent _ starts known added
  have hsent : PartsCounted sent := h.setBay.foldl fun _ _ hs => hs.sendSeg
  have hknown : PartsCounted known := hsent.foldl fun _ _ hs => hs.foldl fun _ _ ht => ht.knowPartial
  have hadded : PartsCounted added.1 := hknown.foldl_fst fun _ _ hs => hs.addChunk.ite_fst hs
  refine (hadded.settleColl.ite hadded.failColl).ite
    ((hsent.foldl fun _ _ hs => hs.foldl fun _ _ ht => ht.learnFinal).settleColl.ite ?_)
  split
  · exact (hsent.foldl fun _ _ hs => hs.learnFinal).settleColl
  · exact hsent.settleColl

theorem takeSeg {x} (h : PartsCounted s) : PartsCounted (s.takeSeg x) := by
  unfold State.takeSeg
  split
  · exact h.mismatch.ite (h.setColl.settleColl.ite (h.setColl.learnFinal.settleColl.ite (h.setColl.ite
      (h.setColl.setColl.addChunk.settleColl.ite h.setColl.setColl.addChunk.failColl))))
  · exact h

theorem execCollectiveSegment {g} (h : PartsCounted s) : NextCounted (execCollectiveSegment g s) :=
  .next (h.freeMsg.takeNorm.ite (h.freeMsg.takeSeg.ite (h.freeMsg.setBay.ite h.freeMsg)))

theorem takeEarlySegs {b group index} (h : PartsCounted s) : PartsCounted (s.takeEarlySegs b group index) :=
  h.setBay.foldl fun _ _ hs => hs.takeSeg

theorem runColl {hd c opcode o} (h : PartsCounted s) : PartsCounted (s.runColl hd c opcode o) := by
  unfold State.runColl
  split
  · exact h
  · split
    · exact h.fail
    · split
      · exact h.fail
      · split
        · exact h.failIn
        · exact h.setActive.startColl.takeEarlySegs

theorem execCollAllreduce {hd o} (h : PartsCounted s) : NextCounted (execCollAllreduce hd o s) :=
  .next (h.onRunning fun _ => h.runColl)

theorem execCollAllgather {hd o} (h : PartsCounted s) : NextCounted (execCollAllgather hd o s) :=
  .next (h.onRunning fun _ => h.runColl)

theorem execCollReduceScatter {hd o} (h : PartsCounted s) : NextCounted (execCollReduceScatter hd o s) :=
  .next (h.onRunning fun _ => h.runColl)

theorem execCollBroadcast {hd o} (h : PartsCounted s) : NextCounted (execCollBroadcast hd o s) :=
  .next (h.onRunning fun _ => h.runColl)

theorem execCollSilentTimeout {bay group} (h : PartsCounted s) : NextCounted (execCollSilentTimeout bay group s) := by
  unfold Machine.execCollSilentTimeout
  refine .next ?_
  split
  · exact h
  · dsimp only
    split
    · exact h.endColl.sendAbort.abortGroup
    · exact h

/-! ### Machine/Memory.lean -/

theorem copyLocal {b tag src dst n} (h : PartsCounted s) : PartsCounted (State.copyLocal b tag src dst n s).1 :=
  h.writeBay.logPoisonRead.ite h.writeBay

theorem memFillEff {b dst n pattern} (h : PartsCounted s) : PartsCounted (State.memFillEff b dst n pattern s).1 :=
  h.writeBay

theorem execMemFill {hd dst length pattern} (h : PartsCounted s) :
    NextCounted (execMemFill hd dst length pattern s) := by
  unfold Machine.execMemFill
  refine .next (h.onRunning fun _ => ?_)
  split
  · exact h.complete fun _ hs => hs.memFillEff
  · exact h

theorem memMapEff {b o} (h : PartsCounted s) : PartsCounted (State.memMapEff b o s).1 := by
  unfold State.memMapEff
  split
  · exact h
  · exact h.setBay

theorem execMemMap {hd o} (h : PartsCounted s) : NextCounted (execMemMap hd o s) := by
  unfold Machine.execMemMap
  refine .next (h.onRunning fun _ => ?_)
  split
  · exact h.complete fun _ hs => hs.memMapEff
  · exact h

theorem copyPage {src dst n} (h : PartsCounted s) : PartsCounted (s.copyPage src dst n) :=
  h.clearLoc.update

theorem movePage {b dest p} (h : PartsCounted s) : PartsCounted (s.movePage b dest p) := by
  unfold State.movePage
  split
  · exact h
  · exact h.copyPage.setBay

theorem movePages {b dest ps} (h : PartsCounted s) : PartsCounted (s.movePages b dest ps).1 := by
  induction ps generalizing s with
  | nil => exact h
  | cons p ps ih =>
    unfold State.movePages
    split
    · exact h
    · exact ih h.movePage

theorem memPlaceEff {b addr n dest} (h : PartsCounted s) : PartsCounted (State.memPlaceEff b addr n dest s).1 := by
  unfold State.memPlaceEff
  split
  · exact h
  · exact h.movePages

theorem execMemPlace {hd addr length dest} (h : PartsCounted s) :
    NextCounted (execMemPlace hd addr length dest s) := by
  unfold Machine.execMemPlace
  refine .next (h.onRunning fun _ => ?_)
  split
  · exact h.completeIn fun _ hs => hs.memPlaceEff
  · exact h

/-! ### Machine/Security.lean -/

theorem setKey {b slot k} (h : PartsCounted s) : PartsCounted (s.setKey b slot k) :=
  h.setBay fun _ hy => hy.of_lengths (hk := length_updNth ..)

theorem keyLoadEff {b slot mode key} (h : PartsCounted s) : PartsCounted (State.keyLoadEff b slot mode key s).1 := by
  unfold State.keyLoadEff
  refine h.ite_fst (h.ite_fst ?_)
  split
  · exact h
  · exact h.setKey.setBay.ite h.setKey

theorem execKeyLoad {hd slot mode addr} (h : PartsCounted s) : NextCounted (execKeyLoad hd slot mode addr s) := by
  unfold Machine.execKeyLoad
  refine .next (h.onRunning fun _ => ?_)
  split
  · exact h
  · split
    · exact h.logBadReads.fail
    · exact h.setActive.setSlot.ite (h.setSlot.ite (h.complete fun _ hs => hs.keyLoadEff))

theorem execKeyErase {hd slot} (h : PartsCounted s) : NextCounted (execKeyErase hd slot s) := by
  unfold Machine.execKeyErase
  refine .next (h.onRunning fun _ => ?_)
  split
  · exact h
  · exact h.fail.ite (h.ite (h.foldl fun _ _ hs => hs.setKey).finishNat)

theorem execAlarmConditionCleared (h : PartsCounted s) : NextCounted (execAlarmConditionCleared s) := by
  unfold Machine.execAlarmConditionCleared
  refine .next ((h.update.update.ite h.update).foldl fun _ _ hs => ?_)
  split
  · exact hs.setSlot.ite (hs.complete fun _ ht => ht.keyLoadEff)
  · exact hs

theorem strikeCipher {b tag} (h : PartsCounted s) : PartsCounted (s.strikeCipher b tag) :=
  h.update.foldl fun _ _ hs => hs.countBay.log1

theorem cipherEff {b o} (h : PartsCounted s) : PartsCounted (State.cipherEff b o s).1 := by
  unfold State.cipherEff
  refine h.ite_fst ?_
  split
  · exact h
  · dsimp only
    split
    · exact h
    · split
      · exact h
      · refine .ite_fst ?_ h.writeBay.writeBay
        split <;> exact h.writeBay
      · exact h.writeBay

theorem execCipherRun {hd o} (h : PartsCounted s) : NextCounted (execCipherRun hd o s) := by
  unfold Machine.execCipherRun
  refine .next (h.onRunning fun _ => ?_)
  split
  · exact h.completeIn fun _ hs => hs.cipherEff.strikeCipher.ite_fst hs.cipherEff
  · exact h

theorem digestEff {b src dst length} (h : PartsCounted s) : PartsCounted (State.digestEff b src dst length s).1 := by
  unfold State.digestEff
  split
  · exact h
  · exact h.writeBay

theorem execDigestRun {hd src dst length} (h : PartsCounted s) : NextCounted (execDigestRun hd src dst length s) := by
  unfold Machine.execDigestRun
  refine .next (h.onRunning fun _ => ?_)
  split
  · exact h.completeIn fun _ hs => hs.digestEff
  · exact h

theorem serveOne (h : PartsCounted s) : PartsCounted s.serveOne := by
  unfold State.serveOne
  split
  · exact h
  · split
    · exact h
    · exact h.ite (h.update.complete fun _ hs => hs.putOut)

theorem serveAll {n} (h : PartsCounted s) : PartsCounted (State.serveAll n s) := by
  induction n generalizing s with
  | zero => exact h
  | succ n ih => exact ih h.serveOne

theorem execEntropyRead {hd dst length} (h : PartsCounted s) : NextCounted (execEntropyRead hd dst length s) := by
  unfold Machine.execEntropyRead
  refine .next (h.onRunning fun _ => ?_)
  split
  · exact h
  · exact h.fail.ite (h.fail.ite h.setActive.update.serveAll)

theorem trngFail (h : PartsCounted s) : PartsCounted s.trngFail :=
  (h.update.foldl fun _ _ hs => hs.fail).log1.ite (h.update.foldl fun _ _ hs => hs.fail)

theorem execTrngOutput {samples} (h : PartsCounted s) : NextCounted (execTrngOutput samples s) :=
  .next ((h.trngFail.ite (h.update.update.serveAll.ite h.update)).ite h)

theorem execTrngHealthFailure (h : PartsCounted s) : NextCounted (execTrngHealthFailure s) :=
  .next h.trngFail

theorem execTrngStartupDone (h : PartsCounted s) : NextCounted (execTrngStartupDone s) :=
  .next (h.ite h.update)

/-! ### Machine/Cuts.lean -/

theorem setCkpt {b} {f : Ckpt → Ckpt} (h : PartsCounted s) : PartsCounted (s.setCkpt b f) :=
  h.setBay

theorem setCut {b} {f : Cut → Cut} (h : PartsCounted s) : PartsCounted (s.setCut b f) :=
  h.setCkpt

theorem beginCopy {b step} (h : PartsCounted s) : PartsCounted (s.beginCopy b step) :=
  h.setCut

theorem discardCut {b} (h : PartsCounted s) : PartsCounted (s.discardCut b) :=
  h.setCkpt

theorem copyKerf {b ks} (h : PartsCounted s) : PartsCounted (s.copyKerf b ks) :=
  h.foldl fun _ _ hs => hs.writeAcc

theorem takePredictive {b} (h : PartsCounted s) : PartsCounted (s.takePredictive b) := by
  unfold State.takePredictive
  dsimp only
  split
  · exact h.log2
  · exact h.log2
  · exact h.log2.ite (h.log2.ite h.setCkpt)

theorem execPredictiveCut {bay} (h : PartsCounted s) : NextCounted (execPredictiveCut bay s) :=
  .next (h.setBay.takePredictive.ite h)

theorem drained {b adm mark} (h : PartsCounted s) : PartsCounted (s.drained b adm mark) :=
  h.setCkpt

theorem endDrain {b adm st result mark} (h : PartsCounted s) : PartsCounted (s.endDrain b adm st result mark) :=
  (h.drained.ite h.setCut).finishNat

theorem strikeCodec {b len adm fs} (h : PartsCounted s) : PartsCounted (State.strikeCodec b len adm fs s).2 := by
  induction fs generalizing s with
  | nil => exact h
  | cons f fs ih =>
    have struck : ∀ r, PartsCounted (match adm with
        | some a => (((s.countBay b 15 1).countBay b 4 (encodeCycles len)).log1 r).markCorrected a
        | none => ((s.countBay b 15 1).countBay b 4 (encodeCycles len)).log1 r) := fun r => by
      split
      · exact h.countBay.countBay.log1.markCorrected
      · exact h.countBay.countBay.log1
    unfold State.strikeCodec
    split
    · exact h
    · split
      · exact ih h
      · dsimp only
        split
        · exact struck _
        · exact ih (struck _).update.countBay.log12

theorem useCodec {b len adm} (h : PartsCounted s) : PartsCounted (s.useCodec b len adm).1 :=
  h.ite_fst h.strikeCodec.update

theorem useCodecs {b adm ls} (h : PartsCounted s) : PartsCounted (State.useCodecs b adm ls s).1 := by
  induction ls generalizing s with
  | nil => exact h
  | cons len ls ih =>
    unfold State.useCodecs
    dsimp only
    split
    · exact ih h.useCodec
    · exact h.useCodec

/-! ### Machine/Transfers.lean -/

theorem endXfer {b x} (h : PartsCounted s) : PartsCounted (s.endXfer b x) := by
  unfold State.endXfer
  split
  · split
    · split
      · exact h.endDrain
      · exact h.gatherPut
      · exact h.finishNat
    · exact h
  · exact h.firedEnd
  · exact h

theorem putXfer {b i x} (h : PartsCounted s) : PartsCounted (s.putXfer b i x) :=
  h.setBay.endXfer.ite h.setBay

theorem sendChunks {b g x m} {data : Nat → Nat → List Byte}
    {bad : Nat → Nat → Option Nat} (h : PartsCounted s) : PartsCounted (s.sendChunks b g x m data bad) :=
  (h.setBay.foldl fun _ _ hs => hs.sendTo).putXfer

theorem askChunks {b g x m} (h : PartsCounted s) : PartsCounted (s.askChunks b g x m) :=
  h.setBay.foldl fun _ _ hs => hs.sendTo

theorem startXfer {b group vc adm trig src dst n} (h : PartsCounted s) :
    PartsCounted (s.startXfer b group vc adm trig src dst n) := by
  unfold State.startXfer
  dsimp only
  split
  · exact h.endXfer
  · refine h.endXfer.ite ?_
    split
    · exact h.askChunks
    · refine .sendChunks ?_
      split
      · exact (h.lateReads.ite h).logBadReads.ite (h.lateReads.ite h)
      · exact h.lateReads.ite h
    · exact h.endXfer

theorem execMemCopy {hd src dst length} (h : PartsCounted s) : NextCounted (execMemCopy hd src dst length s) := by
  unfold Machine.execMemCopy
  refine .next (h.onRunning fun _ => ?_)
  split
  · exact h
  · exact (h.complete fun _ hs => hs.copyLocal).ite h.setActive.startXfer

theorem answer {p code data} (h : PartsCounted s) : PartsCounted (s.answer p code data) :=
  h.sendPacket

theorem execFabricWrite {p} (h : PartsCounted s) : NextCounted (execFabricWrite p s) :=
  .next (h.ite (h.takePacket.answer.ite h.takePacket.writeBay.answer))

theorem execReadRequest {p} (h : PartsCounted s) : NextCounted (execReadRequest p s) :=
  .next (h.ite (h.takePacket.answer.ite (h.takePacket.logBadReads.answer.ite h.takePacket.lateReads.answer)))

theorem landChunk {b a bs} (h : PartsCounted s) : PartsCounted (s.landChunk b a bs).1 :=
  h.ite_fst h.writeBay

theorem execReadResponse {p} (h : PartsCounted s) : NextCounted (execReadResponse p s) := by
  unfold Machine.execReadResponse
  refine .next (h.ite ?_)
  dsimp only
  split
  · exact h.takePacket
  · split
    · exact h.takePacket
    · refine h.takePacket.putXfer.ite ?_
      split
      · exact h.takePacket.landChunk.putXfer
      · exact h.takePacket.setBay.sendTo

theorem execCounterAdd {p} (h : PartsCounted s) : NextCounted (execCounterAdd p s) :=
  .next (h.ite (h.takePacket.ite h.takePacket.bump))

theorem execTriggerArm {hd t} (h : PartsCounted s) : NextCounted (execTriggerArm hd t s) := by
  unfold Machine.execTriggerArm
  refine .next (h.onRunning fun _ => ?_)
  split
  · exact h
  · split
    · exact h.fail
    · exact h.setBay.finishNat

theorem execTriggerDisarm {hd handle} (h : PartsCounted s) : NextCounted (execTriggerDisarm hd handle s) := by
  unfold Machine.execTriggerDisarm
  refine .next (h.onRunning fun _ => ?_)
  split
  · exact h
  · split
    · exact h.fail
    · exact h.fail.ite h.setBay.finishNat

theorem fireColl {b t} (h : PartsCounted s) : PartsCounted (s.fireColl b t) := by
  unfold State.fireColl
  dsimp only
  split
  · split
    · exact h.setGroup.firedEnd
    · exact h.setGroup.startColl.takeEarlySegs
  · exact h.firedEnd

theorem fireEffect {b t} (h : PartsCounted s) : PartsCounted (s.fireEffect b t) := by
  unfold State.fireEffect
  dsimp only
  split
  · exact h.addAt.firedEnd.ite h.firedEnd
  · exact h.fireColl
  · exact h.bump.firedEnd
  · exact h.copyLocal.firedEnd.ite h.startXfer

theorem afterFire {b handle} (h : PartsCounted s) : PartsCounted (s.afterFire b handle) :=
  h.setBay

theorem execTriggerFire {bay handle} (h : PartsCounted s) : NextCounted (execTriggerFire bay handle s) := by
  unfold Machine.execTriggerFire
  refine .next ?_
  split
  · exact h
  · exact h.ite (h.afterFire.passErr.ite h.afterFire.fireEffect)

/-! ### Machine/Checkpoint.lean -/

theorem execCkptCut {hd cutId blk} (h : PartsCounted s) : NextCounted (execCkptCut hd cutId blk s) := by
  unfold Machine.execCkptCut
  refine .next (h.onRunning fun _ => ?_)
  split
  · exact h
  · split
    · exact h.fail
    · refine h.finishNat.ite ?_
      dsimp only
      split
      · exact h.setActive.setCkpt.beginCopy
      · exact h.setActive.setCkpt

theorem drainLocal {b adm path dst out} (h : PartsCounted s) :
    PartsCounted (State.drainLocal b adm path dst out s).1 :=
  h.ite_fst h.writeBay

theorem logDrain {b tag rs} (h : PartsCounted s) : PartsCounted (s.logDrain b tag rs) := by
  unfold State.logDrain
  split
  · exact h.logBadReads
  · exact h

theorem execCkptDrain {hd dst cutId path slot} (h : PartsCounted s) :
    NextCounted (execCkptDrain hd dst cutId path slot s) := by
  unfold Machine.execCkptDrain
  refine .next (h.onRunning fun _ => ?_)
  split
  · exact h
  · split
    · exact h.fail
    · split
      · exact h.fail
      · dsimp only
        split
        · exact (h.logDrain.ite h).fail
        · refine h.useCodecs.fail.ite ?_
          split
          · exact h.useCodecs.setActive.setSlot.setCut.sendChunks
          · exact h.useCodecs.fail
          · exact h.useCodecs.setCut.drainLocal.endDrain

theorem execCkptRelease {hd cutId} (h : PartsCounted s) : NextCounted (execCkptRelease hd cutId s) := by
  unfold Machine.execCkptRelease
  refine .next (h.onRunning fun _ => ?_)
  split
  · exact h
  · split
    · exact h.fail
    · refine h.fail.ite (h.fail.ite (.finishNat ?_))
      split
      · exact h.discardCut.settleColls.fail.ite h.discardCut.settleColls
      · exact h.discardCut.settleColls

theorem verifyEff {b manifest src slot} (h : PartsCounted s) :
    PartsCounted (State.verifyEff b manifest src slot s).1 := by
  unfold State.verifyEff
  split
  · exact h
  · dsimp only
    split
    · exact h
    · exact h.ite_fst h

theorem execCkptVerify {hd manifest src slot} (h : PartsCounted s) :
    NextCounted (execCkptVerify hd manifest src slot s) := by
  unfold Machine.execCkptVerify
  refine .next (h.onRunning fun _ => ?_)
  split
  · exact h.completeIn fun _ hs => hs.verifyEff
  · exact h

theorem writeBlocks {b p xs} (h : PartsCounted s) : PartsCounted (s.writeBlocks b p xs) := by
  unfold State.writeBlocks
  refine h.foldl fun _ _ hs => ?_
  split
  · exact hs.writeBay
  · exact hs

theorem logOrigin {b m} (h : PartsCounted s) : PartsCounted (s.logOrigin b m) :=
  h.log2.ite h

theorem afterRestore {b p step m} (h : PartsCounted s) : PartsCounted (s.afterRestore b p step m) :=
  (h.setTrain.foldl fun _ _ hs => hs.diffRecord).markDirty.setCkpt.logOrigin

theorem freeBlocks {b p xs} (h : PartsCounted s) : PartsCounted (s.freeBlocks b p xs) := by
  unfold State.freeBlocks
  refine h.foldl fun _ _ hs => ?_
  split
  · exact hs.writeBay.useFree
  · exact hs

theorem restorePass {b p m src xs} (h : PartsCounted s) : PartsCounted (State.restorePass b p m src xs s).1 :=
  h.writeBlocks.afterRestore.ite_fst h.freeBlocks.setTrain

theorem restoreEff {b adm manifest src slot} (h : PartsCounted s) :
    PartsCounted (State.restoreEff b adm manifest src slot s).1 := by
  unfold State.restoreEff
  dsimp only
  split
  · exact h.setCkpt
  · refine h.setCkpt.ite_fst ?_
    split
    · exact h.setCkpt
    · refine h.setCkpt.ite_fst (h.setCkpt.ite_fst ?_)
      split
      · exact h.setCkpt
      · split
        · exact h.setCkpt
        · exact h.setCkpt.restorePass

theorem execCkptRestore {hd manifest src slot} (h : PartsCounted s) :
    NextCounted (execCkptRestore hd manifest src slot s) := by
  unfold Machine.execCkptRestore
  refine .next (h.onRunning fun _ => ?_)
  split
  · exact h.completeIn fun _ hs => hs.restoreEff
  · exact h

/-! ### Machine/Perform.lean -/

theorem mixMatmul {t : State} {b m} (h : PartsCounted s) : PartsCounted (s.mixMatmul t b m) := by
  unfold State.mixMatmul
  extract_lets _ s1
  have h1 : PartsCounted s1 := h.foldl fun _ _ hs => (hs.foldl fun _ _ ht => ht.writeBay).ite hs
  exact h1.useFree.mixed.ite h1.useFree

theorem mixFlags {t : State} {b} (h : PartsCounted s) : PartsCounted (s.mixFlags t b) :=
  h.raise.useFree

theorem endRunning {b c} (h : PartsCounted s) : PartsCounted (s.endRunning b c).1 := by
  unfold State.endRunning
  split
  · exact h.ite_fst h.setBay.useFree
  · exact h.ite_fst h.useFree.movePages
  · exact h.useFree.stepUpdateEff
  · split
    · exact h.useFree.mixMatmul.mixFlags
    · exact h
  · split
    · exact h.useFree.mixed.mixFlags
    · exact h

theorem endActive {b c st} (h : PartsCounted s) : PartsCounted (s.endActive b c st).1 := by
  unfold State.endActive
  dsimp only
  split
  · exact h.setBay
  · exact h.stopFields.ite_fst h.stopLaunch
  · exact h.setTrain
  · exact h.setTrain
  · split
    · exact (h.abortRecords.ite h).setTrain.ite_fst h
    · exact h
  · exact h.setSq
  · exact h.discardCut
  · exact h.setCut.setBay
  · exact h.setBay
  · exact h.update
  · exact h.setBay
  · exact h.setBay
  · exact h.setBay
  · exact h.setBay
  · exact h

theorem dropWaits {b adm} (h : PartsCounted s) : PartsCounted (s.dropWaits b adm) :=
  h.setBay

theorem cutShort {b st adm} (h : PartsCounted s) : PartsCounted (s.cutShort b st adm) := by
  unfold State.cutShort
  dsimp only
  split
  · exact h.dropWaits
  · split
    · exact h.dropWaits.endRunning.finishNat
    · exact h.dropWaits.endActive.finishNat
    · exact h.dropWaits.finishNat
    · exact h.dropWaits

/-! ### Machine/Bays.lean -/

theorem setFlow {b} {f : Machine.Flow → Machine.Flow} (h : PartsCounted s) : PartsCounted (s.setFlow b f) :=
  h.setBay

theorem cutBayDma {b} (h : PartsCounted s) : PartsCounted (s.cutBayDma b) :=
  h.foldl fun _ _ hs => hs.cutChannels

theorem halt {b quiet} (h : PartsCounted s) : PartsCounted (s.halt b quiet).1 := by
  unfold State.halt
  extract_lets _ _ _ _ _ _ _ s1
  have h1 : PartsCounted s1 := (((h.setFlow.update.ite h.setFlow).foldl fun _ _ hs => hs.sendAbort).foldl
    fun _ _ hs => hs.cutShort).setBay.foldl fun _ _ hs => hs.abortGroup
  exact h1.cutBayDma.discardCut.ite h1.cutBayDma

theorem releaseUrg {adm} (h : PartsCounted s) : PartsCounted (s.releaseUrg adm) :=
  h.update.ite h

theorem finishUrg {adm st result} (h : PartsCounted s) : PartsCounted (s.finishUrg adm st result) :=
  h.finishNat.releaseUrg

theorem endEvict {b st result} (h : PartsCounted s) : PartsCounted (s.endEvict b st result) := by
  unfold State.endEvict
  dsimp only
  split
  · exact h.setFlow.enter.finishUrg
  · exact h.setFlow.enter

theorem evictCut {b} (h : PartsCounted s) : PartsCounted (s.evictCut b) := by
  unfold State.evictCut
  dsimp only
  split
  · refine .beginCopy (.setCkpt ?_)
    split
    · exact h.log2
    · exact h
  · exact h.endEvict
  · exact h.endEvict

theorem evictHalted {b adm id} (h : PartsCounted s) : PartsCounted (s.evictHalted b adm id) := by
  unfold State.evictHalted
  split
  · exact h.finishUrg
  · exact h.setFlow.enter.releaseUrg.evictCut

theorem clearCluster {p} (h : PartsCounted s) : PartsCounted (s.clearCluster p) :=
  h.update.clearLoc.clearLoc

theorem markZero {gs} (h : PartsCounted s) : PartsCounted (s.markZero gs) :=
  h.update

theorem knockDown {b} (h : PartsCounted s) : PartsCounted (s.knockDown b) :=
  h.ite (h.setBay.enter.ite h.setBay)

theorem clearBay {b} (h : PartsCounted s) : PartsCounted (s.clearBay b) := by
  refine knockDown (setBay (h.foldl fun _ _ hs => hs.sendAbort).update fun y hy => ?_)
  obtain ⟨hs, hc, -, hk, ht⟩ := hy.resetQueues
  exact ⟨hs, hc, List.length_replicate .., hk, ht⟩

theorem scrubBay {b} (h : PartsCounted s) : PartsCounted (s.scrubBay b) := by
  refine setBay (h.markZero.foldl fun _ _ hs => hs.clearCluster) fun y hy => ?_
  obtain ⟨hs, hc, hn, -, ht⟩ := hy
  exact ⟨hs, hc, hn, List.length_replicate .., ht⟩

theorem toUnbound {b} (h : PartsCounted s) : PartsCounted (s.toUnbound b) := by
  refine enter (setBay (h.foldl fun _ _ hs => hs.sendAbort).update fun y hy => ?_)
  obtain ⟨hs, hc, -, -, ht⟩ := hy.resetQueues
  exact ⟨hs, hc, List.length_replicate .., List.length_replicate .., ht⟩

theorem beginReset {b adm scrub} (h : PartsCounted s) : PartsCounted (s.beginReset b adm scrub) :=
  (h.halt.ite h.setFlow).setFlow.enter

theorem resetBay {b adm scrub} (h : PartsCounted s) : PartsCounted (s.resetBay b adm scrub) := by
  unfold State.resetBay
  dsimp only
  split
  · split
    · exact h.finishNat
    · exact h
  · split
    · exact h.knockDown.finishNat
    · exact h.knockDown
  · exact h.beginReset
  · exact h.beginReset
  · exact h.setFlow
  · exact h.setFlow

theorem execBayReset {hd bay scrub} (h : PartsCounted s) : NextCounted (execBayReset hd bay scrub s) :=
  .next (h.onRunning fun _ => h.fail.ite h.setActive.resetBay)

theorem endHalts {b} (h : PartsCounted s) : PartsCounted (s.endHalts b) :=
  h.setFlow.foldl fun _ _ hs => hs.finishNat

theorem afterHalted {b} (h : PartsCounted s) : PartsCounted (s.afterHalted b) := by
  unfold State.afterHalted
  dsimp only
  split
  · exact h.setFlow.beginReset
  · exact h.setFlow.evictHalted
  · exact h

theorem endReset {b adm scrub wasActive} (h : PartsCounted s) : PartsCounted (s.endReset b adm scrub wasActive) := by
  unfold State.endReset
  dsimp only
  split
  · exact ((h.enter.clearBay.scrubBay.ite h.enter.clearBay).setFlow.enter.ite (h.enter.clearBay.scrubBay.ite
      h.enter.clearBay).setFlow).finishNat
  · exact (h.enter.clearBay.scrubBay.ite h.enter.clearBay).setFlow.enter.ite (h.enter.clearBay.scrubBay.ite
      h.enter.clearBay).setFlow

theorem execBayHalted {bay} (h : PartsCounted s) : NextCounted (execBayHalted bay s) := by
  unfold Machine.execBayHalted
  refine .next ?_
  split
  · split
    · exact h.endHalts.endReset.afterHalted
    · exact h.enter.setFlow.endHalts.afterHalted
  · exact h.ite (h.endEvict.afterHalted.ite (h.evictCut.afterHalted.ite h.evictCut))
  · exact h

theorem execHaltBay {hd bay} (h : PartsCounted s) : NextCounted (execHaltBay hd bay s) := by
  unfold Machine.execHaltBay
  refine .next (h.onRunning fun _ => h.finishUrg.ite ?_)
  split
  · exact h.finishUrg
  · exact h.finishUrg
  · exact h.finishUrg
  · exact h.finishUrg
  · split
    · exact h.setActive.halt.setFlow.enter.releaseUrg
    · exact h.setActive.setFlow.releaseUrg
    · exact h.finishUrg

theorem execEvictBay {hd bay cutId} (h : PartsCounted s) : NextCounted (execEvictBay hd bay cutId s) := by
  unfold Machine.execEvictBay
  refine .next (h.onRunning fun _ => h.finishUrg.ite ?_)
  split
  · exact h.finishUrg
  · exact h.finishUrg
  · exact h.finishUrg
  · split
    · split
      · exact h.finishUrg
      · exact h.setActive.setFlow.enter.releaseUrg.halt.ite h.setActive.setFlow.enter.releaseUrg
    · exact h.setActive.evictHalted
    · exact h.setActive.setFlow
    · exact h.finishUrg
    · exact h.finishUrg
    · exact h.finishUrg

theorem execResumeBay {hd bay} (h : PartsCounted s) : NextCounted (execResumeBay hd bay s) := by
  unfold Machine.execResumeBay
  refine .next (h.onRunning fun _ => h.finishUrg.ite ?_)
  split
  · exact h.finishUrg
  · exact (h.enter.ite h).finishUrg
  · exact h.finishUrg
  · exact h.finishUrg
  · exact h.finishUrg
  · exact h.finishUrg

theorem execHaltMemoryAbsorb {bay accesses} (h : PartsCounted s) :
    NextCounted (execHaltMemoryAbsorb bay accesses s) :=
  .next (h.countBay.ite h)

theorem execHaltFlushLate {bay} (h : PartsCounted s) : NextCounted (execHaltFlushLate bay s) :=
  .next (h.countBay.ite h)

theorem execEvictBoundaryReached {bay} (h : PartsCounted s) : NextCounted (execEvictBoundaryReached bay s) :=
  .next (h.halt.ite h)

theorem execEvictTimeout {bay} (h : PartsCounted s) : NextCounted (execEvictTimeout bay s) := by
  unfold Machine.execEvictTimeout
  refine .next ?_
  split
  · exact h.log2.setFlow.halt.ite h
  · exact h

theorem goFatal {kind} (h : PartsCounted s) : PartsCounted (s.goFatal kind) :=
  h.update.devCause.log1.useFree.foldl fun _ _ hs => hs.foldl fun _ _ ht => ht.cutShort

theorem failCut {b c st} (h : PartsCounted s) : PartsCounted (s.failCut b c st) := by
  unfold State.failCut
  refine h.discardCut.settleColls.endEvict.afterHalted.ite ?_
  split
  · exact h.discardCut.settleColls.fail
  · exact h.discardCut.settleColls

theorem finishCut {b c p} (h : PartsCounted s) : PartsCounted (s.finishCut b c p) := by
  unfold State.finishCut
  refine h.failCut.ite (h.failCut.ite ?_)
  dsimp only
  split
  · exact (h.logBadReads.ite h).failCut
  · refine h.copyKerf.setCut.settleColls.endEvict.afterHalted.ite ?_
    split
    · exact h.copyKerf.setCut.settleColls.finishNat
    · exact h.copyKerf.setCut.settleColls.log2.bayEvent

theorem execCutCopy {bay} (h : PartsCounted s) : NextCounted (execCutCopy bay s) := by
  unfold Machine.execCutCopy
  refine .next ?_
  split
  · exact h
  · split
    · exact h.beginCopy
    · exact h.finishCut
    · exact h

/-! ### Machine/Binding.lean -/

theorem leaveUnbound {b} (h : PartsCounted s) : PartsCounted (s.leaveUnbound b) := by
  refine (h.setBay fun y hy => ?_).enter
  obtain ⟨hs, hc, hn, hk, -⟩ := hy
  exact ⟨hs, hc, hn, hk, List.length_replicate ..⟩

theorem execTxnBegin {hd bay} (h : PartsCounted s) : NextCounted (execTxnBegin hd bay s) :=
  .next (h.onRunning fun _ => h.fail.ite (h.fail.ite (h.setBay.leaveUnbound.ite h.setBay).finishNat))

theorem execTxnRollback {hd bay} (h : PartsCounted s) : NextCounted (execTxnRollback hd bay s) := by
  unfold Machine.execTxnRollback
  refine .next (h.onRunning fun _ => h.fail.ite ?_)
  split
  · exact h.fail
  · exact h.knockDown.finishNat

theorem stage {adm bay i} (h : PartsCounted s) : PartsCounted (s.stage adm bay i) := by
  unfold State.stage
  split
  · exact h.fail
  · split
    · exact h.fail
    · exact h.fail.ite h.setBay.finishNat

theorem execBindCluster {hd bay unbind mask} (h : PartsCounted s) :
    NextCounted (execBindCluster hd bay unbind mask s) :=
  .next (h.onRunning fun _ => h.stage)

theorem execBindMemory {hd bay unbind first count} (h : PartsCounted s) :
    NextCounted (execBindMemory hd bay unbind first count s) :=
  .next (h.onRunning fun _ => h.stage)

theorem execBindShares {hd bay o} (h : PartsCounted s) : NextCounted (execBindShares hd bay o s) :=
  .next (h.onRunning fun _ => h.stage)

theorem beginPeg {b adm drainUs r} (h : PartsCounted s) : PartsCounted (s.beginPeg b adm drainUs r) :=
  h.setBay.update

theorem execTxnCommit {hd bay drainUs} (h : PartsCounted s) : NextCounted (execTxnCommit hd bay drainUs s) := by
  unfold Machine.execTxnCommit
  refine .next (h.onRunning fun _ => h.fail.ite ?_)
  dsimp only
  split
  · exact h.fail
  · refine h.ite ((h.setBay.enter.ite h.setBay).finishNat.ite ?_)
    split
    · exact h.knockDown.finishNat
    · exact h.setActive.beginPeg

theorem underOld {p} {f : State → State × Nat} (h : PartsCounted s)
    (hf : ∀ a, PartsCounted a → PartsCounted (f a).1) : PartsCounted (s.underOld p f).1 :=
  (hf _ h.setBay).setBay

theorem giveUp {b c} (h : PartsCounted s) : PartsCounted (State.giveUp b c s).1 := by
  unfold State.giveUp
  split
  · exact h.endRunning
  · split
    · exact h.stopFields.foldl fun _ _ hs => hs.cutChannels
    · exact h.endActive

theorem rebind {p c} (h : PartsCounted s) : PartsCounted (State.rebind p s c) :=
  (h.underOld fun _ hs => hs.giveUp).finishNat

theorem execPegDrainLimit (h : PartsCounted s) : NextCounted (execPegDrainLimit s) := by
  unfold Machine.execPegDrainLimit
  refine .next ?_
  split
  · exact h
  · exact h.ite ((h.useFree.ite h.useFree.useFree).foldl fun _ _ hs => hs.rebind).update.update

theorem afterPeg {b} (h : PartsCounted s) : PartsCounted (s.afterPeg b) := by
  unfold State.afterPeg
  dsimp only
  split
  · exact h.enter
  · exact h.enter
  · exact h.toUnbound
  · exact h

theorem execPegComplete (h : PartsCounted s) : NextCounted (execPegComplete s) := by
  unfold Machine.execPegComplete
  refine .next ?_
  split
  · exact h
  · exact h.ite (h.foldl fun _ _ hs => hs.clearCluster).markZero.update.afterPeg.finishNat

/-! ### Machine/Joiner.lean -/

theorem dropReuse {b i} (h : PartsCounted s) : PartsCounted (s.dropReuse b i) := by
  unfold State.dropReuse
  split
  · exact h
  · exact h.setTrain

theorem takeIndex {b i} (h : PartsCounted s) : PartsCounted (s.takeIndex b i).2 := by
  unfold State.takeIndex
  dsimp only
  split
  · exact h.setTrain
  · exact h.setTrain
  · exact h.setTrain
  · exact h.setGroup
  · exact h.setGroup
  · exact h.setGroup
  · exact h.setGroup
  · exact h

theorem noteLayout {b i} (h : PartsCounted s) : PartsCounted (s.noteLayout b i) := by
  unfold State.noteLayout
  split
  · exact h.setCkpt
  · exact h

theorem addSlot {c} (h : PartsCounted s) : PartsCounted (s.addSlot c) :=
  h.update

theorem admitEntry {org e ph} (h : PartsCounted s) : PartsCounted (s.admitEntry org e ph) := by
  unfold State.admitEntry
  dsimp only
  split
  · exact h.addSlot.fail
  · exact h.dropReuse.noteLayout.takeIndex.addSlot.ite h.addSlot

theorem fetchOne {b q} (h : PartsCounted s) : PartsCounted (s.fetchOne b q) :=
  (h.ite h.useFree).setSq.admitEntry

theorem fetchMany {n b q} (h : PartsCounted s) : PartsCounted (State.fetchMany n b q s) := by
  induction n generalizing s with
  | zero => exact h
  | succ n ih => exact h.ite (ih h.fetchOne)

theorem fetchBays (h : PartsCounted s) : PartsCounted s.fetchBays := by
  unfold State.fetchBays
  split
  · exact h
  · split
    · exact h
    · exact h.update.fetchMany

theorem fetchControlOne (h : PartsCounted s) : PartsCounted s.fetchControlOne :=
  (h.ite h.useFree).update.admitEntry

theorem fetchControl {n} (h : PartsCounted s) : PartsCounted (State.fetchControl n s) := by
  induction n generalizing s with
  | zero => exact h
  | succ n ih => exact h.ite (ih h.fetchControlOne)

theorem execEntryFetch {path} (h : PartsCounted s) : NextCounted (execEntryFetch path s) := by
  unfold Machine.execEntryFetch
  refine .next (h.ite ?_)
  split
  · exact h.fetchBays
  · exact h.fetchControl

theorem meetPath {b x} (h : PartsCounted s) : PartsCounted (s.meetPath b x) := by
  unfold State.meetPath
  split
  · exact h.countBay
  · exact h.countBay
  · exact h.countMinor
  · exact h.countMinor
  · exact h.countMinor
  · exact h.goFatal
  · exact h.countMinor
  · exact h.countMinor

theorem meetPaths {b} (h : PartsCounted s) : PartsCounted (s.meetPaths b) :=
  h.update.foldl fun _ _ hs => hs.meetPath

theorem start {c} (h : PartsCounted s) : PartsCounted (s.start c) := by
  unfold State.start
  split
  · exact h.setSlot
  · split
    · exact h.fail
    · exact (h.setCkpt.ite h).lateReads.setSlot.meetPaths

theorem execCommandDispatch {adm} (h : PartsCounted s) : NextCounted (execCommandDispatch adm s) := by
  unfold Machine.execCommandDispatch
  refine .next ?_
  split
  · exact h
  · refine h.ite ?_
    split <;> exact h.start.ite h

theorem release {c} (h : PartsCounted s) : PartsCounted (s.release c) :=
  h.dropSlot.settle

theorem postBay {b k c} (h : PartsCounted s) : PartsCounted (s.postBay b k c) :=
  h.ite (h.writeBay.setCq.bayIrq.ite h.writeBay.setCq).release

theorem writeHost0 {a bs} (h : PartsCounted s) : PartsCounted (s.writeHost0 a bs) :=
  h.writeLoc.ite h

theorem postControl {c} (h : PartsCounted s) : PartsCounted (s.postControl c) :=
  h.ite (h.writeHost0.update.emit.ite h.writeHost0.update).release

theorem postUrgent {c} (h : PartsCounted s) : PartsCounted (s.postUrgent c) :=
  h.ite h.writeHost0.update.emit.release

theorem execCompletionPost {cq} (h : PartsCounted s) : NextCounted (execCompletionPost cq s) := by
  unfold Machine.execCompletionPost
  refine .next (h.ite ?_)
  split
  · exact h
  · exact h.postBay
  · exact h.postControl
  · exact h.postUrgent

theorem execCoalesceTimer {cq} (h : PartsCounted s) : NextCounted (execCoalesceTimer cq s) := by
  unfold Machine.execCoalesceTimer
  refine .next ?_
  split
  · exact h.setCq.bayIrq.ite h
  · exact h.update.emit.ite h
  · exact h

theorem noteUrgent {c} (h : PartsCounted s) : PartsCounted (s.noteUrgent c) :=
  h.ite (h.setFlow.ite h).setSlot

theorem decodeUrgent (h : PartsCounted s) : PartsCounted s.decodeUrgent := by
  unfold State.decodeUrgent
  refine h.ite ?_
  dsimp only
  split
  · exact (h.update.admitEntry.noteUrgent.update.ite h.update.admitEntry.noteUrgent).ite h.update.admitEntry
  · exact h.update.admitEntry

theorem execUrgentDoorbellSample (h : PartsCounted s) : NextCounted (execUrgentDoorbellSample s) :=
  .next (h.ite h.update.decodeUrgent)

/-! ### Machine/Doorbells.lean -/

theorem hostWrites {r ws} (h : PartsCounted s) : PartsCounted (s.hostWrites r ws) :=
  h.foldl fun _ _ hs => hs.writeLoc

theorem ringSq {b q v} (h : PartsCounted s) : PartsCounted (s.ringSq b q v) :=
  h.setSq.ite h.bayDoorbellErr

theorem ringCq {b q v} (h : PartsCounted s) : PartsCounted (s.ringCq b q v) :=
  h.setCq.ite h.bayDoorbellErr

theorem execSubmissionDoorbell {bay q value written} (h : PartsCounted s) :
    NextCounted (execSubmissionDoorbell bay q value written s) :=
  .next (h.ite h.hostWrites.ringSq)

theorem execCompletionDoorbell {bay q value} (h : PartsCounted s) :
    NextCounted (execCompletionDoorbell bay q value s) :=
  .next (h.ite h.ringCq)

theorem ctlDbErr (h : PartsCounted s) : PartsCounted s.ctlDbErr :=
  h.update

theorem ringCtlSq {v} (h : PartsCounted s) : PartsCounted (s.ringCtlSq v) :=
  h.update.ite h.ctlDbErr

theorem ringCtlCq {v} (h : PartsCounted s) : PartsCounted (s.ringCtlCq v) :=
  h.update.ite h.ctlDbErr

theorem ringUrgSq {v} (h : PartsCounted s) : PartsCounted (s.ringUrgSq v) :=
  h.update

theorem ringUrgCq {v} (h : PartsCounted s) : PartsCounted (s.ringUrgCq v) :=
  h.update

theorem execCtlSqTail {value written} (h : PartsCounted s) : NextCounted (execCtlSqTail value written s) :=
  .next (h.ite h.hostWrites.ringCtlSq)

theorem execCtlCqHead {value} (h : PartsCounted s) : NextCounted (execCtlCqHead value s) :=
  .next (h.ite h.ringCtlCq)

theorem execUrgSqTail {value} (h : PartsCounted s) : NextCounted (execUrgSqTail value s) :=
  .next (h.ite h.ringUrgSq)

theorem execUrgCqHead {value} (h : PartsCounted s) : NextCounted (execUrgCqHead value s) :=
  .next (h.ite h.ringUrgCq)

theorem execEventCounterWrite {bay ctr w} (h : PartsCounted s) : NextCounted (execEventCounterWrite bay ctr w s) :=
  .next (h.ite h.setCounter.recheck)

theorem writeIntMask {v} (h : PartsCounted s) : PartsCounted (s.writeIntMask v) :=
  h.update.emit.ite h.update

theorem execIntMaskWrite {value} (h : PartsCounted s) : NextCounted (execIntMaskWrite value s) :=
  .next (h.ite h.writeIntMask)

theorem writeEventMask {b v} (h : PartsCounted s) : PartsCounted (s.writeEventMask b v) :=
  h.setBay.bayIrq.ite h.setBay

theorem execEventMaskWrite {bay value} (h : PartsCounted s) : NextCounted (execEventMaskWrite bay value s) :=
  .next (h.ite h.writeEventMask)

theorem enableControl (h : PartsCounted s) : PartsCounted s.enableControl :=
  h.update.ite h.update

theorem writeCtlWord {v} (h : PartsCounted s) : PartsCounted (s.writeCtlWord v) :=
  h.update.ite ((h.update.ite h.update.enableControl).ite (h.update.update.settleControl.ite h.update))

theorem execControlPairEnable {value} (h : PartsCounted s) : NextCounted (execControlPairEnable value s) :=
  .next (h.ite h.writeCtlWord)

theorem execControlPairDisable {value} (h : PartsCounted s) : NextCounted (execControlPairDisable value s) :=
  .next (h.ite h.writeCtlWord)

theorem setRegs {b} {f : BayRegs → BayRegs} (h : PartsCounted s) : PartsCounted (s.setRegs b f) :=
  h.setBay

theorem enableAdmin {b} (h : PartsCounted s) : PartsCounted (s.enableAdmin b) :=
  h.setRegs.ite h.setRegs.setSq.setCq

theorem writeAdminWord {b v} (h : PartsCounted s) : PartsCounted (s.writeAdminWord b v) :=
  h.setRegs.ite ((h.setRegs.ite h.setRegs.enableAdmin).ite ((h.setRegs.setRegs.ite h.setRegs.setRegs.settleAdmin).ite
    h.setRegs))

theorem execAdminPairEnable {bay value} (h : PartsCounted s) : NextCounted (execAdminPairEnable bay value s) :=
  .next (h.ite h.writeAdminWord)

theorem execAdminPairDisable {bay value} (h : PartsCounted s) : NextCounted (execAdminPairDisable bay value s) :=
  .next (h.ite h.writeAdminWord)

theorem writeUrgWord {v} (h : PartsCounted s) : PartsCounted (s.writeUrgWord v) :=
  h.devCause.ite h.update

theorem execUrgentQueueEnable {value} (h : PartsCounted s) : NextCounted (execUrgentQueueEnable value s) :=
  .next (h.ite h.writeUrgWord)

theorem execUrgentQueueDisable {value} (h : PartsCounted s) : NextCounted (execUrgentQueueDisable value s) :=
  .next (h.ite h.writeUrgWord)

theorem execApertureRead {bay offset length} (h : PartsCounted s) :
    NextCounted (execApertureRead bay offset length s) :=
  .next (h.ite (h.emit.ite (h.logBadReads.emit.ite h.lateReads.emit)))

theorem execApertureWrite {bay offset data} (h : PartsCounted s) :
    NextCounted (execApertureWrite bay offset data s) :=
  .next (h.ite (h.countBay.ite h.writeBay))

theorem finishDma {c chan} (h : PartsCounted s) : PartsCounted (s.finishDma c chan) := by
  unfold State.finishDma
  split
  · rename_i t ht
    exact h.execDmaDescriptorDone t ht
  · exact h

theorem clearCore {key} (h : PartsCounted s) : PartsCounted (s.clearCore key) :=
  h.update.clearLoc

theorem resetCore {c key} (h : PartsCounted s) : PartsCounted (s.resetCore c key) := by
  unfold State.resetCore
  refine .devCause (.clearCore ?_)
  split
  · exact h.finishDma.finishDma.failLaunch
  · exact h.finishDma.finishDma

theorem rejectReset (h : PartsCounted s) : PartsCounted s.rejectReset :=
  h.update

theorem execCoreReset {value} (h : PartsCounted s) : NextCounted (execCoreReset value s) := by
  unfold Machine.execCoreReset
  refine .next (h.ite ?_)
  split
  · exact h.rejectReset.ite h.resetCore
  · exact h.rejectReset

theorem stopInCluster {lc c} (h : PartsCounted s) : PartsCounted (State.stopInCluster lc s c) := by
  unfold State.stopInCluster
  split
  · exact h.failLaunch
  · exact h.cutShort
  · exact h

theorem beginClusterReset {lc} (h : PartsCounted s) : PartsCounted (s.beginClusterReset lc) :=
  (h.update.foldl fun _ _ hs => hs.stopInCluster).foldl fun _ _ hs => hs.dropQueued

theorem execClusterReset {value} (h : PartsCounted s) : NextCounted (execClusterReset value s) :=
  .next (h.ite (h.rejectReset.ite h.beginClusterReset))

theorem absorbCluster {lc} (h : PartsCounted s) : PartsCounted (s.absorbCluster lc) := by
  unfold State.absorbCluster
  extract_lets s1
  have h1 : PartsCounted s1 := h.foldl fun _ _ hs => hs.cutChannels
  split
  · exact h1.useFree
  · refine .foldl (.setBay ((h1.useFree.foldl fun _ _ hs => hs.sendAbort.abortGroup).foldl fun _ _ hs => ?_))
      fun _ _ hs => hs.firedEnd
    split
    · exact hs.stopFields.finishNat
    · exact hs.cutShort

theorem clearCores {p} (h : PartsCounted s) : PartsCounted (s.clearCores p) :=
  h.update.clearLoc

theorem execClusterResetAbsorb {lc} (h : PartsCounted s) : NextCounted (execClusterResetAbsorb lc s) := by
  unfold Machine.execClusterResetAbsorb
  refine .next ?_
  split
  · exact h
  · refine h.ite (.devCause (.update ?_))
    split
    · exact h.absorbCluster.clearCores
    · exact h.absorbCluster

/-! ### Machine/Repair.lean -/

theorem logUnit {b r} (h : PartsCounted s) : PartsCounted (s.logUnit b r) := by
  unfold State.logUnit
  split
  · exact h.log12
  · exact h.log1

theorem execCubeSubstitution {cluster engine cube} (h : PartsCounted s) :
    NextCounted (execCubeSubstitution cluster engine cube s) := by
  unfold Machine.execCubeSubstitution
  refine .next (h.ite ?_)
  split
  · refine .log1 ?_
    split
    · exact h.setCluster.countBay
    · exact h.setCluster
  · exact h.setCluster.askRetire.logUnit

theorem execCoreRetirement {cluster core} (h : PartsCounted s) : NextCounted (execCoreRetirement cluster core s) :=
  .next (h.ite (h.setCluster.update.logUnit.askRetire.ite h.setCluster.update.logUnit))

theorem execBankRetirement {cluster bank} (h : PartsCounted s) : NextCounted (execBankRetirement cluster bank s) := by
  unfold Machine.execBankRetirement
  refine .next (h.ite (h.askRetire.ite (.logUnit (.useFree ?_))))
  split
  · exact h.setCluster.update.countBay
  · exact h.setCluster.update

theorem moveCluster {p q} (h : PartsCounted s) : PartsCounted (s.moveCluster p q) :=
  h.update

theorem loadGcrt {p lc} (h : PartsCounted s) : PartsCounted (s.loadGcrt p lc) :=
  h.update

theorem moveLogical {lc p q} (h : PartsCounted s) : PartsCounted (s.moveLogical lc p q) := by
  unfold State.moveLogical
  refine .logUnit ?_
  split
  · exact h.setPower.setCluster.loadGcrt.moveCluster.update.setCluster.setPower.countBay
  · exact h.setPower.setCluster.loadGcrt.moveCluster.update.setCluster.setPower

theorem atRisk {lc p} (h : PartsCounted s) : PartsCounted (s.atRisk lc p) :=
  h.update.setCluster.logUnit

theorem execClusterRetirement {lc} (h : PartsCounted s) : NextCounted (execClusterRetirement lc s) := by
  unfold Machine.execClusterRetirement
  refine .next ?_
  split
  · exact h
  · refine h.ite ?_
    split
    · exact h.atRisk.ite h
    · exact h.moveLogical.ite h

theorem warnUnit {kind unit cause} (h : PartsCounted s) : PartsCounted (s.warnUnit kind unit cause) :=
  h.log1.foldl fun _ _ hs => hs.setBay.log2

theorem raiseWarning {i cause exempt} (h : PartsCounted s) : PartsCounted (s.raiseWarning i cause exempt) :=
  h.update.warnUnit.ite h

theorem sampleInto {i x} (h : PartsCounted s) : PartsCounted (s.sampleInto i x) :=
  h.update

theorem planMargin {i p slack} (h : PartsCounted s) : PartsCounted (s.planMargin i p slack) :=
  h.ite (h.setCluster.log1.ite (h.ite h.setCluster.logUnit.raiseWarning.askRetire))

theorem swapLane {before x} (h : PartsCounted s) : PartsCounted (s.swapLane before x) :=
  h.laneLost.ite h

theorem takeReading {x} (h : PartsCounted s) : PartsCounted (s.takeReading x) := by
  unfold State.takeReading
  refine h.ite ?_
  extract_lets _ _ _ logged _ rising crossed margin
  have hlogged : PartsCounted logged := h.sampleInto.ite h.sampleInto.log1
  have hrising : PartsCounted rising := hlogged.raiseWarning.ite hlogged
  have hcrossed : PartsCounted crossed := hrising.raiseWarning.ite (hrising.raiseWarning.ite hrising)
  have hmargin : PartsCounted margin := hcrossed.planMargin.ite hcrossed
  exact (hmargin.raiseWarning.ite hmargin).swapLane

theorem logMinor (h : PartsCounted s) : PartsCounted s.logMinor :=
  h.update.foldl fun _ _ hs => hs.log1

theorem warnCores (h : PartsCounted s) : PartsCounted s.warnCores :=
  h.update.foldl fun _ _ hs => hs.raiseWarning

theorem execSeasoningSample {readings} (h : PartsCounted s) : NextCounted (execSeasoningSample readings s) :=
  .next (h.ite (h.foldl fun _ _ hs => hs.takeReading).logMinor.warnCores.update)

theorem writeHistory (h : PartsCounted s) : PartsCounted s.writeHistory :=
  h.update

theorem execHistoryWrite (h : PartsCounted s) : NextCounted (execHistoryWrite s) :=
  .next (h.writeHistory.ite h)

theorem logEvent {r} (h : PartsCounted s) : PartsCounted (s.logEvent r) :=
  h.update.ite h

theorem execPatrolScrub {line} (h : PartsCounted s) : NextCounted (execPatrolScrub line s) := .next h

theorem execDramRefresh {bay tier2 stall} (h : PartsCounted s) : NextCounted (execDramRefresh bay tier2 stall s) :=
  .next (h.countBay.ite h)

/-! ### Machine/Reset.lean -/

theorem setSelect {active pending} (h : PartsCounted s) : PartsCounted (s.setSelect active pending) :=
  h.update

theorem bootRec {code d0 d1} (h : PartsCounted s) : PartsCounted (s.bootRec code d0 d1) :=
  h.update

theorem loseMemory (h : PartsCounted s) : PartsCounted s.loseMemory :=
  h.update

theorem dropReady (h : PartsCounted s) : PartsCounted s.dropReady :=
  h.update.emit.ite h

theorem startBoot {warm} (h : PartsCounted s) : PartsCounted (s.startBoot warm) :=
  h.update.bootRec

theorem cleared {hold} (h : PartsCounted s) : PartsCounted (s.cleared hold) := by
  obtain ⟨-, -, -, -, -, -, hs, -⟩ := h.dropReady.loseMemory
  exact reset.of_lengths (hs := hs.trans (List.length_replicate ..).symm)

theorem alwaysOn (h : PartsCounted s) : PartsCounted s.alwaysOn :=
  h.setPower.setPower

theorem coldBoot (h : PartsCounted s) : PartsCounted s.coldBoot :=
  h.cleared.alwaysOn.ite h.cleared.alwaysOn.startBoot

theorem execPowerInRange (h : PartsCounted s) : NextCounted (execPowerInRange s) :=
  .next (h.coldBoot.ite h)

theorem execResetN {low} (h : PartsCounted s) : NextCounted (execResetN low s) :=
  .next (h.update.ite (h.update.coldBoot.ite (h.update.coldBoot.ite h.update)))

theorem warmReset (h : PartsCounted s) : PartsCounted s.warmReset := by
  obtain ⟨hb, hys, hc, hp, hf, hr⟩ := h.dropReady.loseMemory
  refine startBoot ⟨List.length_map .. |>.trans hb, fun y hy => ?_, List.length_map .. |>.trans hc,
    List.length_map .. |>.trans hp, List.length_map .. |>.trans hf, hr⟩
  obtain ⟨z, hz, rfl⟩ := List.mem_map.1 hy
  obtain ⟨-, -, -, -, htele⟩ := hys z hz
  exact ⟨List.length_replicate .., List.length_replicate .., List.length_replicate .., List.length_replicate ..,
    htele⟩

theorem execDeviceReset {value} (h : PartsCounted s) : NextCounted (execDeviceReset value s) :=
  .next (h.warmReset.ite h)

theorem execPfFunctionLevelReset (h : PartsCounted s) : NextCounted (execPfFunctionLevelReset s) :=
  .next (h.warmReset.ite h)

theorem execVfFunctionLevelReset {bay} (h : PartsCounted s) : NextCounted (execVfFunctionLevelReset bay s) :=
  .next (h.resetBay.ite h)

theorem execPciePerstN {low} (h : PartsCounted s) : NextCounted (execPciePerstN low s) :=
  .next (h.update.ite ((h.update.warmReset.ite h.update.update).ite h.update.update))

/-! ### Machine/Images.lean -/

theorem endStage (h : PartsCounted s) : PartsCounted s.endStage :=
  h.bootRec.update

theorem toMgmtOnly (h : PartsCounted s) : PartsCounted s.toMgmtOnly :=
  h.update.bootRec

theorem unitFailed {kind unit} (h : PartsCounted s) : PartsCounted (s.unitFailed kind unit) :=
  h.bootRec

theorem execBootRomStage {selfTestOk} (h : PartsCounted s) : NextCounted (execBootRomStage selfTestOk s) :=
  .next (h.ite (h.unitFailed.goFatal.update.ite h.setPower.setPower.update.endStage))

theorem takeGolden {x k} (h : PartsCounted s) : PartsCounted (s.takeGolden x k).1 :=
  h.bootRec

theorem formSet {n x} (h : PartsCounted s) : PartsCounted (State.formSet n s x).1 := by
  induction n generalizing s x with
  | zero => exact h
  | succ n ih =>
    have golden : ∀ ks : List Nat, PartsCounted (ks.foldl (fun (a : State × ImageSet) k =>
        (a.1.bootRec 0x0204 k ((s.badWhy x k).getD 0)).takeGolden a.2 k) (s, x)).1 := fun ks =>
      foldl_fst h fun _ _ hs => hs.bootRec.takeGolden
    unfold State.formSet
    dsimp only
    split
    · exact h
    · split
      · exact h
      · split
        · exact golden _
        · exact ih (golden _)

theorem verifySet {imgs} (h : PartsCounted s) : PartsCounted (s.verifySet imgs).1 := by
  unfold State.verifySet
  refine h.foldl_fst fun _ _ hs => ?_
  split
  · exact hs.bootRec.takeGolden
  · exact hs

theorem rejectPending {bank why} (h : PartsCounted s) : PartsCounted (s.rejectPending bank why) :=
  h.update.setSelect.bootRec

theorem noSet {imgs replaced} (h : PartsCounted s) : PartsCounted (s.noSet imgs replaced) := by
  unfold State.noSet
  refine .toMgmtOnly ?_
  split
  · exact h.update.rejectPending.ite h.update
  · exact h.update

theorem acceptSet {x} (h : PartsCounted s) : PartsCounted (s.acceptSet x) :=
  (h.foldl fun _ _ hs => hs.bootRec).update.endStage

theorem selectImages (h : PartsCounted s) : PartsCounted s.selectImages := by
  unfold State.selectImages
  dsimp only
  generalize (if s.boot.bank = 0 then s.flash.bankA else s.flash.bankB) = imgs
  have h1 : PartsCounted ((s.verifySet imgs).1.formSet 6 (s.verifySet imgs).2).1 := h.verifySet.formSet
  refine h.verifySet.noSet.ite ?_
  split <;> rename_i e <;> rw [e] at h1
  · exact h1.acceptSet
  · exact h1.noSet

theorem execImageSelection (h : PartsCounted s) : NextCounted (execImageSelection s) := by
  unfold Machine.execImageSelection
  refine .next (h.ite (h.setPower.setPower.selectImages.ite ?_))
  split
  · exact h.setPower.setPower.bootRec.selectImages
  · exact h.setPower.setPower.update.endStage

theorem execPendingBankTimeout (h : PartsCounted s) : NextCounted (execPendingBankTimeout s) := by
  unfold Machine.execPendingBankTimeout
  refine .next ?_
  split
  · exact h.update.setSelect.warmReset.bootRec.ite h
  · exact h

theorem execPldmFirmwareUpdate {components} (h : PartsCounted s) :
    NextCounted (execPldmFirmwareUpdate components s) :=
  .next (h.ite (h.update.setSelect.ite h.update))

/-! ### Machine/Boot.lean -/

theorem nvApply {r} (h : PartsCounted s) : PartsCounted (s.nvApply r) := by
  unfold State.nvApply
  refine h.bootRec.ite (.ite (.ite (h.of_lengths (hf := length_updNth ..)) h.bootRec) ?_)
  split
  · exact h.update
  · exact h.bootRec

theorem loadNv (h : PartsCounted s) : PartsCounted s.loadNv := by
  have h1 : PartsCounted ({ s with
      nv := Nv.factory
      far := s.far.zipIdx.map (fun f => { f.1 with mac := nth s.factory.farMacs f.2 }) } : State) :=
    h.of_lengths (hf := by simp)
  unfold State.loadNv
  dsimp only
  split
  · exact h1.bootRec
  · exact h1.foldl fun _ _ hs => hs.nvApply

theorem loadHistory (h : PartsCounted s) : PartsCounted s.loadHistory := by
  unfold State.loadHistory
  dsimp only
  split
  · exact h.log1
  · exact h.of_lengths (hc := by simp)

theorem applyLicence (h : PartsCounted s) : PartsCounted s.applyLicence := by
  unfold State.applyLicence
  dsimp only
  split <;> exact h.refreshLicence.update.bootRec

theorem execNvOverlay (h : PartsCounted s) : NextCounted (execNvOverlay s) := by
  have h1 : PartsCounted ((s.setPower 59 true).setPower 60 true).loadNv := h.setPower.setPower.loadNv
  have h2 : ∀ k : Nat → Cluster, PartsCounted
      { ((s.setPower 59 true).setPower 60 true).loadNv with clusters := (List.range 34).map k } := fun k =>
    h1.of_lengths (hc := by rw [h1.2.2.1]; simp)
  exact .next (h.ite (h1.ite (h2 _).loadHistory).applyLicence.endStage)

theorem execDramTraining {failedParts t3Gib} (h : PartsCounted s) :
    NextCounted (execDramTraining failedParts t3Gib s) := by
  unfold Machine.execDramTraining
  refine .next (h.ite ?_)
  extract_lets _ _ _ _ s1
  have h1 : PartsCounted s1 := (((h.foldl fun _ _ hs => hs.setPower).foldl fun _ _ hs => hs.setPower).foldl
    fun _ _ hs => hs.unitFailed.ite hs.unitFailed).foldl fun _ _ hs => hs.unitFailed.ite hs
  exact h1.update.endStage.ite h1.update.toMgmtOnly

theorem portDown {p why} (h : PartsCounted s) : PartsCounted (s.portDown p why) :=
  h.setPort.setPower.changePort.bootRec

theorem climbPort {p st} (h : PartsCounted s) : PartsCounted (s.climbPort p st) :=
  h.setPortState.setPortState.changePort

theorem soakPort {p errs} (h : PartsCounted s) : PartsCounted (s.soakPort p errs) := by
  unfold State.soakPort
  refine h.portDown.ite (.climbPort (.setPower (.setPort ?_)))
  split
  · exact h.bootRec
  · exact h

theorem relockPort {p errs} (h : PartsCounted s) : PartsCounted (s.relockPort p errs) :=
  h.ite (h.climbPort.foldl fun _ _ hs => hs.laneLost)

theorem trainPort {p answer errs} (h : PartsCounted s) : PartsCounted (s.trainPort p answer errs) :=
  h.setPort.setPower.ite (h.portDown.ite (h.ite (h.portDown.ite (h.relockPort.ite h.soakPort))))

theorem setFarState {f st} (h : PartsCounted s) : PartsCounted (s.setFarState f st) := by
  refine h.ite (devCause ?_).log1
  exact h.of_lengths (hf := length_updNth ..)

theorem trainFar {f errs} (h : PartsCounted s) : PartsCounted (s.trainFar f errs) :=
  h.setPower.setFarState.ite h.setPower.setFarState.bootRec

theorem execLaneTraining {answers laneErrors farErrors} (h : PartsCounted s) :
    NextCounted (execLaneTraining answers laneErrors farErrors s) :=
  .next (h.ite ((h.foldl fun _ _ hs => hs.trainPort).foldl fun _ _ hs => hs.trainFar).endStage)

theorem markDefective {p} (h : PartsCounted s) : PartsCounted (s.markDefective p) :=
  h.setCluster.update

theorem bistFail {x} (h : PartsCounted s) : PartsCounted (s.bistFail x) := by
  unfold State.bistFail
  split
  · exact h.unitFailed.setCluster.ite h.unitFailed.setCluster.update
  · exact h.unitFailed.setCluster.update
  · exact h.unitFailed.setCluster.update
  · exact h.unitFailed.markDefective
  · exact (h.unitFailed.ite h.unitFailed).update
  · exact h.unitFailed

theorem execBist {failures} (h : PartsCounted s) : NextCounted (execBist failures s) := by
  unfold Machine.execBist
  refine .next (h.ite ?_)
  extract_lets _ _ s1
  have h1 : PartsCounted s1 := ((h.foldl fun _ _ hs => hs.setPower).foldl fun _ _ hs => hs.bistFail).foldl
    fun _ _ hs => hs.markDefective
  exact h1.toMgmtOnly.ite h1.endStage

theorem fetchFail {f} (h : PartsCounted s) : PartsCounted (s.fetchFail f) :=
  h.unitFailed.setCluster.update

theorem bringUp {failures n} (h : PartsCounted s) : PartsCounted (State.bringUp failures n s) := by
  induction n generalizing s with
  | zero => exact h
  | succ n ih =>
    have h1 : PartsCounted ({ s with lmap := s.buildMap } : State) := h.update
    exact .ite (h1.foldl fun _ _ hs => hs.fetchFail)
      (ih ((h1.foldl fun _ _ hs => hs.fetchFail).foldl fun _ _ hs => hs.markDefective))

theorem execGcrtBroadcast {failures} (h : PartsCounted s) : NextCounted (execGcrtBroadcast failures s) := by
  unfold Machine.execGcrtBroadcast
  refine .next (h.ite (.endStage ((h.bringUp.update.foldl fun _ _ hs => hs.setPower).foldl fun _ _ hs => ?_)))
  split
  · exact hs.loadGcrt
  · exact hs

theorem endTrial (h : PartsCounted s) : PartsCounted s.endTrial := by
  unfold State.endTrial
  split
  · exact h
  · exact h.rejectPending.ite h.update.setSelect

theorem execReady (h : PartsCounted s) : NextCounted (execReady s) :=
  .next (h.ite (h.bootRec.bootRec.useFree.endTrial.foldl fun _ _ hs => hs.update).writeHistory.update.emit)

theorem relock {p x} (h : PartsCounted s) : PartsCounted (s.relock p x) :=
  h.setPort.setPortState.setPortState

theorem execPortRetry {port answers laneErrors} (h : PartsCounted s) :
    NextCounted (execPortRetry port answers laneErrors s) := by
  unfold Machine.execPortRetry
  refine .next (h.ite (h.setPort.ite ((h.setPort.portDown.ite h.setPort.relock).ite (.ite ?_ h.setPort))))
  split
  · exact h.setPort.relock
  · exact h.setPort

/-! ### Machine/FarLink.lean -/

theorem setJoin {b} {f : Join → Join} (h : PartsCounted s) : PartsCounted (s.setJoin b f) :=
  h.setBay

theorem stageStalls {b} (h : PartsCounted s) : PartsCounted (s.stageStalls b) :=
  h.foldl fun _ _ hs => hs.countBay.useFree

theorem onJoined {b} {f : Join → State} (h : PartsCounted s) (hf : ∀ a, PartsCounted (f a)) :
    PartsCounted (s.onJoined b f) := by
  unfold State.onJoined
  split
  · exact (hf _).ite h
  · exact h

theorem onJoin {b} {f : Join → State} (h : PartsCounted s) (hf : ∀ a, PartsCounted (f a)) :
    PartsCounted (s.onJoin b f) := by
  unfold State.onJoin
  split
  · exact hf _
  · exact h

theorem holdBundles (h : PartsCounted s) : PartsCounted s.holdBundles := by
  refine h.mapBays fun y hy => ?_
  split
  · split
    · exact hy
    · exact hy
  · exact hy

theorem emitFrame {j port site dgram} (h : PartsCounted s) : PartsCounted (s.emitFrame j port site dgram) :=
  emit (h.of_lengths (hf := length_updNth ..))

theorem flushHeld {b} (h : PartsCounted s) : PartsCounted (s.flushHeld b) := by
  unfold State.flushHeld
  refine h.onJoined fun _ => ?_
  split
  · exact h
  · exact (h.foldl fun _ _ hs => hs.emitFrame).setJoin

theorem sendDgram {b turn site dgram} (h : PartsCounted s) : PartsCounted (s.sendDgram b turn site dgram) := by
  unfold State.sendDgram
  split
  · exact h
  · split
    · exact h.setJoin
    · exact h.flushHeld.emitFrame

theorem sendCtl {b site kind seq epoch sent echo payload} (h : PartsCounted s) :
    PartsCounted (s.sendCtl b site kind seq epoch sent echo payload) := by
  unfold State.sendCtl
  split
  · exact h
  · split
    · exact h
    · exact h.sendDgram

theorem startCtl {b site kind epoch until_ payload} (h : PartsCounted s) :
    PartsCounted (s.startCtl b site kind epoch until_ payload) := by
  unfold State.startCtl
  split
  · exact h
  · exact h.setJoin.sendCtl

theorem ackCtl {b d} (h : PartsCounted s) : PartsCounted (s.ackCtl b d) := by
  unfold State.ackCtl
  split
  · exact h
  · exact h.setJoin.sendCtl

theorem heard {b site} (h : PartsCounted s) : PartsCounted (s.heard b site) :=
  h.setJoin

theorem takeDgram {b port kind d} {f : State → Join → State} (h : PartsCounted s)
    (hf : ∀ s j, PartsCounted s → PartsCounted (f s j)) : PartsCounted (s.takeDgram b port kind d f) := by
  have h1 : ∀ g, PartsCounted ({ s with far := updNth s.far port g } : State) := fun g =>
    h.of_lengths (hf := length_updNth ..)
  unfold State.takeDgram
  dsimp only
  split
  · exact h1 _
  · exact .ite (hf _ _ (h1 _).heard) (h1 _)

theorem takeCtl {b port kind d} {f : State → Join → List Byte → State} (h : PartsCounted s)
    (hf : ∀ a b c, PartsCounted a → PartsCounted (f a b c)) : PartsCounted (s.takeCtl b port kind d f) := by
  unfold State.takeCtl
  refine h.takeDgram fun _ _ hs => ?_
  split
  · exact hs
  · split
    · exact hs.countBay
    · exact hf _ _ _ (hs.ite hs.ackCtl)

/-! ### Machine/Merge.lean -/

theorem sendDigest {b j l phase d} (h : PartsCounted s) : PartsCounted (s.sendDigest b j l phase d) :=
  h.foldl fun _ _ hs => hs.startCtl

theorem prepareFrom {b e} (h : PartsCounted s) : PartsCounted (s.prepareFrom b e) := by
  unfold State.prepareFrom
  refine h.onJoined fun _ => ?_
  split
  · exact h.ite (h.setJoin.useFree.ite h.setJoin).sendDigest
  · exact h

theorem prepareNow {b} (h : PartsCounted s) : PartsCounted (s.prepareNow b) :=
  h.onJoined fun _ => h.prepareFrom

/-! ### Machine/Bundles.lean -/

theorem settleLeave {b} (h : PartsCounted s) : PartsCounted (s.settleLeave b) := by
  unfold State.settleLeave
  refine h.onJoined fun _ => ?_
  split
  · exact h
  · exact h.ite h.setBay.finishNat

theorem tidyJoin {b} (h : PartsCounted s) : PartsCounted (s.tidyJoin b) :=
  h.setJoin.settleLeave

theorem formOne {b f total} (h : PartsCounted s) : PartsCounted (s.formOne b f total).1 := by
  unfold State.formOne
  split
  · exact h
  · split
    · exact h
    · exact h.ite_fst h.setJoin

theorem formMany {n b total f} (h : PartsCounted s) : PartsCounted (State.formMany n b total f s) := by
  induction n generalizing s f with
  | zero => exact h
  | succ n ih =>
    have h1 : PartsCounted (s.formOne b f total).1 := h.formOne
    refine h.ite ?_
    split <;> rename_i e <;> rw [e] at h1
    · exact ih h1
    · exact h1

theorem formAll {b} (h : PartsCounted s) : PartsCounted (s.formAll b) :=
  h.onJoined fun _ => ((h.ite h.stageStalls).foldl fun _ _ hs => hs.formMany).setJoin

theorem sendFrags {b j x site} (h : PartsCounted s) : PartsCounted (s.sendFrags b j x site) :=
  h.foldl fun _ _ hs => hs.sendDgram

theorem grantBytes {b n} (h : PartsCounted s) : PartsCounted (s.grantBytes b n) :=
  h.update

theorem execBundleGrant {bay seq site} (h : PartsCounted s) : NextCounted (execBundleGrant bay seq site s) := by
  unfold Machine.execBundleGrant
  refine .next (h.onJoined fun _ => ?_)
  split
  · exact h
  · exact h.ite h.grantBytes.stageStalls.sendFrags.setJoin.setJoin

theorem execScarfCancel {hd epoch site seq} (h : PartsCounted s) :
    NextCounted (execScarfCancel hd epoch site seq s) := by
  unfold Machine.execScarfCancel
  refine .next (h.onRunning fun _ => ?_)
  split
  · exact h
  · split
    · exact h.fail
    · exact h.fail.ite h.setJoin.finishNat.tidyJoin

theorem sendSack {b site} (h : PartsCounted s) : PartsCounted (s.sendSack b site) :=
  h.onJoined fun _ => h.setJoin.sendDgram

theorem execAckTimer {bay site} (h : PartsCounted s) : NextCounted (execAckTimer bay site s) := by
  unfold Machine.execAckTimer
  refine .next (h.onJoined fun _ => ?_)
  split
  · exact h.sendSack.ite h
  · exact h

theorem execSack {bay port d} (h : PartsCounted s) : NextCounted (execSack bay port d s) :=
  .next (h.takeDgram fun _ _ hs => hs.stageStalls.setJoin).tidyJoin

theorem execRtoExpiry {bay site} (h : PartsCounted s) : NextCounted (execRtoExpiry bay site s) :=
  .next (h.onJoin fun _ => ((h.foldl fun _ _ hs => hs.sendFrags).foldl fun _ _ hs => hs.sendCtl).setJoin).settleLeave

theorem execControlAcknowledgement {bay port d} (h : PartsCounted s) :
    NextCounted (execControlAcknowledgement bay port d s) :=
  .next (h.takeCtl fun _ _ _ hs => hs.setJoin)

theorem execPeerUnreachable {bay site} (h : PartsCounted s) : NextCounted (execPeerUnreachable bay site s) := by
  unfold Machine.execPeerUnreachable
  refine .next (.tidyJoin (h.onJoined fun _ => ?_))
  split
  · exact h.setJoin.ite h
  · exact h

theorem verifyRx {b j key x} (h : PartsCounted s) : PartsCounted (s.verifyRx b j key x) := by
  unfold State.verifyRx
  dsimp only
  split
  · exact h.setJoin.countBay
  · exact h.setJoin.setJoin.countBay.ite h.setJoin.setJoin

theorem placeFrag {b j key d} (h : PartsCounted s) : PartsCounted (s.placeFrag b j key d) := by
  unfold State.placeFrag
  split
  · exact h.ite (h.setJoin.verifyRx.ite h.setJoin)
  · exact h.setJoin.verifyRx.ite h.setJoin

theorem execFragment {bay port d} (h : PartsCounted s) : NextCounted (execFragment bay port d s) := by
  unfold Machine.execFragment
  refine .next (h.takeDgram fun _ _ hs => ?_)
  split
  · exact hs
  · exact hs.ite (hs.countBay.ite ((hs.ite hs.placeFrag).setJoin.sendSack.ite (hs.ite hs.placeFrag).setJoin))

theorem badBundle {bay site seq e hd} (h : PartsCounted s) : PartsCounted (s.badBundle bay site seq e hd) :=
  h.setJoin.countBay

theorem execBundleLanding {bay site seq} (h : PartsCounted s) : NextCounted (execBundleLanding bay site seq s) := by
  unfold Machine.execBundleLanding
  refine .next (h.onJoined fun _ => ?_)
  split
  · exact h
  · refine h.setJoin.countBay.ite ?_
    split
    · exact h.badBundle
    · exact h.badBundle.ite (h.stageStalls.ite h.setJoin)

/-! ### Machine/Catchup.lean -/

theorem serve {b q} (h : PartsCounted s) : PartsCounted (s.serve b q) := by
  unfold State.serve
  refine h.onJoined fun _ => ?_
  split
  · exact (h.useCodecs.foldl fun _ _ hs => hs.startCtl).ite h.useCodecs
  · exact h.setJoin

theorem serveAgain {b} (h : PartsCounted s) : PartsCounted (s.serveAgain b) :=
  h.onJoined fun _ => h.setJoin.foldl fun _ _ hs => hs.serve

theorem execCatchupRequest {bay port d} (h : PartsCounted s) : NextCounted (execCatchupRequest bay port d s) :=
  .next (h.takeCtl fun _ _ _ hs => hs.serve)

theorem askFor {b j site k} (h : PartsCounted s) : PartsCounted (s.askFor b j site k) :=
  h.startCtl

theorem adopt {b adm p x parts xs} (h : PartsCounted s) : PartsCounted (s.adopt b adm p x parts xs) :=
  ((h.foldl fun _ _ hs => hs.writeBay.writeBay.writeBay.markDirty).setJoin.foldl
    fun _ _ hs => hs.diffRecord).prepareNow.finishNat.tidyJoin

theorem badSource {b j c} (h : PartsCounted s) : PartsCounted (s.badSource b j c) := by
  unfold State.badSource
  dsimp only
  split
  · exact h.setJoin.fail.settleLeave
  · exact h.setJoin.foldl fun _ _ hs => hs.askFor

theorem settleCatchup {b} (h : PartsCounted s) : PartsCounted (s.settleCatchup b) := by
  unfold State.settleCatchup
  refine h.onJoined fun _ => ?_
  split
  · split
    · exact h
    · split
      · exact h.badSource
      · refine h.badSource.ite ?_
        split
        · exact h.setJoin.fail.settleLeave
        · exact h.adopt
  · exact h

theorem execScarfCatchup {hd site} (h : PartsCounted s) : NextCounted (execScarfCatchup hd site s) := by
  unfold Machine.execScarfCatchup
  refine .next (h.onRunning fun _ => ?_)
  split
  · exact h
  · split
    · exact h.fail
    · exact h.fail.ite (h.fail.ite (h.ite (h.setActive.setJoin.foldl fun _ _ hs => hs.askFor)))

theorem execCatchupTimeout {bay} (h : PartsCounted s) : NextCounted (execCatchupTimeout bay s) := by
  unfold Machine.execCatchupTimeout
  refine .next (h.onJoined fun _ => ?_)
  split
  · exact h.setJoin.fail.settleLeave.ite h
  · exact h

/-! ### Machine/Power.lean -/

theorem endHolder {b c} (h : PartsCounted s) : PartsCounted (s.endHolder b c) := by
  unfold State.endHolder
  dsimp only
  split
  · refine .ite (.useFree (.writeBay ?_)) ?_
    · split
      · exact h.useFree.finishNat
      · exact h.cutShort
    · split
      · exact h.useFree.finishNat
      · exact h.cutShort
  · split
    · exact h.useFree.finishNat
    · exact h.cutShort

theorem eraseKeys (h : PartsCounted s) : PartsCounted s.eraseKeys := by
  refine h.foldl fun s b hs => ?_
  have erased : PartsCounted (((postOrder (s.cmds.filter fun c => c.ofBay b && c.holdsKey)).foldl
      (fun s c => s.endHolder b c) s).setBay b fun y => { y with
        keys := List.replicate 4 KeySlot.empty
        join := y.join.map fun j => { j with keyHeld := false } }) := by
    refine setBay (hs.foldl fun _ _ ht => ht.endHolder) fun y hy => ?_
    obtain ⟨hs, hc, hn, -, ht⟩ := hy
    exact ⟨hs, hc, hn, List.length_replicate .., ht⟩
  exact erased.bayEvent.ite erased

theorem keyAlarm {code} (h : PartsCounted s) : PartsCounted (s.keyAlarm code) :=
  h.update.devCause.log1.eraseKeys

theorem execKeyAlarm {code} (h : PartsCounted s) : NextCounted (execKeyAlarm code s) :=
  .next (h.ite h.update.keyAlarm)

theorem haltQuiet (h : PartsCounted s) : PartsCounted s.haltQuiet :=
  h.foldl fun _ _ hs => hs.halt.enter.ite hs

theorem domainsOff (h : PartsCounted s) : PartsCounted s.domainsOff := by
  obtain ⟨hb, hy, hc, hp, hf, hd, hs, -⟩ := h.loseMemory
  exact ⟨hb, hy, hc, hp, hf, hd, hs, rfl⟩

/-- Below 30 V every domain is off (R402). -/
theorem cutPower {dev vin} {c : Prop} [Decidable c] (h : PartsCounted s) : PartsCounted { s with
    dev := dev, vin := vin, power := if c then List.replicate 64 false else s.power } := by
  obtain ⟨hb, hy, hc, hp, hf, hd, hs, hw⟩ := h
  refine ⟨hb, hy, hc, hp, hf, hd, hs, ?_⟩
  dsimp only
  split
  · exact List.length_replicate ..
  · exact hw


theorem execInputFault {millivolts} (h : PartsCounted s) : NextCounted (execInputFault millivolts s) :=
  .next (h.ite (h.cutPower.ite h.update.keyAlarm.haltQuiet.logEvent.domainsOff.cutPower))

theorem execThermalTrip {sensor reading} (h : PartsCounted s) : NextCounted (execThermalTrip sensor reading s) :=
  .next (h.ite h.update.keyAlarm.emit.haltQuiet.domainsOff.logEvent.update)

theorem execJtagInstructionLoad {drivesPins} (h : PartsCounted s) :
    NextCounted (execJtagInstructionLoad drivesPins s) :=
  .next (h.ite h.keyAlarm.haltQuiet.update)

theorem execJtagTrstN (h : PartsCounted s) : NextCounted (execJtagTrstN s) :=
  .next (h.coldBoot.ite h)

theorem haltNow {b} (h : PartsCounted s) : PartsCounted (s.haltNow b) := by
  have h1 : PartsCounted (if (s.bay b).st = .active then ((s.halt b false).1).enter b .quiescing else s) :=
    .ite h.halt.enter h
  unfold State.haltNow
  dsimp only
  split
  · split
    · rename_i t ht
      exact h1.execBayHalted t ht
    · exact h1
  · exact h1.halt.endEvict
  · exact h1

theorem postAll {q n} (h : PartsCounted s) : PartsCounted (s.postAll q n) := by
  induction n with
  | zero => exact h
  | succ n ih =>
    unfold State.postAll
    dsimp only
    split
    · rename_i t ht
      exact ih.execCompletionPost t ht
    · exact ih

theorem powerOff (h : PartsCounted s) : PartsCounted s.powerOff :=
  ((h.update.foldl fun _ _ hs => hs.haltNow).foldl fun _ _ hs => hs.postAll).writeHistory.domainsOff.dropReady.update

theorem execPowerDown {req} (h : PartsCounted s) : NextCounted (execPowerDown req s) := by
  unfold Machine.execPowerDown
  refine .next ?_
  split <;> exact h.powerOff.ite h

theorem enterLevel {d level} (h : PartsCounted s) : PartsCounted (s.enterLevel d level) :=
  h.setDie.devCause

theorem sampleDie {d} (h : PartsCounted s) : PartsCounted (s.sampleDie d) :=
  h.setDie.enterLevel.ite h.setDie

theorem execThermalSensorSample {readings} (h : PartsCounted s) :
    NextCounted (execThermalSensorSample readings s) := by
  refine .next (h.ite (foldl ?_ fun _ _ hs => hs.sampleDie))
  obtain ⟨-, -, -, -, -, -, hs, -⟩ := id h
  exact h.of_lengths (hs := by simp [hs])

theorem countHolds {touches : Bay → Bool} (h : PartsCounted s) : PartsCounted (s.countHolds touches) :=
  h.foldl fun _ _ hs => hs.countBay.useFree.ite hs

theorem execProtectionLevelExit {die} (h : PartsCounted s) : NextCounted (execProtectionLevelExit die s) :=
  .next (h.ite (h.setDie.devCause.countHolds.setDie.log1.ite h.setDie.devCause.countHolds))

theorem execDramThermalHold {tier2 part} (h : PartsCounted s) : NextCounted (execDramThermalHold tier2 part s) :=
  .next (h.ite h.update)

theorem execDramThermalRelease {tier2 part} (h : PartsCounted s) :
    NextCounted (execDramThermalRelease tier2 part s) := by
  unfold Machine.execDramThermalRelease
  refine .next ?_
  split
  · exact h
  · exact h.ite h.update.countHolds.log1

theorem execLaneLossOfLock {port lane} (h : PartsCounted s) : NextCounted (execLaneLossOfLock port lane s) :=
  .next (h.laneLost.ite (h.setFarState.holdBundles.ite h))

theorem execPllLossOfLock {pll} (h : PartsCounted s) : NextCounted (execPllLossOfLock pll s) := by
  unfold Machine.execPllLossOfLock
  refine .next (h.ite ?_)
  split
  · exact h.goFatal
  · exact h.goFatal
  · exact h.ite h.setPort.changePort
  · exact h.ite h.setFarState.holdBundles

theorem execCxlLinkDown {link} (h : PartsCounted s) : NextCounted (execCxlLinkDown link s) :=
  .next (h.ite h.update)

/-! ### Machine/Recovery.lean -/

theorem countUncorr {line} (h : PartsCounted s) : PartsCounted (s.countUncorr line) :=
  h.ite (h.setCluster.ite h.update.setCluster)

theorem loseCut {b} (h : PartsCounted s) : PartsCounted (s.loseCut b) := by
  unfold State.loseCut
  refine .discardCut ?_
  split
  · exact h.cutShort
  · exact h

theorem loseLanded {b x} (h : PartsCounted s) : PartsCounted (s.loseLanded b x) :=
  h.setJoin

theorem loseLine {b kind x} (h : PartsCounted s) : PartsCounted (s.loseLine b kind x) := by
  unfold State.loseLine
  split
  · exact h.loseCut
  · exact h.loseLanded
  · exact h

theorem poisonLine {b line adm kind x} (h : PartsCounted s) : PartsCounted (s.poisonLine b line adm kind x) := by
  unfold State.poisonLine
  refine h.goFatal.ite ?_
  extract_lets
  split
  · extract_lets s1
    have h1 : PartsCounted s1 := h.update.useFree.logUnit.failAtRisk.ite h.update.useFree.logUnit
    exact h1.loseLine.cutShort.ite h1.loseLine
  · exact h.update.useFree.logUnit

theorem recovered {b line adm k cost} (h : PartsCounted s) : PartsCounted (s.recovered b line adm k cost) := by
  unfold State.recovered
  refine .ite (.markCorrected ?_) ?_
  · split
    · exact h.log1.countBay
    · exact h.log1
  · split
    · exact h.log1.countBay
    · exact h.log1

theorem retryStrip {adm cost} (h : PartsCounted s) : PartsCounted (s.retryStrip adm cost) := by
  unfold State.retryStrip
  split
  · exact h
  · split
    · exact h.setSlot.useFree
    · exact h

theorem ask {b w} (h : PartsCounted s) : PartsCounted (s.ask b w) :=
  h.onJoined fun _ => h.setJoin.askFor

theorem execLineRecovery {line kind adm failing cost} (h : PartsCounted s) :
    NextCounted (execLineRecovery line kind adm failing cost s) := by
  unfold Machine.execLineRecovery
  refine .next (h.ite ?_)
  dsimp only
  split
  · exact h.countUncorr.useFree.poisonLine
  · refine .ite ?_ (h.countUncorr.retryStrip.ite h.countUncorr).recovered
    split
    · exact h.countUncorr.ask.useFree
    · exact h.countUncorr.poisonLine.useFree

theorem writeBackLine {b line r bytes} (h : PartsCounted s) : PartsCounted (s.writeBackLine b line r bytes) :=
  h.foldl fun _ _ hs => hs.writeBay.ite hs

theorem settleWait {b w} (h : PartsCounted s) : PartsCounted (s.settleWait b w) := by
  unfold State.settleWait
  refine h.onJoined fun _ => .ite ?_ ?_
  · split
    · exact h
    · exact h.setJoin.poisonLine.ite h.setJoin.setJoin.recovered
  · split
    · split
      · exact h.setJoin.writeBackLine.recovered.ite h.setJoin.poisonLine
      · exact h.setJoin.poisonLine
    · exact h

theorem execCatchupData {bay port d} (h : PartsCounted s) : NextCounted (execCatchupData bay port d s) :=
  .next (h.takeCtl fun _ _ _ hs => (hs.setJoin.foldl fun _ _ ht => ht.settleWait).settleCatchup)

/-! ### Machine/Time.lean -/

theorem execSiteTodFrame {frame} (h : PartsCounted s) : NextCounted (execSiteTodFrame frame s) :=
  .next (h.ite (h.countDev.ite h.update))

theorem timeState {st} (h : PartsCounted s) : PartsCounted (s.timeState st) :=
  h.ite h.update.devCause

theorem logStep {size slew} (h : PartsCounted s) : PartsCounted (s.logStep size slew) :=
  h.log1.logEvent

theorem stepTo {want} (h : PartsCounted s) : PartsCounted (s.stepTo want) :=
  h.update.logStep.ite h

theorem bigError {want err} (h : PartsCounted s) : PartsCounted (s.bigError want err) :=
  (h.update.ite (h.update.stepTo.update.timeState.ite h.update.stepTo)).ite (h.update.update.logStep.ite h.update)

theorem driveTime {gov want err} (h : PartsCounted s) : PartsCounted (s.driveTime gov want err) := by
  unfold State.driveTime
  refine h.update.timeState.ite ?_
  split
  · exact h.stepTo.timeState.ite h
  · exact h.update.update.timeState.ite h.update
  · exact (h.update.bigError.ite h.update).ite h.update
  · exact h.ite (h.bigError.ite h.update.timeState)

theorem acceptEdge {gov} (h : PartsCounted s) : PartsCounted (s.acceptEdge gov) :=
  h.update.driveTime.refreshLicence

theorem execSitePpsEdge (h : PartsCounted s) : NextCounted (execSitePpsEdge s) := by
  unfold Machine.execSitePpsEdge
  refine .next (h.ite (h.countDev.ite ?_))
  split
  · exact h.acceptEdge
  · exact h.acceptEdge.ite h.countDev.acceptEdge

theorem execPpsHoldover (h : PartsCounted s) : NextCounted (execPpsHoldover s) :=
  .next (h.update.timeState.ite h)

/-! ### Machine/Registers.lean -/

theorem via {o} (h : PartsCounted s) (ho : NextCounted o) : PartsCounted (s.via o) := by
  unfold State.via
  split
  · exact ho _ rfl
  · exact h

theorem bayAccessErr {b} (h : PartsCounted s) : PartsCounted (s.bayAccessErr b) :=
  h.setRegs

theorem setCtlConfig {c} (h : PartsCounted s) : PartsCounted (s.setCtlConfig c) :=
  h.ite (h.update.ite h.update)

theorem setUrgBase {x} (h : PartsCounted s) : PartsCounted (s.setUrgBase x) :=
  h.ite (h.devCause.ite h.update)

theorem writeDevReg {m reg v} (h : PartsCounted s) : PartsCounted (s.writeDevReg m reg v) := by
  unfold State.writeDevReg
  dsimp only
  split
  · exact h.update
  · exact h.update
  · exact h.writeIntMask
  · exact h.update
  · exact h.via h.execCoreReset
  · exact h.via h.execClusterReset
  · exact h.update
  · exact h.via h.execDeviceReset
  · exact h.via h.execPowerDown
  · exact h.setCtlConfig
  · exact h.setCtlConfig
  · exact h.setCtlConfig
  · exact h.writeCtlWord
  · exact h.ringCtlSq
  · exact h.ringCtlCq
  · exact h.setUrgBase
  · exact h.writeUrgWord
  · exact h.ringUrgSq
  · exact h.ringUrgCq
  · exact h.update
  · exact h

theorem setBayConfig {b r} (h : PartsCounted s) : PartsCounted (s.setBayConfig b r) :=
  h.ite (h.setRegs.ite h.setRegs)

theorem writeBayReg {b m reg v} (h : PartsCounted s) : PartsCounted (s.writeBayReg b m reg v) :=
  h.setRegs.ite (h.setBay.ite (h.setRegs.ite (h.writeEventMask.ite (h.setBayConfig.ite (h.setBayConfig.ite
    (h.setBayConfig.ite (h.writeAdminWord.ite ((h.ringSq.ite h.ringCq).ite (h.setCounter.recheck.ite h)))))))))

theorem writeMsix {fn off data} (h : PartsCounted s) : PartsCounted (s.writeMsix fn off data) :=
  h.update

theorem writeWindow {fn b off data} (h : PartsCounted s) : PartsCounted (s.writeWindow fn b off data) := by
  unfold State.writeWindow
  refine (h.ite (h.bayAccessErr.ite (h.writeMsix.ite h))).ite ?_
  split
  · exact h.bayAccessErr
  · exact h
  · exact h.writeBayReg
  · exact h.writeBayReg
  · exact h.writeBayReg

theorem writeBar0 {off data} (h : PartsCounted s) : PartsCounted (s.writeBar0 off data) := by
  unfold State.writeBar0
  refine h.writeWindow.ite ((h.update.ite h.devCause).ite ((h.devCause.ite (h.writeMsix.ite h)).ite ?_))
  split
  · exact h.devCause
  · exact h
  · exact h.writeDevReg
  · exact h.writeDevReg
  · exact h.writeDevReg

theorem execRegisterWrite {fn offset data} (h : PartsCounted s) :
    NextCounted (execRegisterWrite fn offset data s) := by
  unfold Machine.execRegisterWrite
  refine .next (h.ite ?_)
  split
  · exact h.emit
  · exact h.writeBar0
  · exact h.writeWindow.ite h

/-! ### Machine/Scarf.lean -/

theorem sendHello {b site answer} (h : PartsCounted s) : PartsCounted (s.sendHello b site answer) :=
  h.startCtl

theorem completeJoin {b} (h : PartsCounted s) : PartsCounted (s.completeJoin b) := by
  unfold State.completeJoin
  split
  · exact h
  · split
    · exact h
    · exact h.setJoin.finishNat

theorem execScarfJoin {hd blk group slot} (h : PartsCounted s) : NextCounted (execScarfJoin hd blk group slot s) := by
  unfold Machine.execScarfJoin
  refine .next (h.onRunning fun _ => ?_)
  split
  · exact h
  · split
    · exact h.fail
    · exact h.setActive.setBay.completeJoin.ite (h.setActive.setBay.foldl fun _ _ hs => hs.sendHello)

theorem execHello {bay port d} (h : PartsCounted s) : NextCounted (execHello bay port d s) := by
  unfold Machine.execHello
  refine .next (h.takeCtl fun _ _ _ hs => ?_)
  dsimp only
  split
  · exact (hs.setJoin.completeJoin.sendHello.ite hs.setJoin.completeJoin).ite hs.setJoin.setBay.fail
  · exact (hs.setJoin.setJoin.ite hs.setJoin.setJoin.log1).sendHello.ite (hs.setJoin.setJoin.ite
      hs.setJoin.setJoin.log1)

theorem execJoinHelloTimeout {bay} (h : PartsCounted s) : NextCounted (execJoinHelloTimeout bay s) := by
  unfold Machine.execJoinHelloTimeout
  refine .next ?_
  split
  · split
    · exact h.completeJoin.ite h
    · exact h
  · exact h

theorem execScarfLeave {hd} (h : PartsCounted s) : NextCounted (execScarfLeave hd s) := by
  unfold Machine.execScarfLeave
  refine .next (h.onRunning fun _ => ?_)
  split
  · exact h
  · split
    · exact h.fail
    · exact h.fail.ite (h.ite h.setActive.setJoin.settleLeave)

theorem advanceEpoch {b e} (h : PartsCounted s) : PartsCounted (s.advanceEpoch b e) :=
  h.setJoin.prepareNow.serveAgain

theorem execScarfEpochClose {hd epoch step} (h : PartsCounted s) :
    NextCounted (execScarfEpochClose hd epoch step s) := by
  unfold Machine.execScarfEpochClose
  refine .next (h.onRunning fun _ => ?_)
  split
  · exact h
  · split
    · exact h.fail.ite (h.ite (h.fail.ite (h.advanceEpoch.finishNat.ite h.setActive.setJoin)))
    · exact h.fail

theorem startFetch {b site epoch} (h : PartsCounted s) : PartsCounted (s.startFetch b site epoch) :=
  h.onJoined fun _ => h.ite h.setJoin.askFor

theorem nextBlock {b ftz j p l q n ti k adm} (h : PartsCounted s) :
    PartsCounted (s.nextBlock b ftz j p l q n ti k adm).1 := by
  unfold State.nextBlock
  dsimp only
  split
  · split
    · exact h.ite_fst h.setJoin.startFetch
    · exact h.startFetch
  · refine h.ite_fst ?_
    split
    · split
      · exact h.markCorrected.ite_fst h.markCorrected.setJoin.startFetch
      · exact h.markCorrected.startFetch
    · exact h.markCorrected

theorem passOne {b c ftz p} {a : State × PassEnd} {x} (h : PartsCounted a.1) :
    PartsCounted (State.passOne b c ftz p a x).1 := by
  unfold State.passOne
  extract_lets s
  split
  · refine h.ite_fst ?_
    extract_lets _ nb
    have base : PartsCounted nb.1 := by
      unfold nb
      split
      · exact h
      · split
        · exact h.nextBlock
        · exact h
    split
    · exact h
    · split
      · exact base
      · split
        · exact base
        · extract_lets _ _ _ _ written
          split
          · exact base.stageStalls
          · split
            · exact base.useCodec
            · refine setJoin (s := written) ?_
              unfold written
              split
              · exact base.useCodec.raise.writeBay.writeBay.writeBay.markDirty
              · exact base.useCodec.raise
  · exact h

theorem passRecords {b c p old new} (h : PartsCounted s) : PartsCounted (s.passRecords b c p old new) :=
  h.foldl fun _ _ hs => hs.foldl fun _ _ ht => ht.diffRecord.ite ht

theorem endClose {b j c st} (h : PartsCounted s) : PartsCounted (s.endClose b j c st) :=
  (h.markCorrected.ite h).advanceEpoch.finishNat.tidyJoin

theorem execEpochClosePass {bay} (h : PartsCounted s) : NextCounted (execEpochClosePass bay s) := by
  unfold Machine.execEpochClosePass
  refine .next (h.onJoined fun _ => ?_)
  split
  · extract_lets _ pass _ recorded r _ formed
    have hpass : PartsCounted pass.1 := h.foldl_fst fun _ _ hs => hs.passOne
    have hrecorded : PartsCounted recorded := hpass.ite hpass.passRecords
    have hr : PartsCounted r.1 := h.ite_fst (hrecorded.setJoin.ite_fst hrecorded)
    have hformed : PartsCounted formed := hr.formAll
    refine h.advanceEpoch.finishNat.tidyJoin.ite ?_
    split
    · exact hr.setJoin.fail.settleLeave
    · split
      · refine hformed.setJoin.fail.settleLeave.ite ?_
        split
        · exact hformed.endClose.setJoin.ite hformed
        · exact hformed
      · exact hformed
  · exact h.formAll.tidyJoin

theorem execPortHoldTimeout {bay} (h : PartsCounted s) : NextCounted (execPortHoldTimeout bay s) := by
  unfold Machine.execPortHoldTimeout
  refine .next (h.onJoined fun _ => ?_)
  split
  · exact h.endClose.ite h
  · exact h

theorem sendMgmt {b member m} (h : PartsCounted s) : PartsCounted (s.sendMgmt b member m) := by
  unfold State.sendMgmt
  dsimp only
  split
  · exact h.emit.sendMsg
  · exact h.emit

theorem sendVector {b e} (h : PartsCounted s) : PartsCounted (s.sendVector b e) :=
  h.onJoined fun _ => h.ite (h.setJoin.foldl fun _ _ hs => hs.startCtl)

theorem takeReport {b r} (h : PartsCounted s) : PartsCounted (s.takeReport b r) :=
  h.setJoin.sendVector

theorem execAdmissionCut {bay} (h : PartsCounted s) : NextCounted (execAdmissionCut bay s) :=
  .next (h.onJoined fun _ => h.ite (h.setJoin.takeReport.ite h.setJoin.sendMgmt))

theorem relaySite {b j m} (h : PartsCounted s) : PartsCounted (s.relaySite b j m) :=
  (h.foldl fun _ _ hs => hs.sendMgmt).ite h

theorem takeEntry {b k} (h : PartsCounted s) : PartsCounted (s.takeEntry b k) :=
  h.onJoined fun _ => h.log2.ite (h.ite h.setJoin.relaySite.prepareNow)

theorem execLedgerEntry {bay port d} (h : PartsCounted s) : NextCounted (execLedgerEntry bay port d s) :=
  .next (h.takeCtl fun _ _ _ hs => hs.takeEntry.ite hs)

theorem execAdmissionVector {bay port d} (h : PartsCounted s) : NextCounted (execAdmissionVector bay port d s) :=
  .next (h.takeCtl fun _ _ _ hs => hs.setJoin.relaySite.ite hs)

theorem execManagementPacket {bay m} (h : PartsCounted s) : NextCounted (execManagementPacket bay m s) := by
  unfold Machine.execManagementPacket
  refine .next (h.takeMsg.onJoined fun _ => ?_)
  split
  · exact h.takeMsg.takeReport.ite h.takeMsg
  · exact h.takeMsg.ite h.takeMsg.setJoin
  · exact h.takeMsg.ite h.takeMsg.takeEntry

theorem execTallySlot {bay slot} (h : PartsCounted s) : NextCounted (execTallySlot bay slot s) := by
  unfold Machine.execTallySlot
  refine .next (h.onJoined fun _ => h.ite ?_)
  split
  · exact h
  · exact (h.setJoin.foldl fun _ _ hs => hs.startCtl).takeEntry

theorem execLedgerFinal {bay} (h : PartsCounted s) : NextCounted (execLedgerFinal bay s) := by
  unfold Machine.execLedgerFinal
  refine .next (h.onJoined fun _ => h.ite ?_)
  dsimp only
  split
  · exact h.setJoin.setJoin.prepareNow.serveAgain.tidyJoin
  · exact (h.setJoin.ite h.setJoin.setJoin.bayEvent).settleLeave

theorem execDigest {bay port d} (h : PartsCounted s) : NextCounted (execDigest bay port d s) :=
  .next (h.takeCtl fun _ _ _ hs => hs.setJoin)

theorem decideDigest {b j l q} (h : PartsCounted s) : PartsCounted (s.decideDigest b j l q) := by
  unfold State.decideDigest
  dsimp only
  split
  · exact h.setJoin
  · exact h.setJoin.ite h.setJoin.log1

theorem replay {b j p l q} (h : PartsCounted s) : PartsCounted (s.replay b j p l q).1 :=
  (h.useFree.ite h).setJoin.sendDigest

theorem execDigestSettle {bay} (h : PartsCounted s) : NextCounted (execDigestSettle bay s) := by
  unfold Machine.execDigestSettle
  refine .next (h.onJoined fun _ => ?_)
  dsimp only
  split
  · exact h.ite ((h.ite (h.setJoin.serveAgain.ite (h.replay.decideDigest.serveAgain.ite h.replay))).ite (h.ite
      h.decideDigest.serveAgain))
  · exact h

theorem execFarFilteredFrame {f} (h : PartsCounted s) : NextCounted (execFarFilteredFrame f s) :=
  .next (h.countDev.ite (h.countDev.ite (h.countDev.ite h)))

/-- Whatever command runs, the state it leaves has its parts counted. -/
theorem exec {i : Instr} (h : PartsCounted s) : NextCounted (exec i s) := by
  cases i with
  | nop => exact h.execNop
  | identify => exact h.execIdentify
  | getLog => exact h.execGetLog
  | queueCreate => exact h.execQueueCreate
  | queueDelete => exact h.execQueueDelete
  | counterSet => exact h.execCounterSet
  | memCopy => exact h.execMemCopy
  | memFill => exact h.execMemFill
  | memMap => exact h.execMemMap
  | memPlace => exact h.execMemPlace
  | kernelLaunch => exact h.execKernelLaunch
  | matmul => exact h.execMatmul
  | quantStats => exact h.execQuantStats
  | convert => exact h.execConvert
  | rngFill => exact h.execRngFill
  | stepGather => exact h.execStepGather
  | stepUpdate => exact h.execStepUpdate
  | updateArm => exact h.execUpdateArm
  | updateDisarm => exact h.execUpdateDisarm
  | normClip => exact h.execNormClip
  | shardMapLoad => exact h.execShardMapLoad
  | collAllreduce => exact h.execCollAllreduce
  | collAllgather => exact h.execCollAllgather
  | collReduceScatter => exact h.execCollReduceScatter
  | collBroadcast => exact h.execCollBroadcast
  | collGroupCreate => exact h.execCollGroupCreate
  | collGroupDestroy => exact h.execCollGroupDestroy
  | triggerArm => exact h.execTriggerArm
  | triggerDisarm => exact h.execTriggerDisarm
  | scarfJoin => exact h.execScarfJoin
  | scarfLeave => exact h.execScarfLeave
  | scarfEpochClose => exact h.execScarfEpochClose
  | scarfCancel => exact h.execScarfCancel
  | scarfCatchup => exact h.execScarfCatchup
  | ckptCut => exact h.execCkptCut
  | ckptDrain => exact h.execCkptDrain
  | ckptRelease => exact h.execCkptRelease
  | ckptRestore => exact h.execCkptRestore
  | ckptVerify => exact h.execCkptVerify
  | exportStream => exact h.execExportStream
  | txnBegin => exact h.execTxnBegin
  | txnCommit => exact h.execTxnCommit
  | txnRollback => exact h.execTxnRollback
  | bindCluster => exact h.execBindCluster
  | bindMemory => exact h.execBindMemory
  | bindShares => exact h.execBindShares
  | bayReset => exact h.execBayReset
  | keyLoad => exact h.execKeyLoad
  | keyErase => exact h.execKeyErase
  | cipherRun => exact h.execCipherRun
  | digestRun => exact h.execDigestRun
  | entropyRead => exact h.execEntropyRead
  | licenceInstall => exact h.execLicenceInstall
  | telemetryRead => exact h.execTelemetryRead
  | seasonReport => exact h.execSeasonReport
  | floorplanRead => exact h.execFloorplanRead
  | linkTest => exact h.execLinkTest
  | haltBay => exact h.execHaltBay
  | evictBay => exact h.execEvictBay
  | resumeBay => exact h.execResumeBay
  | tidyCvt => exact h.execTidyCvt
  | tidyWid => exact h.execTidyWid
  | tidyStat => exact h.execTidyStat
  | tidyRsc => exact h.execTidyRsc
  | tidyQblk => exact h.execTidyQblk
  | tidyDrop => exact h.execTidyDrop
  | tidyGth => exact h.execTidyGth
  | tidySct => exact h.execTidySct
  | grainGet => exact h.execGrainGet
  | tidyDma => exact h.execTidyDma
  | xtenonCsrWrite => exact h.execXtenonCsrWrite
  | kernelEcallExit => exact h.execKernelEcallExit
  | coreException => exact h.execCoreException
  | cycleLimit => exact h.execCycleLimit
  | dmaDescriptorDone => exact h.execDmaDescriptorDone
  | submissionDoorbell => exact h.execSubmissionDoorbell
  | completionDoorbell => exact h.execCompletionDoorbell
  | ctlSqTail => exact h.execCtlSqTail
  | ctlCqHead => exact h.execCtlCqHead
  | urgSqTail => exact h.execUrgSqTail
  | urgCqHead => exact h.execUrgCqHead
  | eventCounterWrite => exact h.execEventCounterWrite
  | intMaskWrite => exact h.execIntMaskWrite
  | eventMaskWrite => exact h.execEventMaskWrite
  | coreReset => exact h.execCoreReset
  | clusterReset => exact h.execClusterReset
  | deviceReset => exact h.execDeviceReset
  | powerDown => exact h.execPowerDown
  | controlPairEnable => exact h.execControlPairEnable
  | controlPairDisable => exact h.execControlPairDisable
  | adminPairEnable => exact h.execAdminPairEnable
  | adminPairDisable => exact h.execAdminPairDisable
  | urgentQueueEnable => exact h.execUrgentQueueEnable
  | urgentQueueDisable => exact h.execUrgentQueueDisable
  | registerWrite => exact h.execRegisterWrite
  | apertureRead => exact h.execApertureRead
  | apertureWrite => exact h.execApertureWrite
  | vfFunctionLevelReset => exact h.execVfFunctionLevelReset
  | pfFunctionLevelReset => exact h.execPfFunctionLevelReset
  | entryFetch => exact h.execEntryFetch
  | commandDispatch => exact h.execCommandDispatch
  | completionPost => exact h.execCompletionPost
  | coalesceTimer => exact h.execCoalesceTimer
  | urgentDoorbellSample => exact h.execUrgentDoorbellSample
  | triggerFire => exact h.execTriggerFire
  | pegDrainLimit => exact h.execPegDrainLimit
  | pegComplete => exact h.execPegComplete
  | bayHalted => exact h.execBayHalted
  | haltMemoryAbsorb => exact h.execHaltMemoryAbsorb
  | haltFlushLate => exact h.execHaltFlushLate
  | clusterResetAbsorb => exact h.execClusterResetAbsorb
  | updateSegmentArrival => exact h.execUpdateSegmentArrival
  | cutCopy => exact h.execCutCopy
  | predictiveCut => exact h.execPredictiveCut
  | evictBoundaryReached => exact h.execEvictBoundaryReached
  | evictTimeout => exact h.execEvictTimeout
  | epochClosePass => exact h.execEpochClosePass
  | bundleGrant => exact h.execBundleGrant
  | bundleLanding => exact h.execBundleLanding
  | fragment => exact h.execFragment
  | sack => exact h.execSack
  | admissionVector => exact h.execAdmissionVector
  | ledgerEntry => exact h.execLedgerEntry
  | digest => exact h.execDigest
  | catchupRequest => exact h.execCatchupRequest
  | catchupData => exact h.execCatchupData
  | controlAcknowledgement => exact h.execControlAcknowledgement
  | hello => exact h.execHello
  | joinHelloTimeout => exact h.execJoinHelloTimeout
  | ackTimer => exact h.execAckTimer
  | rtoExpiry => exact h.execRtoExpiry
  | peerUnreachable => exact h.execPeerUnreachable
  | portHoldTimeout => exact h.execPortHoldTimeout
  | admissionCut => exact h.execAdmissionCut
  | tallySlot => exact h.execTallySlot
  | ledgerFinal => exact h.execLedgerFinal
  | digestSettle => exact h.execDigestSettle
  | flitReceive => exact h.execFlitReceive
  | replayRequest => exact h.execReplayRequest
  | stompFlit => exact h.execStompFlit
  | packetRelay => exact h.execPacketRelay
  | fabricWrite => exact h.execFabricWrite
  | readRequest => exact h.execReadRequest
  | readResponse => exact h.execReadResponse
  | collectiveSegment => exact h.execCollectiveSegment
  | gatherSegment => exact h.execGatherSegment
  | counterAdd => exact h.execCounterAdd
  | groupControl => exact h.execGroupControl
  | groupAbort => exact h.execGroupAbort
  | collJoinTimeout => exact h.execCollJoinTimeout
  | collSilentTimeout => exact h.execCollSilentTimeout
  | laneLossOfLock => exact h.execLaneLossOfLock
  | portRetry => exact h.execPortRetry
  | seasoningSample => exact h.execSeasoningSample
  | cubeSubstitution => exact h.execCubeSubstitution
  | clusterRetirement => exact h.execClusterRetirement
  | coreRetirement => exact h.execCoreRetirement
  | bankRetirement => exact h.execBankRetirement
  | lineRecovery => exact h.execLineRecovery
  | historyWrite => exact h.execHistoryWrite
  | patrolScrub line => exact h.execPatrolScrub (line := line)
  | dramRefresh => exact h.execDramRefresh
  | powerInRange => exact h.execPowerInRange
  | resetN => exact h.execResetN
  | pciePerstN => exact h.execPciePerstN
  | bootRomStage => exact h.execBootRomStage
  | imageSelection => exact h.execImageSelection
  | nvOverlay => exact h.execNvOverlay
  | dramTraining => exact h.execDramTraining
  | laneTraining => exact h.execLaneTraining
  | bist => exact h.execBist
  | gcrtBroadcast => exact h.execGcrtBroadcast
  | ready => exact h.execReady
  | pendingBankTimeout => exact h.execPendingBankTimeout
  | pldmFirmwareUpdate => exact h.execPldmFirmwareUpdate
  | inputFault => exact h.execInputFault
  | keyAlarm => exact h.execKeyAlarm
  | thermalTrip => exact h.execThermalTrip
  | jtagInstructionLoad => exact h.execJtagInstructionLoad
  | thermalSensorSample => exact h.execThermalSensorSample
  | protectionLevelExit => exact h.execProtectionLevelExit
  | dramThermalHold => exact h.execDramThermalHold
  | dramThermalRelease => exact h.execDramThermalRelease
  | pllLossOfLock => exact h.execPllLossOfLock
  | cxlLinkDown => exact h.execCxlLinkDown
  | sitePpsEdge => exact h.execSitePpsEdge
  | siteTodFrame => exact h.execSiteTodFrame
  | ppsHoldover => exact h.execPpsHoldover
  | licenceWindowEdge => exact h.execLicenceWindowEdge
  | trngOutput => exact h.execTrngOutput
  | trngHealthFailure => exact h.execTrngHealthFailure
  | trngStartupDone => exact h.execTrngStartupDone
  | catchupTimeout => exact h.execCatchupTimeout
  | alarmConditionCleared => exact h.execAlarmConditionCleared
  | jtagTrstN => exact h.execJtagTrstN
  | farFilteredFrame => exact h.execFarFilteredFrame
  | managementPacket => exact h.execManagementPacket

end PartsCounted

/-- Settles O7: with a command waiting the step is that command's meaning, which keeps the counts whichever it is; with
none the clock moves and ports may send idle flits. -/
theorem stepKeepsPartCounts : Obligations.StepKeepsPartCounts := by
  unfold Obligations.StepKeepsPartCounts
  intro s t h ht
  unfold step at ht
  split at ht
  · cases ht
    exact h.tick.idleFlits.ite h.tick
  · exact h.update.exec t ht

end Sys2Proof
end

section
/-!
The slots of commands through every operation of the model (R52, R154, R155, R158). `SlotSteps` says once what a step
may do to them; `SlotsFrom.f` says that the operation `f` does nothing else, and its proof follows the text of `f`.
-/
namespace Sys2Proof
open Machine

/-- The slots, and the numbers that the next admission and the next completion get (R154, R155). -/
structure SlotTable where
  cmds : List Slot
  nextAdm : Nat
  nextFin : Nat

/-- The command of that number holds a slot and has not finished. -/
def SlotTable.Open (T : SlotTable) (adm : Nat) : Prop := ∃ c ∈ T.cmds, c.adm = adm ∧ c.finished? = false

/-- The same command with the same operands and the same FTZ copy (R52). -/
structure SameCommand (c d : Slot) : Prop where
  instr : d.instr = c.instr
  ftz : d.ftz = c.ftz

/-- A note on slots, which changes neither their commands nor their phases. -/
def IsNote (f : Slot → Slot) : Prop := ∀ c, SameCommand c (f c) ∧ (f c).phase = c.phase

/-- What a step that began with the slots `T` may make of them, one operation after the other. A step that may reset the
device (`wiped`) admits nothing. -/
inductive SlotSteps (T : SlotTable) : Bool → SlotTable → Prop where
  | refl {wiped} : SlotSteps T wiped T
  | note {wiped t} (f : Slot → Slot) : SlotSteps T wiped t → IsNote f →
      SlotSteps T wiped { t with cmds := t.cmds.map f }
  /-- A command that had not finished when the step began is dispatched, or its operation begins. -/
  | proceed {wiped t} (adm : Nat) (f : Slot → Slot) : SlotSteps T wiped t → T.Open adm →
      (∀ c, SameCommand c (f c) ∧ (f c).finished? = false) →
      SlotSteps T wiped { t with cmds := t.cmds.map (fun c => if c.adm == adm then f c else c) }
  /-- A command that has not finished finishes, next in the order of completion (R155). -/
  | finish {wiped t} (adm : Nat) (st : Status) (r : W64) : SlotSteps T wiped t → t.Open adm →
      SlotSteps T wiped { t with
        cmds := t.cmds.map (fun c => if c.adm == adm then { c with phase := .finished st r t.nextFin } else c)
        nextFin := t.nextFin + 1 }
  | drop {wiped t} (p : Slot → Bool) : SlotSteps T wiped t → SlotSteps T wiped { t with cmds := t.cmds.filter p }
  /-- A command is admitted under the next number (R154). -/
  | add {t} (c : Slot) : SlotSteps T false t → c.adm = t.nextAdm → c.finished? = false →
      SlotSteps T false { t with cmds := t.cmds ++ [c], nextAdm := t.nextAdm + 1 }
  | reset : SlotSteps T true ⟨[], 0, 0⟩

/-- The slots of a state. -/
def Machine.State.slotTable (s : State) : SlotTable := ⟨s.cmds, s.nextAdm, s.nextFin⟩

/-- The slots of a state come from `T` by such operations. -/
def SlotsFrom (T : SlotTable) (wiped : Bool) (s : State) : Prop := SlotSteps T wiped s.slotTable

/-- Whatever state an outcome goes on with has its slots from `T`. -/
def NextFrom (T : SlotTable) (wiped : Bool) (o : Host.Outcome State Fault Refusal) : Prop :=
  ∀ t, o = .next t → SlotsFrom T wiped t

theorem NextFrom.next {T wiped} {t : State} (h : SlotsFrom T wiped t) : NextFrom T wiped (.next t) := fun _ e => by
  cases e
  exact h

theorem SameCommand.adm_eq {c d : Slot} (h : SameCommand c d) : d.adm = c.adm := by
  unfold Slot.adm Slot.hdr
  rw [h.instr]

/-- The tests of R162 take no more than an ERR sample. -/
theorem Machine.State.recheck_notes (s : State) (b c : Nat) : ∃ f, IsNote f ∧
    (s.recheck b c).slotTable = { s.slotTable with cmds := s.cmds.map f } := by
  refine ⟨_, fun x => ?_, rfl⟩
  have same : SameCommand x x ∧ x.phase = x.phase := ⟨⟨rfl, rfl⟩, rfl⟩
  split
  · split
    · split
      · exact ⟨⟨rfl, rfl⟩, rfl⟩
      · exact same
    · exact same
  · exact same

/-- An increment of a counter leaves open what is open. -/
theorem SlotTable.Open.bump {s : State} {adm b c n : Nat} {e : Bool} (h : s.slotTable.Open adm) :
    (s.bump b c n e).slotTable.Open adm := by
  obtain ⟨x, hx, hadm, hfin⟩ := h
  obtain ⟨f, hf, eq⟩ := State.recheck_notes (s.setBay b _) b c
  unfold State.bump
  rw [eq]
  refine ⟨f x, List.mem_map_of_mem hx, (hf x).1.adm_eq.trans hadm, ?_⟩
  rw [Slot.finished?, (hf x).2]
  exact hfin

namespace SlotsFrom

variable {T : SlotTable} {wiped : Bool} {s t : State}

theorem ite {c : Prop} [Decidable c] (hs : SlotsFrom T wiped s) (ht : SlotsFrom T wiped t) :
    SlotsFrom T wiped (if c then s else t) := by
  split
  · exact hs
  · exact ht

theorem ite_fst {α : Type} {c : Prop} [Decidable c] {a b : State × α}
    (ha : SlotsFrom T wiped a.1) (hb : SlotsFrom T wiped b.1) : SlotsFrom T wiped (if c then a else b).1 := by
  split
  · exact ha
  · exact hb

theorem foldl {α : Type} {f : State → α → State} {l : List α} (h : SlotsFrom T wiped s)
    (hf : ∀ s a, SlotsFrom T wiped s → SlotsFrom T wiped (f s a)) : SlotsFrom T wiped (l.foldl f s) :=
  List.foldlRecOn l f h fun s hs a _ => hf s a hs

theorem foldl_fst {α β : Type} {f : State × β → α → State × β} {l : List α} {a : State × β}
    (h : SlotsFrom T wiped a.1) (hf : ∀ a x, SlotsFrom T wiped a.1 → SlotsFrom T wiped (f a x).1) :
    SlotsFrom T wiped (l.foldl f a).1 :=
  List.foldlRecOn (motive := fun a => SlotsFrom T wiped a.1) l f h fun a ha x _ => hf a x ha

theorem foldl_st {α : Type} {f : MatRun → α → MatRun} {l : List α} {w : MatRun} (h : SlotsFrom T wiped w.st)
    (hf : ∀ w x, SlotsFrom T wiped w.st → SlotsFrom T wiped (f w x).st) : SlotsFrom T wiped (l.foldl f w).st :=
  List.foldlRecOn (motive := fun w => SlotsFrom T wiped w.st) l f h fun w hw x _ => hf w x hw

/-- No other field of the state bears on the slots. -/
theorem update
    {pending free faults outs clock factory flash boot bootFeat effFeat dev ctl urg urgRing msix joiner version peg
    zeroMarks clusters lmap lrisk lfailed cores gcrt dram sram local_ host hostDeny poison t3cap t3down dramRepairs nv
    ports far farSent devTele devSince dies sensors dramHolds codecFenced minor power vin iin pout mgmt season errLog
    bootLog trng bays}
    (h : SlotsFrom T wiped s) : SlotsFrom T wiped { s with
      pending := pending, free := free, faults := faults, outs := outs, clock := clock, factory := factory,
      flash := flash, boot := boot, bootFeat := bootFeat, effFeat := effFeat, dev := dev, ctl := ctl,
      urg := urg, urgRing := urgRing, msix := msix, joiner := joiner, version := version, peg := peg,
      zeroMarks := zeroMarks, clusters := clusters, lmap := lmap, lrisk := lrisk, lfailed := lfailed, cores := cores,
      gcrt := gcrt, dram := dram, sram := sram, local_ := local_, host := host, hostDeny := hostDeny,
      poison := poison, t3cap := t3cap, t3down := t3down, dramRepairs := dramRepairs, nv := nv, ports := ports,
      far := far, farSent := farSent, devTele := devTele, devSince := devSince, dies := dies, sensors := sensors,
      dramHolds := dramHolds, codecFenced := codecFenced, minor := minor, power := power, vin := vin, iin := iin,
      pout := pout, mgmt := mgmt, season := season, errLog := errLog, bootLog := bootLog, trng := trng,
      bays := bays } := h

theorem setBay {b} {f : Bay → Bay} (h : SlotsFrom T wiped s) : SlotsFrom T wiped (s.setBay b f) := h.update

/-! ### The operations that name slots -/

theorem setSlot {adm} {f : Slot → Slot} (h : SlotsFrom T wiped s)
    (hf : IsNote f := by exact fun _ => ⟨⟨rfl, rfl⟩, rfl⟩) :
    SlotsFrom T wiped (s.setSlot adm f) :=
  SlotSteps.note _ h fun c => by
    split
    · exact hf c
    · exact ⟨⟨rfl, rfl⟩, rfl⟩

theorem setActive {adm} (h : SlotsFrom T wiped s) (ho : T.Open adm) : SlotsFrom T wiped (s.setActive adm) :=
  SlotSteps.proceed adm _ h ho fun _ => ⟨⟨rfl, rfl⟩, rfl⟩

theorem setRunning {adm} (h : SlotsFrom T wiped s) (ho : T.Open adm) :
    SlotsFrom T wiped (s.setSlot adm (fun c => { c with phase := .running })) :=
  SlotSteps.proceed adm _ h ho fun _ => ⟨⟨rfl, rfl⟩, rfl⟩

/-- A note on every slot, whatever else of the state changes with it. -/
theorem note {f : Slot → Slot} (h : SlotsFrom T wiped s) (hf : IsNote f := by exact fun _ => ⟨⟨rfl, rfl⟩, rfl⟩) :
    SlotsFrom T wiped { s with cmds := s.cmds.map f } :=
  SlotSteps.note f h hf

theorem dropSlots {p : Slot → Bool} (h : SlotsFrom T wiped s) : SlotsFrom T wiped { s with cmds := s.cmds.filter p } :=
  SlotSteps.drop p h

theorem recheck {b c} (h : SlotsFrom T wiped s) : SlotsFrom T wiped (s.recheck b c) := by
  obtain ⟨f, hf, e⟩ := s.recheck_notes b c
  unfold SlotsFrom
  rw [e]
  exact SlotSteps.note f h hf

theorem bump {b c n err} (h : SlotsFrom T wiped s) : SlotsFrom T wiped (s.bump b c n err) :=
  h.setBay.recheck

theorem setCluster {c f} (h : SlotsFrom T wiped s) : SlotsFrom T wiped (s.setCluster c f) := h.update
theorem setPort {p f} (h : SlotsFrom T wiped s) : SlotsFrom T wiped (s.setPort p f) := h.update
theorem setPower {i on} (h : SlotsFrom T wiped s) : SlotsFrom T wiped (s.setPower i on) := h.update
theorem setDie {d f} (h : SlotsFrom T wiped s) : SlotsFrom T wiped (s.setDie d f) := h.update

/-! ### Machine/Mem.lean -/

theorem unmark {r} (h : SlotsFrom T wiped s) : SlotsFrom T wiped (s.unmark r) :=
  h.update.ite h

theorem writeLoc {l bs} (h : SlotsFrom T wiped s) : SlotsFrom T wiped (s.writeLoc l bs) := by
  unfold State.writeLoc
  dsimp only
  split
  · exact (h.update.foldl fun _ _ hs => hs.unmark).update
  · exact h.update.update
  · exact h.update.update
  · exact h.update.update

theorem clearLoc {l n} (h : SlotsFrom T wiped s) : SlotsFrom T wiped (s.clearLoc l n) := by
  unfold State.clearLoc
  dsimp only
  split <;> exact h.update.update

/-! ### Machine/Access.lean -/

theorem writePieces {b acc ps bs} (h : SlotsFrom T wiped s) : SlotsFrom T wiped (State.writePieces b acc ps bs s) := by
  induction ps generalizing bs s with
  | nil => exact h
  | cons p ps ih =>
    refine ih ?_
    split
    · exact h.ite h.writeLoc
    · exact h

theorem writeAcc {b acc a bs} (h : SlotsFrom T wiped s) : SlotsFrom T wiped (s.writeAcc b acc a bs) :=
  h.writePieces

theorem writeBay {b a bs} (h : SlotsFrom T wiped s) : SlotsFrom T wiped (s.writeBay b a bs) :=
  h.writeAcc

/-! ### Machine/Ops.lean -/

theorem useFree {n} (h : SlotsFrom T wiped s) : SlotsFrom T wiped (s.useFree n) :=
  h.update

theorem emit {o} (h : SlotsFrom T wiped s) : SlotsFrom T wiped (s.emit o) :=
  h.update

theorem devCause {i} (h : SlotsFrom T wiped s) : SlotsFrom T wiped (s.devCause i) :=
  h.ite (h.update.emit.ite h.update)

theorem bayIrq {b v} (h : SlotsFrom T wiped s) : SlotsFrom T wiped (s.bayIrq b v) :=
  h.emit.ite h

theorem bayEvent {b i} (h : SlotsFrom T wiped s) : SlotsFrom T wiped (s.bayEvent b i) :=
  h.ite (h.setBay.bayIrq.ite h.setBay)

theorem bayDoorbellErr {b} (h : SlotsFrom T wiped s) : SlotsFrom T wiped (s.bayDoorbellErr b) :=
  h.setBay.bayEvent

theorem log1 {r} (h : SlotsFrom T wiped s) : SlotsFrom T wiped (s.log1 r) :=
  h.update.devCause.ite h.update

theorem log2 {b r} (h : SlotsFrom T wiped s) : SlotsFrom T wiped (s.log2 b r) :=
  h.setBay.bayEvent

theorem log12 {b r} (h : SlotsFrom T wiped s) : SlotsFrom T wiped (s.log12 b r) :=
  h.log1.log2

theorem logPoisonRead {b tag a} (h : SlotsFrom T wiped s) : SlotsFrom T wiped (s.logPoisonRead b tag a) :=
  h.log2

theorem logBadReads {b acc tag rs} (h : SlotsFrom T wiped s) : SlotsFrom T wiped (s.logBadReads b acc tag rs) := by
  unfold State.logBadReads
  split
  · exact h.logPoisonRead
  · exact h

theorem countBay {b i n} (h : SlotsFrom T wiped s) : SlotsFrom T wiped (s.countBay b i n) :=
  h.setBay

theorem countDev {i n} (h : SlotsFrom T wiped s) : SlotsFrom T wiped (s.countDev i n) :=
  h.update

theorem countMinor {kind unit sub} (h : SlotsFrom T wiped s) : SlotsFrom T wiped (s.countMinor kind unit sub) :=
  h.update

theorem lateReads {b rs} (h : SlotsFrom T wiped s) : SlotsFrom T wiped (s.lateReads b rs) :=
  h.countBay.useFree.ite h

theorem raise {b f} (h : SlotsFrom T wiped s) : SlotsFrom T wiped (s.raise b f) :=
  h.ite h.setBay

theorem onRunning {i hd} {f : Slot → State} (hi : hdrOf i = some hd)
    (hf : ∀ c, s.slotTable.Open hd.adm → SlotsFrom s.slotTable wiped s → SlotsFrom s.slotTable wiped (f c)) :
    SlotsFrom s.slotTable wiped (s.onRunning i f) := by
  unfold State.onRunning
  rw [hi]
  dsimp only
  split
  · exact .refl
  · rename_i c hc
    split
    · rename_i hrun
      refine hf c ⟨c, List.mem_of_find?_eq_some hc, by simpa using List.find?_some hc, ?_⟩ .refl
      simp [Slot.finished?, hrun.1]
    · exact .refl

theorem markFinished {adm st result} (h : SlotsFrom T wiped s) : SlotsFrom T wiped (s.markFinished adm st result) := by
  unfold State.markFinished
  split
  · exact h
  · rename_i c hc
    split
    · exact h
    · rename_i hf
      have ho : s.slotTable.Open adm :=
        ⟨c, List.mem_of_find?_eq_some hc, by simpa using List.find?_some hc, by simpa using hf⟩
      dsimp only
      split
      · exact SlotSteps.finish adm st result h.bump ho.bump
      · exact SlotSteps.finish adm st result h ho

theorem dropSlot {adm} (h : SlotsFrom T wiped s) : SlotsFrom T wiped (s.dropSlot adm) :=
  h.dropSlots

theorem dropIfSilent {adm} (h : SlotsFrom T wiped s) : SlotsFrom T wiped (s.dropIfSilent adm) := by
  unfold State.dropIfSilent
  split
  · exact h.dropSlot.ite h
  · exact h

theorem setSq {b q f} (h : SlotsFrom T wiped s) : SlotsFrom T wiped (s.setSq b q f) :=
  h.setBay

theorem setCq {b q f} (h : SlotsFrom T wiped s) : SlotsFrom T wiped (s.setCq b q f) :=
  h.setBay

theorem setCounter {b c f} (h : SlotsFrom T wiped s) : SlotsFrom T wiped (s.setCounter b c f) :=
  h.setBay

theorem settleQueue {b q} (h : SlotsFrom T wiped s) : SlotsFrom T wiped (s.settleQueue b q) := by
  unfold State.settleQueue
  split
  · exact h.setSq.markFinished.dropIfSilent.ite h
  · exact h

theorem settleAdmin {b} (h : SlotsFrom T wiped s) : SlotsFrom T wiped (s.settleAdmin b) :=
  .ite (h.setBay) h

theorem settleControl (h : SlotsFrom T wiped s) : SlotsFrom T wiped s.settleControl :=
  h.update.ite h

theorem settle {o} (h : SlotsFrom T wiped s) : SlotsFrom T wiped (s.settle o) := by
  unfold State.settle
  split
  · exact h.settleQueue.settleAdmin
  · exact h.settleControl
  · exact h

theorem finish {adm st result} (h : SlotsFrom T wiped s) : SlotsFrom T wiped (s.finish adm st result) := by
  unfold State.finish
  split
  · exact h
  · exact h.markFinished.dropIfSilent.settle

theorem finishNat {adm st result} (h : SlotsFrom T wiped s) : SlotsFrom T wiped (s.finishNat adm st result) :=
  h.finish

theorem fail {adm st} (h : SlotsFrom T wiped s) : SlotsFrom T wiped (s.fail adm st) :=
  h.finish

theorem markCorrected {adm} (h : SlotsFrom T wiped s) : SlotsFrom T wiped (s.markCorrected adm) :=
  h.setSlot

theorem enter {b st} (h : SlotsFrom T wiped s) : SlotsFrom T wiped (s.enter b st) :=
  h.ite h.setBay.bayEvent

theorem mixed {t : State} (h : SlotsFrom T wiped s) : SlotsFrom T wiped (s.mixed t) :=
  (h.foldl fun _ _ hs => hs.unmark).update

/-! ### Machine/Matmul.lean -/

theorem failAtRisk {b p} (h : SlotsFrom T wiped s) : SlotsFrom T wiped (s.failAtRisk b p) :=
  h.update.log12.ite h

theorem askRetire {p} (h : SlotsFrom T wiped s) : SlotsFrom T wiped (s.askRetire p) :=
  h.setCluster

theorem substituteNow {b r cube unit} (h : SlotsFrom T wiped s) : SlotsFrom T wiped (s.substituteNow b r cube unit) :=
  h.setCluster.log1

theorem afterStrike {b adm r k} (h : SlotsFrom T wiped s) : SlotsFrom T wiped (s.afterStrike b adm r k) := by
  unfold State.afterStrike
  extract_lets
  split
  · extract_lets _ s1
    have h1 : SlotsFrom T wiped s1 := (h.ite h.countBay).foldl fun _ _ hs => hs.substituteNow
    exact h1.setCluster.askRetire.log12.ite (h1.setCluster.ite h1)
  · exact (h.ite h.countBay).log1
  · exact h.ite h.countBay

theorem complete {adm} {f : State → Eff} (h : SlotsFrom T wiped s)
    (hf : ∀ a, SlotsFrom T wiped a → SlotsFrom T wiped (f a).1) :
    SlotsFrom T wiped (s.complete adm f) :=
  (hf _ h).finishNat

theorem completeIn {adm b ins} {f : State → Eff} (h : SlotsFrom T wiped s)
    (hf : ∀ a, SlotsFrom T wiped a → SlotsFrom T wiped (f a).1) : SlotsFrom T wiped (s.completeIn adm b ins f) := by
  unfold State.completeIn
  refine h.complete fun _ hs => .ite_fst ?_ (hf _ hs)
  dsimp only
  split
  · exact (hf _ hs).logPoisonRead
  · exact hf _ hs

theorem failIn {adm b ins st} (h : SlotsFrom T wiped s) : SlotsFrom T wiped (s.failIn adm b ins st) :=
  (h.logBadReads.ite h).fail

theorem matStart {m} (h : SlotsFrom T wiped s) : SlotsFrom T wiped (s.matStart m).st :=
  h

theorem matRunMeet {b adm ps} {w : MatRun} {r} (h : SlotsFrom T wiped w.st) :
    SlotsFrom T wiped (MatRun.meet b adm ps w r).st := by
  unfold MatRun.meet
  split
  · exact h
  · dsimp only
    split <;> exact h.afterStrike.update

theorem matRun {b adm m retries} (h : SlotsFrom T wiped s) : SlotsFrom T wiped (s.matRun b adm m retries).st :=
  h.matStart.foldl_st fun _ _ hs => hs.matRunMeet

theorem matRunLog {w : MatRun} {ps b tag} (h : SlotsFrom T wiped w.st) : SlotsFrom T wiped (w.log ps b tag) :=
  h.foldl fun _ _ hs => hs.log1

theorem matRunFailed {w : MatRun} {ps b} (h2 : SlotsFrom T wiped s) : SlotsFrom T wiped (w.failed ps b s) := by
  unfold MatRun.failed
  refine h2.foldl fun _ _ hs => ?_
  split
  · exact hs.failAtRisk
  · exact hs

theorem matmulEff {b c m} (h : SlotsFrom T wiped s) : SlotsFrom T wiped (State.matmulEff b c m s).1 := by
  unfold State.matmulEff
  split
  · exact h
  · refine h.useFree.matRun.matRunLog.matRunFailed.ite_fst ?_
    extract_lets _ s1
    have h1 : SlotsFrom T wiped s1 := h.useFree.matRun.matRunLog.foldl fun _ _ hs => hs.writeBay
    exact (h1.writeBay.ite h1).raise

theorem execMatmul {hd m} : NextFrom s.slotTable wiped (execMatmul hd m s) := by
  unfold Machine.execMatmul
  refine .next (onRunning rfl fun _ _ h => ?_)
  split
  · exact h.completeIn fun _ hs => hs.matmulEff
  · exact h

/-! ### Machine/Licence.lean -/

theorem refreshLicence (h : SlotsFrom T wiped s) : SlotsFrom T wiped s.refreshLicence :=
  h.update

theorem licenceInstallEff {addr len} (h : SlotsFrom T wiped s) :
    SlotsFrom T wiped (State.licenceInstallEff addr len s).1 :=
  h.ite_fst (h.ite_fst (h.ite_fst (h.ite_fst (h.ite_fst h.update.refreshLicence))))

theorem execLicenceInstall {hd addr len} : NextFrom s.slotTable wiped (execLicenceInstall hd addr len s) :=
  .next (onRunning rfl fun _ _ h => h.complete fun _ hs => hs.licenceInstallEff)

theorem execLicenceWindowEdge (h : SlotsFrom T wiped s) : NextFrom T wiped (execLicenceWindowEdge s) :=
  .next h.refreshLicence

/-! ### Machine/Admin.lean -/

theorem outWrite {o a bs} (h : SlotsFrom T wiped s) : SlotsFrom T wiped (s.outWrite o a bs) := by
  unfold State.outWrite
  split
  · exact h.writeBay
  · exact h.writeLoc

theorem putOut {o a bs result} (h : SlotsFrom T wiped s) : SlotsFrom T wiped (s.putOut o a bs result).1 :=
  h.ite_fst h.outWrite

theorem execNop {hd} : NextFrom s.slotTable wiped (execNop hd s) :=
  .next (onRunning rfl fun _ _ h => h.finishNat)

theorem execIdentify {hd bay dst} : NextFrom s.slotTable wiped (execIdentify hd bay dst s) :=
  .next (onRunning rfl fun _ _ h => h.complete fun _ hs => hs.putOut)

theorem clearLog {hd log bay} (h : SlotsFrom T wiped s) : SlotsFrom T wiped (s.clearLog hd log bay) := by
  unfold State.clearLog
  split
  · exact h.update
  · exact h.update
  · exact h.setBay
  · exact h.setBay

theorem getLogEff {hd log clear bay dst length offset} (h : SlotsFrom T wiped s) :
    SlotsFrom T wiped (State.getLogEff hd log clear bay dst length offset s).1 :=
  h.putOut.clearLog.ite h.putOut

theorem execGetLog {hd log clear bay dst length offset} :
    NextFrom s.slotTable wiped (execGetLog hd log clear bay dst length offset s) :=
  .next (onRunning rfl fun _ _ h => h.complete fun _ hs => hs.getLogEff)

theorem queueCreateEff {b q} (h : SlotsFrom T wiped s) : SlotsFrom T wiped (State.queueCreateEff b q s).1 := by
  unfold State.queueCreateEff
  split
  · exact h
  · exact h.setSq.ite_fst h.setCq

theorem execQueueCreate {hd q} : NextFrom s.slotTable wiped (execQueueCreate hd q s) := by
  unfold Machine.execQueueCreate
  refine .next (onRunning rfl fun _ _ h => ?_)
  split
  · exact h.complete fun _ hs => hs.queueCreateEff
  · exact h

theorem execQueueDelete {hd qtype qid} : NextFrom s.slotTable wiped (execQueueDelete hd qtype qid s) := by
  unfold Machine.execQueueDelete
  refine .next (onRunning rfl fun _ ho h => ?_)
  split
  · exact h
  · split
    · exact h.fail
    · exact (h.setActive ho).setSq.settleQueue.ite h.setCq.finishNat

theorem execCounterSet {hd ctr add clearErr value} :
    NextFrom s.slotTable wiped (execCounterSet hd ctr add clearErr value s) := by
  unfold Machine.execCounterSet
  refine .next (onRunning rfl fun _ _ h => ?_)
  split
  · exact h
  · exact h.setCounter.recheck.finishNat

/-! ### Machine/Compute.lean -/

theorem quantStatsEff {b o} (h : SlotsFrom T wiped s) : SlotsFrom T wiped (State.quantStatsEff b o s).1 := by
  unfold State.quantStatsEff
  split
  · exact h
  · exact h.writeBay.raise

theorem execQuantStats {hd o} : NextFrom s.slotTable wiped (execQuantStats hd o s) := by
  unfold Machine.execQuantStats
  refine .next (onRunning rfl fun _ _ h => ?_)
  split
  · exact h.completeIn fun _ hs => hs.quantStatsEff
  · exact h

theorem convertEff {b ftz o} (h : SlotsFrom T wiped s) : SlotsFrom T wiped (State.convertEff b ftz o s).1 := by
  unfold State.convertEff
  split
  · exact h
  · exact h.writeBay.raise

theorem execConvert {hd o} : NextFrom s.slotTable wiped (execConvert hd o s) := by
  unfold Machine.execConvert
  refine .next (onRunning rfl fun _ _ h => ?_)
  split
  · exact h.completeIn fun _ hs => hs.convertEff
  · exact h

theorem rngFillEff {b o} (h : SlotsFrom T wiped s) : SlotsFrom T wiped (State.rngFillEff b o s).1 := by
  unfold State.rngFillEff
  split
  · exact h
  · exact h.writeBay.raise

theorem execRngFill {hd o} : NextFrom s.slotTable wiped (execRngFill hd o s) := by
  unfold Machine.execRngFill
  refine .next (onRunning rfl fun _ _ h => ?_)
  split
  · exact h.complete fun _ hs => hs.rngFillEff
  · exact h

/-! ### Machine/Cores.lean -/

theorem setCore {k} {f : Core → Core} (h : SlotsFrom T wiped s) : SlotsFrom T wiped (s.setCore k f) :=
  h.update

theorem execKernelLaunch {hd k} : NextFrom s.slotTable wiped (execKernelLaunch hd k s) := by
  unfold Machine.execKernelLaunch
  refine .next (onRunning rfl fun _ ho h => ?_)
  split
  · exact h
  · split
    · exact h.logBadReads.fail
    · exact (h.setActive ho).foldl fun _ _ hs => hs.writeLoc.writeLoc.setCore

theorem stopLaunch {adm} (h : SlotsFrom T wiped s) : SlotsFrom T wiped (s.stopLaunch adm) :=
  h.update

theorem failLaunch {adm key st cause pc} (h : SlotsFrom T wiped s) :
    SlotsFrom T wiped (s.failLaunch adm key st cause pc) :=
  h.stopLaunch.finishNat

theorem coreFault {key cause pc} (h : SlotsFrom T wiped s) : SlotsFrom T wiped (s.coreFault key cause pc) := by
  unfold State.coreFault
  split
  · exact h.failLaunch
  · exact h

theorem coreCheck {key pc} (h : SlotsFrom T wiped s) : SlotsFrom T wiped (s.coreCheck key pc) := by
  unfold State.coreCheck
  split
  · exact h.useFree.failLaunch
  · exact h

theorem coreBadRead {key b pc rs} (h : SlotsFrom T wiped s) : SlotsFrom T wiped (s.coreBadRead key b pc rs) :=
  h.logBadReads.coreCheck

theorem stopFields {c cause} (h : SlotsFrom T wiped s) : SlotsFrom T wiped (s.stopFields c cause).1 :=
  h.stopLaunch.ite h.stopLaunch.useFree

theorem onCore {c} {f : Nat → Core → Nat → State} (h : SlotsFrom T wiped s)
    (hf : ∀ a b c, SlotsFrom T wiped (f a b c)) :
    SlotsFrom T wiped (s.onCore c f) := by
  unfold State.onCore
  split
  · exact h
  · dsimp only
    split
    · exact h
    · refine h.ite ?_
      split
      · exact h
      · exact (hf _ _ _).setCore.ite (hf _ _ _)

theorem putVec {key b vd x} (h : SlotsFrom T wiped s) : SlotsFrom T wiped (s.putVec key b vd x) :=
  h.setCore.raise

theorem execTidyCvt {c vd vs2} (h : SlotsFrom T wiped s) : NextFrom T wiped (execTidyCvt c vd vs2 s) :=
  .next (h.onCore fun _ _ _ => h.putVec)

theorem execTidyWid {c vd vs2} (h : SlotsFrom T wiped s) : NextFrom T wiped (execTidyWid c vd vs2 s) :=
  .next (h.onCore fun _ _ _ => h.putVec)

theorem execTidyStat {c vd vs2} (h : SlotsFrom T wiped s) : NextFrom T wiped (execTidyStat c vd vs2 s) :=
  .next (h.onCore fun _ _ _ => h.putVec)

theorem execTidyRsc {c vd vs2 rs1} (h : SlotsFrom T wiped s) : NextFrom T wiped (execTidyRsc c vd vs2 rs1 s) :=
  .next (h.onCore fun _ _ _ => h.lateReads.coreBadRead.ite (h.lateReads.coreFault.ite h.lateReads.putVec))

theorem execTidyQblk {c vd vs2} (h : SlotsFrom T wiped s) : NextFrom T wiped (execTidyQblk c vd vs2 s) :=
  .next (h.onCore fun _ _ _ => h.putVec.ite h.putVec.useFree)

theorem execTidyDrop {c vd vs2 rs1} (h : SlotsFrom T wiped s) : NextFrom T wiped (execTidyDrop c vd vs2 rs1 s) :=
  .next (h.onCore fun _ _ _ => h.putVec)

theorem execTidyGth {c vd vs2} (h : SlotsFrom T wiped s) : NextFrom T wiped (execTidyGth c vd vs2 s) :=
  .next (h.onCore fun _ _ _ => h.lateReads.coreBadRead.ite (h.lateReads.coreFault.ite h.lateReads.putVec))

theorem execTidySct {c vs3 vs2} (h : SlotsFrom T wiped s) : NextFrom T wiped (execTidySct c vs3 vs2 s) := by
  unfold Machine.execTidySct
  refine .next (h.onCore fun _ _ _ => ?_)
  extract_lets _ _ t1
  have h1 : SlotsFrom T wiped t1 := h.foldl fun _ _ hs => hs.writeBay
  exact h1.coreCheck.ite (h1.ite h1.coreFault)

theorem execGrainGet {c vd rs1} (h : SlotsFrom T wiped s) : NextFrom T wiped (execGrainGet c vd rs1 s) :=
  .next (h.onCore fun _ _ _ => h.putVec)

theorem execTidyDma {c rs1 rs2} (h : SlotsFrom T wiped s) : NextFrom T wiped (execTidyDma c rs1 rs2 s) :=
  .next (h.onCore fun _ _ _ => h.coreCheck.ite (h.coreFault.ite h.setCore))

theorem execXtenonCsrWrite {c csr value} (h : SlotsFrom T wiped s) :
    NextFrom T wiped (execXtenonCsrWrite c csr value s) := by
  unfold Machine.execXtenonCsrWrite
  refine .next (h.onCore fun _ _ _ => ?_)
  dsimp only
  split
  · exact h.coreFault.ite h.setCore
  · exact h.setCore
  · exact h.setCore
  · exact h.coreFault.ite h.setCore
  · exact h.setCore
  · exact h.coreFault

theorem execKernelEcallExit {c} (h : SlotsFrom T wiped s) : NextFrom T wiped (execKernelEcallExit c s) :=
  .next (h.onCore fun _ _ _ => h.coreFault.ite (h.setCore.update.finishNat.ite h.setCore))

theorem execCoreException {c cause pc} (h : SlotsFrom T wiped s) : NextFrom T wiped (execCoreException c cause pc s) :=
  .next (h.onCore fun _ _ _ => h.coreFault)

theorem execCycleLimit {adm} (h : SlotsFrom T wiped s) : NextFrom T wiped (execCycleLimit adm s) := by
  unfold Machine.execCycleLimit
  refine .next ?_
  split
  · exact h
  · split
    · exact h.stopFields.finishNat.ite h
    · exact h

theorem coreWrite {b key a bs} (h : SlotsFrom T wiped s) : SlotsFrom T wiped (s.coreWrite b key a bs) :=
  h.writeLoc.ite h.writeBay

theorem runDma {key d} (h : SlotsFrom T wiped s) : SlotsFrom T wiped (s.runDma key d) :=
  h.failLaunch.ite (h.failLaunch.ite ((h.logBadReads.ite h).useFree.failLaunch.ite (((h.lateReads.ite
    h).coreWrite.bump.ite (h.lateReads.ite h).coreWrite).useFree.failLaunch.ite ((h.lateReads.ite
    h).coreWrite.bump.ite (h.lateReads.ite h).coreWrite))))

theorem execDmaDescriptorDone {c chan} (h : SlotsFrom T wiped s) :
    NextFrom T wiped (execDmaDescriptorDone c chan s) := by
  unfold Machine.execDmaDescriptorDone
  refine .next ?_
  split
  · exact h
  · split
    · exact h
    · exact h.setCore.runDma

theorem partDma {key d} (h : SlotsFrom T wiped s) : SlotsFrom T wiped (s.partDma key d) :=
  h.mixed.ite h

theorem cutChannels {key} {f : Nat → Bool} (h : SlotsFrom T wiped s) : SlotsFrom T wiped (s.cutChannels key f) := by
  unfold State.cutChannels
  refine h.foldl fun _ _ hs => ?_
  split
  · exact hs
  · exact (hs.partDma.ite hs).setCore

theorem dropQueued {key} (h : SlotsFrom T wiped s) : SlotsFrom T wiped (s.dropQueued key) :=
  h.setCore

/-! ### Machine/Tick.lean -/

theorem tick (h : SlotsFrom T wiped s) : SlotsFrom T wiped (tick s) :=
  h.ite h.update

/-! ### Machine/Diagnostics.lean -/

theorem nextInstant (h : SlotsFrom T wiped s) : SlotsFrom T wiped s.nextInstant :=
  h.tick.tick.ite h.tick

theorem telemetryEff {hd w dst length} (h : SlotsFrom T wiped s) :
    SlotsFrom T wiped (State.telemetryEff hd w dst length s).1 := by
  unfold State.telemetryEff
  split
  · exact h
  · exact (h.nextInstant.useFree.ite h.nextInstant).putOut

theorem execTelemetryRead {hd window dst length} :
    NextFrom s.slotTable wiped (execTelemetryRead hd window dst length s) :=
  .next (onRunning rfl fun _ _ h => h.complete fun _ hs => hs.telemetryEff)

theorem execSeasonReport {hd dst length} : NextFrom s.slotTable wiped (execSeasonReport hd dst length s) :=
  .next (onRunning rfl fun _ _ h => h.complete fun _ hs => hs.putOut)

theorem floorplanEff {hd b dst length} (h : SlotsFrom T wiped s) :
    SlotsFrom T wiped (State.floorplanEff hd b dst length s).1 :=
  h.putOut

theorem execFloorplanRead {hd dst length} : NextFrom s.slotTable wiped (execFloorplanRead hd dst length s) := by
  unfold Machine.execFloorplanRead
  refine .next (onRunning rfl fun _ _ h => ?_)
  split
  · exact h.complete fun _ hs => hs.floorplanEff
  · exact h

theorem linkTestEff {port} (h : SlotsFrom T wiped s) : SlotsFrom T wiped (State.linkTestEff port s).1 :=
  h.ite_fst h.useFree

theorem execLinkTest {hd port pattern durationMs} :
    NextFrom s.slotTable wiped (execLinkTest hd port pattern durationMs s) :=
  .next (onRunning rfl fun _ _ h => h.complete fun _ hs => hs.linkTestEff)

/-! ### Machine/Link.lean -/

theorem setPortState {p st} (h : SlotsFrom T wiped s) : SlotsFrom T wiped (s.setPortState p st) :=
  h.ite h.setPort.devCause.log1

theorem sendFlit {p kind payload} (h : SlotsFrom T wiped s) : SlotsFrom T wiped (s.sendFlit p kind payload) :=
  h.setPort.emit

theorem sendStomps {p} (h : SlotsFrom T wiped s) : SlotsFrom T wiped (s.sendStomps p) :=
  h.ite h.setPort.sendFlit

theorem pumpOnce {p} (h : SlotsFrom T wiped s) : SlotsFrom T wiped (s.pumpOnce p) := by
  unfold State.pumpOnce
  refine h.sendStomps.ite ?_
  split
  · exact h.sendStomps
  · split
    · exact h.sendStomps
    · exact h.sendStomps.setPort.sendFlit

theorem pump {p} (h : SlotsFrom T wiped s) : SlotsFrom T wiped (s.pump p) :=
  h.foldl fun _ _ hs => hs.pumpOnce

theorem routeDrop {p} (h : SlotsFrom T wiped s) : SlotsFrom T wiped (s.routeDrop p) :=
  h.countDev.log1

theorem enqueue {die adm relayed p} (h : SlotsFrom T wiped s) : SlotsFrom T wiped (s.enqueue die adm relayed p) := by
  unfold State.enqueue
  split
  · exact h.routeDrop
  · exact h.emit.setPort

theorem inject {die adm relayed p} (h : SlotsFrom T wiped s) : SlotsFrom T wiped (s.inject die adm relayed p) := by
  unfold State.inject
  split
  · exact h.routeDrop
  · exact h.enqueue.pump

theorem sendPacket {p} (h : SlotsFrom T wiped s) : SlotsFrom T wiped (s.sendPacket p) :=
  h.inject

theorem reroute (h : SlotsFrom T wiped s) : SlotsFrom T wiped s.reroute :=
  h.foldl fun _ _ hs => hs.pump.ite (hs.setPort.foldl fun _ _ ht => ht.inject)

theorem resend {p} (h : SlotsFrom T wiped s) : SlotsFrom T wiped (s.resend p) :=
  h.foldl fun _ _ hs => hs.emit

theorem changePort {p st} (h : SlotsFrom T wiped s) : SlotsFrom T wiped (s.changePort p st) :=
  (h.setPortState.resend.setPort.ite h.setPortState).reroute

theorem lockFlit {p f} (h : SlotsFrom T wiped s) : SlotsFrom T wiped (s.lockFlit p f) :=
  h.setPort.ite (h.setPort.ite h.setPort.setPort.changePort)

theorem takeAck {p f} (h : SlotsFrom T wiped s) : SlotsFrom T wiped (s.takeAck p f) :=
  h.setPort.pump

theorem relay {p k} (h : SlotsFrom T wiped s) : SlotsFrom T wiped (s.relay p k) :=
  h.setPort.inject

theorem commit {p stomp} (h : SlotsFrom T wiped s) : SlotsFrom T wiped (s.commit p stomp) :=
  h.setPort

theorem askReplay {p} (h : SlotsFrom T wiped s) : SlotsFrom T wiped (s.askReplay p) :=
  h.setPort.sendFlit

theorem discardLate {p} (h : SlotsFrom T wiped s) : SlotsFrom T wiped (s.discardLate p) :=
  h.ite h.askReplay

theorem takeData {p f} (h : SlotsFrom T wiped s) : SlotsFrom T wiped (s.takeData p f) :=
  h.setPort.commit.setPort.foldl fun _ _ hs => hs.relay

theorem takeBack {q} (h : SlotsFrom T wiped s) : SlotsFrom T wiped (s.takeBack q) :=
  h.setPort

theorem takeBackAll {qs} (h : SlotsFrom T wiped s) : SlotsFrom T wiped (s.takeBackAll qs) :=
  (h.foldl fun _ _ hs => hs.takeBack).foldl fun _ _ hs => hs.pump

theorem takeBadData {p f} (h : SlotsFrom T wiped s) : SlotsFrom T wiped (s.takeBadData p f) :=
  ((h.foldl fun _ _ hs => hs.inject).takeBackAll.ite h).askReplay

theorem takeStomp {p f} (h : SlotsFrom T wiped s) : SlotsFrom T wiped (s.takeStomp p f) :=
  h.setPort.commit.takeBackAll

theorem takeReplay {p f} (h : SlotsFrom T wiped s) : SlotsFrom T wiped (s.takeReplay p f) := by
  unfold State.takeReplay
  extract_lets _ _ _ _ s1
  have h1 : SlotsFrom T wiped s1 := h.takeAck.setPort.foldl fun _ _ hs => hs.countBay
  exact h1.resend.setPort.changePort.ite h1.resend

theorem countFlit {p f} (h : SlotsFrom T wiped s) : SlotsFrom T wiped (s.countFlit p f) :=
  h.setPort

theorem receive {p f} (h : SlotsFrom T wiped s) : SlotsFrom T wiped (s.receive p f) :=
  h.countFlit.lockFlit.ite (h.ite ((h.countFlit.takeBadData.ite h.countFlit.askReplay).ite
    (h.countFlit.takeReplay.ite ((h.countFlit.takeAck.takeData.ite h.countFlit.discardLate).ite
    ((h.countFlit.takeAck.takeStomp.ite h.countFlit.discardLate).ite (h.countFlit.takeAck.commit.ite
    h.countFlit.takeAck))))))

theorem idleFlits (h : SlotsFrom T wiped s) : SlotsFrom T wiped s.idleFlits :=
  h.foldl fun _ _ hs => hs.sendFlit.ite hs

theorem execFlitReceive {port f} (h : SlotsFrom T wiped s) : NextFrom T wiped (execFlitReceive port f s) :=
  .next h.receive

theorem execReplayRequest {port f} (h : SlotsFrom T wiped s) : NextFrom T wiped (execReplayRequest port f s) :=
  .next h.receive

theorem execStompFlit {port f} (h : SlotsFrom T wiped s) : NextFrom T wiped (execStompFlit port f s) :=
  .next h.receive

theorem execPacketRelay {port p} (h : SlotsFrom T wiped s) : NextFrom T wiped (execPacketRelay port p s) :=
  .next (h.relay.ite h)

theorem takePacket {k} (h : SlotsFrom T wiped s) : SlotsFrom T wiped (s.takePacket k) := by
  unfold State.takePacket
  split
  · exact h.setPort
  · exact h

theorem takeMsg {typ bay group} {pick : Packet → Bool} (h : SlotsFrom T wiped s) :
    SlotsFrom T wiped (s.takeMsg typ bay group pick) :=
  h.foldl fun _ _ hs => hs.foldl fun _ _ ht => ht.takePacket

theorem laneLost {port lane} (h : SlotsFrom T wiped s) : SlotsFrom T wiped (s.laneLost port lane) :=
  h.ite (h.setPort.setPort.useFree.log1.ite (h.setPort.setPort.changePort.ite h.setPort.setPort.changePort))

/-! ### Machine/Groups.lean -/

theorem setGroup {b g} {f : Machine.Group → Machine.Group} (h : SlotsFrom T wiped s) :
    SlotsFrom T wiped (s.setGroup b g f) :=
  h.setBay

theorem mixColl {b g c} (h : SlotsFrom T wiped s) : SlotsFrom T wiped (s.mixColl b g c) :=
  h.mixed

theorem sendMsg {b g lc adm member vc typ offset tag data} (h : SlotsFrom T wiped s) :
    SlotsFrom T wiped (s.sendMsg b g lc adm member vc typ offset tag data) :=
  h.foldl fun _ _ hs => hs.inject

theorem sendTo {b g lc adm member vc typ offset tag data} (h : SlotsFrom T wiped s) :
    SlotsFrom T wiped (s.sendTo b g lc adm member vc typ offset tag data) :=
  h.inject

theorem addAt {b g lc member vc ctr n err} (h : SlotsFrom T wiped s) :
    SlotsFrom T wiped (s.addAt b g lc member vc ctr n err) := by
  unfold State.addAt
  split
  · exact h.bump.ite (h.sendTo.ite h)
  · exact h.bump

theorem countTrig {b t signal remote err} (h : SlotsFrom T wiped s) :
    SlotsFrom T wiped (s.countTrig b t signal remote err) :=
  (h.bump.ite h).addAt.ite (h.bump.ite h)

theorem firedEnd {b t err} (h : SlotsFrom T wiped s) : SlotsFrom T wiped (s.firedEnd b t err) :=
  h.countTrig

theorem passErr {b t} (h : SlotsFrom T wiped s) : SlotsFrom T wiped (s.passErr b t) :=
  h.countTrig

theorem abortGroup {b g} (h : SlotsFrom T wiped s) : SlotsFrom T wiped (s.abortGroup b g) := by
  unfold State.abortGroup
  refine .foldl (.foldl (.setBay ?_) fun _ _ hs => hs.finishNat) fun _ _ hs => ?_
  · split
    · exact h.foldl fun _ _ hs => hs.mixColl
    · exact h
  · split
    · exact hs.firedEnd
    · exact hs

theorem sendAbort {b g} (h : SlotsFrom T wiped s) : SlotsFrom T wiped (s.sendAbort b g) := by
  unfold State.sendAbort
  split
  · exact h.emit.foldl fun _ _ hs => hs.sendMsg
  · exact h

theorem mismatch {b g} (h : SlotsFrom T wiped s) : SlotsFrom T wiped (s.mismatch b g) :=
  h.log2.sendAbort.abortGroup

theorem execGroupAbort {bay group} (h : SlotsFrom T wiped s) : NextFrom T wiped (execGroupAbort bay group s) :=
  .next h.takeMsg.abortGroup

theorem sendJoin {node adm j} (h : SlotsFrom T wiped s) : SlotsFrom T wiped (s.sendJoin node adm j) :=
  h.emit.inject

theorem endJoin {b x full} (h : SlotsFrom T wiped s) : SlotsFrom T wiped (s.endJoin b x full) := by
  unfold State.endJoin
  split
  · exact h.setBay.fail
  · exact h.setGroup.finishNat

theorem settleJoin {b g} (h : SlotsFrom T wiped s) : SlotsFrom T wiped (s.settleJoin b g) := by
  unfold State.settleJoin
  split
  · exact h.endJoin.ite h
  · exact h

theorem takeJoin {j} (h : SlotsFrom T wiped s) : SlotsFrom T wiped (s.takeJoin j) := by
  unfold State.takeJoin
  split
  · exact h.ite h.setBay
  · exact (h.ite h.sendJoin).ite (h.ite h.setGroup.settleJoin)

theorem execGroupControl {j} (h : SlotsFrom T wiped s) : NextFrom T wiped (execGroupControl j s) :=
  .next h.takeMsg.takeJoin

theorem execCollGroupCreate {hd group blk} :
    NextFrom s.slotTable wiped (execCollGroupCreate hd group blk s) := by
  unfold Machine.execCollGroupCreate
  refine .next (onRunning rfl fun _ ho h => ?_)
  split
  · exact h
  · split
    · exact h.fail
    · exact ((h.setActive ho).setBay.foldl fun _ _ hs => hs.sendJoin).settleJoin.foldl fun _ _ hs => hs.takeJoin

theorem execCollJoinTimeout {bay group} (h : SlotsFrom T wiped s) :
    NextFrom T wiped (execCollJoinTimeout bay group s) := by
  unfold Machine.execCollJoinTimeout
  refine .next ?_
  split
  · exact h.endJoin.ite h
  · exact h

theorem execCollGroupDestroy {hd group} : NextFrom s.slotTable wiped (execCollGroupDestroy hd group s) := by
  unfold Machine.execCollGroupDestroy
  refine .next (onRunning rfl fun _ _ h => ?_)
  split
  · exact h
  · exact h.fail.ite (h.fail.ite h.setBay.finishNat)

/-! ### Machine/Update.lean -/

theorem diffRecord {b step tensor first count kind source} (h : SlotsFrom T wiped s) :
    SlotsFrom T wiped (s.diffRecord b step tensor first count kind source) := by
  unfold State.diffRecord
  dsimp only
  split
  · exact h
  · exact h.ite h.writeBay.setBay

theorem markDirty {b blocks} (h : SlotsFrom T wiped s) : SlotsFrom T wiped (s.markDirty b blocks) :=
  h.setBay

theorem updateFault {b adm n rate unit} (h : SlotsFrom T wiped s) :
    SlotsFrom T wiped (s.updateFault b adm n rate unit) := by
  unfold State.updateFault
  split
  · exact h
  · exact h.update.ite h.update.markCorrected.countBay.log1

theorem updateBlock {b adm x p ti k gs} (h : SlotsFrom T wiped s) :
    SlotsFrom T wiped (s.updateBlock b adm x p ti k gs) :=
  (h.updateFault.writeBay.writeBay.writeBay.ite h.updateFault.writeBay.writeBay).raise.setBay.markDirty

theorem advance {b p step source ti} (h : SlotsFrom T wiped s) : SlotsFrom T wiped (s.advance b p step source ti) :=
  (h.setBay.diffRecord.ite h.setBay).ite h

theorem segmentRecord {b x p ti seg before} (h : SlotsFrom T wiped s) :
    SlotsFrom T wiped (s.segmentRecord b x p ti seg before) :=
  h.diffRecord.ite h

theorem abortRecords {b x p} (h : SlotsFrom T wiped s) : SlotsFrom T wiped (s.abortRecords b x p) :=
  h.foldl fun _ _ hs => hs.foldl fun _ _ ht => ht.ite (ht.foldl fun _ _ hu => hu.diffRecord)

theorem stepBlock {b adm x p limit ti} {grad : State → Nat → List Val} {gRange : Nat → List (Nat × Nat)}
    {a : State × Nat × Option Status} {k} (h : SlotsFrom T wiped a.1) :
    SlotsFrom T wiped (State.stepBlock b adm x p limit ti grad gRange a k).1 := by
  unfold State.stepBlock
  dsimp only
  split
  · exact h
  · split
    · exact h
    · split
      · exact h
      · exact h.updateBlock

theorem runTensor {b adm x p limit} {grad : Nat → State → Nat → List Val}
    {gRange : Nat → Nat → List (Nat × Nat)} {a : State × Nat × Option Status} {ti} (h : SlotsFrom T wiped a.1) :
    SlotsFrom T wiped (State.runTensor b adm x p limit grad gRange a ti).1 := by
  unfold State.runTensor
  refine h.ite_fst ?_
  extract_lets r1
  have h1 : SlotsFrom T wiped r1.1 := h.foldl_fst fun _ _ hs => hs.ite_fst (hs.foldl_fst
    fun _ _ ht => ht.stepBlock).segmentRecord
  exact h1.ite_fst h1.advance

/-! ### Machine/Training.lean -/

theorem setTrain {b} {f : Train → Train} (h : SlotsFrom T wiped s) : SlotsFrom T wiped (s.setTrain b f) :=
  h.setBay

theorem mapLoadEff {b adm addr len} (h : SlotsFrom T wiped s) :
    SlotsFrom T wiped (State.mapLoadEff b adm addr len s).1 := by
  unfold State.mapLoadEff
  split
  · exact h
  · exact h.ite_fst (h.ite_fst (h.ite_fst h.setTrain))

theorem execShardMapLoad {hd addr len} : NextFrom s.slotTable wiped (execShardMapLoad hd addr len s) := by
  unfold Machine.execShardMapLoad
  refine .next (onRunning rfl fun _ _ h => ?_)
  split
  · exact h.completeIn fun _ hs => hs.mapLoadEff
  · exact h

theorem setGather {b adm} {f : Gather → Gather} (h : SlotsFrom T wiped s) : SlotsFrom T wiped (s.setGather b adm f) :=
  h.setTrain

theorem putRemote {b adm p a bs} (h : SlotsFrom T wiped s) : SlotsFrom T wiped (s.putRemote b adm p a bs) := by
  unfold State.putRemote
  dsimp only
  split
  · exact (h.setBay.setGather.foldl fun _ _ hs => hs.sendTo).ite h.setGather
  · exact h.setGather

theorem putRow {b adm p a bs} (h : SlotsFrom T wiped s) : SlotsFrom T wiped (s.putRow b adm p a bs) :=
  h.putRemote.ite h.writeBay

theorem landRows {b adm i first rows received} (h : SlotsFrom T wiped s) :
    SlotsFrom T wiped (s.landRows b adm i first rows received) := by
  unfold State.landRows
  split
  · refine h.ite ?_
    extract_lets _ _ s1
    have h1 : SlotsFrom T wiped s1 := h.ite (h.foldl fun _ _ hs => hs.foldl fun _ _ ht => ht.putRow)
    split
    · exact h1.setGather.setSlot.setTrain.ite h1.setGather.setSlot
    · exact h1.setGather.setSlot
  · exact h

theorem dropGather {b adm} (h : SlotsFrom T wiped s) : SlotsFrom T wiped (s.dropGather b adm) :=
  h.setTrain

theorem settleGather {b adm} (h : SlotsFrom T wiped s) : SlotsFrom T wiped (s.settleGather b adm) := by
  unfold State.settleGather
  split
  · exact h.dropGather.finishNat.ite h
  · exact h

theorem gatherPut {b adm st} (h : SlotsFrom T wiped s) : SlotsFrom T wiped (s.gatherPut b adm st) :=
  h.setGather.settleGather

theorem failGather {b adm st bytes} (h : SlotsFrom T wiped s) : SlotsFrom T wiped (s.failGather b adm st bytes) :=
  h.dropGather.finishNat

theorem sendGather {b adm p g x m} (h : SlotsFrom T wiped s) : SlotsFrom T wiped (s.sendGather b adm p g x m) :=
  h.emit.sendMsg

theorem spreadRows {b adm x src} (h : SlotsFrom T wiped s) : SlotsFrom T wiped (s.spreadRows b adm x src) := by
  unfold State.spreadRows
  split
  · split
    · exact h.ite ((h.landRows.setGather.ite h.landRows).foldl fun _ _ hs => hs.sendGather)
    · exact h.landRows
  · exact h

theorem sendEntry {b adm i} (h : SlotsFrom T wiped s) : SlotsFrom T wiped (State.sendEntry b adm s i) := by
  unfold State.sendEntry
  split
  · dsimp only
    split
    · exact h
    · refine h.ite (h.setGather.ite (h.ite ?_))
      split
      · exact (h.logBadReads.ite h).failGather
      · exact (h.countBay.ite h).raise.setGather.spreadRows
  · exact h

theorem announceGather {b g} (h : SlotsFrom T wiped s) : SlotsFrom T wiped (s.announceGather b g) := by
  unfold State.announceGather
  split
  · split
    · exact h.foldl fun _ _ hs => hs.foldl fun _ _ ht => ht.sendGather
    · exact h
  · exact h

theorem pumpGather {b adm} (h : SlotsFrom T wiped s) : SlotsFrom T wiped (State.pumpGather b s adm) := by
  unfold State.pumpGather
  split
  · exact h
  · exact (h.foldl fun _ _ hs => hs.sendEntry).settleGather

theorem pumpGathers {b} (h : SlotsFrom T wiped s) : SlotsFrom T wiped (s.pumpGathers b) :=
  h.foldl fun _ _ hs => hs.pumpGather

theorem takeRows {x} (h : SlotsFrom T wiped s) : SlotsFrom T wiped (s.takeRows x) := by
  unfold State.takeRows
  split
  · exact h
  · exact h.mismatch.ite (h.setGather.ite h.spreadRows).settleGather

theorem freeMsg {typ b group member} (h : SlotsFrom T wiped s) : SlotsFrom T wiped (s.freeMsg typ b group member) := by
  unfold State.freeMsg
  split
  · exact h.takeMsg
  · exact h

theorem execGatherSegment {g} (h : SlotsFrom T wiped s) : NextFrom T wiped (execGatherSegment g s) :=
  .next (h.freeMsg.takeRows.ite h.freeMsg.setTrain)

theorem execStepGather {hd step entries} : NextFrom s.slotTable wiped (execStepGather hd step entries s) := by
  unfold Machine.execStepGather
  refine .next (onRunning rfl fun _ ho h => ?_)
  split
  · exact h
  · split
    · exact h.fail
    · split
      · exact h.fail
      · exact h.fail.ite ((h.setActive ho).countBay.setTrain.announceGather.pumpGather.foldl fun _ _ hs => hs.takeRows)

theorem sweep {b adm x p limit} (h : SlotsFrom T wiped s) : SlotsFrom T wiped (State.sweep b adm x p limit s).1 := by
  unfold State.sweep
  extract_lets r1
  have h1 : SlotsFrom T wiped r1.1 := h.foldl_fst fun _ _ hs => hs.runTensor
  exact (h1.abortRecords.ite h1).pumpGathers

theorem stepUpdateEff {b c hp step clip stoch limit} (h : SlotsFrom T wiped s) :
    SlotsFrom T wiped (State.stepUpdateEff b c hp step clip stoch limit s).1 := by
  unfold State.stepUpdateEff
  dsimp only
  split
  · exact h
  · split
    · exact h
    · refine h.ite_fst ?_
      split
      · exact h
      · exact h.ite_fst h.sweep

theorem execStepUpdate {hd hpAddr step clip stoch} :
    NextFrom s.slotTable wiped (execStepUpdate hd hpAddr step clip stoch s) := by
  unfold Machine.execStepUpdate
  refine .next (onRunning rfl fun _ _ h => ?_)
  split
  · exact h.completeIn fun _ hs => hs.stepUpdateEff
  · exact h

theorem sendNorm {b adm p index opcode a} (h : SlotsFrom T wiped s) :
    SlotsFrom T wiped (s.sendNorm b adm p index opcode a) := by
  unfold State.sendNorm
  split
  · exact h.foldl fun _ _ hs => hs.emit.sendMsg
  · exact h

theorem settleNorm {b w p} (h : SlotsFrom T wiped s) : SlotsFrom T wiped (s.settleNorm b w p) :=
  h.ite h.raise.setTrain.finishNat

theorem settleArm {b p} (h : SlotsFrom T wiped s) : SlotsFrom T wiped (s.settleArm b p) := by
  unfold State.settleArm
  split
  · exact h
  · exact h.ite h.raise.setTrain.finishNat

theorem takeNorm {b index member a} (h : SlotsFrom T wiped s) : SlotsFrom T wiped (s.takeNorm b index member a) := by
  unfold State.takeNorm
  dsimp only
  split
  · exact h
  · split
    · exact h.ite h.setTrain.settleNorm
    · split
      · exact (h.ite h.setTrain.settleArm).ite h.setTrain
      · exact h.setTrain

theorem takeEarlyNorms {b index} (h : SlotsFrom T wiped s) : SlotsFrom T wiped (s.takeEarlyNorms b index) :=
  h.setTrain.foldl fun _ _ hs => hs.takeNorm

theorem execNormClip {hd group step maxNorm} :
    NextFrom s.slotTable wiped (execNormClip hd group step maxNorm s) := by
  unfold Machine.execNormClip
  refine .next (onRunning rfl fun _ ho h => ?_)
  split
  · exact h
  · split
    · exact h.fail
    · split
      · exact h.failIn
      · exact h.fail.ite (h.setActive ho).setTrain.sendNorm.settleNorm.takeEarlyNorms

theorem advanceEmpty {b p step} (h : SlotsFrom T wiped s) : SlotsFrom T wiped (s.advanceEmpty b p step) :=
  h.foldl fun _ _ hs => hs.ite hs.advance

theorem armNorm {b p} (h : SlotsFrom T wiped s) : SlotsFrom T wiped (s.armNorm b p) := by
  unfold State.armNorm
  split
  · exact h
  · exact h.setTrain.advanceEmpty.sendNorm.settleArm.ite h

theorem applySegment {b p a t gs} (h : SlotsFrom T wiped s) : SlotsFrom T wiped (s.applySegment b p a t gs) := by
  unfold State.applySegment
  dsimp only
  split
  · exact h.setTrain.runTensor.abortRecords.setTrain.failIn
  · exact h.setTrain.runTensor.pumpGathers.armNorm

theorem execUpdateSegmentArrival {bay tensorId elems} (h : SlotsFrom T wiped s) :
    NextFrom T wiped (execUpdateSegmentArrival bay tensorId elems s) := by
  unfold Machine.execUpdateSegmentArrival
  refine .next ?_
  split
  · split
    · exact h.applySegment.ite h
    · exact h
  · exact h

theorem execUpdateArm {hd hpAddr step group clip} :
    NextFrom s.slotTable wiped (execUpdateArm hd hpAddr step group clip s) := by
  unfold Machine.execUpdateArm
  refine .next (onRunning rfl fun _ ho h => ?_)
  split
  · exact h
  · dsimp only
    split
    · exact h.fail
    · split
      · exact h.failIn
      · exact h.fail.ite (h.fail.ite (h.setActive ho).raise.setTrain.armNorm.takeEarlyNorms)

theorem execUpdateDisarm {hd step} : NextFrom s.slotTable wiped (execUpdateDisarm hd step s) := by
  unfold Machine.execUpdateDisarm
  refine .next (onRunning rfl fun _ _ h => ?_)
  split
  · exact h
  · split
    · exact h.fail.ite (h.fail.ite h.setTrain.fail.finishNat)
    · exact h.fail

theorem exportEff {b dst maxBytes fromStep} (h : SlotsFrom T wiped s) :
    SlotsFrom T wiped (State.exportEff b dst maxBytes fromStep s).1 := by
  unfold State.exportEff
  split
  · exact h
  · split
    · exact h
    · exact h.ite_fst (h.useFree.ite h).putOut

theorem execExportStream {hd dst maxBytes fromStep} :
    NextFrom s.slotTable wiped (execExportStream hd dst maxBytes fromStep s) := by
  unfold Machine.execExportStream
  refine .next (onRunning rfl fun _ _ h => ?_)
  split
  · exact h.completeIn fun _ hs => hs.exportEff
  · exact h

/-! ### Machine/Collectives.lean -/

theorem setColl {b group index} {f : Coll → Coll} (h : SlotsFrom T wiped s) :
    SlotsFrom T wiped (s.setColl b group index f) :=
  h.setBay

theorem sendSeg {b g c final k m} (h : SlotsFrom T wiped s) : SlotsFrom T wiped (s.sendSeg b g c final k m) :=
  h.emit.sendMsg

theorem learnFinal {b g index k src} (h : SlotsFrom T wiped s) : SlotsFrom T wiped (s.learnFinal b g index k src) := by
  unfold State.learnFinal
  split
  · exact h
  · exact h.ite (h.setColl.foldl fun _ _ hs => hs.sendSeg)

theorem rootDone {b g c first vs} (h : SlotsFrom T wiped s) : SlotsFrom T wiped (s.rootDone b g c first vs) :=
  h.raise.learnFinal.ite (h.raise.foldl fun _ _ hs => hs.ite (hs.setColl.ite hs.sendSeg))

theorem reductionFault {group chunk} (h : SlotsFrom T wiped s) :
    SlotsFrom T wiped (s.reductionFault group chunk).2 := by
  unfold State.reductionFault
  split
  · exact h.update
  · exact h

theorem reduceChunk {b c cluster first l r} (h : SlotsFrom T wiped s) :
    SlotsFrom T wiped (s.reduceChunk b c cluster first l r).1 := by
  unfold State.reduceChunk
  refine h.reductionFault.raise.ite_fst ?_
  extract_lets _ _ logged corrected
  have hc : SlotsFrom T wiped corrected := h.reductionFault.raise.countBay.log1.setColl
  exact hc.ite_fst hc.askRetire.failAtRisk

theorem knowPartial {b g c k} (h : SlotsFrom T wiped s) : SlotsFrom T wiped (s.knowPartial b g c k) := by
  unfold State.knowPartial
  refine h.setColl.rootDone.ite ?_
  split
  · exact h.setColl.ite h.setColl.sendSeg
  · exact h.setColl

theorem addChunk {b g index first} (h : SlotsFrom T wiped s) :
    SlotsFrom T wiped (State.addChunk b g index first s).1 := by
  unfold State.addChunk
  split
  · exact h
  · refine h.foldl_fst fun _ _ hs => ?_
    split
    · split
      · dsimp only
        split
        · exact hs.reduceChunk.knowPartial
        · exact hs.reduceChunk
      · exact hs
    · exact hs

theorem endColl {b c st result} (h : SlotsFrom T wiped s) : SlotsFrom T wiped (s.endColl b c st result) := by
  unfold State.endColl
  dsimp only
  split
  · exact h.setBay.finishNat
  · exact h.setBay.firedEnd
  · exact h.setBay

theorem writeColl {b g c} (h : SlotsFrom T wiped s) : SlotsFrom T wiped (s.writeColl b g c).2 := by
  unfold State.writeColl
  dsimp only
  split
  · exact h.ite h.applySegment
  · split
    · exact h
    · exact h.foldl fun _ _ hs => hs.writeBay

theorem settleColl {b g index} (h : SlotsFrom T wiped s) : SlotsFrom T wiped (s.settleColl b g index) := by
  unfold State.settleColl
  split
  · exact h
  · exact h.writeColl.setGroup.endColl.ite h

theorem settleColls {b} (h : SlotsFrom T wiped s) : SlotsFrom T wiped (s.settleColls b) := by
  unfold State.settleColls
  refine h.foldl fun _ _ hs => ?_
  split
  · exact hs.settleColl
  · exact hs

theorem failColl {b group index st} (h : SlotsFrom T wiped s) : SlotsFrom T wiped (s.failColl b group index st) := by
  unfold State.failColl
  split
  · exact h.endColl
  · exact h

theorem startColl {b g c} (h : SlotsFrom T wiped s) : SlotsFrom T wiped (s.startColl b g c) := by
  unfold State.startColl
  extract_lets _ _ _ _ _ sent _ starts known added
  have hsent : SlotsFrom T wiped sent := h.setBay.foldl fun _ _ hs => hs.sendSeg
  have hknown : SlotsFrom T wiped known := hsent.foldl fun _ _ hs => hs.foldl fun _ _ ht => ht.knowPartial
  have hadded : SlotsFrom T wiped added.1 := hknown.foldl_fst fun _ _ hs => hs.addChunk.ite_fst hs
  refine (hadded.settleColl.ite hadded.failColl).ite
    ((hsent.foldl fun _ _ hs => hs.foldl fun _ _ ht => ht.learnFinal).settleColl.ite ?_)
  split
  · exact (hsent.foldl fun _ _ hs => hs.learnFinal).settleColl
  · exact hsent.settleColl

theorem takeSeg {x} (h : SlotsFrom T wiped s) : SlotsFrom T wiped (s.takeSeg x) := by
  unfold State.takeSeg
  split
  · exact h.mismatch.ite (h.setColl.settleColl.ite (h.setColl.learnFinal.settleColl.ite (h.setColl.ite
      (h.setColl.setColl.addChunk.settleColl.ite h.setColl.setColl.addChunk.failColl))))
  · exact h

theorem execCollectiveSegment {g} (h : SlotsFrom T wiped s) : NextFrom T wiped (execCollectiveSegment g s) :=
  .next (h.freeMsg.takeNorm.ite (h.freeMsg.takeSeg.ite (h.freeMsg.setBay.ite h.freeMsg)))

theorem takeEarlySegs {b group index} (h : SlotsFrom T wiped s) : SlotsFrom T wiped (s.takeEarlySegs b group index) :=
  h.setBay.foldl fun _ _ hs => hs.takeSeg

theorem runColl {hd c opcode o} (h : SlotsFrom T wiped s) (ho : T.Open hd.adm) :
    SlotsFrom T wiped (s.runColl hd c opcode o) := by
  unfold State.runColl
  split
  · exact h
  · split
    · exact h.fail
    · split
      · exact h.fail
      · split
        · exact h.failIn
        · exact (h.setActive ho).startColl.takeEarlySegs

theorem execCollAllreduce {hd o} : NextFrom s.slotTable wiped (execCollAllreduce hd o s) :=
  .next (onRunning rfl fun _ ho h => h.runColl ho)

theorem execCollAllgather {hd o} : NextFrom s.slotTable wiped (execCollAllgather hd o s) :=
  .next (onRunning rfl fun _ ho h => h.runColl ho)

theorem execCollReduceScatter {hd o} : NextFrom s.slotTable wiped (execCollReduceScatter hd o s) :=
  .next (onRunning rfl fun _ ho h => h.runColl ho)

theorem execCollBroadcast {hd o} : NextFrom s.slotTable wiped (execCollBroadcast hd o s) :=
  .next (onRunning rfl fun _ ho h => h.runColl ho)

theorem execCollSilentTimeout {bay group} (h : SlotsFrom T wiped s) :
    NextFrom T wiped (execCollSilentTimeout bay group s) := by
  unfold Machine.execCollSilentTimeout
  refine .next ?_
  split
  · exact h
  · dsimp only
    split
    · exact h.endColl.sendAbort.abortGroup
    · exact h

/-! ### Machine/Memory.lean -/

theorem copyLocal {b tag src dst n} (h : SlotsFrom T wiped s) :
    SlotsFrom T wiped (State.copyLocal b tag src dst n s).1 :=
  h.writeBay.logPoisonRead.ite h.writeBay

theorem memFillEff {b dst n pattern} (h : SlotsFrom T wiped s) :
    SlotsFrom T wiped (State.memFillEff b dst n pattern s).1 :=
  h.writeBay

theorem execMemFill {hd dst length pattern} :
    NextFrom s.slotTable wiped (execMemFill hd dst length pattern s) := by
  unfold Machine.execMemFill
  refine .next (onRunning rfl fun _ _ h => ?_)
  split
  · exact h.complete fun _ hs => hs.memFillEff
  · exact h

theorem memMapEff {b o} (h : SlotsFrom T wiped s) : SlotsFrom T wiped (State.memMapEff b o s).1 := by
  unfold State.memMapEff
  split
  · exact h
  · exact h.setBay

theorem execMemMap {hd o} : NextFrom s.slotTable wiped (execMemMap hd o s) := by
  unfold Machine.execMemMap
  refine .next (onRunning rfl fun _ _ h => ?_)
  split
  · exact h.complete fun _ hs => hs.memMapEff
  · exact h

theorem copyPage {src dst n} (h : SlotsFrom T wiped s) : SlotsFrom T wiped (s.copyPage src dst n) :=
  h.clearLoc.update

theorem movePage {b dest p} (h : SlotsFrom T wiped s) : SlotsFrom T wiped (s.movePage b dest p) := by
  unfold State.movePage
  split
  · exact h
  · exact h.copyPage.setBay

theorem movePages {b dest ps} (h : SlotsFrom T wiped s) : SlotsFrom T wiped (s.movePages b dest ps).1 := by
  induction ps generalizing s with
  | nil => exact h
  | cons p ps ih =>
    unfold State.movePages
    split
    · exact h
    · exact ih h.movePage

theorem memPlaceEff {b addr n dest} (h : SlotsFrom T wiped s) :
    SlotsFrom T wiped (State.memPlaceEff b addr n dest s).1 := by
  unfold State.memPlaceEff
  split
  · exact h
  · exact h.movePages

theorem execMemPlace {hd addr length dest} :
    NextFrom s.slotTable wiped (execMemPlace hd addr length dest s) := by
  unfold Machine.execMemPlace
  refine .next (onRunning rfl fun _ _ h => ?_)
  split
  · exact h.completeIn fun _ hs => hs.memPlaceEff
  · exact h

/-! ### Machine/Security.lean -/

theorem setKey {b slot k} (h : SlotsFrom T wiped s) : SlotsFrom T wiped (s.setKey b slot k) :=
  h.setBay

theorem keyLoadEff {b slot mode key} (h : SlotsFrom T wiped s) :
    SlotsFrom T wiped (State.keyLoadEff b slot mode key s).1 := by
  unfold State.keyLoadEff
  refine h.ite_fst (h.ite_fst ?_)
  split
  · exact h
  · exact h.setKey.setBay.ite h.setKey

theorem execKeyLoad {hd slot mode addr} : NextFrom s.slotTable wiped (execKeyLoad hd slot mode addr s) := by
  unfold Machine.execKeyLoad
  refine .next (onRunning rfl fun _ ho h => ?_)
  split
  · exact h
  · split
    · exact h.logBadReads.fail
    · exact (h.setActive ho).setSlot.ite (h.setSlot.ite (h.complete fun _ hs => hs.keyLoadEff))

theorem execKeyErase {hd slot} : NextFrom s.slotTable wiped (execKeyErase hd slot s) := by
  unfold Machine.execKeyErase
  refine .next (onRunning rfl fun _ _ h => ?_)
  split
  · exact h
  · exact h.fail.ite (h.ite (h.foldl fun _ _ hs => hs.setKey).finishNat)

/-- A KEY_LOAD that waits for the alarm has not finished when the step begins. -/
theorem execAlarmConditionCleared : NextFrom s.slotTable wiped (execAlarmConditionCleared s) := by
  refine .next (List.foldlRecOn (motive := SlotsFrom s.slotTable wiped) _ _ ?_ fun u hu c hc => ?_)
  · exact .ite (.update (.update .refl)) (.update .refl)
  · split
    · rename_i hd slot mode addr b hi hb
      have hadm : c.adm = hd.adm := by simp [Slot.adm, Slot.hdr, hi, hdrOf]
      obtain ⟨hmem, hactive⟩ := List.mem_filter.1 hc
      have ho : s.slotTable.Open hd.adm :=
        ⟨c, by split at hmem <;> exact hmem, hadm, by rw [Slot.finished?, eq_of_beq hactive]⟩
      exact (hu.setRunning ho).ite (hu.complete fun _ ht => ht.keyLoadEff)
    · exact hu

theorem strikeCipher {b tag} (h : SlotsFrom T wiped s) : SlotsFrom T wiped (s.strikeCipher b tag) :=
  h.update.foldl fun _ _ hs => hs.countBay.log1

theorem cipherEff {b o} (h : SlotsFrom T wiped s) : SlotsFrom T wiped (State.cipherEff b o s).1 := by
  unfold State.cipherEff
  refine h.ite_fst ?_
  split
  · exact h
  · dsimp only
    split
    · exact h
    · split
      · exact h
      · split
        · split
          · exact h.writeBay
          · exact h.writeBay
        · dsimp only
          exact h.writeBay.writeBay
      · dsimp only
        exact h.writeBay

theorem execCipherRun {hd o} : NextFrom s.slotTable wiped (execCipherRun hd o s) := by
  unfold Machine.execCipherRun
  refine .next (onRunning rfl fun _ _ h => ?_)
  split
  · exact h.completeIn fun _ hs => hs.cipherEff.strikeCipher.ite_fst hs.cipherEff
  · exact h

theorem digestEff {b src dst length} (h : SlotsFrom T wiped s) :
    SlotsFrom T wiped (State.digestEff b src dst length s).1 := by
  unfold State.digestEff
  split
  · exact h
  · exact h.writeBay

theorem execDigestRun {hd src dst length} : NextFrom s.slotTable wiped (execDigestRun hd src dst length s) := by
  unfold Machine.execDigestRun
  refine .next (onRunning rfl fun _ _ h => ?_)
  split
  · exact h.completeIn fun _ hs => hs.digestEff
  · exact h

theorem serveOne (h : SlotsFrom T wiped s) : SlotsFrom T wiped s.serveOne := by
  unfold State.serveOne
  split
  · exact h
  · split
    · exact h
    · exact h.ite (h.update.complete fun _ hs => hs.putOut)

theorem serveAll {n} (h : SlotsFrom T wiped s) : SlotsFrom T wiped (State.serveAll n s) := by
  induction n generalizing s with
  | zero => exact h
  | succ n ih => exact ih h.serveOne

theorem execEntropyRead {hd dst length} : NextFrom s.slotTable wiped (execEntropyRead hd dst length s) := by
  unfold Machine.execEntropyRead
  refine .next (onRunning rfl fun _ ho h => ?_)
  split
  · exact h
  · exact h.fail.ite (h.fail.ite (h.setActive ho).update.serveAll)

theorem trngFail (h : SlotsFrom T wiped s) : SlotsFrom T wiped s.trngFail :=
  (h.update.foldl fun _ _ hs => hs.fail).log1.ite (h.update.foldl fun _ _ hs => hs.fail)

theorem execTrngOutput {samples} (h : SlotsFrom T wiped s) : NextFrom T wiped (execTrngOutput samples s) :=
  .next ((h.trngFail.ite (h.update.update.serveAll.ite h.update)).ite h)

theorem execTrngHealthFailure (h : SlotsFrom T wiped s) : NextFrom T wiped (execTrngHealthFailure s) :=
  .next h.trngFail

theorem execTrngStartupDone (h : SlotsFrom T wiped s) : NextFrom T wiped (execTrngStartupDone s) :=
  .next (h.ite h.update)

/-! ### Machine/Cuts.lean -/

theorem setCkpt {b} {f : Ckpt → Ckpt} (h : SlotsFrom T wiped s) : SlotsFrom T wiped (s.setCkpt b f) :=
  h.setBay

theorem setCut {b} {f : Cut → Cut} (h : SlotsFrom T wiped s) : SlotsFrom T wiped (s.setCut b f) :=
  h.setCkpt

theorem beginCopy {b step} (h : SlotsFrom T wiped s) : SlotsFrom T wiped (s.beginCopy b step) :=
  h.setCut

theorem discardCut {b} (h : SlotsFrom T wiped s) : SlotsFrom T wiped (s.discardCut b) :=
  h.setCkpt

theorem copyKerf {b ks} (h : SlotsFrom T wiped s) : SlotsFrom T wiped (s.copyKerf b ks) :=
  h.foldl fun _ _ hs => hs.writeAcc

theorem takePredictive {b} (h : SlotsFrom T wiped s) : SlotsFrom T wiped (s.takePredictive b) := by
  unfold State.takePredictive
  dsimp only
  split
  · exact h.log2
  · exact h.log2
  · exact h.log2.ite (h.log2.ite h.setCkpt)

theorem execPredictiveCut {bay} (h : SlotsFrom T wiped s) : NextFrom T wiped (execPredictiveCut bay s) :=
  .next (h.setBay.takePredictive.ite h)

theorem drained {b adm mark} (h : SlotsFrom T wiped s) : SlotsFrom T wiped (s.drained b adm mark) :=
  h.setCkpt

theorem endDrain {b adm st result mark} (h : SlotsFrom T wiped s) :
    SlotsFrom T wiped (s.endDrain b adm st result mark) :=
  (h.drained.ite h.setCut).finishNat

theorem strikeCodec {b len adm fs} (h : SlotsFrom T wiped s) :
    SlotsFrom T wiped (State.strikeCodec b len adm fs s).2 := by
  induction fs generalizing s with
  | nil => exact h
  | cons f fs ih =>
    have struck : ∀ r, SlotsFrom T wiped (match adm with
        | some a => (((s.countBay b 15 1).countBay b 4 (encodeCycles len)).log1 r).markCorrected a
        | none => ((s.countBay b 15 1).countBay b 4 (encodeCycles len)).log1 r) := fun r => by
      split
      · exact h.countBay.countBay.log1.markCorrected
      · exact h.countBay.countBay.log1
    unfold State.strikeCodec
    split
    · exact h
    · split
      · exact ih h
      · dsimp only
        split
        · exact struck _
        · exact ih (struck _).update.countBay.log12

theorem useCodec {b len adm} (h : SlotsFrom T wiped s) : SlotsFrom T wiped (s.useCodec b len adm).1 :=
  h.ite_fst h.strikeCodec.update

theorem useCodecs {b adm ls} (h : SlotsFrom T wiped s) : SlotsFrom T wiped (State.useCodecs b adm ls s).1 := by
  induction ls generalizing s with
  | nil => exact h
  | cons len ls ih =>
    unfold State.useCodecs
    dsimp only
    split
    · exact ih h.useCodec
    · exact h.useCodec

/-! ### Machine/Transfers.lean -/

theorem endXfer {b x} (h : SlotsFrom T wiped s) : SlotsFrom T wiped (s.endXfer b x) := by
  unfold State.endXfer
  split
  · split
    · split
      · exact h.endDrain
      · exact h.gatherPut
      · exact h.finishNat
    · exact h
  · exact h.firedEnd
  · exact h

theorem putXfer {b i x} (h : SlotsFrom T wiped s) : SlotsFrom T wiped (s.putXfer b i x) :=
  h.setBay.endXfer.ite h.setBay

theorem sendChunks {b g x m} {data : Nat → Nat → List Byte}
    {bad : Nat → Nat → Option Nat} (h : SlotsFrom T wiped s) : SlotsFrom T wiped (s.sendChunks b g x m data bad) :=
  (h.setBay.foldl fun _ _ hs => hs.sendTo).putXfer

theorem askChunks {b g x m} (h : SlotsFrom T wiped s) : SlotsFrom T wiped (s.askChunks b g x m) :=
  h.setBay.foldl fun _ _ hs => hs.sendTo

theorem startXfer {b group vc adm trig src dst n} (h : SlotsFrom T wiped s) :
    SlotsFrom T wiped (s.startXfer b group vc adm trig src dst n) := by
  unfold State.startXfer
  dsimp only
  split
  · exact h.endXfer
  · refine h.endXfer.ite ?_
    split
    · exact h.askChunks
    · refine .sendChunks ?_
      split
      · exact (h.lateReads.ite h).logBadReads.ite (h.lateReads.ite h)
      · exact h.lateReads.ite h
    · exact h.endXfer

theorem execMemCopy {hd src dst length} : NextFrom s.slotTable wiped (execMemCopy hd src dst length s) := by
  unfold Machine.execMemCopy
  refine .next (onRunning rfl fun _ ho h => ?_)
  split
  · exact h
  · exact (h.complete fun _ hs => hs.copyLocal).ite (h.setActive ho).startXfer

theorem answer {p code data} (h : SlotsFrom T wiped s) : SlotsFrom T wiped (s.answer p code data) :=
  h.sendPacket

theorem execFabricWrite {p} (h : SlotsFrom T wiped s) : NextFrom T wiped (execFabricWrite p s) :=
  .next (h.ite (h.takePacket.answer.ite h.takePacket.writeBay.answer))

theorem execReadRequest {p} (h : SlotsFrom T wiped s) : NextFrom T wiped (execReadRequest p s) :=
  .next (h.ite (h.takePacket.answer.ite (h.takePacket.logBadReads.answer.ite h.takePacket.lateReads.answer)))

theorem landChunk {b a bs} (h : SlotsFrom T wiped s) : SlotsFrom T wiped (s.landChunk b a bs).1 :=
  h.ite_fst h.writeBay

theorem execReadResponse {p} (h : SlotsFrom T wiped s) : NextFrom T wiped (execReadResponse p s) := by
  unfold Machine.execReadResponse
  refine .next (h.ite ?_)
  dsimp only
  split
  · exact h.takePacket
  · split
    · exact h.takePacket
    · refine h.takePacket.putXfer.ite ?_
      split
      · exact h.takePacket.landChunk.putXfer
      · exact h.takePacket.setBay.sendTo

theorem execCounterAdd {p} (h : SlotsFrom T wiped s) : NextFrom T wiped (execCounterAdd p s) :=
  .next (h.ite (h.takePacket.ite h.takePacket.bump))

theorem execTriggerArm {hd t} : NextFrom s.slotTable wiped (execTriggerArm hd t s) := by
  unfold Machine.execTriggerArm
  refine .next (onRunning rfl fun _ _ h => ?_)
  split
  · exact h
  · split
    · exact h.fail
    · exact h.setBay.finishNat

theorem execTriggerDisarm {hd handle} : NextFrom s.slotTable wiped (execTriggerDisarm hd handle s) := by
  unfold Machine.execTriggerDisarm
  refine .next (onRunning rfl fun _ _ h => ?_)
  split
  · exact h
  · split
    · exact h.fail
    · exact h.fail.ite h.setBay.finishNat

theorem fireColl {b t} (h : SlotsFrom T wiped s) : SlotsFrom T wiped (s.fireColl b t) := by
  unfold State.fireColl
  dsimp only
  split
  · split
    · exact h.setGroup.firedEnd
    · exact h.setGroup.startColl.takeEarlySegs
  · exact h.firedEnd

theorem fireEffect {b t} (h : SlotsFrom T wiped s) : SlotsFrom T wiped (s.fireEffect b t) := by
  unfold State.fireEffect
  dsimp only
  split
  · exact h.addAt.firedEnd.ite h.firedEnd
  · exact h.fireColl
  · exact h.bump.firedEnd
  · exact h.copyLocal.firedEnd.ite h.startXfer

theorem afterFire {b handle} (h : SlotsFrom T wiped s) : SlotsFrom T wiped (s.afterFire b handle) :=
  h.setBay

theorem execTriggerFire {bay handle} (h : SlotsFrom T wiped s) : NextFrom T wiped (execTriggerFire bay handle s) := by
  unfold Machine.execTriggerFire
  refine .next ?_
  split
  · exact h
  · exact h.ite (h.afterFire.passErr.ite h.afterFire.fireEffect)

/-! ### Machine/Checkpoint.lean -/

theorem execCkptCut {hd cutId blk} : NextFrom s.slotTable wiped (execCkptCut hd cutId blk s) := by
  unfold Machine.execCkptCut
  refine .next (onRunning rfl fun _ ho h => ?_)
  split
  · exact h
  · split
    · exact h.fail
    · refine h.finishNat.ite ?_
      dsimp only
      split
      · exact (h.setActive ho).setCkpt.beginCopy
      · exact (h.setActive ho).setCkpt

theorem drainLocal {b adm path dst out} (h : SlotsFrom T wiped s) :
    SlotsFrom T wiped (State.drainLocal b adm path dst out s).1 :=
  h.ite_fst h.writeBay

theorem logDrain {b tag rs} (h : SlotsFrom T wiped s) : SlotsFrom T wiped (s.logDrain b tag rs) := by
  unfold State.logDrain
  split
  · exact h.logBadReads
  · exact h

theorem execCkptDrain {hd dst cutId path slot} :
    NextFrom s.slotTable wiped (execCkptDrain hd dst cutId path slot s) := by
  unfold Machine.execCkptDrain
  refine .next (onRunning rfl fun _ ho h => ?_)
  split
  · exact h
  · split
    · exact h.fail
    · split
      · exact h.fail
      · dsimp only
        split
        · exact (h.logDrain.ite h).fail
        · refine h.useCodecs.fail.ite ?_
          split
          · exact (h.useCodecs.setActive ho).setSlot.setCut.sendChunks
          · exact h.useCodecs.fail
          · exact h.useCodecs.setCut.drainLocal.endDrain

theorem execCkptRelease {hd cutId} : NextFrom s.slotTable wiped (execCkptRelease hd cutId s) := by
  unfold Machine.execCkptRelease
  refine .next (onRunning rfl fun _ _ h => ?_)
  split
  · exact h
  · split
    · exact h.fail
    · refine h.fail.ite (h.fail.ite (.finishNat ?_))
      split
      · exact h.discardCut.settleColls.fail.ite h.discardCut.settleColls
      · exact h.discardCut.settleColls

theorem verifyEff {b manifest src slot} (h : SlotsFrom T wiped s) :
    SlotsFrom T wiped (State.verifyEff b manifest src slot s).1 := by
  unfold State.verifyEff
  split
  · exact h
  · dsimp only
    split
    · exact h
    · exact h.ite_fst h

theorem execCkptVerify {hd manifest src slot} :
    NextFrom s.slotTable wiped (execCkptVerify hd manifest src slot s) := by
  unfold Machine.execCkptVerify
  refine .next (onRunning rfl fun _ _ h => ?_)
  split
  · exact h.completeIn fun _ hs => hs.verifyEff
  · exact h

theorem writeBlocks {b p xs} (h : SlotsFrom T wiped s) : SlotsFrom T wiped (s.writeBlocks b p xs) := by
  unfold State.writeBlocks
  refine h.foldl fun _ _ hs => ?_
  split
  · exact hs.writeBay
  · exact hs

theorem logOrigin {b m} (h : SlotsFrom T wiped s) : SlotsFrom T wiped (s.logOrigin b m) :=
  h.log2.ite h

theorem afterRestore {b p step m} (h : SlotsFrom T wiped s) : SlotsFrom T wiped (s.afterRestore b p step m) :=
  (h.setTrain.foldl fun _ _ hs => hs.diffRecord).markDirty.setCkpt.logOrigin

theorem freeBlocks {b p xs} (h : SlotsFrom T wiped s) : SlotsFrom T wiped (s.freeBlocks b p xs) := by
  unfold State.freeBlocks
  refine h.foldl fun _ _ hs => ?_
  split
  · exact hs.writeBay.useFree
  · exact hs

theorem restorePass {b p m src xs} (h : SlotsFrom T wiped s) : SlotsFrom T wiped (State.restorePass b p m src xs s).1 :=
  h.writeBlocks.afterRestore.ite_fst h.freeBlocks.setTrain

theorem restoreEff {b adm manifest src slot} (h : SlotsFrom T wiped s) :
    SlotsFrom T wiped (State.restoreEff b adm manifest src slot s).1 := by
  unfold State.restoreEff
  dsimp only
  split
  · exact h.setCkpt
  · refine h.setCkpt.ite_fst ?_
    split
    · exact h.setCkpt
    · refine h.setCkpt.ite_fst (h.setCkpt.ite_fst ?_)
      split
      · exact h.setCkpt
      · split
        · exact h.setCkpt
        · exact h.setCkpt.restorePass

theorem execCkptRestore {hd manifest src slot} :
    NextFrom s.slotTable wiped (execCkptRestore hd manifest src slot s) := by
  unfold Machine.execCkptRestore
  refine .next (onRunning rfl fun _ _ h => ?_)
  split
  · exact h.completeIn fun _ hs => hs.restoreEff
  · exact h

/-! ### Machine/Perform.lean -/

theorem mixMatmul {t : State} {b m} (h : SlotsFrom T wiped s) : SlotsFrom T wiped (s.mixMatmul t b m) := by
  unfold State.mixMatmul
  extract_lets _ s1
  have h1 : SlotsFrom T wiped s1 := h.foldl fun _ _ hs => (hs.foldl fun _ _ ht => ht.writeBay).ite hs
  exact h1.useFree.mixed.ite h1.useFree

theorem mixFlags {t : State} {b} (h : SlotsFrom T wiped s) : SlotsFrom T wiped (s.mixFlags t b) :=
  h.raise.useFree

theorem endRunning {b c} (h : SlotsFrom T wiped s) : SlotsFrom T wiped (s.endRunning b c).1 := by
  unfold State.endRunning
  split
  · exact h.ite_fst h.setBay.useFree
  · exact h.ite_fst h.useFree.movePages
  · exact h.useFree.stepUpdateEff
  · split
    · exact h.useFree.mixMatmul.mixFlags
    · exact h
  · split
    · exact h.useFree.mixed.mixFlags
    · exact h

theorem endActive {b c st} (h : SlotsFrom T wiped s) : SlotsFrom T wiped (s.endActive b c st).1 := by
  unfold State.endActive
  dsimp only
  split
  · exact h.setBay
  · exact h.stopFields.ite_fst h.stopLaunch
  · exact h.setTrain
  · exact h.setTrain
  · split
    · exact (h.abortRecords.ite h).setTrain.ite_fst h
    · exact h
  · exact h.setSq
  · exact h.discardCut
  · exact h.setCut.setBay
  · exact h.setBay
  · exact h.update
  · exact h.setBay
  · exact h.setBay
  · exact h.setBay
  · exact h.setBay
  · exact h

theorem dropWaits {b adm} (h : SlotsFrom T wiped s) : SlotsFrom T wiped (s.dropWaits b adm) :=
  h.setBay

theorem cutShort {b st adm} (h : SlotsFrom T wiped s) : SlotsFrom T wiped (s.cutShort b st adm) := by
  unfold State.cutShort
  dsimp only
  split
  · exact h.dropWaits
  · split
    · exact h.dropWaits.endRunning.finishNat
    · exact h.dropWaits.endActive.finishNat
    · exact h.dropWaits.finishNat
    · exact h.dropWaits

/-! ### Machine/Bays.lean -/

theorem setFlow {b} {f : Machine.Flow → Machine.Flow} (h : SlotsFrom T wiped s) : SlotsFrom T wiped (s.setFlow b f) :=
  h.setBay

theorem cutBayDma {b} (h : SlotsFrom T wiped s) : SlotsFrom T wiped (s.cutBayDma b) :=
  h.foldl fun _ _ hs => hs.cutChannels

theorem halt {b quiet} (h : SlotsFrom T wiped s) : SlotsFrom T wiped (s.halt b quiet).1 := by
  unfold State.halt
  extract_lets _ _ s0 _ _ _ _ s1
  have h0 : SlotsFrom T wiped s0 := .ite (h.setFlow.note fun c => by split <;> exact ⟨⟨rfl, rfl⟩, rfl⟩) h.setFlow
  have h1 : SlotsFrom T wiped s1 := ((h0.foldl fun _ _ hs => hs.sendAbort).foldl
    fun _ _ hs => hs.cutShort).setBay.foldl fun _ _ hs => hs.abortGroup
  exact h1.cutBayDma.discardCut.ite h1.cutBayDma

theorem releaseUrg {adm} (h : SlotsFrom T wiped s) : SlotsFrom T wiped (s.releaseUrg adm) :=
  h.update.ite h

theorem finishUrg {adm st result} (h : SlotsFrom T wiped s) : SlotsFrom T wiped (s.finishUrg adm st result) :=
  h.finishNat.releaseUrg

theorem endEvict {b st result} (h : SlotsFrom T wiped s) : SlotsFrom T wiped (s.endEvict b st result) := by
  unfold State.endEvict
  dsimp only
  split
  · exact h.setFlow.enter.finishUrg
  · exact h.setFlow.enter

theorem evictCut {b} (h : SlotsFrom T wiped s) : SlotsFrom T wiped (s.evictCut b) := by
  unfold State.evictCut
  dsimp only
  split
  · refine .beginCopy (.setCkpt ?_)
    split
    · exact h.log2
    · exact h
  · exact h.endEvict
  · exact h.endEvict

theorem evictHalted {b adm id} (h : SlotsFrom T wiped s) : SlotsFrom T wiped (s.evictHalted b adm id) := by
  unfold State.evictHalted
  split
  · exact h.finishUrg
  · exact h.setFlow.enter.releaseUrg.evictCut

theorem clearCluster {p} (h : SlotsFrom T wiped s) : SlotsFrom T wiped (s.clearCluster p) :=
  h.update.clearLoc.clearLoc

theorem markZero {gs} (h : SlotsFrom T wiped s) : SlotsFrom T wiped (s.markZero gs) :=
  h.update

theorem knockDown {b} (h : SlotsFrom T wiped s) : SlotsFrom T wiped (s.knockDown b) :=
  h.ite (h.setBay.enter.ite h.setBay)

theorem clearBay {b} (h : SlotsFrom T wiped s) : SlotsFrom T wiped (s.clearBay b) :=
  (h.foldl fun _ _ hs => hs.sendAbort).dropSlots.setBay.knockDown

theorem scrubBay {b} (h : SlotsFrom T wiped s) : SlotsFrom T wiped (s.scrubBay b) :=
  (h.markZero.foldl fun _ _ hs => hs.clearCluster).setBay

theorem toUnbound {b} (h : SlotsFrom T wiped s) : SlotsFrom T wiped (s.toUnbound b) :=
  (h.foldl fun _ _ hs => hs.sendAbort).dropSlots.setBay.enter

theorem beginReset {b adm scrub} (h : SlotsFrom T wiped s) : SlotsFrom T wiped (s.beginReset b adm scrub) :=
  (h.halt.ite h.setFlow).setFlow.enter

theorem resetBay {b adm scrub} (h : SlotsFrom T wiped s) : SlotsFrom T wiped (s.resetBay b adm scrub) := by
  unfold State.resetBay
  dsimp only
  split
  · split
    · exact h.finishNat
    · exact h
  · split
    · exact h.knockDown.finishNat
    · exact h.knockDown
  · exact h.beginReset
  · exact h.beginReset
  · exact h.setFlow
  · exact h.setFlow

theorem execBayReset {hd bay scrub} : NextFrom s.slotTable wiped (execBayReset hd bay scrub s) :=
  .next (onRunning rfl fun _ ho h => h.fail.ite (h.setActive ho).resetBay)

theorem endHalts {b} (h : SlotsFrom T wiped s) : SlotsFrom T wiped (s.endHalts b) :=
  h.setFlow.foldl fun _ _ hs => hs.finishNat

theorem afterHalted {b} (h : SlotsFrom T wiped s) : SlotsFrom T wiped (s.afterHalted b) := by
  unfold State.afterHalted
  dsimp only
  split
  · exact h.setFlow.beginReset
  · exact h.setFlow.evictHalted
  · exact h

theorem endReset {b adm scrub wasActive} (h : SlotsFrom T wiped s) :
    SlotsFrom T wiped (s.endReset b adm scrub wasActive) := by
  unfold State.endReset
  dsimp only
  split
  · exact ((h.enter.clearBay.scrubBay.ite h.enter.clearBay).setFlow.enter.ite (h.enter.clearBay.scrubBay.ite
      h.enter.clearBay).setFlow).finishNat
  · exact (h.enter.clearBay.scrubBay.ite h.enter.clearBay).setFlow.enter.ite (h.enter.clearBay.scrubBay.ite
      h.enter.clearBay).setFlow

theorem execBayHalted {bay} (h : SlotsFrom T wiped s) : NextFrom T wiped (execBayHalted bay s) := by
  unfold Machine.execBayHalted
  refine .next ?_
  split
  · split
    · exact h.endHalts.endReset.afterHalted
    · exact h.enter.setFlow.endHalts.afterHalted
  · exact h.ite (h.endEvict.afterHalted.ite (h.evictCut.afterHalted.ite h.evictCut))
  · exact h

theorem execHaltBay {hd bay} : NextFrom s.slotTable wiped (execHaltBay hd bay s) := by
  unfold Machine.execHaltBay
  refine .next (onRunning rfl fun _ ho h => h.finishUrg.ite ?_)
  split
  · exact h.finishUrg
  · exact h.finishUrg
  · exact h.finishUrg
  · exact h.finishUrg
  · split
    · exact (h.setActive ho).halt.setFlow.enter.releaseUrg
    · exact (h.setActive ho).setFlow.releaseUrg
    · exact h.finishUrg

theorem execEvictBay {hd bay cutId} : NextFrom s.slotTable wiped (execEvictBay hd bay cutId s) := by
  unfold Machine.execEvictBay
  refine .next (onRunning rfl fun _ ho h => h.finishUrg.ite ?_)
  split
  · exact h.finishUrg
  · exact h.finishUrg
  · exact h.finishUrg
  · split
    · split
      · exact h.finishUrg
      · exact (h.setActive ho).setFlow.enter.releaseUrg.halt.ite (h.setActive ho).setFlow.enter.releaseUrg
    · exact (h.setActive ho).evictHalted
    · exact (h.setActive ho).setFlow
    · exact h.finishUrg
    · exact h.finishUrg
    · exact h.finishUrg

theorem execResumeBay {hd bay} : NextFrom s.slotTable wiped (execResumeBay hd bay s) := by
  unfold Machine.execResumeBay
  refine .next (onRunning rfl fun _ _ h => h.finishUrg.ite ?_)
  split
  · exact h.finishUrg
  · exact (h.enter.ite h).finishUrg
  · exact h.finishUrg
  · exact h.finishUrg
  · exact h.finishUrg
  · exact h.finishUrg

theorem execHaltMemoryAbsorb {bay accesses} (h : SlotsFrom T wiped s) :
    NextFrom T wiped (execHaltMemoryAbsorb bay accesses s) :=
  .next (h.countBay.ite h)

theorem execHaltFlushLate {bay} (h : SlotsFrom T wiped s) : NextFrom T wiped (execHaltFlushLate bay s) :=
  .next (h.countBay.ite h)

theorem execEvictBoundaryReached {bay} (h : SlotsFrom T wiped s) : NextFrom T wiped (execEvictBoundaryReached bay s) :=
  .next (h.halt.ite h)

theorem execEvictTimeout {bay} (h : SlotsFrom T wiped s) : NextFrom T wiped (execEvictTimeout bay s) := by
  unfold Machine.execEvictTimeout
  refine .next ?_
  split
  · exact h.log2.setFlow.halt.ite h
  · exact h

theorem goFatal {kind} (h : SlotsFrom T wiped s) : SlotsFrom T wiped (s.goFatal kind) :=
  h.update.devCause.log1.useFree.foldl fun _ _ hs => hs.foldl fun _ _ ht => ht.cutShort

theorem failCut {b c st} (h : SlotsFrom T wiped s) : SlotsFrom T wiped (s.failCut b c st) := by
  unfold State.failCut
  refine h.discardCut.settleColls.endEvict.afterHalted.ite ?_
  split
  · exact h.discardCut.settleColls.fail
  · exact h.discardCut.settleColls

theorem finishCut {b c p} (h : SlotsFrom T wiped s) : SlotsFrom T wiped (s.finishCut b c p) := by
  unfold State.finishCut
  refine h.failCut.ite (h.failCut.ite ?_)
  dsimp only
  split
  · exact (h.logBadReads.ite h).failCut
  · refine h.copyKerf.setCut.settleColls.endEvict.afterHalted.ite ?_
    split
    · exact h.copyKerf.setCut.settleColls.finishNat
    · exact h.copyKerf.setCut.settleColls.log2.bayEvent

theorem execCutCopy {bay} (h : SlotsFrom T wiped s) : NextFrom T wiped (execCutCopy bay s) := by
  unfold Machine.execCutCopy
  refine .next ?_
  split
  · exact h
  · split
    · exact h.beginCopy
    · exact h.finishCut
    · exact h

/-! ### Machine/Binding.lean -/

theorem leaveUnbound {b} (h : SlotsFrom T wiped s) : SlotsFrom T wiped (s.leaveUnbound b) :=
  h.setBay.enter

theorem execTxnBegin {hd bay} : NextFrom s.slotTable wiped (execTxnBegin hd bay s) :=
  .next (onRunning rfl fun _ _ h => h.fail.ite (h.fail.ite (h.setBay.leaveUnbound.ite h.setBay).finishNat))

theorem execTxnRollback {hd bay} : NextFrom s.slotTable wiped (execTxnRollback hd bay s) := by
  unfold Machine.execTxnRollback
  refine .next (onRunning rfl fun _ _ h => h.fail.ite ?_)
  split
  · exact h.fail
  · exact h.knockDown.finishNat

theorem stage {adm bay i} (h : SlotsFrom T wiped s) : SlotsFrom T wiped (s.stage adm bay i) := by
  unfold State.stage
  split
  · exact h.fail
  · split
    · exact h.fail
    · exact h.fail.ite h.setBay.finishNat

theorem execBindCluster {hd bay unbind mask} :
    NextFrom s.slotTable wiped (execBindCluster hd bay unbind mask s) :=
  .next (onRunning rfl fun _ _ h => h.stage)

theorem execBindMemory {hd bay unbind first count} :
    NextFrom s.slotTable wiped (execBindMemory hd bay unbind first count s) :=
  .next (onRunning rfl fun _ _ h => h.stage)

theorem execBindShares {hd bay o} : NextFrom s.slotTable wiped (execBindShares hd bay o s) :=
  .next (onRunning rfl fun _ _ h => h.stage)

theorem beginPeg {b adm drainUs r} (h : SlotsFrom T wiped s) : SlotsFrom T wiped (s.beginPeg b adm drainUs r) :=
  (h.setBay.note fun c => by split <;> exact ⟨⟨rfl, rfl⟩, rfl⟩).update

theorem execTxnCommit {hd bay drainUs} : NextFrom s.slotTable wiped (execTxnCommit hd bay drainUs s) := by
  unfold Machine.execTxnCommit
  refine .next (onRunning rfl fun _ ho h => h.fail.ite ?_)
  dsimp only
  split
  · exact h.fail
  · refine h.ite ((h.setBay.enter.ite h.setBay).finishNat.ite ?_)
    split
    · exact h.knockDown.finishNat
    · exact (h.setActive ho).beginPeg

theorem underOld {p} {f : State → State × Nat} (h : SlotsFrom T wiped s)
    (hf : ∀ a, SlotsFrom T wiped a → SlotsFrom T wiped (f a).1) : SlotsFrom T wiped (s.underOld p f).1 :=
  (hf _ h.setBay).setBay

theorem giveUp {b c} (h : SlotsFrom T wiped s) : SlotsFrom T wiped (State.giveUp b c s).1 := by
  unfold State.giveUp
  split
  · exact h.endRunning
  · split
    · exact h.stopFields.foldl fun _ _ hs => hs.cutChannels
    · exact h.endActive

theorem rebind {p c} (h : SlotsFrom T wiped s) : SlotsFrom T wiped (State.rebind p s c) :=
  (h.underOld fun _ hs => hs.giveUp).finishNat

theorem execPegDrainLimit (h : SlotsFrom T wiped s) : NextFrom T wiped (execPegDrainLimit s) := by
  unfold Machine.execPegDrainLimit
  refine .next ?_
  split
  · exact h
  · exact h.ite ((h.useFree.ite h.useFree.useFree).foldl fun _ _ hs => hs.rebind).note.update

theorem afterPeg {b} (h : SlotsFrom T wiped s) : SlotsFrom T wiped (s.afterPeg b) := by
  unfold State.afterPeg
  dsimp only
  split
  · exact h.enter
  · exact h.enter
  · exact h.toUnbound
  · exact h

theorem execPegComplete (h : SlotsFrom T wiped s) : NextFrom T wiped (execPegComplete s) := by
  unfold Machine.execPegComplete
  refine .next ?_
  split
  · exact h
  · exact h.ite (h.foldl fun _ _ hs => hs.clearCluster).markZero.note.update.afterPeg.finishNat

/-! ### Machine/Joiner.lean -/

/-- The slots are the same. -/
theorem of_slotTable (h : SlotsFrom T wiped s) (e : t.slotTable = s.slotTable) : SlotsFrom T wiped t := by
  unfold SlotsFrom
  rw [e]
  exact h

end SlotsFrom

theorem Machine.State.dropReuse_slotTable (s : State) (b : Nat) (i : Instr) :
    (s.dropReuse b i).slotTable = s.slotTable := by
  unfold State.dropReuse
  split <;> rfl

theorem Machine.State.noteLayout_slotTable (s : State) (b : Nat) (i : Instr) :
    (s.noteLayout b i).slotTable = s.slotTable := by
  unfold State.noteLayout
  split <;> rfl

theorem Machine.State.takeIndex_slotTable (s : State) (b : Nat) (i : Instr) :
    (s.takeIndex b i).2.slotTable = s.slotTable := by
  unfold State.takeIndex
  dsimp only
  split <;> rfl

/-- The command built from an entry has the entry's header. -/
theorem hdrOf_buildInstr {code : Nat} {h : Hdr} {e k : List Byte} {i : Instr} (hi : buildInstr code h e k = some i) :
    hdrOf i = some h := by
  unfold buildInstr at hi
  split at hi <;> cases hi <;> rfl

/-- What passes admission has the header of its entry. -/
theorem hdrOf_admission {s : State} {org : Origin} {h : Hdr} {e : List Byte} {i : Instr}
    (hi : s.admission org h e = .inr i) : hdrOf i = some h := by
  unfold State.admission at hi
  dsimp only at hi
  -- every check that fails answers a status
  repeat
    split at hi
    · cases hi
  rename_i hb _ _
  cases hi
  exact hdrOf_buildInstr hb

namespace SlotsFrom


variable {T : SlotTable} {wiped : Bool} {s t : State}

/-- A new slot whose header has the next admission number. -/
theorem addSlot {u : State} {org hd i ph k} (h : SlotsFrom T false s) (hi : hdrOf i = some hd)
    (hadm : hd.adm = s.nextAdm) (hph : ph = .held ∨ ph = .running) : SlotsFrom T false (s.addSlot (u.newSlot org hd i ph k)) := by
  refine SlotSteps.add _ h ?_ ?_
  · show ((hdrOf i).getD default).adm = s.nextAdm
    rw [hi]
    exact hadm
  · rcases hph with rfl | rfl <;> rfl

theorem admitEntry {org e ph} (h : SlotsFrom T false s) (hph : ph = .held ∨ ph = .running) :
    SlotsFrom T false (s.admitEntry org e ph) := by
  unfold State.admitEntry
  dsimp only
  split
  · exact (h.addSlot rfl rfl (.inl rfl)).fail
  · rename_i i hi
    have hslots := ((s.dropReuse (orgBay org) i).noteLayout (orgBay org) i).takeIndex_slotTable (orgBay org) i
    rw [State.noteLayout_slotTable, State.dropReuse_slotTable] at hslots
    have hd := hdrOf_admission hi
    exact ((h.of_slotTable hslots).addSlot hd (congrArg SlotTable.nextAdm hslots).symm hph).ite (h.addSlot hd rfl hph)

theorem fetchOne {b q} (h : SlotsFrom T false s) : SlotsFrom T false (s.fetchOne b q) :=
  (h.ite h.useFree).setSq.admitEntry (.inl rfl)

theorem fetchMany {n b q} (h : SlotsFrom T false s) : SlotsFrom T false (State.fetchMany n b q s) := by
  induction n generalizing s with
  | zero => exact h
  | succ n ih => exact h.ite (ih h.fetchOne)

theorem fetchBays (h : SlotsFrom T false s) : SlotsFrom T false s.fetchBays := by
  unfold State.fetchBays
  split
  · exact h
  · split
    · exact h
    · exact h.update.fetchMany

theorem fetchControlOne (h : SlotsFrom T false s) : SlotsFrom T false s.fetchControlOne :=
  (h.ite h.useFree).update.admitEntry (.inl rfl)

theorem fetchControl {n} (h : SlotsFrom T false s) : SlotsFrom T false (State.fetchControl n s) := by
  induction n generalizing s with
  | zero => exact h
  | succ n ih => exact h.ite (ih h.fetchControlOne)

theorem execEntryFetch {path} (h : SlotsFrom T false s) : NextFrom T false (execEntryFetch path s) := by
  unfold Machine.execEntryFetch
  refine .next (h.ite ?_)
  split
  · exact h.fetchBays
  · exact h.fetchControl

theorem meetPath {b x} (h : SlotsFrom T wiped s) : SlotsFrom T wiped (s.meetPath b x) := by
  unfold State.meetPath
  split
  · exact h.countBay
  · exact h.countBay
  · exact h.countMinor
  · exact h.countMinor
  · exact h.countMinor
  · exact h.goFatal
  · exact h.countMinor
  · exact h.countMinor

theorem meetPaths {b} (h : SlotsFrom T wiped s) : SlotsFrom T wiped (s.meetPaths b) :=
  h.update.foldl fun _ _ hs => hs.meetPath

theorem start {c} (h : SlotsFrom T wiped s) (ho : T.Open c.adm) : SlotsFrom T wiped (s.start c) := by
  unfold State.start
  split
  · exact h.setRunning ho
  · split
    · exact h.fail
    · exact ((h.setCkpt.ite h).lateReads.setRunning ho).meetPaths

theorem execCommandDispatch {adm} : NextFrom s.slotTable wiped (execCommandDispatch adm s) := by
  unfold Machine.execCommandDispatch
  refine .next ?_
  split
  · exact .refl
  · rename_i c hc
    split
    · exact .refl
    · rename_i hheld
      have ho : s.slotTable.Open c.adm :=
        ⟨c, List.mem_of_find?_eq_some hc, rfl, by simp_all [Slot.finished?]⟩
      split
      · exact (start .refl ho).ite .refl
      · exact (start .refl ho).ite .refl

theorem release {c} (h : SlotsFrom T wiped s) : SlotsFrom T wiped (s.release c) :=
  h.dropSlot.settle

theorem postBay {b k c} (h : SlotsFrom T wiped s) : SlotsFrom T wiped (s.postBay b k c) :=
  h.ite (h.writeBay.setCq.bayIrq.ite h.writeBay.setCq).release

theorem writeHost0 {a bs} (h : SlotsFrom T wiped s) : SlotsFrom T wiped (s.writeHost0 a bs) :=
  h.writeLoc.ite h

theorem postControl {c} (h : SlotsFrom T wiped s) : SlotsFrom T wiped (s.postControl c) :=
  h.ite (h.writeHost0.update.emit.ite h.writeHost0.update).release

theorem postUrgent {c} (h : SlotsFrom T wiped s) : SlotsFrom T wiped (s.postUrgent c) :=
  h.ite h.writeHost0.update.emit.release

theorem execCompletionPost {cq} (h : SlotsFrom T wiped s) : NextFrom T wiped (execCompletionPost cq s) := by
  unfold Machine.execCompletionPost
  refine .next (h.ite ?_)
  split
  · exact h
  · exact h.postBay
  · exact h.postControl
  · exact h.postUrgent

theorem execCoalesceTimer {cq} (h : SlotsFrom T wiped s) : NextFrom T wiped (execCoalesceTimer cq s) := by
  unfold Machine.execCoalesceTimer
  refine .next ?_
  split
  · exact h.setCq.bayIrq.ite h
  · exact h.update.emit.ite h
  · exact h

theorem noteUrgent {c} (h : SlotsFrom T wiped s) : SlotsFrom T wiped (s.noteUrgent c) :=
  h.ite (h.setFlow.ite h).setSlot

theorem decodeUrgent (h : SlotsFrom T false s) : SlotsFrom T false s.decodeUrgent := by
  unfold State.decodeUrgent
  refine h.ite ?_
  extract_lets e adm s1
  have h1 : SlotsFrom T false s1 := h.update.admitEntry (.inr rfl)
  split
  · exact (h1.noteUrgent.update.ite h1.noteUrgent).ite h1
  · exact h1

theorem execUrgentDoorbellSample (h : SlotsFrom T false s) : NextFrom T false (execUrgentDoorbellSample s) :=
  .next (h.ite h.update.decodeUrgent)

/-! ### Machine/Doorbells.lean -/

theorem hostWrites {r ws} (h : SlotsFrom T wiped s) : SlotsFrom T wiped (s.hostWrites r ws) :=
  h.foldl fun _ _ hs => hs.writeLoc

theorem ringSq {b q v} (h : SlotsFrom T wiped s) : SlotsFrom T wiped (s.ringSq b q v) :=
  h.setSq.ite h.bayDoorbellErr

theorem ringCq {b q v} (h : SlotsFrom T wiped s) : SlotsFrom T wiped (s.ringCq b q v) :=
  h.setCq.ite h.bayDoorbellErr

theorem execSubmissionDoorbell {bay q value written} (h : SlotsFrom T wiped s) :
    NextFrom T wiped (execSubmissionDoorbell bay q value written s) :=
  .next (h.ite h.hostWrites.ringSq)

theorem execCompletionDoorbell {bay q value} (h : SlotsFrom T wiped s) :
    NextFrom T wiped (execCompletionDoorbell bay q value s) :=
  .next (h.ite h.ringCq)

theorem ctlDbErr (h : SlotsFrom T wiped s) : SlotsFrom T wiped s.ctlDbErr :=
  h.update

theorem ringCtlSq {v} (h : SlotsFrom T wiped s) : SlotsFrom T wiped (s.ringCtlSq v) :=
  h.update.ite h.ctlDbErr

theorem ringCtlCq {v} (h : SlotsFrom T wiped s) : SlotsFrom T wiped (s.ringCtlCq v) :=
  h.update.ite h.ctlDbErr

theorem ringUrgSq {v} (h : SlotsFrom T wiped s) : SlotsFrom T wiped (s.ringUrgSq v) :=
  h.update

theorem ringUrgCq {v} (h : SlotsFrom T wiped s) : SlotsFrom T wiped (s.ringUrgCq v) :=
  h.update

theorem execCtlSqTail {value written} (h : SlotsFrom T wiped s) : NextFrom T wiped (execCtlSqTail value written s) :=
  .next (h.ite h.hostWrites.ringCtlSq)

theorem execCtlCqHead {value} (h : SlotsFrom T wiped s) : NextFrom T wiped (execCtlCqHead value s) :=
  .next (h.ite h.ringCtlCq)

theorem execUrgSqTail {value} (h : SlotsFrom T wiped s) : NextFrom T wiped (execUrgSqTail value s) :=
  .next (h.ite h.ringUrgSq)

theorem execUrgCqHead {value} (h : SlotsFrom T wiped s) : NextFrom T wiped (execUrgCqHead value s) :=
  .next (h.ite h.ringUrgCq)

theorem execEventCounterWrite {bay ctr w} (h : SlotsFrom T wiped s) :
    NextFrom T wiped (execEventCounterWrite bay ctr w s) :=
  .next (h.ite h.setCounter.recheck)

theorem writeIntMask {v} (h : SlotsFrom T wiped s) : SlotsFrom T wiped (s.writeIntMask v) :=
  h.update.emit.ite h.update

theorem execIntMaskWrite {value} (h : SlotsFrom T wiped s) : NextFrom T wiped (execIntMaskWrite value s) :=
  .next (h.ite h.writeIntMask)

theorem writeEventMask {b v} (h : SlotsFrom T wiped s) : SlotsFrom T wiped (s.writeEventMask b v) :=
  h.setBay.bayIrq.ite h.setBay

theorem execEventMaskWrite {bay value} (h : SlotsFrom T wiped s) : NextFrom T wiped (execEventMaskWrite bay value s) :=
  .next (h.ite h.writeEventMask)

theorem enableControl (h : SlotsFrom T wiped s) : SlotsFrom T wiped s.enableControl :=
  h.update.ite h.update

theorem writeCtlWord {v} (h : SlotsFrom T wiped s) : SlotsFrom T wiped (s.writeCtlWord v) :=
  h.update.ite ((h.update.ite h.update.enableControl).ite (h.update.update.settleControl.ite h.update))

theorem execControlPairEnable {value} (h : SlotsFrom T wiped s) : NextFrom T wiped (execControlPairEnable value s) :=
  .next (h.ite h.writeCtlWord)

theorem execControlPairDisable {value} (h : SlotsFrom T wiped s) : NextFrom T wiped (execControlPairDisable value s) :=
  .next (h.ite h.writeCtlWord)

theorem setRegs {b} {f : BayRegs → BayRegs} (h : SlotsFrom T wiped s) : SlotsFrom T wiped (s.setRegs b f) :=
  h.setBay

theorem enableAdmin {b} (h : SlotsFrom T wiped s) : SlotsFrom T wiped (s.enableAdmin b) :=
  h.setRegs.ite h.setRegs.setSq.setCq

theorem writeAdminWord {b v} (h : SlotsFrom T wiped s) : SlotsFrom T wiped (s.writeAdminWord b v) :=
  h.setRegs.ite ((h.setRegs.ite h.setRegs.enableAdmin).ite ((h.setRegs.setRegs.ite h.setRegs.setRegs.settleAdmin).ite
    h.setRegs))

theorem execAdminPairEnable {bay value} (h : SlotsFrom T wiped s) :
    NextFrom T wiped (execAdminPairEnable bay value s) :=
  .next (h.ite h.writeAdminWord)

theorem execAdminPairDisable {bay value} (h : SlotsFrom T wiped s) :
    NextFrom T wiped (execAdminPairDisable bay value s) :=
  .next (h.ite h.writeAdminWord)

theorem writeUrgWord {v} (h : SlotsFrom T wiped s) : SlotsFrom T wiped (s.writeUrgWord v) :=
  h.devCause.ite h.update

theorem execUrgentQueueEnable {value} (h : SlotsFrom T wiped s) : NextFrom T wiped (execUrgentQueueEnable value s) :=
  .next (h.ite h.writeUrgWord)

theorem execUrgentQueueDisable {value} (h : SlotsFrom T wiped s) : NextFrom T wiped (execUrgentQueueDisable value s) :=
  .next (h.ite h.writeUrgWord)

theorem execApertureRead {bay offset length} (h : SlotsFrom T wiped s) :
    NextFrom T wiped (execApertureRead bay offset length s) :=
  .next (h.ite (h.emit.ite (h.logBadReads.emit.ite h.lateReads.emit)))

theorem execApertureWrite {bay offset data} (h : SlotsFrom T wiped s) :
    NextFrom T wiped (execApertureWrite bay offset data s) :=
  .next (h.ite (h.countBay.ite h.writeBay))

theorem finishDma {c chan} (h : SlotsFrom T wiped s) : SlotsFrom T wiped (s.finishDma c chan) := by
  unfold State.finishDma
  split
  · rename_i t ht
    exact h.execDmaDescriptorDone t ht
  · exact h

theorem clearCore {key} (h : SlotsFrom T wiped s) : SlotsFrom T wiped (s.clearCore key) :=
  h.update.clearLoc

theorem resetCore {c key} (h : SlotsFrom T wiped s) : SlotsFrom T wiped (s.resetCore c key) := by
  unfold State.resetCore
  refine .devCause (.clearCore ?_)
  split
  · exact h.finishDma.finishDma.failLaunch
  · exact h.finishDma.finishDma

theorem rejectReset (h : SlotsFrom T wiped s) : SlotsFrom T wiped s.rejectReset :=
  h.update

theorem execCoreReset {value} (h : SlotsFrom T wiped s) : NextFrom T wiped (execCoreReset value s) := by
  unfold Machine.execCoreReset
  refine .next (h.ite ?_)
  split
  · exact h.rejectReset.ite h.resetCore
  · exact h.rejectReset

theorem stopInCluster {lc c} (h : SlotsFrom T wiped s) : SlotsFrom T wiped (State.stopInCluster lc s c) := by
  unfold State.stopInCluster
  split
  · exact h.failLaunch
  · exact h.cutShort
  · exact h

theorem beginClusterReset {lc} (h : SlotsFrom T wiped s) : SlotsFrom T wiped (s.beginClusterReset lc) :=
  (h.update.foldl fun _ _ hs => hs.stopInCluster).foldl fun _ _ hs => hs.dropQueued

theorem execClusterReset {value} (h : SlotsFrom T wiped s) : NextFrom T wiped (execClusterReset value s) :=
  .next (h.ite (h.rejectReset.ite h.beginClusterReset))

theorem absorbCluster {lc} (h : SlotsFrom T wiped s) : SlotsFrom T wiped (s.absorbCluster lc) := by
  unfold State.absorbCluster
  extract_lets s1
  have h1 : SlotsFrom T wiped s1 := h.foldl fun _ _ hs => hs.cutChannels
  split
  · exact h1.useFree
  · refine .foldl (.setBay ((h1.useFree.foldl fun _ _ hs => hs.sendAbort.abortGroup).foldl fun _ _ hs => ?_))
      fun _ _ hs => hs.firedEnd
    split
    · exact hs.stopFields.finishNat
    · exact hs.cutShort

theorem clearCores {p} (h : SlotsFrom T wiped s) : SlotsFrom T wiped (s.clearCores p) :=
  h.update.clearLoc

theorem execClusterResetAbsorb {lc} (h : SlotsFrom T wiped s) : NextFrom T wiped (execClusterResetAbsorb lc s) := by
  unfold Machine.execClusterResetAbsorb
  refine .next ?_
  split
  · exact h
  · refine h.ite (.devCause (.update ?_))
    split
    · exact h.absorbCluster.clearCores
    · exact h.absorbCluster

/-! ### Machine/Repair.lean -/

theorem logUnit {b r} (h : SlotsFrom T wiped s) : SlotsFrom T wiped (s.logUnit b r) := by
  unfold State.logUnit
  split
  · exact h.log12
  · exact h.log1

theorem execCubeSubstitution {cluster engine cube} (h : SlotsFrom T wiped s) :
    NextFrom T wiped (execCubeSubstitution cluster engine cube s) := by
  unfold Machine.execCubeSubstitution
  refine .next (h.ite ?_)
  split
  · refine .log1 ?_
    split
    · exact h.setCluster.countBay
    · exact h.setCluster
  · exact h.setCluster.askRetire.logUnit

theorem execCoreRetirement {cluster core} (h : SlotsFrom T wiped s) :
    NextFrom T wiped (execCoreRetirement cluster core s) :=
  .next (h.ite (h.setCluster.update.logUnit.askRetire.ite h.setCluster.update.logUnit))

theorem execBankRetirement {cluster bank} (h : SlotsFrom T wiped s) :
    NextFrom T wiped (execBankRetirement cluster bank s) := by
  unfold Machine.execBankRetirement
  refine .next (h.ite (h.askRetire.ite (.logUnit (.useFree ?_))))
  split
  · exact h.setCluster.update.countBay
  · exact h.setCluster.update

theorem moveCluster {p q} (h : SlotsFrom T wiped s) : SlotsFrom T wiped (s.moveCluster p q) :=
  h.update

theorem loadGcrt {p lc} (h : SlotsFrom T wiped s) : SlotsFrom T wiped (s.loadGcrt p lc) :=
  h.update

theorem moveLogical {lc p q} (h : SlotsFrom T wiped s) : SlotsFrom T wiped (s.moveLogical lc p q) := by
  unfold State.moveLogical
  refine .logUnit ?_
  split
  · exact h.setPower.setCluster.loadGcrt.moveCluster.update.setCluster.setPower.countBay
  · exact h.setPower.setCluster.loadGcrt.moveCluster.update.setCluster.setPower

theorem atRisk {lc p} (h : SlotsFrom T wiped s) : SlotsFrom T wiped (s.atRisk lc p) :=
  h.update.setCluster.logUnit

theorem execClusterRetirement {lc} (h : SlotsFrom T wiped s) : NextFrom T wiped (execClusterRetirement lc s) := by
  unfold Machine.execClusterRetirement
  refine .next ?_
  split
  · exact h
  · refine h.ite ?_
    split
    · exact h.atRisk.ite h
    · exact h.moveLogical.ite h

theorem warnUnit {kind unit cause} (h : SlotsFrom T wiped s) : SlotsFrom T wiped (s.warnUnit kind unit cause) :=
  h.log1.foldl fun _ _ hs => hs.setBay.log2

theorem raiseWarning {i cause exempt} (h : SlotsFrom T wiped s) : SlotsFrom T wiped (s.raiseWarning i cause exempt) :=
  h.update.warnUnit.ite h

theorem sampleInto {i x} (h : SlotsFrom T wiped s) : SlotsFrom T wiped (s.sampleInto i x) :=
  h.update

theorem planMargin {i p slack} (h : SlotsFrom T wiped s) : SlotsFrom T wiped (s.planMargin i p slack) :=
  h.ite (h.setCluster.log1.ite (h.ite h.setCluster.logUnit.raiseWarning.askRetire))

theorem swapLane {before x} (h : SlotsFrom T wiped s) : SlotsFrom T wiped (s.swapLane before x) :=
  h.laneLost.ite h

theorem takeReading {x} (h : SlotsFrom T wiped s) : SlotsFrom T wiped (s.takeReading x) := by
  unfold State.takeReading
  refine h.ite ?_
  extract_lets _ _ _ logged _ rising crossed margin
  have hlogged : SlotsFrom T wiped logged := h.sampleInto.ite h.sampleInto.log1
  have hrising : SlotsFrom T wiped rising := hlogged.raiseWarning.ite hlogged
  have hcrossed : SlotsFrom T wiped crossed := hrising.raiseWarning.ite (hrising.raiseWarning.ite hrising)
  have hmargin : SlotsFrom T wiped margin := hcrossed.planMargin.ite hcrossed
  exact (hmargin.raiseWarning.ite hmargin).swapLane

theorem logMinor (h : SlotsFrom T wiped s) : SlotsFrom T wiped s.logMinor :=
  h.update.foldl fun _ _ hs => hs.log1

theorem warnCores (h : SlotsFrom T wiped s) : SlotsFrom T wiped s.warnCores :=
  h.update.foldl fun _ _ hs => hs.raiseWarning

theorem execSeasoningSample {readings} (h : SlotsFrom T wiped s) : NextFrom T wiped (execSeasoningSample readings s) :=
  .next (h.ite (h.foldl fun _ _ hs => hs.takeReading).logMinor.warnCores.update)

theorem writeHistory (h : SlotsFrom T wiped s) : SlotsFrom T wiped s.writeHistory :=
  h.update

theorem execHistoryWrite (h : SlotsFrom T wiped s) : NextFrom T wiped (execHistoryWrite s) :=
  .next (h.writeHistory.ite h)

theorem logEvent {r} (h : SlotsFrom T wiped s) : SlotsFrom T wiped (s.logEvent r) :=
  h.update.ite h

theorem execPatrolScrub {line} (h : SlotsFrom T wiped s) : NextFrom T wiped (execPatrolScrub line s) := .next h

theorem execDramRefresh {bay tier2 stall} (h : SlotsFrom T wiped s) :
    NextFrom T wiped (execDramRefresh bay tier2 stall s) :=
  .next (h.countBay.ite h)

/-! ### Machine/Reset.lean -/

theorem setSelect {active pending} (h : SlotsFrom T wiped s) : SlotsFrom T wiped (s.setSelect active pending) :=
  h.update

theorem bootRec {code d0 d1} (h : SlotsFrom T wiped s) : SlotsFrom T wiped (s.bootRec code d0 d1) :=
  h.update

theorem loseMemory (h : SlotsFrom T wiped s) : SlotsFrom T wiped s.loseMemory :=
  h.update

theorem dropReady (h : SlotsFrom T wiped s) : SlotsFrom T wiped s.dropReady :=
  h.update.emit.ite h

theorem startBoot {warm} (h : SlotsFrom T wiped s) : SlotsFrom T wiped (s.startBoot warm) :=
  h.update.bootRec

theorem cleared {hold} : SlotsFrom T true (s.cleared hold) := SlotSteps.reset

theorem alwaysOn (h : SlotsFrom T wiped s) : SlotsFrom T wiped s.alwaysOn :=
  h.setPower.setPower

theorem coldBoot : SlotsFrom T true s.coldBoot :=
  (alwaysOn cleared).ite (alwaysOn cleared).startBoot

theorem execPowerInRange (h : SlotsFrom T true s) : NextFrom T true (execPowerInRange s) :=
  .next (coldBoot.ite h)

theorem execResetN {low} (h : SlotsFrom T true s) : NextFrom T true (execResetN low s) :=
  .next (h.update.ite (coldBoot.ite (coldBoot.ite h.update)))

theorem warmReset : SlotsFrom T true s.warmReset := startBoot SlotSteps.reset

theorem execDeviceReset {value} (h : SlotsFrom T true s) : NextFrom T true (execDeviceReset value s) :=
  .next (warmReset.ite h)

theorem execPfFunctionLevelReset (h : SlotsFrom T true s) : NextFrom T true (execPfFunctionLevelReset s) :=
  .next (warmReset.ite h)

theorem execVfFunctionLevelReset {bay} (h : SlotsFrom T wiped s) : NextFrom T wiped (execVfFunctionLevelReset bay s) :=
  .next (h.resetBay.ite h)

theorem execPciePerstN {low} (h : SlotsFrom T true s) : NextFrom T true (execPciePerstN low s) :=
  .next (h.update.ite ((warmReset.ite h.update.update).ite h.update.update))

/-! ### Machine/Images.lean -/

theorem endStage (h : SlotsFrom T wiped s) : SlotsFrom T wiped s.endStage :=
  h.bootRec.update

theorem toMgmtOnly (h : SlotsFrom T wiped s) : SlotsFrom T wiped s.toMgmtOnly :=
  h.update.bootRec

theorem unitFailed {kind unit} (h : SlotsFrom T wiped s) : SlotsFrom T wiped (s.unitFailed kind unit) :=
  h.bootRec

theorem execBootRomStage {selfTestOk} (h : SlotsFrom T wiped s) : NextFrom T wiped (execBootRomStage selfTestOk s) :=
  .next (h.ite (h.unitFailed.goFatal.update.ite h.setPower.setPower.update.endStage))

theorem takeGolden {x k} (h : SlotsFrom T wiped s) : SlotsFrom T wiped (s.takeGolden x k).1 :=
  h.bootRec

theorem formSet {n x} (h : SlotsFrom T wiped s) : SlotsFrom T wiped (State.formSet n s x).1 := by
  induction n generalizing s x with
  | zero => exact h
  | succ n ih =>
    have golden : ∀ ks : List Nat, SlotsFrom T wiped (ks.foldl (fun (a : State × ImageSet) k =>
        (a.1.bootRec 0x0204 k ((s.badWhy x k).getD 0)).takeGolden a.2 k) (s, x)).1 := fun ks =>
      foldl_fst h fun _ _ hs => hs.bootRec.takeGolden
    unfold State.formSet
    dsimp only
    split
    · exact h
    · split
      · exact h
      · split
        · exact golden _
        · exact ih (golden _)

theorem verifySet {imgs} (h : SlotsFrom T wiped s) : SlotsFrom T wiped (s.verifySet imgs).1 := by
  unfold State.verifySet
  refine h.foldl_fst fun _ _ hs => ?_
  split
  · exact hs.bootRec.takeGolden
  · exact hs

theorem rejectPending {bank why} (h : SlotsFrom T wiped s) : SlotsFrom T wiped (s.rejectPending bank why) :=
  h.update.setSelect.bootRec

theorem noSet {imgs replaced} (h : SlotsFrom T wiped s) : SlotsFrom T wiped (s.noSet imgs replaced) := by
  unfold State.noSet
  refine .toMgmtOnly ?_
  split
  · exact h.update.rejectPending.ite h.update
  · exact h.update

theorem acceptSet {x} (h : SlotsFrom T wiped s) : SlotsFrom T wiped (s.acceptSet x) :=
  (h.foldl fun _ _ hs => hs.bootRec).update.endStage

theorem selectImages (h : SlotsFrom T wiped s) : SlotsFrom T wiped s.selectImages := by
  unfold State.selectImages
  dsimp only
  generalize (if s.boot.bank = 0 then s.flash.bankA else s.flash.bankB) = imgs
  have h1 : SlotsFrom T wiped ((s.verifySet imgs).1.formSet 6 (s.verifySet imgs).2).1 := h.verifySet.formSet
  refine h.verifySet.noSet.ite ?_
  split <;> rename_i e <;> rw [e] at h1
  · exact h1.acceptSet
  · exact h1.noSet

theorem execImageSelection (h : SlotsFrom T wiped s) : NextFrom T wiped (execImageSelection s) := by
  unfold Machine.execImageSelection
  refine .next (h.ite (h.setPower.setPower.selectImages.ite ?_))
  split
  · exact h.setPower.setPower.bootRec.selectImages
  · exact h.setPower.setPower.update.endStage

theorem execPendingBankTimeout (h : SlotsFrom T true s) : NextFrom T true (execPendingBankTimeout s) := by
  unfold Machine.execPendingBankTimeout
  refine .next ?_
  split
  · exact (bootRec warmReset).ite h
  · exact h

theorem execPldmFirmwareUpdate {components} (h : SlotsFrom T wiped s) :
    NextFrom T wiped (execPldmFirmwareUpdate components s) :=
  .next (h.ite (h.update.setSelect.ite h.update))

/-! ### Machine/Boot.lean -/

theorem nvApply {r} (h : SlotsFrom T wiped s) : SlotsFrom T wiped (s.nvApply r) := by
  unfold State.nvApply
  refine h.bootRec.ite (.ite (.ite (h.update) h.bootRec) ?_)
  split
  · exact h.update
  · exact h.bootRec

theorem loadNv (h : SlotsFrom T wiped s) : SlotsFrom T wiped s.loadNv := by
  have h1 : SlotsFrom T wiped ({ s with
      nv := Nv.factory
      far := s.far.zipIdx.map (fun f => { f.1 with mac := nth s.factory.farMacs f.2 }) } : State) :=
    h.update
  unfold State.loadNv
  dsimp only
  split
  · exact h1.bootRec
  · exact h1.foldl fun _ _ hs => hs.nvApply

theorem loadHistory (h : SlotsFrom T wiped s) : SlotsFrom T wiped s.loadHistory := by
  unfold State.loadHistory
  dsimp only
  split
  · exact h.log1
  · exact h.update

theorem applyLicence (h : SlotsFrom T wiped s) : SlotsFrom T wiped s.applyLicence := by
  unfold State.applyLicence
  dsimp only
  split <;> exact h.refreshLicence.update.bootRec

theorem execNvOverlay (h : SlotsFrom T wiped s) : NextFrom T wiped (execNvOverlay s) := by
  have h1 : SlotsFrom T wiped ((s.setPower 59 true).setPower 60 true).loadNv := h.setPower.setPower.loadNv
  exact .next (h.ite (h1.ite h1.update.loadHistory).applyLicence.endStage)

theorem execDramTraining {failedParts t3Gib} (h : SlotsFrom T wiped s) :
    NextFrom T wiped (execDramTraining failedParts t3Gib s) := by
  unfold Machine.execDramTraining
  refine .next (h.ite ?_)
  extract_lets _ _ _ _ s1
  have h1 : SlotsFrom T wiped s1 := (((h.foldl fun _ _ hs => hs.setPower).foldl fun _ _ hs => hs.setPower).foldl
    fun _ _ hs => hs.unitFailed.ite hs.unitFailed).foldl fun _ _ hs => hs.unitFailed.ite hs
  exact h1.update.endStage.ite h1.update.toMgmtOnly

theorem portDown {p why} (h : SlotsFrom T wiped s) : SlotsFrom T wiped (s.portDown p why) :=
  h.setPort.setPower.changePort.bootRec

theorem climbPort {p st} (h : SlotsFrom T wiped s) : SlotsFrom T wiped (s.climbPort p st) :=
  h.setPortState.setPortState.changePort

theorem soakPort {p errs} (h : SlotsFrom T wiped s) : SlotsFrom T wiped (s.soakPort p errs) := by
  unfold State.soakPort
  refine h.portDown.ite (.climbPort (.setPower (.setPort ?_)))
  split
  · exact h.bootRec
  · exact h

theorem relockPort {p errs} (h : SlotsFrom T wiped s) : SlotsFrom T wiped (s.relockPort p errs) :=
  h.ite (h.climbPort.foldl fun _ _ hs => hs.laneLost)

theorem trainPort {p answer errs} (h : SlotsFrom T wiped s) : SlotsFrom T wiped (s.trainPort p answer errs) :=
  h.setPort.setPower.ite (h.portDown.ite (h.ite (h.portDown.ite (h.relockPort.ite h.soakPort))))

theorem setFarState {f st} (h : SlotsFrom T wiped s) : SlotsFrom T wiped (s.setFarState f st) := by
  refine h.ite (devCause ?_).log1
  exact h.update

theorem trainFar {f errs} (h : SlotsFrom T wiped s) : SlotsFrom T wiped (s.trainFar f errs) :=
  h.setPower.setFarState.ite h.setPower.setFarState.bootRec

theorem execLaneTraining {answers laneErrors farErrors} (h : SlotsFrom T wiped s) :
    NextFrom T wiped (execLaneTraining answers laneErrors farErrors s) :=
  .next (h.ite ((h.foldl fun _ _ hs => hs.trainPort).foldl fun _ _ hs => hs.trainFar).endStage)

theorem markDefective {p} (h : SlotsFrom T wiped s) : SlotsFrom T wiped (s.markDefective p) :=
  h.setCluster.update

theorem bistFail {x} (h : SlotsFrom T wiped s) : SlotsFrom T wiped (s.bistFail x) := by
  unfold State.bistFail
  split
  · exact h.unitFailed.setCluster.ite h.unitFailed.setCluster.update
  · exact h.unitFailed.setCluster.update
  · exact h.unitFailed.setCluster.update
  · exact h.unitFailed.markDefective
  · exact (h.unitFailed.ite h.unitFailed).update
  · exact h.unitFailed

theorem execBist {failures} (h : SlotsFrom T wiped s) : NextFrom T wiped (execBist failures s) := by
  unfold Machine.execBist
  refine .next (h.ite ?_)
  extract_lets _ _ s1
  have h1 : SlotsFrom T wiped s1 := ((h.foldl fun _ _ hs => hs.setPower).foldl fun _ _ hs => hs.bistFail).foldl
    fun _ _ hs => hs.markDefective
  exact h1.toMgmtOnly.ite h1.endStage

theorem fetchFail {f} (h : SlotsFrom T wiped s) : SlotsFrom T wiped (s.fetchFail f) :=
  h.unitFailed.setCluster.update

theorem bringUp {failures n} (h : SlotsFrom T wiped s) : SlotsFrom T wiped (State.bringUp failures n s) := by
  induction n generalizing s with
  | zero => exact h
  | succ n ih =>
    have h1 : SlotsFrom T wiped ({ s with lmap := s.buildMap } : State) := h.update
    exact .ite (h1.foldl fun _ _ hs => hs.fetchFail)
      (ih ((h1.foldl fun _ _ hs => hs.fetchFail).foldl fun _ _ hs => hs.markDefective))

theorem execGcrtBroadcast {failures} (h : SlotsFrom T wiped s) : NextFrom T wiped (execGcrtBroadcast failures s) := by
  unfold Machine.execGcrtBroadcast
  refine .next (h.ite (.endStage ((h.bringUp.update.foldl fun _ _ hs => hs.setPower).foldl fun _ _ hs => ?_)))
  split
  · exact hs.loadGcrt
  · exact hs

theorem endTrial (h : SlotsFrom T wiped s) : SlotsFrom T wiped s.endTrial := by
  unfold State.endTrial
  split
  · exact h
  · exact h.rejectPending.ite h.update.setSelect

theorem execReady (h : SlotsFrom T wiped s) : NextFrom T wiped (execReady s) :=
  .next (h.ite (h.bootRec.bootRec.useFree.endTrial.foldl fun _ _ hs => hs.update).writeHistory.update.emit)

theorem relock {p x} (h : SlotsFrom T wiped s) : SlotsFrom T wiped (s.relock p x) :=
  h.setPort.setPortState.setPortState

theorem execPortRetry {port answers laneErrors} (h : SlotsFrom T wiped s) :
    NextFrom T wiped (execPortRetry port answers laneErrors s) := by
  unfold Machine.execPortRetry
  refine .next (h.ite (h.setPort.ite ((h.setPort.portDown.ite h.setPort.relock).ite (.ite ?_ h.setPort))))
  split
  · exact h.setPort.relock
  · exact h.setPort

/-! ### Machine/FarLink.lean -/

theorem setJoin {b} {f : Join → Join} (h : SlotsFrom T wiped s) : SlotsFrom T wiped (s.setJoin b f) :=
  h.setBay

theorem stageStalls {b} (h : SlotsFrom T wiped s) : SlotsFrom T wiped (s.stageStalls b) :=
  h.foldl fun _ _ hs => hs.countBay.useFree

theorem onJoined {b} {f : Join → State} (h : SlotsFrom T wiped s) (hf : ∀ a, SlotsFrom T wiped (f a)) :
    SlotsFrom T wiped (s.onJoined b f) := by
  unfold State.onJoined
  split
  · exact (hf _).ite h
  · exact h

theorem onJoin {b} {f : Join → State} (h : SlotsFrom T wiped s) (hf : ∀ a, SlotsFrom T wiped (f a)) :
    SlotsFrom T wiped (s.onJoin b f) := by
  unfold State.onJoin
  split
  · exact hf _
  · exact h

theorem holdBundles (h : SlotsFrom T wiped s) : SlotsFrom T wiped s.holdBundles := h.update

theorem emitFrame {j port site dgram} (h : SlotsFrom T wiped s) : SlotsFrom T wiped (s.emitFrame j port site dgram) :=
  emit (h.update)

theorem flushHeld {b} (h : SlotsFrom T wiped s) : SlotsFrom T wiped (s.flushHeld b) := by
  unfold State.flushHeld
  refine h.onJoined fun _ => ?_
  split
  · exact h
  · exact (h.foldl fun _ _ hs => hs.emitFrame).setJoin

theorem sendDgram {b turn site dgram} (h : SlotsFrom T wiped s) :
    SlotsFrom T wiped (s.sendDgram b turn site dgram) := by
  unfold State.sendDgram
  split
  · exact h
  · split
    · exact h.setJoin
    · exact h.flushHeld.emitFrame

theorem sendCtl {b site kind seq epoch sent echo payload} (h : SlotsFrom T wiped s) :
    SlotsFrom T wiped (s.sendCtl b site kind seq epoch sent echo payload) := by
  unfold State.sendCtl
  split
  · exact h
  · split
    · exact h
    · exact h.sendDgram

theorem startCtl {b site kind epoch until_ payload} (h : SlotsFrom T wiped s) :
    SlotsFrom T wiped (s.startCtl b site kind epoch until_ payload) := by
  unfold State.startCtl
  split
  · exact h
  · exact h.setJoin.sendCtl

theorem ackCtl {b d} (h : SlotsFrom T wiped s) : SlotsFrom T wiped (s.ackCtl b d) := by
  unfold State.ackCtl
  split
  · exact h
  · exact h.setJoin.sendCtl

theorem heard {b site} (h : SlotsFrom T wiped s) : SlotsFrom T wiped (s.heard b site) :=
  h.setJoin

theorem takeDgram {b port kind d} {f : State → Join → State} (h : SlotsFrom T wiped s)
    (hf : ∀ s j, SlotsFrom T wiped s → SlotsFrom T wiped (f s j)) :
    SlotsFrom T wiped (s.takeDgram b port kind d f) := by
  have h1 : ∀ g, SlotsFrom T wiped ({ s with far := updNth s.far port g } : State) := fun g =>
    h.update
  unfold State.takeDgram
  dsimp only
  split
  · exact h1 _
  · exact .ite (hf _ _ (h1 _).heard) (h1 _)

theorem takeCtl {b port kind d} {f : State → Join → List Byte → State} (h : SlotsFrom T wiped s)
    (hf : ∀ a b c, SlotsFrom T wiped a → SlotsFrom T wiped (f a b c)) :
    SlotsFrom T wiped (s.takeCtl b port kind d f) := by
  unfold State.takeCtl
  refine h.takeDgram fun _ _ hs => ?_
  split
  · exact hs
  · split
    · exact hs.countBay
    · exact hf _ _ _ (hs.ite hs.ackCtl)

/-! ### Machine/Merge.lean -/

theorem sendDigest {b j l phase d} (h : SlotsFrom T wiped s) : SlotsFrom T wiped (s.sendDigest b j l phase d) :=
  h.foldl fun _ _ hs => hs.startCtl

theorem prepareFrom {b e} (h : SlotsFrom T wiped s) : SlotsFrom T wiped (s.prepareFrom b e) := by
  unfold State.prepareFrom
  refine h.onJoined fun _ => ?_
  split
  · exact h.ite (h.setJoin.useFree.ite h.setJoin).sendDigest
  · exact h

theorem prepareNow {b} (h : SlotsFrom T wiped s) : SlotsFrom T wiped (s.prepareNow b) :=
  h.onJoined fun _ => h.prepareFrom

/-! ### Machine/Bundles.lean -/

theorem settleLeave {b} (h : SlotsFrom T wiped s) : SlotsFrom T wiped (s.settleLeave b) := by
  unfold State.settleLeave
  refine h.onJoined fun _ => ?_
  split
  · exact h
  · exact h.ite h.setBay.finishNat

theorem tidyJoin {b} (h : SlotsFrom T wiped s) : SlotsFrom T wiped (s.tidyJoin b) :=
  h.setJoin.settleLeave

theorem formOne {b f total} (h : SlotsFrom T wiped s) : SlotsFrom T wiped (s.formOne b f total).1 := by
  unfold State.formOne
  split
  · exact h
  · split
    · exact h
    · exact h.ite_fst h.setJoin

theorem formMany {n b total f} (h : SlotsFrom T wiped s) : SlotsFrom T wiped (State.formMany n b total f s) := by
  induction n generalizing s f with
  | zero => exact h
  | succ n ih =>
    have h1 : SlotsFrom T wiped (s.formOne b f total).1 := h.formOne
    refine h.ite ?_
    split <;> rename_i e <;> rw [e] at h1
    · exact ih h1
    · exact h1

theorem formAll {b} (h : SlotsFrom T wiped s) : SlotsFrom T wiped (s.formAll b) :=
  h.onJoined fun _ => ((h.ite h.stageStalls).foldl fun _ _ hs => hs.formMany).setJoin

theorem sendFrags {b j x site} (h : SlotsFrom T wiped s) : SlotsFrom T wiped (s.sendFrags b j x site) :=
  h.foldl fun _ _ hs => hs.sendDgram

theorem grantBytes {b n} (h : SlotsFrom T wiped s) : SlotsFrom T wiped (s.grantBytes b n) :=
  h.update

theorem execBundleGrant {bay seq site} (h : SlotsFrom T wiped s) :
    NextFrom T wiped (execBundleGrant bay seq site s) := by
  unfold Machine.execBundleGrant
  refine .next (h.onJoined fun _ => ?_)
  split
  · exact h
  · exact h.ite h.grantBytes.stageStalls.sendFrags.setJoin.setJoin

theorem execScarfCancel {hd epoch site seq} :
    NextFrom s.slotTable wiped (execScarfCancel hd epoch site seq s) := by
  unfold Machine.execScarfCancel
  refine .next (onRunning rfl fun _ _ h => ?_)
  split
  · exact h
  · split
    · exact h.fail
    · exact h.fail.ite h.setJoin.finishNat.tidyJoin

theorem sendSack {b site} (h : SlotsFrom T wiped s) : SlotsFrom T wiped (s.sendSack b site) :=
  h.onJoined fun _ => h.setJoin.sendDgram

theorem execAckTimer {bay site} (h : SlotsFrom T wiped s) : NextFrom T wiped (execAckTimer bay site s) := by
  unfold Machine.execAckTimer
  refine .next (h.onJoined fun _ => ?_)
  split
  · exact h.sendSack.ite h
  · exact h

theorem execSack {bay port d} (h : SlotsFrom T wiped s) : NextFrom T wiped (execSack bay port d s) :=
  .next (h.takeDgram fun _ _ hs => hs.stageStalls.setJoin).tidyJoin

theorem execRtoExpiry {bay site} (h : SlotsFrom T wiped s) : NextFrom T wiped (execRtoExpiry bay site s) :=
  .next (h.onJoin fun _ => ((h.foldl fun _ _ hs => hs.sendFrags).foldl fun _ _ hs => hs.sendCtl).setJoin).settleLeave

theorem execControlAcknowledgement {bay port d} (h : SlotsFrom T wiped s) :
    NextFrom T wiped (execControlAcknowledgement bay port d s) :=
  .next (h.takeCtl fun _ _ _ hs => hs.setJoin)

theorem execPeerUnreachable {bay site} (h : SlotsFrom T wiped s) :
    NextFrom T wiped (execPeerUnreachable bay site s) := by
  unfold Machine.execPeerUnreachable
  refine .next (.tidyJoin (h.onJoined fun _ => ?_))
  split
  · exact h.setJoin.ite h
  · exact h

theorem verifyRx {b j key x} (h : SlotsFrom T wiped s) : SlotsFrom T wiped (s.verifyRx b j key x) := by
  unfold State.verifyRx
  dsimp only
  split
  · exact h.setJoin.countBay
  · exact h.setJoin.setJoin.countBay.ite h.setJoin.setJoin

theorem placeFrag {b j key d} (h : SlotsFrom T wiped s) : SlotsFrom T wiped (s.placeFrag b j key d) := by
  unfold State.placeFrag
  split
  · exact h.ite (h.setJoin.verifyRx.ite h.setJoin)
  · exact h.setJoin.verifyRx.ite h.setJoin

theorem execFragment {bay port d} (h : SlotsFrom T wiped s) : NextFrom T wiped (execFragment bay port d s) := by
  unfold Machine.execFragment
  refine .next (h.takeDgram fun _ _ hs => ?_)
  split
  · exact hs
  · exact hs.ite (hs.countBay.ite ((hs.ite hs.placeFrag).setJoin.sendSack.ite (hs.ite hs.placeFrag).setJoin))

theorem badBundle {bay site seq e hd} (h : SlotsFrom T wiped s) : SlotsFrom T wiped (s.badBundle bay site seq e hd) :=
  h.setJoin.countBay

theorem execBundleLanding {bay site seq} (h : SlotsFrom T wiped s) :
    NextFrom T wiped (execBundleLanding bay site seq s) := by
  unfold Machine.execBundleLanding
  refine .next (h.onJoined fun _ => ?_)
  split
  · exact h
  · refine h.setJoin.countBay.ite ?_
    split
    · exact h.badBundle
    · exact h.badBundle.ite (h.stageStalls.ite h.setJoin)

/-! ### Machine/Catchup.lean -/

theorem serve {b q} (h : SlotsFrom T wiped s) : SlotsFrom T wiped (s.serve b q) := by
  unfold State.serve
  refine h.onJoined fun _ => ?_
  split
  · exact (h.useCodecs.foldl fun _ _ hs => hs.startCtl).ite h.useCodecs
  · exact h.setJoin

theorem serveAgain {b} (h : SlotsFrom T wiped s) : SlotsFrom T wiped (s.serveAgain b) :=
  h.onJoined fun _ => h.setJoin.foldl fun _ _ hs => hs.serve

theorem execCatchupRequest {bay port d} (h : SlotsFrom T wiped s) :
    NextFrom T wiped (execCatchupRequest bay port d s) :=
  .next (h.takeCtl fun _ _ _ hs => hs.serve)

theorem askFor {b j site k} (h : SlotsFrom T wiped s) : SlotsFrom T wiped (s.askFor b j site k) :=
  h.startCtl

theorem adopt {b adm p x parts xs} (h : SlotsFrom T wiped s) : SlotsFrom T wiped (s.adopt b adm p x parts xs) :=
  ((h.foldl fun _ _ hs => hs.writeBay.writeBay.writeBay.markDirty).setJoin.foldl
    fun _ _ hs => hs.diffRecord).prepareNow.finishNat.tidyJoin

theorem badSource {b j c} (h : SlotsFrom T wiped s) : SlotsFrom T wiped (s.badSource b j c) := by
  unfold State.badSource
  dsimp only
  split
  · exact h.setJoin.fail.settleLeave
  · exact h.setJoin.foldl fun _ _ hs => hs.askFor

theorem settleCatchup {b} (h : SlotsFrom T wiped s) : SlotsFrom T wiped (s.settleCatchup b) := by
  unfold State.settleCatchup
  refine h.onJoined fun _ => ?_
  split
  · split
    · exact h
    · split
      · exact h.badSource
      · refine h.badSource.ite ?_
        split
        · exact h.setJoin.fail.settleLeave
        · exact h.adopt
  · exact h

theorem execScarfCatchup {hd site} : NextFrom s.slotTable wiped (execScarfCatchup hd site s) := by
  unfold Machine.execScarfCatchup
  refine .next (onRunning rfl fun _ ho h => ?_)
  split
  · exact h
  · split
    · exact h.fail
    · exact h.fail.ite (h.fail.ite (h.ite ((h.setActive ho).setJoin.foldl fun _ _ hs => hs.askFor)))

theorem execCatchupTimeout {bay} (h : SlotsFrom T wiped s) : NextFrom T wiped (execCatchupTimeout bay s) := by
  unfold Machine.execCatchupTimeout
  refine .next (h.onJoined fun _ => ?_)
  split
  · exact h.setJoin.fail.settleLeave.ite h
  · exact h

/-! ### Machine/Power.lean -/

theorem endHolder {b c} (h : SlotsFrom T wiped s) : SlotsFrom T wiped (s.endHolder b c) := by
  unfold State.endHolder
  dsimp only
  split
  · refine .ite (.useFree (.writeBay ?_)) ?_
    · split
      · exact h.useFree.finishNat
      · exact h.cutShort
    · split
      · exact h.useFree.finishNat
      · exact h.cutShort
  · split
    · exact h.useFree.finishNat
    · exact h.cutShort

theorem eraseKeys (h : SlotsFrom T wiped s) : SlotsFrom T wiped s.eraseKeys :=
  h.foldl fun _ _ hs => (hs.foldl fun _ _ ht => ht.endHolder).setBay.bayEvent.ite
    (hs.foldl fun _ _ ht => ht.endHolder).setBay

theorem keyAlarm {code} (h : SlotsFrom T wiped s) : SlotsFrom T wiped (s.keyAlarm code) :=
  h.update.devCause.log1.eraseKeys

theorem execKeyAlarm {code} (h : SlotsFrom T wiped s) : NextFrom T wiped (execKeyAlarm code s) :=
  .next (h.ite h.update.keyAlarm)

theorem haltQuiet (h : SlotsFrom T wiped s) : SlotsFrom T wiped s.haltQuiet :=
  h.foldl fun _ _ hs => hs.halt.enter.ite hs

theorem domainsOff (h : SlotsFrom T wiped s) : SlotsFrom T wiped s.domainsOff := h.loseMemory.update

/-- Below 30 V every domain is off (R402). -/

theorem execInputFault {millivolts} (h : SlotsFrom T wiped s) : NextFrom T wiped (execInputFault millivolts s) :=
  .next (h.ite (h.update.ite h.update.keyAlarm.haltQuiet.logEvent.domainsOff.update))

theorem execThermalTrip {sensor reading} (h : SlotsFrom T wiped s) :
    NextFrom T wiped (execThermalTrip sensor reading s) :=
  .next (h.ite h.update.keyAlarm.emit.haltQuiet.domainsOff.logEvent.update)

theorem execJtagInstructionLoad {drivesPins} (h : SlotsFrom T true s) :
    NextFrom T true (execJtagInstructionLoad drivesPins s) :=
  .next (h.ite h.keyAlarm.haltQuiet.update)

theorem execJtagTrstN (h : SlotsFrom T true s) : NextFrom T true (execJtagTrstN s) :=
  .next (coldBoot.ite h)

theorem haltNow {b} (h : SlotsFrom T wiped s) : SlotsFrom T wiped (s.haltNow b) := by
  have h1 : SlotsFrom T wiped (if (s.bay b).st = .active then ((s.halt b false).1).enter b .quiescing else s) :=
    .ite h.halt.enter h
  unfold State.haltNow
  dsimp only
  split
  · split
    · rename_i t ht
      exact h1.execBayHalted t ht
    · exact h1
  · exact h1.halt.endEvict
  · exact h1

theorem postAll {q n} (h : SlotsFrom T wiped s) : SlotsFrom T wiped (s.postAll q n) := by
  induction n with
  | zero => exact h
  | succ n ih =>
    unfold State.postAll
    dsimp only
    split
    · rename_i t ht
      exact ih.execCompletionPost t ht
    · exact ih

theorem powerOff (h : SlotsFrom T wiped s) : SlotsFrom T wiped s.powerOff :=
  ((h.update.foldl fun _ _ hs => hs.haltNow).foldl fun _ _ hs => hs.postAll).writeHistory.domainsOff.dropReady.update

theorem execPowerDown {req} (h : SlotsFrom T wiped s) : NextFrom T wiped (execPowerDown req s) := by
  unfold Machine.execPowerDown
  refine .next ?_
  split <;> exact h.powerOff.ite h

theorem enterLevel {d level} (h : SlotsFrom T wiped s) : SlotsFrom T wiped (s.enterLevel d level) :=
  h.setDie.devCause

theorem sampleDie {d} (h : SlotsFrom T wiped s) : SlotsFrom T wiped (s.sampleDie d) :=
  h.setDie.enterLevel.ite h.setDie

theorem execThermalSensorSample {readings} (h : SlotsFrom T wiped s) :
    NextFrom T wiped (execThermalSensorSample readings s) :=
  .next (h.ite (h.update.foldl fun _ _ hs => hs.sampleDie))

theorem countHolds {touches : Bay → Bool} (h : SlotsFrom T wiped s) : SlotsFrom T wiped (s.countHolds touches) :=
  h.foldl fun _ _ hs => hs.countBay.useFree.ite hs

theorem execProtectionLevelExit {die} (h : SlotsFrom T wiped s) : NextFrom T wiped (execProtectionLevelExit die s) :=
  .next (h.ite (h.setDie.devCause.countHolds.setDie.log1.ite h.setDie.devCause.countHolds))

theorem execDramThermalHold {tier2 part} (h : SlotsFrom T wiped s) :
    NextFrom T wiped (execDramThermalHold tier2 part s) :=
  .next (h.ite h.update)

theorem execDramThermalRelease {tier2 part} (h : SlotsFrom T wiped s) :
    NextFrom T wiped (execDramThermalRelease tier2 part s) := by
  unfold Machine.execDramThermalRelease
  refine .next ?_
  split
  · exact h
  · exact h.ite h.update.countHolds.log1

theorem execLaneLossOfLock {port lane} (h : SlotsFrom T wiped s) : NextFrom T wiped (execLaneLossOfLock port lane s) :=
  .next (h.laneLost.ite (h.setFarState.holdBundles.ite h))

theorem execPllLossOfLock {pll} (h : SlotsFrom T wiped s) : NextFrom T wiped (execPllLossOfLock pll s) := by
  unfold Machine.execPllLossOfLock
  refine .next (h.ite ?_)
  split
  · exact h.goFatal
  · exact h.goFatal
  · exact h.ite h.setPort.changePort
  · exact h.ite h.setFarState.holdBundles

theorem execCxlLinkDown {link} (h : SlotsFrom T wiped s) : NextFrom T wiped (execCxlLinkDown link s) :=
  .next (h.ite h.update)

/-! ### Machine/Recovery.lean -/

theorem countUncorr {line} (h : SlotsFrom T wiped s) : SlotsFrom T wiped (s.countUncorr line) :=
  h.ite (h.setCluster.ite h.update.setCluster)

theorem loseCut {b} (h : SlotsFrom T wiped s) : SlotsFrom T wiped (s.loseCut b) := by
  unfold State.loseCut
  refine .discardCut ?_
  split
  · exact h.cutShort
  · exact h

theorem loseLanded {b x} (h : SlotsFrom T wiped s) : SlotsFrom T wiped (s.loseLanded b x) :=
  h.setJoin

theorem loseLine {b kind x} (h : SlotsFrom T wiped s) : SlotsFrom T wiped (s.loseLine b kind x) := by
  unfold State.loseLine
  split
  · exact h.loseCut
  · exact h.loseLanded
  · exact h

theorem poisonLine {b line adm kind x} (h : SlotsFrom T wiped s) :
    SlotsFrom T wiped (s.poisonLine b line adm kind x) := by
  unfold State.poisonLine
  refine h.goFatal.ite ?_
  extract_lets
  split
  · extract_lets s1
    have h1 : SlotsFrom T wiped s1 := h.update.useFree.logUnit.failAtRisk.ite h.update.useFree.logUnit
    exact h1.loseLine.cutShort.ite h1.loseLine
  · exact h.update.useFree.logUnit

theorem recovered {b line adm k cost} (h : SlotsFrom T wiped s) :
    SlotsFrom T wiped (s.recovered b line adm k cost) := by
  unfold State.recovered
  refine .ite (.markCorrected ?_) ?_
  · split
    · exact h.log1.countBay
    · exact h.log1
  · split
    · exact h.log1.countBay
    · exact h.log1

theorem retryStrip {adm cost} (h : SlotsFrom T wiped s) : SlotsFrom T wiped (s.retryStrip adm cost) := by
  unfold State.retryStrip
  split
  · exact h
  · split
    · exact h.setSlot.useFree
    · exact h

theorem ask {b w} (h : SlotsFrom T wiped s) : SlotsFrom T wiped (s.ask b w) :=
  h.onJoined fun _ => h.setJoin.askFor

theorem execLineRecovery {line kind adm failing cost} (h : SlotsFrom T wiped s) :
    NextFrom T wiped (execLineRecovery line kind adm failing cost s) := by
  unfold Machine.execLineRecovery
  refine .next (h.ite ?_)
  dsimp only
  split
  · exact h.countUncorr.useFree.poisonLine
  · refine .ite ?_ (h.countUncorr.retryStrip.ite h.countUncorr).recovered
    split
    · exact h.countUncorr.ask.useFree
    · exact h.countUncorr.poisonLine.useFree

theorem writeBackLine {b line r bytes} (h : SlotsFrom T wiped s) : SlotsFrom T wiped (s.writeBackLine b line r bytes) :=
  h.foldl fun _ _ hs => hs.writeBay.ite hs

theorem settleWait {b w} (h : SlotsFrom T wiped s) : SlotsFrom T wiped (s.settleWait b w) := by
  unfold State.settleWait
  refine h.onJoined fun _ => .ite ?_ ?_
  · split
    · exact h
    · exact h.setJoin.poisonLine.ite h.setJoin.setJoin.recovered
  · split
    · split
      · exact h.setJoin.writeBackLine.recovered.ite h.setJoin.poisonLine
      · exact h.setJoin.poisonLine
    · exact h

theorem execCatchupData {bay port d} (h : SlotsFrom T wiped s) : NextFrom T wiped (execCatchupData bay port d s) :=
  .next (h.takeCtl fun _ _ _ hs => (hs.setJoin.foldl fun _ _ ht => ht.settleWait).settleCatchup)

/-! ### Machine/Time.lean -/

theorem execSiteTodFrame {frame} (h : SlotsFrom T wiped s) : NextFrom T wiped (execSiteTodFrame frame s) :=
  .next (h.ite (h.countDev.ite h.update))

theorem timeState {st} (h : SlotsFrom T wiped s) : SlotsFrom T wiped (s.timeState st) :=
  h.ite h.update.devCause

theorem logStep {size slew} (h : SlotsFrom T wiped s) : SlotsFrom T wiped (s.logStep size slew) :=
  h.log1.logEvent

theorem stepTo {want} (h : SlotsFrom T wiped s) : SlotsFrom T wiped (s.stepTo want) :=
  h.update.logStep.ite h

theorem bigError {want err} (h : SlotsFrom T wiped s) : SlotsFrom T wiped (s.bigError want err) :=
  (h.update.ite (h.update.stepTo.update.timeState.ite h.update.stepTo)).ite (h.update.update.logStep.ite h.update)

theorem driveTime {gov want err} (h : SlotsFrom T wiped s) : SlotsFrom T wiped (s.driveTime gov want err) := by
  unfold State.driveTime
  refine h.update.timeState.ite ?_
  split
  · exact h.stepTo.timeState.ite h
  · exact h.update.update.timeState.ite h.update
  · exact (h.update.bigError.ite h.update).ite h.update
  · exact h.ite (h.bigError.ite h.update.timeState)

theorem acceptEdge {gov} (h : SlotsFrom T wiped s) : SlotsFrom T wiped (s.acceptEdge gov) :=
  h.update.driveTime.refreshLicence

theorem execSitePpsEdge (h : SlotsFrom T wiped s) : NextFrom T wiped (execSitePpsEdge s) := by
  unfold Machine.execSitePpsEdge
  refine .next (h.ite (h.countDev.ite ?_))
  split
  · exact h.acceptEdge
  · exact h.acceptEdge.ite h.countDev.acceptEdge

theorem execPpsHoldover (h : SlotsFrom T wiped s) : NextFrom T wiped (execPpsHoldover s) :=
  .next (h.update.timeState.ite h)

/-! ### Machine/Registers.lean -/

theorem via {o} (h : SlotsFrom T wiped s) (ho : NextFrom T wiped o) : SlotsFrom T wiped (s.via o) := by
  unfold State.via
  split
  · exact ho _ rfl
  · exact h

theorem bayAccessErr {b} (h : SlotsFrom T wiped s) : SlotsFrom T wiped (s.bayAccessErr b) :=
  h.setRegs

theorem setCtlConfig {c} (h : SlotsFrom T wiped s) : SlotsFrom T wiped (s.setCtlConfig c) :=
  h.ite (h.update.ite h.update)

theorem setUrgBase {x} (h : SlotsFrom T wiped s) : SlotsFrom T wiped (s.setUrgBase x) :=
  h.ite (h.devCause.ite h.update)

theorem writeDevReg {m reg v} (h : SlotsFrom T true s) : SlotsFrom T true (s.writeDevReg m reg v) := by
  unfold State.writeDevReg
  dsimp only
  split
  · exact h.update
  · exact h.update
  · exact h.writeIntMask
  · exact h.update
  · exact h.via h.execCoreReset
  · exact h.via h.execClusterReset
  · exact h.update
  · exact h.via h.execDeviceReset
  · exact h.via h.execPowerDown
  · exact h.setCtlConfig
  · exact h.setCtlConfig
  · exact h.setCtlConfig
  · exact h.writeCtlWord
  · exact h.ringCtlSq
  · exact h.ringCtlCq
  · exact h.setUrgBase
  · exact h.writeUrgWord
  · exact h.ringUrgSq
  · exact h.ringUrgCq
  · exact h.update
  · exact h

theorem setBayConfig {b r} (h : SlotsFrom T wiped s) : SlotsFrom T wiped (s.setBayConfig b r) :=
  h.ite (h.setRegs.ite h.setRegs)

theorem writeBayReg {b m reg v} (h : SlotsFrom T wiped s) : SlotsFrom T wiped (s.writeBayReg b m reg v) :=
  h.setRegs.ite (h.setBay.ite (h.setRegs.ite (h.writeEventMask.ite (h.setBayConfig.ite (h.setBayConfig.ite
    (h.setBayConfig.ite (h.writeAdminWord.ite ((h.ringSq.ite h.ringCq).ite (h.setCounter.recheck.ite h)))))))))

theorem writeMsix {fn off data} (h : SlotsFrom T wiped s) : SlotsFrom T wiped (s.writeMsix fn off data) :=
  h.update

theorem writeWindow {fn b off data} (h : SlotsFrom T wiped s) : SlotsFrom T wiped (s.writeWindow fn b off data) := by
  unfold State.writeWindow
  refine (h.ite (h.bayAccessErr.ite (h.writeMsix.ite h))).ite ?_
  split
  · exact h.bayAccessErr
  · exact h
  · exact h.writeBayReg
  · exact h.writeBayReg
  · exact h.writeBayReg

theorem writeBar0 {off data} (h : SlotsFrom T true s) : SlotsFrom T true (s.writeBar0 off data) := by
  unfold State.writeBar0
  refine h.writeWindow.ite ((h.update.ite h.devCause).ite ((h.devCause.ite (h.writeMsix.ite h)).ite ?_))
  split
  · exact h.devCause
  · exact h
  · exact h.writeDevReg
  · exact h.writeDevReg
  · exact h.writeDevReg

theorem execRegisterWrite {fn offset data} (h : SlotsFrom T true s) :
    NextFrom T true (execRegisterWrite fn offset data s) := by
  unfold Machine.execRegisterWrite
  refine .next (h.ite ?_)
  split
  · exact h.emit
  · exact h.writeBar0
  · exact h.writeWindow.ite h

/-! ### Machine/Scarf.lean -/

theorem sendHello {b site answer} (h : SlotsFrom T wiped s) : SlotsFrom T wiped (s.sendHello b site answer) :=
  h.startCtl

theorem completeJoin {b} (h : SlotsFrom T wiped s) : SlotsFrom T wiped (s.completeJoin b) := by
  unfold State.completeJoin
  split
  · exact h
  · split
    · exact h
    · exact h.setJoin.finishNat

theorem execScarfJoin {hd blk group slot} : NextFrom s.slotTable wiped (execScarfJoin hd blk group slot s) := by
  unfold Machine.execScarfJoin
  refine .next (onRunning rfl fun _ ho h => ?_)
  split
  · exact h
  · split
    · exact h.fail
    · exact (h.setActive ho).setBay.completeJoin.ite ((h.setActive ho).setBay.foldl fun _ _ hs => hs.sendHello)

theorem execHello {bay port d} (h : SlotsFrom T wiped s) : NextFrom T wiped (execHello bay port d s) := by
  unfold Machine.execHello
  refine .next (h.takeCtl fun _ _ _ hs => ?_)
  dsimp only
  split
  · exact (hs.setJoin.completeJoin.sendHello.ite hs.setJoin.completeJoin).ite hs.setJoin.setBay.fail
  · exact (hs.setJoin.setJoin.ite hs.setJoin.setJoin.log1).sendHello.ite (hs.setJoin.setJoin.ite
      hs.setJoin.setJoin.log1)

theorem execJoinHelloTimeout {bay} (h : SlotsFrom T wiped s) : NextFrom T wiped (execJoinHelloTimeout bay s) := by
  unfold Machine.execJoinHelloTimeout
  refine .next ?_
  split
  · split
    · exact h.completeJoin.ite h
    · exact h
  · exact h

theorem execScarfLeave {hd} : NextFrom s.slotTable wiped (execScarfLeave hd s) := by
  unfold Machine.execScarfLeave
  refine .next (onRunning rfl fun _ ho h => ?_)
  split
  · exact h
  · split
    · exact h.fail
    · exact h.fail.ite (h.ite (h.setActive ho).setJoin.settleLeave)

theorem advanceEpoch {b e} (h : SlotsFrom T wiped s) : SlotsFrom T wiped (s.advanceEpoch b e) :=
  h.setJoin.prepareNow.serveAgain

theorem execScarfEpochClose {hd epoch step} :
    NextFrom s.slotTable wiped (execScarfEpochClose hd epoch step s) := by
  unfold Machine.execScarfEpochClose
  refine .next (onRunning rfl fun _ ho h => ?_)
  split
  · exact h
  · split
    · exact h.fail.ite (h.ite (h.fail.ite (h.advanceEpoch.finishNat.ite (h.setActive ho).setJoin)))
    · exact h.fail

theorem startFetch {b site epoch} (h : SlotsFrom T wiped s) : SlotsFrom T wiped (s.startFetch b site epoch) :=
  h.onJoined fun _ => h.ite h.setJoin.askFor

theorem nextBlock {b ftz j p l q n ti k adm} (h : SlotsFrom T wiped s) :
    SlotsFrom T wiped (s.nextBlock b ftz j p l q n ti k adm).1 := by
  unfold State.nextBlock
  dsimp only
  split
  · split
    · exact h.ite_fst h.setJoin.startFetch
    · exact h.startFetch
  · refine h.ite_fst ?_
    split
    · split
      · exact h.markCorrected.ite_fst h.markCorrected.setJoin.startFetch
      · exact h.markCorrected.startFetch
    · exact h.markCorrected

theorem passOne {b c ftz p} {a : State × PassEnd} {x} (h : SlotsFrom T wiped a.1) :
    SlotsFrom T wiped (State.passOne b c ftz p a x).1 := by
  unfold State.passOne
  extract_lets s
  split
  · refine h.ite_fst ?_
    extract_lets _ nb
    have base : SlotsFrom T wiped nb.1 := by
      unfold nb
      split
      · exact h
      · split
        · exact h.nextBlock
        · exact h
    split
    · exact h
    · split
      · exact base
      · split
        · exact base
        · extract_lets _ _ _ _ written
          split
          · exact base.stageStalls
          · split
            · exact base.useCodec
            · refine setJoin (s := written) ?_
              unfold written
              split
              · exact base.useCodec.raise.writeBay.writeBay.writeBay.markDirty
              · exact base.useCodec.raise
  · exact h

theorem passRecords {b c p old new} (h : SlotsFrom T wiped s) : SlotsFrom T wiped (s.passRecords b c p old new) :=
  h.foldl fun _ _ hs => hs.foldl fun _ _ ht => ht.diffRecord.ite ht

theorem endClose {b j c st} (h : SlotsFrom T wiped s) : SlotsFrom T wiped (s.endClose b j c st) :=
  (h.markCorrected.ite h).advanceEpoch.finishNat.tidyJoin

theorem execEpochClosePass {bay} (h : SlotsFrom T wiped s) : NextFrom T wiped (execEpochClosePass bay s) := by
  unfold Machine.execEpochClosePass
  refine .next (h.onJoined fun _ => ?_)
  split
  · extract_lets _ pass _ recorded r _ formed
    have hpass : SlotsFrom T wiped pass.1 := h.foldl_fst fun _ _ hs => hs.passOne
    have hrecorded : SlotsFrom T wiped recorded := hpass.ite hpass.passRecords
    have hr : SlotsFrom T wiped r.1 := h.ite_fst (hrecorded.setJoin.ite_fst hrecorded)
    have hformed : SlotsFrom T wiped formed := hr.formAll
    refine h.advanceEpoch.finishNat.tidyJoin.ite ?_
    split
    · exact hr.setJoin.fail.settleLeave
    · split
      · refine hformed.setJoin.fail.settleLeave.ite ?_
        split
        · exact hformed.endClose.setJoin.ite hformed
        · exact hformed
      · exact hformed
  · exact h.formAll.tidyJoin

theorem execPortHoldTimeout {bay} (h : SlotsFrom T wiped s) : NextFrom T wiped (execPortHoldTimeout bay s) := by
  unfold Machine.execPortHoldTimeout
  refine .next (h.onJoined fun _ => ?_)
  split
  · exact h.endClose.ite h
  · exact h

theorem sendMgmt {b member m} (h : SlotsFrom T wiped s) : SlotsFrom T wiped (s.sendMgmt b member m) := by
  unfold State.sendMgmt
  dsimp only
  split
  · exact h.emit.sendMsg
  · exact h.emit

theorem sendVector {b e} (h : SlotsFrom T wiped s) : SlotsFrom T wiped (s.sendVector b e) :=
  h.onJoined fun _ => h.ite (h.setJoin.foldl fun _ _ hs => hs.startCtl)

theorem takeReport {b r} (h : SlotsFrom T wiped s) : SlotsFrom T wiped (s.takeReport b r) :=
  h.setJoin.sendVector

theorem execAdmissionCut {bay} (h : SlotsFrom T wiped s) : NextFrom T wiped (execAdmissionCut bay s) :=
  .next (h.onJoined fun _ => h.ite (h.setJoin.takeReport.ite h.setJoin.sendMgmt))

theorem relaySite {b j m} (h : SlotsFrom T wiped s) : SlotsFrom T wiped (s.relaySite b j m) :=
  (h.foldl fun _ _ hs => hs.sendMgmt).ite h

theorem takeEntry {b k} (h : SlotsFrom T wiped s) : SlotsFrom T wiped (s.takeEntry b k) :=
  h.onJoined fun _ => h.log2.ite (h.ite h.setJoin.relaySite.prepareNow)

theorem execLedgerEntry {bay port d} (h : SlotsFrom T wiped s) : NextFrom T wiped (execLedgerEntry bay port d s) :=
  .next (h.takeCtl fun _ _ _ hs => hs.takeEntry.ite hs)

theorem execAdmissionVector {bay port d} (h : SlotsFrom T wiped s) :
    NextFrom T wiped (execAdmissionVector bay port d s) :=
  .next (h.takeCtl fun _ _ _ hs => hs.setJoin.relaySite.ite hs)

theorem execManagementPacket {bay m} (h : SlotsFrom T wiped s) : NextFrom T wiped (execManagementPacket bay m s) := by
  unfold Machine.execManagementPacket
  refine .next (h.takeMsg.onJoined fun _ => ?_)
  split
  · exact h.takeMsg.takeReport.ite h.takeMsg
  · exact h.takeMsg.ite h.takeMsg.setJoin
  · exact h.takeMsg.ite h.takeMsg.takeEntry

theorem execTallySlot {bay slot} (h : SlotsFrom T wiped s) : NextFrom T wiped (execTallySlot bay slot s) := by
  unfold Machine.execTallySlot
  refine .next (h.onJoined fun _ => h.ite ?_)
  split
  · exact h
  · exact (h.setJoin.foldl fun _ _ hs => hs.startCtl).takeEntry

theorem execLedgerFinal {bay} (h : SlotsFrom T wiped s) : NextFrom T wiped (execLedgerFinal bay s) := by
  unfold Machine.execLedgerFinal
  refine .next (h.onJoined fun _ => h.ite ?_)
  dsimp only
  split
  · exact h.setJoin.setJoin.prepareNow.serveAgain.tidyJoin
  · exact (h.setJoin.ite h.setJoin.setJoin.bayEvent).settleLeave

theorem execDigest {bay port d} (h : SlotsFrom T wiped s) : NextFrom T wiped (execDigest bay port d s) :=
  .next (h.takeCtl fun _ _ _ hs => hs.setJoin)

theorem decideDigest {b j l q} (h : SlotsFrom T wiped s) : SlotsFrom T wiped (s.decideDigest b j l q) := by
  unfold State.decideDigest
  dsimp only
  split
  · exact h.setJoin
  · exact h.setJoin.ite h.setJoin.log1

theorem replay {b j p l q} (h : SlotsFrom T wiped s) : SlotsFrom T wiped (s.replay b j p l q).1 :=
  (h.useFree.ite h).setJoin.sendDigest

theorem execDigestSettle {bay} (h : SlotsFrom T wiped s) : NextFrom T wiped (execDigestSettle bay s) := by
  unfold Machine.execDigestSettle
  refine .next (h.onJoined fun _ => ?_)
  dsimp only
  split
  · exact h.ite ((h.ite (h.setJoin.serveAgain.ite (h.replay.decideDigest.serveAgain.ite h.replay))).ite (h.ite
      h.decideDigest.serveAgain))
  · exact h

theorem execFarFilteredFrame {f} (h : SlotsFrom T wiped s) : NextFrom T wiped (execFarFilteredFrame f s) :=
  .next (h.countDev.ite (h.countDev.ite (h.countDev.ite h)))

/-- Whatever command runs, it does no more to the slots than steps may. -/
theorem exec {i : Instr} : ∃ wiped, NextFrom s.slotTable wiped (exec i s) := by
  cases i with
  | nop => exact ⟨true, execNop⟩
  | identify => exact ⟨true, execIdentify⟩
  | getLog => exact ⟨true, execGetLog⟩
  | queueCreate => exact ⟨true, execQueueCreate⟩
  | queueDelete => exact ⟨true, execQueueDelete⟩
  | counterSet => exact ⟨true, execCounterSet⟩
  | memCopy => exact ⟨true, execMemCopy⟩
  | memFill => exact ⟨true, execMemFill⟩
  | memMap => exact ⟨true, execMemMap⟩
  | memPlace => exact ⟨true, execMemPlace⟩
  | kernelLaunch => exact ⟨true, execKernelLaunch⟩
  | matmul => exact ⟨true, execMatmul⟩
  | quantStats => exact ⟨true, execQuantStats⟩
  | convert => exact ⟨true, execConvert⟩
  | rngFill => exact ⟨true, execRngFill⟩
  | stepGather => exact ⟨true, execStepGather⟩
  | stepUpdate => exact ⟨true, execStepUpdate⟩
  | updateArm => exact ⟨true, execUpdateArm⟩
  | updateDisarm => exact ⟨true, execUpdateDisarm⟩
  | normClip => exact ⟨true, execNormClip⟩
  | shardMapLoad => exact ⟨true, execShardMapLoad⟩
  | collAllreduce => exact ⟨true, execCollAllreduce⟩
  | collAllgather => exact ⟨true, execCollAllgather⟩
  | collReduceScatter => exact ⟨true, execCollReduceScatter⟩
  | collBroadcast => exact ⟨true, execCollBroadcast⟩
  | collGroupCreate => exact ⟨true, execCollGroupCreate⟩
  | collGroupDestroy => exact ⟨true, execCollGroupDestroy⟩
  | triggerArm => exact ⟨true, execTriggerArm⟩
  | triggerDisarm => exact ⟨true, execTriggerDisarm⟩
  | scarfJoin => exact ⟨true, execScarfJoin⟩
  | scarfLeave => exact ⟨true, execScarfLeave⟩
  | scarfEpochClose => exact ⟨true, execScarfEpochClose⟩
  | scarfCancel => exact ⟨true, execScarfCancel⟩
  | scarfCatchup => exact ⟨true, execScarfCatchup⟩
  | ckptCut => exact ⟨true, execCkptCut⟩
  | ckptDrain => exact ⟨true, execCkptDrain⟩
  | ckptRelease => exact ⟨true, execCkptRelease⟩
  | ckptRestore => exact ⟨true, execCkptRestore⟩
  | ckptVerify => exact ⟨true, execCkptVerify⟩
  | exportStream => exact ⟨true, execExportStream⟩
  | txnBegin => exact ⟨true, execTxnBegin⟩
  | txnCommit => exact ⟨true, execTxnCommit⟩
  | txnRollback => exact ⟨true, execTxnRollback⟩
  | bindCluster => exact ⟨true, execBindCluster⟩
  | bindMemory => exact ⟨true, execBindMemory⟩
  | bindShares => exact ⟨true, execBindShares⟩
  | bayReset => exact ⟨true, execBayReset⟩
  | keyLoad => exact ⟨true, execKeyLoad⟩
  | keyErase => exact ⟨true, execKeyErase⟩
  | cipherRun => exact ⟨true, execCipherRun⟩
  | digestRun => exact ⟨true, execDigestRun⟩
  | entropyRead => exact ⟨true, execEntropyRead⟩
  | licenceInstall => exact ⟨true, execLicenceInstall⟩
  | telemetryRead => exact ⟨true, execTelemetryRead⟩
  | seasonReport => exact ⟨true, execSeasonReport⟩
  | floorplanRead => exact ⟨true, execFloorplanRead⟩
  | linkTest => exact ⟨true, execLinkTest⟩
  | haltBay => exact ⟨true, execHaltBay⟩
  | evictBay => exact ⟨true, execEvictBay⟩
  | resumeBay => exact ⟨true, execResumeBay⟩
  | tidyCvt => exact ⟨true, execTidyCvt .refl⟩
  | tidyWid => exact ⟨true, execTidyWid .refl⟩
  | tidyStat => exact ⟨true, execTidyStat .refl⟩
  | tidyRsc => exact ⟨true, execTidyRsc .refl⟩
  | tidyQblk => exact ⟨true, execTidyQblk .refl⟩
  | tidyDrop => exact ⟨true, execTidyDrop .refl⟩
  | tidyGth => exact ⟨true, execTidyGth .refl⟩
  | tidySct => exact ⟨true, execTidySct .refl⟩
  | grainGet => exact ⟨true, execGrainGet .refl⟩
  | tidyDma => exact ⟨true, execTidyDma .refl⟩
  | xtenonCsrWrite => exact ⟨true, execXtenonCsrWrite .refl⟩
  | kernelEcallExit => exact ⟨true, execKernelEcallExit .refl⟩
  | coreException => exact ⟨true, execCoreException .refl⟩
  | cycleLimit => exact ⟨true, execCycleLimit .refl⟩
  | dmaDescriptorDone => exact ⟨true, execDmaDescriptorDone .refl⟩
  | submissionDoorbell => exact ⟨true, execSubmissionDoorbell .refl⟩
  | completionDoorbell => exact ⟨true, execCompletionDoorbell .refl⟩
  | ctlSqTail => exact ⟨true, execCtlSqTail .refl⟩
  | ctlCqHead => exact ⟨true, execCtlCqHead .refl⟩
  | urgSqTail => exact ⟨true, execUrgSqTail .refl⟩
  | urgCqHead => exact ⟨true, execUrgCqHead .refl⟩
  | eventCounterWrite => exact ⟨true, execEventCounterWrite .refl⟩
  | intMaskWrite => exact ⟨true, execIntMaskWrite .refl⟩
  | eventMaskWrite => exact ⟨true, execEventMaskWrite .refl⟩
  | coreReset => exact ⟨true, execCoreReset .refl⟩
  | clusterReset => exact ⟨true, execClusterReset .refl⟩
  | deviceReset => exact ⟨true, execDeviceReset .refl⟩
  | powerDown => exact ⟨true, execPowerDown .refl⟩
  | controlPairEnable => exact ⟨true, execControlPairEnable .refl⟩
  | controlPairDisable => exact ⟨true, execControlPairDisable .refl⟩
  | adminPairEnable => exact ⟨true, execAdminPairEnable .refl⟩
  | adminPairDisable => exact ⟨true, execAdminPairDisable .refl⟩
  | urgentQueueEnable => exact ⟨true, execUrgentQueueEnable .refl⟩
  | urgentQueueDisable => exact ⟨true, execUrgentQueueDisable .refl⟩
  | registerWrite => exact ⟨true, execRegisterWrite .refl⟩
  | apertureRead => exact ⟨true, execApertureRead .refl⟩
  | apertureWrite => exact ⟨true, execApertureWrite .refl⟩
  | vfFunctionLevelReset => exact ⟨true, execVfFunctionLevelReset .refl⟩
  | pfFunctionLevelReset => exact ⟨true, execPfFunctionLevelReset .refl⟩
  | entryFetch => exact ⟨false, execEntryFetch .refl⟩
  | commandDispatch => exact ⟨true, execCommandDispatch⟩
  | completionPost => exact ⟨true, execCompletionPost .refl⟩
  | coalesceTimer => exact ⟨true, execCoalesceTimer .refl⟩
  | urgentDoorbellSample => exact ⟨false, execUrgentDoorbellSample .refl⟩
  | triggerFire => exact ⟨true, execTriggerFire .refl⟩
  | pegDrainLimit => exact ⟨true, execPegDrainLimit .refl⟩
  | pegComplete => exact ⟨true, execPegComplete .refl⟩
  | bayHalted => exact ⟨true, execBayHalted .refl⟩
  | haltMemoryAbsorb => exact ⟨true, execHaltMemoryAbsorb .refl⟩
  | haltFlushLate => exact ⟨true, execHaltFlushLate .refl⟩
  | clusterResetAbsorb => exact ⟨true, execClusterResetAbsorb .refl⟩
  | updateSegmentArrival => exact ⟨true, execUpdateSegmentArrival .refl⟩
  | cutCopy => exact ⟨true, execCutCopy .refl⟩
  | predictiveCut => exact ⟨true, execPredictiveCut .refl⟩
  | evictBoundaryReached => exact ⟨true, execEvictBoundaryReached .refl⟩
  | evictTimeout => exact ⟨true, execEvictTimeout .refl⟩
  | epochClosePass => exact ⟨true, execEpochClosePass .refl⟩
  | bundleGrant => exact ⟨true, execBundleGrant .refl⟩
  | bundleLanding => exact ⟨true, execBundleLanding .refl⟩
  | fragment => exact ⟨true, execFragment .refl⟩
  | sack => exact ⟨true, execSack .refl⟩
  | admissionVector => exact ⟨true, execAdmissionVector .refl⟩
  | ledgerEntry => exact ⟨true, execLedgerEntry .refl⟩
  | digest => exact ⟨true, execDigest .refl⟩
  | catchupRequest => exact ⟨true, execCatchupRequest .refl⟩
  | catchupData => exact ⟨true, execCatchupData .refl⟩
  | controlAcknowledgement => exact ⟨true, execControlAcknowledgement .refl⟩
  | hello => exact ⟨true, execHello .refl⟩
  | joinHelloTimeout => exact ⟨true, execJoinHelloTimeout .refl⟩
  | ackTimer => exact ⟨true, execAckTimer .refl⟩
  | rtoExpiry => exact ⟨true, execRtoExpiry .refl⟩
  | peerUnreachable => exact ⟨true, execPeerUnreachable .refl⟩
  | portHoldTimeout => exact ⟨true, execPortHoldTimeout .refl⟩
  | admissionCut => exact ⟨true, execAdmissionCut .refl⟩
  | tallySlot => exact ⟨true, execTallySlot .refl⟩
  | ledgerFinal => exact ⟨true, execLedgerFinal .refl⟩
  | digestSettle => exact ⟨true, execDigestSettle .refl⟩
  | flitReceive => exact ⟨true, execFlitReceive .refl⟩
  | replayRequest => exact ⟨true, execReplayRequest .refl⟩
  | stompFlit => exact ⟨true, execStompFlit .refl⟩
  | packetRelay => exact ⟨true, execPacketRelay .refl⟩
  | fabricWrite => exact ⟨true, execFabricWrite .refl⟩
  | readRequest => exact ⟨true, execReadRequest .refl⟩
  | readResponse => exact ⟨true, execReadResponse .refl⟩
  | collectiveSegment => exact ⟨true, execCollectiveSegment .refl⟩
  | gatherSegment => exact ⟨true, execGatherSegment .refl⟩
  | counterAdd => exact ⟨true, execCounterAdd .refl⟩
  | groupControl => exact ⟨true, execGroupControl .refl⟩
  | groupAbort => exact ⟨true, execGroupAbort .refl⟩
  | collJoinTimeout => exact ⟨true, execCollJoinTimeout .refl⟩
  | collSilentTimeout => exact ⟨true, execCollSilentTimeout .refl⟩
  | laneLossOfLock => exact ⟨true, execLaneLossOfLock .refl⟩
  | portRetry => exact ⟨true, execPortRetry .refl⟩
  | seasoningSample => exact ⟨true, execSeasoningSample .refl⟩
  | cubeSubstitution => exact ⟨true, execCubeSubstitution .refl⟩
  | clusterRetirement => exact ⟨true, execClusterRetirement .refl⟩
  | coreRetirement => exact ⟨true, execCoreRetirement .refl⟩
  | bankRetirement => exact ⟨true, execBankRetirement .refl⟩
  | lineRecovery => exact ⟨true, execLineRecovery .refl⟩
  | historyWrite => exact ⟨true, execHistoryWrite .refl⟩
  | patrolScrub line => exact ⟨true, execPatrolScrub .refl (line := line)⟩
  | dramRefresh => exact ⟨true, execDramRefresh .refl⟩
  | powerInRange => exact ⟨true, execPowerInRange .refl⟩
  | resetN => exact ⟨true, execResetN .refl⟩
  | pciePerstN => exact ⟨true, execPciePerstN .refl⟩
  | bootRomStage => exact ⟨true, execBootRomStage .refl⟩
  | imageSelection => exact ⟨true, execImageSelection .refl⟩
  | nvOverlay => exact ⟨true, execNvOverlay .refl⟩
  | dramTraining => exact ⟨true, execDramTraining .refl⟩
  | laneTraining => exact ⟨true, execLaneTraining .refl⟩
  | bist => exact ⟨true, execBist .refl⟩
  | gcrtBroadcast => exact ⟨true, execGcrtBroadcast .refl⟩
  | ready => exact ⟨true, execReady .refl⟩
  | pendingBankTimeout => exact ⟨true, execPendingBankTimeout .refl⟩
  | pldmFirmwareUpdate => exact ⟨true, execPldmFirmwareUpdate .refl⟩
  | inputFault => exact ⟨true, execInputFault .refl⟩
  | keyAlarm => exact ⟨true, execKeyAlarm .refl⟩
  | thermalTrip => exact ⟨true, execThermalTrip .refl⟩
  | jtagInstructionLoad => exact ⟨true, execJtagInstructionLoad .refl⟩
  | thermalSensorSample => exact ⟨true, execThermalSensorSample .refl⟩
  | protectionLevelExit => exact ⟨true, execProtectionLevelExit .refl⟩
  | dramThermalHold => exact ⟨true, execDramThermalHold .refl⟩
  | dramThermalRelease => exact ⟨true, execDramThermalRelease .refl⟩
  | pllLossOfLock => exact ⟨true, execPllLossOfLock .refl⟩
  | cxlLinkDown => exact ⟨true, execCxlLinkDown .refl⟩
  | sitePpsEdge => exact ⟨true, execSitePpsEdge .refl⟩
  | siteTodFrame => exact ⟨true, execSiteTodFrame .refl⟩
  | ppsHoldover => exact ⟨true, execPpsHoldover .refl⟩
  | licenceWindowEdge => exact ⟨true, execLicenceWindowEdge .refl⟩
  | trngOutput => exact ⟨true, execTrngOutput .refl⟩
  | trngHealthFailure => exact ⟨true, execTrngHealthFailure .refl⟩
  | trngStartupDone => exact ⟨true, execTrngStartupDone .refl⟩
  | catchupTimeout => exact ⟨true, execCatchupTimeout .refl⟩
  | alarmConditionCleared => exact ⟨true, execAlarmConditionCleared⟩
  | jtagTrstN => exact ⟨true, execJtagTrstN .refl⟩
  | farFilteredFrame => exact ⟨true, execFarFilteredFrame .refl⟩
  | managementPacket => exact ⟨true, execManagementPacket .refl⟩

end SlotsFrom

/-! ### What steps keep -/

/-- A slot is that of a command of the table, with its outcome once it has finished, or of a command admitted since. -/
def SlotTable.Kept (T : SlotTable) (d : Slot) : Prop :=
  T.nextAdm ≤ d.adm ∨ ∃ c ∈ T.cmds, SameCommand c d ∧ (c.finished? = true → d.phase = c.phase)

/-- Every slot has a number of its own below the next. -/
structure SlotTable.Numbered (T : SlotTable) : Prop where
  rising : T.cmds.Pairwise (fun c d => c.adm < d.adm)
  below : ∀ c ∈ T.cmds, c.adm < T.nextAdm

section
variable {T : SlotTable} (hT : T.Numbered)
include hT

theorem SlotTable.Numbered.eq_of_adm {c d : Slot} (hc : c ∈ T.cmds) (hd : d ∈ T.cmds) (h : c.adm = d.adm) : c = d :=
  List.inj_on_of_nodup_map (List.pairwise_map.2 (hT.rising.imp Nat.ne_of_lt)) hc hd h

/-- A slot that is kept is that of the one command of its number, when the table has one. -/
theorem SlotTable.Kept.of_adm {c d : Slot} (h : T.Kept d) (hc : c ∈ T.cmds) (hadm : c.adm = d.adm) :
    SameCommand c d ∧ (c.finished? = true → d.phase = c.phase) := by
  rcases h with h | ⟨x, hx, hxd⟩
  · have := hT.below c hc
    omega
  · rwa [hT.eq_of_adm hc hx (hadm.trans hxd.1.adm_eq)]

/-- A command that is open has not finished in the table either. -/
theorem SlotTable.Kept.unfinished {c d : Slot} (h : T.Kept d) (hd : d.finished? = false) (hc : c ∈ T.cmds)
    (hadm : c.adm = d.adm) : c.finished? = false := by
  by_contra hf
  have hp := (h.of_adm hT hc hadm).2 (by simpa using hf)
  rw [Slot.finished?, hp] at hd
  exact hf hd

end

theorem SlotTable.kept_self {T : SlotTable} {c : Slot} (hc : c ∈ T.cmds) : T.Kept c :=
  .inr ⟨c, hc, ⟨rfl, rfl⟩, fun _ => rfl⟩

theorem SlotTable.Kept.note {T : SlotTable} {f : Slot → Slot} {d : Slot} (h : T.Kept d) (hf : IsNote f) :
    T.Kept (f d) := by
  rcases h with h | ⟨c, hc, hcd, hp⟩
  · exact .inl (by rwa [(hf d).1.adm_eq])
  · exact .inr ⟨c, hc, ⟨(hf d).1.instr.trans hcd.instr, (hf d).1.ftz.trans hcd.ftz⟩,
      fun hfin => (hf d).2.trans (hp hfin)⟩

/-- The phase of a slot may change while the table's command of its number has not finished. -/
theorem SlotTable.Kept.rephase {T : SlotTable} {d e : Slot} (h : T.Kept d) (hs : SameCommand d e)
    (hopen : ∀ c ∈ T.cmds, c.adm = d.adm → c.finished? = false) : T.Kept e := by
  rcases h with h | ⟨c, hc, hcd, -⟩
  · exact .inl (by rwa [hs.adm_eq])
  · exact .inr ⟨c, hc, ⟨hs.instr.trans hcd.instr, hs.ftz.trans hcd.ftz⟩, fun hfin => by
      simp [hopen c hc hcd.adm_eq.symm] at hfin⟩

/-- Every slot that a step leaves is kept or new, and while the device is not reset the admission numbers only rise. -/
theorem SlotSteps.kept {T t : SlotTable} {wiped : Bool} (hT : T.Numbered) (h : SlotSteps T wiped t) :
    (∀ d ∈ t.cmds, T.Kept d) ∧ (wiped = false → T.nextAdm ≤ t.nextAdm) := by
  induction h with
  | refl => exact ⟨fun d hd => SlotTable.kept_self hd, fun _ => Nat.le_refl _⟩
  | note f _ hf ih =>
    refine ⟨fun d hd => ?_, ih.2⟩
    obtain ⟨c, hc, rfl⟩ := List.mem_map.1 hd
    exact (ih.1 c hc).note hf
  | proceed adm f _ ho hf ih =>
    refine ⟨fun d hd => ?_, ih.2⟩
    obtain ⟨c, hc, rfl⟩ := List.mem_map.1 hd
    split
    · rename_i hadm
      obtain ⟨x, hx, hxadm, hxf⟩ := ho
      refine (ih.1 c hc).rephase (hf c).1 fun y hy hyc => ?_
      rwa [hT.eq_of_adm hy hx (by rw [hyc, hxadm, eq_of_beq hadm])]
    · exact ih.1 c hc
  | finish adm st r _ ho ih =>
    refine ⟨fun d hd => ?_, ih.2⟩
    obtain ⟨c, hc, rfl⟩ := List.mem_map.1 hd
    split
    · rename_i hadm
      obtain ⟨x, hx, hxadm, hxf⟩ := ho
      exact (ih.1 c hc).rephase ⟨rfl, rfl⟩ fun y hy hyc =>
        (ih.1 x hx).unfinished hT hxf hy (by rw [hyc, hxadm, eq_of_beq hadm])
    · exact ih.1 c hc
  | drop p _ ih => exact ⟨fun d hd => ih.1 d (List.mem_filter.1 hd).1, ih.2⟩
  | add c _ hadm _ ih =>
    have hle := ih.2 rfl
    refine ⟨fun d hd => ?_, fun _ => Nat.le_succ_of_le hle⟩
    rcases List.mem_append.1 hd with hd | hd
    · exact ih.1 d hd
    · rw [List.mem_singleton.1 hd]
      exact .inl (hadm ▸ hle)
  | reset => exact ⟨fun d hd => (List.not_mem_nil hd).elim, fun h => by cases h⟩

/-- With a command waiting the step is that command's meaning; with none only the clock moves and ports may send. -/
theorem SlotsFrom.step {s t : State} (ht : step s = .next t) : ∃ wiped, SlotsFrom s.slotTable wiped t := by
  unfold Machine.step at ht
  split at ht
  · cases ht
    exact ⟨true, (SlotsFrom.tick .refl).idleFlits.ite (SlotsFrom.tick .refl)⟩
  · rename_i rest _
    obtain ⟨wiped, h⟩ := SlotsFrom.exec (s := { s with pending := rest })
    exact ⟨wiped, h t ht⟩

/-- Settles O57: whatever a step does to the slots, one that is left under a number of before is that command's. -/
theorem slotsKeepTheirFacts : Obligations.SlotsKeepTheirFacts := by
  unfold Obligations.SlotsKeepTheirFacts
  intro s t hs ht c hc c' hc'
  obtain ⟨hrising, hbelow, -⟩ := hs
  obtain ⟨wiped, h⟩ := SlotsFrom.step ht
  have hT : s.slotTable.Numbered := ⟨hrising, hbelow⟩
  have hkept := (SlotSteps.kept hT h).1 c' (List.mem_of_find?_eq_some hc')
  have hadm : c'.adm = c.adm := by simpa using List.find?_some hc'
  obtain ⟨hsame, hphase⟩ := hkept.of_adm hT hc hadm.symm
  exact ⟨hsame.instr, hsame.ftz, hphase⟩

end Sys2Proof
end

section
/-! The element commands: QUANT_STATS, CONVERT and RNG_FILL. -/
namespace Sys2Proof
open Machine

/-! ### A dispatched command -/

theorem Running.adm_eq {s : State} {c : Slot} {i : Instr} {h : Hdr} (hr : Running s c i) (hi : hdrOf i = some h) :
    c.adm = h.adm := by
  obtain ⟨-, -, rfl⟩ := hr
  unfold Slot.adm Slot.hdr
  rw [hi]
  rfl

/-- The operation that runs is the dispatched command's. -/
theorem Running.onRunning {s : State} {c : Slot} {i : Instr} {h : Hdr} (hr : Running s c i) (hi : hdrOf i = some h)
    (g : Slot → State) : s.onRunning i g = g c := by
  obtain ⟨hs, hp, hc⟩ := id hr
  exact s.onRunning_run i h c g hi (hr.adm_eq hi ▸ hs) hp hc

/-- A read that meets no unreadable line is not logged. -/
theorem completeIn_eq_complete {s : State} {adm b : Nat} {ins : List (Nat × Nat)} {f : State → Eff}
    {t : State} {r : Nat} (h : f s = (t, .ok, r)) : s.completeIn adm b ins f = s.complete adm f := by
  unfold State.completeIn State.complete
  simp [h]

/-! ### Flags -/

theorem raiseFlags_zero (w : W32) : raiseFlags w 0 = w := by simp [raiseFlags]

/-- Raised flags are ORed into the word of their bay (R68). -/
theorem flags_raise (s : State) {b : Nat} (f : W32) (hb : b < s.bays.length) :
    ((s.raise b f).bay b).flags = raiseFlags (s.bay b).flags f := by
  unfold State.raise
  split
  · rename_i hf
    rw [hf, raiseFlags_zero]
  · rw [State.bay_setBay_self _ _ _ hb]

theorem sameMemory_raise (s : State) (b : Nat) (f : W32) : SameMemory s (s.raise b f) := by
  rw [State.raise_frame]
  exact ⟨rfl, rfl, rfl, rfl, rfl, rfl⟩

theorem SameMemory.trans {s t u : State} (h : SameMemory s t) (g : SameMemory t u) : SameMemory s u := by
  obtain ⟨h1, h2, h3, h4, h5, h6⟩ := h
  obtain ⟨g1, g2, g3, g4, g5, g6⟩ := g
  exact ⟨g1.trans h1, g2.trans h2, g3.trans h3, g4.trans h4, g5.trans h5, g6.trans h6⟩

/-! ### Elements written -/

@[simp] theorem bays_writeBay (s : State) (b a : Nat) (bs : List Byte) : (s.writeBay b a bs).bays = s.bays := by
  rw [State.writeBay_frame]

theorem slot?_writeBay_raise (s : State) (b a : Nat) (bs : List Byte) (f : W32) (adm : Nat) :
    ((s.writeBay b a bs).raise b f).slot? adm = s.slot? adm := by
  rw [State.raise_frame, State.writeBay_frame]
  rfl

/-- A write that need skip no line leaves the status as it is (R339). -/
theorem outStatus_one {s : State} {b a n : Nat} (h : s.rangeSkips b .wr a n = false) (st : Status) :
    s.outStatus b [(a, n)] st = st := by
  simp [State.outStatus, h]

/-- A running command that writes bytes and raises flags ends OK with result 0: the bytes stand at their place, and the
bay's word has the flags. -/
theorem Running.writes_ok {s : State} {c : Slot} {i : Instr} {h : Hdr} {b a : Nat} {bs : List Byte} {fl : W32}
    {f : State → Eff} {g : Slot → State} (hr : Running s c i) (hi : hdrOf i = some h) (hb : b < s.bays.length)
    (hg : g c = s.complete c.adm f) (hf : f s = ((s.writeBay b a bs).raise b fl, .ok, 0)) :
    ∃ t, Host.Outcome.next (φ := Fault) (ρ := Refusal) (s.onRunning i g) = .next t ∧ Ended t c .ok 0 ∧
      SameMemory (s.writeBay b a bs) t ∧ (t.bay b).flags = raiseFlags (s.bay b).flags fl := by
  obtain ⟨hs, hp, -⟩ := id hr
  have hslot : (f s).1.slot? c.adm = some c := by
    rw [hf]
    exact (slot?_writeBay_raise ..).trans hs
  obtain ⟨hended, hmem, hcores⟩ := State.complete_spec s c f hslot hp
  rw [hf] at hended hmem hcores
  refine ⟨_, congrArg _ ((hr.onRunning hi g).trans hg), hended, (sameMemory_raise ..).trans hmem, ?_⟩
  rw [hcores b]
  refine (flags_raise _ fl (by simpa using hb)).trans ?_
  unfold State.bay
  rw [bays_writeBay]

/-- The same for a command that reads the given ranges. -/
theorem Running.writesIn_ok {s : State} {c : Slot} {i : Instr} {h : Hdr} {b a : Nat} {bs : List Byte} {fl : W32}
    {ins : List (Nat × Nat)} {f : State → Eff} {g : Slot → State} (hr : Running s c i) (hi : hdrOf i = some h)
    (hb : b < s.bays.length) (hg : g c = s.completeIn c.adm b ins f)
    (hf : f s = ((s.writeBay b a bs).raise b fl, .ok, 0)) :
    ∃ t, Host.Outcome.next (φ := Fault) (ρ := Refusal) (s.onRunning i g) = .next t ∧ Ended t c .ok 0 ∧
      SameMemory (s.writeBay b a bs) t ∧ (t.bay b).flags = raiseFlags (s.bay b).flags fl :=
  hr.writes_ok hi hb (hg.trans (completeIn_eq_complete hf)) hf

/-- Settles O21: each command's effect is one write and the flags of its elements, and it ends with that. -/
theorem elementCommandsComplete : Obligations.ElementCommandsComplete := by
  unfold Obligations.ElementCommandsComplete
  intro s c h b hparts hbay hb
  have hlen : b < s.bays.length := by rw [hparts.1]; exact hb
  refine ⟨fun o hr hio hskip => ?_, fun o hr hio hskip => ?_, fun o hr hio hskip => ?_⟩
  · refine hr.writesIn_ok (ins := statsIns o) (f := State.quantStatsEff b o) rfl hlen ?_ ?_
    · rw [hbay, ← hr.adm_eq rfl]
    · rw [State.quantStatsEff, hio, statsOuts, outStatus_one hskip]
  · refine hr.writesIn_ok (ins := convertIns o) (f := State.convertEff b c.ftz o) rfl hlen ?_ ?_
    · rw [hbay, ← hr.adm_eq rfl]
    · rw [State.convertEff, hio, convertOuts, outStatus_one hskip]
  · refine hr.writes_ok (f := State.rngFillEff b o) rfl hlen ?_ ?_
    · rw [hbay, ← hr.adm_eq rfl]
    · rw [State.rngFillEff, hio, rngOuts, outStatus_one hskip]

end Sys2Proof
end

section
/-! The Xtenon vector instructions on a core that runs a kernel. -/
namespace Sys2Proof
open Machine

/-! ### Cores -/

theorem assoc_assocSet_self {α : Type} (l : List (Nat × α)) (k : Nat) (v : α) : assoc (assocSet l k v) k = some v := by
  unfold assocSet
  split
  · rename_i h
    unfold assoc
    induction l with
    | nil => simp at h
    | cons p l ih =>
      rw [List.any_cons, Bool.or_eq_true] at h
      by_cases hp : p.1 = k
      · simp [hp]
      · have hl : l.any (·.1 == k) = true := h.resolve_left (by simpa using hp)
        simpa [List.find?_cons, hp] using ih hl
  · rename_i h
    have hnone : l.find? (·.1 == k) = none := List.find?_eq_none.2 fun p hp hk => h (List.any_eq_true.2 ⟨p, hp, hk⟩)
    simp [assoc, List.find?_append, hnone]

theorem assoc_assocSet_other {α : Type} (l : List (Nat × α)) {k q : Nat} (v : α) (h : q ≠ k) :
    assoc (assocSet l k v) q = assoc l q := by
  unfold assocSet
  split
  · unfold assoc
    clear * - h
    induction l with
    | nil => rfl
    | cons p l ih =>
      by_cases hp : p.1 = k
      · simpa [List.find?_cons, hp, Ne.symm h] using ih
      · by_cases hq : p.1 = q
        · simp [hq, h]
        · simpa [List.find?_cons, hp, hq] using ih
  · simp [assoc, List.find?_append, Ne.symm h]

theorem core_setCore_self (s : State) (k : Nat) (f : Core → Core) : (s.setCore k f).core k = f (s.core k) := by
  simp [State.core, State.setCore, assoc_assocSet_self]

theorem core_setCore_other (s : State) {k q : Nat} (f : Core → Core) (h : q ≠ k) :
    (s.setCore k f).core q = s.core q := by
  simp [State.core, State.setCore, assoc_assocSet_other _ _ h]

@[simp] theorem core_raise (s : State) (b : Nat) (f : W32) (q : Nat) : (s.raise b f).core q = s.core q := by
  rw [State.raise_frame]
  rfl

/-- An instruction that leaves its core running the launch goes on past it. -/
theorem OnCore.exec_past {s : State} {c : CoreRef} {key adm b : Nat} {k : Core} {i : Instr}
    {f : Nat → Core → Nat → State} {t : State} (h : OnCore s c key k adm b) (hexec : exec i s = .next (s.onCore c f))
    (hf : f key k b = t) (ht : (t.core key).launch = some adm) : exec i s = .next (t.setCore key Core.past) := by
  obtain ⟨hkey, hk, hlaunch, hexited, hbay⟩ := h
  rw [hexec]
  unfold State.onCore
  rw [hkey]
  dsimp only
  rw [hk, hlaunch]
  dsimp only
  rw [hexited, hbay]
  dsimp only
  rw [hf, if_pos ht]
  simp

/-! ### Reads that may come late (R136) -/

/-- Two states that differ in nothing an instruction reads from the bay's memory or leaves behind, but counters. -/
structure ReadsAlike (s u : State) (b : Nat) : Prop where
  cores : u.cores = s.cores
  bays : u.bays.length = s.bays.length
  flags : (u.bay b).flags = (s.bay b).flags
  mem : SameMemory s u
  bad : ∀ a n, u.rangeBad b .rd a n = s.rangeBad b .rd a n
  ok : ∀ a n, u.rangeOk b .rd a n = s.rangeOk b .rd a n
  read : ∀ a n, u.readBay b a n = s.readBay b a n

theorem ReadsAlike.refl (s : State) (b : Nat) : ReadsAlike s s b :=
  ⟨rfl, rfl, rfl, ⟨rfl, rfl, rfl, rfl, rfl, rfl⟩, fun _ _ => rfl, fun _ _ => rfl, fun _ _ => rfl⟩

theorem bay_countBay (s : State) (b i n b' : Nat) :
    ∃ tele, (s.countBay b i n).bay b' = { s.bay b' with tele := tele } := by
  rcases State.bay_setBay s b b' (fun y => { y with tele := updNth y.tele i (fun v => (v + n) % 2 ^ 64) })
    with ⟨h, -⟩ | h
  · exact ⟨_, h⟩
  · exact ⟨_, h⟩

/-- A bay's counters bear on no address. -/
theorem translate_countBay (s : State) (b i n b' : Nat) (acc : Acc) (a m : Nat) :
    (s.countBay b i n).translate b' acc a m = s.translate b' acc a m := by
  obtain ⟨tele, h⟩ := bay_countBay s b i n b'
  unfold State.translate State.clusterOk
  rw [h]
  rfl

theorem ReadsAlike.lateReads (s : State) (b : Nat) (rs : List (Nat × Nat)) : ReadsAlike s (s.lateReads b rs) b := by
  unfold State.lateReads
  split
  · have htr : ∀ i n m acc a k, ((s.countBay b i n).useFree m).translate b acc a k = s.translate b acc a k :=
      fun i n m => translate_countBay s b i n b
    refine ⟨rfl, State.setBay_length .., ?_, ⟨rfl, rfl, rfl, rfl, rfl, rfl⟩, fun a n => ?_, fun a n => ?_,
      fun a n => ?_⟩
    · obtain ⟨tele, h⟩ := bay_countBay s b 1 (s.freeNow.toNat % 2 ^ 32) b
      have hflags := congrArg Bay.flags h
      exact hflags
    · unfold State.rangeBad
      simp only [htr]
      rfl
    · unfold State.rangeOk
      simp only [htr]
    · unfold State.readBay State.readAcc
      simp only [htr]
      rfl
  · exact .refl s b

section
variable {s u : State} {b sew : Nat} {as : List Nat} (hu : ReadsAlike s u b)
include hu

/-- No element of a gather meets an unreadable line. -/
theorem ReadsAlike.gather_readable (h : as.any (fun a => s.rangeBad b .rd a sew) = false) :
    ((as.filter (fun a => a % sew == 0)).map (fun a => (a, sew))).any (fun r => u.rangeBad b .rd r.1 r.2) = false := by
  rw [List.any_eq_false] at h ⊢
  intro r hr
  obtain ⟨a, ha, rfl⟩ := List.mem_map.1 hr
  rw [hu.bad]
  exact h a (List.mem_filter.1 ha).1

/-- No element of a gather is misaligned or refused. -/
theorem ReadsAlike.gather_permitted (h : as.all (s.elemOk b .rd sew) = true) :
    as.any (fun a => !u.elemOk b .rd sew a) = false := by
  rw [List.any_eq_false]
  intro a ha
  have := List.all_eq_true.1 h a ha
  unfold State.elemOk at this ⊢
  rw [hu.ok, this]
  simp

end

/-! ### Vector results -/

/-- An instruction whose operation puts a vector result has it written, on a state that reads alike. -/
theorem OnCore.written {s u : State} {c : CoreRef} {key adm b vd : Nat} {k : Core} {i : Instr}
    {f : Nat → Core → Nat → State} {x : Flagged (List Byte)} (h : OnCore s c key k adm b) (hb : b < s.bays.length)
    (hexec : exec i s = .next (s.onCore c f)) (hu : ReadsAlike s u b) (hf : f key k b = u.putVec key b vd x) :
    VectorWritten s i key b k vd x := by
  obtain ⟨-, hk, hlaunch, -⟩ := id h
  have hcore : ∀ q, u.core q = s.core q := fun q => by rw [State.core, hu.cores, State.core]
  have hput : (u.putVec key b vd x).core key = k.vwrite vd x.1 := by
    rw [State.putVec, core_raise, core_setCore_self, hcore, hk]
  refine ⟨_, h.exec_past hexec hf (by rw [hput]; exact hlaunch), ?_, fun q hq => ?_, ?_, ?_⟩
  · rw [core_setCore_self, hput]
  · rw [core_setCore_other _ _ hq, State.putVec, core_raise, core_setCore_other _ _ hq, hcore]
  · refine (flags_raise (u.setCore key _) x.2 (hu.bays ▸ hb)).trans ?_
    exact congrArg (raiseFlags · x.2) hu.flags
  · exact hu.mem.trans (sameMemory_raise (u.setCore key _) b x.2)

/-- Free values used up beside a result without flags bear on nothing else. -/
theorem putVec_useFree (s : State) (key b vd n : Nat) (bs : List Byte) :
    (s.putVec key b vd (bs, 0)).useFree n = (s.useFree n).putVec key b vd (bs, 0) := by
  simp [State.putVec, State.raise, State.setCore, State.useFree, State.core]

theorem ReadsAlike.useFree (s : State) (b n : Nat) : ReadsAlike s (s.useFree n) b :=
  ⟨rfl, rfl, rfl, ⟨rfl, rfl, rfl, rfl, rfl, rfl⟩, fun _ _ => rfl, fun _ _ => rfl, fun _ _ => rfl⟩

/-! ### Scattered lanes -/

/-- Lanes written change memory and its marks, and nothing else. -/
theorem foldl_writeBay_frame {α : Type} (b : Nat) (addr : α → Nat) (bytes : α → List Byte) (l : List α) (s : State) :
    let t := l.foldl (fun u p => u.writeBay b (addr p) (bytes p)) s
    t.bays = s.bays ∧ t.cores = s.cores := by
  induction l generalizing s with
  | nil => exact ⟨rfl, rfl⟩
  | cons p l ih =>
    obtain ⟨hb, hc⟩ := ih (s.writeBay b (addr p) (bytes p))
    refine ⟨hb.trans (bays_writeBay ..), hc.trans ?_⟩
    rw [State.writeBay_frame]

/-- Settles O23: every result is put into the vector registers, and tidy.sct's lanes into memory. -/
theorem vectorInstructionsComplete : Obligations.VectorInstructionsComplete := by
  unfold Obligations.VectorInstructionsComplete
  intro s c key adm b k h hparts hb
  have hlen : b < s.bays.length := by rw [hparts.1]; exact hb
  refine ⟨fun vd vs2 => ?_, fun vd vs2 => ?_, fun vd vs2 => ?_, fun vd vs2 hblk => ?_, fun vd vs2 hblk => ?_,
    fun vd vs2 rs1 => ?_, fun vd rs1 => ?_, fun vd vs2 rs1 => ?_, fun vd vs2 hok hgood => ?_,
    fun vs3 vs2 hok hskip => ?_⟩
  · exact h.written hlen rfl (.refl s b) rfl
  · exact h.written hlen rfl (.refl s b) rfl
  · exact h.written hlen rfl (.refl s b) rfl
  · exact h.written hlen rfl (.refl s b) (if_pos hblk)
  · refine h.written hlen rfl (.useFree s b (storedBytes 8 k.vl)) ?_
    dsimp only
    rw [if_neg (by simp [hblk])]
    exact putVec_useFree ..
  · exact h.written hlen rfl (.refl s b) rfl
  · exact h.written hlen rfl (.refl s b) rfl
  · intro a vs hok hgood
    have hlate := ReadsAlike.lateReads s b [(a, 8 * k.vl)]
    refine h.written hlen rfl hlate ?_
    have hbad := (hlate.bad a (8 * k.vl)).trans hgood
    have hread := hlate.ok a (8 * k.vl) |>.trans hok
    dsimp only
    rw [if_neg (by rw [hbad]; simp), if_neg (by rw [hread]; simp), hlate.read]
  · have hlate := ReadsAlike.lateReads s b
      (((k.indices vs2).filter (fun a => a % k.sew == 0)).map (fun a => (a, k.sew)))
    refine h.written hlen rfl hlate ?_
    dsimp only
    rw [if_neg (by rw [hlate.gather_readable hgood]; simp), if_neg (by rw [hlate.gather_permitted hok]; simp)]
    simp only [hlate.read]
  · obtain ⟨-, hk, hlaunch, -⟩ := id h
    obtain ⟨hbays, hcores⟩ := foldl_writeBay_frame b Prod.fst
      (fun p => slice (k.vread vs3 (k.sew * k.vl)) (k.sew * p.2) k.sew) (k.indices vs2).zipIdx s
    have hcore : ((k.indices vs2).zipIdx.foldl (fun u p =>
        u.writeBay b p.1 (slice (k.vread vs3 (k.sew * k.vl)) (k.sew * p.2) k.sew)) s).core key = k := by
      rw [State.core, hcores]
      exact hk
    refine ⟨_, h.exec_past rfl ?_ (by rw [hcore]; exact hlaunch), ?_, hbays, ⟨rfl, rfl, rfl, rfl, rfl, rfl⟩⟩
    · dsimp only
      rw [List.takeWhile_eq_self_iff.2 (List.all_eq_true.1 hok), if_neg (by rw [hskip]; simp), if_pos rfl]
    · rw [core_setCore_self, hcore]

end Sys2Proof
end

section
/-! The engine commands: MATMUL, with the failures that its engines recover from, and KERNEL_LAUNCH. -/
namespace Sys2Proof
open Machine

/-! ### What writes and launches leave -/

/-- All but memory, its marks and the cores is the same. -/
abbrev KeepsRest (s t : State) : Prop :=
  t = { s with
    dram := t.dram, sram := t.sram, local_ := t.local_, host := t.host, zeroMarks := t.zeroMarks, poison := t.poison
    cores := t.cores }

theorem KeepsRest.trans {s t u : State} (h : KeepsRest s t) (g : KeepsRest t u) : KeepsRest s u := by
  unfold KeepsRest
  rw [g, h]

theorem KeepsRest.writeLoc (s : State) (l : Loc) (bs : List Byte) : KeepsRest s (s.writeLoc l bs) := by
  unfold KeepsRest
  rw [State.writeLoc_frame]

theorem KeepsRest.writeBay (s : State) (b a : Nat) (bs : List Byte) : KeepsRest s (s.writeBay b a bs) := by
  unfold KeepsRest
  rw [State.writeBay_frame]

theorem KeepsRest.setCore (s : State) (key : Nat) (f : Core → Core) : KeepsRest s (s.setCore key f) := rfl

theorem KeepsRest.foldl {α : Type} {f : State → α → State} (hf : ∀ s x, KeepsRest s (f s x)) (l : List α) (s : State) :
    KeepsRest s (l.foldl f s) :=
  List.foldlRecOn l f (motive := KeepsRest s) rfl fun _ h x _ => h.trans (hf _ x)

theorem KeepsRest.translate {s t : State} (h : KeepsRest s t) (b : Nat) (acc : Acc) (a n : Nat) :
    t.translate b acc a n = s.translate b acc a n := by
  rw [h]
  rfl

section
variable {s t : State} (h : KeepsRest s t)
include h

theorem KeepsRest.clusters : t.clusters = s.clusters := by rw [h]

theorem KeepsRest.bays : t.bays = s.bays := by rw [h]

theorem KeepsRest.slot? (adm : Nat) : t.slot? adm = s.slot? adm := by
  rw [h]
  rfl

theorem KeepsRest.t3down : t.t3down = s.t3down := by rw [h]

end

/-! ### Writes on states with the same memory -/

theorem SameMemory.refl (s : State) : SameMemory s s := ⟨rfl, rfl, rfl, rfl, rfl, rfl⟩

theorem SameMemory.unmark {s t : State} (h : SameMemory s t) (r : Nat) : SameMemory (s.unmark r) (t.unmark r) := by
  obtain ⟨hd, hs, hl, hh, hz, hp⟩ := id h
  unfold State.unmark
  rw [hz]
  split
  · exact ⟨congrArg (Mem.clear · _ _) hd, hs, hl, hh, rfl, hp⟩
  · exact h

/-- A write at a place depends on memory and its marks alone. -/
theorem SameMemory.writeLoc {s t : State} (h : SameMemory s t) (l : Loc) (bs : List Byte) :
    SameMemory (s.writeLoc l bs) (t.writeLoc l bs) := by
  obtain ⟨hd, hs, hl, hh, hz, hp⟩ := h
  have hskip : t.skipped l bs.length = s.skipped l bs.length := by
    unfold State.skipped
    rw [hp]
  unfold State.writeLoc
  dsimp only
  rw [hskip, hp]
  generalize List.filter _ s.poison = marks
  cases l.sp with
  | dram =>
    obtain ⟨hd', hrest⟩ := List.foldl_rel (l := rangesOf l.addr bs.length) (f := State.unmark) (g := State.unmark)
      (r := SameMemory) (a := { s with poison := marks }) (b := { t with poison := marks }) ⟨hd, hs, hl, hh, hz, rfl⟩
      (fun r _ _ _ hu => hu.unmark r)
    exact ⟨congrArg (Mem.write _ · _ _) hd', hrest⟩
  | sram => exact ⟨hd, congrArg (Mem.write _ · _ _) hs, hl, hh, hz, rfl⟩
  | local_ => exact ⟨hd, hs, congrArg (Mem.write _ · _ _) hl, hh, hz, rfl⟩
  | host => exact ⟨hd, hs, hl, congrArg (Mem.write _ · _ _) hh, hz, rfl⟩

/-- Two states with the same memory, in which a bay's addresses reach the same places. -/
structure WritesAlike (s t : State) (b : Nat) : Prop where
  mem : SameMemory s t
  place : ∀ acc a n, t.translate b acc a n = s.translate b acc a n
  gone : t.t3down = s.t3down

namespace WritesAlike
variable {s t : State} {b : Nat}

theorem writeLoc (h : WritesAlike s t b) (l : Loc) (bs : List Byte) :
    WritesAlike (s.writeLoc l bs) (t.writeLoc l bs) b := by
  have hs := KeepsRest.writeLoc s l bs
  have ht := KeepsRest.writeLoc t l bs
  refine ⟨h.mem.writeLoc l bs, fun acc a n => ?_, ?_⟩
  · rw [ht.translate, hs.translate, h.place]
  · rw [ht.t3down, hs.t3down, h.gone]

theorem writePieces (h : WritesAlike s t b) (acc : Acc) (ps : List (Nat × Nat)) (bs : List Byte) :
    WritesAlike (State.writePieces b acc ps bs s) (State.writePieces b acc ps bs t) b := by
  induction ps generalizing s t bs with
  | nil => exact h
  | cons p ps ih =>
    unfold State.writePieces
    refine ih ?_ _
    rw [h.place]
    split
    · rename_i l _
      have hlost : t.lost l = s.lost l := by unfold State.lost; rw [h.gone]
      rw [hlost]
      split
      · exact h
      · exact h.writeLoc ..
    · exact h

theorem writeBay (h : WritesAlike s t b) (a : Nat) (bs : List Byte) :
    WritesAlike (s.writeBay b a bs) (t.writeBay b a bs) b :=
  h.writePieces ..

end WritesAlike

/-! ### What a recovery changes (R87, R88) -/

/-- Beside free values, planned failures, outputs, the device's registers, clusters and the error log, only each bay's
telemetry, log and registers may differ. -/
structure RecoveryOnly (s t : State) : Prop where
  rest : t = { s with
    free := t.free, faults := t.faults, outs := t.outs, dev := t.dev, clusters := t.clusters, errLog := t.errLog
    bays := t.bays }
  count : t.bays.length = s.bays.length
  bay : ∀ b, ∃ tele log regs, t.bay b = { s.bay b with tele := tele, log := log, regs := regs }

namespace RecoveryOnly
variable {s t u : State}

theorem refl (s : State) : RecoveryOnly s s := ⟨rfl, rfl, fun _ => ⟨_, _, _, rfl⟩⟩

theorem update {free faults outs dev clusters errLog} (h : RecoveryOnly s t) : RecoveryOnly s { t with
    free := free, faults := faults, outs := outs, dev := dev, clusters := clusters, errLog := errLog } :=
  ⟨by rw [h.rest], h.count, h.bay⟩

theorem ite {c : Prop} [Decidable c] (ht : RecoveryOnly s t) (hu : RecoveryOnly s u) :
    RecoveryOnly s (if c then t else u) := by
  split
  · exact ht
  · exact hu

theorem foldl {α : Type} {f : State → α → State} {l : List α} (h : RecoveryOnly s t)
    (hf : ∀ u x, RecoveryOnly s u → RecoveryOnly s (f u x)) : RecoveryOnly s (l.foldl f t) :=
  List.foldlRecOn l f h fun u hu x _ => hf u x hu

theorem setBay {b : Nat} {g : Bay → Bay} (h : RecoveryOnly s t)
    (hg : ∀ y, ∃ tele log regs, g y = { y with tele := tele, log := log, regs := regs }) :
    RecoveryOnly s (t.setBay b g) := by
  refine ⟨?_, (State.setBay_length ..).trans h.count, fun b' => ?_⟩
  · unfold State.setBay
    rw [h.rest]
  · obtain ⟨tele, log, regs, hb⟩ := h.bay b'
    rcases State.bay_setBay t b b' g with ⟨e, -⟩ | e
    · obtain ⟨tele', log', regs', hy⟩ := hg (t.bay b')
      exact ⟨tele', log', regs', by rw [e, hy, hb]⟩
    · exact ⟨tele, log, regs, e.trans hb⟩

theorem countBay {b i n} (h : RecoveryOnly s t) : RecoveryOnly s (t.countBay b i n) :=
  h.setBay fun _ => ⟨_, _, _, rfl⟩

theorem setCluster {p g} (h : RecoveryOnly s t) : RecoveryOnly s (t.setCluster p g) := h.update

theorem bayIrq {b v} (h : RecoveryOnly s t) : RecoveryOnly s (t.bayIrq b v) := by
  rw [State.bayIrq_frame]
  exact h.update

theorem bayEvent {b i} (h : RecoveryOnly s t) : RecoveryOnly s (t.bayEvent b i) := by
  have hset := h.setBay (b := b) (g := fun y => { y with regs := { y.regs with
    event := y.regs.event ||| BitVec.ofNat 6 (2 ^ i) } }) fun _ => ⟨_, _, _, rfl⟩
  exact h.ite (hset.bayIrq.ite hset)

theorem log1 {r} (h : RecoveryOnly s t) : RecoveryOnly s (t.log1 r) := by
  rw [State.log1_frame]
  exact h.update

theorem log2 {b r} (h : RecoveryOnly s t) : RecoveryOnly s (t.log2 b r) :=
  (h.setBay fun _ => ⟨_, _, _, rfl⟩).bayEvent

theorem log12 {b r} (h : RecoveryOnly s t) : RecoveryOnly s (t.log12 b r) := h.log1.log2

theorem substituteNow {b r cube unit} (h : RecoveryOnly s t) : RecoveryOnly s (t.substituteNow b r cube unit) := by
  unfold State.substituteNow
  exact h.setCluster.log1

theorem askRetire {p} (h : RecoveryOnly s t) : RecoveryOnly s (t.askRetire p) := h.setCluster

theorem afterStrike {b adm r k} (h : RecoveryOnly s t) : RecoveryOnly s (t.afterStrike b adm r k) := by
  unfold State.afterStrike
  extract_lets
  split
  · extract_lets _ t1
    have h1 : RecoveryOnly s t1 := (h.ite h.countBay).foldl fun _ _ hu => hu.substituteNow
    exact h1.setCluster.askRetire.log12.ite (h1.setCluster.ite h1)
  · exact (h.ite h.countBay).log1
  · exact h.ite h.countBay

/-- A planned failure met, whether its strip is recomputed in place or moves on. -/
theorem meet {b adm ps r} {w : MatRun} (h : RecoveryOnly s w.st) : RecoveryOnly s (w.meet b adm ps r).st := by
  unfold MatRun.meet
  split
  · exact h
  · dsimp only
    split <;> exact h.afterStrike.update

theorem matRun {b adm m retries} (h : RecoveryOnly s t) : RecoveryOnly s (t.matRun b adm m retries).st :=
  List.foldlRecOn (t.matFaults m retries) _ (motive := fun w : MatRun => RecoveryOnly s w.st) h fun _ hw _ _ => hw.meet

theorem matLog {w : MatRun} {ps b tag} (h : RecoveryOnly s w.st) : RecoveryOnly s (w.log ps b tag) :=
  h.foldl fun _ _ hu => hu.log1

/-- Records and repairs bear on no address: writes go where they would have gone. -/
theorem writesAlike (h : RecoveryOnly s t) (b : Nat) : WritesAlike s t b := by
  refine ⟨?_, fun acc a n => ?_, ?_⟩
  · rw [h.rest]
    exact .refl s
  · obtain ⟨tele, log, regs, hb⟩ := h.bay b
    unfold State.translate State.clusterOk
    rw [hb, h.rest]
    rfl
  · rw [h.rest]

theorem flags (h : RecoveryOnly s t) (b : Nat) : (t.bay b).flags = (s.bay b).flags := by
  obtain ⟨tele, log, regs, hb⟩ := h.bay b
  rw [hb]

theorem slot? (h : RecoveryOnly s t) (adm : Nat) : t.slot? adm = s.slot? adm := by
  rw [h.rest]
  rfl

end RecoveryOnly

/-! ### MATMUL -/

/-- The stores of a product: the rows of C, then the maxima when asked (R79). -/
def storeProduct (b : Nat) (m : MatmulBlk) (rows : List (List Byte)) (maxima : List Byte) (s : State) : State :=
  let t := rows.zipIdx.foldl (fun u p => u.writeBay b (m.cAddr + p.2 * m.ldc) p.1) s
  if m.stats then t.writeBay b m.statsAddr maxima else t

theorem KeepsRest.storeProduct (b : Nat) (m : MatmulBlk) (rows : List (List Byte)) (maxima : List Byte) (s : State) :
    KeepsRest s (storeProduct b m rows maxima s) := by
  unfold Sys2Proof.storeProduct
  have hrows := KeepsRest.foldl (fun s (p : List Byte × Nat) => .writeBay s b (m.cAddr + p.2 * m.ldc) p.1) rows.zipIdx s
  dsimp only
  split
  · exact hrows.trans (.writeBay ..)
  · exact hrows

theorem WritesAlike.storeProduct {s t : State} {b : Nat} (h : WritesAlike s t b) (m : MatmulBlk)
    (rows : List (List Byte)) (maxima : List Byte) :
    WritesAlike (storeProduct b m rows maxima s) (storeProduct b m rows maxima t) b := by
  unfold Sys2Proof.storeProduct
  have hrows := List.foldl_rel (r := fun s t => WritesAlike s t b) h
    (f := fun u p => u.writeBay b (m.cAddr + p.2 * m.ldc) p.1)
    (g := fun u p => u.writeBay b (m.cAddr + p.2 * m.ldc) p.1) (l := rows.zipIdx)
    (fun _ _ _ _ hu => hu.writeBay ..)
  dsimp only
  split
  · exact hrows.writeBay ..
  · exact hrows

/-- What a MATMUL leaves whose failures were all recovered and whose outputs meet no line to skip. -/
theorem matmulEff_recovered {s : State} {b : Nat} {c : Slot} {m : MatmulBlk}
    (hio : s.ioStatus b (matIns m) (matOuts m) = none)
    (hskip : (matOuts m).all (fun r => !s.rangeSkips b .wr r.1 r.2) = true)
    (hdead : ((s.useFree 1).matRun b c.adm m c.retries).dead = false) :
    let w := (s.useFree 1).matRun b c.adm m c.retries
    let x := s.matmulRows b c.ftz m
    State.matmulEff b c m s =
      ((storeProduct b m x.1 x.2.1 (w.log (enginePositions m.mask) b c.hdr.tag)).raise b x.2.2,
        if w.count = 0 then .ok else .corrected, matResult (w.time m + s.stall m) w.count) := by
  have hout : ∀ st, s.outStatus b (matOuts m) st = st := fun st => if_neg (by simpa using hskip)
  unfold State.matmulEff
  rw [hio]
  dsimp only
  rw [hdead, hout]
  rfl

/-- With no failure planned and no line to read again, the engines run as they started (R84). -/
theorem matRun_unfailed {s : State} (b adm : Nat) (m : MatmulBlk) (hf : s.faults.residue = []) :
    s.matRun b adm m [] = s.matStart m := by
  simp [State.matRun, State.matFaults, hf]

/-- A command whose effect did not find an unreadable line completes with it. -/
theorem completeIn_eq_complete_of_ne {s : State} {adm b : Nat} {ins : List (Nat × Nat)} {f : State → Eff}
    (h : (f s).2.1 ≠ .machineCheck) : s.completeIn adm b ins f = s.complete adm f := by
  unfold State.completeIn State.complete
  simp [h]

/-- A MATMUL whose failures were all recovered ends with its time and its recomputes, the product stored and the flags
raised (R80, R87, R94). -/
theorem Running.matmul_recovered {s : State} {c : Slot} {h : Hdr} {b : Nat} {m : MatmulBlk}
    (hr : Running s c (.matmul h m)) (hbay : c.bay? = some b) (hb : b < s.bays.length)
    (hio : s.ioStatus b (matIns m) (matOuts m) = none)
    (hskip : (matOuts m).all (fun r => !s.rangeSkips b .wr r.1 r.2) = true)
    (hdead : ((s.useFree 1).matRun b c.adm m c.retries).dead = false) :
    let w := (s.useFree 1).matRun b c.adm m c.retries
    let x := s.matmulRows b c.ftz m
    ∃ t, exec (.matmul h m) s = .next t ∧
      Ended t c (if w.count = 0 then .ok else .corrected) (matResult (w.time m + s.stall m) w.count) ∧
      SameMemory (storeProduct b m x.1 x.2.1 s) t ∧ (t.bay b).flags = raiseFlags (s.bay b).flags x.2.2 := by
  intro w x
  obtain ⟨hs, hp, -⟩ := id hr
  let u := w.log (enginePositions m.mask) b c.hdr.tag
  have hrec : RecoveryOnly s u := RecoveryOnly.matLog ((RecoveryOnly.refl s).update (t := s)).matRun
  have hkeep : KeepsRest u (storeProduct b m x.1 x.2.1 u) := .storeProduct ..
  have heff := matmulEff_recovered hio hskip hdead
  have hslot : (State.matmulEff b c m s).1.slot? c.adm = some c := by
    rw [heff, State.raise_frame]
    show (storeProduct b m x.1 x.2.1 u).slot? c.adm = _
    rw [hkeep.slot?, hrec.slot?, hs]
  obtain ⟨hended, hmem, hcores⟩ := State.complete_spec s c (State.matmulEff b c m) hslot hp
  have hrun : exec (.matmul h m) s = .next (s.complete c.adm (State.matmulEff b c m)) := by
    refine congrArg Host.Outcome.next ((hr.onRunning rfl _).trans ?_)
    rw [hbay, ← hr.adm_eq rfl]
    refine completeIn_eq_complete_of_ne ?_
    rw [heff]
    dsimp only
    split <;> simp
  rw [heff] at hended hmem hcores
  refine ⟨_, hrun, hended, ?_, ?_⟩
  · exact ((hrec.writesAlike b).storeProduct ..).mem.trans ((sameMemory_raise ..).trans hmem)
  · have hbays : (storeProduct b m x.1 x.2.1 u).bays = u.bays := hkeep.bays
    rw [hcores b]
    refine (flags_raise _ _ (by rw [hbays, hrec.count]; exact hb)).trans ?_
    rw [State.bay, hbays, ← hrec.flags b]
    rfl

/-! ### KERNEL_LAUNCH -/

/-- One core is put at the kernel's entry: its image, its configuration block, its registers (R103, R104). -/
def enterKernel (b : Nat) (h : Hdr) (k : KernelBlk) (image : List Byte) (s : State) (x : Nat × Nat × Nat) : State :=
  let s := s.writeLoc (localLoc x.2.2 0) image
  let s := s.writeLoc (localLoc x.2.2 0x3FF80) (s.configBlock b h k x.1 x.2.1 x.2.2)
  s.setCore x.2.2 (Core.start h.adm k)

/-- A launch whose image can be read puts its cores at the entry, one after the other (R103). -/
theorem Running.exec_kernelLaunch {s : State} {c : Slot} {h : Hdr} {b : Nat} {k : KernelBlk}
    (hr : Running s c (.kernelLaunch h k)) (hbay : c.bay? = some b)
    (hio : s.ioStatus b [(k.imageAddr, k.imageLen)] [] = none) :
    exec (.kernelLaunch h k) s = .next ((s.launchCores k.mask k.policy).foldl
      (enterKernel b h k (s.readBay b k.imageAddr k.imageLen)) (s.setActive h.adm)) := by
  refine congrArg Host.Outcome.next ((hr.onRunning rfl _).trans ?_)
  rw [hbay]
  dsimp only
  rw [hio]
  rfl

theorem KeepsRest.enterKernel (b : Nat) (h : Hdr) (k : KernelBlk) (image : List Byte) (s : State)
    (x : Nat × Nat × Nat) : KeepsRest s (enterKernel b h k image s x) := by
  unfold Sys2Proof.enterKernel
  exact ((KeepsRest.writeLoc ..).trans (.writeLoc ..)).trans (.setCore ..)

theorem sameMemory_setCore (s : State) (key : Nat) (f : Core → Core) : SameMemory s (s.setCore key f) :=
  ⟨rfl, rfl, rfl, rfl, rfl, rfl⟩

/-- A configuration block is made of the clusters and of its bay (Table 4.6). -/
theorem configBlock_congr {s t : State} (hc : t.clusters = s.clusters) (hb : t.bays = s.bays) (b : Nat) (h : Hdr)
    (k : KernelBlk) (lc core key : Nat) : t.configBlock b h k lc core key = s.configBlock b h k lc core key := by
  unfold State.configBlock State.bay
  rw [hc, hb]

/-- Starting a core again sets the same registers. -/
theorem start_start (adm : Nat) (k : KernelBlk) (c : Core) : (c.start adm k).start adm k = c.start adm k := rfl

theorem core_enterKernel (b : Nat) (h : Hdr) (k : KernelBlk) (image : List Byte) (s : State) (x : Nat × Nat × Nat)
    (q : Nat) :
    (enterKernel b h k image s x).core q = if q = x.2.2 then (s.core q).start h.adm k else s.core q := by
  have hcores : ∀ (u : State) l bs, (u.writeLoc l bs).core q = u.core q := fun u l bs => by
    rw [State.writeLoc_frame]
    rfl
  unfold enterKernel
  dsimp only
  split
  · rename_i hq
    rw [← hq, core_setCore_self, hcores, hcores]
  · rename_i hq
    rw [core_setCore_other _ _ hq, hcores, hcores]

/-- Every core of the list stands at the entry, whatever its place in the list. -/
theorem core_foldl_enterKernel (b : Nat) (h : Hdr) (k : KernelBlk) (image : List Byte) (l : List (Nat × Nat × Nat))
    (s : State) (q : Nat) :
    (l.foldl (enterKernel b h k image) s).core q =
      if q ∈ l.map (·.2.2) then (s.core q).start h.adm k else s.core q := by
  induction l generalizing s with
  | nil => rfl
  | cons x l ih =>
    rw [List.foldl_cons, ih, core_enterKernel, List.map_cons]
    by_cases hx : q = x.2.2
    · have hmem : q ∈ x.2.2 :: l.map (·.2.2) := hx ▸ List.mem_cons_self
      rw [if_pos hx, if_pos hmem]
      split
      · exact start_start ..
      · rfl
    · rw [if_neg hx]
      exact if_congr (by simp [hx]) rfl rfl

/-- The launch's memory is that of its writes alone: the registers set between them bear on none. -/
theorem sameMemory_foldl_enterKernel {s t : State} (h : SameMemory s t) (hc : t.clusters = s.clusters)
    (hb : t.bays = s.bays) (b : Nat) (hd : Hdr) (k : KernelBlk) (image : List Byte) (l : List (Nat × Nat × Nat)) :
    SameMemory (l.foldl (fun u x => (u.writeLoc (localLoc x.2.2 0) image).writeLoc (localLoc x.2.2 0x3FF80)
      (s.configBlock b hd k x.1 x.2.1 x.2.2)) s) (l.foldl (enterKernel b hd k image) t) := by
  refine (List.foldl_rel (r := fun u v => SameMemory u v ∧ v.clusters = s.clusters ∧ v.bays = s.bays) ⟨h, hc, hb⟩
    fun x _ u v huv => ?_).1
  obtain ⟨hmem, hclusters, hbays⟩ := huv
  have hw := KeepsRest.writeLoc v (localLoc x.2.2 0) image
  have hblock : (v.writeLoc (localLoc x.2.2 0) image).configBlock b hd k x.1 x.2.1 x.2.2 =
      s.configBlock b hd k x.1 x.2.1 x.2.2 :=
    configBlock_congr (hw.clusters.trans hclusters) (hw.bays.trans hbays) ..
  have hk := KeepsRest.enterKernel b hd k image v x
  refine ⟨?_, hk.clusters.trans hclusters, hk.bays.trans hbays⟩
  unfold enterKernel
  dsimp only
  rw [hblock]
  exact ((hmem.writeLoc _ image).writeLoc _ _).trans (sameMemory_setCore ..)

theorem begun_setActive {s : State} {c : Slot} (h : s.slot? c.adm = some c) : Begun (s.setActive c.adm) c := by
  have hset := s.slot?_setSlot c.adm (fun x => { x with phase := .active, started := s.clock.uptime }) fun _ => rfl
  unfold Begun State.setActive
  rw [hset, h]
  rfl

/-- Settles O22: what a MATMUL's recoveries change bears on none of its stores, and a launch puts its cores at the entry
one after the other, each with writes that no earlier core bears on. -/
theorem engineCommandsComplete : Obligations.EngineCommandsComplete := by
  unfold Obligations.EngineCommandsComplete
  intro s c h b hparts hbay hb
  have hlen : b < s.bays.length := by rw [hparts.1]; exact hb
  refine ⟨fun m => ?_, fun k => ?_⟩
  · intro x rows w hr hio hskip hdead
    obtain ⟨t, hexec, hended, hmem, hflags⟩ := hr.matmul_recovered hbay hlen hio hskip hdead
    refine ⟨t, hexec, fun hres hret => ?_, hended, ?_, hmem, hflags⟩
    · have hw : (s.useFree 1).matRun b c.adm m c.retries = (s.useFree 1).matStart m := by
        rw [hret]
        exact matRun_unfailed b c.adm m hres
      rw [hw] at hended
      exact hended
    · exact Nat.lt_of_le_of_lt (Nat.min_le_right ..) (by decide)
  · intro cores hr hio
    refine ⟨_, hr.exec_kernelLaunch hbay hio, ?_, fun x hx => ?_, ?_⟩
    · have hkeep := KeepsRest.foldl (KeepsRest.enterKernel b h k (s.readBay b k.imageAddr k.imageLen))
        (s.launchCores k.mask k.policy) (s.setActive h.adm)
      have hbegun := begun_setActive hr.1
      rw [hr.adm_eq rfl] at hbegun
      unfold Begun
      rw [hkeep.slot?]
      exact hbegun
    · rw [core_foldl_enterKernel, if_pos (List.mem_map_of_mem hx), hr.adm_eq rfl]
      rfl
    · exact sameMemory_foldl_enterKernel (t := s.setActive h.adm) (.refl s) rfl rfl b h k ..

end Sys2Proof
end

section
/-!
What an operation on commands, cores, memory and the fabric leaves of the device's registers and of the cluster map: all
but DEV_INT_CAUSE, which the records of the error log set. `DevKept.f` says so of the operation `f`. Updates of fields
other than `dev` and `lmap` need no rule: the statement does not see them.
-/
namespace Sys2Proof
open Machine

/-- The device registers of `r` but for DEV_INT_CAUSE, and its map of logical clusters. -/
abbrev DevKept (r s : State) : Prop := s.dev = { r.dev with intCause := s.dev.intCause } ∧ s.lmap = r.lmap

namespace DevKept

variable {r s : State}

theorem refl (s : State) : DevKept s s := ⟨rfl, rfl⟩

theorem clusterBusy (h : DevKept r s) : s.dev.clusterBusy = r.dev.clusterBusy := by rw [h.1]

theorem rejected (h : DevKept r s) : s.dev.rejected = r.dev.rejected := by rw [h.1]

theorem phys (h : DevKept r s) (lc : Nat) : s.phys lc = r.phys lc := by
  unfold State.phys
  rw [h.2]

theorem ite {t : State} {c : Prop} [Decidable c] (hs : DevKept r s) (ht : DevKept r t) :
    DevKept r (if c then s else t) := by
  split
  · exact hs
  · exact ht

theorem ite_fst {α : Type} {c : Prop} [Decidable c] {a b : State × α} (ha : DevKept r a.1) (hb : DevKept r b.1) :
    DevKept r (if c then a else b).1 := by
  split
  · exact ha
  · exact hb

theorem foldl {α : Type} {f : State → α → State} {l : List α} (h : DevKept r s)
    (hf : ∀ s a, DevKept r s → DevKept r (f s a)) : DevKept r (l.foldl f s) :=
  List.foldlRecOn l f (motive := DevKept r) h fun s hs a _ => hf s a hs

theorem foldl_fst {α β : Type} {f : State × β → α → State × β} {l : List α} {a : State × β} (h : DevKept r a.1)
    (hf : ∀ a x, DevKept r a.1 → DevKept r (f a x).1) : DevKept r (l.foldl f a).1 :=
  List.foldlRecOn l f (motive := fun a => DevKept r a.1) h fun a ha x _ => hf a x ha

theorem setBay {b} {f : Bay → Bay} (h : DevKept r s) : DevKept r (s.setBay b f) := h

theorem setSlot {adm} {f : Slot → Slot} (h : DevKept r s) : DevKept r (s.setSlot adm f) := h

theorem setPort {p} {f : Port → Port} (h : DevKept r s) : DevKept r (s.setPort p f) := h

theorem setTrain {b} {f : Train → Train} (h : DevKept r s) : DevKept r (s.setTrain b f) := h

theorem setGather {b adm} {f : Gather → Gather} (h : DevKept r s) : DevKept r (s.setGather b adm f) := h

/-! ### Memory -/

theorem writeLoc {l bs} (h : DevKept r s) : DevKept r (s.writeLoc l bs) := by
  rw [State.writeLoc_frame]
  exact h

theorem writeBay {b a bs} (h : DevKept r s) : DevKept r (s.writeBay b a bs) := by
  rw [State.writeBay_frame]
  exact h

theorem clearLoc {l n} (h : DevKept r s) : DevKept r (s.clearLoc l n) := by
  unfold State.clearLoc
  dsimp only
  split <;> exact h

theorem mixed {t : State} (h : DevKept r s) : DevKept r (s.mixed t) :=
  foldl (f := State.unmark) h fun _ _ hs => .ite hs hs

/-! ### Logs, counters and commands -/

theorem devCause {i} (h : DevKept r s) : DevKept r (s.devCause i) := by
  have hset : DevKept r { s with dev := { s.dev with intCause := s.dev.intCause ||| BitVec.ofNat 8 (2 ^ i) } } :=
    ⟨by rw [h.1], h.2⟩
  exact .ite h (.ite hset hset)

theorem log1 {e} (h : DevKept r s) : DevKept r (s.log1 e) :=
  .ite (.devCause h) h

theorem logBadReads {b acc tag rs} (h : DevKept r s) : DevKept r (s.logBadReads b acc tag rs) := by
  unfold State.logBadReads State.logPoisonRead
  split
  · rw [State.log2_frame]
    exact h
  · exact h

theorem lateReads {b rs} (h : DevKept r s) : DevKept r (s.lateReads b rs) := .ite h h

theorem raise {b f} (h : DevKept r s) : DevKept r (s.raise b f) := .ite h h

theorem bump {b k n err} (h : DevKept r s) : DevKept r (s.bump b k n err) := h

theorem finishNat {adm st result} (h : DevKept r s) : DevKept r (s.finishNat adm st result) := by
  unfold State.finishNat
  rw [State.finish_frame]
  exact h

/-! ### Cores and their channels -/

theorem coreWrite {b key a bs} (h : DevKept r s) : DevKept r (s.coreWrite b key a bs) := .ite h.writeLoc h.writeBay

theorem failLaunch {adm key st cause pc} (h : DevKept r s) : DevKept r (s.failLaunch adm key st cause pc) :=
  .finishNat (s := s.stopLaunch adm) h

theorem stopFields {c cause} (h : DevKept r s) : DevKept r (s.stopFields c cause).1 := .ite h h

theorem runDma {key d} (h : DevKept r s) : DevKept r (s.runDma key d) := by
  unfold State.runDma
  extract_lets pc bad late moved counted
  have hbad : DevKept r bad := .ite h.logBadReads h
  have hlate : DevKept r late := .ite h.lateReads h
  have hcounted : DevKept r counted := .ite hlate.coreWrite.bump hlate.coreWrite
  exact .ite h.failLaunch (.ite h.failLaunch (.ite (.failLaunch hbad) (.ite (.failLaunch hcounted) hcounted)))

theorem finishDma {c chan} (h : DevKept r s) : DevKept r (s.finishDma c chan) := by
  unfold State.finishDma execDmaDescriptorDone
  dsimp only
  split
  · exact h
  · split
    · exact h
    · exact .runDma h

theorem cutChannels {key} {f : Nat → Bool} (h : DevKept r s) : DevKept r (s.cutChannels key f) := by
  unfold State.cutChannels
  refine h.foldl fun u _ hu => ?_
  split
  · exact hu
  · rename_i d _ _
    have hpart : DevKept r (u.partDma key d) := .ite hu.mixed hu
    exact ite hpart hu

/-! ### Packets of a group -/

theorem sendFlit {p kind payload} (h : DevKept r s) : DevKept r (s.sendFlit p kind payload) := h

theorem pump {p} (h : DevKept r s) : DevKept r (s.pump p) := by
  refine h.foldl fun u _ hu => ?_
  have hstomps : DevKept r (u.sendStomps p) := .ite hu hu.setPort.sendFlit
  unfold State.pumpOnce
  refine .ite hstomps ?_
  split
  · exact hstomps
  · split
    · exact hstomps
    · exact hstomps.setPort.sendFlit

theorem routeDrop {p} (h : DevKept r s) : DevKept r (s.routeDrop p) := .log1 (s := s.countDev 3 1) h

theorem inject {die adm relayed p} (h : DevKept r s) : DevKept r (s.inject die adm relayed p) := by
  have henq : DevKept r (s.enqueue die adm relayed p) := by
    unfold State.enqueue
    split
    · exact h.routeDrop
    · exact h
  unfold State.inject
  split
  · exact h.routeDrop
  · exact henq.pump

theorem sendMsg {b g lc adm member vc typ offset tag data} (h : DevKept r s) :
    DevKept r (s.sendMsg b g lc adm member vc typ offset tag data) :=
  h.foldl fun _ _ hs => hs.inject

theorem addAt {b g lc member vc ctr n err} (h : DevKept r s) : DevKept r (s.addAt b g lc member vc ctr n err) := by
  unfold State.addAt
  split
  · exact .ite h (.ite h.inject h)
  · exact h

theorem firedEnd {b t err} (h : DevKept r s) : DevKept r (s.firedEnd b t err) := by
  unfold State.firedEnd State.countTrig
  extract_lets _ _ counted
  have hcounted : DevKept r counted := .ite h h
  exact .ite hcounted.addAt hcounted

theorem abortGroup {b g} (h : DevKept r s) : DevKept r (s.abortGroup b g) := by
  unfold State.abortGroup
  extract_lets _ _ _ _ mixed dropped ended
  have hmixed : DevKept r mixed := by
    unfold mixed
    split
    · exact h.foldl fun _ _ hs => hs.mixed
    · exact h
  have hended : DevKept r ended := foldl (s := dropped) hmixed fun _ _ hs => hs.finishNat
  refine hended.foldl fun _ _ hs => ?_
  split
  · exact hs.firedEnd
  · exact hs

theorem sendAbort {b g} (h : DevKept r s) : DevKept r (s.sendAbort b g) := by
  unfold State.sendAbort
  split
  · exact foldl (s := s.emit _) h fun _ _ hs => hs.sendMsg
  · exact h

/-! ### Gathers -/

theorem putRow {b adm p a bs} (h : DevKept r s) : DevKept r (s.putRow b adm p a bs) := by
  have hremote : DevKept r (s.putRemote b adm p a bs) := by
    unfold State.putRemote
    dsimp only
    split
    · exact .ite (.foldl h fun _ _ hs => hs.inject) h
    · exact h
  exact .ite hremote h.writeBay

theorem landRows {b adm i first rows received} (h : DevKept r s) :
    DevKept r (s.landRows b adm i first rows received) := by
  unfold State.landRows
  split
  · refine .ite h ?_
    extract_lets _ _ landed
    have hlanded : DevKept r landed := .ite h (h.foldl fun _ _ hs => hs.foldl fun _ _ ht => ht.putRow)
    split
    · exact .ite hlanded.setGather.setSlot.setTrain hlanded.setGather.setSlot
    · exact hlanded.setGather.setSlot
  · exact h

theorem spreadRows {b adm x src} (h : DevKept r s) : DevKept r (s.spreadRows b adm x src) := by
  unfold State.spreadRows
  split
  · split
    · exact .ite h (.foldl (.ite h.landRows h.landRows) fun u _ hu => .sendMsg (s := u.emit _) hu)
    · exact h.landRows
  · exact h

theorem sendEntry {b adm i} (h : DevKept r s) : DevKept r (State.sendEntry b adm s i) := by
  unfold State.sendEntry
  split
  · dsimp only
    split
    · exact h
    · refine .ite h (.ite h (.ite h ?_))
      split
      · exact .finishNat (.ite h.logBadReads h)
      · exact .spreadRows (.setGather (.raise (.ite (.setBay h) h)))
  · exact h

theorem pumpGathers {b} (h : DevKept r s) : DevKept r (s.pumpGathers b) := by
  refine h.foldl fun u a hu => ?_
  unfold State.pumpGather
  split
  · exact hu
  · rename_i g _
    have hsent : DevKept r ((List.range g.entries.length).foldl (State.sendEntry b a) u) :=
      hu.foldl fun _ _ hs => hs.sendEntry
    unfold State.settleGather
    split
    · exact .ite (.finishNat hsent) hsent
    · exact hsent

/-! ### Update steps -/

theorem diffRecord {b step tensor first count kind source} (h : DevKept r s) :
    DevKept r (s.diffRecord b step tensor first count kind source) := by
  unfold State.diffRecord
  dsimp only
  split
  · exact h
  · exact .ite h h.writeBay.setBay

theorem updateFault {b adm n rate unit} (h : DevKept r s) : DevKept r (s.updateFault b adm n rate unit) := by
  unfold State.updateFault
  split
  · exact h
  · exact .ite h (.log1 h)

theorem updateBlock {b adm x p ti k gs} (h : DevKept r s) : DevKept r (s.updateBlock b adm x p ti k gs) := by
  unfold State.updateBlock
  extract_lets _ _ recovered _ _ _ _ _ _ _ _ _ _ _ stored storedAll _ _
  have hstored : DevKept r stored := h.updateFault.writeBay.writeBay
  have hall : DevKept r storedAll := .ite hstored.writeBay hstored
  exact hall.raise.setBay.setBay

theorem segmentRecord {b x p ti seg before} (h : DevKept r s) : DevKept r (s.segmentRecord b x p ti seg before) :=
  .ite h.diffRecord h

theorem advance {b p step source ti} (h : DevKept r s) : DevKept r (s.advance b p step source ti) :=
  .ite (.ite h.setBay.diffRecord h.setBay) h

theorem abortRecords {b x p} (h : DevKept r s) : DevKept r (s.abortRecords b x p) :=
  h.foldl fun _ _ hs => hs.foldl fun _ _ ht => .ite ht (ht.foldl fun _ _ hu => hu.diffRecord)

theorem stepBlock {b adm x p limit ti} {grad : State → Nat → List Val} {gRange : Nat → List (Nat × Nat)}
    {a : State × Nat × Option Status} {k} (h : DevKept r a.1) :
    DevKept r (State.stepBlock b adm x p limit ti grad gRange a k).1 := by
  unfold State.stepBlock
  refine .ite_fst h (.ite_fst h ?_)
  dsimp only
  split
  · exact h
  · exact h.updateBlock

theorem runTensor {b adm x p limit} {grad : Nat → State → Nat → List Val} {gRange : Nat → Nat → List (Nat × Nat)}
    {a : State × Nat × Option Status} {ti} (h : DevKept r a.1) :
    DevKept r (State.runTensor b adm x p limit grad gRange a ti).1 := by
  unfold State.runTensor
  refine .ite_fst h ?_
  extract_lets run
  have hrun : DevKept r run.1 := h.foldl_fst fun _ _ ha => .ite_fst ha
    (segmentRecord (ha.foldl_fst fun _ _ hb => hb.stepBlock))
  exact .ite_fst hrun hrun.advance

theorem stepUpdateEff {b c hp step clip stoch limit} (h : DevKept r s) :
    DevKept r (State.stepUpdateEff b c hp step clip stoch limit s).1 := by
  have hsweep : ∀ {adm x p}, DevKept r (State.sweep b adm x p limit s).1 := fun {adm x p} => by
    unfold State.sweep
    extract_lets run
    have hrun : DevKept r run.1 := h.foldl_fst fun _ _ ha => ha.runTensor
    exact .pumpGathers (.ite hrun.abortRecords hrun)
  unfold State.stepUpdateEff
  dsimp only
  split
  · exact h
  · split
    · exact h
    · refine .ite_fst h ?_
      split
      · exact h
      · exact .ite_fst h hsweep

/-! ### Commands that end before they have completed -/

theorem movePages {b dest ps} (h : DevKept r s) : DevKept r (s.movePages b dest ps).1 := by
  induction ps generalizing s with
  | nil => exact h
  | cons p ps ih =>
    have hmove : DevKept r (s.movePage b dest p) := by
      unfold State.movePage
      split
      · exact h
      · exact h.clearLoc
    exact .ite_fst h (ih hmove)

theorem mixFlags {t : State} {b} (h : DevKept r s) : DevKept r (s.mixFlags t b) := h.raise

theorem mixMatmul {t : State} {b m} (h : DevKept r s) : DevKept r (s.mixMatmul t b m) := by
  unfold State.mixMatmul
  extract_lets _ stored used
  have hstored : DevKept r stored := h.foldl fun _ _ hs => .ite (hs.foldl fun _ _ ht => ht.writeBay) hs
  exact .ite (.mixed (s := used) hstored) hstored

theorem endRunning {b c} (h : DevKept r s) : DevKept r (s.endRunning b c).1 := by
  unfold State.endRunning
  split
  · exact .ite_fst h h
  · exact .ite_fst h (.movePages h)
  · exact .stepUpdateEff h
  · split
    · exact .mixFlags (.mixMatmul h)
    · exact h
  · split
    · exact .mixFlags (.mixed h)
    · exact h

theorem endActive {b c st} (h : DevKept r s) : DevKept r (s.endActive b c st).1 := by
  unfold State.endActive
  dsimp only
  split
  case h_2 => -- KERNEL_LAUNCH
    exact .ite_fst h.stopFields h
  case h_5 => -- UPDATE_ON_ARRIVAL_ARM
    split
    · exact .ite_fst (.ite h.abortRecords h) h
    · exact h
  all_goals exact h

theorem cutShort {b st adm} (h : DevKept r s) : DevKept r (s.cutShort b st adm) := by
  unfold State.cutShort
  dsimp only
  split
  · exact h
  · split
    · exact .finishNat (.endRunning h)
    · exact .finishNat (.endActive h)
    · exact .finishNat h
    · exact h

/-! ### Resets of a cluster -/

theorem stopInCluster {lc c} (h : DevKept r s) : DevKept r (State.stopInCluster lc s c) := by
  unfold State.stopInCluster
  split
  · exact h.failLaunch
  · exact h.cutShort
  · exact h

theorem absorbCluster {lc} (h : DevKept r s) : DevKept r (s.absorbCluster lc) := by
  unfold State.absorbCluster
  extract_lets cut _ _ _ used
  have hcut : DevKept r cut := h.foldl fun _ _ hs => hs.cutChannels
  have hused : DevKept r used := hcut
  split
  · exact hused
  · extract_lets _ _ aborted ended _ _
    have haborted : DevKept r aborted := hused.foldl fun _ _ hs => hs.sendAbort.abortGroup
    have hended : DevKept r ended := haborted.foldl fun _ _ hs => by
      split
      · exact hs.stopFields.finishNat
      · exact hs.cutShort
    exact hended.setBay.foldl fun _ _ hs => hs.firedEnd

end DevKept

end Sys2Proof
end

section
/-! Resets of one core and of a cluster (R107, R219, R426). -/
namespace Sys2Proof
open Machine

/-! ### Cleared parts -/

theorem assoc_filter_none {α : Type} {l : List (Nat × α)} {k : Nat} {p : Nat × α → Bool}
    (h : ∀ x, x.1 = k → p x = false) : assoc (l.filter p) k = none := by
  unfold assoc
  rw [Option.map_eq_none_iff, List.find?_eq_none]
  intro x hx hk
  have hp : p x = false := h x (by simpa using hk)
  rw [(List.mem_filter.1 hx).2] at hp
  cases hp

theorem get_unlisted {m : Mem} {a : Nat} (h : ∀ c ∈ m, c.1 ≠ a) : Mem.get m a = 0 := by
  induction m with
  | nil => rfl
  | cons c m ih =>
    rw [Mem.get.eq_2, if_neg (h c List.mem_cons_self)]
    exact ih fun d hd => h d (List.mem_cons_of_mem _ hd)

/-- A cleared range reads zero. -/
theorem get_clear {m : Mem} {a n x : Nat} (hlo : a ≤ x) (hhi : x < a + n) : Mem.get (Mem.clear m a n) x = 0 := by
  refine get_unlisted fun c hc hx => ?_
  have := (List.mem_filter.1 hc).2
  simp only [Bool.or_eq_true, decide_eq_true_eq] at this
  omega

@[simp] theorem core_devCause (s : State) (i k : Nat) : (s.devCause i).core k = s.core k := by
  rw [State.devCause_frame]
  rfl

@[simp] theorem local_devCause (s : State) (i : Nat) : (s.devCause i).local_ = s.local_ := by
  rw [State.devCause_frame]

theorem devCause_set (s : State) {i : Nat} (hi : i < 8) : (s.devCause i).dev.intCause.getLsbD i = true := by
  unfold State.devCause
  split
  · assumption
  · have hbit : (s.dev.intCause ||| BitVec.ofNat 8 (2 ^ i)).getLsbD i = true := by
      rw [BitVec.getLsbD_or, BitVec.getLsbD_ofNat, Nat.testBit_two_pow_self]
      simp [hi]
    dsimp only
    split
    · exact hbit
    · exact hbit

theorem core_clearCore (s : State) (key : Nat) : (s.clearCore key).core key = Core.reset := by
  have hnone : assoc (s.cores.filter (fun c => c.1 != key)) key = none := assoc_filter_none fun x hx => by simp [hx]
  show (assoc (s.cores.filter (fun c => c.1 != key)) key).getD Core.reset = _
  rw [hnone]
  rfl

theorem core_clearCores (s : State) {p k : Nat} (hk : k < 10) : (s.clearCores p).core (p * 10 + k) = Core.reset := by
  have hnone : assoc (s.cores.filter (fun c => c.1 / 10 != p)) (p * 10 + k) = none :=
    assoc_filter_none fun x hx => by
      have : x.1 / 10 = p := by omega
      simp [this]
  show (assoc (s.cores.filter (fun c => c.1 / 10 != p)) (p * 10 + k)).getD Core.reset = _
  rw [hnone]
  rfl

theorem local_clearCores (s : State) {p a : Nat} (hlo : p * 10 * 2 ^ 18 ≤ a) (hhi : a < (p * 10 + 10) * 2 ^ 18) :
    Mem.get (s.clearCores p).local_ a = 0 :=
  get_clear (m := s.local_) hlo (by rw [← Nat.add_mul]; exact hhi)

/-! ### The register at 0x080 -/

theorem exec_coreReset {s : State} (v : W32) {key : Nat} (hup : s.hostUp = true)
    (hkey : s.coreKey ⟨v.toNat % 32, v.toNat / 256 % 16⟩ = some key) :
    exec (.coreReset v) s = .next
      (if s.resetRefused (v.toNat % 32) ∨ !((nth s.clusters (key / 10)).good.contains (v.toNat / 256 % 16)) then
        s.rejectReset
      else s.resetCore ⟨v.toNat % 32, v.toNat / 256 % 16⟩ key) := by
  show execCoreReset v s = _
  unfold execCoreReset
  dsimp only
  rw [hup, hkey]
  rfl

theorem DevKept.resetCore {r s : State} {c : CoreRef} {key : Nat} (h : DevKept r s) : DevKept r (s.resetCore c key) := by
  have hdma : DevKept r ((s.finishDma c 0).finishDma c 1) := h.finishDma.finishDma
  unfold State.resetCore
  dsimp only
  refine .devCause (.clearLoc ?_)
  split
  · exact hdma.failLaunch
  · exact hdma

theorem core_resetCore (s : State) (c : CoreRef) (key : Nat) : (s.resetCore c key).core key = Core.reset :=
  (core_devCause ..).trans (core_clearCore ..)

theorem resetDone_resetCore (s : State) (c : CoreRef) (key : Nat) :
    (s.resetCore c key).dev.intCause.getLsbD 6 = true :=
  devCause_set _ (by decide)

/-! ### The register at 0x084 and the end of the drain -/

theorem exec_clusterReset {s : State} (v : W32) (hup : s.hostUp = true) :
    exec (.clusterReset v) s = .next
      (if s.resetRefused (v.toNat % 32) ∨ (s.phys (v.toNat % 32)).isNone then s.rejectReset
      else s.beginClusterReset (v.toNat % 32)) := by
  show execClusterReset v s = _
  unfold execClusterReset
  rw [hup]
  rfl

/-- The start of a cluster's reset puts it on the list of those that drain, and changes no other register but
DEV_INT_CAUSE. -/
theorem devKept_beginClusterReset (s : State) (lc : Nat) :
    DevKept { s with dev := { s.dev with clusterBusy := s.dev.clusterBusy ++ [(lc, s.clock.uptime)] } }
      (s.beginClusterReset lc) := by
  unfold State.beginClusterReset
  exact .foldl (.foldl (.refl _) fun _ _ hs => hs.stopInCluster) fun _ _ hs => hs

/-- A cluster leaves its reset: its cores are cleared, no reset is in progress, RESET_DONE is set. -/
def backInService (s : State) (p : Nat) : State :=
  ({ s.clearCores p with dev := { s.dev with clusterBusy := [] } } : State).devCause 6

theorem clusterBusy_backInService (s : State) (p : Nat) : (backInService s p).dev.clusterBusy = [] :=
  (DevKept.devCause (s := { s.clearCores p with dev := { s.dev with clusterBusy := [] } }) (.refl _)).clusterBusy

theorem resetDone_backInService (s : State) (p : Nat) : (backInService s p).dev.intCause.getLsbD 6 = true :=
  devCause_set _ (by decide)

theorem core_backInService (s : State) {p k : Nat} (hk : k < 10) : (backInService s p).core (p * 10 + k) = Core.reset :=
  (core_devCause ..).trans (core_clearCores s hk)

theorem local_backInService (s : State) {p a : Nat} (hlo : p * 10 * 2 ^ 18 ≤ a) (hhi : a < (p * 10 + 10) * 2 ^ 18) :
    Mem.get (backInService s p).local_ a = 0 := by
  unfold backInService
  rw [local_devCause]
  exact local_clearCores s hlo hhi

/-- The one cluster in reset goes back into service when its 100 us have passed: what is absorbed ends no other reset, and
leaves the cluster where it is. -/
theorem exec_clusterResetAbsorb {s : State} {lc p since : Nat} (hbusy : s.dev.clusterBusy = [(lc, since)])
    (hphys : s.phys lc = some p) (htime : since + 100000 ≤ s.clock.uptime) :
    exec (.clusterResetAbsorb lc) s = .next (backInService (s.absorbCluster lc) p) := by
  have hkept : DevKept s (s.absorbCluster lc) := .absorbCluster (.refl s)
  have hsince : assoc s.dev.clusterBusy lc = some since := by simp [hbusy, assoc]
  have hdev : ((s.absorbCluster lc).clearCores p).dev = (s.absorbCluster lc).dev := rfl
  have hdone : assocDel [(lc, since)] lc = [] := by simp [assocDel]
  show execClusterResetAbsorb lc s = _
  unfold execClusterResetAbsorb backInService
  rw [hsince]
  dsimp only
  rw [if_neg (by omega), hkept.phys, hphys]
  dsimp only
  rw [hdev, hkept.clusterBusy, hbusy, hdone]

/-- Settles O34: the operations that a reset runs keep the device's registers but DEV_INT_CAUSE and the cluster map, and
the reset clears its cores after all of them. -/
theorem unitResetsPerform : Obligations.UnitResetsPerform := by
  unfold Obligations.UnitResetsPerform
  intro s v _ hup
  refine ⟨fun key => ?_, ?_, fun lc p since hbusy hphys htime => ?_⟩
  · intro c hkey
    refine ⟨fun hok hgood => ?_, fun hbad => ?_⟩
    · refine ⟨s.resetCore c key, ?_, core_resetCore .., resetDone_resetCore .., (DevKept.refl s).resetCore.rejected⟩
      rw [exec_coreReset v hup hkey, if_neg (by simpa [c] using And.intro hok hgood)]
    · rw [exec_coreReset v hup hkey, if_pos (by simpa [c] using hbad)]
  · rintro lc rfl
    refine ⟨fun hok hphys => ?_, fun hbad => ?_⟩
    · have hkept := devKept_beginClusterReset s (v.toNat % 32)
      refine ⟨_, ?_, hkept.clusterBusy, hkept.rejected⟩
      rw [exec_clusterReset v hup, if_neg (by simpa [hok, Option.isSome_iff_ne_none] using hphys)]
    · rw [exec_clusterReset v hup, if_pos (by simpa using hbad)]
  · exact ⟨_, exec_clusterResetAbsorb hbusy hphys htime, clusterBusy_backInService .., resetDone_backInService ..,
      fun _ hk => core_backInService _ hk, fun _ hlo hhi => local_backInService _ hlo hhi⟩

end Sys2Proof
end

section
/-!
What handing packets to the fabric changes: nothing that a bay, a command or an access reads. `LinkOnly.f` says so of the
operation `f`.
-/
namespace Sys2Proof
open Machine

/-- Beside ports, outputs, the device's registers and counters and the error log nothing differs, and every output
stands. -/
structure LinkOnly (s t : State) : Prop where
  rest : t = { s with outs := t.outs, dev := t.dev, ports := t.ports, devTele := t.devTele, errLog := t.errLog }
  sent : s.outs ⊆ t.outs

namespace LinkOnly
variable {r s t : State}

theorem refl (s : State) : LinkOnly s s := ⟨rfl, fun _ h => h⟩

theorem ite {c : Prop} [Decidable c] (hs : LinkOnly r s) (ht : LinkOnly r t) : LinkOnly r (if c then s else t) := by
  split
  · exact hs
  · exact ht

theorem foldl {α : Type} {f : State → α → State} {l : List α} (h : LinkOnly r s)
    (hf : ∀ s a, LinkOnly r s → LinkOnly r (f s a)) : LinkOnly r (l.foldl f s) :=
  List.foldlRecOn l f (motive := LinkOnly r) h fun s hs a _ => hf s a hs

theorem update {dev ports devTele errLog} (h : LinkOnly r s) :
    LinkOnly r { s with dev := dev, ports := ports, devTele := devTele, errLog := errLog } :=
  ⟨by rw [h.rest], h.sent⟩

theorem emit {o} (h : LinkOnly r s) : LinkOnly r (s.emit o) :=
  ⟨by unfold State.emit; rw [h.rest], fun _ ho => List.mem_append_left _ (h.sent ho)⟩

theorem setPort {p f} (h : LinkOnly r s) : LinkOnly r (s.setPort p f) := h.update

theorem devCause {i} (h : LinkOnly r s) : LinkOnly r (s.devCause i) := by
  unfold State.devCause
  exact h.ite (h.update.emit.ite h.update)

theorem log1 {e} (h : LinkOnly r s) : LinkOnly r (s.log1 e) := h.update.devCause.ite h.update

theorem routeDrop {p} (h : LinkOnly r s) : LinkOnly r (s.routeDrop p) := .log1 (s := s.countDev 3 1) h.update

theorem sendFlit {p kind payload} (h : LinkOnly r s) : LinkOnly r (s.sendFlit p kind payload) := h.setPort.emit

theorem pumpOnce {p} (h : LinkOnly r s) : LinkOnly r (s.pumpOnce p) := by
  have hstomps : LinkOnly r (s.sendStomps p) := h.ite h.setPort.sendFlit
  unfold State.pumpOnce
  refine hstomps.ite ?_
  split
  · exact hstomps
  · split
    · exact hstomps
    · exact hstomps.setPort.sendFlit

theorem pump {p} (h : LinkOnly r s) : LinkOnly r (s.pump p) := h.foldl fun _ _ hs => hs.pumpOnce

theorem enqueue {die adm relayed p} (h : LinkOnly r s) : LinkOnly r (s.enqueue die adm relayed p) := by
  unfold State.enqueue
  split
  · exact h.routeDrop
  · exact h.emit.setPort

theorem inject {die adm relayed p} (h : LinkOnly r s) : LinkOnly r (s.inject die adm relayed p) := by
  unfold State.inject
  split
  · exact h.routeDrop
  · exact h.enqueue.pump

theorem sendMsg {b g lc adm member vc typ offset tag data} (h : LinkOnly r s) :
    LinkOnly r (s.sendMsg b g lc adm member vc typ offset tag data) :=
  h.foldl fun _ _ hs => hs.inject

theorem sendTo {b g lc adm member vc typ offset tag data} (h : LinkOnly r s) :
    LinkOnly r (s.sendTo b g lc adm member vc typ offset tag data) := h.inject

theorem sendSeg {b g c final k m} (h : LinkOnly r s) : LinkOnly r (s.sendSeg b g c final k m) := h.emit.sendMsg

theorem sendGather {b adm p g x m} (h : LinkOnly r s) : LinkOnly r (s.sendGather b adm p g x m) := h.emit.sendMsg

section
variable (h : LinkOnly s t)
include h

theorem bays : t.bays = s.bays := by rw [h.rest]

theorem bay (b : Nat) : t.bay b = s.bay b := by
  unfold State.bay
  rw [h.bays]

theorem slot? (adm : Nat) : t.slot? adm = s.slot? adm := by
  rw [h.rest]
  rfl

theorem mem : SameMemory s t := by
  rw [h.rest]
  exact .refl s

end

end LinkOnly

/-- A packet that has a route and has not been relayed leaves (R258). -/
theorem packet_mem_inject {s : State} {die adm : Option Nat} {relayed : Bool} {p : Packet}
    (hroute : s.route p.dnode % 4096 ≠ 0) (hhops : p.hops ≤ 15) :
    Output.packet p ∈ (s.inject die adm relayed p).outs := by
  have hsome : (s.portFor die p).isSome := by
    unfold State.portFor
    dsimp only
    rw [if_neg (by omega)]
    rfl
  obtain ⟨q, hq⟩ := Option.isSome_iff_exists.1 hsome
  unfold State.inject
  rw [hq]
  refine (LinkOnly.pump (.refl _)).sent ?_
  unfold State.enqueue
  rw [hq]
  exact List.mem_append_right _ (List.mem_singleton_self _)

/-! ### Packets taken out of a receive buffer -/

theorem takePacket_frame (s : State) (p : Packet) : s.takePacket p = { s with ports := (s.takePacket p).ports } := by
  unfold State.takePacket
  split <;> rfl

theorem takeMsg_frame (s : State) (typ b group : Nat) (pick : Packet → Bool) :
    s.takeMsg typ b group pick = { s with ports := (s.takeMsg typ b group pick).ports } := by
  refine List.foldlRecOn _ _ (motive := fun t : State => t = { s with ports := t.ports }) rfl fun t ht q _ => ?_
  refine List.foldlRecOn _ _ (motive := fun t : State => t = { s with ports := t.ports }) ht fun u hu k _ => ?_
  rw [takePacket_frame, hu]

theorem freeMsg_frame (s : State) (typ b group member : Nat) :
    s.freeMsg typ b group member = { s with ports := (s.freeMsg typ b group member).ports } := by
  unfold State.freeMsg
  split
  · exact takeMsg_frame ..
  · rfl

/-! ### Accesses on states in which a bay's addresses reach the same places -/

/-- What a change of bays keeps of each bay, every bay keeps. -/
theorem bay_setBay_kept {α : Type} (φ : Bay → α) {f : Bay → Bay} (hf : ∀ y, φ (f y) = φ y) (s : State) (b b' : Nat) :
    φ ((s.setBay b f).bay b') = φ (s.bay b') := by
  rcases State.bay_setBay s b b' f with ⟨h, -⟩ | h
  · rw [h, hf]
  · rw [h]

/-- An address reaches the same place when only parts of bays change that bear on no address. -/
theorem translate_setBay {s : State} {b' : Nat} {f : Bay → Bay}
    (hf : ∀ y, (f y).bind = y.bind ∧ (f y).pages = y.pages ∧ (f y).join = y.join) (b : Nat) (acc : Acc) (a n : Nat) :
    (s.setBay b' f).translate b acc a n = s.translate b acc a n := by
  have hbind := bay_setBay_kept Bay.bind (fun y => (hf y).1) s b' b
  have hpages := bay_setBay_kept Bay.pages (fun y => (hf y).2.1) s b' b
  have hjoin := bay_setBay_kept Bay.join (fun y => (hf y).2.2) s b' b
  unfold State.translate State.clusterOk Bay.pageAt Bay.inLanding
  rw [hbind, hpages, hjoin]
  rfl

/-- A command that reads nothing is refused where it may not write (R176). -/
theorem ioStatus_writes (s : State) (b : Nat) (outs : List (Nat × Nat)) :
    s.ioStatus b [] outs = if outs.any (fun r => !s.rangeOk b .wr r.1 r.2) then some .accessDenied else none :=
  rfl

namespace WritesAlike
variable {s t : State} {b : Nat}

theorem refl (s : State) (b : Nat) : WritesAlike s s b := ⟨.refl s, fun _ _ _ => rfl, rfl⟩

theorem setBay (h : WritesAlike s t b) {b' : Nat} {f : Bay → Bay}
    (hf : ∀ y, (f y).bind = y.bind ∧ (f y).pages = y.pages ∧ (f y).join = y.join) :
    WritesAlike s (t.setBay b' f) b :=
  ⟨h.mem, fun acc a n => (translate_setBay hf b acc a n).trans (h.place acc a n), h.gone⟩

theorem lost (h : WritesAlike s t b) (l : Loc) : t.lost l = s.lost l := by
  unfold State.lost
  rw [h.gone]

theorem rangeOk (h : WritesAlike s t b) (acc : Acc) (a n : Nat) : t.rangeOk b acc a n = s.rangeOk b acc a n := by
  unfold State.rangeOk
  simp only [h.place]

theorem rangeSkips (h : WritesAlike s t b) (acc : Acc) (a n : Nat) :
    t.rangeSkips b acc a n = s.rangeSkips b acc a n := by
  obtain ⟨-, -, -, -, -, hpoison⟩ := h.mem
  unfold State.rangeSkips State.skipped
  simp only [h.place, h.lost, hpoison]

theorem outStatus (h : WritesAlike s t b) (outs : List (Nat × Nat)) (st : Status) :
    t.outStatus b outs st = s.outStatus b outs st := by
  unfold State.outStatus
  simp only [h.rangeSkips]

/-- The ranges that a command writes may be written in both or in neither. -/
theorem ioStatus_outs (h : WritesAlike s t b) (outs : List (Nat × Nat)) :
    t.ioStatus b [] outs = s.ioStatus b [] outs := by
  have houts : outs.any (fun r => !t.rangeOk b .wr r.1 r.2) = outs.any (fun r => !s.rangeOk b .wr r.1 r.2) := by
    simp only [h.rangeOk]
  rw [ioStatus_writes, ioStatus_writes, houts]

end WritesAlike

end Sys2Proof
end

section
/-! The memory commands: MEM_COPY, MEM_FILL, MEM_MAP and MEM_PLACE. -/
namespace Sys2Proof
open Machine

/-- A running command completes with what its operation leaves, if that keeps its slot. -/
theorem Running.completes {s u : State} {c : Slot} {i : Instr} {h : Hdr} {f : State → Eff} {g : Slot → State}
    {st : Status} {r : Nat} (hr : Running s c i) (hexec : exec i s = .next (s.onRunning i g)) (hi : hdrOf i = some h)
    (hg : g c = s.complete h.adm f) (hf : f s = (u, st, r)) (hslot : u.slot? c.adm = s.slot? c.adm) :
    ∃ t, exec i s = .next t ∧ Ended t c st r ∧ SameMemory u t ∧ CoresKept u t := by
  obtain ⟨hs, hp, -⟩ := id hr
  obtain ⟨hended, hmem, hcores⟩ := State.complete_spec s c f (by rw [hf]; exact hslot.trans hs) hp
  rw [hf] at hended hmem hcores
  refine ⟨_, ?_, hended, hmem, hcores⟩
  rw [hexec, hr.onRunning hi g, hg, hr.adm_eq hi]

theorem slot?_writeBay (s : State) (b a : Nat) (bs : List Byte) (adm : Nat) :
    (s.writeBay b a bs).slot? adm = s.slot? adm := (KeepsRest.writeBay s b a bs).slot? adm

/-- What stays of the bays after a write stays of those before it. -/
theorem CoresKept.of_writeBay {s t : State} {b a : Nat} {bs : List Byte} (h : CoresKept (s.writeBay b a bs) t) :
    CoresKept s t := CoresKept.trans (.of_eq (bays_writeBay ..)) h

/-! ### MEM_COPY and MEM_FILL -/

/-- A copy that meets no byte it may not read or write moves them all. -/
theorem copyLocal_whole {s : State} {b src dst n : Nat} (tag : W32) (hrd : s.goodPrefix b .rd src n = n)
    (hwr : s.goodPrefix b .wr dst n = n) (hskip : s.rangeSkips b .wr dst n = false) :
    State.copyLocal b tag src dst n s = (s.writeBay b dst (s.readBay b src n), .ok, n) := by
  unfold State.copyLocal
  simp [hrd, hwr, outStatus_one hskip]

theorem memFillEff_whole {s : State} {b dst n : Nat} (p : W64) (hwr : s.goodPrefix b .wr dst n = n)
    (hskip : s.rangeSkips b .wr dst n = false) :
    State.memFillEff b dst n p s = (s.writeBay b dst (fillBytes p dst n), .ok, n) := by
  unfold State.memFillEff
  simp [hwr, outStatus_one hskip]

/-- A transfer that begins: nothing of it is read or answered yet. -/
def freshXfer (g : Group) (adm group vc src dst n : Nat) : Xfer := {
  adm := some adm, trig := none, group := group, vc := vc, srcMember := sideOf (some g) src
  dstMember := sideOf (some g) dst, src := sideAddr src, dst := sideAddr dst
  chunks := cutChunks (sideAddr dst) n, got := [], answered := [] }

/-- A transfer has begun: memory and commands stay, and the bay has it beside its others. -/
structure Transferring (s t : State) (b : Nat) (x : Xfer) : Prop where
  mem : SameMemory s t
  slots : ∀ adm, t.slot? adm = s.slot? adm
  xfers : (t.bay b).xfers = (s.bay b).xfers ++ [x]

/-- A transfer noted, and packets sent for it. -/
theorem Transferring.of_sent {s t : State} {b : Nat} {x : Xfer} (hb : b < s.bays.length)
    (h : LinkOnly (s.setBay b fun y => { y with xfers := y.xfers ++ [x] }) t) : Transferring s t b x :=
  ⟨h.mem, h.slot?, by rw [h.bay, State.bay_setBay_self _ _ _ hb]⟩

theorem Transferring.askChunks {s : State} {b : Nat} (hb : b < s.bays.length) (g : Group) (x : Xfer) (m : Nat) :
    Transferring s (s.askChunks b g x m) b x :=
  .of_sent hb ((LinkOnly.refl _).foldl fun _ _ h => h.sendTo)

/-- A transfer with no chunk answered has not ended. -/
theorem not_complete_of_unanswered {x : Xfer} (hc : x.chunks ≠ []) (ha : x.answered = []) : x.complete? = false := by
  unfold Xfer.complete?
  obtain ⟨k, ks, hk⟩ := List.exists_cons_of_ne_nil hc
  simp [hk, ha, assoc]

/-- Chunks that can all be read leave, and none is answered yet. -/
theorem Transferring.sendChunks {s : State} {b : Nat} (hb : b < s.bays.length) (g : Group) (x : Xfer) (m : Nat)
    (data : Nat → Nat → List Byte) (bad : Nat → Nat → Option Nat) (hgood : ∀ k ∈ x.chunks, bad k.1 k.2 = none)
    (hc : x.chunks ≠ []) (ha : x.answered = []) : Transferring s (s.sendChunks b g x m data bad) b x := by
  have hall : x.chunks.takeWhile (fun c => (bad c.1 c.2).isNone) = x.chunks :=
    List.takeWhile_eq_self_iff.2 fun k hk => by rw [hgood k hk]; rfl
  have hx : ({ x with chunks := x.chunks, answered := [] } : Xfer) = x := by rw [← ha]
  unfold State.sendChunks
  simp only [hall, List.drop_length, List.take_nil, List.append_nil, List.map_nil, hx]
  generalize hu : List.foldl _ _ _ = u
  have hsent : Transferring s u b x := by
    rw [← hu]
    exact .of_sent hb ((LinkOnly.refl _).foldl fun _ _ h => h.sendTo)
  have hub : b < u.bays.length := by
    rw [← hu]
    rw [LinkOnly.bays ((LinkOnly.refl _).foldl fun _ _ h => h.sendTo), State.setBay_length]
    exact hb
  unfold State.putXfer
  rw [not_complete_of_unanswered hc ha, if_neg (by simp)]
  refine ⟨hsent.mem, hsent.slots, ?_⟩
  rw [State.bay_setBay_self _ _ _ hub]
  simp [hsent.xfers]

theorem cutChunks_ne_nil {dst n : Nat} (hn : 0 < n) : cutChunks dst n ≠ [] := by
  unfold cutChunks
  rw [if_neg (by omega)]
  simp

/-- A command's transfer whose sides are members of the formed group, and whose source can be read when it lies here,
begins with all its chunks (R126). -/
theorem Transferring.startXfer {s : State} {b adm group vc src dst n : Nat} {g : Group} (hb : b < s.bays.length)
    (hg : (s.bay b).formed? group = some g) (hn : 0 < n)
    (hremote : (sideOf (some g) src).isSome ∨ (sideOf (some g) dst).isSome)
    (hsrc : ∀ m, sideOf (some g) src = some m → m < g.blk.members)
    (hdst : ∀ m, sideOf (some g) dst = some m → m < g.blk.members)
    (hread : (sideOf (some g) src).isNone → ∀ k ∈ cutChunks (sideAddr dst) n,
      s.readFault b (sideAddr src + k.1) k.2 = none) :
    Transferring s (s.startXfer b group vc (some adm) none src dst n) b (freshXfer g adm group vc src dst n) := by
  unfold State.startXfer
  rw [hg]
  dsimp only
  cases hs : sideOf (some g) src with
  | some m =>
    unfold freshXfer
    rw [hs]
    cases hd : sideOf (some g) dst with
    | some k =>
      rw [if_neg (by simp [hsrc m hs, hdst k hd])]
      exact .askChunks hb g _ m
    | none =>
      rw [if_neg (by simp [hsrc m hs])]
      exact .askChunks hb g _ m
  | none =>
    obtain ⟨m, hm⟩ := Option.isSome_iff_exists.1 (hremote.resolve_left (by simp [hs]))
    have hgood := hread (by simp [hs])
    have hnone : (cutChunks (sideAddr dst) n).find? (fun c => (s.readFault b (sideAddr src + c.1) c.2).isSome) = none :=
      List.find?_eq_none.2 fun k hk => by simp [hgood k hk]
    rw [hm]
    simp only [hdst m hm, decide_true, Bool.not_true, Bool.or_self, Bool.false_eq_true, if_false, Option.isNone_some, hnone]
    unfold freshXfer
    rw [hs, hm]
    exact .sendChunks hb g _ m _ _ hgood (cutChunks_ne_nil hn) rfl

/-! ### MEM_PLACE -/

theorem movePages_frame (b dest : Nat) (ps : List Page) (s : State) :
    let t := (s.movePages b dest ps).1
    t = { s with dram := t.dram, zeroMarks := t.zeroMarks, poison := t.poison, bays := t.bays } := by
  induction ps generalizing s with
  | nil => rfl
  | cons p ps ih =>
    have hmove : s.movePage b dest p = { s with
        dram := (s.movePage b dest p).dram, zeroMarks := (s.movePage b dest p).zeroMarks
        poison := (s.movePage b dest p).poison, bays := (s.movePage b dest p).bays } := by
      unfold State.movePage
      split <;> rfl
    unfold State.movePages
    split
    · rfl
    · dsimp only at ih ⊢
      rw [ih, hmove]

theorem movePages_le (b dest : Nat) (ps : List Page) (s : State) : (s.movePages b dest ps).2 ≤ ps.length := by
  induction ps generalizing s with
  | nil => exact Nat.le_refl _
  | cons p ps ih =>
    unfold State.movePages
    split
    · exact Nat.zero_le _
    · exact Nat.succ_le_succ (ih _)

theorem movePage_poison {s : State} (b dest : Nat) (p : Page) (h : s.poison = []) : (s.movePage b dest p).poison = [] := by
  unfold State.movePage
  split
  · exact h
  · show s.poison.filter _ = []
    rw [h]
    rfl

theorem movePage_t3down (s : State) (b dest : Nat) (p : Page) : (s.movePage b dest p).t3down = s.t3down := by
  unfold State.movePage
  split <;> rfl

/-- Without a poisoned line and with every expander there, no page is stuck (R339, R382). -/
theorem stuckPage_eq_false {s : State} (b dest : Nat) (p : Page) (hp : s.poison = []) (ht : s.t3down = []) :
    s.stuckPage b dest p = false := by
  have hlost : ∀ l, s.lost l = false := fun l => by simp [State.lost, ht]
  unfold State.stuckPage State.poisoned
  cases hfree : (s.bay b).freeRange dest p.size <;> simp [hp, hlost]

theorem movePages_all (b dest : Nat) (ps : List Page) {s : State} (hp : s.poison = []) (ht : s.t3down = []) :
    (s.movePages b dest ps).2 = ps.length := by
  induction ps generalizing s with
  | nil => rfl
  | cons p ps ih =>
    unfold State.movePages
    rw [stuckPage_eq_false b dest p hp ht, if_neg (by simp)]
    exact congrArg (· + 1) (ih (movePage_poison b dest p hp) ((movePage_t3down ..).trans ht))

/-- The operation of a MEM_PLACE whose checks pass (R130). -/
theorem memPlaceEff_moves {s : State} {b a n dest : Nat} (h : s.memPlaceCheck b a n dest = none) :
    let ps := (s.bay b).pagesIn a n
    let r := s.movePages b dest ps
    State.memPlaceEff b a n dest s = (r.1, if r.2 = ps.length then .ok else .machineCheck, r.2) := by
  unfold State.memPlaceEff
  rw [h]

/-- A MACHINE_CHECK of a command that reads is logged at most (R339). -/
theorem completeIn_machineCheck {s t : State} {adm b r : Nat} {ins : List (Nat × Nat)} {f : State → Eff}
    (h : f s = (t, .machineCheck, r)) :
    ∃ u f', RecoveryOnly t u ∧ s.completeIn adm b ins f = s.complete adm f' ∧ f' s = (u, .machineCheck, r) := by
  unfold State.completeIn
  cases hbad : ins.findSome? (fun r => s.badAt b .rd r.1 r.2) with
  | none => exact ⟨t, _, .refl t, rfl, by simp [h, hbad]⟩
  | some a => exact ⟨t.logPoisonRead b (s.tagOf (some adm)) a, _, (RecoveryOnly.refl t).log2, rfl, by simp [h, hbad]⟩

/-- A MEM_PLACE whose checks pass ends with the pages moved, as one that could not move them all when one was stuck. -/
theorem Running.memPlace_ends {s : State} {c : Slot} {h : Hdr} {b a n dest : Nat} (hr : Running s c (.memPlace h a n dest))
    (hbay : c.bay? = some b) (hcheck : s.memPlaceCheck b a n dest = none) :
    let ps := (s.bay b).pagesIn a n
    let r := s.movePages b dest ps
    ∃ t, exec (.memPlace h a n dest) s = .next t ∧ SameMemory r.1 t ∧ (t.bay b).pages = (r.1.bay b).pages ∧
      Ended t c (if r.2 = ps.length then .ok else .machineCheck) r.2 := by
  intro ps r
  have heff : State.memPlaceEff b a n dest s = (r.1, if r.2 = ps.length then .ok else .machineCheck, r.2) :=
    memPlaceEff_moves hcheck
  have hslot : r.1.slot? c.adm = s.slot? c.adm := by
    unfold r
    rw [movePages_frame]
    rfl
  by_cases hall : r.2 = ps.length
  · rw [if_pos hall] at heff ⊢
    obtain ⟨t, hexec, hended, hmem, hcores⟩ := hr.completes rfl rfl (f := State.memPlaceEff b a n dest)
      (by rw [hbay]; exact completeIn_eq_complete heff) heff hslot
    exact ⟨t, hexec, hmem, by rw [hcores b], hended⟩
  · rw [if_neg hall] at heff ⊢
    obtain ⟨u, f, hlog, hcomplete, hf⟩ := completeIn_machineCheck (adm := h.adm) (b := b) (ins := [(a, n)]) heff
    obtain ⟨t, hexec, hended, hmem, hcores⟩ := hr.completes rfl rfl (f := f) (by rw [hbay]; exact hcomplete) hf
      ((hlog.slot? _).trans hslot)
    obtain ⟨tele, log, regs, hu⟩ := hlog.bay b
    exact ⟨t, hexec, (hlog.writesAlike b).mem.trans hmem, by rw [hcores b, hu], hended⟩

/-- Settles O20: each command within the device is one write, one new page table or the moves of its pages; a MEM_COPY
with another member notes its transfer and sends packets, which bear on nothing else. -/
theorem memoryCommandsComplete : Obligations.MemoryCommandsComplete := by
  unfold Obligations.MemoryCommandsComplete
  intro s c h b hparts hbay hb
  have hlen : b < s.bays.length := by rw [hparts.1]; exact hb
  refine ⟨fun src dst n => ?_, fun src dst n g hr hn hg hremote hsrc hdst hread => ?_, fun dst n p hr hwr hskip => ?_,
    fun o hr hcheck => ?_, fun a n dest hr hcheck => ?_⟩
  · intro g hr hsrc hdst hrd hwr hskip
    obtain ⟨t, hexec, hended, hmem, hcores⟩ := hr.completes rfl rfl
      (f := State.copyLocal b h.tag (sideAddr src) (sideAddr dst) n)
      (by rw [hbay]; exact if_pos (by simp [g, hsrc, hdst])) (copyLocal_whole h.tag hrd hwr hskip) (slot?_writeBay ..)
    exact ⟨t, hexec, hended, hmem, CoresKept.of_writeBay hcores⟩
  · have hstart := Transferring.startXfer (s := s.setActive h.adm) (adm := h.adm) (vc := 4) hlen hg hn hremote hsrc hdst hread
    have hgo : ¬ ((sideOf (some g) src).isNone && (sideOf (some g) dst).isNone) = true := by
      rw [Bool.and_eq_true, Option.isNone_iff_eq_none, Option.isNone_iff_eq_none]
      rintro ⟨hs, hd⟩
      simp [hs, hd] at hremote
    have hbegun := begun_setActive hr.1
    rw [hr.adm_eq rfl] at hbegun ⊢
    refine ⟨_, congrArg Host.Outcome.next ((hr.onRunning rfl _).trans ?_), ?_, hstart.mem, hstart.xfers⟩
    · rw [hbay]
      dsimp only
      rw [hg, if_neg hgo]
    · unfold Begun
      rw [hstart.slots]
      exact hbegun
  · obtain ⟨t, hexec, hended, hmem, hcores⟩ := hr.completes rfl rfl (f := State.memFillEff b dst n p) (by rw [hbay])
      (memFillEff_whole p hwr hskip) (slot?_writeBay ..)
    exact ⟨t, hexec, hended, hmem, CoresKept.of_writeBay hcores⟩
  · obtain ⟨t, hexec, hended, hmem, hcores⟩ := hr.completes rfl rfl (f := State.memMapEff b o)
      (u := s.setBay b fun y => y.applyMap o) (st := .ok) (r := o.count) (by rw [hbay])
      (by unfold State.memMapEff; rw [hcheck]) rfl
    refine ⟨t, hexec, hended, hmem, ?_, fun b' hb' => ?_⟩
    · rw [hcores b, State.bay_setBay_self _ _ _ hlen]
    · rw [← State.bay_setBay_other s b b' _ hb']
      exact hcores b'
  · obtain ⟨t, hexec, hmem, hpages, hended⟩ := hr.memPlace_ends hbay hcheck
    refine ⟨t, hexec, hmem, hpages, fun hall => ?_, fun hsome => ?_, fun hp ht => movePages_all b dest _ hp ht⟩
    · rwa [if_pos hall] at hended
    · rwa [if_neg (Nat.ne_of_lt hsome)] at hended

end Sys2Proof
end

section
/-!
Packets between members: writes, reads, answers, counter adds, and the segments of collectives, norms and gathers.
-/
namespace Sys2Proof
open Machine

/-! ### Parts of a bay -/

theorem nth_updNth_self {α : Type} [Inhabited α] (l : List α) {i : Nat} (f : α → α) (hi : i < l.length) :
    nth (updNth l i f) i = f (nth l i) := by
  simp [nth, updNth, List.getD, hi]

theorem nth_updNth_other {α : Type} [Inhabited α] (l : List α) {i k : Nat} (f : α → α) (hk : k ≠ i) :
    nth (updNth l i f) k = nth l k := by
  simp [nth, updNth, List.getD, Ne.symm hk]

/-- A bay of the device has its 256 counters (R160). -/
theorem PartsCounted.counters {s : State} (h : PartsCounted s) {b : Nat} (hb : b < 16) :
    (s.bay b).counters.length = 256 := by
  obtain ⟨hcount, hbays, -⟩ := h
  have hlt : b < s.bays.length := hcount ▸ hb
  have hmem : s.bay b ∈ s.bays := by
    unfold State.bay nth
    rw [List.getD_eq_getElem _ _ hlt]
    exact List.getElem_mem hlt
  obtain ⟨-, -, hcounters, -⟩ := hbays _ hmem
  exact hcounters

/-- An increment changes its counter, and only that one (R161). -/
theorem counters_bump (s : State) {b : Nat} (k n : Nat) (err : Bool) (hb : b < s.bays.length) :
    ((s.bump b k n err).bay b).counters =
      updNth (s.bay b).counters k (fun x => ⟨x.value + BitVec.ofNat 32 n, x.err || err⟩) := by
  have hrecheck : ∀ u : State, ((u.recheck b k).bay b).counters = (u.bay b).counters := fun u =>
    bay_setBay_kept Bay.counters (fun _ => by rfl) { u with cmds := (u.recheck b k).cmds } b b
  unfold State.bump
  rw [hrecheck, State.bay_setBay_self _ _ _ hb]

/-! ### What ends a transfer touches no memory -/

theorem sameMemory_bump (s : State) (b k n : Nat) (err : Bool) : SameMemory s (s.bump b k n err) := by
  rw [State.bump_frame]
  exact .refl s

theorem sameMemory_addAt (s : State) (b : Nat) (g : Option Group) (lc member : Option Nat) (vc ctr n : Nat) (err : Bool) :
    SameMemory s (s.addAt b g lc member vc ctr n err) := by
  unfold State.addAt
  split
  · split
    · exact sameMemory_bump ..
    · split
      · exact ((LinkOnly.refl s).sendTo).mem
      · exact .refl s
  · exact sameMemory_bump ..

theorem sameMemory_firedEnd (s : State) (b : Nat) (t : TrigBlk) (err : Bool) : SameMemory s (s.firedEnd b t err) := by
  unfold State.firedEnd State.countTrig
  dsimp only
  have hsignal : ∀ c : Prop, [Decidable c] → SameMemory s (if c then s.bump b t.signalCtr 1 err else s) := fun c _ => by
    split
    · exact sameMemory_bump ..
    · exact .refl s
  split
  · exact (hsignal _).trans (sameMemory_addAt ..)
  · exact hsignal _

theorem sameMemory_endDrain (s : State) (b adm : Nat) (st : Status) (r : Nat) (mark : List Byte) :
    SameMemory s (s.endDrain b adm st r mark) := by
  unfold State.endDrain
  dsimp only
  split
  · exact State.finish_memory (s.drained b adm mark) ..
  · exact State.finish_memory (s.setCut b _) ..

theorem sameMemory_settleGather (s : State) (b adm : Nat) : SameMemory s (s.settleGather b adm) := by
  unfold State.settleGather
  split
  · split
    · exact State.finish_memory (s.dropGather b adm) ..
    · exact .refl s
  · exact .refl s

theorem sameMemory_endXfer (s : State) (b : Nat) (x : Xfer) : SameMemory s (s.endXfer b x) := by
  unfold State.endXfer
  split
  · split
    · split
      · exact sameMemory_endDrain ..
      · exact sameMemory_settleGather (s.setGather b _ _) ..
      · exact State.finish_memory ..
    · exact .refl s
  · exact sameMemory_firedEnd ..
  · exact .refl s

theorem sameMemory_putXfer (s : State) (b i : Nat) (x : Xfer) : SameMemory s (s.putXfer b i x) := by
  unfold State.putXfer
  split
  · exact sameMemory_endXfer (s.setBay b _) ..
  · exact .refl s

/-! ### Packets of a transfer -/

/-- The answer to a request, as it leaves (R126, log 25). -/
theorem packet_mem_answer {s u : State} {p : Packet} {code : Nat} {data : List Byte} (hnv : u.nv = s.nv)
    (hroute : s.route p.snode % 4096 ≠ 0) :
    Output.packet { p with
      dnode := p.snode, snode := s.nv.node, typ := 2, hops := 0
      offset := p.offset % refusedBit + (if code = 0 then 0 else refusedBit)
      data := if code = 0 then data else toLe 1 code } ∈ (u.answer p code data).outs := by
  unfold State.route at hroute
  rw [← hnv] at hroute ⊢
  exact packet_mem_inject hroute (Nat.zero_le _)

theorem LinkOnly.answer (s : State) (p : Packet) (code : Nat) (data : List Byte) :
    LinkOnly s (s.answer p code data) := (LinkOnly.refl s).inject

/-! Taking a packet out of its buffer bears on no access and on no bay. -/

theorem WritesAlike.takePacket (s : State) (p : Packet) (b : Nat) : WritesAlike s (s.takePacket p) b := by
  rw [takePacket_frame]
  exact ⟨.refl s, fun _ _ _ => rfl, rfl⟩

@[simp] theorem bays_takePacket (s : State) (p : Packet) : (s.takePacket p).bays = s.bays := by rw [takePacket_frame]

@[simp] theorem nv_takePacket (s : State) (p : Packet) : (s.takePacket p).nv = s.nv := by rw [takePacket_frame]

@[simp] theorem slot?_takePacket (s : State) (p : Packet) (adm : Nat) : (s.takePacket p).slot? adm = s.slot? adm := by
  rw [takePacket_frame]
  rfl

@[simp] theorem bay_takePacket (s : State) (p : Packet) (b : Nat) : (s.takePacket p).bay b = s.bay b := by
  rw [takePacket_frame]
  rfl

@[simp] theorem groupOf_takePacket (s : State) (p : Packet) : (s.takePacket p).groupOf p = s.groupOf p := by
  rw [takePacket_frame]
  rfl

@[simp] theorem fabricOk_takePacket (s : State) (p : Packet) (b : Nat) (acc : Acc) (a n : Nat) :
    (s.takePacket p).fabricOk b acc a n = s.fabricOk b acc a n := by
  rw [takePacket_frame]
  rfl

@[simp] theorem findXfer_takePacket (s : State) (p : Packet) (g : Group) :
    (s.takePacket p).findXfer g p = s.findXfer g p := by
  rw [takePacket_frame]
  rfl

@[simp] theorem rangeBad_takePacket (s : State) (p : Packet) (b : Nat) (acc : Acc) (a n : Nat) :
    (s.takePacket p).rangeBad b acc a n = s.rangeBad b acc a n := by
  rw [takePacket_frame]
  rfl

@[simp] theorem readBay_takePacket (s : State) (p : Packet) (b a n : Nat) :
    (s.takePacket p).readBay b a n = s.readBay b a n := by
  rw [takePacket_frame]
  rfl

section
variable {s : State} {p : Packet}

/-- A packet that no flit has committed has no effect (R260). -/
theorem exec_uncommitted (h : s.uncommitted p = true) :
    ∀ i ∈ [Instr.fabricWrite p, .readRequest p, .readResponse p, .counterAdd p], exec i s = .next s := by
  simp only [List.forall_mem_cons]
  exact ⟨congrArg Host.Outcome.next (if_pos h), congrArg Host.Outcome.next (if_pos h),
    congrArg Host.Outcome.next (if_pos h), congrArg Host.Outcome.next (if_pos h), fun _ h => by cases h⟩

variable (h : s.uncommitted p = false)
include h

theorem exec_fabricWrite_refused (hg : (s.groupOf p).isNone) :
    exec (.fabricWrite p) s = .next ((s.takePacket p).answer p 1 []) := by
  show execFabricWrite p s = _
  unfold execFabricWrite
  simp [h, hg]

theorem exec_fabricWrite (hg : (s.groupOf p).isSome) (hok : s.fabricOk p.bay .wr p.offset p.data.length = true)
    (hskip : s.rangeSkips p.bay .wr p.offset p.data.length = false) :
    exec (.fabricWrite p) s = .next (((s.takePacket p).writeBay p.bay p.offset p.data).answer p 0 []) := by
  have hcode := (WritesAlike.takePacket s p p.bay).rangeSkips .wr p.offset p.data.length
  show execFabricWrite p s = _
  unfold execFabricWrite
  simp [h, Option.isSome_iff_ne_none.1 hg, hok, hcode, hskip]

theorem exec_readRequest_refused (hg : (s.groupOf p).isNone) :
    exec (.readRequest p) s = .next ((s.takePacket p).answer p 1 []) := by
  show execReadRequest p s = _
  unfold execReadRequest
  simp [h, hg]

theorem exec_readRequest (hg : (s.groupOf p).isSome) (hn : leAt p.data 0 4 ≤ 2048)
    (hok : s.fabricOk p.bay .rd p.offset (leAt p.data 0 4) = true)
    (hbad : s.rangeBad p.bay .rd p.offset (leAt p.data 0 4) = false) :
    exec (.readRequest p) s = .next (((s.takePacket p).lateReads p.bay [(p.offset, leAt p.data 0 4)]).answer p 0
      (s.readBay p.bay p.offset (leAt p.data 0 4))) := by
  show execReadRequest p s = _
  unfold execReadRequest
  simp [h, Option.isSome_iff_ne_none.1 hg, hok, hbad, Nat.not_lt.2 hn]

theorem exec_counterAdd_refused (hg : (s.groupOf p).isNone) : exec (.counterAdd p) s = .next (s.takePacket p) := by
  show execCounterAdd p s = _
  unfold execCounterAdd
  simp [h, hg]

theorem exec_counterAdd (hg : (s.groupOf p).isSome) :
    exec (.counterAdd p) s = .next ((s.takePacket p).bump p.bay (p.offset % 256) (leAt p.data 0 8)
      (byteAt p.data 8 % 2 == 1)) := by
  show execCounterAdd p s = _
  unfold execCounterAdd
  simp [h, Option.isSome_iff_ne_none.1 hg]

variable {g : Group} {i k : Nat} {x : Xfer} {c : Nat × Nat} (hg : s.groupOf p = some g)
  (hx : s.findXfer g p = some (i, x, c, k))
include hg hx

/-- An answer to a write ends its chunk (R126). -/
theorem exec_readResponse_write (hsrc : x.srcMember = none) :
    exec (.readResponse p) s = .next ((s.takePacket p).putXfer p.bay i
      { x with answered := x.answered ++ [(c.1, answerCode p)] }) := by
  show execReadResponse p s = _
  unfold execReadResponse
  simp [h, hg, hx, hsrc]

/-- A chunk that was read lands in its destination here (R126). -/
theorem exec_readResponse_read (hsrc : x.srcMember.isSome) (hdst : x.dstMember = none) (hgot : x.got.contains c.1 = false)
    (hcode : answerCode p = 0) :
    let r := (s.takePacket p).landChunk p.bay (x.dst + c.1) (slice p.data 0 c.2)
    exec (.readResponse p) s = .next (r.1.putXfer p.bay i { x with answered := x.answered ++ [(c.1, r.2)] }) := by
  show execReadResponse p s = _
  unfold execReadResponse
  simp [h, hg, hx, hdst, Option.isSome_iff_ne_none.1 hsrc, hcode, List.contains_iff_mem.not.1 (by rw [hgot]; simp)]

end

/-- The answer to a request, as its packet: its fields returned, with an offset that says how it went (log 25). -/
def reply (s : State) (p : Packet) (off : Nat) (bs : List Byte) : Packet :=
  { p with dnode := p.snode, snode := s.nv.node, typ := 2, hops := 0, offset := off, data := bs }

section
variable {s u : State} {p : Packet} (hnv : u.nv = s.nv) (hroute : s.route p.snode % 4096 ≠ 0)
include hnv hroute

theorem reply_mem_answer (bs : List Byte) :
    Output.packet (reply s p (p.offset % refusedBit) bs) ∈ (u.answer p 0 bs).outs := by
  have := packet_mem_answer (code := 0) (data := bs) hnv hroute
  exact this

theorem refusal_mem_answer (bs : List Byte) :
    Output.packet (reply s p (p.offset % refusedBit + refusedBit) (toLe 1 1)) ∈ (u.answer p 1 bs).outs := by
  have := packet_mem_answer (code := 1) (data := bs) hnv hroute
  exact this

end

section
variable {s : State} {p : Packet} (h : s.uncommitted p = false)
include h

/-- A write that the pages allow is stored and answered with success (R126). -/
theorem fabricWrite_stores (hg : (s.groupOf p).isSome) (hok : s.fabricOk p.bay .wr p.offset p.data.length = true)
    (hskip : s.rangeSkips p.bay .wr p.offset p.data.length = false) :
    ∃ t, exec (.fabricWrite p) s = .next t ∧ SameMemory (s.writeBay p.bay p.offset p.data) t ∧ t.bays = s.bays ∧
      (s.route p.snode % 4096 ≠ 0 → Output.packet (reply s p (p.offset % refusedBit) []) ∈ t.outs) := by
  have hsent := LinkOnly.answer ((s.takePacket p).writeBay p.bay p.offset p.data) p 0 []
  refine ⟨_, exec_fabricWrite h hg hok hskip, ?_, ?_, fun hroute => reply_mem_answer ?_ hroute []⟩
  · exact ((WritesAlike.takePacket s p p.bay).writeBay ..).mem.trans hsent.mem
  · rw [hsent.bays, bays_writeBay, bays_takePacket]
  · rw [State.writeBay_frame]
    exact nv_takePacket ..

/-- A read that the pages allow is answered with its bytes (R126). -/
theorem readRequest_answered (hg : (s.groupOf p).isSome) (hn : leAt p.data 0 4 ≤ 2048)
    (hok : s.fabricOk p.bay .rd p.offset (leAt p.data 0 4) = true)
    (hbad : s.rangeBad p.bay .rd p.offset (leAt p.data 0 4) = false) :
    ∃ t, exec (.readRequest p) s = .next t ∧ SameMemory s t ∧ (s.route p.snode % 4096 ≠ 0 →
      Output.packet (reply s p (p.offset % refusedBit) (s.readBay p.bay p.offset (leAt p.data 0 4))) ∈ t.outs) := by
  have hlate := ReadsAlike.lateReads (s.takePacket p) p.bay [(p.offset, leAt p.data 0 4)]
  refine ⟨_, exec_readRequest h hg hn hok hbad, ?_, fun hroute => reply_mem_answer ?_ hroute _⟩
  · exact ((WritesAlike.takePacket s p p.bay).mem.trans hlate.mem).trans (LinkOnly.answer ..).mem
  · rw [← nv_takePacket s p]
    unfold State.lateReads
    split <;> rfl

/-- A counter add raises its counter, and touches no other (R269). -/
theorem counterAdd_counts (hg : (s.groupOf p).isSome) (hb : p.bay < s.bays.length)
    (hcount : (s.bay p.bay).counters.length = 256) :
    let k := p.offset % 256
    ∃ t, exec (.counterAdd p) s = .next t ∧ SameMemory s t ∧
      nth (t.bay p.bay).counters k = ⟨(nth (s.bay p.bay).counters k).value + BitVec.ofNat 32 (leAt p.data 0 8),
        (nth (s.bay p.bay).counters k).err || byteAt p.data 8 % 2 == 1⟩ ∧
      ∀ q, q ≠ k → nth (t.bay p.bay).counters q = nth (s.bay p.bay).counters q := by
  intro k
  have hbump := counters_bump (s.takePacket p) k (leAt p.data 0 8) (byteAt p.data 8 % 2 == 1) (b := p.bay)
    (by rw [bays_takePacket]; exact hb)
  rw [bay_takePacket] at hbump
  refine ⟨_, exec_counterAdd h hg, (WritesAlike.takePacket s p p.bay).mem.trans (sameMemory_bump ..), ?_, fun q hq => ?_⟩
  · rw [hbump, nth_updNth_self _ _ (by rw [hcount]; exact Nat.mod_lt _ (by decide))]
  · rw [hbump, nth_updNth_other _ _ hq]

/-- A request from a node that is no member stores nothing and is answered with a refusal (R126). -/
theorem request_refused (hg : (s.groupOf p).isNone) :
    ∀ i ∈ [Instr.fabricWrite p, .readRequest p], ∃ t, exec i s = .next t ∧ SameMemory s t ∧ t.bays = s.bays ∧
      (s.route p.snode % 4096 ≠ 0 →
        Output.packet (reply s p (p.offset % refusedBit + refusedBit) (toLe 1 1)) ∈ t.outs) := by
  have hsent := LinkOnly.answer (s.takePacket p) p 1 []
  have hmem : SameMemory s ((s.takePacket p).answer p 1 []) := (WritesAlike.takePacket s p p.bay).mem.trans hsent.mem
  have hbays := hsent.bays.trans (bays_takePacket s p)
  simp only [List.forall_mem_cons]
  exact ⟨⟨_, exec_fabricWrite_refused h hg, hmem, hbays, fun hroute => refusal_mem_answer (nv_takePacket ..) hroute []⟩,
    ⟨_, exec_readRequest_refused h hg, hmem, hbays, fun hroute => refusal_mem_answer (nv_takePacket ..) hroute []⟩,
    fun _ h => by cases h⟩

end

/-! ### Chunks answered -/

/-- Another chunk is not answered: the transfer goes on. -/
theorem not_complete_of_other {x : Xfer} {o code : Nat}
    (h : x.chunks.any (fun e => e.1 != o && (assoc x.answered e.1).isNone) = true) :
    ({ x with answered := x.answered ++ [(o, code)] } : Xfer).complete? = false := by
  obtain ⟨e, he, hopen⟩ := List.any_eq_true.1 h
  rw [Bool.and_eq_true, bne_iff_ne, Option.isNone_iff_eq_none] at hopen
  obtain ⟨hne, hnone⟩ := hopen
  refine List.all_eq_false.2 ⟨e, he, ?_⟩
  unfold assoc at hnone ⊢
  rw [Option.map_eq_none_iff] at hnone
  simp [List.find?_append, hnone, Ne.symm hne]

/-- A transfer of one chunk ends with its answer. -/
theorem last_answer {x : Xfer} {c : Nat × Nat} (hc : x.chunks = [c]) (ha : x.answered = []) :
    let y : Xfer := { x with answered := x.answered ++ [(c.1, 0)] }
    y.complete? = true ∧ y.status = .ok ∧ y.doneBytes = c.2 := by
  simp [Xfer.complete?, Xfer.status, Xfer.doneBytes, hc, ha, assoc]

/-- A command whose operation has begun ends. -/
theorem ended_of_active {s : State} {c : Slot} (st : Status) (r : Nat) (hs : s.slot? c.adm = some c)
    (hp : c.phase = .active) : Ended (s.finishNat c.adm st r) c st r :=
  State.finish_ended s c st r hs (by rw [hp]; simp) (by simp [Slot.finished?, hp])

/-- The transfer of a MEM_COPY ends its command. -/
theorem endXfer_memCopy {s : State} {b : Nat} {x : Xfer} {y : Slot} {h : Hdr} {src dst n : Nat}
    (hx : x.adm = some y.adm) (hs : s.slot? y.adm = some y) (hi : y.instr = .memCopy h src dst n) :
    s.endXfer b x = s.finishNat y.adm x.status x.doneBytes := by
  unfold State.endXfer
  simp [hx, hs, hi]

section
variable {s : State} {p : Packet} {g : Group} {i k : Nat} {x : Xfer} {c : Nat × Nat} (h : s.uncommitted p = false) (hg : s.groupOf p = some g) (hx : s.findXfer g p = some (i, x, c, k))
include h hg hx

/-- An answer to a write is noted while others are awaited. -/
theorem readResponse_noted (hb : p.bay < s.bays.length) (hsrc : x.srcMember = none)
    (hopen : x.chunks.any (fun e => e.1 != c.1 && (assoc x.answered e.1).isNone) = true) :
    ∃ t, exec (.readResponse p) s = .next t ∧ SameMemory s t ∧ (t.bay p.bay).xfers =
      (s.bay p.bay).xfers.set i { x with answered := x.answered ++ [(c.1, answerCode p)] } := by
  refine ⟨_, exec_readResponse_write h hg hx hsrc, ?_, ?_⟩
  · exact (WritesAlike.takePacket s p p.bay).mem.trans (sameMemory_putXfer ..)
  · unfold State.putXfer
    rw [not_complete_of_other hopen, if_neg (by simp), State.bay_setBay_self _ _ _ (by simpa using hb), bay_takePacket]

/-- The last answer to a write ends its MEM_COPY OK. -/
theorem readResponse_ends {y : Slot} {hd : Hdr} {src dst n : Nat} (hb : p.bay < s.bays.length) (hsrc : x.srcMember = none)
    (hc : x.chunks = [c]) (ha : x.answered = []) (hcode : answerCode p = 0) (hadm : x.adm = some y.adm)
    (hs : s.slot? y.adm = some y) (hp : y.phase = .active) (hi : y.instr = .memCopy hd src dst n) :
    ∃ t, exec (.readResponse p) s = .next t ∧ SameMemory s t ∧ Ended t y .ok c.2 ∧
      (t.bay p.bay).xfers = (s.bay p.bay).xfers.eraseIdx i := by
  obtain ⟨hcomplete, hstatus, hbytes⟩ := last_answer hc ha
  let u := (s.takePacket p).setBay p.bay fun y => { y with xfers := y.xfers.eraseIdx i }
  have hu : u.slot? y.adm = some y := (slot?_takePacket s p y.adm).trans hs
  have hexec := exec_readResponse_write h hg hx hsrc
  have hend := endXfer_memCopy (b := p.bay) (x := { x with answered := x.answered ++ [(c.1, 0)] }) hadm hu hi
  rw [hstatus, hbytes] at hend
  rw [hcode, State.putXfer, if_pos hcomplete] at hexec
  refine ⟨_, hexec.trans (congrArg Host.Outcome.next hend), ?_, ended_of_active .ok c.2 hu hp, ?_⟩
  · exact (WritesAlike.takePacket s p p.bay).mem.trans (State.finish_memory u ..)
  · rw [State.finish_cores u y.adm .ok c.2 p.bay]
    unfold u
    rw [State.bay_setBay_self _ _ _ (by simpa using hb), bay_takePacket]

/-- A chunk that was read lands in its destination. -/
theorem readResponse_lands (hsrc : x.srcMember.isSome) (hdst : x.dstMember = none) (hgot : x.got.contains c.1 = false)
    (hcode : answerCode p = 0) (hok : s.rangeOk p.bay .wr (x.dst + c.1) (slice p.data 0 c.2).length = true) :
    ∃ t, exec (.readResponse p) s = .next t ∧
      SameMemory (s.writeBay p.bay (x.dst + c.1) (slice p.data 0 c.2)) t := by
  have halike := WritesAlike.takePacket s p p.bay
  have hland : ((s.takePacket p).landChunk p.bay (x.dst + c.1) (slice p.data 0 c.2)).1 =
      (s.takePacket p).writeBay p.bay (x.dst + c.1) (slice p.data 0 c.2) := by
    unfold State.landChunk
    rw [halike.rangeOk, hok, if_neg (by simp)]
  refine ⟨_, exec_readResponse_read h hg hx hsrc hdst hgot hcode, ?_⟩
  rw [hland]
  exact (halike.writeBay ..).mem.trans (sameMemory_putXfer ..)

end

/-! ### Messages taken out of the receive buffers -/

theorem WritesAlike.freeMsg (s : State) (typ b' group member b : Nat) :
    WritesAlike s (s.freeMsg typ b' group member) b := by
  rw [freeMsg_frame]
  exact ⟨.refl s, fun _ _ _ => rfl, rfl⟩

section
variable (s : State) (typ b group member : Nat)

@[simp] theorem bays_freeMsg : (s.freeMsg typ b group member).bays = s.bays := by rw [freeMsg_frame]

@[simp] theorem bay_freeMsg (b' : Nat) : (s.freeMsg typ b group member).bay b' = s.bay b' := by
  rw [freeMsg_frame]
  rfl

@[simp] theorem slot?_freeMsg (adm : Nat) : (s.freeMsg typ b group member).slot? adm = s.slot? adm := by
  rw [freeMsg_frame]
  rfl

@[simp] theorem coll?_freeMsg (b' g i : Nat) : (s.freeMsg typ b group member).coll? b' g i = s.coll? b' g i := by
  rw [freeMsg_frame]
  rfl

@[simp] theorem collAhead_freeMsg (b' g i : Nat) :
    (s.freeMsg typ b group member).collAhead b' g i = s.collAhead b' g i := by
  rw [freeMsg_frame]
  rfl

end

/-! ### Collectives -/

/-- The first element that a test picks, after a change of those it picks that the test does not see. -/
theorem find?_map_picked {α : Type} {l : List α} {p : α → Bool} {q : α → Prop} [DecidablePred q] {f : α → α} {x : α}
    (hq : ∀ y, q y ↔ p y = true) (hf : ∀ y, p y = true → p (f y) = true) (h : l.find? p = some x) :
    (l.map fun y => if q y then f y else y).find? p = some (f x) := by
  have hp : p ∘ (fun y => if q y then f y else y) = p := by
    funext y
    rw [Function.comp]
    split
    · rename_i hy
      rw [hf y ((hq y).1 hy), (hq y).1 hy]
    · rfl
  rw [List.find?_map, hp, h, Option.map_some, if_pos ((hq x).2 (List.find?_some h))]

theorem coll?_setColl {s : State} {b g i : Nat} {f : Coll → Coll} {c : Coll} (hb : b < s.bays.length)
    (hc : s.coll? b g i = some c) (hf : ∀ y, (f y).group = y.group ∧ (f y).index = y.index) :
    (s.setColl b g i f).coll? b g i = some (f c) := by
  unfold State.setColl State.coll?
  rw [State.bay_setBay_self _ _ _ hb]
  exact find?_map_picked (fun y => by simp) (fun y hy => by rw [(hf y).1, (hf y).2]; exact hy) hc

theorem coll?_names {s : State} {b g i : Nat} {c : Coll} (hc : s.coll? b g i = some c) : c.group = g ∧ c.index = i := by
  have := List.find?_some hc
  simpa using this

theorem formed?_id {y : Bay} {n : Nat} {g : Group} (h : y.formed? n = some g) : g.id = n := by
  have := List.find?_some h
  simp only [Bool.and_eq_true, beq_iff_eq] at this
  exact this.1

/-- A segment's sender has been heard, and its stamp is kept when it is the first (R263, R272). -/
def noteSeg (now : Nat) (x : CollSeg) (c : Coll) : Coll := { c with
  heard := assocSet c.heard x.member now
  stamps := if c.stamps.any (·.1 == x.member) then c.stamps else c.stamps ++ [(x.member, x.stamp)] }

/-- A collective that misses stamps goes on. -/
theorem settleColl_open {s : State} {b i : Nat} {g : Group} {c : Coll} (hc : s.coll? b g.id i = some c)
    (hst : c.stamps.length ≠ g.blk.members) : s.settleColl b g i = s := by
  unfold State.settleColl
  simp [hc, hst]

/-- A collective with all its stamps and values ends when its results can be stored. -/
theorem settleColl_done {s : State} {b i : Nat} {g : Group} {c : Coll} (hc : s.coll? b g.id i = some c)
    (hfin : c.haveFinals (s.bay b) g = true) (hst : c.stamps.length = g.blk.members)
    (hal : (s.bay b).aligned c.opcode c.ops = none) (hw : (s.writeColl b g c).1 = none) (hcor : c.corrected = false) :
    ∃ f, s.settleColl b g i = ((s.writeColl b g c).2.setGroup b g.id f).endColl b c .ok
      (c.lateness.1 % 2 ^ 58 + c.lateness.2 * 2 ^ 58) := by
  unfold State.settleColl
  rw [hc]
  dsimp only
  rw [if_pos (by simp [hfin, hst, hal]), hw, hcor]
  exact ⟨_, rfl⟩

/-- The end of a collective's side takes it off the list of its bay, and ends its command (R272). -/
theorem endColl_command {s : State} {b r : Nat} {c : Coll} {y : Slot} (st : Status) (hb : b < s.bays.length)
    (hc : c.adm = some y.adm) (hs : s.slot? y.adm = some y) (hp : y.phase = .active) :
    let t := s.endColl b c st r
    SameMemory s t ∧ t.coll? b c.group c.index = none ∧ Ended t y st r := by
  intro t
  let u := s.setBay b fun y => { y with colls := y.colls.filter fun x => !(x.group == c.group && x.index == c.index) }
  have ht : t = u.finishNat y.adm st r := by
    unfold t State.endColl
    rw [hc]
  have hcolls : (t.bay b).colls = (s.bay b).colls.filter fun x => !(x.group == c.group && x.index == c.index) := by
    rw [ht, State.finish_cores u y.adm st r b]
    exact congrArg Bay.colls (State.bay_setBay_self _ _ _ hb)
  refine ⟨?_, ?_, ?_⟩
  · rw [ht]
    exact State.finish_memory u ..
  · unfold State.coll?
    rw [hcolls, List.find?_eq_none]
    intro x hx
    simpa [imp_iff_not_or] using (List.mem_filter.1 hx).2
  · rw [ht]
    exact ended_of_active (s := u) st r hs hp

/-! What a collective's results depend on: the bay's training state, and of the collective neither its stamps nor when its
peers were heard. -/

theorem dstBytes_congr {y z : Bay} (h : z.train = y.train) (opcode : Nat) (o : CollOps) (n p : Nat) :
    dstBytes z opcode o n p = dstBytes y opcode o n p := by
  unfold dstBytes Bay.segment Bay.aligned
  rw [h]

theorem haveFinals_congr {y z : Bay} (h : z.train = y.train) (c : Coll) (g : Group) :
    c.haveFinals z g = c.haveFinals y g := by
  unfold Coll.haveFinals Bay.segment Bay.aligned
  rw [h]

theorem aligned_congr {y z : Bay} (h : z.train = y.train) (opcode : Nat) (o : CollOps) :
    z.aligned opcode o = y.aligned opcode o := by
  unfold Bay.aligned
  rw [h]

theorem noteSeg_lateness {x : CollSeg} {c : Coll} (now : Nat) (h : c.stamps.any (·.1 == x.member) = false) :
    (noteSeg now x c).lateness = ({ c with stamps := c.stamps ++ [(x.member, x.stamp)] } : Coll).lateness := by
  unfold noteSeg
  rw [h]
  rfl

/-- Results that no arm takes are stored, or nothing is changed. -/
theorem KeepsRest.writeColl {s : State} {b : Nat} {g : Group} {c : Coll}
    (h : (s.bay b).aligned c.opcode c.ops = none) : KeepsRest s (s.writeColl b g c).2 := by
  unfold State.writeColl
  simp only [h, Option.bind_none]
  split
  · rfl
  · exact .foldl (fun _ _ => .writeBay ..) _ s

/-- Results that no arm takes are stored alike where the bay's addresses reach the same places. -/
theorem WritesAlike.writeColl {s t : State} {b : Nat} (g : Group) {c : Coll} (h : WritesAlike s t b)
    (htrain : (t.bay b).train = (s.bay b).train) (hal : (s.bay b).aligned c.opcode c.ops = none) :
    (t.writeColl b g c).1 = (s.writeColl b g c).1 ∧ WritesAlike (s.writeColl b g c).2 (t.writeColl b g c).2 b := by
  unfold State.writeColl
  simp only [(aligned_congr htrain ..).trans hal, hal, Option.bind_none, dstBytes_congr htrain, h.ioStatus_outs,
    h.outStatus]
  generalize s.ioStatus b [] _ = refusal
  cases refusal with
  | some st => exact ⟨rfl, h⟩
  | none => exact ⟨rfl, List.foldl_rel (r := fun s t => WritesAlike s t b) h fun _ _ _ _ hu => hu.writeBay ..⟩

/-- A value not known yet, that is not on its way back, is kept and passed on. -/
theorem learnFinal_new {s : State} {b i : Nat} {g : Group} {k : Known} {src : Option Nat} {c : Coll}
    (hc : s.coll? b g.id i = some c) (hnew : c.finals.any (fun f => f.lo == k.lo && f.first == k.first) = false)
    (hback : (c.net g).isReturn g.blk.thisMember src = false) :
    LinkOnly (s.setColl b g.id i fun c => { c with finals := c.finals ++ [k] }) (s.learnFinal b g i k src) := by
  unfold State.learnFinal
  rw [hc]
  simp only [hnew, hback, Bool.false_eq_true, if_false]
  exact (LinkOnly.refl _).foldl fun _ _ hs => hs.sendSeg

/-- The state in which a segment has been noted at its collective. -/
def noted (s : State) (x : CollSeg) : State :=
  (s.freeMsg 3 x.bay x.group x.member).setColl x.bay x.group x.index
    (noteSeg (s.freeMsg 3 x.bay x.group x.member).clock.uptime x)

theorem WritesAlike.noted (s : State) (x : CollSeg) (b : Nat) : WritesAlike s (noted s x) b :=
  (WritesAlike.freeMsg ..).setBay fun _ => ⟨rfl, rfl, rfl⟩

theorem train_noted (s : State) (x : CollSeg) (b : Nat) : ((noted s x).bay b).train = (s.bay b).train := by
  unfold Sys2Proof.noted State.setColl
  rw [bay_setBay_kept Bay.train (fun _ => by rfl), bay_freeMsg]

theorem slot?_noted (s : State) (x : CollSeg) (adm : Nat) : (noted s x).slot? adm = s.slot? adm :=
  slot?_freeMsg ..

theorem length_noted (s : State) (x : CollSeg) : (noted s x).bays.length = s.bays.length := by
  unfold noted State.setColl
  rw [State.setBay_length, bays_freeMsg]

theorem coll?_noted {s : State} {x : CollSeg} {c : Coll} (hb : x.bay < s.bays.length)
    (hc : s.coll? x.bay x.group x.index = some c) :
    ∃ now, (noted s x).coll? x.bay x.group x.index = some (noteSeg now x c) :=
  ⟨_, coll?_setColl (by simpa using hb) ((coll?_freeMsg ..).trans hc) fun _ => ⟨rfl, rfl⟩⟩

section
variable {s : State} {x : CollSeg} {g : Group} {c : Coll} (hop1 : x.opcode ≠ 0x0320) (hop2 : x.opcode ≠ 0x0311)
include hop1 hop2

/-- A segment that comes ahead of its collective waits (R266). -/
theorem collectiveSegment_waits (hb : x.bay < s.bays.length) (hc : s.coll? x.bay x.group x.index = none)
    (hahead : s.collAhead x.bay x.group x.index = true) :
    ∃ t, exec (.collectiveSegment x) s = .next t ∧ SameMemory s t ∧
      (t.bay x.bay).earlyColls = (s.bay x.bay).earlyColls ++ [x] := by
  refine ⟨(s.freeMsg 3 x.bay x.group x.member).setBay x.bay fun y => { y with earlyColls := y.earlyColls ++ [x] }, ?_,
    (WritesAlike.freeMsg s _ _ _ _ x.bay).mem, ?_⟩
  · show execCollectiveSegment x s = _
    unfold execCollectiveSegment
    simp [hop1, hop2, hc, hahead]
  · rw [State.bay_setBay_self _ _ _ (by simpa using hb), bay_freeMsg]

variable (hg : (s.bay x.bay).formed? x.group = some g) (hc : s.coll? x.bay x.group x.index = some c)
  (hsame : sameColl c x = true)
include hg hc hsame

/-- A stamp alone may end its collective. -/
theorem exec_stamp (he : x.elems = []) :
    exec (.collectiveSegment x) s = .next ((noted s x).settleColl x.bay g x.index) := by
  show execCollectiveSegment x s = _
  unfold execCollectiveSegment State.takeSeg
  simp [hop1, hop2, hg, hc, hsame, he]
  rfl

/-- A final value is learned, and may end its collective. -/
theorem exec_final (he : x.elems ≠ []) (hfinal : x.final = true) :
    exec (.collectiveSegment x) s = .next (((noted s x).learnFinal x.bay g x.index
      ⟨x.lo, x.hi, x.first, x.elems⟩ (some x.member)).settleColl x.bay g x.index) := by
  show execCollectiveSegment x s = _
  unfold execCollectiveSegment State.takeSeg
  simp [hop1, hop2, hg, hc, hsame, he, hfinal]
  rfl

/-- A first stamp of a member is kept while others are missing (R272). -/
theorem collectiveSegment_stamped (hb : x.bay < s.bays.length) (he : x.elems = [])
    (hnew : c.stamps.any (·.1 == x.member) = false) (hmore : c.stamps.length + 1 < g.blk.members) :
    ∃ t d, exec (.collectiveSegment x) s = .next t ∧ SameMemory s t ∧ t.coll? x.bay x.group x.index = some d ∧
      d.stamps = c.stamps ++ [(x.member, x.stamp)] ∧ d.finals = c.finals := by
  obtain ⟨now, hd⟩ := coll?_noted hb hc
  have hstamps : (noteSeg now x c).stamps = c.stamps ++ [(x.member, x.stamp)] := by simp [noteSeg, hnew]
  have hopen : (noted s x).settleColl x.bay g x.index = noted s x := by
    refine settleColl_open (c := noteSeg now x c) (by rw [formed?_id hg, hd]) ?_
    rw [hstamps, List.length_append]
    exact Nat.ne_of_lt hmore
  exact ⟨_, _, exec_stamp hop1 hop2 hg hc hsame he, by rw [hopen]; exact (WritesAlike.noted s x x.bay).mem,
    by rw [hopen, hd], hstamps, rfl⟩

/-- The last stamp ends a collective whose values are here: its results are stored, and the command has the lateness
(R272). -/
theorem collectiveSegment_ends {y : Slot} (hb : x.bay < s.bays.length) (he : x.elems = [])
    (hnew : c.stamps.any (·.1 == x.member) = false) (hlast : c.stamps.length + 1 = g.blk.members)
    (hfin : c.haveFinals (s.bay x.bay) g = true) (hal : (s.bay x.bay).aligned c.opcode c.ops = none)
    (hcor : c.corrected = false) (hw : (s.writeColl x.bay g c).1 = none) (hadm : c.adm = some y.adm)
    (hs : s.slot? y.adm = some y) (hp : y.phase = .active) :
    let l := ({ c with stamps := c.stamps ++ [(x.member, x.stamp)] } : Coll).lateness
    ∃ t, exec (.collectiveSegment x) s = .next t ∧ SameMemory (s.writeColl x.bay g c).2 t ∧
      t.coll? x.bay x.group x.index = none ∧ Ended t y .ok (l.1 % 2 ^ 58 + l.2 * 2 ^ 58) := by
  obtain ⟨now, hd⟩ := coll?_noted hb hc
  have halike := WritesAlike.noted s x x.bay
  have htrain := train_noted s x x.bay
  have hal' : ((noted s x).bay x.bay).aligned c.opcode c.ops = none := (aligned_congr htrain ..).trans hal
  obtain ⟨hstatus, hstored⟩ := halike.writeColl g htrain hal
  have hkeep : KeepsRest (noted s x) ((noted s x).writeColl x.bay g c).2 := .writeColl hal'
  obtain ⟨f, hdone⟩ := settleColl_done (s := noted s x) (c := noteSeg now x c) (by rw [formed?_id hg, hd])
    ((haveFinals_congr htrain c g).trans hfin) (by simp [noteSeg, hnew, hlast]) hal' (hstatus.trans hw) hcor
  let u := ((noted s x).writeColl x.bay g c).2.setGroup x.bay g.id f
  have hu : u.slot? y.adm = some y := (hkeep.slot? _).trans ((slot?_noted ..).trans hs)
  obtain ⟨hmem, hgone, hended⟩ := endColl_command (s := u) (b := x.bay) (c := noteSeg now x c)
    (r := (noteSeg now x c).lateness.1 % 2 ^ 58 + (noteSeg now x c).lateness.2 * 2 ^ 58) .ok
    (by unfold u State.setGroup; rw [State.setBay_length, hkeep.bays, length_noted]; exact hb) hadm hu hp
  obtain ⟨hgroup, hindex⟩ := coll?_names hd
  rw [hgroup, hindex] at hgone
  rw [noteSeg_lateness now hnew] at hended hgone hmem hdone
  exact ⟨_, (exec_stamp hop1 hop2 hg hc hsame he).trans (congrArg _ hdone), hstored.mem.trans hmem, hgone, hended⟩

/-- A final value that is new is kept while stamps are missing. -/
theorem collectiveSegment_learned (hb : x.bay < s.bays.length) (he : x.elems ≠ []) (hfinal : x.final = true)
    (hheard : c.stamps.any (·.1 == x.member) = true) (hmore : c.stamps.length < g.blk.members)
    (hback : (c.net g).isReturn g.blk.thisMember (some x.member) = false)
    (hnew : c.finals.any (fun e => e.lo == x.lo && e.first == x.first) = false) :
    ∃ t d, exec (.collectiveSegment x) s = .next t ∧ SameMemory s t ∧ t.coll? x.bay x.group x.index = some d ∧
      d.stamps = c.stamps ∧ d.finals = c.finals ++ [⟨x.lo, x.hi, x.first, x.elems⟩] := by
  obtain ⟨now, hd⟩ := coll?_noted hb hc
  have hid := formed?_id hg
  have hlearn := learnFinal_new (s := noted s x) (c := noteSeg now x c) (k := ⟨x.lo, x.hi, x.first, x.elems⟩)
    (by rw [hid, hd]) hnew hback
  let d : Coll := { noteSeg now x c with finals := c.finals ++ [⟨x.lo, x.hi, x.first, x.elems⟩] }
  have hlearned : ((noted s x).learnFinal x.bay g x.index ⟨x.lo, x.hi, x.first, x.elems⟩ (some x.member)).coll?
      x.bay x.group x.index = some d := by
    unfold State.coll?
    rw [hlearn.bay, hid]
    exact coll?_setColl (s := noted s x) (by rw [length_noted]; exact hb) hd fun _ => ⟨rfl, rfl⟩
  have hstamps : (noteSeg now x c).stamps = c.stamps := by simp [noteSeg, hheard]
  have hopen := settleColl_open (b := x.bay) (i := x.index) (g := g) (by rw [hid]; exact hlearned)
    (by rw [show d.stamps = c.stamps from hstamps]; exact Nat.ne_of_lt hmore)
  refine ⟨_, d, (exec_final hop1 hop2 hg hc hsame he hfinal).trans (congrArg _ hopen), ?_, hlearned, hstamps, rfl⟩
  exact (WritesAlike.noted s x x.bay).mem.trans hlearn.mem

end

/-! ### Norms (R241, R242) -/

/-- The partial norm that a segment brings. -/
def partialNorm (x : CollSeg) : NormAcc := ⟨nth x.elems 0, nth x.elems 1 == 1, nth x.elems 2 == 1⟩

/-- A NORM_CLIP with one more member's partial norm. -/
def NormWait.noted (w : NormWait) (x : CollSeg) : NormWait := { w with norms := w.norms ++ [(x.member, partialNorm x)] }

/-- The state in which a partial norm has been noted at its NORM_CLIP. -/
def normNoted (s : State) (x : CollSeg) (w : NormWait) : State :=
  (s.freeMsg 3 x.bay x.group x.member).setTrain x.bay fun tr => { tr with
    norms := tr.norms.map fun n => if n.adm = w.adm then NormWait.noted w x else n }

theorem slot?_raise (s : State) (b : Nat) (f : W32) (adm : Nat) : (s.raise b f).slot? adm = s.slot? adm := by
  rw [State.raise_frame]
  rfl

theorem length_raise (s : State) (b : Nat) (f : W32) : (s.raise b f).bays.length = s.bays.length := by
  unfold State.raise
  split
  · rfl
  · exact State.setBay_length ..

section
variable {s : State} {x : CollSeg} {m : ShardMap} {w : NormWait} (hb : x.bay < s.bays.length) (hop : x.opcode = 0x0320)
  (hm : (s.bay x.bay).train.map = some m) (hw : (s.bay x.bay).train.norms = [w]) (hi : w.index = x.index)
  (hnew : w.norms.any (·.1 == x.member) = false)

include hb hw in
theorem norms_normNoted : ((normNoted s x w).bay x.bay).train.norms = [NormWait.noted w x] := by
  unfold normNoted State.setTrain
  rw [State.bay_setBay_self _ _ _ (by simpa using hb), bay_freeMsg]
  simp [hw]

include hop hm hw hi hnew

theorem exec_norm : exec (.collectiveSegment x) s = .next ((normNoted s x w).settleNorm x.bay (NormWait.noted w x) m) := by
  have hfind : [w].find? (·.index == x.index) = some w := by simp [hi]
  show execCollectiveSegment x s = _
  unfold execCollectiveSegment State.takeNorm
  dsimp only
  rw [if_pos (.inl hop), bay_freeMsg, hm, hw, hfind]
  dsimp only
  rw [hnew]
  rfl

include hb

/-- A partial norm is kept while others are missing. -/
theorem norm_kept (hmore : w.norms.length + 1 < m.members) :
    ∃ t, exec (.collectiveSegment x) s = .next t ∧ SameMemory s t ∧
      (t.bay x.bay).train.norms = [NormWait.noted w x] := by
  have hopen : (normNoted s x w).settleNorm x.bay (NormWait.noted w x) m = normNoted s x w :=
    if_pos (by simpa [NormWait.noted] using hmore)
  refine ⟨_, (exec_norm hop hm hw hi hnew).trans (congrArg _ hopen), ?_, norms_normNoted hb hw⟩
  exact (WritesAlike.freeMsg s _ _ _ _ x.bay).mem

/-- The last partial norm ends the NORM_CLIP with the norm and the coefficient, which the bay keeps. -/
theorem norm_ends {c : Slot} (hlast : w.norms.length + 1 = m.members) (hadm : w.adm = c.adm)
    (hs : s.slot? c.adm = some c) (hp : c.phase = .active) :
    let norm := (totalNorm (NormWait.noted w x).norms).norm.1
    let cf := (clipCoef w.maxNorm norm).1
    ∃ t, exec (.collectiveSegment x) s = .next t ∧ SameMemory s t ∧ Ended t c .ok (norm.toNat + cf.toNat * 2 ^ 32) ∧
      (t.bay x.bay).train.clipRec = some (w.step, cf) ∧ (t.bay x.bay).train.lastNorm = some (w.step, norm) := by
  intro norm cf
  let r := (normNoted s x w).raise x.bay ((totalNorm (NormWait.noted w x).norms).norm.2 ||| (clipCoef w.maxNorm norm).2)
  let u := r.setTrain x.bay fun tr => { tr with
    norms := tr.norms.filter fun n => n.adm != w.adm, clipRec := some (w.step, cf), lastNorm := some (w.step, norm) }
  have hdone : (normNoted s x w).settleNorm x.bay (NormWait.noted w x) m =
      u.finishNat c.adm .ok (norm.toNat + cf.toNat * 2 ^ 32) := by
    rw [← hadm]
    exact if_neg (by simp [NormWait.noted, hlast])
  have hu : u.slot? c.adm = some c := (slot?_raise (normNoted s x w) ..).trans ((slot?_freeMsg ..).trans hs)
  have htrain := State.bay_setBay_self r x.bay (fun y => { y with train := { y.train with
    norms := y.train.norms.filter fun n => n.adm != w.adm, clipRec := some (w.step, cf)
    lastNorm := some (w.step, norm) } })
    (by unfold r normNoted State.setTrain; rw [length_raise, State.setBay_length, bays_freeMsg]; exact hb)
  have hcore := State.finish_cores u c.adm .ok (norm.toNat + cf.toNat * 2 ^ 32) x.bay
  refine ⟨_, (exec_norm hop hm hw hi hnew).trans (congrArg _ hdone), ?_, ended_of_active .ok _ hu hp, ?_, ?_⟩
  · exact ((WritesAlike.freeMsg s _ _ _ _ x.bay).mem.trans (sameMemory_raise (normNoted s x w) ..)).trans
      (State.finish_memory u ..)
  · rw [hcore]
    exact congrArg (fun y => y.train.clipRec) htrain
  · rw [hcore]
    exact congrArg (fun y => y.train.lastNorm) htrain

end

/-! ### Gathers (R227, R229) -/

theorem gather?_single {s : State} {b : Nat} {y : Gather} (h : (s.bay b).train.gathers = [y]) :
    s.gather? b y.adm = some y := by
  simp [State.gather?, h]

theorem gathers_setGather {s : State} {b : Nat} {y : Gather} (f : Gather → Gather) (hb : b < s.bays.length)
    (h : (s.bay b).train.gathers = [y]) : ((s.setGather b y.adm f).bay b).train.gathers = [f y] := by
  unfold State.setGather State.setTrain
  rw [State.bay_setBay_self _ _ _ hb]
  simp [h]

/-- A gather that waits for more goes on. -/
theorem settleGather_open {s : State} {b : Nat} {y : Gather} {m : ShardMap} (hy : (s.bay b).train.gathers = [y])
    (hm : (s.bay b).train.map = some m) (h : y.complete? m ((s.bay b).formed? m.group) = false) :
    s.settleGather b y.adm = s := by
  unfold State.settleGather
  simp [gather?_single hy, hm, h]

/-- A complete gather whose writes all went well ends OK. -/
theorem settleGather_done {s : State} {b : Nat} {y : Gather} {m : ShardMap} (hy : (s.bay b).train.gathers = [y])
    (hm : (s.bay b).train.map = some m) (h : y.complete? m ((s.bay b).formed? m.group) = true) (hbad : y.bad = none)
    (hout : s.outStatus b (y.outs m) .ok = .ok) :
    s.settleGather b y.adm = (s.dropGather b y.adm).finishNat y.adm .ok y.bytes := by
  unfold State.settleGather
  simp [gather?_single hy, hm, h, hbad, hout]

/-- Writes that no line of their ranges makes skip leave the status as it is (R339). -/
theorem outStatus_of_all {s : State} {b : Nat} {outs : List (Nat × Nat)}
    (h : outs.all (fun r => !s.rangeSkips b .wr r.1 r.2) = true) (st : Status) : s.outStatus b outs st = st :=
  if_neg (by simpa using h)

/-- The rows of an entry, written at their destinations on this device. -/
def storeRows (b : Nat) (e : GatherEntry) (first : Nat) (rows : List (List Byte)) (s : State) : State :=
  rows.zipIdx.foldl (fun u q => (rowDests e (first - e.firstRow + q.2)).foldl (fun u a =>
    u.writeBay b (localAddr a) q.1) u) s

theorem WritesAlike.storeRows {s t : State} {b : Nat} (h : WritesAlike s t b) (e : GatherEntry) (first : Nat)
    (rows : List (List Byte)) : WritesAlike (storeRows b e first rows s) (storeRows b e first rows t) b :=
  List.foldl_rel (r := fun s t => WritesAlike s t b) h fun _ _ _ _ hu =>
    List.foldl_rel (r := fun s t => WritesAlike s t b) hu fun _ _ _ _ hv => hv.writeBay ..

theorem sameMemory_setBay (s : State) (b : Nat) (f : Bay → Bay) : SameMemory s (s.setBay b f) := .refl s

/-- A gather's progress in its own record and in its command's touches no memory. -/
theorem sameMemory_progress (s : State) (b adm : Nat) (f : Gather → Gather) (k : Slot → Slot) :
    SameMemory s ((s.setGather b adm f).setSlot adm k) := .refl s

/-- Rows whose destinations all lie here are stored; what else their landing changes is no memory. -/
theorem landRows_stores {s : State} {b first : Nat} {y : Gather} {m : ShardMap} {i : Nat} {rows : List (List Byte)}
    (received : Bool) (hy : (s.bay b).train.gathers = [y]) (hm : (s.bay b).train.map = some m)
    (hnew : holdsRows y.got i first = false) (hreused : y.reused.contains i = false)
    (hlocal : ∀ q, q < rows.length → ∀ a ∈ rowDests (nth y.entries i) (first - (nth y.entries i).firstRow + q),
      isRemote m a = false) :
    SameMemory (storeRows b (nth y.entries i) first rows s) (s.landRows b y.adm i first rows received) := by
  have hput : rows.zipIdx.foldl (fun s r => (rowDests (nth y.entries i) (first - (nth y.entries i).firstRow + r.2)).foldl
      (fun s a => s.putRow b y.adm m a r.1) s) s = storeRows b (nth y.entries i) first rows s := by
    refine List.foldl_ext _ _ _ fun u r hr => List.foldl_ext _ _ _ fun v a ha => ?_
    unfold State.putRow
    rw [hlocal r.2 (List.snd_lt_of_mem_zipIdx hr) a ha, if_neg (by simp)]
  unfold State.landRows
  rw [gather?_single hy, hm]
  dsimp only
  rw [hnew, hreused, hput, if_neg (by simp), if_neg (by simp)]
  split
  · split
    · exact (sameMemory_progress ..).trans (sameMemory_setBay ..)
    · exact sameMemory_progress ..
  · exact sameMemory_progress ..

/-- Rows that come for the first time, and not on their way back, land and go on to other members. -/
theorem spreadRows_stores {s : State} {x : GatherSeg} {y : Gather} {m : ShardMap} {g : Group} {r : TensorRec}
    (hy : (s.bay x.bay).train.gathers = [y]) (hm : (s.bay x.bay).train.map = some m)
    (hg : (s.bay x.bay).formed? m.group = some g) (hr : m.tensor? x.want.tensorId = some r)
    (hback : (gatherNet g m x.want).isReturn m.thisMember (some x.member) = false)
    (hnew : holdsRows y.got x.entry x.firstRow = false) (hreused : y.reused.contains x.entry = false)
    (hlocal : ∀ q, q < x.rows.length → ∀ a ∈ rowDests (nth y.entries x.entry)
      (x.firstRow - (nth y.entries x.entry).firstRow + q), isRemote m a = false) :
    SameMemory (storeRows x.bay (nth y.entries x.entry) x.firstRow x.rows s)
      (s.spreadRows x.bay y.adm x (some x.member)) := by
  have hland := landRows_stores true hy hm hnew hreused hlocal
  unfold State.spreadRows
  rw [gather?_single hy, hm]
  dsimp only
  rw [hg, hr]
  dsimp only
  rw [hback, hnew, if_neg (by simp), if_neg (by simp)]
  exact hland.trans ((LinkOnly.refl _).foldl fun _ _ hs => hs.sendGather).mem

/-- A gather whose entry another member has announced. -/
def heardOf (x : GatherSeg) (y : Gather) : Gather := { y with heard := y.heard ++ [(x.member, x.entry)] }

/-- The state in which an announcement has been noted at its gather. -/
def announced (s : State) (x : GatherSeg) (y : Gather) : State :=
  (s.freeMsg 4 x.bay (((s.bay x.bay).mapGroup).getD 64) x.member).setGather x.bay y.adm (heardOf x)

theorem WritesAlike.announced (s : State) (x : GatherSeg) (y : Gather) (b : Nat) : WritesAlike s (announced s x y) b :=
  (WritesAlike.freeMsg ..).setBay fun _ => ⟨rfl, rfl, rfl⟩

theorem length_announced (s : State) (x : GatherSeg) (y : Gather) : (announced s x y).bays.length = s.bays.length := by
  unfold announced State.setGather State.setTrain
  rw [State.setBay_length, bays_freeMsg]

theorem slot?_announced (s : State) (x : GatherSeg) (y : Gather) (adm : Nat) :
    (announced s x y).slot? adm = s.slot? adm := slot?_freeMsg ..

/-- What of a bay an announcement keeps. -/
theorem announced_kept {α : Type} (φ : Bay → α) (s : State) (x : GatherSeg) (y : Gather)
    (hφ : ∀ z gathers, φ { z with train := { z.train with gathers := gathers } } = φ z) :
    φ ((announced s x y).bay x.bay) = φ (s.bay x.bay) := by
  unfold announced State.setGather State.setTrain
  rw [bay_setBay_kept φ (fun z => hφ z _), bay_freeMsg]

theorem gathers_announced {s : State} {x : GatherSeg} {y : Gather} (hb : x.bay < s.bays.length)
    (hy : (s.bay x.bay).train.gathers = [y]) : ((announced s x y).bay x.bay).train.gathers = [heardOf x y] :=
  gathers_setGather _ (by rw [bays_freeMsg]; exact hb) (by rw [bay_freeMsg]; exact hy)

/-- A gather is dropped from the list of which it is the only one. -/
theorem gathers_dropGather {s : State} {b : Nat} {y : Gather} (hb : b < s.bays.length)
    (hy : (s.bay b).train.gathers = [y]) : ((s.dropGather b y.adm).bay b).train.gathers = [] := by
  unfold State.dropGather State.setTrain
  rw [State.bay_setBay_self _ _ _ hb]
  simp [hy]

section
variable {s : State} {x : GatherSeg} {y : Gather} {m : ShardMap}

/-- A segment that comes ahead of its gather waits (R227). -/
theorem gatherSegment_waits (hb : x.bay < s.bays.length)
    (h : (s.bay x.bay).train.gathers.any (fun g => g.step == x.step && g.index == x.index) = false) :
    ∃ t, exec (.gatherSegment x) s = .next t ∧ SameMemory s t ∧
      (t.bay x.bay).train.earlyRows = (s.bay x.bay).train.earlyRows ++ [x] := by
  let u := s.freeMsg 4 x.bay (((s.bay x.bay).mapGroup).getD 64) x.member
  refine ⟨u.setTrain x.bay fun tr => { tr with earlyRows := tr.earlyRows ++ [x] }, ?_,
    (WritesAlike.freeMsg s _ _ _ _ x.bay).mem, ?_⟩
  · show execGatherSegment x s = _
    unfold execGatherSegment
    dsimp only
    rw [bay_freeMsg, h, if_neg (by simp)]
  · unfold State.setTrain
    rw [State.bay_setBay_self _ _ _ (by rw [bays_freeMsg]; exact hb), bay_freeMsg]

variable (hy : (s.bay x.bay).train.gathers = [y]) (hstep : y.step = x.step) (hindex : y.index = x.index)
  (hcount : y.entries.length = x.count) (hentry : x.entry < x.count)
  (hsame : sameEntry (nth y.entries x.entry) x.want = true)
include hy hstep hindex hcount hentry hsame

/-- A segment of a dispatched gather that matches it is noted, or its rows land; then the gather may end. -/
theorem exec_gatherSegment :
    exec (.gatherSegment x) s = .next ((if x.rows.isEmpty then announced s x y
      else (s.freeMsg 4 x.bay (((s.bay x.bay).mapGroup).getD 64) x.member).spreadRows x.bay y.adm x
        (some x.member)).settleGather x.bay y.adm) := by
  have hfind : [y].find? (fun g => g.step == x.step && g.index == x.index) = some y := by simp [hstep, hindex]
  show execGatherSegment x s = _
  unfold execGatherSegment State.takeRows
  dsimp only
  rw [bay_freeMsg, hy, if_pos (by simp [hstep, hindex]), hfind]
  dsimp only
  rw [if_neg (by simp [hcount, hsame, Nat.not_le.2 hentry])]
  rfl

section
variable (hb : x.bay < s.bays.length) (hm : (s.bay x.bay).train.map = some m) (hrows : x.rows = [])
include hb hm hrows

/-- An announcement is noted while a gather waits for more (R227). -/
theorem gatherSegment_announced (hopen : (heardOf x y).complete? m ((s.bay x.bay).formed? m.group) = false) :
    ∃ t, exec (.gatherSegment x) s = .next t ∧ SameMemory s t ∧ (t.bay x.bay).train.gathers = [heardOf x y] := by
  have hexec := exec_gatherSegment hy hstep hindex hcount hentry hsame
  have hmap := announced_kept (fun z => z.train.map) s x y fun _ _ => rfl
  have hgroup := announced_kept (fun z => z.formed? m.group) s x y fun _ _ => rfl
  have hwait := settleGather_open (y := heardOf x y) (gathers_announced hb hy) (hmap.trans hm)
    ((congrArg _ hgroup).trans hopen)
  rw [if_pos (by rw [hrows]; rfl)] at hexec
  exact ⟨_, hexec.trans (congrArg _ hwait), (WritesAlike.announced s x y x.bay).mem, gathers_announced hb hy⟩

/-- The announcement that a gather waited for ends it (R227). -/
theorem gatherSegment_ends {c : Slot} (hdone : (heardOf x y).complete? m ((s.bay x.bay).formed? m.group) = true)
    (hbad : y.bad = none) (hadm : y.adm = c.adm) (hs : s.slot? c.adm = some c) (hp : c.phase = .active)
    (hout : (y.outs m).all (fun r => !s.rangeSkips x.bay .wr r.1 r.2) = true) :
    ∃ t, exec (.gatherSegment x) s = .next t ∧ SameMemory s t ∧ Ended t c .ok y.bytes ∧
      (t.bay x.bay).train.gathers = [] := by
  have hexec := exec_gatherSegment hy hstep hindex hcount hentry hsame
  have hmap := announced_kept (fun z => z.train.map) s x y fun _ _ => rfl
  have hgroup := announced_kept (fun z => z.formed? m.group) s x y fun _ _ => rfl
  have halike := WritesAlike.announced s x y x.bay
  have hend := settleGather_done (y := heardOf x y) (gathers_announced hb hy) (hmap.trans hm) ((congrArg _ hgroup).trans hdone) hbad
    ((halike.outStatus (y.outs m) .ok).trans (outStatus_of_all hout .ok))
  let u := (announced s x y).dropGather x.bay y.adm
  have hu : u.slot? c.adm = some c := (slot?_announced s x y c.adm).trans hs
  rw [if_pos (by rw [hrows]; rfl)] at hexec
  refine ⟨u.finishNat y.adm .ok y.bytes, hexec.trans (congrArg _ hend), halike.mem.trans (State.finish_memory u ..), ?_,
    ?_⟩
  · rw [hadm]
    exact ended_of_active .ok _ hu hp
  · rw [State.finish_cores u y.adm .ok y.bytes x.bay]
    exact gathers_dropGather (y := heardOf x y) (by rw [length_announced]; exact hb) (gathers_announced hb hy)

end

/-- Rows whose destinations all lie here land there (R229). -/
theorem gatherSegment_lands {g : Group} {r : TensorRec} (hm : (s.bay x.bay).train.map = some m) (hrows : x.rows ≠ [])
    (hg : (s.bay x.bay).formed? m.group = some g) (hr : m.tensor? x.want.tensorId = some r)
    (hback : (gatherNet g m x.want).isReturn m.thisMember (some x.member) = false)
    (hnew : holdsRows y.got x.entry x.firstRow = false) (hreused : y.reused.contains x.entry = false)
    (hlocal : ∀ q, q < x.rows.length → ∀ a ∈ rowDests (nth y.entries x.entry)
      (x.firstRow - (nth y.entries x.entry).firstRow + q), isRemote m a = false) :
    ∃ t, exec (.gatherSegment x) s = .next t ∧
      SameMemory (storeRows x.bay (nth y.entries x.entry) x.firstRow x.rows s) t := by
  have hexec := exec_gatherSegment hy hstep hindex hcount hentry hsame
  rw [if_neg (by simpa using hrows)] at hexec
  refine ⟨_, hexec, ?_⟩
  have halike := (WritesAlike.freeMsg s 4 x.bay (((s.bay x.bay).mapGroup).getD 64) x.member x.bay).storeRows
    (nth y.entries x.entry) x.firstRow x.rows
  exact (halike.mem.trans (spreadRows_stores (by rw [bay_freeMsg]; exact hy) (by rw [bay_freeMsg]; exact hm)
    (by rw [bay_freeMsg]; exact hg) hr hback hnew hreused hlocal)).trans (sameMemory_settleGather ..)

end

/-- Settles O45: each packet and segment runs one of the operations above, and taking its packets out of the receive
buffers bears on none of them. -/
theorem memberPacketsAct : Obligations.MemberPacketsAct := by
  unfold Obligations.MemberPacketsAct
  intro s p hparts hbay
  have hlen : ∀ {b}, b < 16 → b < s.bays.length := fun hb => by rw [hparts.1]; exact hb
  refine ⟨exec_uncommitted, fun h => ?_, fun g hb hop1 hop2 => ?_, fun g m w => ?_, fun g hb => ?_⟩
  · intro back routed
    refine ⟨fun hg => ⟨fun hok hskip => fabricWrite_stores h hg hok hskip, ?_, ?_, ?_⟩,
      fun hg => ⟨request_refused h hg, _, exec_counterAdd_refused h hg, takePacket_frame s p⟩⟩
    · rintro n rfl hn hok hbad
      exact readRequest_answered h hg hn hok hbad
    · exact counterAdd_counts h hg (hlen hbay) (hparts.counters hbay)
    · intro g i x c k hg hx
      refine ⟨fun hsrc hopen => readResponse_noted h hg hx (hlen hbay) hsrc hopen, ?_, ?_⟩
      · intro y hd src dst n hsrc hc ha hcode hadm hs hp hi
        exact readResponse_ends h hg hx (hlen hbay) hsrc hc ha hcode hadm hs hp hi
      · intro hsrc hdst hgot hcode bs hok _
        exact readResponse_lands h hg hx hsrc hdst hgot hcode hok
  · refine ⟨fun hc hahead => collectiveSegment_waits hop1 hop2 (hlen hb) hc hahead, fun k y hk hy hsame => ?_⟩
    refine ⟨fun he hnew hmore => ?_, fun c he hnew hlast hfin hal hcor hw hadm hs hp => ?_,
      fun he hfinal hheard hmore hback hnew => ?_⟩
    · exact collectiveSegment_stamped hop1 hop2 hk hy hsame (hlen hb) he hnew hmore
    · exact collectiveSegment_ends hop1 hop2 hk hy hsame (hlen hb) he hnew hlast hfin hal hcor hw hadm hs hp
    · exact collectiveSegment_learned hop1 hop2 hk hy hsame (hlen hb) he hfinal hheard hmore hback hnew
  · intro a hb hop hm hw hi hnew
    refine ⟨fun hmore => norm_kept (hlen hb) hop hm hw hi hnew hmore, fun c hlast hadm hs hp => ?_⟩
    exact norm_ends (hlen hb) hop hm hw hi hnew hlast hadm hs hp
  · refine ⟨gatherSegment_waits (hlen hb), fun y m hy hstep hindex hcount hentry hsame hm => ?_⟩
    refine ⟨fun hrows hopen => ?_, fun c hrows hdone hbad hadm hs hp hout => ?_,
      fun x r hrows hx hr hback hnew hreused hlocal => ?_⟩
    · exact gatherSegment_announced hy hstep hindex hcount hentry hsame (hlen hb) hm hrows hopen
    · exact gatherSegment_ends hy hstep hindex hcount hentry hsame (hlen hb) hm hrows hdone hbad hadm hs hp hout
    · exact gatherSegment_lands hy hstep hindex hcount hentry hsame hm hrows hx hr hback hnew hreused hlocal

end Sys2Proof
end

section
/-! The numbering of commands (R154, R155) through every operation on slots. -/
namespace Sys2Proof
open Machine CommandsNumbered

/-- No two finished commands share a place in the completion order, and each place lies below the next (R155). -/
structure SlotTable.Placed (T : SlotTable) : Prop where
  apart : T.cmds.Pairwise (fun a b => ¬ (place a = place b ∧ (place a).isSome))
  below : ∀ c ∈ T.cmds, ∀ k, place c = some k → k < T.nextFin

theorem commandsNumbered_iff (s : State) : CommandsNumbered s ↔ s.slotTable.Numbered ∧ s.slotTable.Placed :=
  ⟨fun ⟨hrising, hbelow, hapart, hplace⟩ => ⟨⟨hrising, hbelow⟩, ⟨hapart, hplace⟩⟩,
    fun ⟨⟨hrising, hbelow⟩, ⟨hapart, hplace⟩⟩ => ⟨hrising, hbelow, hapart, hplace⟩⟩

theorem place_of_unfinished {c : Slot} (h : c.finished? = false) : place c = none := by
  unfold place
  split
  · rename_i hp
    simp [Slot.finished?, hp] at h
  · rfl

theorem place_congr {c d : Slot} (h : d.phase = c.phase) : place d = place c := by
  unfold place
  rw [h]

section
variable {T : SlotTable}

/-- Changing slots but not their numbers keeps the numbering. -/
theorem SlotTable.Numbered.map (h : T.Numbered) {f : Slot → Slot} (hf : ∀ c, (f c).adm = c.adm) :
    SlotTable.Numbered { T with cmds := T.cmds.map f } := by
  refine ⟨List.pairwise_map.2 (h.rising.imp fun hlt => ?_), fun d hd => ?_⟩
  · rwa [hf, hf]
  · obtain ⟨c, hc, rfl⟩ := List.mem_map.1 hd
    rw [hf]
    exact h.below c hc

/-- Slots that keep their place or have none afterwards keep the places apart. -/
theorem SlotTable.Placed.map (h : T.Placed) {f : Slot → Slot} (hf : ∀ c, place (f c) = place c ∨ place (f c) = none) :
    SlotTable.Placed { T with cmds := T.cmds.map f } := by
  have hold : ∀ c k, place (f c) = some k → place c = some k := fun c k hk => by
    rcases hf c with hc | hc
    · exact hc ▸ hk
    · rw [hc] at hk
      cases hk
  refine ⟨List.pairwise_map.2 (h.apart.imp fun {a b} hab => ?_), fun d hd k hk => ?_⟩
  · rintro ⟨heq, hsome⟩
    obtain ⟨k, hk⟩ := Option.isSome_iff_exists.1 hsome
    have ha := hold a k hk
    exact hab ⟨ha.trans (hold b k (heq ▸ hk)).symm, by rw [ha]; rfl⟩
  · obtain ⟨c, hc, rfl⟩ := List.mem_map.1 hd
    exact h.below c hc k (hold c k hk)

/-- The slot of one number takes the next place, which no other slot has. -/
theorem SlotTable.Placed.finish (h : T.Placed) (hn : T.Numbered) (adm : Nat) (st : Status) (r : W64) :
    SlotTable.Placed { T with
      cmds := T.cmds.map (fun c => if c.adm == adm then { c with phase := .finished st r T.nextFin } else c)
      nextFin := T.nextFin + 1 } := by
  have hold : ∀ c ∈ T.cmds, place c ≠ some T.nextFin := fun c hc hk => Nat.lt_irrefl _ (h.below c hc _ hk)
  refine ⟨List.pairwise_map.2 ((h.apart.and hn.rising).imp_of_mem fun {a b} ha hb hab => ?_), fun d hd k hk => ?_⟩
  · obtain ⟨happart, hlt⟩ := hab
    split <;> split
    · rename_i hadm hbdm
      rw [eq_of_beq hadm, eq_of_beq hbdm] at hlt
      exact (Nat.lt_irrefl _ hlt).elim
    · exact fun ⟨heq, _⟩ => hold b hb heq.symm
    · exact fun ⟨heq, _⟩ => hold a ha heq
    · exact happart
  · obtain ⟨c, hc, rfl⟩ := List.mem_map.1 hd
    split at hk
    · cases hk
      exact Nat.lt_succ_self _
    · exact Nat.lt_succ_of_lt (h.below c hc k hk)

end

/-- Whatever operations a step does on the slots, they stay numbered in admission order with places of their own. -/
theorem SlotSteps.numbered {T t : SlotTable} {wiped : Bool} (hT : T.Numbered) (hP : T.Placed) (h : SlotSteps T wiped t) :
    t.Numbered ∧ t.Placed := by
  induction h with
  | refl => exact ⟨hT, hP⟩
  | note f _ hf ih =>
    obtain ⟨hn, hp⟩ := ih
    exact ⟨hn.map fun c => (hf c).1.adm_eq, hp.map fun c => .inl (place_congr (hf c).2)⟩
  | proceed adm f _ _ hf ih =>
    obtain ⟨hn, hp⟩ := ih
    refine ⟨hn.map fun c => ?_, hp.map fun c => ?_⟩
    · split
      · exact (hf c).1.adm_eq
      · rfl
    · split
      · exact .inr (place_of_unfinished (hf c).2)
      · exact .inl rfl
  | finish adm st r _ _ ih =>
    obtain ⟨hn, hp⟩ := ih
    refine ⟨?_, hp.finish hn adm st r⟩
    obtain ⟨hrising, hbelow⟩ := hn.map (f := fun c => if c.adm == adm then { c with phase := .finished st r _ } else c)
      fun c => by split <;> rfl
    exact ⟨hrising, hbelow⟩
  | drop p _ ih =>
    obtain ⟨⟨hrising, hbelow⟩, ⟨hapart, hplace⟩⟩ := ih
    exact ⟨⟨hrising.filter p, fun c hc => hbelow c (List.mem_filter.1 hc).1⟩,
      ⟨hapart.filter p, fun c hc => hplace c (List.mem_filter.1 hc).1⟩⟩
  | add c _ hadm hopen ih =>
    obtain ⟨⟨hrising, hbelow⟩, ⟨hapart, hplace⟩⟩ := ih
    have hnone := place_of_unfinished hopen
    refine ⟨⟨List.pairwise_append.2 ⟨hrising, List.pairwise_singleton .., fun a ha b hb => ?_⟩, fun d hd => ?_⟩,
      ⟨List.pairwise_append.2 ⟨hapart, List.pairwise_singleton .., fun a _ b hb => ?_⟩, fun d hd k hk => ?_⟩⟩
    · rw [List.mem_singleton.1 hb, hadm]
      exact hbelow a ha
    · rcases List.mem_append.1 hd with hd | hd
      · exact Nat.lt_succ_of_lt (hbelow d hd)
      · rw [List.mem_singleton.1 hd, hadm]
        exact Nat.lt_succ_self _
    · rw [List.mem_singleton.1 hb, hnone]
      rintro ⟨heq, hsome⟩
      rw [heq] at hsome
      cases hsome
    · rcases List.mem_append.1 hd with hd | hd
      · exact hplace d hd k hk
      · rw [List.mem_singleton.1 hd, hnone] at hk
        cases hk
  | reset =>
    exact ⟨⟨.nil, fun c hc => (List.not_mem_nil hc).elim⟩, ⟨.nil, fun c hc => (List.not_mem_nil hc).elim⟩⟩

/-- Settles O6: every step is made of operations on the slots that keep the numbering. -/
theorem stepKeepsCommandNumbering : Obligations.StepKeepsCommandNumbering := by
  unfold Obligations.StepKeepsCommandNumbering
  intro s t hs ht
  obtain ⟨hn, hp⟩ := (commandsNumbered_iff s).1 hs
  obtain ⟨wiped, h⟩ := SlotsFrom.step ht
  exact (commandsNumbered_iff t).2 (SlotSteps.numbered hn hp h)

end Sys2Proof
end

section
/-! Commands decoded from entries are well formed, whatever the bytes are (R142, R144). -/
namespace Sys2Proof
open Machine

/-! ### Fields -/

theorem leNat_lt (bs : List Byte) : leNat bs < 2 ^ (8 * bs.length) := by
  induction bs with
  | nil => exact Nat.one_pos
  | cons b bs ih =>
    have hb := b.isLt
    rw [leNat, List.length_cons, Nat.mul_succ, Nat.pow_add]
    omega

/-- A field of `n` bytes fits in as many bits, or more. -/
theorem fits_leAt (bs : List Byte) (off : Nat) {n w : Nat} (h : 8 * n ≤ w) : fits w (leAt bs off n) = true := by
  have hlen : (slice bs off n).length ≤ n := List.length_take_le ..
  exact decide_eq_true (Nat.lt_of_lt_of_le (leNat_lt _) (Nat.pow_le_pow_right Nat.two_pos (by omega)))

@[simp] theorem fits_leAt_1 (bs : List Byte) (off : Nat) : fits 8 (leAt bs off 1) = true := fits_leAt bs off (by decide)
@[simp] theorem fits_leAt_2 (bs : List Byte) (off : Nat) : fits 16 (leAt bs off 2) = true := fits_leAt bs off (by decide)
@[simp] theorem fits_leAt_4 (bs : List Byte) (off : Nat) : fits 32 (leAt bs off 4) = true := fits_leAt bs off (by decide)
@[simp] theorem fits_leAt_6 (bs : List Byte) (off : Nat) : fits 48 (leAt bs off 6) = true := fits_leAt bs off (by decide)
@[simp] theorem fits_leAt_8 (bs : List Byte) (off : Nat) : fits 64 (leAt bs off 8) = true := fits_leAt bs off (by decide)
@[simp] theorem fits_leAt_16 (bs : List Byte) (off : Nat) : fits 128 (leAt bs off 16) = true := fits_leAt bs off (by decide)
@[simp] theorem fits_byteAt (bs : List Byte) (off : Nat) : fits 8 (byteAt bs off) = true := fits_leAt_1 bs off

@[simp] theorem byteAt_lt (bs : List Byte) (off : Nat) : byteAt bs off < 256 := of_decide_eq_true (fits_byteAt bs off)

@[simp] theorem fits_bitsOf (v hi lo : Nat) : fits (hi - lo + 1) (bitsOf v hi lo) = true :=
  decide_eq_true (Nat.mod_lt _ (Nat.two_pow_pos _))

/-! ### Extended blocks -/

@[simp] theorem decodeMatmul_wf (k : List Byte) : (decodeMatmul k).wf = true := by
  have hop := fits_bitsOf (leAt k 0x50 4) 3 0
  have hres := fits_bitsOf (leAt k 0x50 4) 7 4
  have hrnd := fits_bitsOf (leAt k 0x50 4) 10 8
  simp [MatmulBlk.wf, decodeMatmul, hop, hres, hrnd]

@[simp] theorem decodePairs_fit (k : List Byte) (off : Nat) : pairsFit (decodePairs k off) = true := by
  simp [pairsFit, decodePairs]

@[simp] theorem decodeKernel_wf (k : List Byte) : (decodeKernel k).wf = true := by
  simp [KernelBlk.wf, decodeKernel]

@[simp] theorem decodeGather_wf (k : List Byte) : (decodeGather k).wf = true := by
  simp [GatherEntry.wf, decodeGather]

@[simp] theorem decodeGathers_wf (k : List Byte) : (decodeGathers k).all GatherEntry.wf = true := by
  simp [decodeGathers]

@[simp] theorem decodeColl_wf (e : List Byte) : (decodeColl e).wf = true := by
  simp [CollOps.wf, decodeColl]

@[simp] theorem decodeGroup_wf (k : List Byte) : (decodeGroup k).wf = true := by
  simp [GroupBlk.wf, decodeGroup]

@[simp] theorem decodeTrigger_wf (k : List Byte) : (decodeTrigger k).wf = true := by
  simp [TrigBlk.wf, decodeTrigger]

@[simp] theorem decodeJoin_wf (k : List Byte) : (decodeJoin k).wf = true := by
  simp [JoinBlk.wf, Peer.wf, decodeJoin]

@[simp] theorem decodeCut_wf (k : List Byte) : (decodeCut k).wf = true := by
  simp [CutBlk.wf, decodeCut]

/-! ### Commands -/

/-- The header of an entry of a queue that exists is well formed (Table 6.1). -/
theorem decodeHdr_wf {org : Origin} (h : org.wf = true) (adm : Nat) (e : List Byte) : (decodeHdr org adm e).wf = true := by
  have hprio : byteAt e 3 % 4 < 4 := Nat.mod_lt _ (by decide)
  have hwait : ∀ p : Prop, [Decidable p] → ∀ t : W32, (((if p then some (byteAt e 8, t) else none).map
      (fun w => decide (w.1 < 256))).getD true) = true := fun p _ t => by split <;> simp
  have hsignal : ∀ p : Prop, [Decidable p] → (((if p then some (byteAt e 9) else none).map
      (fun c => decide (c < 256))).getD true) = true := fun p _ => by split <;> simp
  unfold Hdr.wf decodeHdr
  simp only [h, hprio, hwait, hsignal, decide_true, Bool.and_true]

/-- Whatever the bytes of an entry and its block, the command that they spell is well formed. -/
theorem buildInstr_wf {code : Nat} {h : Hdr} {e k : List Byte} {i : Instr} (hi : buildInstr code h e k = some i)
    (hh : h.wf = true) : i.wf = true := by
  unfold buildInstr at hi
  -- one case for each opcode of the table
  split at hi <;> cases hi <;>
    simp [Instr.wf, QueueOps.wf, MemMapOps.wf, StatsOps.wf, ConvertOps.wf, RngOps.wf, CipherOps.wf, ShareOps.wf, hh]

/-- What passes admission is the command that its entry spells. -/
theorem admission_wf {s : State} {org : Origin} {h : Hdr} {e : List Byte} {i : Instr}
    (hi : s.admission org h e = .inr i) (hh : h.wf = true) : i.wf = true := by
  unfold State.admission at hi
  dsimp only at hi
  -- every check that fails answers a status
  repeat
    split at hi
    · cases hi
  rename_i hb _ _
  cases hi
  exact buildInstr_wf hb hh

end Sys2Proof
end

section
/-! Which commands admit: only ENTRY_FETCH and the urgent sample give slots to new commands (R154, R163). -/
namespace Sys2Proof
open Machine

namespace SlotsFrom
variable {s : State}

/-- A command other than the two that admit does no more to the slots than a step that admits nothing may. -/
theorem exec_or_admits (i : Instr) :
    NextFrom s.slotTable true (Machine.exec i s) ∨ (∃ path, i = .entryFetch path) ∨ i = .urgentDoorbellSample := by
  cases i with
  | nop => exact .inl execNop
  | identify => exact .inl execIdentify
  | getLog => exact .inl execGetLog
  | queueCreate => exact .inl execQueueCreate
  | queueDelete => exact .inl execQueueDelete
  | counterSet => exact .inl execCounterSet
  | memCopy => exact .inl execMemCopy
  | memFill => exact .inl execMemFill
  | memMap => exact .inl execMemMap
  | memPlace => exact .inl execMemPlace
  | kernelLaunch => exact .inl execKernelLaunch
  | matmul => exact .inl execMatmul
  | quantStats => exact .inl execQuantStats
  | convert => exact .inl execConvert
  | rngFill => exact .inl execRngFill
  | stepGather => exact .inl execStepGather
  | stepUpdate => exact .inl execStepUpdate
  | updateArm => exact .inl execUpdateArm
  | updateDisarm => exact .inl execUpdateDisarm
  | normClip => exact .inl execNormClip
  | shardMapLoad => exact .inl execShardMapLoad
  | collAllreduce => exact .inl execCollAllreduce
  | collAllgather => exact .inl execCollAllgather
  | collReduceScatter => exact .inl execCollReduceScatter
  | collBroadcast => exact .inl execCollBroadcast
  | collGroupCreate => exact .inl execCollGroupCreate
  | collGroupDestroy => exact .inl execCollGroupDestroy
  | triggerArm => exact .inl execTriggerArm
  | triggerDisarm => exact .inl execTriggerDisarm
  | scarfJoin => exact .inl execScarfJoin
  | scarfLeave => exact .inl execScarfLeave
  | scarfEpochClose => exact .inl execScarfEpochClose
  | scarfCancel => exact .inl execScarfCancel
  | scarfCatchup => exact .inl execScarfCatchup
  | ckptCut => exact .inl execCkptCut
  | ckptDrain => exact .inl execCkptDrain
  | ckptRelease => exact .inl execCkptRelease
  | ckptRestore => exact .inl execCkptRestore
  | ckptVerify => exact .inl execCkptVerify
  | exportStream => exact .inl execExportStream
  | txnBegin => exact .inl execTxnBegin
  | txnCommit => exact .inl execTxnCommit
  | txnRollback => exact .inl execTxnRollback
  | bindCluster => exact .inl execBindCluster
  | bindMemory => exact .inl execBindMemory
  | bindShares => exact .inl execBindShares
  | bayReset => exact .inl execBayReset
  | keyLoad => exact .inl execKeyLoad
  | keyErase => exact .inl execKeyErase
  | cipherRun => exact .inl execCipherRun
  | digestRun => exact .inl execDigestRun
  | entropyRead => exact .inl execEntropyRead
  | licenceInstall => exact .inl execLicenceInstall
  | telemetryRead => exact .inl execTelemetryRead
  | seasonReport => exact .inl execSeasonReport
  | floorplanRead => exact .inl execFloorplanRead
  | linkTest => exact .inl execLinkTest
  | haltBay => exact .inl execHaltBay
  | evictBay => exact .inl execEvictBay
  | resumeBay => exact .inl execResumeBay
  | tidyCvt => exact .inl (execTidyCvt .refl)
  | tidyWid => exact .inl (execTidyWid .refl)
  | tidyStat => exact .inl (execTidyStat .refl)
  | tidyRsc => exact .inl (execTidyRsc .refl)
  | tidyQblk => exact .inl (execTidyQblk .refl)
  | tidyDrop => exact .inl (execTidyDrop .refl)
  | tidyGth => exact .inl (execTidyGth .refl)
  | tidySct => exact .inl (execTidySct .refl)
  | grainGet => exact .inl (execGrainGet .refl)
  | tidyDma => exact .inl (execTidyDma .refl)
  | xtenonCsrWrite => exact .inl (execXtenonCsrWrite .refl)
  | kernelEcallExit => exact .inl (execKernelEcallExit .refl)
  | coreException => exact .inl (execCoreException .refl)
  | cycleLimit => exact .inl (execCycleLimit .refl)
  | dmaDescriptorDone => exact .inl (execDmaDescriptorDone .refl)
  | submissionDoorbell => exact .inl (execSubmissionDoorbell .refl)
  | completionDoorbell => exact .inl (execCompletionDoorbell .refl)
  | ctlSqTail => exact .inl (execCtlSqTail .refl)
  | ctlCqHead => exact .inl (execCtlCqHead .refl)
  | urgSqTail => exact .inl (execUrgSqTail .refl)
  | urgCqHead => exact .inl (execUrgCqHead .refl)
  | eventCounterWrite => exact .inl (execEventCounterWrite .refl)
  | intMaskWrite => exact .inl (execIntMaskWrite .refl)
  | eventMaskWrite => exact .inl (execEventMaskWrite .refl)
  | coreReset => exact .inl (execCoreReset .refl)
  | clusterReset => exact .inl (execClusterReset .refl)
  | deviceReset => exact .inl (execDeviceReset .refl)
  | powerDown => exact .inl (execPowerDown .refl)
  | controlPairEnable => exact .inl (execControlPairEnable .refl)
  | controlPairDisable => exact .inl (execControlPairDisable .refl)
  | adminPairEnable => exact .inl (execAdminPairEnable .refl)
  | adminPairDisable => exact .inl (execAdminPairDisable .refl)
  | urgentQueueEnable => exact .inl (execUrgentQueueEnable .refl)
  | urgentQueueDisable => exact .inl (execUrgentQueueDisable .refl)
  | registerWrite => exact .inl (execRegisterWrite .refl)
  | apertureRead => exact .inl (execApertureRead .refl)
  | apertureWrite => exact .inl (execApertureWrite .refl)
  | vfFunctionLevelReset => exact .inl (execVfFunctionLevelReset .refl)
  | pfFunctionLevelReset => exact .inl (execPfFunctionLevelReset .refl)
  | entryFetch p => exact .inr (.inl ⟨p, rfl⟩)
  | commandDispatch => exact .inl execCommandDispatch
  | completionPost => exact .inl (execCompletionPost .refl)
  | coalesceTimer => exact .inl (execCoalesceTimer .refl)
  | urgentDoorbellSample => exact .inr (.inr rfl)
  | triggerFire => exact .inl (execTriggerFire .refl)
  | pegDrainLimit => exact .inl (execPegDrainLimit .refl)
  | pegComplete => exact .inl (execPegComplete .refl)
  | bayHalted => exact .inl (execBayHalted .refl)
  | haltMemoryAbsorb => exact .inl (execHaltMemoryAbsorb .refl)
  | haltFlushLate => exact .inl (execHaltFlushLate .refl)
  | clusterResetAbsorb => exact .inl (execClusterResetAbsorb .refl)
  | updateSegmentArrival => exact .inl (execUpdateSegmentArrival .refl)
  | cutCopy => exact .inl (execCutCopy .refl)
  | predictiveCut => exact .inl (execPredictiveCut .refl)
  | evictBoundaryReached => exact .inl (execEvictBoundaryReached .refl)
  | evictTimeout => exact .inl (execEvictTimeout .refl)
  | epochClosePass => exact .inl (execEpochClosePass .refl)
  | bundleGrant => exact .inl (execBundleGrant .refl)
  | bundleLanding => exact .inl (execBundleLanding .refl)
  | fragment => exact .inl (execFragment .refl)
  | sack => exact .inl (execSack .refl)
  | admissionVector => exact .inl (execAdmissionVector .refl)
  | ledgerEntry => exact .inl (execLedgerEntry .refl)
  | digest => exact .inl (execDigest .refl)
  | catchupRequest => exact .inl (execCatchupRequest .refl)
  | catchupData => exact .inl (execCatchupData .refl)
  | controlAcknowledgement => exact .inl (execControlAcknowledgement .refl)
  | hello => exact .inl (execHello .refl)
  | joinHelloTimeout => exact .inl (execJoinHelloTimeout .refl)
  | ackTimer => exact .inl (execAckTimer .refl)
  | rtoExpiry => exact .inl (execRtoExpiry .refl)
  | peerUnreachable => exact .inl (execPeerUnreachable .refl)
  | portHoldTimeout => exact .inl (execPortHoldTimeout .refl)
  | admissionCut => exact .inl (execAdmissionCut .refl)
  | tallySlot => exact .inl (execTallySlot .refl)
  | ledgerFinal => exact .inl (execLedgerFinal .refl)
  | digestSettle => exact .inl (execDigestSettle .refl)
  | flitReceive => exact .inl (execFlitReceive .refl)
  | replayRequest => exact .inl (execReplayRequest .refl)
  | stompFlit => exact .inl (execStompFlit .refl)
  | packetRelay => exact .inl (execPacketRelay .refl)
  | fabricWrite => exact .inl (execFabricWrite .refl)
  | readRequest => exact .inl (execReadRequest .refl)
  | readResponse => exact .inl (execReadResponse .refl)
  | collectiveSegment => exact .inl (execCollectiveSegment .refl)
  | gatherSegment => exact .inl (execGatherSegment .refl)
  | counterAdd => exact .inl (execCounterAdd .refl)
  | groupControl => exact .inl (execGroupControl .refl)
  | groupAbort => exact .inl (execGroupAbort .refl)
  | collJoinTimeout => exact .inl (execCollJoinTimeout .refl)
  | collSilentTimeout => exact .inl (execCollSilentTimeout .refl)
  | laneLossOfLock => exact .inl (execLaneLossOfLock .refl)
  | portRetry => exact .inl (execPortRetry .refl)
  | seasoningSample => exact .inl (execSeasoningSample .refl)
  | cubeSubstitution => exact .inl (execCubeSubstitution .refl)
  | clusterRetirement => exact .inl (execClusterRetirement .refl)
  | coreRetirement => exact .inl (execCoreRetirement .refl)
  | bankRetirement => exact .inl (execBankRetirement .refl)
  | lineRecovery => exact .inl (execLineRecovery .refl)
  | historyWrite => exact .inl (execHistoryWrite .refl)
  | patrolScrub line => exact .inl (execPatrolScrub .refl (line := line))
  | dramRefresh => exact .inl (execDramRefresh .refl)
  | powerInRange => exact .inl (execPowerInRange .refl)
  | resetN => exact .inl (execResetN .refl)
  | pciePerstN => exact .inl (execPciePerstN .refl)
  | bootRomStage => exact .inl (execBootRomStage .refl)
  | imageSelection => exact .inl (execImageSelection .refl)
  | nvOverlay => exact .inl (execNvOverlay .refl)
  | dramTraining => exact .inl (execDramTraining .refl)
  | laneTraining => exact .inl (execLaneTraining .refl)
  | bist => exact .inl (execBist .refl)
  | gcrtBroadcast => exact .inl (execGcrtBroadcast .refl)
  | ready => exact .inl (execReady .refl)
  | pendingBankTimeout => exact .inl (execPendingBankTimeout .refl)
  | pldmFirmwareUpdate => exact .inl (execPldmFirmwareUpdate .refl)
  | inputFault => exact .inl (execInputFault .refl)
  | keyAlarm => exact .inl (execKeyAlarm .refl)
  | thermalTrip => exact .inl (execThermalTrip .refl)
  | jtagInstructionLoad => exact .inl (execJtagInstructionLoad .refl)
  | thermalSensorSample => exact .inl (execThermalSensorSample .refl)
  | protectionLevelExit => exact .inl (execProtectionLevelExit .refl)
  | dramThermalHold => exact .inl (execDramThermalHold .refl)
  | dramThermalRelease => exact .inl (execDramThermalRelease .refl)
  | pllLossOfLock => exact .inl (execPllLossOfLock .refl)
  | cxlLinkDown => exact .inl (execCxlLinkDown .refl)
  | sitePpsEdge => exact .inl (execSitePpsEdge .refl)
  | siteTodFrame => exact .inl (execSiteTodFrame .refl)
  | ppsHoldover => exact .inl (execPpsHoldover .refl)
  | licenceWindowEdge => exact .inl (execLicenceWindowEdge .refl)
  | trngOutput => exact .inl (execTrngOutput .refl)
  | trngHealthFailure => exact .inl (execTrngHealthFailure .refl)
  | trngStartupDone => exact .inl (execTrngStartupDone .refl)
  | catchupTimeout => exact .inl (execCatchupTimeout .refl)
  | alarmConditionCleared => exact .inl execAlarmConditionCleared
  | jtagTrstN => exact .inl (execJtagTrstN .refl)
  | farFilteredFrame => exact .inl (execFarFilteredFrame .refl)
  | managementPacket => exact .inl (execManagementPacket .refl)

end SlotsFrom

/-- A step that admits nothing leaves slots of commands that held one before. -/
theorem SlotSteps.exists_instr {T t : SlotTable} {wiped : Bool} (h : SlotSteps T wiped t) (hw : wiped = true) :
    ∀ d ∈ t.cmds, ∃ c ∈ T.cmds, d.instr = c.instr := by
  induction h with
  | refl => exact fun d hd => ⟨d, hd, rfl⟩
  | note f _ hf ih =>
    intro d hd
    obtain ⟨x, hx, rfl⟩ := List.mem_map.1 hd
    obtain ⟨c, hc, heq⟩ := ih hw x hx
    exact ⟨c, hc, (hf x).1.instr.trans heq⟩
  | proceed adm f _ _ hf ih =>
    intro d hd
    obtain ⟨x, hx, rfl⟩ := List.mem_map.1 hd
    obtain ⟨c, hc, heq⟩ := ih hw x hx
    refine ⟨c, hc, ?_⟩
    split
    · exact (hf x).1.instr.trans heq
    · exact heq
  | finish adm st r _ _ ih =>
    intro d hd
    obtain ⟨x, hx, rfl⟩ := List.mem_map.1 hd
    obtain ⟨c, hc, heq⟩ := ih hw x hx
    refine ⟨c, hc, ?_⟩
    split <;> exact heq
  | drop p _ ih => exact fun d hd => ih hw d (List.mem_filter.1 hd).1
  | add => cases hw
  | reset => exact fun d hd => (List.not_mem_nil hd).elim

/-! ### Well-formed commands -/

/-- Every command that holds a slot is well formed. -/
def SlotsWf (s : State) : Prop := ∀ c ∈ s.cmds, c.instr.wf = true

namespace SlotsWf
variable {s t : State}

/-- What admits nothing keeps the commands well formed. -/
theorem of_slots (h : SlotsWf s) (ht : SlotsFrom s.slotTable true t) : SlotsWf t := fun d hd => by
  obtain ⟨c, hc, heq⟩ := SlotSteps.exists_instr ht rfl d hd
  rw [heq]
  exact h c hc

/-- A state with the same slots. -/
theorem of_cmds (h : SlotsWf s) (ht : t.cmds = s.cmds := by rfl) : SlotsWf t := by
  unfold SlotsWf
  rw [ht]
  exact h

theorem addSlot {c : Slot} (h : SlotsWf s) (hc : c.instr.wf = true) : SlotsWf (s.addSlot c) := fun d hd => by
  rcases List.mem_append.1 hd with hd | hd
  · exact h d hd
  · rw [List.mem_singleton.1 hd]
    exact hc

/-- What the Joiner admits from an entry of a queue that exists is well formed, whatever bytes the entry holds. -/
theorem admitEntry {org : Origin} {e : List Byte} {ph : Phase} (h : SlotsWf s) (horg : org.wf = true) :
    SlotsWf (s.admitEntry org e ph) := by
  have hh := decodeHdr_wf horg s.nextAdm e
  unfold State.admitEntry
  dsimp only
  split
  · exact (h.addSlot (c := s.newSlot org _ (.nop _) .held 0) hh).of_slots (SlotsFrom.fail .refl)
  · rename_i i hi
    have hwf := admission_wf hi hh
    split
    · have hslots := ((s.dropReuse (orgBay org) i).noteLayout (orgBay org) i).takeIndex_slotTable (orgBay org) i
      rw [State.noteLayout_slotTable, State.dropReuse_slotTable] at hslots
      exact (h.of_slots (SlotsFrom.of_slotTable .refl hslots)).addSlot hwf
    · exact h.addSlot hwf

theorem fetchOne {b q : Nat} (h : SlotsWf s) (hb : b < 16) (hq : q < 8) : SlotsWf (s.fetchOne b q) := by
  refine admitEntry (h.of_slots (SlotsFrom.setSq (.ite .refl (SlotsFrom.useFree .refl)))) ?_
  simp [Origin.wf, hb, hq]

theorem fetchMany {n b q : Nat} (h : SlotsWf s) (hb : b < 16) (hq : q < 8) : SlotsWf (State.fetchMany n b q s) := by
  induction n generalizing s with
  | zero => exact h
  | succ n ih =>
    unfold State.fetchMany
    split
    · exact h
    · exact ih (h.fetchOne hb hq)

end SlotsWf

theorem lt_of_mem_roundFrom {n first k : Nat} (h : k ∈ roundFrom n first) : k < n := by
  obtain ⟨j, hj, rfl⟩ := List.mem_map.1 h
  exact Nat.mod_lt _ (Nat.lt_of_le_of_lt (Nat.zero_le j) (List.mem_range.1 hj))

/-- The round robin serves one of the eight queues of a bay (R154). -/
theorem nextQueue_lt {s : State} {b q : Nat} {r : Nat × Nat} (h : s.nextQueue b = some (q, r)) : q < 8 := by
  unfold State.nextQueue at h
  dsimp only at h
  split at h
  · cases h
  · rename_i k hfind
    have hk : k = q := by
      have hgrant : ∀ n, (if n ≤ 1 then (k, (k + 1) % 8, 0) else (k, k, n - 1)).1 = k := fun n => by split <;> rfl
      exact (hgrant _).symm.trans (congrArg Prod.fst (Option.some.inj h))
    exact hk ▸ lt_of_mem_roundFrom (List.mem_of_find?_eq_some hfind)

namespace SlotsWf
variable {s : State}

theorem fetchBays (h : SlotsWf s) : SlotsWf s.fetchBays := by
  unfold State.fetchBays
  split
  · exact h
  · rename_i b hb
    split
    · exact h
    · rename_i q r hq
      exact h.of_cmds.fetchMany (lt_of_mem_roundFrom (List.mem_of_find?_eq_some hb)) (nextQueue_lt hq)

theorem fetchControl {n : Nat} (h : SlotsWf s) : SlotsWf (State.fetchControl n s) := by
  induction n generalizing s with
  | zero => exact h
  | succ n ih =>
    unfold State.fetchControl
    split
    · exact h
    · exact ih (admitEntry (h.of_slots (.update (.ite .refl (SlotsFrom.useFree .refl)))) rfl)

theorem execEntryFetch (h : SlotsWf s) (path : FetchPath) :
    ∃ t, Machine.execEntryFetch path s = .next t ∧ SlotsWf t := by
  refine ⟨_, rfl, ?_⟩
  split
  · exact h
  · split
    · exact h.fetchBays
    · exact h.fetchControl

theorem decodeUrgent (h : SlotsWf s) : SlotsWf s.decodeUrgent := by
  unfold State.decodeUrgent
  extract_lets u e adm s1
  split
  · exact h
  · have hadmit : SlotsWf s1 := admitEntry h.of_cmds rfl
    split
    · split
      · split
        · exact (hadmit.of_slots (SlotsFrom.noteUrgent .refl)).of_cmds
        · exact hadmit.of_slots (SlotsFrom.noteUrgent .refl)
      · exact hadmit
    · exact hadmit

theorem execUrgentDoorbellSample (h : SlotsWf s) : ∃ t, Machine.execUrgentDoorbellSample s = .next t ∧ SlotsWf t := by
  refine ⟨_, rfl, ?_⟩
  split
  · exact h
  · exact h.of_cmds.decodeUrgent

/-- Whatever command runs, it leaves the commands that hold slots well formed. -/
theorem exec (h : SlotsWf s) {i : Instr} {t : State} (ht : Machine.exec i s = .next t) : SlotsWf t := by
  rcases SlotsFrom.exec_or_admits (s := s) i with hslots | ⟨path, rfl⟩ | rfl
  · exact h.of_slots (hslots t ht)
  · obtain ⟨u, hu, hwf⟩ := h.execEntryFetch path
    cases hu.symm.trans ht
    exact hwf
  · obtain ⟨u, hu, hwf⟩ := h.execUrgentDoorbellSample
    cases hu.symm.trans ht
    exact hwf

end SlotsWf

/-- Settles O58: what decoding makes of any bytes is well formed, and no other step makes a command. -/
theorem stepKeepsCommandsWellFormed : Obligations.StepKeepsCommandsWellFormed := by
  unfold Obligations.StepKeepsCommandsWellFormed
  intro s t h ht
  have hwf : SlotsWf s := h
  unfold step at ht
  split at ht
  · cases ht
    exact hwf.of_slots (.ite (SlotsFrom.idleFlits (SlotsFrom.tick .refl)) (SlotsFrom.tick .refl))
  · exact SlotsWf.exec hwf.of_cmds ht

end Sys2Proof
end

section
/-! Doorbells and the enabling and disabling of queue pairs (R152, R428, R433). -/
namespace Sys2Proof
open Machine

/-! ### Doorbells -/

/-- Among values of 16 bits a ring takes those below its size. -/
theorem indexOk_iff {v : W32} (hv : v.toNat < 65536) (log2 : Nat) : indexOk log2 v = true ↔ v.toNat < 2 ^ log2 := by
  simp [indexOk, hv]

theorem indexOk_eq_false {v : W32} {log2 : Nat} (h : 2 ^ log2 ≤ v.toNat) : indexOk log2 v = false := by
  simp [indexOk, h]

section
variable {s : State} {v : W32} (hv : v.toNat < 65536) {b q : Nat}
include hv

theorem ringSq_takes (hlive : (nth (s.bay b).sqs q).live = true) (hq : q < 8)
    (hlt : v.toNat < 2 ^ (nth (s.bay b).sqs q).log2) :
    s.ringSq b q v = s.setSq b q (fun x => { x with tail := v.toNat }) := by
  unfold State.ringSq
  simp [hlive, hq, (indexOk_iff hv _).2 hlt]

theorem ringCq_takes (hlive : (nth (s.bay b).cqs q).live = true) (hq : q < 8)
    (hlt : v.toNat < 2 ^ (nth (s.bay b).cqs q).log2) :
    s.ringCq b q v = s.setCq b q (fun x => { x with head := v.toNat }) := by
  unfold State.ringCq
  simp [hlive, hq, (indexOk_iff hv _).2 hlt]

theorem ringCtlSq_takes (hlive : s.ctl.live = true) (hlt : v.toNat < 2 ^ s.ctl.sq.log2) :
    s.ringCtlSq v = { s with ctl := { s.ctl with sq := { s.ctl.sq with tail := v.toNat } } } := by
  unfold State.ringCtlSq
  simp [hlive, (indexOk_iff hv _).2 hlt]

theorem ringCtlCq_takes (hlive : s.ctl.live = true) (hlt : v.toNat < 2 ^ s.ctl.cq.log2) :
    s.ringCtlCq v = { s with ctl := { s.ctl with cq := { s.ctl.cq with head := v.toNat } } } := by
  unfold State.ringCtlCq
  simp [hlive, (indexOk_iff hv _).2 hlt]

end

section
variable {s : State} {v : W32} {b q : Nat}

/-- What a ring does not take sets the error bit of its owner (R433). -/
theorem ringSq_drops
    (h : (nth (s.bay b).sqs q).live = false ∨ 8 ≤ q ∨ 2 ^ (nth (s.bay b).sqs q).log2 ≤ v.toNat) :
    s.ringSq b q v = s.bayDoorbellErr b := by
  unfold State.ringSq
  rcases h with h | h | h
  · simp [h]
  · simp [Nat.not_lt.2 h]
  · simp [indexOk_eq_false h]

theorem ringCq_drops
    (h : (nth (s.bay b).cqs q).live = false ∨ 8 ≤ q ∨ 2 ^ (nth (s.bay b).cqs q).log2 ≤ v.toNat) :
    s.ringCq b q v = s.bayDoorbellErr b := by
  unfold State.ringCq
  rcases h with h | h | h
  · simp [h]
  · simp [Nat.not_lt.2 h]
  · simp [indexOk_eq_false h]

theorem ringCtlSq_drops (h : s.ctl.live = false ∨ 2 ^ s.ctl.sq.log2 ≤ v.toNat) : s.ringCtlSq v = s.ctlDbErr := by
  unfold State.ringCtlSq
  rcases h with h | h
  · simp [h]
  · simp [indexOk_eq_false h]

theorem ringCtlCq_drops (h : s.ctl.live = false ∨ 2 ^ s.ctl.cq.log2 ≤ v.toNat) : s.ringCtlCq v = s.ctlDbErr := by
  unfold State.ringCtlCq
  rcases h with h | h
  · simp [h]
  · simp [indexOk_eq_false h]

theorem ringUrgSq_takes (h : v.toNat < 64) :
    s.ringUrgSq v = { s with urg := { s.urg with tailReg := v.toNat } } := by
  unfold State.ringUrgSq
  rw [if_pos h]

theorem ringUrgSq_drops (h : 64 ≤ v.toNat) : s.ringUrgSq v = { s with urg := { s.urg with dbErr := true } } := by
  unfold State.ringUrgSq
  rw [if_neg (Nat.not_lt.2 h)]

theorem ringUrgCq_takes (h : v.toNat < 4096) (hlt : v.toNat < 2 ^ s.urg.cqLog2.toNat) :
    s.ringUrgCq v = { s with urg := { s.urg with cqHead := v.toNat } } := by
  unfold State.ringUrgCq
  rw [if_pos ⟨h, hlt⟩]

theorem ringUrgCq_drops (h : 4096 ≤ v.toNat ∨ 2 ^ s.urg.cqLog2.toNat ≤ v.toNat) :
    s.ringUrgCq v = { s with urg := { s.urg with dbErr := true } } := by
  unfold State.ringUrgCq
  rw [if_neg (fun hlt => by omega)]

end

/-- With the host link up, a command of a host write is the write (R352). -/
theorem next_of_hostUp {s t : State} (h : s.hostUp = true) :
    Host.Outcome.next (φ := Fault) (ρ := Refusal) (if !s.hostUp then s else t) = .next t := by
  simp [h]

/-- Settles O30: a doorbell command is its ring's, which takes or drops the value. -/
theorem doorbellsTakeOrDrop : Obligations.DoorbellsTakeOrDrop := by
  unfold Obligations.DoorbellsTakeOrDrop
  intro s v ws hup hv
  refine ⟨fun b q => ⟨fun hlive hq hlt => ?_, fun h => ?_⟩, fun b q => ⟨fun hlive hq hlt => ?_, fun h => ?_⟩, ?_,
    fun hlive hlt => ?_, fun h => ?_, fun h => ?_, fun h => ?_, fun h hlt => ?_, fun h => ?_⟩
  · exact (next_of_hostUp hup).trans (congrArg _ (ringSq_takes hv hlive hq hlt))
  · exact (next_of_hostUp hup).trans (congrArg _ (ringSq_drops h))
  · exact (next_of_hostUp hup).trans (congrArg _ (ringCq_takes hv hlive hq hlt))
  · exact (next_of_hostUp hup).trans (congrArg _ (ringCq_drops h))
  · rintro t rfl
    exact ⟨fun hlive hlt => (next_of_hostUp hup).trans (congrArg _ (ringCtlSq_takes hv hlive hlt)),
      fun h => (next_of_hostUp hup).trans (congrArg _ (ringCtlSq_drops h))⟩
  · exact (next_of_hostUp hup).trans (congrArg _ (ringCtlCq_takes hv hlive hlt))
  · exact (next_of_hostUp hup).trans (congrArg _ (ringCtlCq_drops h))
  · exact (next_of_hostUp hup).trans (congrArg _ (ringUrgSq_takes h))
  · exact (next_of_hostUp hup).trans (congrArg _ (ringUrgSq_drops h))
  · exact (next_of_hostUp hup).trans (congrArg _ (ringUrgCq_takes h hlt))
  · exact (next_of_hostUp hup).trans (congrArg _ (ringUrgCq_drops h))

end Sys2Proof
end

section
/-! Queue pairs: the control pair, the admin pair of a bay and the urgent queue (R428). -/
namespace Sys2Proof
open Machine

/-! ### The words that are written -/

theorem coalTime_or_en (v : W32) : ((v ||| 1) >>> 16).setWidth 10 = (v >>> 16).setWidth 10 := by
  rw [BitVec.ushiftRight_or_distrib, BitVec.setWidth_or]
  exact BitVec.or_zero

theorem coalTime_and_not_en (v : W32) : ((v &&& ~~~1) >>> 16).setWidth 10 = (v >>> 16).setWidth 10 := by
  rw [BitVec.ushiftRight_and_distrib, BitVec.setWidth_and]
  exact BitVec.and_allOnes

theorem en_or_en (v : W32) : (v ||| 1).getLsbD 0 = true := by simp

theorem en_and_not_en (v : W32) : (v &&& ~~~1).getLsbD 0 = false := by simp

theorem cqLog2_or_urgEn (v : W32) : (v ||| 0x80000000).setWidth 4 = v.setWidth 4 := by
  rw [BitVec.setWidth_or]
  exact BitVec.or_zero

theorem cqLog2_and_not_urgEn (v : W32) : (v &&& 0x7FFFFFFF).setWidth 4 = v.setWidth 4 := by
  rw [BitVec.setWidth_and]
  exact BitVec.and_allOnes

theorem vector_or_urgEn (v : W32) : ((v ||| 0x80000000) >>> 16).setWidth 7 = (v >>> 16).setWidth 7 := by
  rw [BitVec.ushiftRight_or_distrib, BitVec.setWidth_or]
  exact BitVec.or_zero

theorem urgEn_or_urgEn (v : W32) : (v ||| 0x80000000).getLsbD 31 = true := by simp

theorem urgEn_and_not_urgEn (v : W32) : (v &&& 0x7FFFFFFF).getLsbD 31 = false := by simp

/-! ### The control pair -/

/-- The control pair after a write of its word that changes neither EN nor COAL_TIME. -/
def ctlWritten (s : State) (w : W32) : State :=
  { s with ctl := { s.ctl with err := s.ctl.err && !w.getLsbD 2, dbErr := s.ctl.dbErr && !w.getLsbD 3 } }

section
variable {s : State} {w : W32} (hcoal : (w >>> 16).setWidth 10 = s.ctl.coalTime)
include hcoal

theorem writeCtlWord_enable (h1 : w.getLsbD 0 = true) (hen : s.ctl.en = false) :
    s.writeCtlWord w = (ctlWritten s w).enableControl := by
  unfold State.writeCtlWord ctlWritten
  simp only [hen, hcoal, h1, if_true, Bool.false_eq_true, false_and, if_false]

theorem writeCtlWord_disable (h0 : w.getLsbD 0 = false) (hen : s.ctl.en = true) :
    s.writeCtlWord w =
      ({ ctlWritten s w with ctl := { (ctlWritten s w).ctl with en := false } } : State).settleControl := by
  unfold State.writeCtlWord ctlWritten
  simp only [hen, hcoal, h0, if_true, ne_eq, not_true, and_false, Bool.false_eq_true, if_false]

end

/-- EN = 1 with legal bases and sizes makes the pair live, its rings empty. -/
theorem enableControl_legal {s : State} (hlive : s.ctl.live = false) (hok : s.ctl.pairOk = true) :
    s.enableControl = { s with ctl := { s.ctl with
      en := true
      live := true
      sq := ⟨true, s.ctl.sqBase.toNat, s.ctl.sqLog2.toNat, 0, 16, 0, 0, none⟩
      cq := ⟨true, s.ctl.cqBase.toNat, s.ctl.cqLog2.toNat, s.ctl.cqVector.toNat, s.ctl.coalCount.toNat,
        s.ctl.coalTime.toNat, 0, 0, true, 0, none⟩ } } := by
  unfold State.enableControl
  rw [if_neg (by simp [hlive, hok])]

/-- EN = 1 on a live pair, or with an illegal one, sets ERR. -/
theorem enableControl_refused {s : State} (h : s.ctl.live = true ∨ s.ctl.pairOk = false) :
    s.enableControl = { s with ctl := { s.ctl with err := true } } := by
  unfold State.enableControl
  rw [if_pos (by simpa using h)]

/-- LIVE of a control pair with EN clear stays while a control command is left (R428). -/
theorem live_settleControl {s : State} (hen : s.ctl.en = false) :
    s.settleControl.ctl.live = (s.ctl.live && s.cmds.any (fun c => c.hdr.org == .control)) := by
  unfold State.settleControl
  cases hlive : s.ctl.live <;> cases hany : s.cmds.any (fun c => c.hdr.org == .control) <;> simp [hen, hlive]

theorem en_settleControl (s : State) : s.settleControl.ctl.en = s.ctl.en := by
  unfold State.settleControl
  split <;> rfl

/-! ### The admin pair of a bay -/

/-- The registers of a bay after a write of the admin pair's word that changes neither EN nor COAL_TIME. -/
def adminWritten (w : W32) (r : BayRegs) : BayRegs := { r with aqErr := r.aqErr && !w.getLsbD 2 }

theorem setBay_congr {s : State} {b : Nat} {f g : Bay → Bay} (h : f (s.bay b) = g (s.bay b)) :
    s.setBay b f = s.setBay b g := by
  unfold State.setBay updNth
  congr 1
  refine List.ext_getElem (by simp) fun i hi _ => ?_
  by_cases hib : b = i
  · subst hib
    have hlt : b < s.bays.length := by simpa using hi
    have hbay : s.bay b = s.bays[b] := by
      unfold State.bay nth
      exact List.getD_eq_getElem _ _ hlt
    rw [hbay] at h
    simpa using h
  · simp [hib]

section
variable {s : State} {b : Nat} {w : W32} (hcoal : (w >>> 16).setWidth 10 = (s.bay b).regs.acqCoalTime)
include hcoal

theorem setRegs_adminWritten :
    s.setRegs b (fun r => { r with aqErr := r.aqErr && !w.getLsbD 2, acqCoalTime := (w >>> 16).setWidth 10 }) =
      s.setRegs b (adminWritten w) :=
  setBay_congr (by rw [hcoal]; rfl)

theorem writeAdminWord_enable (h1 : w.getLsbD 0 = true) (hen : (s.bay b).regs.en = false) :
    s.writeAdminWord b w = (s.setRegs b (adminWritten w)).enableAdmin b := by
  unfold State.writeAdminWord
  dsimp only
  rw [setRegs_adminWritten hcoal]
  simp only [hen, h1, if_true, Bool.false_eq_true, false_and, if_false]

theorem writeAdminWord_disable (h0 : w.getLsbD 0 = false) (hen : (s.bay b).regs.en = true) :
    s.writeAdminWord b w =
      if ((s.setRegs b (adminWritten w)).bay b).adminReports then
        (s.setRegs b (adminWritten w)).setRegs b (fun r => { r with aqErr := true })
      else ((s.setRegs b (adminWritten w)).setRegs b (fun r => { r with en := false })).settleAdmin b := by
  unfold State.writeAdminWord
  dsimp only
  rw [setRegs_adminWritten hcoal]
  simp only [hen, hcoal, h0, if_true, ne_eq, not_true, and_false, Bool.false_eq_true, if_false]

end

theorem bay_setRegs (s : State) {b : Nat} (f : BayRegs → BayRegs) (hb : b < s.bays.length) :
    (s.setRegs b f).bay b = { s.bay b with regs := f (s.bay b).regs } := State.bay_setBay_self s b _ hb

theorem length_setRegs (s : State) (b : Nat) (f : BayRegs → BayRegs) : (s.setRegs b f).bays.length = s.bays.length :=
  State.setBay_length ..

/-- What the admin pair's checks look at is no part of its word. -/
theorem adminOk_adminWritten {s : State} {b : Nat} (w : W32) (hb : b < s.bays.length) :
    (s.setRegs b (adminWritten w)).adminOk b = s.adminOk b := by
  have halike : WritesAlike s (s.setRegs b (adminWritten w)) b := (WritesAlike.refl s b).setBay fun _ => ⟨rfl, rfl, rfl⟩
  have hrange := halike.rangeOk .wr
  unfold State.adminOk State.ringOk
  rw [bay_setRegs s _ hb]
  simp only [hrange]
  rfl

/-- EN = 1 with legal bases and sizes makes the pair live, its rings empty. -/
theorem bay_enableAdmin {s : State} {b : Nat} (hb : b < s.bays.length) (hlive : (s.bay b).regs.live = false)
    (hok : s.adminOk b = true) :
    (s.enableAdmin b).bay b = { s.bay b with
      regs := { (s.bay b).regs with en := true, live := true }
      sqs := updNth (s.bay b).sqs 0 (fun _ =>
        ⟨true, (s.bay b).regs.asqBase.toNat, (s.bay b).regs.asqLog2.toNat, 0, 16, 0, 0, none⟩)
      cqs := updNth (s.bay b).cqs 0 (fun _ =>
        ⟨true, (s.bay b).regs.acqBase.toNat, (s.bay b).regs.acqLog2.toNat, (s.bay b).regs.acqVector.toNat,
          (s.bay b).regs.acqCoalCount.toNat, (s.bay b).regs.acqCoalTime.toNat, 0, 0, true, 0, none⟩) } := by
  unfold State.enableAdmin
  dsimp only
  rw [if_neg (by simp [hlive, hok])]
  unfold State.setCq State.setSq
  rw [State.bay_setBay_self _ _ _ (by simpa [length_setRegs] using hb),
    State.bay_setBay_self _ _ _ (by simpa [length_setRegs] using hb), bay_setRegs _ _ hb]

theorem enableAdmin_refused {s : State} {b : Nat} (h : (s.bay b).regs.live = true ∨ s.adminOk b = false) :
    s.enableAdmin b = s.setRegs b (fun r => { r with aqErr := true }) := by
  unfold State.enableAdmin
  dsimp only
  rw [if_pos (by simpa using h)]

/-- LIVE of an admin pair with EN clear stays while a command of its queue is left (R428). -/
theorem regs_settleAdmin {s : State} {b : Nat} (hb : b < s.bays.length) (hen : (s.bay b).regs.en = false) :
    ((s.settleAdmin b).bay b).regs =
      { (s.bay b).regs with live := (s.bay b).regs.live && !s.queueEmpty b 0 } := by
  unfold State.settleAdmin
  dsimp only
  split
  · rename_i h
    obtain ⟨hlive, -, hempty⟩ := h
    rw [State.bay_setBay_self _ _ _ hb, hempty]
    simp
  · rename_i h
    have hlive : ((s.bay b).regs.live && !s.queueEmpty b 0) = (s.bay b).regs.live := by
      cases hl : (s.bay b).regs.live
      · rfl
      · simpa [hl, hen] using h
    rw [hlive]

/-- A change of one bay leaves the others. -/
theorem OtherBays.setBay {s t : State} {b : Nat} (h : OtherBays s t b) (f : Bay → Bay) : OtherBays s (t.setBay b f) b :=
  fun b' hne => (State.bay_setBay_other t b b' f hne).trans (h b' hne)

theorem OtherBays.enableAdmin {s t : State} {b : Nat} (h : OtherBays s t b) : OtherBays s (t.enableAdmin b) b := by
  unfold State.enableAdmin
  dsimp only
  split
  · exact h.setBay _
  · exact ((h.setBay _).setBay _).setBay _

theorem OtherBays.settleAdmin {s t : State} {b : Nat} (h : OtherBays s t b) : OtherBays s (t.settleAdmin b) b := by
  unfold State.settleAdmin
  dsimp only
  split
  · exact h.setBay _
  · exact h

/-- A bay of the device is counted as every bay is. -/
theorem PartsCounted.bayCounted {s : State} (h : PartsCounted s) {b : Nat} (hb : b < 16) : BayCounted (s.bay b) := by
  obtain ⟨hcount, hbays, -⟩ := h
  have hlt : b < s.bays.length := hcount ▸ hb
  refine hbays _ ?_
  unfold State.bay nth
  rw [List.getD_eq_getElem _ _ hlt]
  exact List.getElem_mem hlt

section
variable {s : State} {v : W32} {b : Nat} (hup : s.hostUp = true)
  (hcoal : (v >>> 16).setWidth 10 = (s.bay b).regs.acqCoalTime)
include hup hcoal

/-- EN = 1 on an admin pair that is not enabled. -/
theorem exec_adminPairEnable (hen : (s.bay b).regs.en = false) :
    exec (.adminPairEnable b v) s = .next ((s.setRegs b (adminWritten (v ||| 1))).enableAdmin b) :=
  (next_of_hostUp hup).trans (congrArg _
    (writeAdminWord_enable ((coalTime_or_en v).trans hcoal) (en_or_en v) hen))

/-- EN = 0 on an admin pair that is enabled. -/
theorem exec_adminPairDisable (hb : b < s.bays.length) (hen : (s.bay b).regs.en = true) :
    exec (.adminPairDisable b v) s = .next (if (s.bay b).adminReports then
        (s.setRegs b (adminWritten (v &&& ~~~1))).setRegs b (fun r => { r with aqErr := true })
      else ((s.setRegs b (adminWritten (v &&& ~~~1))).setRegs b (fun r => { r with en := false })).settleAdmin b) := by
  refine (next_of_hostUp hup).trans (congrArg _ ?_)
  rw [writeAdminWord_disable ((coalTime_and_not_en v).trans hcoal) (en_and_not_en v) hen, bay_setRegs _ _ hb]
  rfl

end

/-! ### The urgent queue -/

section
variable {s : State} {v : W32} (hup : s.hostUp = true)
include hup

theorem urgentQueue_enabled (hen : s.urg.en = false) (hopen : s.urgOpen = false) (hbase : s.urg.cqBase.toNat % 4096 = 0)
    (hlo : 6 ≤ v.toNat % 16) (hhi : v.toNat % 16 ≤ 12) :
    exec (.urgentQueueEnable v) s = .next { s with urg := { s.urg with
      cqLog2 := v.setWidth 4
      vector := (v >>> 16).setWidth 7
      dbErr := s.urg.dbErr && !(v ||| 0x80000000).getLsbD 29
      en := true
      cqTail := 0
      cqHead := 0
      phase := true } } := by
  have hsize : (v.setWidth 4).toNat = v.toNat % 16 := BitVec.toNat_setWidth ..
  refine (next_of_hostUp hup).trans (congrArg _ ?_)
  unfold State.writeUrgWord
  simp only [cqLog2_or_urgEn, vector_or_urgEn, urgEn_or_urgEn, hen, hopen, hbase, hsize, Nat.not_lt.2 hlo, Nat.not_lt.2 hhi,
    Bool.or_self, Bool.and_false, Bool.not_false, Bool.and_self, bne_self_eq_false, decide_false, Bool.false_eq_true,
    or_self, if_true, if_false]

theorem urgentQueue_disabled (hsize : v.setWidth 4 = s.urg.cqLog2) :
    exec (.urgentQueueDisable v) s = .next { s with urg := { s.urg with
      vector := ((v &&& 0x7FFFFFFF) >>> 16).setWidth 7
      dbErr := s.urg.dbErr && !(v &&& 0x7FFFFFFF).getLsbD 29
      en := false } } := by
  refine (next_of_hostUp hup).trans (congrArg _ ?_)
  unfold State.writeUrgWord
  simp only [cqLog2_and_not_urgEn, urgEn_and_not_urgEn, hsize, ne_eq, not_true, decide_false, Bool.false_and,
    Bool.false_eq_true, or_self, if_false]

end

/-- Settles O32: each write that enables or disables a pair, by the states of its pair. -/
theorem queuePairsEnableAndDisable : Obligations.QueuePairsEnableAndDisable := by
  unfold Obligations.QueuePairsEnableAndDisable
  intro s v hparts hup
  refine ⟨fun hcoal => ⟨fun hen hlive hok => ?_, fun hen hbad => ?_, fun hen => ?_⟩, fun b hb hcoal => ?_,
    fun hen hopen hbase hlo hhi => ?_, fun hsize => ?_⟩
  · refine ⟨_, (next_of_hostUp hup).trans (congrArg _
      (writeCtlWord_enable ((coalTime_or_en v).trans hcoal) (en_or_en v) hen)), ?_⟩
    rw [enableControl_legal (s := ctlWritten s _) hlive hok]
    exact ⟨rfl, rfl, rfl, rfl, rfl⟩
  · refine ⟨_, (next_of_hostUp hup).trans (congrArg _
      (writeCtlWord_enable ((coalTime_or_en v).trans hcoal) (en_or_en v) hen)), ?_⟩
    rw [enableControl_refused (s := ctlWritten s _) hbad]
    exact ⟨hen, rfl, rfl, rfl⟩
  · refine ⟨_, (next_of_hostUp hup).trans (congrArg _
      (writeCtlWord_disable ((coalTime_and_not_en v).trans hcoal) (en_and_not_en v) hen)), en_settleControl _,
      live_settleControl rfl, ?_⟩
    rw [State.settleControl_frame]
    rfl
  · have hlen : b < s.bays.length := by rw [hparts.1]; exact hb
    have hlen' : ∀ w, b < (s.setRegs b (adminWritten w)).bays.length := fun w => by rwa [length_setRegs]
    obtain ⟨hsqs, hcqs, -⟩ := hparts.bayCounted hb
    refine ⟨fun hen hlive hok => ?_, fun hen hbad => ?_, fun hen hrep => ?_, fun hen hrep => ?_⟩
    · refine ⟨_, exec_adminPairEnable hup hcoal hen, ?_⟩
      rw [bay_enableAdmin (hlen' _) (by rw [bay_setRegs _ _ hlen]; exact hlive)
        ((adminOk_adminWritten _ hlen).trans hok), bay_setRegs _ _ hlen]
      exact ⟨rfl, rfl, nth_updNth_self _ _ (by rw [hsqs]; decide), nth_updNth_self _ _ (by rw [hcqs]; decide),
        OtherBays.enableAdmin (OtherBays.setBay (fun _ _ => rfl) _)⟩
    · refine ⟨_, exec_adminPairEnable hup hcoal hen, ?_⟩
      rw [enableAdmin_refused (by rwa [adminOk_adminWritten _ hlen, bay_setRegs _ _ hlen]), bay_setRegs _ _ (hlen' _),
        bay_setRegs _ _ hlen]
      exact ⟨hen, rfl, rfl, OtherBays.setBay (OtherBays.setBay (fun _ _ => rfl) _) _⟩
    · refine ⟨_, exec_adminPairDisable hup hcoal hlen hen, ?_⟩
      rw [if_pos hrep, bay_setRegs _ _ (hlen' _), bay_setRegs _ _ hlen]
      exact ⟨hen, rfl, rfl, OtherBays.setBay (OtherBays.setBay (fun _ _ => rfl) _) _⟩
    · refine ⟨_, exec_adminPairDisable hup hcoal hlen hen, ?_⟩
      have hbay := bay_setRegs (s.setRegs b (adminWritten (v &&& ~~~1))) (fun r => { r with en := false }) (hlen' _)
      rw [if_neg (by simp [hrep]), regs_settleAdmin (by rw [length_setRegs]; exact hlen' _) (by rw [hbay]), hbay,
        bay_setRegs _ _ hlen]
      exact ⟨rfl, rfl, OtherBays.settleAdmin (OtherBays.setBay (OtherBays.setBay (fun _ _ => rfl) _) _)⟩
  · exact ⟨_, urgentQueue_enabled hup hen hopen hbase hlo hhi, rfl, rfl, rfl, rfl, rfl, rfl, rfl, rfl⟩
  · exact ⟨_, urgentQueue_disabled hup hsize, rfl, rfl, rfl, rfl, rfl, rfl⟩

end Sys2Proof
end

section
/-! What the end of a command leaves of its slot and of the rings of its bay (R148, R157, R161, R428). -/
namespace Sys2Proof
open Machine

/-! ### The slot of a command that ends -/

/-- A change of slots that keeps their numbers changes the slot that is found. -/
theorem find?_map_adm (l : List Slot) {g : Slot → Slot} (hg : ∀ c, (g c).adm = c.adm) (adm : Nat) :
    (l.map g).find? (·.adm == adm) = (l.find? (·.adm == adm)).map g := by
  rw [List.find?_map]
  congr 2
  funext c
  exact congrArg (· == adm) (hg c)

/-- The tests of R162 take no more than an ERR sample of a slot. -/
theorem slot?_recheck_sample {s : State} {adm : Nat} {c : Slot} (h : s.slot? adm = some c) (b k : Nat) :
    ∃ e, (s.recheck b k).slot? adm = some { c with errSample := e } := by
  unfold State.slot? State.recheck at *
  dsimp only [State.setBay]
  rw [find?_map_adm, h, Option.map_some]
  · split
    · split
      · split
        · exact ⟨_, rfl⟩
        · exact ⟨c.errSample, rfl⟩
      · exact ⟨c.errSample, rfl⟩
    · exact ⟨c.errSample, rfl⟩
  · intro x
    split
    · split
      · split <;> rfl
      · rfl
    · rfl

/-- A command that has not finished, held or not, is finished by `markFinished`. -/
theorem slot?_markFinished_sample {s : State} {c : Slot} (h : s.slot? c.adm = some c) (hf : c.finished? = false)
    (st : Status) (r : W64) :
    ∃ e k, (s.markFinished c.adm st r).slot? c.adm = some { c with errSample := e, phase := .finished st r k } := by
  have key : ∀ (u : State) e, u.slot? c.adm = some { c with errSample := e } →
      ({ u.setSlot c.adm (fun c => { c with phase := .finished st r u.nextFin }) with nextFin := u.nextFin + 1 } :
        State).slot? c.adm = some { c with errSample := e, phase := .finished st r u.nextFin } := fun u e hu => by
    have hset := u.slot?_setSlot c.adm (fun c => { c with phase := .finished st r u.nextFin }) (fun _ => rfl)
    rw [hu] at hset
    exact hset
  unfold State.markFinished
  rw [h]
  simp only [hf, Bool.false_eq_true, if_false]
  split
  · rename_i b k _ _
    obtain ⟨e, he⟩ := slot?_recheck_sample (s := s.setBay b _) h b k
    exact ⟨e, _, key _ e he⟩
  · exact ⟨c.errSample, _, key _ c.errSample h⟩

/-- A command that ends has its entry waiting, or its slot is free when nothing is posted (R148). -/
theorem slot?_dropIfSilent_markFinished {s : State} {c : Slot} (h : s.slot? c.adm = some c) (hf : c.finished? = false)
    (st : Status) (r : W64) :
    ∃ e k, ((s.markFinished c.adm st r).dropIfSilent c.adm).slot? c.adm =
      if silent c st then none else some { c with errSample := e, phase := .finished st r k } := by
  obtain ⟨e, k, hslot⟩ := slot?_markFinished_sample h hf st r
  have hposts : ({ c with errSample := e, phase := .finished st r k } : Slot).postsNothing = silent c st := rfl
  refine ⟨e, k, ?_⟩
  unfold State.dropIfSilent
  rw [hslot]
  simp only [hposts]
  split
  · exact State.slot?_dropSlot ..
  · exact hslot

/-- The same with what follows in its queue, which waits for the slot. -/
theorem slot?_finishNat {s : State} {c : Slot} (h : s.slot? c.adm = some c) (hf : c.finished? = false) (st : Status)
    (r : Nat) :
    ∃ e k, (s.finishNat c.adm st r).slot? c.adm =
      if silent c (postedStatus c st) then none
      else some { c with errSample := e, phase := .finished (postedStatus c st) (BitVec.ofNat 64 r) k } := by
  obtain ⟨e, k, hslot⟩ := slot?_dropIfSilent_markFinished h hf (postedStatus c st) (BitVec.ofNat 64 r)
  refine ⟨e, k, ?_⟩
  unfold State.finishNat State.finish
  rw [h]
  change (((s.markFinished c.adm (postedStatus c st) _).dropIfSilent c.adm).settle c.hdr.org).slot? c.adm = _
  split
  · rename_i hs
    rw [if_pos hs] at hslot
    exact State.slot?_none_settle _ _ _ hslot
  · rename_i hs
    rw [if_neg hs] at hslot
    exact State.slot?_settle _ _ _ hslot

theorem ended_of_slot {t : State} {c : Slot} {st : Status} {r : Nat} {e : Option Bool} {k : Nat} {d : Slot}
    (hd : d.quiet = c.quiet ∧ d.instr = c.instr)
    (h : t.slot? c.adm = if silent d (postedStatus c st) then none
      else some { d with errSample := e, phase := .finished (postedStatus c st) (BitVec.ofNat 64 r) k }) :
    Ended t c st r := by
  have hsilent : silent d (postedStatus c st) = silent c (postedStatus c st) := by
    unfold silent Slot.hdr
    rw [hd.1, hd.2]
  rw [hsilent] at h
  unfold Ended
  split
  · rename_i hs
    rwa [if_pos hs] at h
  · rename_i hs
    rw [if_neg hs] at h
    unfold outcome
    rw [h]

/-- A command that has not finished ends, held or not. -/
theorem ended_finishNat {s : State} {c : Slot} (h : s.slot? c.adm = some c) (hf : c.finished? = false) (st : Status)
    (r : Nat) : Ended (s.finishNat c.adm st r) c st r := by
  obtain ⟨e, k, hslot⟩ := slot?_finishNat h hf st r
  exact ended_of_slot ⟨rfl, rfl⟩ hslot

/-! ### Rings and registers of bays -/

/-- Every bay keeps its rings and its registers. -/
def RingsKept (s t : State) : Prop :=
  ∀ b, (t.bay b).sqs = (s.bay b).sqs ∧ (t.bay b).cqs = (s.bay b).cqs ∧ (t.bay b).regs = (s.bay b).regs

namespace RingsKept
variable {s t : State}

theorem refl (s : State) : RingsKept s s := fun _ => ⟨rfl, rfl, rfl⟩

theorem of_bays (h : RingsKept s t) {u : State} (hu : u.bays = t.bays := by rfl) : RingsKept s u := fun b => by
  have hbay : u.bay b = t.bay b := by unfold State.bay; rw [hu]
  rw [hbay]
  exact h b

theorem setBay (h : RingsKept s t) {b : Nat} {f : Bay → Bay}
    (hf : ∀ y, (f y).sqs = y.sqs ∧ (f y).cqs = y.cqs ∧ (f y).regs = y.regs := by exact fun _ => ⟨rfl, rfl, rfl⟩) :
    RingsKept s (t.setBay b f) := fun b' => by
  obtain ⟨hsqs, hcqs, hregs⟩ := h b'
  exact ⟨(bay_setBay_kept Bay.sqs (fun y => (hf y).1) t b b').trans hsqs,
    (bay_setBay_kept Bay.cqs (fun y => (hf y).2.1) t b b').trans hcqs,
    (bay_setBay_kept Bay.regs (fun y => (hf y).2.2) t b b').trans hregs⟩

theorem recheck (h : RingsKept s t) {b k : Nat} : RingsKept s (t.recheck b k) :=
  setBay (t := { t with cmds := (t.recheck b k).cmds }) h

theorem bump (h : RingsKept s t) {b k n : Nat} {err : Bool} : RingsKept s (t.bump b k n err) :=
  h.setBay.recheck

theorem markFinished (h : RingsKept s t) {adm : Nat} {st : Status} {r : W64} : RingsKept s (t.markFinished adm st r) := by
  unfold State.markFinished
  split
  · exact h
  · split
    · exact h
    · dsimp only
      split
      · exact of_bays h.bump
      · exact of_bays h

theorem ended (s : State) (adm : Nat) (st : Status) (r : W64) :
    RingsKept s ((s.markFinished adm st r).dropIfSilent adm) :=
  of_bays (refl s).markFinished (by rw [State.dropIfSilent_frame])

end RingsKept

/-- What goes on in a queue after a slot's release leaves the completion rings and registers of the bays as they are. -/
theorem settleQueue_kept (s : State) (b q b' : Nat) :
    ((s.settleQueue b q).bay b').cqs = (s.bay b').cqs ∧ ((s.settleQueue b q).bay b').regs = (s.bay b').regs := by
  unfold State.settleQueue
  split
  · rename_i d _
    split
    · obtain ⟨-, hcqs, hregs⟩ := RingsKept.ended (s.setSq b q fun _ => SubQ.none_) d .ok 0 b'
      exact ⟨hcqs.trans (bay_setBay_kept Bay.cqs (fun _ => by rfl) s b b'),
        hregs.trans (bay_setBay_kept Bay.regs (fun _ => by rfl) s b b')⟩
    · exact ⟨rfl, rfl⟩
  · exact ⟨rfl, rfl⟩

/-- A submission queue that no QUEUE_DELETE waits for stays (R157). -/
theorem sq_settleQueue {s : State} {b' k : Nat} (h : (nth (s.bay b').sqs k).deleting = none) (b q : Nat) :
    nth ((s.settleQueue b q).bay b').sqs k = nth (s.bay b').sqs k := by
  unfold State.settleQueue
  split
  · rename_i d hd
    split
    · obtain ⟨hsqs, -⟩ := RingsKept.ended (s.setSq b q fun _ => SubQ.none_) d .ok 0 b'
      refine (congrArg (nth · k) hsqs).trans ?_
      rcases State.bay_setBay s b b' (fun y => { y with sqs := updNth y.sqs q fun _ => SubQ.none_ }) with ⟨hb, rfl⟩ | hb
      · have hk : k ≠ q := by
          rintro rfl
          rw [h] at hd
          cases hd
        unfold State.setSq
        rw [hb]
        exact nth_updNth_other _ _ hk
      · unfold State.setSq
        rw [hb]
    · rfl
  · rfl

/-- An admin pair that goes leaves the other queues. -/
theorem rings_settleAdmin (s : State) (b b' : Nat) {k : Nat} (hk : k ≠ 0) :
    nth ((s.settleAdmin b).bay b').sqs k = nth (s.bay b').sqs k ∧
      nth ((s.settleAdmin b).bay b').cqs k = nth (s.bay b').cqs k := by
  unfold State.settleAdmin
  dsimp only
  split
  · exact ⟨bay_setBay_kept (fun y => nth y.sqs k) (fun _ => nth_updNth_other _ _ hk) s b b',
      bay_setBay_kept (fun y => nth y.cqs k) (fun _ => nth_updNth_other _ _ hk) s b b'⟩
  · exact ⟨rfl, rfl⟩

section
variable {s : State} {b k : Nat} (hk : k ≠ 0)
include hk

theorem cq_settle (o : Origin) : nth ((s.settle o).bay b).cqs k = nth (s.bay b).cqs k := by
  cases o with
  | bay b' q => exact (rings_settleAdmin _ b' b hk).2.trans (congrArg (nth · k) (settleQueue_kept s b' q b).1)
  | control =>
    show nth (s.settleControl.bay b).cqs k = _
    rw [State.settleControl_frame]
    rfl
  | urgent => rfl

theorem sq_settle (h : (nth (s.bay b).sqs k).deleting = none) (o : Origin) :
    nth ((s.settle o).bay b).sqs k = nth (s.bay b).sqs k := by
  cases o with
  | bay b' q => exact (rings_settleAdmin _ b' b hk).1.trans (sq_settleQueue h b' q)
  | control =>
    show nth (s.settleControl.bay b).sqs k = _
    rw [State.settleControl_frame]
    rfl
  | urgent => rfl

/-- The end of a command leaves the completion queues but an admin pair's. -/
theorem cq_finishNat (adm : Nat) (st : Status) (r : Nat) :
    nth ((s.finishNat adm st r).bay b).cqs k = nth (s.bay b).cqs k := by
  unfold State.finishNat State.finish
  split
  · rfl
  · rename_i c _
    obtain ⟨-, hcqs, -⟩ := RingsKept.ended s adm
      (if st = .ok ∧ c.corrected then .corrected else st) (BitVec.ofNat 64 r) b
    exact (cq_settle hk _).trans (congrArg (nth · k) hcqs)

/-- It leaves the submission queues that no QUEUE_DELETE waits for, but an admin pair's. -/
theorem sq_finishNat (h : (nth (s.bay b).sqs k).deleting = none) (adm : Nat) (st : Status) (r : Nat) :
    nth ((s.finishNat adm st r).bay b).sqs k = nth (s.bay b).sqs k := by
  unfold State.finishNat State.finish
  split
  · rfl
  · rename_i c _
    obtain ⟨hsqs, -⟩ := RingsKept.ended s adm
      (if st = .ok ∧ c.corrected then .corrected else st)
      (BitVec.ofNat 64 r) b
    have hkept := congrArg (nth · k) hsqs
    exact (sq_settle hk (by rw [hkept]; exact h) _).trans hkept

end

end Sys2Proof
end

section
/-! QUEUE_CREATE and QUEUE_DELETE (R151, R157). -/
namespace Sys2Proof
open Machine

/-! ### QUEUE_CREATE -/

theorem queueCreateCheck_fields {s : State} {b : Nat} {q : QueueOps} (h : s.queueCreateCheck b q = none) :
    q.qid ≠ 0 ∧ q.qid < 8 := by
  unfold State.queueCreateCheck at h
  dsimp only at h
  split at h
  · cases h
  · omega

theorem queueCreateEff_sub {s : State} {b : Nat} {q : QueueOps} (h : s.queueCreateCheck b q = none) (hq : q.qtype = 0) :
    State.queueCreateEff b q s =
      (s.setSq b q.qid (fun _ => ⟨true, q.ringAddr, q.log2Size, q.cqid, q.weight, 0, 0, none⟩), .ok, 0) := by
  unfold State.queueCreateEff
  simp only [h, hq, if_true]

theorem queueCreateEff_compl {s : State} {b : Nat} {q : QueueOps} (h : s.queueCreateCheck b q = none) (hq : q.qtype ≠ 0) :
    State.queueCreateEff b q s = (s.setCq b q.qid
      (fun _ => ⟨true, q.ringAddr, q.log2Size, q.vector, q.coalCount, q.coalTime, 0, 0, true, 0, none⟩), .ok, 0) := by
  unfold State.queueCreateEff
  simp only [h, hq, if_false]

section
variable {s : State} {b k : Nat}

theorem sq_setSq (f : SubQ → SubQ) (hb : b < s.bays.length) (hk : k < (s.bay b).sqs.length) :
    nth ((s.setSq b k f).bay b).sqs k = f (nth (s.bay b).sqs k) := by
  unfold State.setSq
  rw [State.bay_setBay_self _ _ _ hb]
  exact nth_updNth_self _ _ hk

theorem length_sqs_setSq (s : State) (b k b' : Nat) (f : SubQ → SubQ) :
    ((s.setSq b k f).bay b').sqs.length = (s.bay b').sqs.length :=
  bay_setBay_kept (fun y => y.sqs.length) (fun _ => length_updNth ..) s b b'

theorem cq_setCq (f : CompQ → CompQ) (hb : b < s.bays.length) (hk : k < (s.bay b).cqs.length) :
    nth ((s.setCq b k f).bay b).cqs k = f (nth (s.bay b).cqs k) := by
  unfold State.setCq
  rw [State.bay_setBay_self _ _ _ hb]
  exact nth_updNth_self _ _ hk

end

section
variable {s : State} {c : Slot} {h : Hdr} {b : Nat}

theorem Running.unfinished {i : Instr} (hr : Running s c i) : c.finished? = false := by
  obtain ⟨-, hp, -⟩ := hr
  simp [Slot.finished?, hp]

/-- A QUEUE_CREATE performs its effect. -/
theorem Running.exec_queueCreate {q : QueueOps} (hr : Running s c (.queueCreate h q)) (hbay : c.bay? = some b) :
    exec (.queueCreate h q) s = .next (s.complete c.adm (State.queueCreateEff b q)) := by
  refine congrArg _ ((hr.onRunning rfl _).trans ?_)
  rw [hbay, hr.adm_eq rfl]

/-- A QUEUE_DELETE whose checks pass removes a completion queue at once and marks a submission queue (R157). -/
theorem Running.exec_queueDelete {qtype qid : Nat} (hr : Running s c (.queueDelete h qtype qid)) (hbay : c.bay? = some b)
    (hcheck : s.queueDeleteCheck b qtype qid = none) :
    exec (.queueDelete h qtype qid) s = .next (if qtype = 0 then
        ((s.setActive c.adm).setSq b qid (fun q => { q with deleting := some c.adm })).settleQueue b qid
      else (s.setCq b qid (fun _ => CompQ.none_)).finishNat c.adm .ok 0) := by
  refine congrArg _ ((hr.onRunning rfl _).trans ?_)
  rw [hbay, hr.adm_eq rfl]
  simp only [hcheck]

theorem queueDeleteCheck_fields {qtype qid : Nat} (hcheck : s.queueDeleteCheck b qtype qid = none) :
    qid ≠ 0 ∧ qid < 8 := by
  unfold State.queueDeleteCheck at hcheck
  dsimp only at hcheck
  split at hcheck
  · cases hcheck
  · omega

/-- A change of a bay's queue touches no memory and no slot, and the command then ends OK. -/
theorem ends_after_setBay {f : Bay → Bay} (hs : s.slot? c.adm = some c) (hf : c.finished? = false) :
    Ended ((s.setBay b f).finishNat c.adm .ok 0) c .ok 0 ∧ SameMemory s ((s.setBay b f).finishNat c.adm .ok 0) :=
  ⟨ended_finishNat (s := s.setBay b f) hs hf .ok 0, State.finish_memory (s.setBay b f) c.adm .ok 0⟩

/-! ### QUEUE_DELETE of a submission queue -/

/-- The command as it stands while it waits for its queue to empty. -/
def waiting (s : State) (c : Slot) : Slot := { c with phase := .active, started := s.clock.uptime }

theorem slot?_setActive (hs : s.slot? c.adm = some c) : (s.setActive c.adm).slot? c.adm = some (waiting s c) := by
  have hset := s.slot?_setSlot c.adm (fun c => { c with phase := .active, started := s.clock.uptime }) fun _ => rfl
  rw [hs] at hset
  exact hset

/-- The slots of a queue are the same ones after a change that keeps their headers. -/
theorem queueEmpty_setActive (s : State) (adm b q : Nat) : (s.setActive adm).queueEmpty b q = s.queueEmpty b q := by
  unfold State.queueEmpty State.setActive State.setSlot
  rw [List.any_map]
  congr 2
  funext x
  rw [Function.comp_apply]
  split <;> rfl

section
variable {qid : Nat} (hb : b < s.bays.length) (hq : qid < (s.bay b).sqs.length)
include hb hq

/-- With no command in the queue it goes, and its QUEUE_DELETE is marked finished. -/
theorem settleQueue_deletes (hempty : s.queueEmpty b qid = true) :
    ((s.setActive c.adm).setSq b qid (fun q => { q with deleting := some c.adm })).settleQueue b qid =
      (((((s.setActive c.adm).setSq b qid (fun q => { q with deleting := some c.adm })).setSq b qid
        (fun _ => SubQ.none_))).markFinished c.adm .ok 0).dropIfSilent c.adm := by
  have hdel := sq_setSq (s := s.setActive c.adm) (fun q => { q with deleting := some c.adm }) hb hq
  conv_lhs => unfold State.settleQueue
  rw [hdel]
  exact if_pos ((queueEmpty_setActive s c.adm b qid).trans hempty)

/-- With commands in the queue it waits for them. -/
theorem settleQueue_waits (hempty : s.queueEmpty b qid = false) :
    ((s.setActive c.adm).setSq b qid (fun q => { q with deleting := some c.adm })).settleQueue b qid =
      (s.setActive c.adm).setSq b qid (fun q => { q with deleting := some c.adm }) := by
  have hdel := sq_setSq (s := s.setActive c.adm) (fun q => { q with deleting := some c.adm }) hb hq
  have hfull := (queueEmpty_setActive s c.adm b qid).trans hempty
  conv_lhs => unfold State.settleQueue
  rw [hdel]
  exact if_neg (fun h => Bool.false_ne_true (hfull.symm.trans h))

end

end

/-- Settles O19: each command changes one queue of its bay, which nothing that ends a command changes again. -/
theorem queueCommandsComplete : Obligations.QueueCommandsComplete := by
  unfold Obligations.QueueCommandsComplete
  intro s c h b hparts hbay hb
  have hlen : b < s.bays.length := by rw [hparts.1]; exact hb
  obtain ⟨hsqs, hcqs, -⟩ := hparts.bayCounted hb
  refine ⟨fun q hr hcheck => ?_, fun qid hr hcheck => ?_, fun qid hr hcheck hcor => ?_⟩
  · obtain ⟨hq0, hq8⟩ := queueCreateCheck_fields hcheck
    refine ⟨_, hr.exec_queueCreate hbay, ?_⟩
    unfold State.complete
    by_cases hq : q.qtype = 0
    · rw [queueCreateEff_sub hcheck hq]
      have hsq := sq_setSq (fun _ => ⟨true, q.ringAddr, q.log2Size, q.cqid, q.weight, 0, 0, none⟩) hlen (hsqs ▸ hq8)
      obtain ⟨hended, hmem⟩ := ends_after_setBay (b := b) hr.1 hr.unfinished
      exact ⟨hended, hmem, fun _ => (sq_finishNat hq0 (by rw [hsq]) _ _ _).trans hsq, fun h1 => by omega⟩
    · rw [queueCreateEff_compl hcheck hq]
      have hcq := cq_setCq
        (fun _ => ⟨true, q.ringAddr, q.log2Size, q.vector, q.coalCount, q.coalTime, 0, 0, true, 0, none⟩)
        hlen (hcqs ▸ hq8)
      obtain ⟨hended, hmem⟩ := ends_after_setBay (b := b) hr.1 hr.unfinished
      exact ⟨hended, hmem, fun h0 => absurd h0 hq, fun _ => (cq_finishNat hq0 _ _ _).trans hcq⟩
  · obtain ⟨hq0, hq8⟩ := queueDeleteCheck_fields hcheck
    obtain ⟨hended, hmem⟩ := ends_after_setBay (b := b) hr.1 hr.unfinished
    refine ⟨_, hr.exec_queueDelete hbay hcheck, hended, hmem, ?_⟩
    rw [if_neg (by decide), cq_finishNat hq0, cq_setCq _ hlen (hcqs ▸ hq8)]
    rfl
  · obtain ⟨-, hq8⟩ := queueDeleteCheck_fields hcheck
    refine ⟨_, hr.exec_queueDelete hbay hcheck, ?_, fun hempty => ?_, fun hempty => ?_⟩
    · rw [if_pos rfl, State.settleQueue_frame]
      exact .refl s
    · rw [if_pos rfl, settleQueue_deletes hlen (hsqs ▸ hq8) hempty]
      have hactive := slot?_setActive hr.1
      obtain ⟨e, k, hslot⟩ := slot?_dropIfSilent_markFinished (c := waiting s c)
        (s := ((s.setActive c.adm).setSq b qid fun q => { q with deleting := some c.adm }).setSq b qid fun _ => SubQ.none_)
        hactive rfl .ok 0
      have hok : postedStatus c .ok = .ok := by simp [postedStatus, hcor]
      refine ⟨ended_of_slot (d := waiting s c) ⟨rfl, rfl⟩ (by rw [hok]; exact hslot), ?_⟩
      obtain ⟨hkept, -⟩ := RingsKept.ended
        (((s.setActive c.adm).setSq b qid fun q => { q with deleting := some c.adm }).setSq b qid fun _ => SubQ.none_)
        c.adm .ok 0 b
      rw [hkept, sq_setSq]
      · rfl
      · exact (State.setBay_length ..).symm ▸ hlen
      · rw [length_sqs_setSq]
        exact hsqs.symm ▸ hq8
    · rw [if_pos rfl, settleQueue_waits hlen (hsqs ▸ hq8) hempty]
      exact ⟨begun_setActive hr.1, by
        rw [sq_setSq (s := s.setActive c.adm) _ hlen (hsqs ▸ hq8)]⟩

end Sys2Proof
end

section
/-! Completions: what is posted and what SUPPRESS keeps back (R146, R148, R155, R161). -/
namespace Sys2Proof
open Machine

/-! ### The signal -/

theorem bay?_eq_some {c : Slot} {b : Nat} (h : c.bay? = some b) : ∃ q, c.hdr.org = .bay b q := by
  unfold Slot.bay? at h
  split at h
  · rename_i b' q ho
    cases h
    exact ⟨q, ho⟩
  · cases h

theorem settleQueue_of_noDelete {s : State} {b q : Nat} (h : (nth (s.bay b).sqs q).deleting = none) :
    s.settleQueue b q = s := by
  unfold State.settleQueue
  rw [h]

theorem counters_settleAdmin (s : State) (b b' : Nat) : ((s.settleAdmin b).bay b').counters = (s.bay b').counters := by
  unfold State.settleAdmin
  dsimp only
  split
  · exact bay_setBay_kept Bay.counters (fun _ => by rfl) s b b'
  · rfl

/-- A command that ends increments its SIGNAL_CTR, and sets ERR for a failure (R161). -/
theorem counters_markFinished {s : State} {c : Slot} {b k : Nat} (hs : s.slot? c.adm = some c) (hf : c.finished? = false)
    (hbay : c.bay? = some b) (hsig : c.hdr.signal = some k) (hb : b < s.bays.length) (st : Status) (r : W64) :
    ((s.markFinished c.adm st r).bay b).counters =
      updNth (s.bay b).counters k (fun x => ⟨x.value + 1, x.err || !st.success⟩) := by
  unfold State.markFinished
  rw [hs]
  simp only [hf, hbay, hsig, Bool.false_eq_true, if_false]
  change ((s.bump b k 1 (!st.success)).bay b).counters = _
  rw [counters_bump s k 1 _ hb]
  rfl

theorem counters_finishNat {s : State} {c : Slot} {b k : Nat} (hs : s.slot? c.adm = some c) (hf : c.finished? = false)
    (hbay : c.bay? = some b) (hsig : c.hdr.signal = some k) (hb : b < s.bays.length) (hno : NoDelete s b) (st : Status)
    (r : Nat) :
    ((s.finishNat c.adm st r).bay b).counters =
      updNth (s.bay b).counters k (fun x => ⟨x.value + 1, x.err || !(postedStatus c st).success⟩) := by
  obtain ⟨q, horg⟩ := bay?_eq_some hbay
  obtain ⟨hsqs, -⟩ := RingsKept.ended s c.adm (postedStatus c st) (BitVec.ofNat 64 r) b
  unfold State.finishNat State.finish
  rw [hs]
  change ((((s.markFinished c.adm (postedStatus c st) _).dropIfSilent c.adm).settle c.hdr.org).bay b).counters = _
  rw [horg]
  unfold State.settle
  dsimp only
  rw [settleQueue_of_noDelete (by rw [hsqs]; exact hno q), counters_settleAdmin, State.dropIfSilent_frame]
  exact counters_markFinished hs hf hbay hsig hb _ _

/-! ### Posting -/

theorem after_tail (q : CompQ) (now : Nat) : (q.after now).1.tail = ringNext q.log2 q.tail := by
  unfold CompQ.after
  dsimp only
  split <;> rfl

theorem after_phase (q : CompQ) (now : Nat) :
    (q.after now).1.phase = if ringNext q.log2 q.tail = 0 then !q.phase else q.phase := by
  unfold CompQ.after
  dsimp only
  split <;> rfl

theorem entry_of_finished {c : Slot} {st : Status} {r : W64} {n : Nat} (h : c.phase = .finished st r n) (phase : Bool)
    (sqid head : Nat) : c.entry phase sqid head = completionBytes r c.hdr.tag st phase sqid head := by
  unfold Slot.entry
  rw [h]

/-- A state whose slots a release goes on from: the entry written and the ring advanced, with its interrupt if one is
due (R147, R156). -/
def posted (s : State) (b k : Nat) (c : Slot) (i : Nat) : State :=
  let q := nth (s.bay b).cqs k
  let w := s.writeBay b (q.base + 16 * q.tail) (c.entry q.phase i (nth (s.bay b).sqs i).head)
  let r := q.after w.now
  if r.2 then (w.setCq b k (fun _ => r.1)).bayIrq b q.vector else w.setCq b k (fun _ => r.1)

theorem posted_frame (s : State) (b k : Nat) (c : Slot) (i : Nat) :
    SameMemory (s.writeBay b ((nth (s.bay b).cqs k).base + 16 * (nth (s.bay b).cqs k).tail)
      (c.entry (nth (s.bay b).cqs k).phase i (nth (s.bay b).sqs i).head)) (posted s b k c i) := by
  unfold posted
  dsimp only
  split
  · rw [State.bayIrq_frame]
    exact .refl _
  · exact .refl _

theorem bays_setCq_writeBay (s : State) (b a k : Nat) (bs : List Byte) (f : CompQ → CompQ) :
    ((s.writeBay b a bs).setCq b k f).bays = (s.setCq b k f).bays := by
  unfold State.setCq State.setBay
  rw [bays_writeBay]

/-- The bays after an entry is written: its ring alone has changed. -/
theorem bays_posted (s : State) (b k : Nat) (c : Slot) (i : Nat) : ∃ now,
    (posted s b k c i).bays = (s.setCq b k (fun _ => ((nth (s.bay b).cqs k).after now).1)).bays := by
  unfold posted
  dsimp only
  split
  · rw [State.bayIrq_bays, bays_setCq_writeBay]
    exact ⟨_, rfl⟩
  · rw [bays_setCq_writeBay]
    exact ⟨_, rfl⟩

section
variable {s : State} {b k i : Nat} {c : Slot}

/-- The next completion of a live ring with room is written and its slot released (R155). -/
theorem exec_completionPost (hhold : s.dev.hold = 0) (hnext : s.nextPost (.bay b k) = some c)
    (hlive : (nth (s.bay b).cqs k).live = true)
    (hroom : ringFull (nth (s.bay b).cqs k).log2 (nth (s.bay b).cqs k).head (nth (s.bay b).cqs k).tail = false)
    (horg : c.hdr.org = .bay b i) : exec (.completionPost (.bay b k)) s = .next ((posted s b k c i).release c) := by
  have hpost : s.postBay b k c = (posted s b k c i).release c := by
    unfold State.postBay posted
    simp only [hlive, hroom, horg, Bool.not_true, Bool.false_eq_true, or_self, if_false]
  show execCompletionPost (.bay b k) s = _
  unfold execCompletionPost
  simp only [hhold, hnext, hpost, ne_eq, not_true, if_false]

theorem slot?_release (s : State) (c : Slot) : (s.release c).slot? c.adm = none :=
  State.slot?_none_settle _ _ _ (State.slot?_dropSlot ..)

theorem sameMemory_release (s : State) (c : Slot) : SameMemory s (s.release c) := by
  unfold State.release
  rw [State.settle_frame]
  exact .refl s

end

/-- Settles O54: SUPPRESS decides whether the slot of a finished command waits for its entry, and nothing else. -/
theorem suppressedCompletions : Obligations.SuppressedCompletions := by
  unfold Obligations.SuppressedCompletions
  intro s c b st r hparts _ hb hs hf hquiet hbay hno t p ht hp
  have hlen : b < s.bays.length := by rw [hparts.1]; exact hb
  obtain ⟨e, n, hslot⟩ := slot?_finishNat hs hf st r
  rw [← ht, ← hp] at hslot
  refine ⟨fun hsup hst => ⟨?_, ht ▸ State.finish_memory s c.adm st r⟩, fun hpost => ?_, fun k hsig hk => ?_⟩
  · rw [hslot, if_pos]
    rcases hst with hst | hst <;> simp [silent, hsup, hst]
  · have hwaits : silent c p = false := by
      rcases hpost with hsup | ⟨hne, hne'⟩
      · simp [silent, hquiet, hsup]
      · simp [silent, hquiet, hne, hne']
    rw [hwaits] at hslot
    obtain ⟨d, hd, hphase, hinstr⟩ : ∃ d, t.slot? c.adm = some d ∧ d.phase = .finished p (BitVec.ofNat 64 r) n ∧
        d.instr = c.instr := ⟨_, hslot, rfl, rfl⟩
    have hhdr : d.hdr = c.hdr := by rw [Slot.hdr, Slot.hdr, hinstr]
    refine ⟨d, hd, ⟨n, hphase⟩, hinstr, fun q k x hq horg hk hk8 hx hhold hnext hlive hroom => ?_⟩
    subst hx
    have hentry := entry_of_finished hphase (nth (t.bay b).cqs k).phase q (nth (t.bay b).sqs q).head
    have hadm : d.adm = c.adm := by rw [Slot.adm, Slot.adm, hhdr]
    refine ⟨_, exec_completionPost hhold hnext hlive hroom (hhdr ▸ horg), hadm ▸ slot?_release _ d, ?_⟩
    rw [← hhdr, ← hentry]
    exact (posted_frame t b k d q).trans (sameMemory_release _ d)
  · rw [ht, counters_finishNat hs hf hbay hsig hlen hno st r, ← hp]
    exact nth_updNth_self _ _ (by rw [hparts.counters hb]; exact hk)

end Sys2Proof
end

section
/-! The Joiner's steps: fetching, dispatch, posting, coalescing and the urgent sample. -/
namespace Sys2Proof
open Machine

/-! ### What an admission records -/

/-- Admission notes what a command's step, group or layout takes of it, and leaves queues, registers and records. -/
structure AdmissionNotes (s t : State) : Prop where
  rest : t = { s with bays := t.bays }
  kept : ∀ b, (t.bay b).sqs = (s.bay b).sqs ∧ (t.bay b).regs = (s.bay b).regs ∧ (t.bay b).bind = (s.bay b).bind

namespace AdmissionNotes
variable {s t : State}

theorem refl (s : State) : AdmissionNotes s s := ⟨rfl, fun _ => ⟨rfl, rfl, rfl⟩⟩

theorem setBay (h : AdmissionNotes s t) {b : Nat} {f : Bay → Bay}
    (hf : ∀ y, (f y).sqs = y.sqs ∧ (f y).regs = y.regs ∧ (f y).bind = y.bind
      := by exact fun _ => ⟨rfl, rfl, rfl⟩) :
    AdmissionNotes s (t.setBay b f) := by
  refine ⟨?_, fun b' => ?_⟩
  · have hrest := h.rest
    rw [hrest]
    rfl
  · obtain ⟨hsqs, hregs, hbind⟩ := h.kept b'
    exact ⟨(bay_setBay_kept Bay.sqs (fun y => (hf y).1) t b b').trans hsqs,
      (bay_setBay_kept Bay.regs (fun y => (hf y).2.1) t b b').trans hregs,
      (bay_setBay_kept Bay.bind (fun y => (hf y).2.2) t b b').trans hbind⟩

theorem setTrain (h : AdmissionNotes s t) {b : Nat} {f : Train → Train} : AdmissionNotes s (t.setTrain b f) := h.setBay
theorem setGroup (h : AdmissionNotes s t) {b g : Nat} {f : Group → Group} : AdmissionNotes s (t.setGroup b g f) := h.setBay
theorem setCkpt (h : AdmissionNotes s t) {b : Nat} {f : Ckpt → Ckpt} : AdmissionNotes s (t.setCkpt b f) := h.setBay

theorem dropReuse (h : AdmissionNotes s t) {b : Nat} {i : Instr} : AdmissionNotes s (t.dropReuse b i) := by
  unfold State.dropReuse
  split
  · exact h
  · exact h.setTrain

theorem noteLayout (h : AdmissionNotes s t) {b : Nat} {i : Instr} : AdmissionNotes s (t.noteLayout b i) := by
  unfold State.noteLayout
  split
  · exact h.setCkpt
  · exact h

theorem takeIndex (h : AdmissionNotes s t) {b : Nat} {i : Instr} : AdmissionNotes s (t.takeIndex b i).2 := by
  unfold State.takeIndex
  dsimp only
  split <;> dsimp only
  · exact h.setTrain
  · exact h.setTrain
  · exact h.setTrain
  · exact h.setGroup
  · exact h.setGroup
  · exact h.setGroup
  · exact h.setGroup
  · exact h

end AdmissionNotes

/-- A slot added under the next number is found under it. -/
theorem slot?_addSlot {s : State} {c : Slot} {n : Nat} (hbelow : ∀ d ∈ s.cmds, d.adm < n) (hc : c.adm = n) :
    (s.addSlot c).slot? n = some c := by
  have hnone : s.cmds.find? (·.adm == n) = none :=
    List.find?_eq_none.2 fun d hd => by simpa using Nat.ne_of_lt (hbelow d hd)
  unfold State.slot? State.addSlot
  simp [List.find?_append, hnone, hc]

/-- An entry that passes every check gets the next number and a slot, with the FTZ copy and the version of that moment
(R52, R154, R165, R213). -/
theorem admitEntry_admits {s : State} {org : Origin} {e : List Byte} {ph : Phase} {i : Instr}
    (hbelow : ∀ d ∈ s.cmds, d.adm < s.nextAdm) (hi : s.admission org (decodeHdr org s.nextAdm e) e = .inr i) :
    ∃ u c, AdmissionNotes s u ∧ (onBay org = false → u = s) ∧ s.admitEntry org e ph = u.addSlot c ∧
      (u.addSlot c).slot? s.nextAdm = some c ∧ c.instr = i ∧ c.phase = ph ∧
      c.ftz = (onBay org && (s.bay (orgBay org)).bind.ftz) ∧ c.stamp = s.version := by
  have hadm : ∀ (u : State) n, (u.newSlot org (decodeHdr org s.nextAdm e) i ph n).adm = s.nextAdm := fun u n => by
    show ((hdrOf i).getD default).adm = _
    rw [hdrOf_admission hi]
    rfl
  unfold State.admitEntry
  dsimp only
  rw [hi]
  dsimp only
  split
  · have hu := (((AdmissionNotes.refl s).dropReuse (b := orgBay org) (i := i)).noteLayout
      (b := orgBay org) (i := i)).takeIndex (b := orgBay org) (i := i)
    refine ⟨_, _, hu, fun hoff => by simp_all, rfl, slot?_addSlot ?_ (hadm ..), rfl, rfl, ?_, ?_⟩
    · rw [hu.rest]
      exact hbelow
    · exact congrArg (fun r : BindRec => onBay org && r.ftz) (hu.kept (orgBay org)).2.2
    · show State.version _ = _
      rw [hu.rest]
  · exact ⟨s, _, .refl s, fun _ => rfl, rfl, slot?_addSlot hbelow (hadm ..), rfl, rfl, rfl, rfl⟩

/-! ### Fetching -/

/-- One entry waits; past it the ring is empty. -/
theorem ringPending_ringNext {log2 head tail : Nat} (h : ringPending log2 head tail = 1) :
    ringPending log2 (ringNext log2 head) tail = 0 := by
  unfold ringPending ringNext at *
  generalize 2 ^ log2 = n at *
  have hx := Nat.div_add_mod (tail + n - head) n
  have hy := Nat.div_add_mod (head + 1) n
  have hsum : tail + n - (head + 1) % n = n * ((tail + n - head) / n + (head + 1) / n) := by
    rw [Nat.mul_add]
    omega
  rw [hsum]
  exact Nat.mul_mod_right ..

theorem waiting_ringNext {q : SubQ} (h : q.waiting = 1) :
    ({ q with head := ringNext q.log2 q.head } : SubQ).waiting = 0 := by
  unfold SubQ.waiting at *
  dsimp only
  split at h
  · rename_i hlive
    rw [if_pos hlive]
    exact ringPending_ringNext h
  · cases h

theorem fetchable_ringNext {y z : Bay} {q : Nat} (hregs : z.regs = y.regs)
    (hsq : nth z.sqs q = { nth y.sqs q with head := ringNext (nth y.sqs q).log2 (nth y.sqs q).head })
    (h : y.fetchable q = 1) : z.fetchable q = 0 := by
  unfold Bay.fetchable at *
  rw [hregs, hsq]
  split at h
  · cases h
  · rename_i hen
    rw [if_neg hen]
    exact waiting_ringNext h

/-- A bay that alone wants a grant gets it. -/
theorem find?_roundFrom {p : Nat → Bool} {b : Nat} (first : Nat) (hb : b < 16) (hp : p b = true)
    (halone : ∀ x, x ≠ b → p x = false) : (roundFrom 16 first).find? p = some b := by
  have hmem : b ∈ roundFrom 16 first :=
    List.mem_map.2 ⟨(b + 16 - first % 16) % 16, List.mem_range.2 (by omega), by omega⟩
  obtain ⟨x, hx⟩ := Option.isSome_iff_exists.1 (List.find?_isSome.2 ⟨b, hmem, hp⟩)
  have hxb : x = b := by
    by_contra hne
    have hpx := List.find?_some hx
    rw [halone x hne] at hpx
    cases hpx
  rw [hx, hxb]

section
variable {s : State} {b q : Nat} {r : Nat × Nat}

/-- The state after a grant of the arbitration. -/
def granted (s : State) (b : Nat) (r : Nat × Nat) : State := { s with joiner := ⟨b, s.joiner.rounds.set b r⟩ }

theorem exec_fetch_alone (hup : s.up = true) (hb : b < 16) (hwants : s.wantsFetch b = true)
    (halone : ∀ x, x ≠ b → s.wantsFetch x = false) (hnext : s.nextQueue b = some (q, r)) :
    exec (.entryFetch .bays) s = .next (State.fetchMany 8 b q (granted s b r)) := by
  have hfetch : s.fetchBays = State.fetchMany 8 b q (granted s b r) := by
    unfold State.fetchBays
    rw [find?_roundFrom _ hb hwants halone]
    simp only [hnext]
    rfl
  show execEntryFetch .bays s = _
  unfold execEntryFetch
  simp only [hup, hfetch, Bool.not_true, Bool.false_eq_true, if_false]

theorem fetchMany_none (n : Nat) (h : (s.bay b).fetchable q = 0) : State.fetchMany n b q s = s := by
  cases n with
  | zero => rfl
  | succ n =>
    unfold State.fetchMany
    rw [if_pos (.inr (.inl h))]

theorem fetchMany_one {n : Nat} (hslots : s.freeSlots b ≠ 0) (hpending : (s.bay b).fetchable q ≠ 0)
    (hruns : (s.bay b).runs = true) (hnone : ((s.fetchOne b q).bay b).fetchable q = 0) :
    State.fetchMany (n + 1) b q s = s.fetchOne b q := by
  rw [State.fetchMany, if_neg (by simp [hslots, hpending, hruns])]
  exact fetchMany_none n hnone

theorem wantsFetch_parts (h : s.wantsFetch b = true) : (s.bay b).runs = true ∧ s.freeSlots b ≠ 0 := by
  unfold State.wantsFetch at h
  simp only [Bool.and_eq_true, decide_eq_true_eq] at h
  obtain ⟨⟨hruns, hslots⟩, -⟩ := h
  exact ⟨hruns, Nat.pos_iff_ne_zero.1 hslots⟩

/-- The entry at the head of a readable ring is the one that is admitted. -/
theorem fetchOne_readable {a : Nat} (ha : a = (nth (s.bay b).sqs q).base + 64 * (nth (s.bay b).sqs q).head)
    (hok : s.rangeOk b .rd a 64 = true) (hgood : s.rangeBad b .rd a 64 = false) :
    s.fetchOne b q = (s.setSq b q (fun y => { y with head := ringNext y.log2 y.head })).admitEntry (.bay b q)
      (s.readBay b a 64) .held := by
  subst ha
  unfold State.fetchOne
  simp only [hok, hgood, Bool.not_false, Bool.and_self, if_true]

end

end Sys2Proof
end

section
/-! COMMAND_DISPATCH, the rings' posting, COALESCE_TIMER and URGENT_DOORBELL_SAMPLE; what the Joiner does. -/
namespace Sys2Proof
open Machine

/-! ### Dispatch -/

section
variable {s : State} {c : Slot} (hup : s.up = true) (hs : s.slot? c.adm = some c) (hheld : c.phase = .held)
include hup hs hheld

theorem exec_dispatch_bay {b : Nat} (hbay : c.bay? = some b) (hmay : s.mayStart b c = true) :
    exec (.commandDispatch c.adm) s = .next (s.start c) := by
  show execCommandDispatch c.adm s = _
  unfold execCommandDispatch
  rw [hs]
  simp only [hup, hheld, hbay, hmay, ne_eq, not_true, Bool.not_true, Bool.false_eq_true, or_self, if_true, if_false]

theorem exec_dispatch_control (hbay : c.bay? = none) (hmay : s.mayStartControl c = true) :
    exec (.commandDispatch c.adm) s = .next (s.setSlot c.adm (fun c => { c with phase := .running })) := by
  show execCommandDispatch c.adm s = _
  unfold execCommandDispatch
  rw [hs]
  simp only [hup, hheld, hbay, hmay, ne_eq, not_true, Bool.not_true, Bool.false_eq_true, or_self, if_true, if_false]
  unfold State.start
  rw [hbay]

end

section
variable {s : State} {c : Slot} {b : Nat}

theorem start_ends {st : Status} (hbay : c.bay? = some b) (hst : s.atDispatch b c = some st) :
    s.start c = s.finishNat c.adm st 0 := by
  unfold State.start
  rw [hbay]
  simp only [hst]
  rfl

theorem lateReads_frame (s : State) (b : Nat) (rs : List (Nat × Nat)) :
    s.lateReads b rs = { s with bays := (s.lateReads b rs).bays, free := (s.lateReads b rs).free } := by
  unfold State.lateReads
  split <;> rfl

/-- With no planned error on the way of its bay a command meets none (log 8). -/
theorem meetPaths_of_none (h : s.faults.path.all (fun x => x.1 != b) = true) :
    s.meetPaths b = { s with faults := (s.meetPaths b).faults } := by
  have hnone : s.faults.path.filter (fun x => x.1 == b) = [] :=
    List.filter_eq_nil_iff.2 fun x hx => by simpa using List.all_eq_true.1 h x hx
  unfold State.meetPaths
  rw [hnone]
  rfl

/-- A command that starts is running; no memory and no other slot changes. -/
theorem start_runs (hbay : c.bay? = some b) (hst : s.atDispatch b c = none)
    (hpath : s.faults.path.all (fun x => x.1 != b) = true) :
    SameMemory s (s.start c) ∧ (s.start c).cmds = (s.setSlot c.adm (fun c => { c with phase := .running })).cmds := by
  have hrun : ∀ u : State, u = { s with bays := u.bays, free := u.free } →
      SameMemory s ((u.setSlot c.adm (fun c => { c with phase := .running })).meetPaths b) ∧
        ((u.setSlot c.adm (fun c => { c with phase := .running })).meetPaths b).cmds =
          (s.setSlot c.adm (fun c => { c with phase := .running })).cmds := fun u hu => by
    have hfaults : u.faults = s.faults := by rw [hu]
    rw [meetPaths_of_none (s := u.setSlot c.adm _) (hfaults ▸ hpath), hu]
    exact ⟨.refl s, rfl⟩
  unfold State.start
  rw [hbay]
  simp only [hst]
  refine hrun _ ?_
  rw [lateReads_frame]
  split <;> rfl

theorem slot?_setSlot_other (s : State) {adm n : Nat} {f : Slot → Slot} (hf : ∀ c : Slot, (f c).adm = c.adm)
    (hn : n ≠ adm) :
    (s.setSlot adm f).slot? n = s.slot? n := by
  unfold State.slot? State.setSlot
  dsimp only
  rw [find?_map_adm _ (fun x => by split; exacts [hf x, rfl])]
  refine (Option.map_congr fun x hx => ?_).trans (congrFun Option.map_id _)
  have hxn : x.adm = n := by simpa using List.find?_some hx
  rw [if_neg (by simp [hxn, hn])]
  rfl

end

/-- A held command whose sampled counter had ERR ends ABORTED, and one that names a cluster no longer bound REBOUND, when
it names no FAILED cluster (R176). -/
theorem atDispatch_aborted {s : State} {b : Nat} {c : Slot}
    (hok : s.lfailed.any (fun lc => (named c.instr).getLsbD lc) = false) (herr : c.errSample = some true) :
    s.atDispatch b c = some .aborted := by
  unfold State.atDispatch
  simp [hok, herr]

theorem atDispatch_rebound {s : State} {b : Nat} {c : Slot}
    (hok : s.lfailed.any (fun lc => (named c.instr).getLsbD lc) = false) (herr : c.errSample ≠ some true)
    (hnamed : (named c.instr &&& ~~~(s.bay b).bind.clusters) ≠ 0) : s.atDispatch b c = some .rebound := by
  unfold State.atDispatch
  rw [if_neg (by simp [hok]), if_neg herr, if_pos hnamed]

/-! ### Posting -/

/-- The completion that a queue takes next reports to that queue (R151, R155). -/
theorem reportsTo_of_nextPost {s : State} {r : CqRef} {c : Slot} (h : s.nextPost r = some c) : s.reportsTo c = r := by
  unfold State.nextPost at h
  dsimp only at h
  split at h
  · rename_i d hd
    have hrep : s.reportsTo d = r := by
      refine List.foldlRecOn (motive := fun m => ∀ d, m = some d → s.reportsTo d = r) _ _ (fun d hd => by cases hd)
        (fun m hm x hx d hd => ?_) d hd
      have hxr : s.reportsTo x = r := by
        have hsel := (List.mem_filter.1 hx).2
        simp only [Bool.and_eq_true, beq_iff_eq] at hsel
        exact hsel.2
      cases m with
      | none =>
        cases hd
        exact hxr
      | some e =>
        dsimp only at hd
        split at hd
        · cases hd
          exact hxr
        · cases hd
          exact hm _ rfl
    split at h
    · cases h
    · cases h
      exact hrep
  · cases h

theorem org_of_nextPost {s : State} {b k : Nat} {c : Slot} (h : s.nextPost (.bay b k) = some c) :
    ∃ i, c.hdr.org = .bay b i := by
  have hrep := reportsTo_of_nextPost h
  unfold State.reportsTo at hrep
  split at hrep
  · rename_i b' i horg
    cases hrep
    exact ⟨i, horg⟩
  · cases hrep
  · cases hrep

/-- An admin pair that is enabled, or was never live, stays (R428). -/
theorem settleAdmin_of_enabled {s : State} {b : Nat} (h : (s.bay b).regs.live = false ∨ (s.bay b).regs.en = true) :
    s.settleAdmin b = s := by
  unfold State.settleAdmin
  dsimp only
  rw [if_neg]
  rintro ⟨hlive, hen, -⟩
  rcases h with h | h
  · rw [h] at hlive
    cases hlive
  · rw [h] at hen
    cases hen

/-- After an entry is posted its ring stands one further on. -/
theorem cq_release_posted {s : State} {b k i : Nat} {c : Slot} (hb : b < s.bays.length) (hk : k < (s.bay b).cqs.length)
    (horg : c.hdr.org = .bay b i) (hadmin : (s.bay b).regs.live = false ∨ (s.bay b).regs.en = true) :
    ∃ now, nth ((((posted s b k c i).release c).bay b).cqs) k = ((nth (s.bay b).cqs k).after now).1 := by
  obtain ⟨now, hbays⟩ := bays_posted s b k c i
  have hbay : (posted s b k c i).bay b = (s.setCq b k (fun _ => ((nth (s.bay b).cqs k).after now).1)).bay b :=
    congrArg (nth · b) hbays
  have hregs : ((posted s b k c i).bay b).regs = (s.bay b).regs := by
    rw [hbay]
    exact bay_setBay_kept Bay.regs (fun _ => by rfl) s b b
  have hstays : ((((posted s b k c i).dropSlot c.adm).settleQueue b i).bay b).regs = (s.bay b).regs :=
    (settleQueue_kept ((posted s b k c i).dropSlot c.adm) b i b).2.trans hregs
  refine ⟨now, ?_⟩
  unfold State.release State.settle
  rw [horg]
  dsimp only
  rw [settleAdmin_of_enabled (by rwa [hstays]), (settleQueue_kept _ b i b).1]
  exact (congrArg (fun y : Bay => nth y.cqs k) hbay).trans (cq_setCq _ hb hk)

/-! ### The urgent sample -/

section
variable {s : State}

/-- What an urgent entry's admission may change: no memory, no register of the urgent queue. -/
theorem admitEntry_urgent (s : State) (e : List Byte) (ph : Phase) :
    SameMemory s (s.admitEntry .urgent e ph) ∧ (s.admitEntry .urgent e ph).urg = s.urg ∧
      (s.admitEntry .urgent e ph).nextAdm = s.nextAdm + 1 := by
  unfold State.admitEntry
  dsimp only
  split
  · unfold State.fail
    rw [State.finish_frame]
    exact ⟨.refl s, rfl, rfl⟩
  · exact ⟨.refl s, rfl, rfl⟩

theorem noteUrgent_frame (s : State) (c : Slot) :
    s.noteUrgent c = { s with bays := (s.noteUrgent c).bays, cmds := (s.noteUrgent c).cmds } := by
  unfold State.noteUrgent
  dsimp only
  split
  · rfl
  · split <;> split <;> rfl

/-- The state after the entry at the head of the urgent ring is taken. -/
def urgentTaken (s : State) : State :=
  ({ s with urg := { s.urg with head := (s.urg.head + 1) % 64 } }).admitEntry .urgent
    (Mem.read s.urgRing (64 * s.urg.head) 64) .running

/-- Decoding an urgent entry takes it, and a command that runs may hold the queue (R163). -/
theorem decodeUrgent_taken (hfree : s.urg.holding = none) (hnew : s.urg.head ≠ s.urg.sampled) :
    SameMemory (urgentTaken s) s.decodeUrgent ∧ s.decodeUrgent.nextAdm = (urgentTaken s).nextAdm ∧
      s.decodeUrgent.urg.sampled = (urgentTaken s).urg.sampled ∧ s.decodeUrgent.urg.head = (urgentTaken s).urg.head := by
  unfold State.decodeUrgent
  extract_lets u e adm s1
  have hs1 : s1 = urgentTaken s := rfl
  clear_value s1
  subst hs1
  rw [if_neg (by simp [u, hfree, hnew])]
  split
  · split
    · rw [noteUrgent_frame]
      split <;> exact ⟨.refl _, rfl, rfl, rfl⟩
    · exact ⟨.refl _, rfl, rfl, rfl⟩
  · exact ⟨.refl _, rfl, rfl, rfl⟩

theorem exec_urgentSample (hup : s.up = true) (hen : s.urg.en = true) :
    exec .urgentDoorbellSample s =
      .next ({ s with urg := { s.urg with sampled := s.urg.tailReg } } : State).decodeUrgent := by
  show execUrgentDoorbellSample s = _
  unfold execUrgentDoorbellSample
  simp only [hup, hen, Bool.not_true, Bool.false_eq_true, or_self, if_false]

theorem decodeUrgent_idle (h : s.urg.holding.isSome ∨ s.urg.head = s.urg.sampled) : s.decodeUrgent = s := by
  unfold State.decodeUrgent
  dsimp only
  rw [if_pos h]

end

/-! ### The control path -/

section
variable {s : State} {a : Nat}

/-- The state with the control ring's head moved past an entry. -/
def ctlFetched (s : State) : State :=
  { s with ctl := { s.ctl with sq := { s.ctl.sq with head := ringNext s.ctl.sq.log2 s.ctl.sq.head } } }

theorem fetchControl_none (n : Nat) (h : s.ctl.sq.waiting = 0) : State.fetchControl n s = s := by
  cases n with
  | zero => rfl
  | succ n =>
    unfold State.fetchControl
    rw [if_pos (.inr (.inr (.inr h)))]

theorem fetchControl_one {n : Nat} (hflight : s.controlFlight < 16) (hen : s.ctl.en = true) (hlive : s.ctl.live = true)
    (hwaiting : s.ctl.sq.waiting ≠ 0) (hnone : s.fetchControlOne.ctl.sq.waiting = 0) :
    State.fetchControl (n + 1) s = s.fetchControlOne := by
  rw [State.fetchControl, if_neg (by simp [Nat.not_le.2 hflight, hen, hlive, hwaiting])]
  exact fetchControl_none n hnone

theorem fetchControlOne_readable (ha : a = s.ctl.sq.base + 64 * s.ctl.sq.head) (hok : s.hostOk 0 a 64 = true) :
    s.fetchControlOne = (ctlFetched s).admitEntry .control (s.readLoc (hostLoc 0 a) 64) .held := by
  subst ha
  unfold State.fetchControlOne
  simp only [hok, if_true]
  rfl

end

theorem exec_fetch_control {s : State} (hup : s.up = true) :
    exec (.entryFetch .control) s = .next (State.fetchControl 16 s) := by
  show execEntryFetch .control s = _
  unfold execEntryFetch
  simp only [hup, Bool.not_true, Bool.false_eq_true, if_false]

/-! ### Coalescing -/

theorem exec_coalesceTimer {s : State} {b k : Nat} (hdue : (nth (s.bay b).cqs k).due s.now = true) :
    exec (.coalesceTimer (.bay b k)) s = .next ((s.setCq b k CompQ.rested).bayIrq b (nth (s.bay b).cqs k).vector) := by
  show execCoalesceTimer (.bay b k) s = _
  unfold execCoalesceTimer
  simp only [hdue, if_true]

theorem due_rested (q : CompQ) (now : Nat) : q.rested.due now = false := by
  simp [CompQ.due, CompQ.rested]

/-! ### One entry fetched -/

theorem updNth_congr {α : Type} [Inhabited α] {l : List α} {i : Nat} {f g : α → α} (h : f (nth l i) = g (nth l i)) :
    updNth l i f = updNth l i g := by
  refine List.ext_getElem (by simp [updNth]) fun n hn _ => ?_
  simp only [updNth, List.getElem_modify]
  split
  · rename_i hin
    subst hin
    have hlt : i < l.length := by simpa [updNth] using hn
    simpa [nth, List.getD, hlt] using h
  · rfl

theorem setSq_congr {s : State} {b q : Nat} {f g : SubQ → SubQ} (h : f (nth (s.bay b).sqs q) = g (nth (s.bay b).sqs q)) :
    s.setSq b q f = s.setSq b q g := by
  unfold State.setSq State.setBay
  rw [updNth_congr]
  show ({ s.bay b with sqs := updNth (s.bay b).sqs q f } : Bay) = { s.bay b with sqs := updNth (s.bay b).sqs q g }
  rw [updNth_congr h]

/-- A bay's entry that waits alone and passes every check is admitted, held (R52, R154, R165, R213). -/
theorem fetch_admits_bay {s : State} {b q : Nat} {r : Nat × Nat} {i : Instr} {a : Nat} {x : SubQ} (hup : s.up = true)
    (hparts : PartsCounted s) (hx : x = nth (s.bay b).sqs q) (ha : a = x.base + 64 * x.head) (hb : b < 16)
    (hwants : s.wantsFetch b = true) (halone : ∀ y, y ≠ b → s.wantsFetch y = false)
    (hnext : s.nextQueue b = some (q, r)) (hpending : (s.bay b).fetchable q = 1) (hok : s.rangeOk b .rd a 64 = true)
    (hgood : s.rangeBad b .rd a 64 = false)
    (hnum : CommandsNumbered s)
    (hi : ((granted s b r).setSq b q (fun y => { y with head := ringNext x.log2 x.head })).admission (.bay b q)
      (decodeHdr (.bay b q) s.nextAdm (s.readBay b a 64)) (s.readBay b a 64) = .inr i) :
    ∃ t c, exec (.entryFetch .bays) s = .next t ∧ SameMemory s t ∧ t.nextAdm = s.nextAdm + 1 ∧
      (nth (t.bay b).sqs q).head = ringNext x.log2 x.head ∧ t.slot? s.nextAdm = some c ∧ c.instr = i ∧ c.phase = .held ∧
      c.ftz = (s.bay b).bind.ftz ∧ c.stamp = s.version := by
  obtain ⟨-, hbelow, -⟩ := hnum
  obtain ⟨hruns, hslots⟩ := wantsFetch_parts hwants
  obtain ⟨hsqs, -⟩ := hparts.bayCounted hb
  have hlen : b < s.bays.length := by rw [hparts.1]; exact hb
  have hq : q < (s.bay b).sqs.length := by rw [hsqs]; exact nextQueue_lt hnext
  have hone := fetchOne_readable (s := granted s b r) (hx ▸ ha) hok hgood
  rw [setSq_congr (g := fun y => { y with head := ringNext x.log2 x.head }) (by rw [hx]; rfl)] at hone
  obtain ⟨v, c, hnotes, -, hadmit, hslot, hinstr, hphase, hftz, hstamp⟩ := admitEntry_admits
    (s := (granted s b r).setSq b q (fun y => { y with head := ringNext x.log2 x.head })) (ph := .held) hbelow hi
  replace hone := hone.trans hadmit
  obtain ⟨hsqsv, hregsv, -⟩ := hnotes.kept b
  have hring : nth (v.bay b).sqs q = { x with head := ringNext x.log2 x.head } := by
    rw [hsqsv, hx]
    exact sq_setSq (s := granted s b r) _ hlen hq
  have hnone : (((granted s b r).fetchOne b q).bay b).fetchable q = 0 := by
    rw [hone]
    exact fetchable_ringNext (z := v.bay b) (hregsv.trans (bay_setBay_kept Bay.regs (fun _ => by rfl) (granted s b r) b b))
      (hring.trans (by rw [hx]; rfl)) hpending
  have hwaits : ((granted s b r).bay b).fetchable q ≠ 0 := hpending.trans_ne Nat.one_ne_zero
  have hexec : exec (.entryFetch .bays) s = .next (v.addSlot c) := by
    rw [exec_fetch_alone hup hb hwants halone hnext, fetchMany_one (s := granted s b r) hslots hwaits hruns hnone, hone]
  have hrest := hnotes.rest
  refine ⟨v.addSlot c, c, hexec, ?_, ?_, congrArg SubQ.head hring, hslot, hinstr, hphase, ?_, hstamp⟩
  · rw [hrest]
    exact .refl s
  · rw [hrest]
    rfl
  · rw [hftz]
    exact congrArg BindRec.ftz (bay_setBay_kept Bay.bind (fun _ => by rfl) (granted s b r) b b)

/-- A control entry that waits alone and passes every check is admitted, held (R165, R173). -/
theorem fetch_admits_control {s : State} {i : Instr} {a : Nat} (hup : s.up = true)
    (ha : a = s.ctl.sq.base + 64 * s.ctl.sq.head) (hflight : s.controlFlight < 16) (hen : s.ctl.en = true)
    (hlive : s.ctl.live = true) (hwaiting : s.ctl.sq.waiting = 1) (hok : s.hostOk 0 a 64 = true) (hnum : CommandsNumbered s)
    (hi : (ctlFetched s).admission .control (decodeHdr .control s.nextAdm (s.readLoc (hostLoc 0 a) 64))
      (s.readLoc (hostLoc 0 a) 64) = .inr i) :
    ∃ t c, exec (.entryFetch .control) s = .next t ∧ SameMemory s t ∧ t.bays = s.bays ∧ t.nextAdm = s.nextAdm + 1 ∧
      t.ctl.sq.head = ringNext s.ctl.sq.log2 s.ctl.sq.head ∧ t.slot? s.nextAdm = some c ∧ c.instr = i ∧
      c.phase = .held ∧ c.stamp = s.version := by
  obtain ⟨-, hbelow, -⟩ := hnum
  obtain ⟨v, c, -, hsame, hadmit, hslot, hinstr, hphase, -, hstamp⟩ :=
    admitEntry_admits (s := ctlFetched s) (ph := .held) hbelow hi
  have hv := hsame rfl
  subst hv
  have hone : s.fetchControlOne = (ctlFetched s).addSlot c := (fetchControlOne_readable ha hok).trans hadmit
  have hnone : s.fetchControlOne.ctl.sq.waiting = 0 := by
    rw [hone]
    exact waiting_ringNext hwaiting
  have hexec : exec (.entryFetch .control) s = .next ((ctlFetched s).addSlot c) := by
    rw [exec_fetch_control hup, fetchControl_one hflight hen hlive (hwaiting.trans_ne Nat.one_ne_zero) hnone, hone]
  exact ⟨_, c, hexec, .refl s, rfl, rfl, rfl, hslot, hinstr, hphase, hstamp⟩

/-- Settles O36: each of the Joiner's steps by its own case above. -/
theorem joinerActs : Obligations.JoinerActs := by
  unfold Obligations.JoinerActs
  intro s hparts hup
  have hhold : s.dev.hold = 0 := by
    unfold State.up at hup
    simp only [Bool.and_eq_true, beq_iff_eq] at hup
    exact hup.1
  refine ⟨fun b q r hb hwants halone hnext => exec_fetch_alone hup hb hwants halone hnext, ?_, exec_fetch_control hup, ?_,
    fun c b hs hheld hbay hmay hpath => ⟨fun hnone => ?_, fun hok hno => ⟨fun herr => ?_, fun herr hnamed => ?_⟩⟩,
    fun c hs hheld hbay hmay => exec_dispatch_control hup hs hheld hbay hmay, ?_, ?_, fun hen hidle => ?_, ?_⟩
  · intro b q r i x e u hb hwants halone hnext hpending hok hgood hnum hi
    exact fetch_admits_bay hup hparts rfl rfl hb hwants halone hnext hpending hok hgood hnum hi
  · intro i x e u hflight hen hlive hwaiting hok hnum hi
    exact fetch_admits_control hup rfl hflight hen hlive hwaiting hok hnum hi
  · obtain ⟨hmem, hcmds⟩ := start_runs hbay hnone hpath
    have hslots : ∀ n, (s.start c).slot? n = 
        (s.setSlot c.adm (fun c => { c with phase := .running })).slot? n := fun n => by
      unfold State.slot?
      rw [hcmds]
    refine ⟨_, exec_dispatch_bay hup hs hheld hbay hmay, hmem, ?_, fun n hn => ?_⟩
    · have hset := s.slot?_setSlot c.adm (fun c => { c with phase := .running }) fun _ => rfl
      rw [hs] at hset
      exact (hslots _).trans hset
    · exact (hslots n).trans (slot?_setSlot_other s (f := fun c => { c with phase := .running }) (fun _ => rfl) hn)
  · refine ⟨_, exec_dispatch_bay hup hs hheld hbay hmay, ?_⟩
    rw [start_ends hbay (atDispatch_aborted hok herr)]
    exact ended_finishNat hs (by simp [Slot.finished?, hheld]) .aborted 0
  · refine ⟨_, exec_dispatch_bay hup hs hheld hbay hmay, ?_⟩
    rw [start_ends hbay (atDispatch_rebound hok herr hnamed)]
    exact ended_finishNat hs (by simp [Slot.finished?, hheld]) .rebound 0
  · intro b k c _ hb hk hnext q x hlive hroom hadmin
    have hlen : b < s.bays.length := by rw [hparts.1]; exact hb
    obtain ⟨-, hcqs, -⟩ := hparts.bayCounted hb
    obtain ⟨i, horg⟩ := org_of_nextPost hnext
    obtain ⟨now, hcq⟩ := cq_release_posted hlen (hcqs.symm ▸ hk) horg hadmin
    refine ⟨_, exec_completionPost hhold hnext hlive hroom horg, slot?_release .., ?_, ?_, ?_⟩
    · simp only [x, horg]
      exact (posted_frame s b k c i).trans (sameMemory_release _ c)
    · rw [hcq, after_tail]
      rfl
    · rw [hcq, after_phase]
      rfl
  · intro b k hk hb hdue hvec
    have hlen : b < s.bays.length := by rw [hparts.1]; exact hb
    obtain ⟨-, hcqs, -⟩ := hparts.bayCounted hb
    refine ⟨_, exec_coalesceTimer hdue, ?_, ?_⟩
    · unfold State.bayIrq
      rw [if_pos hvec]
      rfl
    · have hcq := cq_setCq CompQ.rested hlen (hcqs.symm ▸ hk)
      unfold State.bay at hcq ⊢
      rw [State.bayIrq_bays, hcq, due_rested]
  · rw [exec_urgentSample hup hen, decodeUrgent_idle hidle]
  · intro hen hfree hnew
    obtain ⟨hmem, hadm, hsampled, hhead⟩ :=
      decodeUrgent_taken (s := { s with urg := { s.urg with sampled := s.urg.tailReg } }) hfree hnew
    obtain ⟨hmem', hurg, hadm'⟩ := admitEntry_urgent
      ({ s with urg := { s.urg with sampled := s.urg.tailReg, head := (s.urg.head + 1) % 64 } })
      (Mem.read s.urgRing (64 * s.urg.head) 64) .running
    refine ⟨_, exec_urgentSample hup hen, ?_, ?_, hadm.trans hadm', hmem'.trans hmem⟩
    · exact hsampled.trans (congrArg Urg.sampled hurg)
    · exact hhead.trans (congrArg Urg.head hurg)

end Sys2Proof
end

section
/-! Admin and diagnostic commands: an output buffer written whole, NOP, IDENTIFY, GET_LOG and COUNTER_SET (R161, R173,
R178, R350). -/
namespace Sys2Proof
open Machine

/-! ### Output buffers -/

/-- A buffer that may be written and has no line to skip is written whole (R173, R339). -/
theorem putOut_whole {s : State} {o : Origin} {a : Nat} {bs : List Byte} (hok : s.outOk o a bs.length = true)
    (hskip : NoSkip s o a bs.length) (r : Nat) : s.putOut o a bs r = (s.outWrite o a bs, .ok, r) := by
  unfold State.putOut
  rw [hok]
  cases o with
  | bay b q => exact Prod.ext rfl (Prod.ext (outStatus_one hskip .ok) rfl)
  | control => rfl
  | urgent => rfl

theorem KeepsRest.outWrite (s : State) (o : Origin) (a : Nat) (bs : List Byte) : KeepsRest s (s.outWrite o a bs) := by
  cases o with
  | bay b q => exact .writeBay ..
  | control => exact .writeLoc s (hostLoc 0 a) bs
  | urgent => exact .writeLoc s (hostLoc 0 a) bs

theorem slot?_outWrite (s : State) (o : Origin) (a : Nat) (bs : List Byte) (adm : Nat) :
    (s.outWrite o a bs).slot? adm = s.slot? adm := (KeepsRest.outWrite ..).slot? adm

/-! ### A command that completes -/

/-- A running command completes in the state that its operation leaves. -/
theorem Running.exec_completes {s u : State} {c : Slot} {i : Instr} {h : Hdr} {f : State → Eff} {g : Slot → State}
    {st : Status} {r : Nat} (hr : Running s c i) (hexec : exec i s = .next (s.onRunning i g)) (hi : hdrOf i = some h)
    (hg : g c = s.complete h.adm f) (hf : f s = (u, st, r)) : exec i s = .next (u.finishNat c.adm st r) := by
  rw [hexec, hr.onRunning hi g, hg, hr.adm_eq hi]
  unfold State.complete
  rw [hf]

/-- A running command that writes a buffer whole ends OK, and changes no bay but by its end. -/
theorem Running.writes_out {s : State} {c : Slot} {i : Instr} {h : Hdr} {g : Slot → State} {f : State → Eff}
    {a r : Nat} {bs : List Byte} (hr : Running s c i) (hexec : exec i s = .next (s.onRunning i g)) (hi : hdrOf i = some h)
    (hg : g c = s.complete h.adm f) (hf : f s = s.putOut h.org a bs r) (hok : s.outOk h.org a bs.length = true)
    (hskip : NoSkip s h.org a bs.length) :
    ∃ t, exec i s = .next t ∧ Ended t c .ok r ∧ SameMemory (s.outWrite h.org a bs) t ∧ CoresKept s t := by
  obtain ⟨t, ht, hended, hmem, hcores⟩ :=
    hr.completes hexec hi hg (hf.trans (putOut_whole hok hskip r)) (slot?_outWrite ..)
  exact ⟨t, ht, hended, hmem, CoresKept.trans (.of_eq (KeepsRest.outWrite ..).bays) hcores⟩

/-! ### GET_LOG -/

section
variable (s : State) (h : Hdr) (log bay : Nat)

/-- A log beyond 0 and 1 is a bay's: the queue's own, or the one named (R350). -/
theorem logOf_bayLog : s.logOf h (log + 2) bay = (s.bay (logBay h bay)).log := by
  unfold State.logOf logBay
  cases h.org <;> rfl

theorem clearLog_bayLog :
    s.clearLog h (log + 2) bay = s.setBay (logBay h bay) (fun y => { y with log := y.log.clear s.now }) := by
  unfold State.clearLog logBay
  cases h.org <;> rfl

/-- The end of a command leaves every log. -/
theorem logOf_finishNat (adm : Nat) (st : Status) (r : Nat) :
    (s.finishNat adm st r).logOf h log bay = s.logOf h log bay := by
  match log with
  | 0 | 1 =>
    unfold State.finishNat State.logOf
    rw [State.finish_frame]
    rfl
  | n + 2 => rw [logOf_bayLog, logOf_bayLog, State.finish_cores s adm st r]

theorem logOf_outWrite (o : Origin) (a : Nat) (bs : List Byte) :
    (s.outWrite o a bs).logOf h log bay = s.logOf h log bay := by
  rw [KeepsRest.outWrite s o a bs]
  rfl

/-- CLEAR empties the log that the command names (R350). -/
theorem logOf_clearLog (hb : logBay h bay < s.bays.length) :
    (s.clearLog h log bay).logOf h log bay = (s.logOf h log bay).clear s.now := by
  match log with
  | 0 | 1 => rfl
  | n + 2 => rw [clearLog_bayLog, logOf_bayLog, logOf_bayLog, State.bay_setBay_self _ _ _ hb]

theorem slot?_clearLog (adm : Nat) : (s.clearLog h log bay).slot? adm = s.slot? adm := by
  unfold State.clearLog
  split <;> rfl

theorem sameMemory_clearLog : SameMemory s (s.clearLog h log bay) := by
  unfold State.clearLog
  split <;> exact .refl s

end

/-- The operation of a GET_LOG whose buffer is written whole: the bytes, and with CLEAR an empty log. -/
theorem getLogEff_whole {s : State} {h : Hdr} {log bay dst n off : Nat} (clear : Bool)
    (hok : s.outOk h.org dst (slice (logBytes log (logBay h bay) (s.logOf h log bay)) off n).length = true)
    (hskip : NoSkip s h.org dst (slice (logBytes log (logBay h bay) (s.logOf h log bay)) off n).length) :
    let all := logBytes log (logBay h bay) (s.logOf h log bay)
    let out := slice all off n
    let u := s.outWrite h.org dst out
    State.getLogEff h log clear bay dst n off s =
      (if clear then u.clearLog h log bay else u, .ok, out.length + 2 ^ 32 * all.length) := by
  unfold State.getLogEff
  dsimp only
  rw [putOut_whole hok hskip]
  simp [Status.success]

/-! ### COUNTER_SET -/

/-- A command without a signal leaves the counters of its bay (R161). -/
theorem counters_finishNat_unsignalled {s : State} {c : Slot} {b : Nat} (hs : s.slot? c.adm = some c)
    (hf : c.finished? = false) (hbay : c.bay? = some b) (hsig : c.hdr.signal = none) (hno : NoDelete s b) (st : Status)
    (r : Nat) : ((s.finishNat c.adm st r).bay b).counters = (s.bay b).counters := by
  obtain ⟨q, horg⟩ := bay?_eq_some hbay
  obtain ⟨hsqs, -⟩ := RingsKept.ended s c.adm (postedStatus c st) (BitVec.ofNat 64 r) b
  unfold State.finishNat State.finish
  rw [hs]
  change ((((s.markFinished c.adm (postedStatus c st) _).dropIfSilent c.adm).settle c.hdr.org).bay b).counters = _
  rw [horg]
  unfold State.settle
  dsimp only
  rw [settleQueue_of_noDelete (by rw [hsqs]; exact hno q), counters_settleAdmin, State.dropIfSilent_frame]
  unfold State.markFinished
  rw [hs]
  simp only [hf, hbay, hsig, Bool.false_eq_true, if_false]
  rfl

theorem success_postedStatus_ok (c : Slot) : (postedStatus c .ok).success = true := by
  unfold postedStatus
  split <;> rfl

/-- A command that succeeds counts one more in its SIGNAL_CTR, and leaves every other counter (R161). -/
theorem counter_finishNat_ok {s : State} {c : Slot} {b k : Nat} (hs : s.slot? c.adm = some c) (hf : c.finished? = false)
    (hbay : c.bay? = some b) (hb : b < s.bays.length) (hk : k < (s.bay b).counters.length) (hno : NoDelete s b) (r : Nat) :
    let x := nth (s.bay b).counters k
    nth ((s.finishNat c.adm .ok r).bay b).counters k = ⟨if c.hdr.signal = some k then x.value + 1 else x.value, x.err⟩ := by
  intro x
  cases hsig : c.hdr.signal with
  | none =>
    rw [counters_finishNat_unsignalled hs hf hbay hsig hno, if_neg (by simp)]
  | some j =>
    rw [counters_finishNat hs hf hbay hsig hb hno]
    by_cases hj : k = j
    · subst hj
      rw [nth_updNth_self _ _ hk, success_postedStatus_ok, if_pos rfl]
      simp [x]
    · rw [nth_updNth_other _ _ hj, if_neg (by simpa using Ne.symm hj)]

/-- A COUNTER_SET changes its counter and has what waits on it tested again, then ends with VALUE before it. -/
theorem Running.exec_counterSet {s : State} {c : Slot} {h : Hdr} {b ctr : Nat} {add clr : Bool} {v : W32}
    (hr : Running s c (.counterSet h ctr add clr v)) (hbay : c.bay? = some b) :
    exec (.counterSet h ctr add clr v) s = .next (((s.setCounter b ctr
      (fun k => ⟨if add then k.value + v else v, k.err && !clr⟩)).recheck b ctr).finishNat c.adm .ok
        (nth (s.bay b).counters ctr).value.toNat) := by
  refine congrArg _ ((hr.onRunning rfl _).trans ?_)
  rw [hbay, hr.adm_eq rfl]

/-- A change of a counter, and the tests that follow it, leave that counter so. -/
theorem counter_setCounter {s : State} {b ctr : Nat} (f : Counter → Counter) (hb : b < s.bays.length) :
    (((s.setCounter b ctr f).recheck b ctr).bay b).counters = updNth (s.bay b).counters ctr f := by
  refine (bay_setBay_kept Bay.counters (fun _ => by rfl)
    { s.setCounter b ctr f with cmds := ((s.setCounter b ctr f).recheck b ctr).cmds } b b).trans ?_
  exact congrArg Bay.counters (State.bay_setBay_self s b _ hb)

/-- The rings of the bays stay. -/
theorem RingsKept.setCounter (s : State) (b ctr : Nat) (f : Counter → Counter) :
    RingsKept s ((s.setCounter b ctr f).recheck b ctr) := (RingsKept.refl s).setBay.recheck

theorem Running.hdr_eq {s : State} {c : Slot} {i : Instr} {h : Hdr} (hr : Running s c i) (hi : hdrOf i = some h) :
    c.hdr = h := by
  obtain ⟨-, -, rfl⟩ := hr
  unfold Slot.hdr
  rw [hi]
  rfl

section
variable {s : State} {c : Slot} {h : Hdr} {b : Nat}

/-- A GET_LOG ends with its buffer written; with CLEAR the log is empty when it has ended (R350). -/
theorem Running.getLog_ends {log bay dst n off : Nat} {clear : Bool} (hr : Running s c (.getLog h log clear bay dst n off))
    (hb : logBay h bay < s.bays.length)
    (hok : s.outOk h.org dst (slice (logBytes log (logBay h bay) (s.logOf h log bay)) off n).length = true)
    (hskip : NoSkip s h.org dst (slice (logBytes log (logBay h bay) (s.logOf h log bay)) off n).length) :
    let all := logBytes log (logBay h bay) (s.logOf h log bay)
    let out := slice all off n
    ∃ t, exec (.getLog h log clear bay dst n off) s = .next t ∧ Ended t c .ok (out.length + 2 ^ 32 * all.length) ∧
      SameMemory (s.outWrite h.org dst out) t ∧
      t.logOf h log bay = if clear then (s.logOf h log bay).clear s.now else s.logOf h log bay := by
  intro all out
  let u := s.outWrite h.org dst out
  have hu : KeepsRest s u := KeepsRest.outWrite ..
  have hlen : u.bays.length = s.bays.length := congrArg List.length hu.bays
  have hs : u.slot? c.adm = some c := (slot?_outWrite ..).trans hr.1
  refine ⟨_, hr.exec_completes rfl rfl rfl (getLogEff_whole clear hok hskip), ?_, ?_, ?_⟩
  · refine ended_finishNat ?_ hr.unfinished ..
    split
    · exact (slot?_clearLog ..).trans hs
    · exact hs
  · refine SameMemory.trans ?_ (State.finish_memory ..)
    split
    · exact sameMemory_clearLog ..
    · exact .refl _
  · have hkept : u.logOf h log bay = s.logOf h log bay := logOf_outWrite ..
    have hnow : u.now = s.now := congrArg (·.clock.site) hu
    rw [logOf_finishNat]
    split
    · rw [logOf_clearLog _ _ _ _ (show _ < u.bays.length by omega), hkept, hnow]
    · exact hkept

/-- A COUNTER_SET ends with VALUE before it, and leaves the counter as written, its own signal counted (R160, R161). -/
theorem Running.counterSet_ends {ctr : Nat} {add clr : Bool} {v : W32} (hr : Running s c (.counterSet h ctr add clr v))
    (hbay : c.bay? = some b) (hb : b < s.bays.length) (hctr : ctr < (s.bay b).counters.length) (hno : NoDelete s b) :
    let old := nth (s.bay b).counters ctr
    let new : W32 := if add then old.value + v else v
    ∃ t, exec (.counterSet h ctr add clr v) s = .next t ∧ Ended t c .ok old.value.toNat ∧ SameMemory s t ∧
      nth (t.bay b).counters ctr = ⟨if h.signal = some ctr then new + 1 else new, old.err && !clr⟩ := by
  intro old new
  let f : Counter → Counter := fun k => ⟨if add then k.value + v else v, k.err && !clr⟩
  let u := (s.setCounter b ctr f).recheck b ctr
  have hlen : b < u.bays.length := by
    unfold u State.recheck State.setCounter
    simpa using hb
  have hu : (u.bay b).counters = updNth (s.bay b).counters ctr f := counter_setCounter f hb
  have hs : u.slot? c.adm = some c :=
    State.slot?_recheck (s.setCounter b ctr f) b ctr c.adm c hr.1 (by simp [hr.2.1])
  have hno' : NoDelete u b := fun q => by
    obtain ⟨hsqs, -⟩ := RingsKept.setCounter s b ctr f b
    rw [hsqs]
    exact hno q
  have hend := counter_finishNat_ok hs hr.unfinished hbay (k := ctr) hlen (by rw [hu, length_updNth]; exact hctr) hno'
    old.value.toNat
  rw [hu, nth_updNth_self _ _ hctr, hr.hdr_eq rfl] at hend
  exact ⟨_, hr.exec_counterSet hbay, ended_finishNat hs hr.unfinished .ok _, State.finish_memory u .., hend⟩

end

/-- Settles O18: each command ends with one write of its buffer, or one change of a counter; a cleared log stays cleared
by the command's end. -/
theorem adminCommandsComplete : Obligations.AdminCommandsComplete := by
  unfold Obligations.AdminCommandsComplete
  intro s c h hparts
  have hbays : s.bays.length = 16 := hparts.1
  refine ⟨fun hr => ?_, fun bay dst => ?_, fun log clear bay dst n off => ?_, fun ctr add clr v b hr hbay hb hctr hno => ?_⟩
  · exact hr.completes rfl rfl (f := fun s => (s, .ok, 0)) rfl rfl rfl
  · intro bs hr hok hskip
    exact hr.writes_out rfl rfl rfl rfl hok hskip
  · intro all out hr hok hskip hlog
    exact hr.getLog_ends (hbays ▸ hlog) hok hskip
  · exact hr.counterSet_ends hbay (hbays ▸ hb) (hparts.counters hb ▸ hctr) hno

end Sys2Proof
end

section
/-! Diagnostic commands: TELEMETRY_READ, SEASON_REPORT, FLOORPLAN_READ and LINK_TEST (R193, R348, R434, R435). -/
namespace Sys2Proof
open Machine

/-! ### The snapshot's instant -/

/-- A snapshot is taken on a state that differs in its clock only (R16, R435). -/
theorem nextInstant_clock (s : State) : s.nextInstant = { s with clock := s.nextInstant.clock } := by
  have htick : ∀ u : State, tick u = { u with clock := (tick u).clock } := fun u => by
    unfold tick
    split <;> rfl
  unfold State.nextInstant
  dsimp only
  split
  · rw [htick (tick s), htick s]
  · exact htick s

/-- The state on which a snapshot is taken: another clock, and free values that it may have used. -/
def snapshot (s : State) (k : Clock) (n : Nat) : State := { s with clock := k, free := n }

section
variable {s : State} (k : Clock) (n : Nat)

theorem WritesAlike.snapshot (b : Nat) : WritesAlike s (snapshot s k n) b := ⟨.refl s, fun _ _ _ => rfl, rfl⟩

theorem outOk_snapshot (o : Origin) (a m : Nat) : (snapshot s k n).outOk o a m = s.outOk o a m := by
  cases o with
  | bay b q => exact (WritesAlike.snapshot k n b).rangeOk .wr a m
  | control => rfl
  | urgent => rfl

theorem noSkip_snapshot {o : Origin} {a m : Nat} (h : NoSkip s o a m) : NoSkip (snapshot s k n) o a m := by
  cases o with
  | bay b q => exact ((WritesAlike.snapshot k n b).rangeSkips .wr a m).trans h
  | control => trivial
  | urgent => trivial

/-- The clock and the free values bear on no memory. -/
theorem sameMemory_outWrite_snapshot (o : Origin) (a : Nat) (bs : List Byte) :
    SameMemory (s.outWrite o a bs) ((snapshot s k n).outWrite o a bs) := by
  cases o with
  | bay b q => exact ((WritesAlike.snapshot k n b).writeBay ..).mem
  | control => exact SameMemory.writeLoc (t := snapshot s k n) (.refl s) (hostLoc 0 a) bs
  | urgent => exact SameMemory.writeLoc (t := snapshot s k n) (.refl s) (hostLoc 0 a) bs

end

/-- The operation of a TELEMETRY_READ whose buffer is written whole (R434, R435). -/
theorem telemetryEff_whole {s : State} {h : Hdr} {w dst n : Nat} (hcheck : telemetryCheck h w = none)
    (hok : s.outOk h.org dst ((s.nextInstant.window w).take n).length = true)
    (hskip : NoSkip s h.org dst ((s.nextInstant.window w).take n).length) :
    let out := (s.nextInstant.window w).take n
    ∃ k m, State.telemetryEff h w dst n s = ((snapshot s k m).outWrite h.org dst out, .ok, out.length) := by
  intro out
  let m := if 176 ≤ w then s.free + 1 else s.free
  refine ⟨s.nextInstant.clock, m, ?_⟩
  have hu : (if 176 ≤ w then s.nextInstant.useFree 1 else s.nextInstant) = snapshot s s.nextInstant.clock m := by
    rw [nextInstant_clock s]
    unfold m
    split <;> rfl
  unfold State.telemetryEff
  rw [hcheck]
  dsimp only
  rw [hu]
  exact putOut_whole ((outOk_snapshot ..).trans hok) (noSkip_snapshot _ _ hskip) _

/-! ### LINK_TEST -/

/-- LINK_TEST of a port that nothing uses: the lane that it reports is one of the port's (log 24). -/
theorem linkTestEff_idle {s : State} {port : Nat} (hidle : s.portInUse port = false) :
    ∃ r, State.linkTestEff port s = (s.useFree 1, .ok, r) ∧ r / 2 ^ 32 < (if port < 16 then 17 else 8) := by
  have hlanes : 0 < (if port < 16 then 17 else 8) := by split <;> decide
  unfold State.linkTestEff
  rw [hidle]
  refine ⟨_, rfl, ?_⟩
  rw [Nat.add_mul_div_right _ _ (by decide), Nat.div_eq_of_lt (Nat.mod_lt _ (by decide)), Nat.zero_add]
  exact Nat.mod_lt _ hlanes

/-- Settles O43: each report is one write of its buffer; a snapshot's clock and a free value bear on no memory. -/
theorem diagnosticCommandsComplete : Obligations.DiagnosticCommandsComplete := by
  unfold Obligations.DiagnosticCommandsComplete
  intro s c h _
  refine ⟨fun w dst n => ?_, fun dst n => ?_, fun b dst n => ?_, fun port pat ms hr hidle => ?_⟩
  · intro out hr hcheck hok hskip
    obtain ⟨k, m, heff⟩ := telemetryEff_whole hcheck hok hskip
    obtain ⟨t, hexec, hended, hmem, -⟩ := hr.completes rfl rfl rfl heff (slot?_outWrite ..)
    exact ⟨t, hexec, hended, (sameMemory_outWrite_snapshot ..).trans hmem⟩
  · intro out hr hok hskip
    obtain ⟨t, hexec, hended, hmem, -⟩ := hr.writes_out rfl rfl rfl rfl hok hskip
    exact ⟨t, hexec, hended, hmem⟩
  · intro ls out hr hbay hok hskip
    obtain ⟨t, hexec, hended, hmem, -⟩ := hr.writes_out (f := State.floorplanEff h b dst n) rfl rfl (by rw [hbay]) rfl hok hskip
    exact ⟨t, hexec, hended, hmem⟩
  · obtain ⟨r, heff, hlane⟩ := linkTestEff_idle hidle
    obtain ⟨t, hexec, hended, hmem, -⟩ := hr.completes rfl rfl rfl heff rfl
    exact ⟨t, r, hexec, hended, hmem, hlane⟩

end Sys2Proof
end

section
/-! Key slots, cipher, digest and entropy: what the statement claims of the other bays at a KEY_LOAD does not hold in every
state. -/
namespace Sys2Proof
open Machine

/-! ### A queue whose deletion is noted for another bay's command

Bay 0's queue 1 is being deleted, and the command noted as its QUEUE_DELETE is one of bay 1, which signals a counter of bay
1. The KEY_LOAD is the last command of the queue, and posts nothing (SUPPRESS): its end settles the queue, and so ends that
QUEUE_DELETE, whose signal counts in bay 1 (R148, R157, R161). No run comes to such a state, since a QUEUE_DELETE deletes
queues of its own bay; but the statement quantifies over every state whose parts are counted, and its clause on the other
bays has no hypothesis on the queues that wait to be deleted. -/

def lastLoad : Slot := {
  instr := .keyLoad ⟨.bay 0 1, 0, false, false, true, false, 0, 0, none, none⟩ 0 0 (2 ^ 47), phase := .running, ftz := false
  stamp := 0, errSample := none, corrected := false, index := 0, started := 0, work := 0, quiet := false, data := []
  retries := [] }

def strayDelete : Slot := { lastLoad with
  instr := .queueDelete ⟨.bay 1 0, 1, false, false, false, false, 0, 0, none, some 0⟩ 0 1, phase := .active }

def deletedFromOtherBay : State := { State.reset with cmds := [lastLoad, strayDelete], nextAdm := 2 }.setSq 0 1
  (fun q => { q with live := true, deleting := some 1 })

/-- The state has its parts, and its commands are numbered. -/
theorem deletedFromOtherBay_counted : PartsCounted deletedFromOtherBay ∧ CommandsNumbered deletedFromOtherBay := by
  refine ⟨PartsCounted.setBay (PartsCounted.of_lengths .reset) fun y hy => hy.of_lengths (length_updNth ..), ?_⟩
  decide +kernel

/-- The KEY_LOAD counts a signal in bay 1. -/
theorem lastLoad_signals_bay1 : ∃ u, exec lastLoad.instr deletedFromOtherBay = .next u ∧
    nth (deletedFromOtherBay.bay 1).counters 0 = ⟨0, false⟩ ∧ nth (u.bay 1).counters 0 = ⟨1, false⟩ :=
  ⟨_, rfl, by decide +kernel, by decide +kernel⟩

/-- Refutes O41: a KEY_LOAD that is the last command of a queue ends the QUEUE_DELETE noted for the queue, and where that is
a command of bay 1 its signal changes bay 1, which the statement says stays. -/
theorem not_securityCommandsComplete : ¬ Obligations.SecurityCommandsComplete := by
  unfold Obligations.SecurityCommandsComplete
  intro h
  obtain ⟨hparts, -⟩ := deletedFromOtherBay_counted
  obtain ⟨hload, -⟩ := h deletedFromOtherBay lastLoad lastLoad.hdr 0 hparts rfl (by decide)
  obtain ⟨hgo, -⟩ := hload 0 0 (2 ^ 47) (.gcm (zeros 32)) (by decide) (by decide +kernel) rfl (by decide +kernel) (by decide +kernel)
    (by decide +kernel)
  obtain ⟨t, hexec, -, -, -, hothers⟩ := hgo rfl (by decide +kernel)
  obtain ⟨u, hu, hbefore, hafter⟩ := lastLoad_signals_bay1
  cases hexec.symm.trans hu
  rw [hothers 1 (by decide), hbefore] at hafter
  exact absurd hafter (by decide)

end Sys2Proof
end

section
/-! RESUME_BAY (R194, R199), and the fetches that are due after it (R153). -/
namespace Sys2Proof
open Machine

/-! ### Bay states -/

/-- An event of a bay changes no more than its BAY_EVENT bits (R431). -/
theorem bay_bayEvent (s : State) (b i b' : Nat) :
    ∃ e, (s.bayEvent b i).bay b' = { s.bay b' with regs := { (s.bay b').regs with event := e } } := by
  let f : Bay → Bay := fun y => { y with regs := { y.regs with event := y.regs.event ||| BitVec.ofNat 6 (2 ^ i) } }
  have hset : ∃ e, (s.setBay b f).bay b' = { s.bay b' with regs := { (s.bay b').regs with event := e } } := by
    rcases State.bay_setBay s b b' f with ⟨h, -⟩ | h
    · exact ⟨_, h⟩
    · exact ⟨_, h⟩
  unfold State.bayEvent
  dsimp only
  split
  · exact ⟨_, rfl⟩
  · split
    · unfold State.bay at hset ⊢
      rw [State.bayIrq_bays]
      exact hset
    · exact hset

/-- A bay that enters another state has that state, and BAY_EVENT notes it (R204). -/
theorem bay_enter {s : State} {b : Nat} {st : BayState} (hne : (s.bay b).st ≠ st) (hb : b < s.bays.length) :
    ∃ e, (s.enter b st).bay b = { s.bay b with st := st, regs := { (s.bay b).regs with event := e } } := by
  unfold State.enter
  rw [if_neg hne]
  obtain ⟨e, he⟩ := bay_bayEvent (s.setBay b fun y => { y with st := st }) b 0 b
  rw [State.bay_setBay_self _ _ _ hb] at he
  exact ⟨e, he⟩

theorem length_enter (s : State) (b : Nat) (st : BayState) : (s.enter b st).bays.length = s.bays.length := by
  unfold State.enter
  split
  · rfl
  · exact ((RecoveryOnly.refl _).bayEvent).count.trans (State.setBay_length ..)

/-! ### The end of an urgent command -/

section
variable {s : State} {c : Slot} (hs : s.slot? c.adm = some c) (horg : c.hdr.org = .urgent)
include hs horg

/-- An urgent command's end touches no bay: it signals no counter and no queue settles. -/
theorem bays_finishNat_urgent (st : Status) (r : Nat) : (s.finishNat c.adm st r).bays = s.bays := by
  have hbay : c.bay? = none := by
    unfold Slot.bay?
    rw [horg]
  unfold State.finishNat State.finish
  rw [hs]
  dsimp only
  rw [horg]
  show ((s.markFinished c.adm _ _).dropIfSilent c.adm).bays = s.bays
  rw [State.dropIfSilent_frame]
  unfold State.markFinished
  rw [hs]
  simp only [hbay]
  split <;> rfl

/-- It leaves the other slots, and its own as a finished command's or free. -/
theorem cmds_finishNat_urgent (st : Status) (r : Nat) (hf : c.finished? = false) :
    ∃ g : Slot → Slot, (∀ x, (g x).instr = x.instr) ∧
      ((s.finishNat c.adm st r).cmds = s.cmds.map g ∨
        (s.finishNat c.adm st r).cmds = (s.cmds.map g).filter (fun x => x.adm != c.adm)) := by
  have hbay : c.bay? = none := by
    unfold Slot.bay?
    rw [horg]
  let g : Slot → Slot := fun x =>
    if x.adm == c.adm then { x with phase := .finished (postedStatus c st) (BitVec.ofNat 64 r) s.nextFin } else x
  have hmark : (s.markFinished c.adm (postedStatus c st) (BitVec.ofNat 64 r)).cmds = s.cmds.map g := by
    unfold State.markFinished
    rw [hs]
    simp only [hf, hbay, Bool.false_eq_true, if_false]
    rfl
  refine ⟨g, fun x => ?_, ?_⟩
  · unfold g
    split <;> rfl
  · unfold State.finishNat State.finish
    rw [hs]
    dsimp only
    rw [horg]
    show ((s.markFinished c.adm (postedStatus c st) _).dropIfSilent c.adm).cmds = _ ∨
      ((s.markFinished c.adm (postedStatus c st) _).dropIfSilent c.adm).cmds = _
    rw [← hmark]
    unfold State.dropIfSilent
    split
    · split
      · exact .inr rfl
      · exact .inl rfl
    · exact .inl rfl

/-- It frees no slot of a bay: as many commands as before pass a test of their headers that it does not pass itself. -/
theorem countP_finishNat_urgent (st : Status) (r : Nat) (hf : c.finished? = false) (hnum : CommandsNumbered s)
    {p : Slot → Bool} (hp : ∀ x y : Slot, x.instr = y.instr → p x = p y) (hc : p c = false) :
    (s.finishNat c.adm st r).cmds.countP p = s.cmds.countP p := by
  obtain ⟨hrising, hbelow, -⟩ := hnum
  have hnumbered : s.slotTable.Numbered := ⟨hrising, hbelow⟩
  obtain ⟨g, hg, hcmds | hcmds⟩ := cmds_finishNat_urgent hs horg st r hf
  · rw [hcmds, List.countP_map]
    exact List.countP_congr fun x _ => by rw [Function.comp, hp _ _ (hg x)]
  · rw [hcmds, List.countP_filter, List.countP_map]
    refine List.countP_congr fun x hx => ?_
    have hadm : (g x).adm = x.adm := by unfold Slot.adm Slot.hdr; rw [hg]
    simp only [Function.comp, hp _ _ (hg x), hadm, Bool.and_eq_true, bne_iff_ne, and_iff_left_iff_imp]
    rintro hpx hsame
    rw [hnumbered.eq_of_adm hx (List.mem_of_find?_eq_some hs) hsame, hc] at hpx
    cases hpx

end

/-! ### RESUME_BAY -/

section
variable {s : State} {c : Slot} {h : Hdr} {b : Nat}

/-- RESUME_BAY of a bay met HALTED that still is: the bay enters ACTIVE and the command ends OK (R194, R199). -/
theorem Running.exec_resumeBay (hr : Running s c (.resumeBay h b)) (hb : b < 16) (hmet : c.metState = .halted)
    (hst : (s.bay b).st = .halted) :
    exec (.resumeBay h b) s = .next ((s.enter b .active).finishUrg c.adm .ok 0) := by
  refine congrArg _ ((hr.onRunning rfl _).trans ?_)
  rw [hmet, if_neg (by omega), if_pos hst, hr.adm_eq rfl]

theorem releaseUrg_frame (s : State) (adm : Nat) : s.releaseUrg adm = { s with urg := (s.releaseUrg adm).urg } := by
  unfold State.releaseUrg
  split <;> rfl

/-- What RESUME_BAY leaves: the bay ACTIVE, otherwise as it was but for BAY_EVENT, and no slot of a bay freed. -/
structure Resumed (s t : State) (b : Nat) : Prop where
  count : t.bays.length = s.bays.length
  bay : ∃ e, t.bay b = { s.bay b with st := .active, regs := { (s.bay b).regs with event := e } }
  slots : t.freeSlots b = s.freeSlots b

theorem Running.resumed (hr : Running s c (.resumeBay h b)) (horg : c.hdr.org = .urgent) (hnum : CommandsNumbered s)
    (hb : b < s.bays.length) (hst : (s.bay b).st = .halted) :
    let t := (s.enter b .active).finishUrg c.adm .ok 0
    Ended t c .ok 0 ∧ Resumed s t b := by
  intro t
  let u := s.enter b .active
  have hu : u = { s with bays := u.bays, outs := u.outs } := State.enter_frame ..
  have hcmds : u.cmds = s.cmds := by rw [hu]
  have hadm : u.nextAdm = s.nextAdm ∧ u.nextFin = s.nextFin := by rw [hu]; exact ⟨rfl, rfl⟩
  have hlen : u.bays.length = s.bays.length := length_enter ..
  have hs : u.slot? c.adm = some c := by
    unfold State.slot?
    rw [hcmds]
    exact hr.1
  have hnum' : CommandsNumbered u := by
    unfold CommandsNumbered
    rw [hcmds, hadm.1, hadm.2]
    exact hnum
  have hbays : t.bays = u.bays := by
    unfold t State.finishUrg
    rw [releaseUrg_frame]
    exact bays_finishNat_urgent hs horg .ok 0
  have hcount : ∀ p : Slot → Bool, (∀ x y : Slot, x.instr = y.instr → p x = p y) → p c = false →
      t.cmds.countP p = s.cmds.countP p := fun p hp hc => by
    unfold t State.finishUrg
    rw [releaseUrg_frame, ← hcmds]
    exact countP_finishNat_urgent hs horg .ok 0 hr.unfinished hnum' hp hc
  have hbay : t.bay b = u.bay b := by
    unfold State.bay
    rw [hbays]
  obtain ⟨e, he⟩ := bay_enter (st := .active) (by rw [hst]; decide) hb
  refine ⟨?_, by rw [hbays, hlen], ⟨e, hbay.trans he⟩, ?_⟩
  · have hended := ended_finishNat hs hr.unfinished .ok 0
    unfold t State.finishUrg
    rw [releaseUrg_frame]
    exact hended
  · unfold State.freeSlots State.slotsInUse
    rw [hbay, show u.bay b = _ from he]
    simp only [← List.countP_eq_length_filter]
    rw [hcount, hcount]
    · exact fun x y hxy => by unfold Slot.hdr; rw [hxy]
    · rw [horg]
      rfl
    · exact fun x y hxy => by unfold Slot.ofBay Slot.bay? Slot.hdr; rw [hxy]
    · unfold Slot.ofBay Slot.bay?
      rw [horg]
      rfl

/-- A halted bay is not fetched from. -/
theorem wantsFetch_halted (hst : (s.bay b).st = .halted) : s.wantsFetch b = false := by
  simp [State.wantsFetch, Bay.runs, hst]

/-- A resumed bay is fetched from when it has a free slot and a pending entry (R153). -/
theorem Resumed.wantsFetch {t : State} (h : Resumed s t b) : t.wantsFetch b =
    (decide (0 < s.freeSlots b) && (List.range 8).any (fun q => decide (0 < (s.bay b).fetchable q))) := by
  obtain ⟨e, he⟩ := h.bay
  unfold State.wantsFetch
  rw [h.slots, he]
  rfl

/-- A software write of the high half clears ERR with bit 0, and only with it (R160). -/
theorem err_eventCounterWrite_high {k : Nat} (v : W32) (hup : s.hostUp = true) (hb : b < s.bays.length)
    (hk : k < (s.bay b).counters.length) :
    ∃ u, exec (.eventCounterWrite b k (.high v)) s = .next u ∧
      (nth (u.bay b).counters k).err = ((nth (s.bay b).counters k).err && !v.getLsbD 0) := by
  refine ⟨_, congrArg Host.Outcome.next (if_neg (by simp [hup])), ?_⟩
  rw [counter_setCounter _ hb, nth_updNth_self _ _ hk]
  rfl

end

/-- Settles O55: the bay enters ACTIVE, and the end of an urgent command changes neither the bay nor its slots. -/
theorem resumedBayFetches : Obligations.ResumedBayFetches := by
  unfold Obligations.ResumedBayFetches
  intro s c h b hparts hnum hb horg hr hst hmet
  have hlen : b < s.bays.length := by rw [hparts.1]; exact hb
  obtain ⟨hended, hres⟩ := hr.resumed horg hnum hlen hst
  obtain ⟨e, he⟩ := id hres.bay
  refine ⟨wantsFetch_halted hst, _, hr.exec_resumeBay hb hmet hst, by rw [he], hended, hres.wantsFetch, by rw [he],
    fun hup k v hk => ?_⟩
  refine err_eventCounterWrite_high v hup (hres.count ▸ hlen) ?_
  rw [he]
  show k < (s.bay b).counters.length
  rw [hparts.counters hb]
  exact hk

end Sys2Proof
end

section
/-! Buffers cut into pieces and put together again: what a read gives as many bytes of, the element codes of a tensor, and
the chunks in which the values of a collective travel (R39, R184, R266). -/
namespace Sys2Proof
open Machine

/-! ### Divisions rounded up -/

theorem le_ceilDiv_mul (n : Nat) {d : Nat} (hd : 0 < d) : n ≤ ceilDiv n d * d := by
  have hlt := Nat.lt_div_mul_add (a := n + d - 1) hd
  unfold ceilDiv
  omega

/-! ### Lengths of reads -/

theorem sum_pieces (a n : Nat) : ((pieces a n).map (·.2)).sum = n := by
  unfold pieces rangesOf
  split
  · rename_i hn
    rw [hn]
    rfl
  · rename_i hn
    have hfirst : ∀ j, ((((List.range' (a / mib2) j).map fun r => (max a (r * mib2),
        min (a + n) ((r + 1) * mib2) - max a (r * mib2)))).map (·.2)).sum = min (a + n) ((a / mib2 + j) * mib2) - a := by
      intro j
      induction j with
      | zero =>
        have := Nat.div_mul_le_self a mib2
        simp only [List.range'_zero, List.map_nil, List.sum_nil, Nat.add_zero]
        omega
      | succ j ih =>
        have hstep : (a / mib2 + j + 1) * mib2 = (a / mib2 + j) * mib2 + mib2 := Nat.succ_mul ..
        rw [List.range'_1_concat, List.map_append, List.map_append, List.sum_append, ih]
        simp only [List.map_cons, List.map_nil, List.sum_cons, List.sum_nil, ← Nat.add_assoc, hstep]
        omega
    have hlast : a + n - 1 < ((a + n - 1) / mib2 + 1) * mib2 := by
      have := Nat.lt_div_mul_add (a := a + n - 1) (b := mib2) (by decide)
      rwa [Nat.succ_mul]
    have hle : a / mib2 ≤ (a + n - 1) / mib2 := Nat.div_le_div_right (by omega)
    refine (hfirst _).trans ?_
    rw [show a / mib2 + ((a + n - 1) / mib2 - a / mib2 + 1) = (a + n - 1) / mib2 + 1 by omega]
    omega

theorem length_readLoc (s : State) (l : Loc) (n : Nat) : (s.readLoc l n).length = n := by
  unfold State.readLoc Mem.read
  cases l.sp <;> simp

/-- A read of n bytes gives n bytes. -/
theorem length_readBay (s : State) (b a n : Nat) : (s.readBay b a n).length = n := by
  unfold State.readBay State.readAcc
  rw [List.length_flatten, List.map_map]
  refine (congrArg List.sum (List.map_congr_left fun p _ => ?_)).trans (sum_pieces a n)
  rw [Function.comp]
  split
  · exact length_readLoc ..
  · simp [zeros]

/-- A read depends on memory, its marks and the places of the addresses alone. -/
theorem WritesAlike.readBay {s t : State} {b : Nat} (h : WritesAlike s t b) (a n : Nat) :
    t.readBay b a n = s.readBay b a n := by
  obtain ⟨hd, hs, hl, hh, hz, -⟩ := h.mem
  have hread : ∀ l m, t.readLoc l m = s.readLoc l m := fun l m => by
    unfold State.readLoc State.dramByte
    rw [hd, hs, hl, hh, hz]
  unfold State.readBay State.readAcc
  simp only [h.place, hread]

/-! ### Element codes -/

theorem le_length_chunksAux {α : Type} {k : Nat} (hk : 0 < k) (fuel : Nat) (l : List α) (h : l.length ≤ fuel) :
    l.length ≤ (chunksAux k fuel l).length * k := by
  induction fuel generalizing l with
  | zero => omega
  | succ f ih =>
    cases l with
    | nil => exact Nat.zero_le _
    | cons x xs =>
      have hrest := ih ((x :: xs).drop k) (by rw [List.length_drop]; omega)
      rw [List.length_drop] at hrest
      unfold chunksAux
      rw [List.length_cons (as := chunksAux ..), Nat.succ_mul]
      omega

/-- The formats of reductions have groups of as many elements as they unpack to (R39). -/
theorem length_unpackGroup {fmt : Nat} (h : fmt ≤ 7) (bs : List Byte) : (unpackGroup fmt bs).length = groupElems fmt := by
  interval_cases fmt <;> rfl

theorem group_pos {fmt : Nat} (h : fmt ≤ 0xB) : 0 < groupElems fmt ∧ 0 < groupBytes fmt := by
  interval_cases fmt <;> decide

/-- The bytes of n elements hold n codes. -/
theorem length_rawCodes {fmt n : Nat} {bs : List Byte} (hfmt : fmt ≤ 7) (hbs : bs.length = storedBytes fmt n) :
    (rawCodes fmt n bs).length = n := by
  obtain ⟨helems, hbytes⟩ := group_pos (fmt := fmt) (by omega)
  have hgroups : ceilDiv n (groupElems fmt) ≤ (chunks (groupBytes fmt) bs).length := by
    have := le_length_chunksAux hbytes bs.length bs (Nat.le_refl _)
    exact Nat.le_of_mul_le_mul_right (hbs.symm.le.trans this) hbytes
  have hall : (((chunks (groupBytes fmt) bs).map (unpackGroup fmt)).flatten).length =
      (chunks (groupBytes fmt) bs).length * groupElems fmt := by
    rw [List.length_flatten, List.map_map, List.map_congr_left (f := List.length ∘ unpackGroup fmt)
      (fun g _ => length_unpackGroup hfmt g)]
    simp
  unfold rawCodes
  rw [List.length_take, hall]
  have := Nat.mul_le_mul_right (groupElems fmt) hgroups
  have := le_ceilDiv_mul n helems
  omega

/-! ### Chunks of values -/

theorem flatten_chunks_take {α : Type} (k : Nat) (l : List α) (m : Nat) :
    ((List.range m).map (fun i => (l.drop (i * k)).take k)).flatten = l.take (m * k) := by
  induction m with
  | zero => simp
  | succ m ih => simp [List.range_succ, ih, Nat.succ_mul, List.take_add]

/-- The chunks of a list, in order, are the list. -/
theorem flatten_chunkStarts {α : Type} {k : Nat} (hk : 0 < k) (l : List α) :
    ((chunkStarts l.length k).map (fun f => (l.drop f).take k)).flatten = l := by
  unfold chunkStarts
  rw [List.map_map]
  refine (flatten_chunks_take k l _).trans (List.take_of_length_le ?_)
  exact le_ceilDiv_mul l.length hk

theorem pairwise_chunkStarts (n : Nat) {k : Nat} (hk : 0 < k) : (chunkStarts n k).Pairwise (· < ·) := by
  unfold chunkStarts
  rw [List.pairwise_map]
  exact List.pairwise_lt_range.imp fun h => Nat.mul_lt_mul_of_pos_right h hk

/-- A chunk begins within the whole. -/
theorem lt_of_mem_chunkStarts {n k f : Nat} (hk : 0 < k) (h : f ∈ chunkStarts n k) : f < n := by
  unfold chunkStarts ceilDiv at h
  obtain ⟨i, hi, rfl⟩ := List.mem_map.1 h
  have hle := (Nat.le_div_iff_mul_le hk).1 (List.mem_range.1 hi)
  rw [Nat.succ_mul] at hle
  omega

theorem sortBy_of_sorted {α : Type} {le : α → α → Bool} {l : List α} (h : l.Pairwise (fun a b => le a b = true)) :
    sortBy le l = l := by
  induction l with
  | nil => rfl
  | cons x xs ih =>
    obtain ⟨hx, hxs⟩ := List.pairwise_cons.1 h
    unfold sortBy
    rw [ih hxs]
    cases xs with
    | nil => rfl
    | cons y ys => exact if_pos (hx y List.mem_cons_self)

end Sys2Proof
end

section
/-! A collective in progress: what its operations leave as it is, and the values that they gather (R265, R266). -/
namespace Sys2Proof
open Machine

/-! ### What the operations of a collective carry along -/

/-- Commands, planned failures and what a bay's accesses depend on are the same, and every output stands. -/
structure Carries (s t : State) (b : Nat) : Prop where
  alike : WritesAlike s t b
  count : t.bays.length = s.bays.length
  train : (t.bay b).train = (s.bay b).train
  early : (t.bay b).earlyColls = (s.bay b).earlyColls
  slots : ∀ adm, t.slot? adm = s.slot? adm
  faults : t.faults = s.faults
  sent : s.outs ⊆ t.outs

namespace Carries
variable {s t u : State} {b : Nat}

theorem refl (s : State) (b : Nat) : Carries s s b := ⟨.refl s b, rfl, rfl, rfl, fun _ => rfl, rfl, fun _ h => h⟩

theorem setBay (h : Carries s t b) {b' : Nat} {f : Bay → Bay}
    (hf : ∀ y, (f y).bind = y.bind ∧ (f y).pages = y.pages ∧ (f y).join = y.join := by exact fun _ => ⟨rfl, rfl, rfl⟩)
    (htrain : ∀ y, (f y).train = y.train := by exact fun _ => rfl)
    (hearly : ∀ y, (f y).earlyColls = y.earlyColls := by exact fun _ => rfl) : Carries s (t.setBay b' f) b :=
  ⟨h.alike.setBay hf, (State.setBay_length ..).trans h.count, (bay_setBay_kept Bay.train htrain t b' b).trans h.train,
    (bay_setBay_kept Bay.earlyColls hearly t b' b).trans h.early, h.slots, h.faults, h.sent⟩

theorem link (h : Carries s t b) (hl : LinkOnly t u) : Carries s u b := by
  have halike : WritesAlike t u b := by
    rw [hl.rest]
    exact ⟨.refl t, fun _ _ _ => rfl, rfl⟩
  refine ⟨⟨h.alike.mem.trans halike.mem, fun acc a n => (halike.place acc a n).trans (h.alike.place acc a n),
    halike.gone.trans h.alike.gone⟩, ?_, ?_, ?_, fun adm => (hl.slot? adm).trans (h.slots adm), ?_,
    fun _ ho => hl.sent (h.sent ho)⟩
  · rw [hl.bays, h.count]
  · rw [hl.bay, h.train]
  · rw [hl.bay, h.early]
  · rw [hl.rest]
    exact h.faults

theorem raise (h : Carries s t b) {b' : Nat} {f : W32} : Carries s (t.raise b' f) b := by
  unfold State.raise
  split
  · exact h
  · exact h.setBay

end Carries

/-! ### The collective -/

/-- The same side of a collective, with other values known, sent or final. -/
def SameSide (c d : Coll) : Prop := d = { c with known := d.known, sent := d.sent, finals := d.finals }

/-- From `s` to `t` the collective `c` of bay `b` has come to stand as `d`. -/
structure Standing (s : State) (b : Nat) (c d : Coll) (t : State) : Prop where
  carries : Carries s t b
  side : SameSide c d
  found : t.coll? b c.group c.index = some d

theorem SameSide.names {c d : Coll} (h : SameSide c d) : d.group = c.group ∧ d.index = c.index := by
  rw [h]
  exact ⟨rfl, rfl⟩

theorem coll?_setBay_kept {f : Bay → Bay} (hf : ∀ y, (f y).colls = y.colls) (t : State) (b b' g i : Nat) :
    (t.setBay b f).coll? b' g i = t.coll? b' g i := by
  unfold State.coll?
  rw [bay_setBay_kept Bay.colls hf]

namespace Standing
variable {s t u : State} {b : Nat} {c d : Coll}

theorem link (h : Standing s b c d t) (hl : LinkOnly t u) : Standing s b c d u :=
  ⟨h.carries.link hl, h.side, by unfold State.coll?; rw [hl.bay]; exact h.found⟩

theorem raise {f : W32} (h : Standing s b c d t) : Standing s b c d (t.raise b f) := by
  refine ⟨h.carries.raise, h.side, ?_⟩
  unfold State.raise
  split
  · exact h.found
  · exact (coll?_setBay_kept (fun _ => by rfl) ..).trans h.found

/-- A change of what is known, sent or final. -/
theorem setColl {f : Coll → Coll} (hb : b < s.bays.length) (h : Standing s b c d t)
    (hf : ∀ d, SameSide d (f d) := by exact fun _ => rfl) : Standing s b c (f d) (t.setColl b c.group c.index f) := by
  refine ⟨h.carries.setBay, ?_, coll?_setColl (h.carries.count ▸ hb) h.found fun x => (hf x).names⟩
  have hside := hf d
  have hd := h.side
  unfold SameSide at hside hd ⊢
  rw [hside, hd]

end Standing

/-- An addition that no planned residue failure meets succeeds (R268). -/
theorem reduceChunk_unfailed {s : State} {b cluster first : Nat} {c : Coll} {l r : List Nat} (h : s.faults.reduction = []) :
    let out := (l.zip r).map (fun p => combine c.ops.op c.ops.fmt c.ftz p.1 p.2)
    s.reduceChunk b c cluster first l r = (s.raise b (orFlags out), some (out.map (·.1))) := by
  unfold State.reduceChunk State.reductionFault
  rw [h]
  rfl

/-! ### A group of several members: the collective stays in progress -/

/-- The collective stands in some way. -/
def Underway (s : State) (b : Nat) (c : Coll) (t : State) : Prop := ∃ d, Standing s b c d t

namespace Underway
variable {s t : State} {b : Nat} {c : Coll}

theorem foldl {α : Type} {f : State → α → State} {l : List α} (h : Underway s b c t)
    (hf : ∀ u x, Underway s b c u → Underway s b c (f u x)) : Underway s b c (l.foldl f t) :=
  List.foldlRecOn l f (motive := Underway s b c) h fun u hu x _ => hf u x hu

theorem ite {p : Prop} [Decidable p] {u : State} (ht : Underway s b c t) (hu : Underway s b c u) :
    Underway s b c (if p then t else u) := by
  split
  · exact ht
  · exact hu

theorem sendSeg {b' : Nat} {g : Group} {e : Coll} {final : Bool} {k : Known} {m : Nat} (h : Underway s b c t) :
    Underway s b c (t.sendSeg b' g e final k m) := by
  obtain ⟨d, h⟩ := h
  exact ⟨d, h.link ((LinkOnly.refl t).sendSeg)⟩

theorem raise {f : W32} (h : Underway s b c t) : Underway s b c (t.raise b f) := by
  obtain ⟨d, h⟩ := h
  exact ⟨d, h.raise⟩

/-- A collective that misses stamps stays in progress. -/
theorem settleColl {g : Group} (h : Underway s b c t) (hid : g.id = c.group) (hst : c.stamps.length ≠ g.blk.members) :
    Underway s b c (t.settleColl b g c.index) := by
  obtain ⟨d, hd⟩ := id h
  rw [settleColl_open (c := d) (by rw [hid, hd.found]) (by rw [hd.side]; exact hst)]
  exact h

variable (hb : b < s.bays.length)
include hb

theorem setColl {f : Coll → Coll} (h : Underway s b c t) (hf : ∀ d, SameSide d (f d) := by exact fun _ => rfl) :
    Underway s b c (t.setColl b c.group c.index f) := by
  obtain ⟨d, h⟩ := h
  exact ⟨f d, h.setColl hb hf⟩

variable {g : Group} (hid : g.id = c.group)
include hid

theorem learnFinal {k : Known} {src : Option Nat} (h : Underway s b c t) :
    Underway s b c (t.learnFinal b g c.index k src) := by
  unfold State.learnFinal
  rw [hid]
  split
  · exact h
  · exact h.ite ((h.setColl hb).foldl fun _ _ hs => hs.sendSeg)

theorem rootDone {e : Coll} {first : Nat} {vs : List Nat} (h : Underway s b c t) (he : e.index = c.index) :
    Underway s b c (t.rootDone b g e first vs) := by
  unfold State.rootDone
  dsimp only
  rw [he, hid]
  exact (h.raise.learnFinal hb hid).ite (h.raise.foldl fun _ _ hs => hs.ite ((hs.setColl hb).ite hs.sendSeg))

theorem knowPartial {e : Coll} {k : Known} (h : Underway s b c t) (he : e.index = c.index) :
    Underway s b c (t.knowPartial b g e k) := by
  have hknown : Underway s b c (t.setColl b g.id e.index fun x => { x with known := x.known ++ [k] }) := by
    rw [he, hid]
    exact h.setColl hb
  unfold State.knowPartial
  refine (hknown.rootDone hb hid he).ite ?_
  split
  · exact hknown.ite hknown.sendSeg
  · exact hknown

/-- Without a planned residue failure every addition that this member owns is made (R268). -/
theorem addChunk {first : Nat} (h : Underway s b c t) (hf : s.faults.reduction = []) :
    Underway s b c (State.addChunk b g c.index first t).1 ∧ (State.addChunk b g c.index first t).2 = true := by
  unfold State.addChunk
  split
  · exact ⟨h, rfl⟩
  · refine List.foldlRecOn _ _ (motive := fun a : State × Bool => Underway s b c a.1 ∧ a.2 = true) ⟨h, rfl⟩
      fun a ha n _ => ?_
    obtain ⟨hu, htrue⟩ := ha
    dsimp only
    split
    · rename_i d _ hfind
      rw [hid] at hfind
      obtain ⟨_, hstand⟩ := id hu
      split
      · rw [reduceChunk_unfailed (by rw [hstand.carries.faults, hf])]
        exact ⟨hu.raise.knowPartial hb hid (coll?_names hfind).2, rfl⟩
      · exact ⟨hu, htrue⟩
    · exact ⟨hu, htrue⟩

end Underway

end Sys2Proof
end

section
/-! The start of a collective (R183 to R185, R232, R263, R266, R272). -/
namespace Sys2Proof
open Machine

/-! ### The stamps that go out -/

/-- A collective as its start leaves it: with this member's stamp, and every peer heard now. -/
def started (s : State) (g : Group) (c : Coll) : Coll := { c with
  stamps := [(g.blk.thisMember, s.now)], heard := g.peers.map (fun m => (m, s.clock.uptime)) }

/-- The state in which a collective is noted and its stamp has gone to every other member. -/
def stamped (s : State) (b : Nat) (g : Group) (c : Coll) : State :=
  g.peers.foldl (fun u m => u.sendSeg b g (started s g c) false ⟨0, 0, 0, []⟩ m)
    (s.setBay b fun y => { y with colls := y.colls ++ [started s g c] })

theorem stamped_link (s : State) (b : Nat) (g : Group) (c : Coll) :
    LinkOnly (s.setBay b fun y => { y with colls := y.colls ++ [started s g c] }) (stamped s b g c) :=
  (LinkOnly.refl _).foldl fun _ _ h => h.sendSeg

/-- The stamp of a member is a segment without elements (R272). -/
theorem stamp_mem_sendSeg (s : State) (b : Nat) (g : Group) (c : Coll) (m : Nat) :
    Output.collSeg m (c.seg b g.blk.thisMember 1 (c.ownStamp g.blk.thisMember) false ⟨0, 0, 0, []⟩) ∈
      (s.sendSeg b g c false ⟨0, 0, 0, []⟩ m).outs := by
  unfold State.sendSeg
  exact (LinkOnly.sendMsg (.refl _)).sent (List.mem_append_right _ (List.mem_singleton_self _))

theorem stamp_mem_stamped (s : State) (b : Nat) (g : Group) (c : Coll) {m : Nat} (hm : m ∈ g.peers) :
    Output.collSeg m ⟨b, c.group, c.index, g.blk.thisMember, 1, c.opcode, c.ops, false, 0, 0, 0, [], s.now⟩ ∈
      (stamped s b g c).outs := by
  have hown : (started s g c).ownStamp g.blk.thisMember = s.now := by simp [started, Coll.ownStamp, assoc]
  have hfold : ∀ (l : List Nat) (u : State), m ∈ l → Output.collSeg m
      ((started s g c).seg b g.blk.thisMember 1 ((started s g c).ownStamp g.blk.thisMember) false ⟨0, 0, 0, []⟩) ∈
        (l.foldl (fun u m => u.sendSeg b g (started s g c) false ⟨0, 0, 0, []⟩ m) u).outs := by
    intro l
    induction l with
    | nil => exact fun _ h => absurd h List.not_mem_nil
    | cons k ks ih =>
      intro u h
      rcases List.mem_cons.1 h with rfl | h
      · exact (LinkOnly.foldl (.refl (u.sendSeg b g (started s g c) false ⟨0, 0, 0, []⟩ m)) fun _ _ h => h.sendSeg).sent
          (stamp_mem_sendSeg u b g (started s g c) m)
      · exact ih _ h
  have hmem := hfold g.peers (s.setBay b fun y => { y with colls := y.colls ++ [started s g c] }) hm
  rw [hown] at hmem
  exact hmem

section
variable {s : State} {b : Nat} {g : Group} {c : Coll} (hb : b < s.bays.length)
include hb

/-- The collective is the one of its group and index. -/
theorem coll?_stamped (hnone : s.coll? b c.group c.index = none) :
    (stamped s b g c).coll? b c.group c.index = some (started s g c) := by
  unfold State.coll? at hnone ⊢
  rw [(stamped_link ..).bay, State.bay_setBay_self _ _ _ hb, List.find?_append, hnone]
  simp [started]

theorem Standing.stamped (hnone : s.coll? b c.group c.index = none) :
    Standing (stamped s b g c) b (started s g c) (started s g c) (stamped s b g c) :=
  ⟨.refl _ b, rfl, coll?_stamped hb hnone⟩

end

theorem Carries.stamped (s : State) (b : Nat) (g : Group) (c : Coll) : Carries s (stamped s b g c) b :=
  (Carries.setBay (.refl s b)).link (stamped_link ..)

/-! ### The start as a whole -/

/-- The bytes that a position of this member contributes. -/
def ownBytes (s : State) (b : Nat) (g : Group) (c : Coll) (x : Nat × Nat) : List Byte :=
  s.readBay b (rankAddr g c.ops.src c.ops.rstride x.2) (srcBytes (s.bay b) c.opcode c.ops g.positions x.1)

/-- A position's elements of a reduction are known, chunk by chunk. -/
def knowPart (s : State) (b : Nat) (g : Group) (c : Coll) (u : State) (x : Nat × Nat) : State :=
  let codes := (rawCodes c.ops.fmt c.ops.count (ownBytes s b g c x)).map (leafCode c.ops.op c.ops.fmt)
  (chunkStarts c.ops.count c.chunk).foldl
    (fun u f => u.knowPartial b g c ⟨x.1, x.1 + 1, f, (codes.drop f).take c.chunk⟩) u

/-- Bytes that are final as they are, chunk by chunk: a position's part of the whole from an offset. -/
def learnPart (s : State) (b : Nat) (g : Group) (c : Coll) (lo hi off : Nat) (u : State) (x : Nat × Nat) : State :=
  let bs := (ownBytes s b g c x).map (·.toNat)
  (chunkStarts bs.length 2048).foldl
    (fun u f => u.learnFinal b g c.index ⟨lo, hi, off + f, (bs.drop f).take 2048⟩ none) u

/-- The additions of every chunk, up to one that fails. -/
def addChunks (b : Nat) (g : Group) (c : Coll) (a : State × Bool) : State × Bool :=
  (chunkStarts c.ops.count c.chunk).foldl (fun a f => if a.2 then State.addChunk b g c.index f a.1 else a) a

section
variable {s : State} {b : Nat} {g : Group} {c : Coll}

theorem startColl_reduce (h : isReduce c.opcode = true) : s.startColl b g c =
    let r := addChunks b g c (g.myPositions.foldl (knowPart (stamped s b g c) b g (started s g c)) (stamped s b g c), true)
    if r.2 then r.1.settleColl b g c.index else r.1.failColl b g.id c.index .machineCheck :=
  if_pos h

theorem startColl_gather (h : c.opcode = 0x0401) : s.startColl b g c =
    (g.myPositions.foldl (fun u x => learnPart (stamped s b g c) b g (started s g c) x.1 (x.1 + 1)
      (gatherOffset c.ops g.positions x.1) u x) (stamped s b g c)).settleColl b g c.index :=
  (if_neg (by rw [h]; decide)).trans (if_pos h)

theorem startColl_broadcast (h : c.opcode = 0x0403) : s.startColl b g c =
    match g.myPositions.find? (fun x => x.1 == c.ops.root) with
    | some x => (learnPart (stamped s b g c) b g (started s g c) 0 g.positions 0 (stamped s b g c) x).settleColl b g c.index
    | none => (stamped s b g c).settleColl b g c.index := by
  refine (if_neg (by rw [h]; decide)).trans ((if_neg (by rw [h]; decide)).trans ?_)
  unfold learnPart
  simp only [Nat.zero_add]
  rfl

end

/-! ### A group of several members -/

/-- The codes of the four data collectives (R183). -/
def IsDataColl (opcode : Nat) : Prop := isReduce opcode = true ∨ opcode = 0x0401 ∨ opcode = 0x0403

namespace Underway
variable {s t : State} {b : Nat} {g : Group} {c : Coll} (hb : b < s.bays.length) (hid : g.id = c.group)
include hb hid

theorem knowPart {u : State} {x : Nat × Nat} (h : Underway s b c t) : Underway s b c (knowPart u b g c t x) :=
  h.foldl fun _ _ ht => ht.knowPartial hb hid rfl

theorem learnPart {u : State} {lo hi off : Nat} {x : Nat × Nat} (h : Underway s b c t) :
    Underway s b c (learnPart u b g c lo hi off t x) :=
  h.foldl fun _ _ ht => ht.learnFinal hb hid

theorem addChunks (h : Underway s b c t) (hf : s.faults.reduction = []) :
    Underway s b c (addChunks b g c (t, true)).1 ∧ (addChunks b g c (t, true)).2 = true := by
  refine List.foldlRecOn _ _ (motive := fun a : State × Bool => Underway s b c a.1 ∧ a.2 = true) ⟨h, rfl⟩ fun a ha f _ => ?_
  rw [if_pos ha.2]
  exact ha.1.addChunk hb hid hf

end Underway

/-- A collective of several members is in progress when its start is done: it misses the others' stamps (R263, R272). -/
theorem Underway.startColl {s : State} {b : Nat} {g : Group} {c : Coll} (hb : b < s.bays.length)
    (hnone : s.coll? b c.group c.index = none) (hid : g.id = c.group) (hf : s.faults.reduction = [])
    (hm : 1 < g.blk.members) (hop : IsDataColl c.opcode) :
    Underway (stamped s b g c) b (started s g c) (s.startColl b g c) := by
  have hlen : b < (stamped s b g c).bays.length := (Carries.stamped s b g c).count ▸ hb
  have hfaults : (stamped s b g c).faults.reduction = [] := by rw [(Carries.stamped s b g c).faults, hf]
  have hu : Underway (stamped s b g c) b (started s g c) (stamped s b g c) := ⟨_, Standing.stamped hb hnone⟩
  have hid' : g.id = (started s g c).group := hid
  have hopen : (started s g c).stamps.length ≠ g.blk.members := Nat.ne_of_lt hm
  rcases hop with hred | hgather | hbroadcast
  · rw [startColl_reduce hred]
    have hparts := hu.foldl (l := g.myPositions) fun _ x h => h.knowPart (u := stamped s b g c) (x := x) hlen hid'
    obtain ⟨hr, htrue⟩ := hparts.addChunks hlen hid' hfaults
    exact (if_pos htrue).symm ▸ hr.settleColl hid' hopen
  · rw [startColl_gather hgather]
    exact (hu.foldl fun _ _ h => h.learnPart hlen hid').settleColl hid' hopen
  · rw [startColl_broadcast hbroadcast]
    split
    · exact (hu.learnPart hlen hid').settleColl hid' hopen
    · exact hu.settleColl hid' hopen

end Sys2Proof
end

section
/-! The dispatch of a data collective (R183, R263, R272). -/
namespace Sys2Proof
open Machine

/-- A command's side of a collective before it starts (R263). -/
def newColl (c : Slot) (opcode : Nat) (o : CollOps) : Coll :=
  ⟨some c.adm, none, o.group, c.index, opcode, o, c.ftz, [], [], [], [], false, []⟩

section
variable {s : State} {c : Slot} {h : Hdr} {b opcode : Nat} {o : CollOps} {g : Group}

/-- A collective whose operands and buffers are in order starts, and takes what came early. -/
theorem runColl_starts (hadm : c.adm = h.adm) (hbay : c.bay? = some b) (hg : (s.bay b).formed? o.group = some g)
    (hcheck : s.collCheck b opcode o = none) (haccess : s.collAccess b g opcode o = none) :
    s.runColl h c opcode o =
      ((s.setActive c.adm).startColl b g (newColl c opcode o)).takeEarlySegs b o.group c.index := by
  unfold State.runColl newColl
  simp only [hbay, hcheck, hg, haccess, hadm]

/-- The four opcodes run the same operation. -/
theorem Running.exec_dataColl {k : (Hdr → CollOps → Instr) × Nat}
    (hk : k ∈ [(Instr.collAllreduce, 0x0400), (Instr.collAllgather, 0x0401), (Instr.collReduceScatter, 0x0402),
      (Instr.collBroadcast, 0x0403)]) (hr : Running s c (k.1 h o)) :
    exec (k.1 h o) s = .next (s.runColl h c k.2 o) ∧ c.adm = h.adm ∧ IsDataColl k.2 := by
  simp only [List.mem_cons, List.not_mem_nil, or_false] at hk
  rcases hk with rfl | rfl | rfl | rfl
  · exact ⟨congrArg Host.Outcome.next (hr.onRunning rfl _), hr.adm_eq rfl, .inl rfl⟩
  · exact ⟨congrArg Host.Outcome.next (hr.onRunning rfl _), hr.adm_eq rfl, .inr (.inl rfl)⟩
  · exact ⟨congrArg Host.Outcome.next (hr.onRunning rfl _), hr.adm_eq rfl, .inl rfl⟩
  · exact ⟨congrArg Host.Outcome.next (hr.onRunning rfl _), hr.adm_eq rfl, .inr (.inr rfl)⟩

/-- Where no segment of the collective came ahead there is none to take. -/
theorem takeEarlySegs_none {group index : Nat}
    (h : (s.bay b).earlyColls.all (fun x => !(x.group == group && x.index == index)) = true) :
    s.takeEarlySegs b group index = s.setBay b fun y => { y with
      earlyColls := y.earlyColls.filter fun x => !(x.group == group && x.index == index) } := by
  have hnone : (s.bay b).earlyColls.filter (fun x => x.group == group && x.index == index) = [] := by
    simpa [List.filter_eq_nil_iff, imp_iff_not_or] using h
  unfold State.takeEarlySegs
  simp only [hnone, List.foldl_nil]

end

/-! ### A group of several members -/

section
variable {s : State} {c : Slot} {b opcode : Nat} {o : CollOps} {g : Group}

/-- A dispatched collective of several members is in progress, and its stamp is on its way to every other member. -/
theorem dispatched_underway (hb : b < s.bays.length) (hs : s.slot? c.adm = some c) (hid : g.id = o.group)
    (hnone : s.coll? b o.group c.index = none)
    (hearly : (s.bay b).earlyColls.all (fun x => !(x.group == o.group && x.index == c.index)) = true)
    (hf : s.faults.reduction = []) (hop : IsDataColl opcode) (hm : 1 < g.blk.members) :
    let t := ((s.setActive c.adm).startColl b g (newColl c opcode o)).takeEarlySegs b o.group c.index
    ∃ x, Begun t c ∧ t.coll? b o.group c.index = some x ∧ SameSide (started s g (newColl c opcode o)) x ∧
      ∀ m ∈ g.peers, Output.collSeg m
        ⟨b, o.group, c.index, g.blk.thisMember, 1, opcode, o, false, 0, 0, 0, [], s.now⟩ ∈ t.outs := by
  let s0 := s.setActive c.adm
  let x0 := newColl c opcode o
  have hstart := Carries.stamped s0 b g x0
  obtain ⟨x, hstand⟩ := Underway.startColl (s := s0) (c := x0) hb hnone hid hf hm hop
  have hcarry := hstand.carries
  have hkept : ((s0.startColl b g x0).bay b).earlyColls = (s.bay b).earlyColls := hcarry.early.trans hstart.early
  intro t
  have ht : t = (s0.startColl b g x0).setBay b fun y => { y with
      earlyColls := y.earlyColls.filter fun x => !(x.group == o.group && x.index == c.index) } :=
    takeEarlySegs_none (hkept ▸ hearly)
  have hslot : t.slot? c.adm = s0.slot? c.adm := by
    rw [ht]
    exact (hcarry.slots c.adm).trans (hstart.slots c.adm)
  have hbegun : Begun s0 c := begun_setActive hs
  refine ⟨x, ?_, ?_, hstand.side, fun m hmem => ?_⟩
  · unfold Begun
    rw [hslot]
    exact hbegun
  · rw [ht]
    exact (coll?_setBay_kept (fun _ => by rfl) ..).trans hstand.found
  · rw [ht]
    exact hcarry.sent (stamp_mem_stamped s0 b g x0 hmem)

end

end Sys2Proof
end

section
/-! A collective in a group of one position: it ends at once with the values of its own buffer (R53, R185, R266). -/
namespace Sys2Proof
open Machine

/-! ### A group of one position -/

/-- A group of one member with one rank. -/
structure Alone (g : Group) (lc : Nat) : Prop where
  members : g.blk.members = 1
  this : g.blk.thisMember = 0
  ranks : g.ranks = [lc]

namespace Alone
variable {g : Group} {lc : Nat} (hg : Alone g lc)
include hg

theorem positions : g.positions = 1 := by
  unfold Group.positions
  rw [hg.members, hg.ranks]
  rfl

theorem myPositions : g.myPositions = [(0, lc)] := by
  unfold Group.myPositions
  rw [hg.ranks, hg.this]
  rfl

theorem rankAddr (base rstride : Nat) : rankAddr g base rstride lc = base := by
  unfold Machine.rankAddr
  rw [hg.ranks]
  simp

/-- There is nothing to add. -/
theorem nodes (algo : Nat) : (planOf algo g.blk.members g.ranks.length).nodes = [] := by
  rw [hg.members, hg.ranks]
  unfold planOf
  dsimp only
  split <;> rfl

/-- No addition is to be made. -/
theorem addChunks (t : State) (b : Nat) (c : Coll) : addChunks b g c (t, true) = (t, true) := by
  have hadd : ∀ f, State.addChunk b g c.index f t = (t, true) := fun f => by
    unfold State.addChunk
    split
    · rfl
    · dsimp only
      rw [hg.nodes]
      rfl
  unfold Sys2Proof.addChunks
  refine List.foldlRecOn _ _ (motive := fun a => a = (t, true)) rfl fun a ha f _ => ?_
  rw [ha]
  exact hadd f

end Alone

/-- The only part of a whole is the whole. -/
theorem divide_one (n : Nat) : divide n 1 0 = (0, n) := by
  unfold divide
  simp [Nat.mod_one]

theorem segment_one {y : Bay} {opcode : Nat} {o : CollOps} (h : y.aligned opcode o = none) :
    y.segment opcode o 1 0 = (0, o.count) := by
  unfold Bay.segment
  rw [h]
  exact divide_one _

theorem gatherOffset_one (o : CollOps) : gatherOffset o 1 0 = 0 ∧ gatherOffset o 1 1 = collBytes o := by
  refine ⟨rfl, ?_⟩
  unfold gatherOffset
  simp [divide_one, collBytes]

/-! ### The values of the whole, chunk by chunk -/

/-- The final values of a whole that one position holds. -/
def wholeFinals (chunk : Nat) (vals : List Nat) : List Known :=
  (chunkStarts vals.length chunk).map fun f => ⟨0, 1, f, (vals.drop f).take chunk⟩

section
variable {chunk : Nat} (hc : 0 < chunk) (vals : List Nat)

theorem filter_wholeFinals : (wholeFinals chunk vals).filter (fun f => f.lo == 0) = wholeFinals chunk vals := by
  refine List.filter_eq_self.2 fun k hk => ?_
  obtain ⟨f, -, rfl⟩ := List.mem_map.1 hk
  rfl

include hc

/-- Its chunks in order are the whole. -/
theorem flatten_wholeFinals : ((wholeFinals chunk vals).map (·.elems)).flatten = vals := by
  unfold wholeFinals
  rw [List.map_map]
  exact flatten_chunkStarts hc vals

theorem sum_wholeFinals : ((wholeFinals chunk vals).map (·.elems.length)).sum = vals.length := by
  rw [← congrArg List.length (flatten_wholeFinals hc vals), List.length_flatten, List.map_map]
  rfl

theorem sorted_wholeFinals :
    (wholeFinals chunk vals).Pairwise (fun a d => decide (a.first ≤ d.first) = true) := by
  unfold wholeFinals
  rw [List.pairwise_map]
  exact (pairwise_chunkStarts vals.length hc).imp fun h => decide_eq_true (Nat.le_of_lt h)

theorem finalsOf_whole {d : Coll} (hd : d.finals = wholeFinals chunk vals) : d.finalsOf 0 = vals := by
  unfold Coll.finalsOf
  rw [hd, filter_wholeFinals, sortBy_of_sorted (sorted_wholeFinals hc vals), flatten_wholeFinals hc]

end

/-! ### Values that come to be final -/

/-- The collective stands with these final values. -/
def Gathered (s : State) (b : Nat) (c : Coll) (fs : List Known) (t : State) : Prop :=
  ∃ d, Standing s b c d t ∧ d.finals = fs

namespace Gathered
variable {s t : State} {b : Nat} {c : Coll} {fs : List Known}

/-- Steps that each make one value of their own final make all of them final. -/
theorem foldl {step : State → Nat → State} {φ : Nat → Known} (hφ : ∀ f, (φ f).first = f) {l : List Nat}
    (hl : l.Pairwise (· < ·)) (hstep : ∀ fs u, ∀ f ∈ l, Gathered s b c fs u → (∀ k ∈ fs, k.first ≠ f) →
      Gathered s b c (fs ++ [φ f]) (step u f)) (h : Gathered s b c fs t) (hnew : ∀ k ∈ fs, ∀ f ∈ l, k.first ≠ f) :
    Gathered s b c (fs ++ l.map φ) (l.foldl step t) := by
  induction l generalizing fs t with
  | nil => simpa using h
  | cons f rest ih =>
    obtain ⟨hlt, hrest⟩ := List.pairwise_cons.1 hl
    have hhead := hstep fs t f List.mem_cons_self h fun k hk => hnew k hk f List.mem_cons_self
    have htail := ih hrest (fun fs u x hx => hstep fs u x (List.mem_cons_of_mem f hx)) hhead fun k hk x hx => by
      rcases List.mem_append.1 hk with hk | hk
      · exact hnew k hk x (List.mem_cons_of_mem f hx)
      · rw [List.mem_singleton.1 hk, hφ]
        exact Nat.ne_of_lt (hlt x hx)
    rwa [List.append_assoc] at htail

theorem raise {f : W32} (h : Gathered s b c fs t) : Gathered s b c fs (t.raise b f) := by
  obtain ⟨d, h, hd⟩ := h
  exact ⟨d, h.raise, hd⟩

section
variable (hb : b < s.bays.length)
include hb

/-- A change of what is known leaves the final values as they are. -/
theorem known {k : Known} (h : Gathered s b c fs t) :
    Gathered s b c fs (t.setColl b c.group c.index fun d => { d with known := d.known ++ [k] }) := by
  obtain ⟨d, h, hd⟩ := h
  exact ⟨_, h.setColl hb, hd⟩

theorem final {k : Known} (h : Gathered s b c fs t) :
    Gathered s b c (fs ++ [k]) (t.setColl b c.group c.index fun d => { d with finals := d.finals ++ [k] }) := by
  obtain ⟨d, h, hd⟩ := h
  exact ⟨_, h.setColl hb, by rw [← hd]⟩

variable {g : Group} (hid : g.id = c.group)
include hid

/-- A value of this member's own is learned once. -/
theorem learnFinal {k : Known} (h : Gathered s b c fs t) (hnew : ∀ f ∈ fs, f.first ≠ k.first) :
    Gathered s b c (fs ++ [k]) (t.learnFinal b g c.index k none) := by
  obtain ⟨d, hd, hfs⟩ := id h
  have hfresh : d.finals.any (fun f => f.lo == k.lo && f.first == k.first) = false := by
    rw [hfs]
    simp only [List.any_eq_false, Bool.and_eq_true, beq_iff_eq, not_and]
    exact fun f hf _ => hnew f hf
  have hlink := learnFinal_new (src := none) (hid.symm ▸ hd.found) hfresh (by simp [Net.isReturn])
  rw [hid] at hlink
  obtain ⟨e, he, hes⟩ := h.final hb (k := k)
  exact ⟨e, he.link hlink, hes⟩

variable {lc : Nat} (hg : Alone g lc)
include hg

/-- A chunk of the whole sum of one position is final once it is known (R185). -/
theorem rootDone {first : Nat} {vs : List Nat} (h : Gathered s b c fs t) (hnew : ∀ f ∈ fs, f.first ≠ first)
    (hal : (s.bay b).aligned c.opcode c.ops = none) (hne : 0 < vs.length)
    (hle : first + vs.length ≤ c.ops.count) :
    Gathered s b c (fs ++ [⟨0, 1, first, vs.map fun v => (finalCode c.ops.op c.ops.fmt v).1⟩]) (t.rootDone b g c first vs) := by
  unfold State.rootDone
  rw [hg.positions, hg.this, hid]
  simp only [List.map_map, Function.comp_def]
  split
  · exact h.raise.learnFinal hb hid hnew
  · have hraised := h.raise (f := orFlags (vs.map (finalCode c.ops.op c.ops.fmt)))
    obtain ⟨d, hd, -⟩ := id hraised
    have hseg : ((t.raise b (orFlags (vs.map (finalCode c.ops.op c.ops.fmt)))).bay b).segment c.opcode c.ops 1 0 =
        (0, c.ops.count) := segment_one ((aligned_congr hd.carries.train ..).trans hal)
    have htake : ∀ l : List Nat, l.length = vs.length → l.take (first + vs.length - first) = l := fun l hl =>
      List.take_of_length_le (by omega)
    simp only [List.range_one, List.foldl_cons, List.foldl_nil, hseg, List.length_map, Nat.max_zero, Nat.zero_add,
      Nat.min_eq_left hle, Nat.sub_self, List.drop_zero, htake, hg.ranks, List.length_singleton, Nat.zero_div, if_true]
    rw [if_neg (by omega)]
    exact hraised.final hb

/-- A chunk of the only position's elements is final once it is known. -/
theorem knowPartial {first : Nat} {vs : List Nat} (h : Gathered s b c fs t) (hnew : ∀ f ∈ fs, f.first ≠ first)
    (hal : (s.bay b).aligned c.opcode c.ops = none) (hne : 0 < vs.length)
    (hle : first + vs.length ≤ c.ops.count) :
    Gathered s b c (fs ++ [⟨0, 1, first, vs.map fun v => (finalCode c.ops.op c.ops.fmt v).1⟩])
      (t.knowPartial b g c ⟨0, 1, first, vs⟩) := by
  unfold State.knowPartial
  dsimp only
  rw [if_pos hg.positions.symm, hid]
  exact (h.known hb).rootDone hb hid hg hnew hal hne hle

/-- Every chunk of the only position's elements is final (R185). -/
theorem knowPart {u : State} (h : Gathered s b c [] t)
    (hal : (s.bay b).aligned c.opcode c.ops = none) (hc : 0 < c.chunk)
    (hcodes : (rawCodes c.ops.fmt c.ops.count (ownBytes u b g c (0, lc))).length = c.ops.count) :
    Gathered s b c (wholeFinals c.chunk ((rawCodes c.ops.fmt c.ops.count (ownBytes u b g c (0, lc))).map fun x =>
      (finalCode c.ops.op c.ops.fmt (leafCode c.ops.op c.ops.fmt x)).1)) (knowPart u b g c t (0, lc)) := by
  unfold Sys2Proof.knowPart wholeFinals
  rw [List.length_map, hcodes]
  refine h.foldl (fun _ => rfl) (pairwise_chunkStarts _ hc) (fun fs w f hf hw hnew => ?_) fun _ hk => absurd hk List.not_mem_nil
  have hlt := lt_of_mem_chunkStarts hc hf
  generalize hraw : rawCodes c.ops.fmt c.ops.count (ownBytes u b g c (0, lc)) = raw at hcodes
  have hlen : (((raw.map (leafCode c.ops.op c.ops.fmt)).drop f).take c.chunk).length = min c.chunk (c.ops.count - f) := by
    rw [List.length_take, List.length_drop, List.length_map, hcodes]
  have hdone := hw.knowPartial hb hid hg (first := f)
    (vs := ((raw.map (leafCode c.ops.op c.ops.fmt)).drop f).take c.chunk) hnew hal (by omega) (by omega)
  rw [List.map_take, List.map_drop, List.map_map] at hdone
  exact hdone

omit hg

/-- Bytes of this member's own are final as they are. -/
theorem learnPart {u : State} {x : Nat × Nat} (h : Gathered s b c [] t) :
    Gathered s b c (wholeFinals 2048 ((ownBytes u b g c x).map (·.toNat))) (learnPart u b g c 0 1 0 t x) := by
  unfold Sys2Proof.learnPart wholeFinals
  dsimp only
  simp only [Nat.zero_add]
  exact h.foldl (fun _ => rfl) (pairwise_chunkStarts _ (by decide)) (fun fs w f _ hw hnew => hw.learnFinal hb hid hnew)
    fun _ hk => absurd hk List.not_mem_nil

end

end Gathered

end Sys2Proof
end

section
/-! The end of a collective in a group of one position (R53, R185, R272), and the start of a collective. -/
namespace Sys2Proof
open Machine

/-! ### The whole of a collective -/

/-- Values that the whole of a collective has: elements of a reduction, bytes otherwise. -/
def wholeLength (opcode : Nat) (o : CollOps) : Nat := if isReduce opcode then o.count else collBytes o

/-- The bytes that a collective leaves at DST. -/
def wholeBytes (c : Coll) (vals : List Nat) : List Byte :=
  if isReduce c.opcode then packCodes c.ops.fmt vals else vals.map (BitVec.ofNat 8)

theorem IsDataColl.eq {opcode : Nat} (h : IsDataColl opcode) :
    opcode = 0x0400 ∨ opcode = 0x0401 ∨ opcode = 0x0402 ∨ opcode = 0x0403 := by
  simp only [IsDataColl, isReduce, Bool.or_eq_true, beq_iff_eq] at h
  omega

/-- The final values of one position's bytes (R53, R185). -/
def wholeVals (c : Coll) (src : List Byte) : List Nat :=
  if isReduce c.opcode then (rawCodes c.ops.fmt c.ops.count src).map fun x =>
    (finalCode c.ops.op c.ops.fmt (leafCode c.ops.op c.ops.fmt x)).1
  else src.map (·.toNat)

theorem length_wholeVals {c : Coll} {src : List Byte} (hsrc : src.length = collBytes c.ops)
    (hfmt : isReduce c.opcode = true → c.ops.fmt ≤ 7) : (wholeVals c src).length = wholeLength c.opcode c.ops := by
  unfold wholeVals wholeLength
  split
  · rename_i h
    rw [List.length_map, length_rawCodes (hfmt h) hsrc]
  · rw [List.length_map, hsrc]

theorem wholeBytes_wholeVals (c : Coll) (src : List Byte) : wholeBytes c (wholeVals c src) =
    if isReduce c.opcode then packCodes c.ops.fmt ((rawCodes c.ops.fmt c.ops.count src).map fun x =>
      (finalCode c.ops.op c.ops.fmt (leafCode c.ops.op c.ops.fmt x)).1) else src := by
  unfold wholeBytes wholeVals
  split
  · rfl
  · rw [List.map_map]
    exact List.map_id'' (fun x => by simp) src

/-! ### What the checks at dispatch give -/

theorem fmt_of_collFmtOk {opcode : Nat} {o : CollOps} (h : collFmtOk opcode o = true) (hred : isReduce opcode = true) :
    o.fmt ≤ 7 := by
  unfold collFmtOk at h
  rw [if_pos hred] at h
  split at h <;> simp at h <;> omega

theorem collChunk_pos {opcode : Nat} {o : CollOps} (h : o.fmt ≤ 7) : 0 < collChunk opcode o := by
  unfold collChunk
  generalize o.fmt = fmt at h
  split
  · decide
  · split
    · decide
    · interval_cases fmt <;> decide

theorem collCheck_none {s : State} {b opcode : Nat} {o : CollOps} {g : Group} (h : s.collCheck b opcode o = none)
    (hg : (s.bay b).formed? o.group = some g) :
    collFmtOk opcode o = true ∧ (opcode = 0x0403 → o.root < g.positions) := by
  unfold State.collCheck at h
  simp only [hg] at h
  split at h
  · cases h
  · split at h
    · cases h
    · rename_i hfmt hroot
      obtain ⟨hok, -⟩ := not_or.1 hfmt
      exact ⟨by simpa using hok, fun hop => by omega⟩

theorem ioStatus_writable {s : State} {b : Nat} {ins outs : List (Nat × Nat)} (h : s.ioStatus b ins outs = none) :
    s.ioStatus b [] outs = none := by
  rw [ioStatus_writes]
  unfold State.ioStatus at h
  split at h
  · cases h
  · split at h
    · cases h
    · rename_i hok
      simp only [Bool.or_eq_true, not_or] at hok
      exact if_neg hok.2

section
variable {g : Group} {lc : Nat} (hg : Alone g lc) {y : Bay} {d : Coll} {chunk : Nat} {vals : List Nat}

/-- One position holds as many bytes of SRC and DST as the whole has. -/
theorem bytes_one (opcode : Nat) {o : CollOps} (hal : y.aligned opcode o = none) :
    srcBytes y opcode o 1 0 = collBytes o ∧ dstBytes y opcode o 1 0 = collBytes o := by
  have hseg := segment_one hal
  unfold srcBytes dstBytes
  rw [hseg]
  refine ⟨?_, ?_⟩
  · split <;> rfl
  · split
    · exact (gatherOffset_one o).2
    · rfl
    · rfl

/-- The lateness of a member without peers is 0 (R272). -/
theorem lateness_one {now : Nat} (h : d.stamps = [(0, now)]) : d.lateness = (0, 0) := by
  unfold Coll.lateness
  simp [h, coreCycles]

include hg

theorem haveFinals_whole (hop : IsDataColl d.opcode) (hal : y.aligned d.opcode d.ops = none) (hc : 0 < chunk)
    (hd : d.finals = wholeFinals chunk vals) (hlen : vals.length = wholeLength d.opcode d.ops) :
    d.haveFinals y g = true := by
  have hgot : ((d.finals.filter (fun f => f.lo == 0)).map (·.elems.length)).sum = vals.length := by
    rw [hd, filter_wholeFinals, sum_wholeFinals hc]
  have hseg := segment_one hal
  have hreturn : (d.net g).hasReturn 0 = false := by
    simp [Net.hasReturn, Coll.net, hg.members]
  unfold Coll.haveFinals
  rcases hop.eq with h | h | h | h
  · simp [h, hgot, hlen, wholeLength, isReduce, collTotal]
  · simp [h, hg.positions, hgot, hlen, wholeLength, isReduce, hg.this, hreturn, divide_one, collBytes]
  · rw [h] at hseg
    simp [h, hg.positions, hg.myPositions, hg.nodes, hgot, hlen, wholeLength, isReduce, hseg]
  · simp [h, hgot, hlen, wholeLength, isReduce, collTotal]

/-- Where DST can be written, the values go there. -/
theorem writeColl_whole {u : State} {b : Nat} (hop : IsDataColl d.opcode) (hal : (u.bay b).aligned d.opcode d.ops = none)
    (hc : 0 < chunk) (hd : d.finals = wholeFinals chunk vals)
    (hok : u.ioStatus b [] [(d.ops.dst, collBytes d.ops)] = none)
    (hskip : u.rangeSkips b .wr d.ops.dst (collBytes d.ops) = false) :
    u.writeColl b g d = (none, u.writeBay b d.ops.dst (wholeBytes d vals)) := by
  unfold State.writeColl
  simp only [hal, Option.bind_none, hg.myPositions, hg.positions, List.map_cons, List.map_nil, hg.rankAddr,
    (bytes_one d.opcode hal).2, hok, outStatus_one hskip, List.foldl_cons, List.foldl_nil, finalsOf_whole hc vals hd, if_true]
  rcases hop.eq with h | h | h | h <;> simp [h, wholeBytes, isReduce, finalsOf_whole hc vals hd]

omit hg in
/-- The end of a command's collective takes no segment that came ahead. -/
theorem earlyColls_endColl {s : State} {b b' adm r : Nat} {st : Status} (h : d.adm = some adm) :
    ((s.endColl b d st r).bay b').earlyColls = (s.bay b').earlyColls := by
  unfold State.endColl
  rw [h]
  exact (congrArg Bay.earlyColls (State.finish_cores _ adm st r b')).trans (bay_setBay_kept Bay.earlyColls (fun _ => by rfl) ..)

/-- A collective of one position with its values ends OK with lateness 0, and they are at DST. -/
theorem Gathered.settles {s t : State} {b now : Nat} {c : Coll} {x : Slot} (h : Gathered s b c (wholeFinals chunk vals) t)
    (hb : b < s.bays.length) (hid : g.id = c.group) (hop : IsDataColl c.opcode)
    (hal : (s.bay b).aligned c.opcode c.ops = none) (hc : 0 < chunk) (hlen : vals.length = wholeLength c.opcode c.ops)
    (hok : s.ioStatus b [] [(c.ops.dst, collBytes c.ops)] = none)
    (hskip : s.rangeSkips b .wr c.ops.dst (collBytes c.ops) = false) (hst : c.stamps = [(0, now)])
    (hcor : c.corrected = false) (hadm : c.adm = some x.adm) (hs : s.slot? x.adm = some x) (hp : x.phase = .active) :
    SameMemory (s.writeBay b c.ops.dst (wholeBytes c vals)) (t.settleColl b g c.index) ∧
      Ended (t.settleColl b g c.index) x .ok 0 ∧ ((t.settleColl b g c.index).bay b).earlyColls = (s.bay b).earlyColls := by
  obtain ⟨d, ⟨hcarry, hside, hfound⟩, hfin⟩ := h
  have hopcode : d.opcode = c.opcode := by rw [hside]
  have hops : d.ops = c.ops := by rw [hside]
  have hstamps : d.stamps = [(0, now)] := by rw [hside]; exact hst
  have hdadm : d.adm = some x.adm := by rw [hside]; exact hadm
  have hdcor : d.corrected = false := by rw [hside]; exact hcor
  have hdata : wholeBytes d vals = wholeBytes c vals := by rw [wholeBytes, hopcode, hops, wholeBytes]
  rw [← hopcode] at hop
  rw [← hopcode, ← hops] at hal hlen
  rw [← hops] at hok hskip ⊢
  have hal' : (t.bay b).aligned d.opcode d.ops = none := (aligned_congr hcarry.train ..).trans hal
  have hstored := writeColl_whole hg hop hal hc hfin hok hskip
  obtain ⟨hstatus, halike⟩ := hcarry.alike.writeColl g hcarry.train hal
  rw [hstored] at hstatus halike
  have hkeep : KeepsRest t (t.writeColl b g d).2 := .writeColl hal'
  obtain ⟨f, hdone⟩ := settleColl_done (by rw [hid, hfound]) (haveFinals_whole hg hop hal' hc hfin hlen)
    (by rw [hstamps, hg.members]; rfl) hal' hstatus hdcor
  rw [lateness_one hstamps] at hdone
  let u := (t.writeColl b g d).2.setGroup b g.id f
  have hu : u.slot? x.adm = some x := (hkeep.slot? _).trans ((hcarry.slots _).trans hs)
  have hlength : b < u.bays.length := by
    unfold u State.setGroup
    rw [State.setBay_length, hkeep.bays, hcarry.count]
    exact hb
  obtain ⟨hmem, -, hended⟩ := endColl_command (s := u) (c := d) (r := 0) .ok hlength hdadm hu hp
  rw [hdone, ← hdata]
  refine ⟨halike.mem.trans hmem, hended, ?_⟩
  calc
    _ = (u.bay b).earlyColls := earlyColls_endColl hdadm
    _ = ((t.writeColl b g d).2.bay b).earlyColls := bay_setBay_kept Bay.earlyColls (fun _ => by rfl) ..
    _ = (t.bay b).earlyColls := congrArg (fun l => (nth l b).earlyColls) hkeep.bays
    _ = _ := hcarry.early

end

end Sys2Proof
end

section
/-! The start of a data collective (R183, R184, R185, R263, R272). -/
namespace Sys2Proof
open Machine

section
variable {s : State} {b lc : Nat} {g : Group} {c : Coll} (hg : Alone g lc) (hal : (s.bay b).aligned c.opcode c.ops = none)
include hg hal

/-- The only position contributes the bytes at SRC. -/
theorem ownBytes_alone : ownBytes (stamped s b g c) b g (started s g c) (0, lc) =
    s.readBay b c.ops.src (collBytes c.ops) := by
  have hcarry := Carries.stamped s b g c
  have hal' := (aligned_congr hcarry.train c.opcode c.ops).trans hal
  unfold ownBytes
  rw [hg.positions, hg.rankAddr, hcarry.alike.readBay]
  exact congrArg _ (bytes_one (y := (stamped s b g c).bay b) c.opcode hal').1

/-- Alone, a collective has the values of the whole when its start is done (R185, R266). -/
theorem startColl_alone (hb : b < s.bays.length) (hnone : s.coll? b c.group c.index = none) (hid : g.id = c.group)
    (hop : IsDataColl c.opcode) (hfmt : isReduce c.opcode = true → c.ops.fmt ≤ 7)
    (hroot : c.opcode = 0x0403 → c.ops.root = 0) (hfinals : c.finals = []) :
    ∃ t chunk, 0 < chunk ∧ s.startColl b g c = t.settleColl b g c.index ∧
      Gathered (stamped s b g c) b (started s g c)
        (wholeFinals chunk (wholeVals c (s.readBay b c.ops.src (collBytes c.ops)))) t := by
  have hcarry := Carries.stamped s b g c
  have hlen : b < (stamped s b g c).bays.length := hcarry.count ▸ hb
  have hal' : ((stamped s b g c).bay b).aligned c.opcode c.ops = none := (aligned_congr hcarry.train ..).trans hal
  have hown := ownBytes_alone hg hal
  have hbegin : Gathered (stamped s b g c) b (started s g c) [] (stamped s b g c) := ⟨_, .stamped hb hnone, hfinals⟩
  have hid' : g.id = (started s g c).group := hid
  unfold wholeVals
  by_cases hred : isReduce c.opcode = true
  · have hcodes := length_rawCodes (hfmt hred) (length_readBay s b c.ops.src (collBytes c.ops))
    have hpart := hbegin.knowPart (u := stamped s b g c) hlen hid' hg hal' (collChunk_pos (hfmt hred)) (by rw [hown]; exact hcodes)
    rw [hown] at hpart
    refine ⟨knowPart (stamped s b g c) b g (started s g c) (stamped s b g c) (0, lc), c.chunk, collChunk_pos (hfmt hred),
      ?_, by rw [if_pos hred]; exact hpart⟩
    rw [startColl_reduce hred, hg.myPositions, List.foldl_cons, List.foldl_nil, hg.addChunks]
    rfl
  · have hpart := hbegin.learnPart (u := stamped s b g c) (x := (0, lc)) hlen hid'
    rw [hown] at hpart
    refine ⟨learnPart (stamped s b g c) b g (started s g c) 0 1 0 (stamped s b g c) (0, lc), 2048, by decide, ?_,
      by rw [if_neg hred]; exact hpart⟩
    rcases hop with hop | hgather | hbroadcast
    · exact absurd hop hred
    · rw [startColl_gather hgather, hg.myPositions, hg.positions]
      rfl
    · rw [startColl_broadcast hbroadcast, hg.myPositions, hg.positions, hroot hbroadcast]
      rfl

end

/-- A dispatched collective of one position ends OK at once, with its values at DST. -/
theorem dispatched_ends {s : State} {c : Slot} {b lc opcode : Nat} {o : CollOps} {g : Group} (hg : Alone g lc)
    (hb : b < s.bays.length) (hs : s.slot? c.adm = some c) (hformed : (s.bay b).formed? o.group = some g)
    (hnone : s.coll? b o.group c.index = none)
    (hearly : (s.bay b).earlyColls.all (fun x => !(x.group == o.group && x.index == c.index)) = true)
    (hop : IsDataColl opcode) (hcheck : s.collCheck b opcode o = none) (haccess : s.collAccess b g opcode o = none)
    (hal : (s.bay b).aligned opcode o = none) (hskip : s.rangeSkips b .wr o.dst (collBytes o) = false) :
    let t := ((s.setActive c.adm).startColl b g (newColl c opcode o)).takeEarlySegs b o.group c.index
    Ended t c .ok 0 ∧ SameMemory (s.writeBay b o.dst
      (wholeBytes (newColl c opcode o) (wholeVals (newColl c opcode o) (s.readBay b o.src (collBytes o))))) t := by
  let s0 := s.setActive c.adm
  let x0 := newColl c opcode o
  have hid := formed?_id hformed
  obtain ⟨hfmtOk, hroot⟩ := collCheck_none hcheck hformed
  rw [hg.positions] at hroot
  have hfmt := fmt_of_collFmtOk hfmtOk
  have hstart := Carries.stamped s0 b g x0
  have halike : WritesAlike s (stamped s0 b g x0) b := ⟨hstart.alike.mem, hstart.alike.place, hstart.alike.gone⟩
  have hok : s.ioStatus b [] [(o.dst, collBytes o)] = none := by
    have := ioStatus_writable haccess
    simpa only [hal, Option.isSome_none, Bool.false_eq_true, if_false, hg.myPositions, List.map_cons, List.map_nil,
      hg.rankAddr, hg.positions, (bytes_one opcode hal).2] using this
  obtain ⟨u, chunk, hchunk, hu, hgathered⟩ := startColl_alone (s := s0) (c := x0) hg hal hb hnone hid hop hfmt
    (fun h => Nat.lt_one_iff.1 (hroot h)) rfl
  obtain ⟨hmem, hended, hkept⟩ := hgathered.settles (x := waiting s c) hg (hstart.count ▸ hb) hid hop
    ((aligned_congr hstart.train ..).trans hal) hchunk (length_wholeVals (length_readBay ..) hfmt)
    ((halike.ioStatus_outs ..).trans hok) (halike.rangeSkips .. ▸ hskip) (by rw [started, hg.this]) rfl rfl
    ((hstart.slots _).trans (slot?_setActive hs)) rfl
  have hu' : u.settleColl b g (started s0 g x0).index = s0.startColl b g x0 := hu.symm
  rw [hu'] at hmem hended hkept
  have hwritten : SameMemory (s.writeBay b o.dst (wholeBytes x0 (wholeVals x0 (s.readBay b o.src (collBytes o)))))
      (s0.startColl b g x0) := (halike.writeBay ..).mem.trans hmem
  rw [takeEarlySegs_none ((hkept.trans hstart.early).symm ▸ hearly)]
  exact ⟨hended, hwritten⟩

/-- Settles O27: a collective of one position holds its own values as the whole, one of several goes on with its stamp
alone. -/
theorem collectivesStart : Obligations.CollectivesStart := by
  unfold Obligations.CollectivesStart
  intro s c h b o g hparts hbay hb hformed hnone hearly hfaults k hk hr hcheck haccess
  have hlen : b < s.bays.length := by rw [hparts.1]; exact hb
  have hid := formed?_id hformed
  obtain ⟨hexec, hadm, hop⟩ := hr.exec_dataColl hk
  rw [runColl_starts hadm hbay hformed hcheck haccess] at hexec
  refine ⟨fun lc hm hthis hranks _ hal hskip => ?_, fun hm _ => ?_⟩
  · obtain ⟨hended, hmem⟩ := dispatched_ends (lc := lc) ⟨hm, hthis, hranks⟩ hlen hr.1 hformed hnone hearly hop hcheck haccess
      hal hskip
    rw [wholeBytes_wholeVals] at hmem
    exact ⟨_, hexec, hended, hmem⟩
  · obtain ⟨x, hbegun, hfound, hside, hsent⟩ := dispatched_underway hlen hr.1 hid hnone hearly hfaults hop hm
    rw [SameSide] at hside
    exact ⟨_, x, hexec, hbegun, hfound, by rw [hside]; rfl, by rw [hside]; rfl, by rw [hside]; rfl, by rw [hside]; rfl,
      by rw [hside]; rfl, hsent⟩

end Sys2Proof
end

section
/-! What reset leaves (R160, R202 to R204, R218, R311, R393, R425). -/
namespace Sys2Proof
open Machine

theorem nth_replicate {α : Type} [Inhabited α] {n i : Nat} (x : α) (h : i < n) : nth (List.replicate n x) i = x := by
  unfold nth List.getD
  rw [List.getElem?_replicate_of_lt h]
  rfl

theorem bay_reset {b : Nat} (hb : b < 16) : State.reset.bay b = Bay.reset := nth_replicate _ hb

/-- Settles O8: reset has empty memories, no command and every list of parts at its length. -/
theorem resetMeetsInvariants : Obligations.ResetMeetsInvariants := by
  unfold Obligations.ResetMeetsInvariants
  obtain ⟨hdram, hsram, hlocal, hhost⟩ := reset_wf
  have hnone : ∀ c ∈ State.reset.cmds, False := fun _ hc => List.not_mem_nil hc
  exact ⟨⟨hdram, hsram, hlocal, hhost, Mem.wf_nil, Mem.wf_nil⟩,
    ⟨List.Pairwise.nil, fun c hc => (hnone c hc).elim, List.Pairwise.nil, fun c hc => (hnone c hc).elim⟩,
    PartsCounted.reset⟩

/-- Settles O9: every bay is the bay of the model's reset, and the registers are the state's own. -/
theorem resetState : Obligations.ResetState := by
  unfold Obligations.ResetState
  refine ⟨fun b hb => ?_, rfl, rfl, rfl, rfl, rfl, rfl, rfl, rfl⟩
  rw [bay_reset hb]
  exact ⟨rfl, rfl, rfl, rfl, rfl, rfl, rfl, fun c hc => nth_replicate _ hc⟩

end Sys2Proof
end

section
/-! What a store leaves to read (R214, R339). -/
namespace Sys2Proof
open Machine

/-! ### Marked ranges (R214) -/

/-- What lies outside a cleared range reads as before. -/
theorem get_clear_outside {m : Mem} {a n x : Nat} (h : ¬ (a ≤ x ∧ x < a + n)) :
    Mem.get (Mem.clear m a n) x = Mem.get m x := by
  induction m with
  | nil => rfl
  | cons c m ih =>
    obtain ⟨k, v⟩ := c
    unfold Mem.clear at ih ⊢
    rw [List.filter_cons, Mem.get.eq_2 x k v m]
    by_cases hk : k = x
    · rw [if_pos (by simp only [hk, Bool.or_eq_true, decide_eq_true_eq]; omega), Mem.get.eq_2, if_pos hk, if_pos hk]
    · rw [if_neg hk, ← ih]
      split
      · rw [Mem.get.eq_2, if_neg hk]
      · rfl

/-- Filling a marked range with zero and clearing its mark reads as the mark did. -/
theorem dramByte_unmark (s : State) (r a : Nat) : (s.unmark r).dramByte a = s.dramByte a := by
  unfold State.unmark
  split
  · rename_i hr
    unfold State.dramByte
    dsimp only
    have hin : a / mib2 = r ↔ r * mib2 ≤ a ∧ a < r * mib2 + mib2 := by
      have := Nat.div_add_mod a mib2
      rw [Nat.div_eq_iff (by decide)]
      unfold mib2
      omega
    by_cases har : a / mib2 = r
    · obtain ⟨hlo, hhi⟩ := hin.1 har
      rw [if_neg (by simp [har]), if_pos (har ▸ hr), get_clear hlo hhi]
    · rw [get_clear_outside fun h => har (hin.2 h)]
      simp only [List.mem_filter, bne_iff_ne, ne_eq, har, not_false_eq_true, and_true]
  · rfl

theorem unmark_clears (s : State) (r : Nat) : r ∉ (s.unmark r).zeroMarks := by
  unfold State.unmark
  split
  · simp
  · assumption

theorem unmark_keeps_clear {s : State} {r x : Nat} (h : x ∉ s.zeroMarks) : x ∉ (s.unmark r).zeroMarks := by
  unfold State.unmark
  split
  · exact fun hx => h (List.mem_filter.1 hx).1
  · exact h

/-- No range of the list is left with a mark. -/
theorem unmarks_clear {rs : List Nat} {r : Nat} (hr : r ∈ rs) (s : State) :
    r ∉ (rs.foldl State.unmark s).zeroMarks := by
  induction rs generalizing s with
  | nil => cases hr
  | cons x xs ih =>
    rcases List.mem_cons.1 hr with rfl | hr
    · exact List.foldlRecOn xs State.unmark (motive := fun u => r ∉ u.zeroMarks) (unmark_clears s r)
        fun u hu _ _ => unmark_keeps_clear hu
    · exact ih hr _

theorem poison_unmarks (rs : List Nat) (s : State) : (rs.foldl State.unmark s).poison = s.poison := by
  refine List.foldlRecOn rs State.unmark (motive := fun u => u.poison = s.poison) rfl fun u hu r _ => ?_
  rw [← hu]
  unfold State.unmark
  split <;> rfl

theorem mem_rangesOf {a n x : Nat} (hlo : a ≤ x) (hhi : x < a + n) : x / mib2 ∈ rangesOf a n := by
  have hl : a / mib2 ≤ x / mib2 := Nat.div_le_div_right hlo
  have hr : x / mib2 ≤ (a + n - 1) / mib2 := Nat.div_le_div_right (by omega)
  unfold rangesOf
  rw [if_neg (by omega), List.mem_range'_1]
  omega

/-! ### One byte of a store -/

/-- The byte at a place. -/
def byteOf (s : State) (l : Loc) : Byte := match l.sp with
  | .dram => s.dramByte l.addr
  | .sram => Mem.get s.sram l.addr
  | .local_ => Mem.get s.local_ l.addr
  | .host => Mem.get s.host l.addr

theorem readLoc_eq_map (s : State) (l : Loc) (n : Nat) :
    s.readLoc l n = (List.range n).map (fun i => byteOf s ⟨l.sp, l.addr + i⟩) := by
  obtain ⟨sp, a⟩ := l
  cases sp <;> rfl

theorem readLoc_one (s : State) (l : Loc) : s.readLoc l 1 = [byteOf s l] := readLoc_eq_map s l 1

theorem byteOf_unmarks (rs : List Nat) (s : State) (l : Loc) : byteOf (rs.foldl State.unmark s) l = byteOf s l := by
  refine List.foldlRecOn rs State.unmark (motive := fun u => byteOf u l = byteOf s l) rfl fun u hu r _ => ?_
  rw [← hu]
  obtain ⟨sp, a⟩ := l
  cases sp
  case dram => exact dramByte_unmark u r a
  all_goals
    unfold State.unmark
    split <;> rfl

/-- The lines that a store leaves out (R339); a store to host memory leaves out none. -/
def skippedLines (s : State) (l : Loc) (n : Nat) : List Nat := if l.sp = .host then [] else s.skipped l n

/-- A byte of DRAM after bytes are written on ranges that bear no mark. -/
theorem dramByte_write {s : State} (h : s.dram.wf) (skip : List Nat) {a : Nat} {bs : List Byte}
    (hclear : ∀ x, a ≤ x → x < a + bs.length → x / mib2 ∉ s.zeroMarks) (x : Nat) :
    ({ s with dram := Mem.write skip s.dram a bs } : State).dramByte x =
      if a ≤ x ∧ x < a + bs.length ∧ x / 64 ∉ skip then nth bs (x - a) else s.dramByte x := by
  unfold State.dramByte
  dsimp only
  rw [Mem.get_write h]
  split
  · rename_i hmark
    rw [if_neg fun ⟨hlo, hhi, _⟩ => hclear x hlo hhi hmark]
  · rfl

/-- The poison map without the lines that a store covers whole (R339). -/
def coveredLost (poison : List Nat) (sp : Space) (a n : Nat) : List Nat := poison.filter (fun k =>
  !(decide (sp.base ≤ k) && decide (k < sp.base + 2 ^ 59) && coversLine a n (k - sp.base)))

/-- The state in which a store to DRAM sets its bytes: lines that it covers and ranges that it touches have lost their
marks (R214, R339). -/
def storeReady (s : State) (a n : Nat) : State :=
  (rangesOf a n).foldl State.unmark { s with poison := coveredLost s.poison .dram a n }

theorem storeReady_wf {s : State} (h : SpacesWf s) (a n : Nat) : (storeReady s a n).dram.wf :=
  (State.unmarks_wf (rangesOf a n) { s with poison := coveredLost s.poison .dram a n } h).1

theorem storeReady_poison (s : State) (a n : Nat) : (storeReady s a n).poison = coveredLost s.poison .dram a n :=
  (poison_unmarks (rangesOf a n) _).trans rfl

theorem byteOf_storeReady (s : State) (a n : Nat) (l : Loc) : byteOf (storeReady s a n) l = byteOf s l :=
  (byteOf_unmarks ..).trans rfl

theorem writeLoc_dram (s : State) (a : Nat) (bs : List Byte) :
    s.writeLoc ⟨.dram, a⟩ bs = { storeReady s a bs.length with
      dram := Mem.write (s.skipped ⟨.dram, a⟩ bs.length) (storeReady s a bs.length).dram a bs } := rfl

/-- A store writes no other memory. -/
theorem byteOf_writeLoc_other (s : State) {l l' : Loc} (h : l'.sp ≠ l.sp) (bs : List Byte) :
    byteOf (s.writeLoc l bs) l' = byteOf s l' := by
  obtain ⟨sp, a⟩ := l
  obtain ⟨sp', x⟩ := l'
  cases sp
  case dram =>
    rw [writeLoc_dram, ← byteOf_storeReady s a bs.length]
    cases sp'
    case dram => exact absurd rfl h
    all_goals rfl
  case sram => cases sp' <;> trivial
  case local_ => cases sp' <;> trivial
  case host => cases sp' <;> trivial

/-- A place reads the byte that a store put there, if the store covers it and does not skip its line; else its old byte. -/
theorem byteOf_writeLoc {s : State} (h : MemoriesCanonical s) (l l' : Loc) (bs : List Byte) :
    byteOf (s.writeLoc l bs) l' =
      if l'.sp = l.sp ∧ l.addr ≤ l'.addr ∧ l'.addr < l.addr + bs.length ∧
        l'.addr / 64 ∉ skippedLines s l bs.length
      then nth bs (l'.addr - l.addr) else byteOf s l' := by
  obtain ⟨hdram, hsram, hlocal, hhost, -⟩ := h
  by_cases hsp : l'.sp = l.sp
  · obtain ⟨sp, a⟩ := l
    obtain ⟨sp', x⟩ := l'
    cases hsp
    simp only [true_and]
    cases sp
    case dram =>
      rw [writeLoc_dram, ← byteOf_storeReady s a bs.length]
      exact dramByte_write (storeReady_wf ⟨hdram, hsram, hlocal, hhost⟩ a bs.length) _
        (fun y hlo hhi => unmarks_clear (mem_rangesOf hlo hhi) _) x
    case sram => exact Mem.get_write hsram ..
    case local_ => exact Mem.get_write hlocal ..
    case host => exact Mem.get_write hhost ..
  · rw [if_neg fun hc => hsp hc.1, byteOf_writeLoc_other s hsp]

/-! ### Poisoned lines (R339) -/

theorem line_eq (l : Loc) : l.line = l.sp.base + l.addr / 64 := by
  obtain ⟨sp, a⟩ := l
  cases sp <;> simp [Loc.line, Space.base]

/-- A store of device memory skips a line that it touches if the line is poisoned and not covered whole. -/
theorem mem_skippedLines {s : State} {sp : Space} {a n x : Nat} (hsp : sp ≠ .host) (hlo : a ≤ x) (hhi : x < a + n) :
    x / 64 ∈ skippedLines s ⟨sp, a⟩ n ↔ (Loc.mk sp x).line ∈ s.poison ∧ coversLine a n (x / 64) = false := by
  have hlow : a / 64 ≤ x / 64 := Nat.div_le_div_right hlo
  unfold skippedLines State.skipped
  rw [if_neg hsp, line_eq, line_eq]
  simp only [List.mem_map, List.mem_filter, Bool.and_eq_true, Bool.not_eq_true', decide_eq_true_eq]
  constructor
  · rintro ⟨k, ⟨hk, ⟨⟨hbase, -⟩, -⟩, hcover⟩, hline⟩
    have hkey : sp.base + x / 64 = k := by omega
    rw [hkey, ← hline]
    exact ⟨hk, hcover⟩
  · rintro ⟨hk, hcover⟩
    refine ⟨sp.base + x / 64, ⟨hk, ⟨⟨by omega, by omega⟩, by omega⟩, ?_⟩, by omega⟩
    rwa [Nat.add_sub_cancel_left]

theorem poison_writeLoc (s : State) (l : Loc) (bs : List Byte) :
    (s.writeLoc l bs).poison = coveredLost s.poison l.sp l.addr bs.length := by
  obtain ⟨sp, a⟩ := l
  cases sp
  case dram => exact storeReady_poison s a bs.length
  all_goals rfl

/-- Lines of different memories have different keys. -/
theorem base_range_iff {l : Loc} {sp : Space} (hsp : sp ≠ .host) (h : l.addr < 2 ^ 64) :
    (sp.base ≤ l.line ∧ l.line < sp.base + 2 ^ 59) ↔ l.sp = sp := by
  obtain ⟨sp', a⟩ := l
  have hline : a / 64 < 2 ^ 58 := by
    dsimp only at h
    omega
  rw [line_eq]
  cases sp <;> cases sp' <;> simp [Space.base, Loc.line] at hsp hline ⊢ <;> omega

/-- Settles O59: a place reads what a store put there unless the store skips its line. -/
theorem storesReadBack : Obligations.StoresReadBack := by
  unfold Obligations.StoresReadBack
  rintro s t l bs h rfl
  refine ⟨fun l' hl => ?_, fun hhost => ?_, fun hdev hend => ⟨fun j hj => ?_, fun l' hl => ?_⟩⟩
  · rw [readLoc_one, readLoc_one, byteOf_writeLoc h, if_neg]
    rintro ⟨hsp, hlo, hhi, -⟩
    rcases hl with hl | hl | hl
    · exact hl hsp
    · omega
    · omega
  · rw [readLoc_eq_map]
    refine List.ext_getElem (by simp) fun i hi _ => ?_
    have hlt : i < bs.length := by simpa using hi
    simp only [List.getElem_map, List.getElem_range]
    rw [byteOf_writeLoc h, if_pos ⟨rfl, by simp, by simpa using hlt, by simp [skippedLines, hhost]⟩]
    simp [nth, hlt]
  · have hskip := mem_skippedLines (s := s) (a := l.addr) (n := bs.length) (x := l.addr + j) hdev (by omega) (by omega)
    rw [readLoc_one, readLoc_one, byteOf_writeLoc h]
    dsimp only
    rw [Nat.add_sub_cancel_left]
    by_cases hs : (l.addr + j) / 64 ∈ skippedLines s l bs.length
    · rw [if_neg fun ⟨_, _, _, hkept⟩ => hkept hs, if_pos (hskip.1 hs)]
    · rw [if_pos ⟨rfl, by omega, by omega, hs⟩, if_neg fun hc => hs (hskip.2 hc)]
  · have hrange := base_range_iff hdev hl
    have hsub : l'.sp = l.sp → l'.line - l.sp.base = l'.addr / 64 := fun hsp => by
      rw [line_eq, hsp, Nat.add_sub_cancel_left]
    rw [poison_writeLoc, coveredLost, List.mem_filter]
    refine and_congr_right fun _ => ?_
    simp only [Bool.not_eq_true', ← Bool.not_eq_true, Bool.and_eq_true, decide_eq_true_eq, hrange]
    exact not_congr (and_congr_right fun hsp => by rw [hsub hsp])

end Sys2Proof
end

section
/-! Device resets: what a warm reset and a cold boot leave (R218, R351, R353, R394, R401, R426). -/
namespace Sys2Proof
open Machine

/-- DEV_READY alone, and the output that says so, change when the device stops being ready (R394). -/
theorem dropReady_frame (s : State) :
    s.dropReady = { s with dev := { s.dev with devReady := s.dropReady.dev.devReady }, outs := s.dropReady.outs } := by
  unfold State.dropReady
  split <;> rfl

/-! ### Warm resets (R218, R353) -/

/-- What a warm reset leaves: every bay UNBOUND without keys, no command, stage 1 of a warm boot; logs, flash and history
stay. -/
def WarmStarted (s t : State) : Prop :=
  (∀ b, b < 16 → (t.bay b).st = .unbound ∧ (t.bay b).keys = List.replicate 4 .empty ∧ (t.bay b).log = (s.bay b).log) ∧
    t.version = 0 ∧ t.cmds = [] ∧ t.boot.stage = 1 ∧ t.boot.ready = false ∧ t.boot.warm = true ∧
    t.errLog = s.errLog ∧ t.flash = s.flash ∧ t.season = s.season ∧ t.dev.hold = 0

theorem bay_warmReset {s : State} {b : Nat} (hb : b < s.bays.length) :
    s.warmReset.bay b = { Bay.reset with log := (s.bay b).log, tele := (s.bay b).tele, since := (s.bay b).since } := by
  have hbays : s.warmReset.bays =
      s.bays.map (fun y => { Bay.reset with log := y.log, tele := y.tele, since := y.since }) := by
    unfold State.warmReset State.startBoot State.bootRec State.loseMemory
    rw [dropReady_frame]
  unfold State.bay
  rw [hbays]
  simp [nth, hb]

theorem warmReset_started {s : State} (h : PartsCounted s) : WarmStarted s s.warmReset := by
  refine ⟨fun b hb => ?_, ?_⟩
  · rw [bay_warmReset (by rw [h.1]; exact hb)]
    exact ⟨rfl, rfl, rfl⟩
  · unfold State.warmReset State.startBoot State.bootRec State.loseMemory
    rw [dropReady_frame]
    exact ⟨rfl, rfl, rfl, rfl, rfl, rfl, rfl, rfl, rfl⟩

theorem exec_deviceReset {s : State} (hup : s.hostUp = true) (hpower : s.dev.poweringDown = false) :
    exec (.deviceReset 0x57525354) s = .next s.warmReset := by
  show execDeviceReset _ s = _
  unfold execDeviceReset
  simp [hup, hpower]

theorem exec_deviceReset_other {s : State} {v : W32} (hv : v ≠ 0x57525354) : exec (.deviceReset v) s = .next s := by
  show execDeviceReset v s = _
  unfold execDeviceReset
  rw [if_neg fun ⟨_, hmagic, _⟩ => hv hmagic]

theorem exec_pfFunctionLevelReset {s : State} (hup : s.hostUp = true) (hpower : s.dev.poweringDown = false) :
    exec .pfFunctionLevelReset s = .next s.warmReset := by
  show execPfFunctionLevelReset s = _
  unfold execPfFunctionLevelReset
  simp [hup, hpower]

theorem exec_pciePerstN_low {s : State} (hup : s.hostUp = true) (hready : s.boot.ready = true)
    (hhigh : s.dev.perstLow = false) :
    exec (.pciePerstN true) s = .next ({ s with dev := { s.dev with perstLow := true } } : State).warmReset := by
  have hhold : s.dev.hold = 0 := by
    unfold State.hostUp at hup
    simp only [Bool.and_eq_true, beq_iff_eq] at hup
    exact hup.1
  show execPciePerstN true s = _
  unfold execPciePerstN
  simp [hhold, hready, hhigh]

/-! ### Cold boots (R351, R401) -/

/-- What a cold reset leaves of bays, flash, log and stage, and that it powers the always-on domains. -/
structure ColdStarted (s t : State) (hold : Nat) : Prop where
  bays : t.bays = State.reset.bays
  flash : t.flash = s.flash
  errLog : t.errLog = State.reset.errLog
  hold : t.dev.hold = hold
  resetLow : t.dev.resetLow = s.dev.resetLow
  stage : t.boot.stage = 1
  warm : t.boot.warm = false
  management : t.power.getD 62 false = true
  security : t.power.getD 63 false = true

theorem coldBoot_low {s : State} (h : s.dev.resetLow = true) : ColdStarted s s.coldBoot 2 := by
  unfold State.coldBoot
  rw [if_pos h]
  unfold State.cleared State.loseMemory
  rw [dropReady_frame]
  exact ⟨rfl, rfl, rfl, rfl, rfl, rfl, rfl, rfl, rfl⟩

theorem coldBoot_high {s : State} (h : s.dev.resetLow = false) : ColdStarted s s.coldBoot 0 := by
  unfold State.coldBoot
  rw [if_neg (by simp [h])]
  unfold State.cleared State.loseMemory
  rw [dropReady_frame]
  exact ⟨rfl, rfl, rfl, rfl, rfl, rfl, rfl, rfl, rfl⟩

theorem exec_powerInRange {s : State} (h : s.dev.hold = 1) : exec .powerInRange s = .next s.coldBoot := by
  show execPowerInRange s = _
  unfold execPowerInRange
  rw [if_pos h]

theorem exec_resetN_low {s : State} (h : s.dev.hold = 0) :
    exec (.resetN true) s = .next ({ s with dev := { s.dev with resetLow := true } } : State).coldBoot := by
  show execResetN true s = _
  unfold execResetN
  simp [h]

theorem exec_resetN_released {s : State} (h : s.dev.hold = 2) (hlow : s.dev.resetLow = true) :
    exec (.resetN false) s = .next ({ s with dev := { s.dev with resetLow := false } } : State).coldBoot := by
  show execResetN false s = _
  unfold execResetN
  simp [h, hlow]

/-- Settles O35: every command of the three starts `State.warmReset`, and power and RESET_N start `State.coldBoot`. -/
theorem deviceResetsPerform : Obligations.DeviceResetsPerform := by
  unfold Obligations.DeviceResetsPerform
  intro s hparts
  refine ⟨fun hup hpower i hi hperst => ?_, fun v hv => exec_deviceReset_other hv, fun hhigh hoff => ?_, fun hon => ?_,
    fun hheld hlow => ?_⟩
  · simp only [List.mem_cons, List.not_mem_nil, or_false] at hi
    rcases hi with rfl | rfl | rfl
    · exact ⟨_, exec_deviceReset hup hpower, warmReset_started hparts⟩
    · exact ⟨_, exec_pfFunctionLevelReset hup hpower, warmReset_started hparts⟩
    · obtain ⟨hready, hhigh⟩ := hperst rfl
      exact ⟨_, exec_pciePerstN_low hup hready hhigh,
        warmReset_started (s := { s with dev := { s.dev with perstLow := true } }) hparts⟩
  · have hcold := coldBoot_high hhigh
    exact ⟨_, exec_powerInRange hoff, hcold.hold, hcold.stage, hcold.warm, hcold.bays, hcold.flash, hcold.errLog,
      hcold.management, hcold.security⟩
  · have hcold := coldBoot_low (s := { s with dev := { s.dev with resetLow := true } }) rfl
    exact ⟨_, exec_resetN_low hon, hcold.hold, hcold.resetLow, hcold.bays, hcold.flash⟩
  · have hcold := coldBoot_high (s := { s with dev := { s.dev with resetLow := false } }) rfl
    exact ⟨_, exec_resetN_released hheld hlow, hcold.hold, hcold.resetLow, hcold.stage, hcold.bays, hcold.flash⟩

end Sys2Proof
end

section
/-! Transactions: opened, staged, rolled back and committed (R205 to R211, R213). -/
namespace Sys2Proof
open Machine

/-! ### Commands of the control and urgent queues -/

/-- The end of a command that no bay's queue holds touches no bay: it signals no counter and no queue of a bay settles. -/
theorem bays_finishNat_offBay {s : State} {c : Slot} (hs : s.slot? c.adm = some c) (hbay : c.bay? = none) (st : Status)
    (r : Nat) : (s.finishNat c.adm st r).bays = s.bays := by
  have hmark : ∀ st' r', ((s.markFinished c.adm st' r').dropIfSilent c.adm).bays = s.bays := fun st' r' => by
    rw [State.dropIfSilent_frame]
    unfold State.markFinished
    rw [hs]
    simp only [hbay]
    split <;> rfl
  unfold State.finishNat State.finish
  rw [hs]
  dsimp only
  unfold State.settle
  split
  · rename_i b q horg
    rw [Slot.bay?, horg] at hbay
    cases hbay
  · rw [State.settleControl_frame]
    exact hmark _ _
  · exact hmark _ _

/-- The end of a command that no bay's queue holds. -/
theorem ends_offBay {s : State} {c : Slot} (hs : s.slot? c.adm = some c) (hf : c.finished? = false)
    (hbay : c.bay? = none) (st : Status) (r : Nat) :
    Ended (s.finishNat c.adm st r) c st r ∧ (∀ b, (s.finishNat c.adm st r).bay b = s.bay b) ∧
      (s.finishNat c.adm st r).version = s.version := by
  refine ⟨ended_finishNat hs hf st r, fun b => ?_, ?_⟩
  · unfold State.bay
    rw [bays_finishNat_offBay hs hbay]
  · unfold State.finishNat
    rw [State.finish_frame]

/-! ### A bay that enters a state (R204) -/

theorem OtherBays.refl (s : State) (b : Nat) : OtherBays s s b := fun _ _ => rfl

theorem OtherBays.enter {s t : State} {b : Nat} (h : OtherBays s t b) (st : BayState) :
    OtherBays s (t.enter b st) b := by
  have hevent : ∀ u : State, OtherBays s u b → OtherBays s (u.bayEvent b 0) b := fun u hu => by
    unfold State.bayEvent
    dsimp only
    split
    · exact hu
    · split
      · intro b' hb'
        unfold State.bay
        rw [State.bayIrq_bays]
        exact hu.setBay _ b' hb'
      · exact hu.setBay _
  unfold State.enter
  split
  · exact h
  · exact hevent _ (h.setBay _)

/-- A bay changed that then enters another state. -/
theorem bay_enter_setBay {s : State} {b : Nat} {f : Bay → Bay} {st : BayState} (hne : (f (s.bay b)).st ≠ st)
    (hb : b < s.bays.length) :
    ∃ e, ((s.setBay b f).enter b st).bay b =
      { f (s.bay b) with st := st, regs := { (f (s.bay b)).regs with event := e } } := by
  have hbay := State.bay_setBay_self s b f hb
  obtain ⟨e, he⟩ := bay_enter (s := s.setBay b f) (b := b) (st := st) (by rwa [hbay])
    (by rw [State.setBay_length]; exact hb)
  exact ⟨e, by rw [he, hbay]⟩

/-! ### Opening (R206) -/

section
variable {s : State} {c : Slot} {h : Hdr} {b : Nat}

/-- The bay with an open transaction; one that was UNBOUND is BINDING, with the values of Table 8.1. -/
def txnOpened (s : State) (b : Nat) : State :=
  let u := s.setBay b (fun y => { y with txn := some [], txnSpan := (s.nextAdm, 0) })
  if (u.bay b).st = .unbound then u.leaveUnbound b else u

theorem Running.exec_txnBegin (hr : Running s c (.txnBegin h b)) (hb : b < 16) (hnone : (s.bay b).txn = none) :
    exec (.txnBegin h b) s = .next ((txnOpened s b).finishNat c.adm .ok 0) := by
  refine congrArg _ ((hr.onRunning rfl _).trans ?_)
  rw [if_neg (by omega), if_neg (by simp [hnone]), hr.adm_eq rfl]
  rfl

theorem txnOpened_frame (s : State) (b : Nat) :
    txnOpened s b = { s with bays := (txnOpened s b).bays, outs := (txnOpened s b).outs } := by
  unfold txnOpened State.leaveUnbound
  dsimp only
  split
  · rw [State.enter_frame]
    rfl
  · rfl

theorem otherBays_txnOpened (s : State) (b : Nat) : OtherBays s (txnOpened s b) b := by
  have hopen := (OtherBays.refl s b).setBay fun y => { y with txn := some [], txnSpan := (s.nextAdm, 0) }
  unfold txnOpened State.leaveUnbound
  dsimp only
  split
  · exact (hopen.setBay _).enter _
  · exact hopen

theorem bay_txnOpened (hb : b < s.bays.length) :
    ((txnOpened s b).bay b).txn = some [] ∧
      ((txnOpened s b).bay b).st = (if (s.bay b).st = .unbound then .binding else (s.bay b).st) ∧
      ((txnOpened s b).bay b).bind = (if (s.bay b).st = .unbound then BindRec.fresh else (s.bay b).bind) := by
  have hbay := State.bay_setBay_self s b (fun y => { y with txn := some [], txnSpan := (s.nextAdm, 0) }) hb
  unfold txnOpened State.leaveUnbound
  dsimp only
  rw [hbay]
  dsimp only
  split
  · rename_i hst
    obtain ⟨e, he⟩ := bay_enter_setBay (st := .binding)
      (s := s.setBay b (fun y => { y with txn := some [], txnSpan := (s.nextAdm, 0) }))
      (f := fun y => { y with bind := BindRec.fresh, tele := List.replicate 20 0, since := s.now })
      (by rw [hbay]; simp [hst]) (by rw [State.setBay_length]; exact hb)
    rw [hbay] at he
    refine ⟨(congrArg Bay.txn he).trans rfl, (congrArg Bay.st he).trans rfl, (congrArg Bay.bind he).trans rfl⟩
  · rw [hbay]
    exact ⟨rfl, rfl, rfl⟩

/-! ### Staging (R206, R207) -/

/-- A binding opcode that passes its checks joins the staged commands of the bay that it names. -/
theorem Running.exec_binding {i : Instr} {un : Bool} {m : W32} {f n : Nat} {o : ShareOps}
    (hi : i = .bindCluster h b un m ∨ i = .bindMemory h b un f n ∨ i = .bindShares h b o) (hr : Running s c i)
    (hcheck : s.bindCheck i = none) {l : List Staged} (htxn : (s.bay b).txn = some l) (hroom : l.length < 64) :
    exec i s = .next ((s.setBay b (fun y => { y with txn := some (l ++ [⟨i⟩]) })).finishNat c.adm .deferred 0) := by
  have hstage : s.stage c.adm b i =
      (s.setBay b (fun y => { y with txn := some (l ++ [⟨i⟩]) })).finishNat c.adm .deferred 0 := by
    unfold State.stage
    simp only [hcheck, htxn, if_neg (Nat.not_le.2 hroom)]
  rw [← hstage]
  rcases hi with rfl | rfl | rfl
  all_goals
    rw [hr.adm_eq rfl]
    exact congrArg _ (hr.onRunning rfl _)

/-! ### Closing (R208, R209) -/

/-- The bay without its transaction; one that was BINDING is UNBOUND again. -/
def txnClosed (s : State) (b : Nat) (span : Bay → Nat × Nat) : State :=
  let u := s.setBay b (fun y => { y with txn := none, txnSpan := span y })
  if (u.bay b).st = .binding then u.enter b .unbound else u

theorem txnClosed_frame (s : State) (b : Nat) (span : Bay → Nat × Nat) :
    txnClosed s b span = { s with bays := (txnClosed s b span).bays, outs := (txnClosed s b span).outs } := by
  unfold txnClosed
  dsimp only
  split
  · rw [State.enter_frame]
    rfl
  · rfl

theorem otherBays_txnClosed (s : State) (b : Nat) (span : Bay → Nat × Nat) : OtherBays s (txnClosed s b span) b := by
  have hclosed := (OtherBays.refl s b).setBay fun y => { y with txn := none, txnSpan := span y }
  unfold txnClosed
  dsimp only
  split
  · exact hclosed.enter _
  · exact hclosed

theorem bay_txnClosed (span : Bay → Nat × Nat) (hb : b < s.bays.length) :
    ((txnClosed s b span).bay b).txn = none ∧ ((txnClosed s b span).bay b).bind = (s.bay b).bind ∧
      ((txnClosed s b span).bay b).st = (if (s.bay b).st = .binding then .unbound else (s.bay b).st) := by
  have hbay := State.bay_setBay_self s b (fun y => { y with txn := none, txnSpan := span y }) hb
  unfold txnClosed
  dsimp only
  rw [hbay]
  dsimp only
  split
  · rename_i hst
    obtain ⟨e, he⟩ := bay_enter_setBay (st := .unbound) (f := fun y => { y with txn := none, txnSpan := span y })
      (by simp [hst]) hb
    rw [he]
    exact ⟨rfl, rfl, rfl⟩
  · rw [hbay]
    exact ⟨rfl, rfl, rfl⟩

/-- A knock-down closes the transaction (R209). -/
theorem knockDown_eq {l : List Staged} (htxn : (s.bay b).txn = some l) :
    s.knockDown b = txnClosed s b (fun y => (y.txnSpan.1, s.nextAdm)) := by
  unfold State.knockDown
  rw [if_neg (by simp [htxn])]
  rfl

theorem Running.exec_txnRollback (hr : Running s c (.txnRollback h b)) (hb : b < 16) {l : List Staged}
    (htxn : (s.bay b).txn = some l) :
    exec (.txnRollback h b) s =
      .next ((txnClosed s b (fun y => (y.txnSpan.1, s.nextAdm))).finishNat c.adm .ok l.length) := by
  rw [← knockDown_eq htxn]
  refine congrArg _ ((hr.onRunning rfl _).trans ?_)
  rw [if_neg (by omega), htxn, hr.adm_eq rfl]

end

/-! ### Committing (R208, R211, R213) -/

/-- What a commit makes of the staged commands: it closes an empty transaction, and tests any other. -/
def txnTested (s : State) (b adm us : Nat) (l : List Staged) : State :=
  if l.isEmpty then (txnClosed s b (fun _ => (0, 0))).finishNat adm .ok s.version.toNat
  else match s.pegTest b l with
    | .inl r => (s.knockDown b).finishNat adm .conflict r
    | .inr r => (s.setActive adm).beginPeg b adm us r

/-- Commits go through their tests when the bay is neither QUIESCING nor EVICTING and no peg runs. -/
theorem Running.exec_txnCommit {s : State} {c : Slot} {h : Hdr} {b us : Nat} {l : List Staged}
    (hr : Running s c (.txnCommit h b us)) (hlen : b < s.bays.length) (hb : b < 16) (hus : us ≤ 50000)
    (htxn : (s.bay b).txn = some l) (hpeg : s.peg = none) (hquiescing : (s.bay b).st ≠ .quiescing)
    (hevicting : (s.bay b).st ≠ .evicting) : exec (.txnCommit h b us) s = .next (txnTested s b c.adm us l) := by
  refine congrArg _ ((hr.onRunning rfl _).trans ?_)
  dsimp only
  rw [if_neg (by omega), htxn, hr.adm_eq rfl]
  dsimp only
  rw [if_neg (by simp [hquiescing, hevicting, hpeg])]
  unfold txnTested
  split
  · have hversion : (txnClosed s b (fun _ => (0, 0))).version = s.version := by rw [txnClosed_frame]
    rw [← hversion]
    unfold txnClosed
    dsimp only
    rw [State.bay_setBay_self _ _ _ hlen]
  · rfl

theorem txnTested_empty (s : State) (b adm us : Nat) :
    txnTested s b adm us [] = (txnClosed s b (fun _ => (0, 0))).finishNat adm .ok s.version.toNat := rfl

section
variable {s : State} {b : Nat} {l : List Staged} (hl : l ≠ [])
include hl

theorem txnTested_conflict (adm us : Nat) {r : Nat} (htxn : (s.bay b).txn = some l) (htest : s.pegTest b l = .inl r) :
    txnTested s b adm us l = (txnClosed s b (fun y => (y.txnSpan.1, s.nextAdm))).finishNat adm .conflict r := by
  unfold txnTested
  rw [if_neg (by simpa using hl), htest, ← knockDown_eq htxn]

theorem txnTested_pegs (adm us : Nat) {r : BindRec} (htest : s.pegTest b l = .inr r) :
    txnTested s b adm us l = (s.setActive adm).beginPeg b adm us r := by
  unfold txnTested
  rw [if_neg (by simpa using hl), htest]

end

/-! ### The peg's beginning (R211, R213) -/

/-- The slot of a command as a peg leaves it: one that is held takes the new version. -/
def restamped (v : W32) (c : Slot) : Slot := if c.phase == Phase.held then { c with stamp := v } else c

section
variable (s : State) (b adm us : Nat) (r : BindRec)

theorem cmds_beginPeg : (s.beginPeg b adm us r).cmds = s.cmds.map (restamped (s.version + 1)) := rfl

theorem version_beginPeg : (s.beginPeg b adm us r).version = s.version + 1 := rfl

theorem slot?_beginPeg (n : Nat) :
    (s.beginPeg b adm us r).slot? n = (s.slot? n).map (restamped (s.version + 1)) := by
  unfold State.slot?
  rw [cmds_beginPeg]
  refine find?_map_adm s.cmds (fun c => ?_) n
  unfold restamped
  split <;> rfl

theorem otherBays_beginPeg : OtherBays s (s.beginPeg b adm us r) b := (OtherBays.refl s b).setBay _

theorem stamp_beginPeg {x : Slot} (hx : x ∈ (s.beginPeg b adm us r).cmds) (hheld : x.phase = .held) :
    x.stamp = s.version + 1 := by
  obtain ⟨c, -, rfl⟩ := List.mem_map.1 (cmds_beginPeg s b adm us r ▸ hx)
  unfold restamped at hheld ⊢
  split
  · rfl
  · rename_i hc
    rw [if_neg hc] at hheld
    simp [hheld] at hc

/-- The bay has its new record at once, and no transaction. -/
theorem bay_beginPeg (hb : b < s.bays.length) :
    ((s.beginPeg b adm us r).bay b).bind = r ∧ ((s.beginPeg b adm us r).bay b).txn = none := by
  have hbay : (s.beginPeg b adm us r).bay b = _ := State.bay_setBay_self s b _ hb
  rw [hbay]
  exact ⟨rfl, rfl⟩

theorem peg_beginPeg : ∃ p, (s.beginPeg b adm us r).peg = some p ∧ p.bay = b ∧ p.adm = adm ∧
    p.clusters = (s.bay b).bind.clusters &&& ~~~r.clusters := ⟨_, rfl, rfl, rfl, rfl⟩

end

end Sys2Proof
end

section
/-!
The binding-table version through the operations that end work in progress: none of them moves it (R213). `VersionIs.f`
says so of the operation `f`.
-/
namespace Sys2Proof
open Machine

/-- The binding-table version of the state. -/
abbrev VersionIs (v : W32) (s : State) : Prop := s.version = v

namespace VersionIs

variable {v : W32} {s : State}

theorem ite {t : State} {c : Prop} [Decidable c] (hs : VersionIs v s) (ht : VersionIs v t) :
    VersionIs v (if c then s else t) := by
  split
  · exact hs
  · exact ht

theorem ite_fst {α : Type} {c : Prop} [Decidable c] {a b : State × α} (ha : VersionIs v a.1) (hb : VersionIs v b.1) :
    VersionIs v (if c then a else b).1 := by
  split
  · exact ha
  · exact hb

theorem foldl {α : Type} {f : State → α → State} {l : List α} (h : VersionIs v s)
    (hf : ∀ s a, VersionIs v s → VersionIs v (f s a)) : VersionIs v (l.foldl f s) :=
  List.foldlRecOn l f (motive := VersionIs v) h fun s hs a _ => hf s a hs

theorem foldl_fst {α β : Type} {f : State × β → α → State × β} {l : List α} {a : State × β} (h : VersionIs v a.1)
    (hf : ∀ a x, VersionIs v a.1 → VersionIs v (f a x).1) : VersionIs v (l.foldl f a).1 :=
  List.foldlRecOn l f (motive := fun a => VersionIs v a.1) h fun a ha x _ => hf a x ha

theorem link {t : State} (h : VersionIs v s) (hl : LinkOnly s t) : VersionIs v t := by
  rw [hl.rest]
  exact h

theorem setBay {b} {f : Bay → Bay} (h : VersionIs v s) : VersionIs v (s.setBay b f) := h

theorem setSlot {adm} {f : Slot → Slot} (h : VersionIs v s) : VersionIs v (s.setSlot adm f) := h

theorem setTrain {b} {f : Train → Train} (h : VersionIs v s) : VersionIs v (s.setTrain b f) := h

theorem setGather {b adm} {f : Gather → Gather} (h : VersionIs v s) : VersionIs v (s.setGather b adm f) := h

/-! ### Memory, logs and the end of a command -/

theorem writeBay {b a bs} (h : VersionIs v s) : VersionIs v (s.writeBay b a bs) := by
  rw [State.writeBay_frame]
  exact h

theorem clearLoc {l n} (h : VersionIs v s) : VersionIs v (s.clearLoc l n) := by
  unfold State.clearLoc
  dsimp only
  split <;> exact h

theorem mixed {t : State} (h : VersionIs v s) : VersionIs v (s.mixed t) :=
  foldl (f := State.unmark) h fun _ _ hs => .ite hs hs

theorem log1 {e} (h : VersionIs v s) : VersionIs v (s.log1 e) := h.link (LinkOnly.refl s).log1

theorem logBadReads {b acc tag rs} (h : VersionIs v s) : VersionIs v (s.logBadReads b acc tag rs) := by
  unfold State.logBadReads State.logPoisonRead
  split
  · rw [State.log2_frame]
    exact h
  · exact h

theorem raise {b f} (h : VersionIs v s) : VersionIs v (s.raise b f) := .ite h h

theorem finishNat {adm st result} (h : VersionIs v s) : VersionIs v (s.finishNat adm st result) := by
  unfold State.finishNat
  rw [State.finish_frame]
  exact h

theorem stopFields {c cause} (h : VersionIs v s) : VersionIs v (s.stopFields c cause).1 := .ite h h

theorem cutChannels {key} {f : Nat → Bool} (h : VersionIs v s) : VersionIs v (s.cutChannels key f) := by
  unfold State.cutChannels
  refine h.foldl fun u _ hu => ?_
  split
  · exact hu
  · rename_i d _ _
    have hpart : VersionIs v (u.partDma key d) := .ite hu.mixed hu
    exact ite hpart hu

/-! ### Gathers -/

theorem putRow {b adm p a bs} (h : VersionIs v s) : VersionIs v (s.putRow b adm p a bs) := by
  have hremote : VersionIs v (s.putRemote b adm p a bs) := by
    unfold State.putRemote
    dsimp only
    split
    · exact .ite (foldl h.setBay.setGather fun u _ hu => link (s := u) hu (LinkOnly.refl u).sendTo) h
    · exact h
  exact .ite hremote h.writeBay

theorem landRows {b adm i first rows received} (h : VersionIs v s) :
    VersionIs v (s.landRows b adm i first rows received) := by
  unfold State.landRows
  split
  · refine .ite h ?_
    extract_lets _ _ landed
    have hlanded : VersionIs v landed := .ite h (h.foldl fun _ _ hs => hs.foldl fun _ _ ht => ht.putRow)
    split
    · exact .ite hlanded.setGather.setSlot.setTrain hlanded.setGather.setSlot
    · exact hlanded.setGather.setSlot
  · exact h

theorem spreadRows {b adm x src} (h : VersionIs v s) : VersionIs v (s.spreadRows b adm x src) := by
  unfold State.spreadRows
  split
  · split
    · exact .ite h (.foldl (.ite h.landRows h.landRows) fun u _ hu => link (s := u) hu (LinkOnly.refl u).emit.sendMsg)
    · exact h.landRows
  · exact h

theorem sendEntry {b adm i} (h : VersionIs v s) : VersionIs v (State.sendEntry b adm s i) := by
  unfold State.sendEntry
  split
  · dsimp only
    split
    · exact h
    · refine .ite h (.ite h (.ite h ?_))
      split
      · exact .finishNat (.ite h.logBadReads h)
      · exact .spreadRows (.setGather (.raise (.ite (.setBay h) h)))
  · exact h

theorem pumpGathers {b} (h : VersionIs v s) : VersionIs v (s.pumpGathers b) := by
  refine h.foldl fun u a hu => ?_
  unfold State.pumpGather
  split
  · exact hu
  · rename_i g _
    have hsent : VersionIs v ((List.range g.entries.length).foldl (State.sendEntry b a) u) :=
      hu.foldl fun _ _ hs => hs.sendEntry
    unfold State.settleGather
    split
    · exact .ite (.finishNat hsent) hsent
    · exact hsent

/-! ### Update steps -/

theorem diffRecord {b step tensor first count kind source} (h : VersionIs v s) :
    VersionIs v (s.diffRecord b step tensor first count kind source) := by
  unfold State.diffRecord
  dsimp only
  split
  · exact h
  · exact .ite h h.writeBay.setBay

theorem abortRecords {b x p} (h : VersionIs v s) : VersionIs v (s.abortRecords b x p) :=
  h.foldl fun _ _ hs => hs.foldl fun _ _ ht => .ite ht (ht.foldl fun _ _ hu => hu.diffRecord)

theorem updateBlock {b adm x p ti k gs} (h : VersionIs v s) : VersionIs v (s.updateBlock b adm x p ti k gs) := by
  have hfault : ∀ n rate unit, VersionIs v (s.updateFault b adm n rate unit) := fun n rate unit => by
    unfold State.updateFault
    split
    · exact h
    · exact .ite h (.log1 h)
  unfold State.updateBlock
  extract_lets _ _ recovered _ _ _ _ _ _ _ _ _ _ _ stored storedAll _ _
  have hstored : VersionIs v stored := (hfault _ _ _).writeBay.writeBay
  have hall : VersionIs v storedAll := .ite hstored.writeBay hstored
  exact hall.raise.setBay.setBay

theorem stepBlock {b adm x p limit ti} {grad : State → Nat → List Val} {gRange : Nat → List (Nat × Nat)}
    {a : State × Nat × Option Status} {k} (h : VersionIs v a.1) :
    VersionIs v (State.stepBlock b adm x p limit ti grad gRange a k).1 := by
  unfold State.stepBlock
  refine .ite_fst h (.ite_fst h ?_)
  dsimp only
  split
  · exact h
  · exact h.updateBlock

theorem runTensor {b adm x p limit} {grad : Nat → State → Nat → List Val} {gRange : Nat → Nat → List (Nat × Nat)}
    {a : State × Nat × Option Status} {ti} (h : VersionIs v a.1) :
    VersionIs v (State.runTensor b adm x p limit grad gRange a ti).1 := by
  unfold State.runTensor
  refine .ite_fst h ?_
  extract_lets run
  have hrun : VersionIs v run.1 := h.foldl_fst fun u _ hu => .ite_fst hu <| by
    have hblocks : ∀ l : List Nat, VersionIs v
        (l.foldl (State.stepBlock b adm x p limit ti (grad ti) (gRange ti)) u).1 :=
      fun l => hu.foldl_fst fun _ _ ht => ht.stepBlock
    exact ite (hblocks _).diffRecord (hblocks _)
  exact .ite_fst hrun (.ite (.ite hrun.setBay.diffRecord hrun.setBay) hrun)

theorem stepUpdateEff {b c hp step clip stoch limit} (h : VersionIs v s) :
    VersionIs v (State.stepUpdateEff b c hp step clip stoch limit s).1 := by
  have hsweep : ∀ {adm x p}, VersionIs v (State.sweep b adm x p limit s).1 := fun {adm x p} => by
    unfold State.sweep
    extract_lets run
    have hrun : VersionIs v run.1 := h.foldl_fst fun _ _ ha => ha.runTensor
    exact .pumpGathers (.ite hrun.abortRecords hrun)
  unfold State.stepUpdateEff
  dsimp only
  split
  · exact h
  · split
    · exact h
    · refine .ite_fst h ?_
      split
      · exact h
      · exact .ite_fst h hsweep

/-! ### Work given up at a drain limit (R212) -/

theorem movePages {b dest ps} (h : VersionIs v s) : VersionIs v (s.movePages b dest ps).1 := by
  induction ps generalizing s with
  | nil => exact h
  | cons p ps ih =>
    have hmove : VersionIs v (s.movePage b dest p) := by
      unfold State.movePage
      split
      · exact h
      · exact h.clearLoc
    exact .ite_fst h (ih hmove)

theorem mixFlags {t : State} {b} (h : VersionIs v s) : VersionIs v (s.mixFlags t b) := h.raise

theorem mixMatmul {t : State} {b m} (h : VersionIs v s) : VersionIs v (s.mixMatmul t b m) := by
  unfold State.mixMatmul
  extract_lets _ stored used
  have hstored : VersionIs v stored := h.foldl fun _ _ hs => .ite (hs.foldl fun _ _ ht => ht.writeBay) hs
  exact .ite (.mixed (s := used) hstored) hstored

theorem endRunning {b c} (h : VersionIs v s) : VersionIs v (s.endRunning b c).1 := by
  unfold State.endRunning
  split
  · exact .ite_fst h h
  · exact .ite_fst h (.movePages h)
  · exact .stepUpdateEff h
  · split
    · exact .mixFlags (.mixMatmul h)
    · exact h
  · split
    · exact .mixFlags (.mixed h)
    · exact h

theorem endActive {b c st} (h : VersionIs v s) : VersionIs v (s.endActive b c st).1 := by
  unfold State.endActive
  dsimp only
  split
  case h_2 => -- KERNEL_LAUNCH
    exact .ite_fst h.stopFields h
  case h_5 => -- UPDATE_ON_ARRIVAL_ARM
    split
    · exact .ite_fst (.ite h.abortRecords h) h
    · exact h
  all_goals exact h

theorem giveUp {b c} (h : VersionIs v s) : VersionIs v (State.giveUp b c s).1 := by
  unfold State.giveUp
  split
  · exact h.endRunning
  · split
    · exact h.stopFields.foldl fun _ _ hs => hs.cutChannels
    · exact h.endActive

theorem rebind {p c} (h : VersionIs v s) : VersionIs v (State.rebind p s c) :=
  h.setBay.giveUp.setBay.finishNat

end VersionIs

end Sys2Proof
end

section
/-! The drain of a peg and its end (R212, R214), and the binding commands as a whole. -/
namespace Sys2Proof
open Machine

/-- Every command takes the current version as its stamp. -/
def restampAll (s : State) : State := { s with cmds := s.cmds.map (fun c => { c with stamp := s.version }) }

/-! ### The drain limit (R212) -/

/-- A drain limit that is due gives up what it meets, marks the drain as over and restamps every command. -/
theorem exec_pegDrainLimit {s : State} {p : Peg} (hpeg : s.peg = some p) (hopen : p.drained = false)
    (hdue : p.since + p.drainNs ≤ s.clock.uptime) : ∃ u n, VersionIs s.version u ∧
      exec .pegDrainLimit s =
        .next { restampAll u with peg := some { p with drained := true, absorbed := n } } := by
  let met := s.useFree (s.cmds.filter (s.mayUseFreed p)).length
  let hit := s.absorbedCmds p
  have hmet : VersionIs s.version (if hit.isEmpty then met else met.useFree 1) := .ite rfl rfl
  refine ⟨hit.foldl (State.rebind p) (if hit.isEmpty then met else met.useFree 1),
    if hit.isEmpty then 0 else met.freeNow.toNat % 2 ^ 32, hmet.foldl fun _ _ hu => hu.rebind, ?_⟩
  show execPegDrainLimit s = _
  unfold execPegDrainLimit
  rw [hpeg]
  dsimp only
  rw [if_neg (by simp [hopen, hdue])]
  rfl

theorem stamp_restampAll {s : State} {x : Slot} (hx : x ∈ (restampAll s).cmds) : x.stamp = s.version := by
  obtain ⟨c, -, rfl⟩ := List.mem_map.1 hx
  rfl

/-! ### What is freed (R214) -/

theorem clearClusters_frame (ps : List Nat) (s : State) : ps.foldl State.clearCluster s = { s with
    cores := (ps.foldl State.clearCluster s).cores, sram := (ps.foldl State.clearCluster s).sram,
    local_ := (ps.foldl State.clearCluster s).local_, poison := (ps.foldl State.clearCluster s).poison } := by
  induction ps generalizing s with
  | nil => rfl
  | cons p ps ih =>
    rw [List.foldl_cons, ih]
    rfl

/-- A byte that reads zero does so after a range is cleared. -/
theorem get_clear_of_zero {m : Mem} {x : Nat} (h : Mem.get m x = 0) (a n : Nat) : Mem.get (Mem.clear m a n) x = 0 := by
  by_cases hx : a ≤ x ∧ x < a + n
  · exact get_clear hx.1 hx.2
  · rw [get_clear_outside hx, h]

/-- The SRAM of each cleared cluster reads zero. -/
theorem sram_clearClusters {ps : List Nat} {q a : Nat} (hq : q ∈ ps) (hlo : q * 2 ^ 25 ≤ a) (hhi : a < (q + 1) * 2 ^ 25)
    (s : State) : Mem.get (ps.foldl State.clearCluster s).sram a = 0 := by
  induction ps generalizing s with
  | nil => cases hq
  | cons p ps ih =>
    rcases List.mem_cons.1 hq with rfl | hq
    · exact List.foldlRecOn ps State.clearCluster (motive := fun u => Mem.get u.sram a = 0)
        (get_clear (m := s.sram) (n := 2 ^ 25) hlo (by omega)) fun u hu p _ => get_clear_of_zero hu _ _
    · exact ih hq _

theorem mem_bitsSet {w lc : Nat} {m : BitVec w} (h : m.getLsbD lc = true) : lc ∈ bitsSet m :=
  List.mem_filter.2 ⟨List.mem_range.2 (BitVec.lt_of_getLsbD h), h⟩

/-- Every 2 MiB range of a marked granule bears its mark. -/
theorem mem_zeroMarks_markZero (s : State) {gs : List Nat} {g r : Nat} (hg : g ∈ gs) (hlo : g * 512 ≤ r)
    (hhi : r < (g + 1) * 512) : r ∈ (s.markZero gs).zeroMarks := by
  have hmem : r ∈ (gs.map (fun g => List.range' (g * 512) 512)).flatten :=
    List.mem_flatten.2 ⟨_, List.mem_map.2 ⟨g, hg, rfl⟩, List.mem_range'_1.2 ⟨hlo, by omega⟩⟩
  by_cases hr : r ∈ s.zeroMarks
  · exact List.mem_append_left _ hr
  · exact List.mem_append_right _ (List.mem_filter.2 ⟨hmem, by simpa using hr⟩)

/-! ### The end (R211, R214) -/

/-- The state that a peg which is over leaves: freed clusters cleared, freed granules marked, no peg. -/
def pegOver (s : State) (p : Peg) : State :=
  { restampAll ((((bitsSet p.clusters).filterMap s.phys).foldl State.clearCluster s).markZero p.granules) with peg := none }

theorem sram_pegOver (s : State) (p : Peg) :
    (pegOver s p).sram = (((bitsSet p.clusters).filterMap s.phys).foldl State.clearCluster s).sram := by
  unfold pegOver restampAll State.markZero
  dsimp only

theorem pegOver_frame (s : State) (p : Peg) :
    (pegOver s p).bays = s.bays ∧ (pegOver s p).version = s.version ∧
      (pegOver s p).cmds = s.cmds.map (fun c => { c with stamp := s.version }) := by
  unfold pegOver restampAll State.markZero
  rw [clearClusters_frame]
  exact ⟨rfl, rfl, rfl⟩

/-- A peg whose drain is over ends its commit OK; a bay that is ACTIVE stays so. -/
theorem exec_pegComplete {s : State} {p : Peg} (hpeg : s.peg = some p) (hover : p.drained = true)
    (hst : (s.bay p.bay).st = .active) :
    exec .pegComplete s = .next ((pegOver s p).finishNat p.adm .ok (s.version.toNat + p.absorbed * 2 ^ 32)) := by
  obtain ⟨hbays, hversion, -⟩ := pegOver_frame s p
  have hactive : ((pegOver s p).bay p.bay).st = .active := by
    unfold State.bay
    rw [hbays]
    exact hst
  have hstays : (pegOver s p).afterPeg p.bay = pegOver s p := by
    unfold State.afterPeg
    simp only [hactive]
  show execPegComplete s = _
  unfold execPegComplete
  rw [hpeg]
  dsimp only
  rw [if_neg (by simp [hover])]
  change Host.Outcome.next (((pegOver s p).afterPeg p.bay).finishNat p.adm .ok
    ((pegOver s p).version.toNat + p.absorbed * 2 ^ 32)) = _
  rw [hstays, hversion]

theorem slot?_pegOver {s : State} {c : Slot} {n : Nat} (hs : s.slot? n = some c) (p : Peg) :
    (pegOver s p).slot? n = some { c with stamp := s.version } := by
  obtain ⟨-, -, hcmds⟩ := pegOver_frame s p
  unfold State.slot? at hs ⊢
  rw [hcmds, find?_map_adm s.cmds (fun _ => by rfl), hs]
  rfl

/-- A command that no bay's queue holds ends on a state that differs in bays and outputs: its end touches no bay. -/
theorem Running.ends_offBay {s u : State} {c : Slot} {i : Instr} (hr : Running s c i) (hbay : c.bay? = none)
    (hu : u = { s with bays := u.bays, outs := u.outs }) (st : Status) (r : Nat) :
    Ended (u.finishNat c.adm st r) c st r ∧ (∀ b, (u.finishNat c.adm st r).bay b = u.bay b) ∧
      (u.finishNat c.adm st r).version = s.version := by
  have hs : u.slot? c.adm = some c := by
    rw [hu]
    exact hr.1
  have hversion : u.version = s.version := by rw [hu]
  obtain ⟨hended, hbays, hstays⟩ := Sys2Proof.ends_offBay hs hr.unfinished hbay st r
  exact ⟨hended, hbays, hstays.trans hversion⟩

/-- Settles O39: each binding command by its own case above; a commit's peg by its three steps. -/
theorem bindingCommandsComplete : Obligations.BindingCommandsComplete := by
  unfold Obligations.BindingCommandsComplete
  intro s c h b hparts hb hbay
  have hlen : b < s.bays.length := by rw [hparts.1]; exact hb
  refine ⟨fun hr hnone => ?_, fun i l un m f n o hi hr hcheck htxn hroom => ?_, fun l hr htxn => ?_,
    fun us l hr hus htxn hpeg hquiescing hevicting => ?_, fun p hpeg hopen hdue => ?_,
    fun p hpeg hadm hover hs hphase hst => ?_⟩
  · obtain ⟨hended, hbays, -⟩ := hr.ends_offBay hbay (txnOpened_frame s b) .ok 0
    obtain ⟨htxn, hst, hbind⟩ := bay_txnOpened hlen
    refine ⟨_, hr.exec_txnBegin hb hnone, hended, ?_, ?_, ?_, fun x hx => (hbays x).trans (otherBays_txnOpened s b x hx)⟩
    · rw [hbays, htxn]
    · rw [hbays, hst]
    · rw [hbays, hbind]
  · let g : Bay → Bay := fun y => { y with txn := some (l ++ [⟨i⟩]) }
    obtain ⟨hended, hbays, -⟩ := hr.ends_offBay (u := s.setBay b g) hbay rfl .deferred 0
    refine ⟨_, Running.exec_binding hi hr hcheck htxn hroom, hended, ?_, fun x => ⟨?_, ?_⟩⟩
    · rw [hbays, State.bay_setBay_self _ _ _ hlen]
    · rw [hbays]
      exact bay_setBay_kept Bay.bind (fun _ => by rfl) s b x
    · rw [hbays]
      exact bay_setBay_kept Bay.st (fun _ => by rfl) s b x
  · let span : Bay → Nat × Nat := fun y => (y.txnSpan.1, s.nextAdm)
    obtain ⟨hended, hbays, -⟩ := hr.ends_offBay hbay (txnClosed_frame s b span) .ok l.length
    obtain ⟨hnone, hbind, hst⟩ := bay_txnClosed span hlen
    refine ⟨_, hr.exec_txnRollback hb htxn, hended, ?_, ?_, ?_,
      fun x hx => (hbays x).trans (otherBays_txnClosed s b span x hx)⟩
    · rw [hbays, hnone]
    · rw [hbays, hbind]
    · rw [hbays, hst]
  · have hexec := hr.exec_txnCommit hlen hb hus htxn hpeg hquiescing hevicting
    refine ⟨fun hl => ?_, fun r hl htest => ?_, fun r hl htest => ?_⟩
    · subst hl
      rw [txnTested_empty] at hexec
      obtain ⟨hended, hbays, hversion⟩ := hr.ends_offBay hbay (txnClosed_frame s b fun _ => (0, 0)) .ok s.version.toNat
      obtain ⟨hnone, hbind, -⟩ := bay_txnClosed (fun _ => (0, 0)) hlen
      exact ⟨_, hexec, hended, hversion, by rw [hbays, hbind], by rw [hbays, hnone]⟩
    · rw [txnTested_conflict hl _ _ htxn htest] at hexec
      obtain ⟨hended, hbays, hversion⟩ := hr.ends_offBay hbay (txnClosed_frame s b _) .conflict r
      obtain ⟨hnone, hbind, -⟩ := bay_txnClosed _ hlen
      exact ⟨_, hexec, hended, hversion, by rw [hbays, hbind], by rw [hbays, hnone]⟩
    · rw [txnTested_pegs hl _ _ htest, hr.adm_eq rfl] at hexec
      obtain ⟨p, hp, hpbay, hpadm, hclusters⟩ := peg_beginPeg (s.setActive h.adm) b h.adm us r
      obtain ⟨hbind, hnone⟩ := bay_beginPeg (s.setActive h.adm) b h.adm us r hlen
      have hversion := version_beginPeg (s.setActive h.adm) b h.adm us r
      have hbegun : Begun ((s.setActive h.adm).beginPeg b h.adm us r) c := by
        rw [Begun, slot?_beginPeg, ← hr.adm_eq rfl, slot?_setActive hr.1]
        rfl
      exact ⟨_, p, hexec, hbegun, hbind, hversion, hnone, otherBays_beginPeg (s.setActive h.adm) b h.adm us r,
        fun x hx hheld => (stamp_beginPeg _ _ _ _ _ hx hheld).trans hversion.symm, hp, hpbay, hpadm, hclusters⟩
  · obtain ⟨u, n, hversion, hexec⟩ := exec_pegDrainLimit hpeg hopen hdue
    exact ⟨_, _, hexec, rfl, rfl, rfl, rfl, fun x hx => (stamp_restampAll hx).trans hversion⟩
  · have hexec := exec_pegComplete hpeg hover hst
    have hslot := slot?_pegOver hs p
    have hended : Ended ((pegOver s p).finishNat c.adm .ok (s.version.toNat + p.absorbed * 2 ^ 32)) c .ok _ :=
      ended_finishNat (c := { c with stamp := s.version }) hslot (by simp [Slot.finished?, hphase]) .ok _
    obtain ⟨-, hsram, -, -, hmarks, -⟩ := (pegOver s p).finish_memory c.adm .ok (s.version.toNat + p.absorbed * 2 ^ 32)
    rw [hadm] at hexec
    refine ⟨_, hexec, ?_, hended, fun g hg r hlo hhi => ?_, fun lc q a hlc hq hlo hhi => ?_⟩
    · unfold State.finishNat
      rw [State.finish_frame]
      rfl
    · rw [hmarks]
      exact mem_zeroMarks_markZero _ hg hlo hhi
    · rw [hsram, sram_pegOver]
      exact sram_clearClusters (List.mem_filterMap.2 ⟨lc, mem_bitsSet hlc, hq⟩) hlo hhi s

end Sys2Proof
end

section
/-! Version stamps and the FTZ copy: taken at admission, kept while the Joiner works (R52, R213). -/
namespace Sys2Proof
open Machine

/-! ### What admissions leave -/

/-- Since `s` neither the version nor a binding record has changed, and every command admitted since carries that version
and, from a bay's queue, FTZ of that bay's record. -/
def StampedSince (s t : State) : Prop :=
  t.version = s.version ∧ (∀ b, (t.bay b).bind = (s.bay b).bind) ∧
    ∀ c ∈ t.cmds, s.nextAdm ≤ c.adm → c.stamp = s.version ∧ ∀ b, c.bay? = some b → c.ftz = (s.bay b).bind.ftz

/-- The same command with the stamp and the FTZ copy of its admission. -/
def KeepsStamp (f : Slot → Slot) : Prop := ∀ c, (f c).instr = c.instr ∧ (f c).stamp = c.stamp ∧ (f c).ftz = c.ftz

namespace StampedSince
variable {s t : State}

/-- Commands numbered below the next number were admitted before. -/
theorem refl (hbelow : ∀ c ∈ s.cmds, c.adm < s.nextAdm) : StampedSince s s :=
  ⟨rfl, fun _ => rfl, fun c hc hadm => absurd (hbelow c hc) (Nat.not_lt.2 hadm)⟩

theorem ite {u : State} {c : Prop} [Decidable c] (ht : StampedSince s t) (hu : StampedSince s u) :
    StampedSince s (if c then t else u) := by
  split
  · exact ht
  · exact hu

theorem setBay (h : StampedSince s t) {b : Nat} {f : Bay → Bay} (hf : ∀ y, (f y).bind = y.bind := by exact fun _ => rfl) :
    StampedSince s (t.setBay b f) :=
  have ⟨hversion, hbind, hstamped⟩ := h
  ⟨hversion, fun b' => (bay_setBay_kept Bay.bind hf t b b').trans (hbind b'), hstamped⟩

/-- No register of the queues, grant or free value bears on it. -/
theorem update {free ctl urg joiner} (h : StampedSince s t) :
    StampedSince s { t with free := free, ctl := ctl, urg := urg, joiner := joiner } := h

theorem useFree (h : StampedSince s t) {n : Nat} : StampedSince s (t.useFree n) := h.update

theorem setSq (h : StampedSince s t) {b q : Nat} {f : SubQ → SubQ} : StampedSince s (t.setSq b q f) := h.setBay

theorem setFlow (h : StampedSince s t) {b : Nat} {f : Machine.Flow → Machine.Flow} : StampedSince s (t.setFlow b f) :=
  h.setBay

theorem mapSlots (h : StampedSince s t) {f : Slot → Slot} (hf : KeepsStamp f) :
    StampedSince s { t with cmds := t.cmds.map f } := by
  obtain ⟨hversion, hbind, hstamped⟩ := h
  refine ⟨hversion, hbind, fun d hd hadm => ?_⟩
  obtain ⟨c, hc, rfl⟩ := List.mem_map.1 hd
  obtain ⟨hinstr, hstamp, hftz⟩ := hf c
  have hhdr : (f c).hdr = c.hdr := by rw [Slot.hdr, Slot.hdr, hinstr]
  rw [hstamp, hftz, Slot.bay?, hhdr]
  rw [Slot.adm, hhdr] at hadm
  exact hstamped c hc hadm

theorem filterSlots (h : StampedSince s t) (p : Slot → Bool) : StampedSince s { t with cmds := t.cmds.filter p } := by
  obtain ⟨hversion, hbind, hstamped⟩ := h
  exact ⟨hversion, hbind, fun c hc => hstamped c (List.mem_filter.1 hc).1⟩

theorem setSlot (h : StampedSince s t) {adm : Nat} {f : Slot → Slot} (hf : KeepsStamp f) :
    StampedSince s (t.setSlot adm f) :=
  h.mapSlots fun c => by
    split
    · exact hf c
    · exact ⟨rfl, rfl, rfl⟩

/-! ### The end of a command -/

theorem recheck (h : StampedSince s t) {b k : Nat} : StampedSince s (t.recheck b k) := by
  refine setBay (mapSlots h fun c => ?_)
  split
  · split
    · split <;> exact ⟨rfl, rfl, rfl⟩
    · exact ⟨rfl, rfl, rfl⟩
  · exact ⟨rfl, rfl, rfl⟩

theorem markFinished (h : StampedSince s t) {adm : Nat} {st : Status} {r : W64} :
    StampedSince s (t.markFinished adm st r) := by
  have hmark : ∀ u : State, StampedSince s u → StampedSince s
      { u.setSlot adm (fun c => { c with phase := .finished st r u.nextFin }) with nextFin := u.nextFin + 1 } :=
    fun _ hu => hu.setSlot fun _ => ⟨rfl, rfl, rfl⟩
  unfold State.markFinished
  split
  · exact h
  · split
    · exact h
    · dsimp only
      split
      · exact hmark _ h.setBay.recheck
      · exact hmark _ h

theorem dropIfSilent (h : StampedSince s t) {adm : Nat} : StampedSince s (t.dropIfSilent adm) := by
  unfold State.dropIfSilent
  split
  · exact (h.filterSlots _).ite h
  · exact h

theorem settle (h : StampedSince s t) {o : Origin} : StampedSince s (t.settle o) := by
  have hqueue : ∀ b q, StampedSince s (t.settleQueue b q) := fun b q => by
    unfold State.settleQueue
    split
    · exact ite (markFinished (setBay h)).dropIfSilent h
    · exact h
  cases o with
  | bay b q => exact ite (hqueue b q).setBay (hqueue b q)
  | control =>
    show StampedSince s t.settleControl
    rw [State.settleControl_frame]
    exact h
  | urgent => exact h

theorem finish (h : StampedSince s t) {adm : Nat} {st : Status} {r : W64} : StampedSince s (t.finish adm st r) := by
  unfold State.finish
  split
  · exact h
  · exact h.markFinished.dropIfSilent.settle

/-! ### Admission (R52, R213) -/

theorem addSlot (h : StampedSince s t) {org : Origin} {hd : Hdr} {i : Instr} {ph : Phase} {n : Nat} (hi : hdrOf i = some hd)
    (horg : hd.org = org) : StampedSince s (t.addSlot (t.newSlot org hd i ph n)) := by
  obtain ⟨hversion, hbind, hstamped⟩ := h
  refine ⟨hversion, hbind, fun c hc => ?_⟩
  rcases List.mem_append.1 hc with hc | hc
  · exact hstamped c hc
  · obtain rfl := List.mem_singleton.1 hc
    refine fun _ => ⟨hversion, fun b hb => ?_⟩
    obtain ⟨q, hq⟩ := bay?_eq_some hb
    have hslot : org = .bay b q := by
      rw [← horg, ← hq]
      show hd.org = ((hdrOf i).getD default).org
      rw [hi]
      rfl
    subst hslot
    rw [← hbind b]
    exact Bool.true_and _

theorem of_notes {u : State} (h : StampedSince s t) (hu : AdmissionNotes t u) : StampedSince s u := by
  obtain ⟨hversion, hbind, hstamped⟩ := h
  refine ⟨?_, fun b => (hu.kept b).2.2.trans (hbind b), ?_⟩
  · rw [hu.rest]
    exact hversion
  · rw [hu.rest]
    exact hstamped

theorem admitEntry (h : StampedSince s t) {org : Origin} {e : List Byte} {ph : Phase} :
    StampedSince s (t.admitEntry org e ph) := by
  unfold State.admitEntry
  dsimp only
  split
  · exact (h.addSlot (i := .nop _) rfl rfl).finish
  · rename_i i hi
    have hhdr := hdrOf_admission hi
    have hnotes := (((AdmissionNotes.refl t).dropReuse (b := orgBay org) (i := i)).noteLayout
      (b := orgBay org) (i := i)).takeIndex (b := orgBay org) (i := i)
    exact ((h.of_notes hnotes).addSlot hhdr rfl).ite (h.addSlot hhdr rfl)

/-! ### Fetching (R154) and the urgent sample (R163) -/

theorem fetchOne (h : StampedSince s t) {b q : Nat} : StampedSince s (t.fetchOne b q) :=
  (h.ite h.useFree).setSq.admitEntry

theorem fetchMany {n b q : Nat} (h : StampedSince s t) : StampedSince s (State.fetchMany n b q t) := by
  induction n generalizing t with
  | zero => exact h
  | succ n ih => exact h.ite (ih h.fetchOne)

theorem fetchBays (h : StampedSince s t) : StampedSince s t.fetchBays := by
  unfold State.fetchBays
  split
  · exact h
  · split
    · exact h
    · exact h.update.fetchMany

theorem fetchControl {n : Nat} (h : StampedSince s t) : StampedSince s (State.fetchControl n t) := by
  induction n generalizing t with
  | zero => exact h
  | succ n ih => exact h.ite (ih (h.ite h.useFree).update.admitEntry)

theorem noteUrgent (h : StampedSince s t) {c : Slot} : StampedSince s (t.noteUrgent c) :=
  h.ite ((h.setFlow.ite h).setSlot fun _ => ⟨rfl, rfl, rfl⟩)

theorem decodeUrgent (h : StampedSince s t) : StampedSince s t.decodeUrgent := by
  unfold State.decodeUrgent
  extract_lets u e adm taken
  have htaken : StampedSince s taken := h.update.admitEntry
  refine h.ite ?_
  split
  · exact ite (htaken.noteUrgent.update.ite htaken.noteUrgent) htaken
  · exact htaken

end StampedSince

theorem exec_admits_stamped {s : State} (hbelow : ∀ c ∈ s.cmds, c.adm < s.nextAdm) {i : Instr}
    (hi : i ∈ [Instr.entryFetch .bays, .entryFetch .control, .urgentDoorbellSample]) :
    ∃ t, exec i s = .next t ∧ StampedSince s t := by
  have h := StampedSince.refl hbelow
  simp only [List.mem_cons, List.not_mem_nil, or_false] at hi
  rcases hi with rfl | rfl | rfl
  · exact ⟨_, rfl, h.ite h.fetchBays⟩
  · exact ⟨_, rfl, h.ite h.fetchControl⟩
  · exact ⟨_, rfl, h.ite h.update.decodeUrgent⟩

/-! ### Restamping at a peg (R213) -/

/-- A peg gives the new version to every command that is held, and leaves all else of its slot. -/
theorem slot?_pegged {s : State} (hnum : s.slotTable.Numbered) {c x : Slot} (hs : s.slot? c.adm = some c)
    (hc : c.phase ≠ .held) (hx : x ∈ s.cmds) (hheld : x.phase = .held) (b us : Nat) (r : BindRec) :
    ((s.setActive c.adm).beginPeg b c.adm us r).slot? x.adm = some { x with stamp := s.version + 1 } := by
  have hne : x.adm ≠ c.adm := fun hadm => hc (by
    rw [← hnum.eq_of_adm hx (List.mem_of_find?_eq_some hs) hadm]
    exact hheld)
  have hfound : s.slot? x.adm = some x := by
    obtain ⟨y, hy⟩ := Option.isSome_iff_exists.1 (List.find?_isSome (p := (·.adm == x.adm)).2 ⟨x, hx, by simp⟩)
    have hyx : y.adm = x.adm := by simpa using List.find?_some hy
    rwa [hnum.eq_of_adm (List.mem_of_find?_eq_some hy) hx hyx] at hy
  have hother : (s.setActive c.adm).slot? x.adm = s.slot? x.adm :=
    slot?_setSlot_other s (f := fun c => { c with phase := .active, started := s.clock.uptime }) (fun _ => rfl) hne
  rw [slot?_beginPeg, hother, hfound]
  exact congrArg some (if_pos (by simp [hheld]))

/-! ### Dispatch (R162, R176, R213) -/

/-- A held command that posts an entry and fails at dispatch: its entry waits, its signal fires with ERR, memory stays. -/
theorem fails_at_dispatch {s : State} {c : Slot} {b : Nat} {st : Status} (hparts : PartsCounted s) (hb : b < 16)
    (hs : s.slot? c.adm = some c) (hheld : c.phase = .held) (hquiet : c.quiet = false) (hbay : c.bay? = some b)
    (hno : NoDelete s b) (hst : st.success = false) :
    SameMemory s (s.finishNat c.adm st 0) ∧ outcome (s.finishNat c.adm st 0) c.adm = some (st, 0) ∧
      ∀ k, c.hdr.signal = some k → k < 256 → nth ((s.finishNat c.adm st 0).bay b).counters k =
        ⟨(nth (s.bay b).counters k).value + 1, true⟩ := by
  have hlen : b < s.bays.length := by rw [hparts.1]; exact hb
  have hf : c.finished? = false := by simp [Slot.finished?, hheld]
  have hok : st ≠ .ok := by
    rintro rfl
    cases hst
  have hcorrected : st ≠ .corrected := by
    rintro rfl
    cases hst
  have hposted : postedStatus c st = st := if_neg fun h => hok h.1
  have hsilent : silent c st = false := by simp [silent, hquiet, hok, hcorrected]
  obtain ⟨e, k, hslot⟩ := slot?_finishNat hs hf st 0
  rw [hposted, hsilent] at hslot
  refine ⟨State.finish_memory s c.adm st 0, ?_, fun k hsig hk => ?_⟩
  · unfold outcome
    rw [hslot]
    rfl
  · rw [counters_finishNat hs hf hbay hsig hlen hno st 0, nth_updNth_self _ _ (by rw [hparts.counters hb]; exact hk),
      hposted, hst]
    simp

/-- Settles O56: stamps are taken at admission and at a peg, and a command whose cluster has gone fails at dispatch. -/
theorem admissionStampsAndRebinding : Obligations.AdmissionStampsAndRebinding := by
  unfold Obligations.AdmissionStampsAndRebinding
  intro s hparts hnum
  obtain ⟨hrising, hbelow, -⟩ := hnum
  refine ⟨fun i hi => ?_, fun c h b d l r hr hb hd htxn hl hpeg hquiescing hevicting htest => ?_,
    fun c b hup hb hs hheld hquiet hbay hmay hno hok hnamed => ?_⟩
  · obtain ⟨t, hexec, -, -, hstamped⟩ := exec_admits_stamped hbelow hi
    exact ⟨t, hexec, hstamped⟩
  · have hlen : b < s.bays.length := by rw [hparts.1]; exact hb
    have hexec := hr.exec_txnCommit hlen hb hd htxn hpeg hquiescing hevicting
    rw [txnTested_pegs hl _ _ htest] at hexec
    obtain ⟨hbind, -⟩ := bay_beginPeg (s.setActive c.adm) b c.adm d r hlen
    refine ⟨_, hexec, version_beginPeg (s.setActive c.adm) b c.adm d r, hbind, fun x hx _ hheld =>
      slot?_pegged ⟨hrising, hbelow⟩ hr.1 (by rw [hr.2.1]; decide) hx hheld b d r⟩
  · have hexec := exec_dispatch_bay hup hs hheld hbay hmay
    by_cases herr : c.errSample = some true
    · rw [start_ends hbay (atDispatch_aborted hok herr)] at hexec
      rw [if_pos herr]
      exact ⟨_, hexec, fails_at_dispatch hparts hb hs hheld hquiet hbay hno rfl⟩
    · rw [start_ends hbay (atDispatch_rebound hok herr hnamed)] at hexec
      rw [if_neg herr]
      exact ⟨_, hexec, fails_at_dispatch hparts hb hs hheld hquiet hbay hno rfl⟩

end Sys2Proof
end

section
/-! Two commands that end one after the other: the end of one leaves the other as it stands. -/
namespace Sys2Proof
open Machine

/-! ### Another command's slot -/

theorem slot?_dropSlot_other (s : State) {adm n : Nat} (hn : n ≠ adm) : (s.dropSlot adm).slot? n = s.slot? n := by
  unfold State.slot? State.dropSlot
  rw [List.find?_filter]
  congr 1
  funext x
  by_cases hx : x.adm = n <;> simp [hx, hn]

theorem slot?_dropIfSilent_other (s : State) {adm n : Nat} (hn : n ≠ adm) :
    (s.dropIfSilent adm).slot? n = s.slot? n := by
  unfold State.dropIfSilent
  split
  · split
    · exact slot?_dropSlot_other s hn
    · rfl
  · rfl

theorem slot?_markFinished_other {s : State} {adm n : Nat} {c : Slot} (hn : n ≠ adm) (hs : s.slot? n = some c)
    (hp : c.phase ≠ .held) (st : Status) (r : W64) : (s.markFinished adm st r).slot? n = some c := by
  unfold State.markFinished
  split
  · exact hs
  · split
    · exact hs
    · refine (slot?_setSlot_other _ (fun _ => by rfl) hn).trans ?_
      split
      · exact State.slot?_recheck _ _ _ _ _ hs hp
      · exact hs

section
variable {s : State} {x : Slot} {b : Nat} (hx : s.slot? x.adm = some x) (hbay : x.bay? = some b) (hno : NoDelete s b)

/-- A number without a slot stays without one when a command ends. -/
theorem slot?_none_finishNat {n : Nat} (hs : s.slot? n = none) (adm : Nat) (st : Status) (r : Nat) :
    (s.finishNat adm st r).slot? n = none := by
  unfold State.finishNat State.finish
  split
  · exact hs
  · exact State.slot?_none_settle _ _ _
      (State.slot?_none_dropIfSilent _ _ _ (State.slot?_none_markFinished _ _ _ _ _ hs))

include hx hbay hno

/-- In a bay with no queue to delete (R157), the end of a command leaves every other slot that is not held. -/
theorem slot?_finishNat_other {n : Nat} {c : Slot} (hn : n ≠ x.adm) (hs : s.slot? n = some c) (hp : c.phase ≠ .held)
    (st : Status) (r : Nat) : (s.finishNat x.adm st r).slot? n = some c := by
  obtain ⟨q, horg⟩ := bay?_eq_some hbay
  obtain ⟨hsqs, -⟩ := RingsKept.ended s x.adm (postedStatus x st) (BitVec.ofNat 64 r) b
  unfold State.finishNat State.finish
  rw [hx]
  change (((s.markFinished x.adm (postedStatus x st) _).dropIfSilent x.adm).settle x.hdr.org).slot? n = _
  rw [horg]
  unfold State.settle
  dsimp only
  rw [settleQueue_of_noDelete (by rw [hsqs]; exact hno q), State.settleAdmin_frame]
  exact (slot?_dropIfSilent_other _ hn).trans (slot?_markFinished_other hn hs hp _ _)

/-- A command that has ended stays as its end left it when another one ends. -/
theorem Ended.finishNat_other {c : Slot} {st : Status} {r : Nat} (h : Ended s c st r) (hn : c.adm ≠ x.adm) (st' : Status)
    (r' : Nat) : Ended (s.finishNat x.adm st' r') c st r := by
  unfold Ended at h ⊢
  split
  · rename_i hs
    rw [if_pos hs] at h
    exact slot?_none_finishNat h ..
  · rename_i hs
    rw [if_neg hs] at h
    unfold outcome at h ⊢
    cases hd : s.slot? c.adm with
    | none =>
      rw [hd] at h
      cases h
    | some d =>
      rw [hd] at h
      rw [slot?_finishNat_other hx hbay hno hn hd (by rintro hp; simp only [hp] at h; cases h)]
      exact h

end

/-! ### Queues to delete -/

/-- An element of a list with one element changed is the old one or the new one. -/
theorem nth_updNth_cases {α : Type} [Inhabited α] (l : List α) (i k : Nat) (f : α → α) :
    nth (updNth l i f) k = nth l k ∨ nth (updNth l i f) k = f (nth l k) := by
  by_cases hki : k = i
  · subst hki
    by_cases hk : k < l.length
    · exact .inr (nth_updNth_self l f hk)
    · exact .inl (by simp [nth, updNth, List.getD, hk])
  · exact .inl (nth_updNth_other l f hki)

theorem NoDelete.settleAdmin {s : State} {b : Nat} (h : NoDelete s b) (b' : Nat) : NoDelete (s.settleAdmin b') b := by
  intro q
  unfold State.settleAdmin
  dsimp only
  split
  · rcases State.bay_setBay s b' b _ with ⟨hb, -⟩ | hb
    · rw [hb]
      rcases nth_updNth_cases (s.bay b).sqs 0 q (fun _ => SubQ.none_) with hq | hq
      · exact (congrArg SubQ.deleting hq).trans (h q)
      · exact congrArg SubQ.deleting hq
    · rw [hb]
      exact h q
  · exact h q

/-- The end of a command of a bay sets no queue of the bay to be deleted. -/
theorem NoDelete.finishNat {s : State} {b : Nat} {x : Slot} (h : NoDelete s b) (hx : s.slot? x.adm = some x)
    (hbay : x.bay? = some b) (st : Status) (r : Nat) : NoDelete (s.finishNat x.adm st r) b := by
  obtain ⟨q, horg⟩ := bay?_eq_some hbay
  obtain ⟨hsqs, -⟩ := RingsKept.ended s x.adm (postedStatus x st) (BitVec.ofNat 64 r) b
  have hkept : NoDelete ((s.markFinished x.adm (postedStatus x st) (BitVec.ofNat 64 r)).dropIfSilent x.adm) b :=
    fun k => by rw [hsqs]; exact h k
  unfold State.finishNat State.finish
  rw [hx]
  change NoDelete (((s.markFinished x.adm (postedStatus x st) _).dropIfSilent x.adm).settle x.hdr.org) b
  rw [horg]
  unfold State.settle
  dsimp only
  rw [settleQueue_of_noDelete (hkept q)]
  exact hkept.settleAdmin b

end Sys2Proof
end

section
/-! The training commands: SHARD_MAP_LOAD, NORM_CLIP, UPDATE_ON_ARRIVAL_ARM and UPDATE_DISARM. -/
namespace Sys2Proof
open Machine

/-! ### The training state of a bay -/

theorem train_setTrain {s : State} {b : Nat} (f : Train → Train) (hb : b < s.bays.length) :
    ((s.setTrain b f).bay b).train = f (s.bay b).train := by
  unfold State.setTrain
  rw [State.bay_setBay_self _ _ _ hb]

theorem length_setTrain (s : State) (b : Nat) (f : Train → Train) : (s.setTrain b f).bays.length = s.bays.length :=
  State.setBay_length ..

theorem train_raise (s : State) (b b' : Nat) (f : W32) : ((s.raise b f).bay b').train = (s.bay b').train := by
  unfold State.raise
  split
  · rfl
  · exact bay_setBay_kept Bay.train (fun _ => by rfl) s b b'

/-- The end of a command leaves the training state. -/
theorem train_finishNat (s : State) (adm : Nat) (st : Status) (r b : Nat) :
    ((s.finishNat adm st r).bay b).train = (s.bay b).train := by
  rw [State.finish_cores s adm st r b]

/-- What the training state does not bear on stays. -/
theorem bay_setTrain_kept {α : Type} (φ : Bay → α) (hφ : ∀ y tr, φ { y with train := tr } = φ y) (s : State) (b b' : Nat)
    (f : Train → Train) : φ ((s.setTrain b f).bay b') = φ (s.bay b') :=
  bay_setBay_kept φ (fun y => hφ y _) s b b'

/-- A change of the training state to what it is changes nothing. -/
theorem setTrain_self {s : State} {b : Nat} {f : Train → Train} (h : f (s.bay b).train = (s.bay b).train) :
    s.setTrain b f = s := by
  have hbay : { nth s.bays b with train := f (nth s.bays b).train } = id (nth s.bays b) :=
    congrArg (fun tr => { nth s.bays b with train := tr }) h
  unfold State.setTrain State.setBay
  rw [updNth_congr hbay, updNth, List.modify_id]

/-- With no partial norm of an exchange come early there is none to take. -/
theorem takeEarlyNorms_none {s : State} {b index : Nat}
    (h : (s.bay b).train.earlyNorms.all (fun e => e.1 != index) = true) : s.takeEarlyNorms b index = s := by
  have hall := List.all_eq_true.1 h
  have hnone : (s.bay b).train.earlyNorms.filter (fun e => e.1 == index) = [] :=
    List.filter_eq_nil_iff.2 fun e he => by simpa using hall e he
  unfold State.takeEarlyNorms
  rw [hnone]
  exact setTrain_self (by rw [List.filter_eq_self.2 hall])

/-! ### SHARD_MAP_LOAD (R222, R226) -/

section
variable {s : State} {c : Slot} {h : Hdr} {b : Nat}

theorem mapLoadEff_loads {adm a n : Nat} (hio : s.ioStatus b [(a, n)] [] = none)
    (hgood : s.mapBad b (s.readBay b a n) n = false) (hallowed : s.mapDenied b (decodeMap (s.readBay b a n)) = false)
    (hidle : s.trainingBusy b adm = false) (harm : (s.bay b).train.arm = none) (hjoin : (s.bay b).join = none) :
    let p := decodeMap (s.readBay b a n)
    State.mapLoadEff b adm a n s =
      (s.setTrain b (fun tr => tr.load p (p.step0 - 1)), .ok, p.tensors.length + p.members * 2 ^ 16) := by
  unfold State.mapLoadEff
  simp [hio, hgood, hallowed, hidle, harm, hjoin]

/-- A SHARD_MAP_LOAD whose map is taken ends OK, and no bay but its own changes but by that end. -/
theorem Running.loads_map {a n : Nat} {p : ShardMap} {r : Nat} (hr : Running s c (.shardMapLoad h a n))
    (hbay : c.bay? = some b) (hb : b < s.bays.length)
    (heff : State.mapLoadEff b c.adm a n s = (s.setTrain b (fun tr => tr.load p (p.step0 - 1)), .ok, r)) :
    ∃ t, exec (.shardMapLoad h a n) s = .next t ∧ Ended t c .ok r ∧ SameMemory s t ∧
      (t.bay b).train = (s.bay b).train.load p (p.step0 - 1) ∧ ∀ b', b' ≠ b → SameBayCore (s.bay b') (t.bay b') := by
  rw [hr.adm_eq rfl] at heff
  obtain ⟨t, hexec, hended, hmem, hcores⟩ := hr.completes (f := State.mapLoadEff b h.adm a n) rfl rfl
    (by rw [hbay]; exact completeIn_eq_complete heff) heff rfl
  refine ⟨t, hexec, hended, hmem, ?_, fun b' hb' => ?_⟩
  · rw [hcores b]
    exact train_setTrain _ hb
  · have hother := hcores b'
    rwa [State.setTrain, State.bay_setBay_other _ _ _ _ hb'] at hother

end

/-! ### Partial norms that go out (R241) -/

theorem LinkOnly.sendNorm (s : State) (b adm : Nat) (p : ShardMap) (index opcode : Nat) (a : NormAcc) :
    LinkOnly s (s.sendNorm b adm p index opcode a) := by
  unfold State.sendNorm
  split
  · exact (LinkOnly.refl s).foldl fun _ _ hs => hs.emit.sendMsg
  · exact .refl s

/-- Every other member of the group is sent the partial norm. -/
theorem norm_mem_sendNorm {s : State} {b : Nat} {p : ShardMap} {g : Group} (hg : (s.bay b).formed? p.group = some g)
    {m : Nat} (hm : m ∈ g.peers) (adm index opcode : Nat) (a : NormAcc) :
    Output.collSeg m (normSeg b p.group index p.thisMember opcode a) ∈ (s.sendNorm b adm p index opcode a).outs := by
  obtain ⟨before, after, hpeers⟩ := List.append_of_mem hm
  unfold State.sendNorm
  rw [hg]
  dsimp only
  rw [hpeers, List.foldl_append, List.foldl_cons]
  refine ((LinkOnly.refl _).foldl fun _ _ hs => hs.emit.sendMsg).sent ?_
  exact ((LinkOnly.refl _).sendMsg).sent (List.mem_append_right _ (List.mem_singleton_self _))

/-! ### NORM_CLIP (R241 to R243) -/

/-- A NORM_CLIP has every partial norm: it ends OK with norm and coefficient, and both are recorded. -/
theorem settleNorm_ends {s : State} {b : Nat} {w : NormWait} {p : ShardMap} {c : Slot} (hlast : p.members ≤ w.norms.length)
    (hb : b < s.bays.length) (hadm : w.adm = c.adm) (hs : s.slot? c.adm = some c) (hp : c.phase = .active) :
    let norm := (totalNorm w.norms).norm.1
    let cf := (clipCoef w.maxNorm norm).1
    SameMemory s (s.settleNorm b w p) ∧ Ended (s.settleNorm b w p) c .ok (norm.toNat + cf.toNat * 2 ^ 32) ∧
      ((s.settleNorm b w p).bay b).train = { (s.bay b).train with
        norms := (s.bay b).train.norms.filter (fun n => n.adm != c.adm)
        clipRec := some (w.step, cf), lastNorm := some (w.step, norm) } := by
  intro norm cf
  let raised := s.raise b ((totalNorm w.norms).norm.2 ||| (clipCoef w.maxNorm norm).2)
  let u := raised.setTrain b (fun tr => { tr with
    norms := tr.norms.filter (fun n => n.adm != c.adm), clipRec := some (w.step, cf), lastNorm := some (w.step, norm) })
  have hdone : s.settleNorm b w p = u.finishNat c.adm .ok (norm.toNat + cf.toNat * 2 ^ 32) := by
    unfold State.settleNorm
    rw [if_neg (by omega), hadm]
  rw [hdone]
  refine ⟨(sameMemory_raise s ..).trans (State.finish_memory u ..),
    ended_of_active (s := u) .ok _ ((slot?_raise ..).trans hs) hp, ?_⟩
  rw [train_finishNat, train_setTrain _ (by rw [length_raise]; exact hb), train_raise]

section
variable (s : State) (b : Nat) (c : Slot) (p : ShardMap) (step mx : W32)

/-- A NORM_CLIP that has this member's partial norm. -/
def ownNorm : NormWait := ⟨c.adm, step, mx, c.index, [(p.thisMember, s.regionNorm b p)]⟩

/-- The state in which a NORM_CLIP waits and its member's partial norm has been sent. -/
def normSent : State :=
  ((s.setActive c.adm).setTrain b (fun tr => { tr with norms := tr.norms ++ [ownNorm s b c p step mx] })).sendNorm b c.adm p
    c.index 0x0320 (s.regionNorm b p)

theorem normSent_link : LinkOnly
    ((s.setActive c.adm).setTrain b (fun tr => { tr with norms := tr.norms ++ [ownNorm s b c p step mx] }))
    (normSent s b c p step mx) := .sendNorm ..

end

section
variable {s : State} {b : Nat} {c : Slot} {h : Hdr} {p : ShardMap} {step mx : W32}

theorem length_normSent : (normSent s b c p step mx).bays.length = s.bays.length := by
  rw [(normSent_link ..).bays, length_setTrain]
  rfl

theorem train_normSent (hb : b < s.bays.length) : ((normSent s b c p step mx).bay b).train =
    { (s.bay b).train with norms := (s.bay b).train.norms ++ [ownNorm s b c p step mx] } := by
  rw [(normSent_link ..).bay]
  exact train_setTrain (s := s.setActive c.adm) _ hb

theorem sameMemory_normSent : SameMemory s (normSent s b c p step mx) := (normSent_link ..).mem

theorem slot?_normSent (hs : s.slot? c.adm = some c) :
    (normSent s b c p step mx).slot? c.adm = some (waiting s c) :=
  ((normSent_link ..).slot? _).trans (slot?_setActive hs)

/-- Every other member of the group is sent the partial norm that a NORM_CLIP begins with. -/
theorem norm_mem_normSent {g : Group} (hg : (s.bay b).formed? p.group = some g) {m : Nat} (hm : m ∈ g.peers) :
    Output.collSeg m (normSeg b p.group c.index p.thisMember 0x0320 (s.regionNorm b p)) ∈
      (normSent s b c p step mx).outs :=
  norm_mem_sendNorm ((bay_setTrain_kept (·.formed? p.group) (fun _ _ => rfl) (s.setActive c.adm) b b _).trans hg) hm ..

variable (hr : Running s c (.normClip h p.group step mx)) (hbay : c.bay? = some b)
  (hmap : (s.bay b).train.map = some p) (hio : s.ioStatus b (gradRanges p) [] = none) (hmx : positive32 mx = true)
include hr hbay hmap hio hmx

theorem Running.exec_normClip :
    exec (.normClip h p.group step mx) s = .next
      (((normSent s b c p step mx).settleNorm b (ownNorm s b c p step mx) p).takeEarlyNorms b c.index) := by
  refine congrArg _ ((hr.onRunning rfl _).trans ?_)
  simp only [hbay, hmap, hio]
  rw [if_neg (by simp [hmx]), ← hr.adm_eq rfl]
  rfl

variable (hb : b < s.bays.length) (hearly : (s.bay b).train.earlyNorms.all (fun e => e.1 != c.index) = true)
include hb hearly

/-- In a group of one member the NORM_CLIP has every partial norm at once (R242, R243). -/
theorem Running.normClip_alone (hone : p.members = 1) :
    let norm := (NormAcc.zero.join (s.regionNorm b p)).norm.1
    let cf := (clipCoef mx norm).1
    ∃ t, exec (.normClip h p.group step mx) s = .next t ∧ SameMemory s t ∧
      Ended t c .ok (norm.toNat + cf.toNat * 2 ^ 32) ∧
      (t.bay b).train.clipRec = some (step, cf) ∧ (t.bay b).train.lastNorm = some (step, norm) := by
  have hexec := hr.exec_normClip hbay hmap hio hmx
  have hslot : (normSent s b c p step mx).slot? (waiting s c).adm = some (waiting s c) := slot?_normSent hr.1
  obtain ⟨hmem, hended, htrain⟩ := settleNorm_ends (c := waiting s c) (w := ownNorm s b c p step mx)
    (Nat.le_of_eq hone) (hb.trans_eq length_normSent.symm) rfl hslot rfl
  rw [takeEarlyNorms_none (by rw [htrain, train_normSent hb]; exact hearly)] at hexec
  exact ⟨_, hexec, sameMemory_normSent.trans hmem, hended, congrArg Train.clipRec htrain, congrArg Train.lastNorm htrain⟩

/-- In a larger group it waits for the other members' partial norms, and has sent its own (R241). -/
theorem Running.normClip_waits (hmore : 1 < p.members) :
    ∃ t, exec (.normClip h p.group step mx) s = .next t ∧ SameMemory s t ∧ Begun t c ∧
      (t.bay b).train.norms = (s.bay b).train.norms ++ [ownNorm s b c p step mx] ∧
      ∀ g, (s.bay b).formed? p.group = some g → ∀ m ∈ g.peers,
        Output.collSeg m (normSeg b p.group c.index p.thisMember 0x0320 (s.regionNorm b p)) ∈ t.outs := by
  have hexec := hr.exec_normClip hbay hmap hio hmx
  have hopen : (normSent s b c p step mx).settleNorm b (ownNorm s b c p step mx) p = normSent s b c p step mx :=
    if_pos hmore
  rw [hopen, takeEarlyNorms_none (by rw [train_normSent hb]; exact hearly)] at hexec
  refine ⟨_, hexec, sameMemory_normSent, ?_, congrArg Train.norms (train_normSent hb), fun g hg m hm =>
    norm_mem_normSent hg hm⟩
  unfold Begun
  rw [slot?_normSent hr.1]
  rfl

end

/-! ### UPDATE_ON_ARRIVAL_ARM (R238, R244) -/

/-- An arm that has not had every segment sends no norm. -/
theorem armNorm_waits {s : State} {b : Nat} {p : ShardMap} {a : Arm} (harm : (s.bay b).train.arm = some a)
    (hopen : p.armed.all (fun i => a.delivered.contains i) = false) : s.armNorm b p = s := by
  unfold State.armNorm
  simp only [harm, hopen]
  rfl

section
variable (s : State) (b : Nat) (c : Slot) (p : ShardMap) (hp : Nat) (step : W32) (clip : Bool)

/-- The arm that an UPDATE_ON_ARRIVAL_ARM leaves, with the coefficient of R244. -/
def newArm : Arm :=
  let hy := hyperOf (s.readBay b hp 256)
  ⟨c.adm, step, p.group, clip, hy, (armCoef (s.bay b).train hy step clip).1, false, [], NormAcc.zero, [], c.index⟩

/-- The state in which a bay has that arm. -/
def armSet : State :=
  ((s.setActive c.adm).raise b (armCoef (s.bay b).train (hyperOf (s.readBay b hp 256)) step clip).2).setTrain b
    (fun tr => { tr with arm := some (newArm s b c p hp step clip) })

end

section
variable {s : State} {b : Nat} {c : Slot} {h : Hdr} {p : ShardMap} {hp : Nat} {step : W32} {clip : Bool}

theorem train_armSet (hb : b < s.bays.length) : ((armSet s b c p hp step clip).bay b).train =
    { (s.bay b).train with arm := some (newArm s b c p hp step clip) } := by
  unfold armSet
  rw [train_setTrain _ (by rw [length_raise]; exact hb), train_raise]
  rfl

variable (hr : Running s c (.updateArm h hp step p.group clip)) (hbay : c.bay? = some b)
  (hmap : (s.bay b).train.map = some p) (hio : s.ioStatus b [(hp, 256)] [] = none)
  (hnone : (s.bay b).train.arm = none) (hok : hyperOk (s.readBay b hp 256) clip = true)
  (hfits : (s.bay b).train.stepFits p step = true)
include hr hbay hmap hio hnone hok hfits

theorem Running.exec_updateArm :
    exec (.updateArm h hp step p.group clip) s = .next
      (((armSet s b c p hp step clip).armNorm b p).takeEarlyNorms b c.index) := by
  refine congrArg _ ((hr.onRunning rfl _).trans ?_)
  simp only [hbay, hmap, hio]
  rw [if_neg (by simp [hnone]), if_neg (by simp [hok, hfits]), ← hr.adm_eq rfl]
  rfl

/-- With tensors to wait for, the arm is pending and its command has begun. -/
theorem Running.updateArm_begins (hb : b < s.bays.length)
    (hearly : (s.bay b).train.earlyNorms.all (fun e => e.1 != c.index) = true)
    (harmed : p.armed ≠ []) :
    ∃ t, exec (.updateArm h hp step p.group clip) s = .next t ∧ SameMemory s t ∧ Begun t c ∧
      (t.bay b).train.arm = some (newArm s b c p hp step clip) := by
  have hexec := hr.exec_updateArm hbay hmap hio hnone hok hfits
  have htrain := train_armSet (s := s) (c := c) (p := p) (hp := hp) (step := step) (clip := clip) hb
  have harm := congrArg Train.arm htrain
  have hopen : p.armed.all (fun i => (newArm s b c p hp step clip).delivered.contains i) = false := by
    obtain ⟨i, is, his⟩ := List.exists_cons_of_ne_nil harmed
    rw [his]
    rfl
  rw [armNorm_waits harm hopen, takeEarlyNorms_none (by rw [htrain]; exact hearly)] at hexec
  refine ⟨_, hexec, sameMemory_raise (s.setActive c.adm) .., ?_, harm⟩
  have hslot : (armSet s b c p hp step clip).slot? c.adm = (s.setActive c.adm).slot? c.adm := slot?_raise ..
  unfold Begun
  rw [hslot]
  exact begun_setActive hr.1

end

/-! ### UPDATE_DISARM (R238) -/

section
variable {s : State} {b : Nat} {c x : Slot} {h : Hdr} {a : Arm}

variable (hr : Running s c (.updateDisarm h a.step)) (hbay : c.bay? = some b)
  (harm : (s.bay b).train.arm = some a) (hbegun : a.begun = false) (hx : a.adm = x.adm)
include hr hbay harm hbegun hx

theorem Running.exec_updateDisarm :
    exec (.updateDisarm h a.step) s = .next
      (((s.setTrain b (fun tr => { tr with arm := none })).finishNat x.adm .aborted 0).finishNat c.adm .ok 0) := by
  refine congrArg _ ((hr.onRunning rfl _).trans ?_)
  simp only [hbay, harm]
  rw [if_neg (by simp), if_neg (by simp [hbegun]), hr.adm_eq rfl, hx]
  rfl

/-- The arm goes, its command ends ABORTED, and then the UPDATE_DISARM ends OK. -/
theorem Running.updateDisarm_ends (hb : b < s.bays.length) (hno : NoDelete s b) (hsx : s.slot? x.adm = some x)
    (hpx : x.phase = .active) (hne : x.adm ≠ c.adm) (hbayx : x.bay? = some b) :
    ∃ t, exec (.updateDisarm h a.step) s = .next t ∧ SameMemory s t ∧ Ended t c .ok 0 ∧ Ended t x .aborted 0 ∧
      (t.bay b).train.arm = none := by
  obtain ⟨hs, hp, -⟩ := id hr
  let u := s.setTrain b (fun tr => { tr with arm := none })
  have hno' : NoDelete u b := fun q =>
    (bay_setTrain_kept (fun y => (nth y.sqs q).deleting) (fun _ _ => rfl) s b b _).trans (hno q)
  have hsx' : u.slot? x.adm = some x := hsx
  have hc : (u.finishNat x.adm .aborted 0).slot? c.adm = some c :=
    slot?_finishNat_other hsx' hbayx hno' hne.symm hs (by simp [hp]) .aborted 0
  have hended : Ended (u.finishNat x.adm .aborted 0) x .aborted 0 := ended_of_active .aborted 0 hsx' hpx
  refine ⟨_, hr.exec_updateDisarm hbay harm hbegun hx, ?_, ended_finishNat hc hr.unfinished .ok 0,
    Ended.finishNat_other hc hbay (hno'.finishNat hsx' hbayx .aborted 0) hended hne .ok 0, ?_⟩
  · exact (State.finish_memory u ..).trans (State.finish_memory ..)
  · rw [train_finishNat, train_finishNat, train_setTrain _ hb]

end

/-- Settles O25: each command changes the training state of its bay alone, and what ends a command leaves that as it is. -/
theorem trainingCommandsComplete : Obligations.TrainingCommandsComplete := by
  unfold Obligations.TrainingCommandsComplete
  intro s c h b hparts hbay hb
  have hlen : b < s.bays.length := by rw [hparts.1]; exact hb
  refine ⟨fun a n hr hio hgood hallowed hidle harm hjoin => ?_, fun step mx p hr hmap hio hmx hearly => ?_,
    fun hp step clip p hr hmap hio hnone hok hfits harmed hearly => ?_,
    fun a x hr harm hbegun hno hsx hpx hne hbayx => ?_⟩
  · obtain ⟨t, hexec, hended, hmem, htrain, hothers⟩ :=
      hr.loads_map hbay hlen (mapLoadEff_loads hio hgood hallowed hidle harm hjoin)
    refine ⟨t, hexec, hended, hmem, ?_⟩
    rw [htrain]
    exact ⟨rfl, rfl, rfl, rfl, rfl, rfl, hothers⟩
  · exact ⟨hr.normClip_alone hbay hmap hio hmx hlen hearly, hr.normClip_waits hbay hmap hio hmx hlen hearly⟩
  · exact hr.updateArm_begins hbay hmap hio hnone hok hfits hlen hearly harmed
  · have hadm : a.adm = x.adm := (beq_iff_eq.1 (List.find?_some hsx :)).symm
    rw [hadm] at hsx
    exact hr.updateDisarm_ends hbay harm hbegun hadm hlen hno hsx hpx hne hbayx

end Sys2Proof
end

section
/-! STEP_UPDATE: what the statement claims of it does not hold in every state. -/
namespace Sys2Proof
open Machine

/-! ### A gather under the number of a STEP_UPDATE

Bay 0 has a map of one member and no tensors, so a STEP_UPDATE has no block to update and its effect is OK. But a gather
stands in the bay's training state under the STEP_UPDATE's own admission number, with no entry left to wait for: when the
sweep has let the gathers go on (R230, R239), this gather ends, and ends the STEP_UPDATE with it, so that no running
command is left to end with the effect's status. No run comes to such a state, since each gather has the number of its own
STEP_GATHER; but the statement quantifies over every state whose parts are counted, and its first clause has no
hypothesis on the gathers. (Its clause on STEP_GATHER does ask that no gather has the command's number.) -/

def soleMember : ShardMap := { (default : ShardMap) with members := 1, updateMask := 1 }

def updateWithGather : Slot := { (default : Slot) with
  instr := .stepUpdate { (default : Hdr) with org := .bay 0 1 } (2 ^ 47) 0 false false, phase := .running }

def gatherOfUpdate : Gather := { (default : Gather) with adm := updateWithGather.adm }

def updateMeetsGather : State := { State.reset with cmds := [updateWithGather], nextAdm := 1 }.setTrain 0
  (fun tr => { tr with map := some soleMember, gathers := [gatherOfUpdate] })

/-- What the STEP_UPDATE leaves. -/
def updateMetGather : Eff := State.stepUpdateEff 0 updateWithGather (2 ^ 47) 0 false false (2 ^ 64) updateMeetsGather

/-- The state has its parts, its commands are numbered, and its STEP_UPDATE runs. -/
theorem updateMeetsGather_counted : PartsCounted updateMeetsGather ∧ CommandsNumbered updateMeetsGather ∧
    Running updateMeetsGather updateWithGather updateWithGather.instr := by
  refine ⟨PartsCounted.setBay (PartsCounted.of_lengths .reset) fun y hy => hy.of_lengths, ?_, ?_⟩
  · decide +kernel
  · decide +kernel

/-- The effect is OK, and its state has the STEP_UPDATE finished already. -/
theorem updateMetGather_finished : updateMetGather.2.1 = .ok ∧
    (updateMetGather.1.slot? updateWithGather.adm).map (·.phase) = some (.finished .ok 0 0) := by
  decide +kernel

/-- Refutes O26: a STEP_UPDATE under whose number a gather stands has ended before its effect's status and result are
reported, so it does not perform that effect. -/
theorem not_updateCommandsPerform : ¬ Obligations.UpdateCommandsPerform := by
  unfold Obligations.UpdateCommandsPerform
  intro h
  obtain ⟨hparts, -, hrunning⟩ := updateMeetsGather_counted
  obtain ⟨hok, hfinished⟩ := updateMetGather_finished
  obtain ⟨hupdate, -⟩ := h updateMeetsGather updateWithGather updateWithGather.hdr 0 hparts rfl (by decide)
  obtain ⟨t, -, -, -, c, hslot, hrun, -⟩ := hupdate (2 ^ 47) 0 false false hrunning hok
  change updateMetGather.1.slot? updateWithGather.adm = some c at hslot
  rw [hslot, Option.map_some, hrun] at hfinished
  cases hfinished

end Sys2Proof
end

section
/-! One time cycle with no command waiting, and the idle flits in it (R252, R393). -/
namespace Sys2Proof
open Machine

/-! ### Ports -/

theorem port_setPort_self {s : State} {p : Nat} (f : Port → Port) (hp : p < s.ports.length) :
    (s.setPort p f).port p = f (s.port p) := nth_updNth_self _ _ hp

theorem port_setPort_other (s : State) {p q : Nat} (f : Port → Port) (hq : q ≠ p) :
    (s.setPort p f).port q = s.port q := nth_updNth_other _ _ hq

/-- A port that owes something sends an idle flit (R252). -/
def idlePort (s : State) (p : Nat) : State := if (s.port p).owes then s.sendFlit p 1 [] else s

theorem idleFlits_eq (s : State) : s.idleFlits = (List.range 12).foldl idlePort s := rfl

theorem idlePort_frame (s : State) (p : Nat) : idlePort s p =
    { s with ports := (idlePort s p).ports, outs := (idlePort s p).outs } := by
  unfold idlePort
  split <;> rfl

theorem idleFlits_frame (s : State) : s.idleFlits = { s with ports := s.idleFlits.ports, outs := s.idleFlits.outs } :=
  List.foldlRecOn (List.range 12) idlePort (motive := fun t : State => t = { s with ports := t.ports, outs := t.outs }) rfl
    fun t ht p _ => by rw [idlePort_frame, ht]

/-- With nothing owed no flit goes out. -/
theorem idleFlits_of_none {s : State} (h : ∀ p, p < 12 → (s.port p).owes = false) : s.idleFlits = s :=
  List.foldlRecOn (List.range 12) idlePort (motive := fun t => t = s) rfl fun t ht p hp => by
    rw [ht, idlePort, h p (List.mem_range.1 hp)]
    rfl

theorem port_idlePort_other (s : State) {p q : Nat} (hq : q ≠ p) : (idlePort s p).port q = s.port q := by
  unfold idlePort
  split
  · exact port_setPort_other s _ hq
  · rfl

theorem length_ports_idlePort (s : State) (p : Nat) : (idlePort s p).ports.length = s.ports.length := by
  unfold idlePort
  split
  · exact length_updNth ..
  · rfl

theorem LinkOnly.idlePort {s t : State} (h : LinkOnly s t) (p : Nat) : LinkOnly s (idlePort t p) := h.sendFlit.ite h

/-- The flits of other ports leave a port, and all that was sent before. -/
theorem foldl_idlePort_other (s : State) {q : Nat} {l : List Nat} (hq : q ∉ l) :
    (l.foldl idlePort s).port q = s.port q ∧ (l.foldl idlePort s).ports.length = s.ports.length ∧
      LinkOnly s (l.foldl idlePort s) :=
  List.foldlRecOn l idlePort
    (motive := fun t => t.port q = s.port q ∧ t.ports.length = s.ports.length ∧ LinkOnly s t) ⟨rfl, rfl, .refl s⟩
    fun t ⟨hport, hlen, hlink⟩ p hp =>
      ⟨(port_idlePort_other t (fun h : q = p => hq (by rw [h]; exact hp))).trans hport,
        (length_ports_idlePort t p).trans hlen, hlink.idlePort p⟩

/-- An idle flit acknowledges what its port has received, and waits in no replay buffer (R252, R255). -/
theorem idlePort_sends {s : State} {p : Nat} (hp : p < s.ports.length) (howes : (s.port p).owes = true) :
    ((idlePort s p).port p).acked = (s.port p).rxLast ∧ ((idlePort s p).port p).rxLast = (s.port p).rxLast ∧
      ((idlePort s p).port p).replay = (s.port p).replay ∧ ∃ f, f.kind = 1 ∧ Output.flit p f ∈ (idlePort s p).outs := by
  unfold idlePort
  rw [if_pos howes]
  have hport : (s.sendFlit p 1 []).port p = _ := port_setPort_self _ hp
  rw [hport]
  exact ⟨rfl, rfl, rfl, _, rfl, List.mem_append_right _ (List.mem_singleton_self _)⟩

/-- Each port that owes something sends its idle flit (R252). -/
theorem idleFlits_sends {s : State} {p : Nat} (hlen : s.ports.length = 12) (hp : p < 12) (howes : (s.port p).owes = true) :
    (s.idleFlits.port p).acked = (s.port p).rxLast ∧ (s.idleFlits.port p).rxLast = (s.port p).rxLast ∧
      (s.idleFlits.port p).replay = (s.port p).replay ∧ ∃ f, f.kind = 1 ∧ Output.flit p f ∈ s.idleFlits.outs := by
  obtain ⟨before, after, hrange⟩ := List.append_of_mem (List.mem_range.2 hp)
  have hnodup : (before ++ p :: after).Nodup := hrange ▸ List.nodup_range
  obtain ⟨hafter, hbefore⟩ : p ∉ after ∧ p ∉ before := by
    rw [List.nodup_append, List.nodup_cons] at hnodup
    obtain ⟨-, ⟨hafter, -⟩, happart⟩ := hnodup
    exact ⟨hafter, fun h => happart p h p List.mem_cons_self rfl⟩
  rw [idleFlits_eq, hrange, List.foldl_append, List.foldl_cons]
  obtain ⟨hport, hcount, -⟩ := foldl_idlePort_other s hbefore
  obtain ⟨hkept, -, hlink⟩ := foldl_idlePort_other (idlePort (before.foldl idlePort s) p) hafter
  obtain ⟨hacked, hlast, hreplay, f, hkind, hsent⟩ :=
    idlePort_sends (s := before.foldl idlePort s) (p := p) (by rw [hcount, hlen]; exact hp) (by rw [hport]; exact howes)
  rw [hkept]
  rw [hport] at hacked hlast hreplay
  exact ⟨hacked, hlast, hreplay, f, hkind, hlink.sent hsent⟩

/-! ### The clock -/

/-- One cycle counts 1 ns of uptime, and 0, 1 or 2 ns of site time as the trim has gathered a whole ns (R393). -/
theorem clock_tick_counts (c : Clock) : c.tick.uptime = c.uptime + 1 ∧
    ∃ d, d ≤ 2 ∧ c.tick.site = (if d = 0 then c.site else (c.site + d) % 2 ^ 64) ∧
      c.tick.frac = c.frac + c.trim + (1 - (d : Int)) * 1000000000 := by
  unfold Clock.tick
  dsimp only
  split
  · exact ⟨rfl, 2, Nat.le_refl 2, rfl, by dsimp only; omega⟩
  · split
    · exact ⟨rfl, 0, Nat.zero_le 2, rfl, by dsimp only; omega⟩
    · exact ⟨rfl, 1, by decide, rfl, by dsimp only; omega⟩

theorem tick_frame (s : State) : tick s = { s with clock := (tick s).clock } := by
  unfold tick
  split <;> rfl

/-- Without power time stands still. -/
theorem tick_unpowered {s : State} (h : s.dev.hold = 1) : tick s = s := if_pos h

theorem tick_powered {s : State} (h : s.dev.hold ≠ 1) : tick s = { s with clock := s.clock.tick } := if_neg h

theorem step_empty {s : State} (h : s.pending = []) :
    step s = .next (if s.dev.hold = 0 then (tick s).idleFlits else tick s) := by
  unfold step
  rw [h]

/-- The idle flits of a cycle leave what the clock shows. -/
theorem clock_step_empty (s : State) :
    (if s.dev.hold = 0 then (tick s).idleFlits else tick s).clock = (tick s).clock := by
  split
  · rw [idleFlits_frame]
  · rfl

/-- Settles O2: the tick moves the clock alone, and the idle flits after it are the owing ports' own. -/
theorem emptyQueuePassesOneTimeCycle : Obligations.EmptyQueuePassesOneTimeCycle := by
  unfold Obligations.EmptyQueuePassesOneTimeCycle
  intro s hempty
  have hport : ∀ p, (tick s).port p = s.port p := fun p => by
    rw [tick_frame]
    rfl
  refine ⟨_, step_empty hempty, ?_, fun hquiet => ?_, fun hup hparts p hp howes => ?_, fun hoff => ?_, fun hon => ?_⟩
  · split
    · rw [idleFlits_frame, tick_frame]
    · rw [tick_frame]
  · have hsilent : (if s.dev.hold = 0 then (tick s).idleFlits else tick s) = tick s := by
      rcases hquiet with hheld | hnone
      · exact if_neg hheld
      · rw [idleFlits_of_none fun p hp => by rw [hport]; exact hnone p hp, ite_self]
    rw [hsilent]
    exact tick_frame s
  · obtain ⟨-, -, -, hlen, -⟩ := hparts.tick
    rw [if_pos hup]
    have := idleFlits_sends hlen hp (by rw [hport]; exact howes)
    rwa [hport] at this
  · rw [if_neg (by omega), tick_unpowered hoff]
  · rw [clock_step_empty, tick_powered hon]
    exact clock_tick_counts s.clock

end Sys2Proof
end

section
/-! Triggered descriptors: what the statement claims of the handle of one that has fired does not hold in every state. -/
namespace Sys2Proof
open Machine

/-! ### Two descriptors under one handle

Bay 0 runs and has two LOCAL_ADD descriptors under the handle 0. The first is due and has no REARM; the second, with REARM,
waits for a threshold that its counter has not reached. The first one fires and is gone, but the second stays under the same
handle, as a descriptor with REARM does (R269, R270). No run comes to such a state, since TRIGGER_ARM gives the lowest free
handle (R269); but the statement quantifies over every state whose parts are counted, and its clause on a descriptor that
fires asks only that it is the first of its handle. -/

def localAdd : TrigBlk := { (default : TrigBlk) with kind := 4, length := 1 }

def dueAdd : Trig := ⟨0, localAdd, true, 0, false⟩

def twinAdd : Trig := ⟨0, { localAdd with rearm := true, thresh := 1 }, false, 0, false⟩

def sharedHandle : State := State.reset.setBay 0 fun y => { y with st := .active, trigs := [dueAdd, twinAdd] }

theorem sharedHandle_counted : PartsCounted sharedHandle := PartsCounted.setBay .reset fun _ hy => hy.of_lengths

/-- The first descriptor of the handle may fire, and its counter has no ERR. -/
theorem sharedHandle_fires : (sharedHandle.bay 0).trigs.find? (·.handle == 0) = some dueAdd ∧
    (sharedHandle.bay 0).runs = true ∧ (sharedHandle.bay 0).trigTurn dueAdd = true ∧
    (nth (sharedHandle.bay 0).counters dueAdd.blk.waitCtr).err = false := by
  decide +kernel

/-- The descriptor has counted, and the other one has kept the handle. -/
theorem twinAdd_stays : ∃ u, exec (.triggerFire 0 0) sharedHandle = .next u ∧
    nth (u.bay 0).counters 0 = ⟨1, false⟩ ∧ (u.bay 0).trigs.map (fun x => (x.handle, x.blk.rearm)) = [(0, true)] :=
  ⟨_, rfl, by decide +kernel, by decide +kernel⟩

/-- Refutes O29: where a second descriptor stands under the handle of one that fires without REARM, the second one keeps the
handle, which the statement says no descriptor has any more. -/
theorem not_triggerCommandsComplete : ¬ Obligations.TriggerCommandsComplete := by
  unfold Obligations.TriggerCommandsComplete
  intro h
  obtain ⟨hfound, hruns, hturn, hclear⟩ := sharedHandle_fires
  obtain ⟨-, -, hfire, -⟩ := h sharedHandle 0 sharedHandle_counted (by decide)
  obtain ⟨-, hclean⟩ := hfire 0 dueAdd hfound rfl hruns hturn (by decide) (by decide)
  obtain ⟨hadd, -⟩ := hclean hclear
  obtain ⟨t, hexec, hgone, -⟩ := hadd rfl rfl
  obtain ⟨u, hu, -, htrigs⟩ := twinAdd_stays
  cases hexec.symm.trans hu
  obtain ⟨x, hx, hhandle⟩ := List.mem_map.1 (htrigs ▸ List.mem_singleton_self (0, true))
  exact hgone rfl x hx (congrArg Prod.fst hhandle)

end Sys2Proof
end

section
/-! Groups: their formation, its end, and their dissolution (R261, R262). -/
namespace Sys2Proof
open Machine

/-! ### Groups of a bay -/

theorem group?_id {y : Bay} {n : Nat} {x : Group} (h : y.group? n = some x) : x.id = n := by
  simpa using List.find?_some h

/-- The end of a command leaves the groups of every bay. -/
theorem groups_finishNat (s : State) (adm : Nat) (st : Status) (r b : Nat) :
    ((s.finishNat adm st r).bay b).groups = (s.bay b).groups := by
  rw [State.finish_cores s adm st r b]

/-- A group taken away is gone. -/
theorem group?_filter (y : Bay) (n : Nat) :
    Bay.group? { y with groups := y.groups.filter (fun (x : Group) => x.id != n) } n = none := by
  unfold Bay.group?
  simp [List.find?_eq_none]

section
variable {s : State} {b g : Nat} {x : Group} (hb : b < s.bays.length) (hg : (s.bay b).group? g = some x)
include hb hg

/-- A group changed under its number. -/
theorem group?_setGroup {f : Group → Group} (hf : ∀ y, (f y).id = y.id) :
    ((s.setGroup b g f).bay b).group? g = some (f x) := by
  unfold State.setGroup Bay.group?
  rw [State.bay_setBay_self _ _ _ hb]
  exact find?_map_picked (fun y => by simp) (fun y hy => by rw [hf]; exact hy) hg

/-- A group marked formed is a formed group. -/
theorem formed?_setGroup : (((s.setGroup b g fun y => { y with formed := true }).bay b).formed? g).isSome := by
  have hfound := group?_setGroup (f := fun y => { y with formed := true }) hb hg fun _ => rfl
  refine List.find?_isSome.2 ⟨_, List.mem_of_find?_eq_some hfound, ?_⟩
  simp [group?_id hg]

end

/-! ### The end of a join -/

/-- Every join packet at hand has this device's version vector and the digest of the group (R262). -/
abbrev JoinsAgree (s : State) (x : Group) : Prop :=
  x.joins.all (fun k => k.versions == s.boot.versions && k.digest == x.digest) = true

/-- Join packets that agree form the group when they are all there, and else time out (R262). -/
theorem joinStatus_agreed {s : State} {x : Group} (h : JoinsAgree s x) (full : Bool) :
    x.joinStatus s.boot.versions full = if full then none else some .timeout := by
  have hall : ∀ k ∈ x.joins, k.versions = s.boot.versions ∧ k.digest = x.digest := by simpa using h
  have hversions : x.joins.any (fun j => j.versions != s.boot.versions) = false :=
    List.any_eq_false.2 fun k hk => by simp [(hall k hk).1]
  have hdigests : x.joins.any (fun j => j.digest != x.digest) = false :=
    List.any_eq_false.2 fun k hk => by simp [(hall k hk).2]
  unfold Group.joinStatus
  rw [hversions, hdigests]
  rfl

section
variable {s : State} {b g : Nat} {x : Group} {c : Slot} (hb : b < s.bays.length) (hg : (s.bay b).group? g = some x)
  (hagree : JoinsAgree s x) (hs : s.slot? x.adm = some c) (hf : c.finished? = false)
include hb hg hagree hs hf

/-- The last join packet forms the group and ends the command (R262). -/
theorem settleJoin_forms (hopen : x.formed = false) (hfull : x.joins.length = x.blk.members) :
    SameMemory s (s.settleJoin b g) ∧ (((s.settleJoin b g).bay b).formed? g).isSome ∧
      Ended (s.settleJoin b g) c .ok (x.blk.members + x.positions * 2 ^ 16) := by
  have hadm : c.adm = x.adm := by simpa using List.find?_some hs
  have hend : s.settleJoin b g = (s.setGroup b g fun y => { y with formed := true }).finishNat c.adm .ok
      (x.blk.members + x.positions * 2 ^ 16) := by
    unfold State.settleJoin
    rw [hg]
    dsimp only
    rw [hopen, hfull, beq_self_eq_true]
    simp only [Bool.not_false, Bool.and_self, if_true]
    unfold State.endJoin
    rw [joinStatus_agreed hagree, group?_id hg, hadm]
    rfl
  rw [hend]
  refine ⟨State.finish_memory (s.setGroup b g _) .., ?_, ended_finishNat (s := s.setGroup b g _) (hadm ▸ hs) hf ..⟩
  unfold Bay.formed?
  rw [groups_finishNat]
  exact formed?_setGroup hb hg

/-- A join that is not full when it ends takes the group away and ends the command TIMEOUT (R262). -/
theorem endJoin_times_out : SameMemory s (s.endJoin b x false) ∧ ((s.endJoin b x false).bay b).group? g = none ∧
    Ended (s.endJoin b x false) c .timeout 0 := by
  have hadm : c.adm = x.adm := by simpa using List.find?_some hs
  let u := s.setBay b fun y => { y with groups := y.groups.filter (fun (z : Group) => z.id != x.id) }
  have hend : s.endJoin b x false = u.finishNat c.adm .timeout 0 := by
    unfold State.endJoin
    rw [joinStatus_agreed hagree, hadm]
    rfl
  rw [hend]
  refine ⟨State.finish_memory u .., ?_, ended_finishNat (s := u) (hadm ▸ hs) hf ..⟩
  unfold Bay.group?
  rw [groups_finishNat, State.bay_setBay_self _ _ _ hb, group?_id hg]
  exact group?_filter ..

end

theorem settleJoin_waits {s : State} {b g : Nat} {x : Group} (hg : (s.bay b).group? g = some x)
    (hmore : x.joins.length ≠ x.blk.members) : s.settleJoin b g = s := by
  unfold State.settleJoin
  rw [hg]
  simp [hmore]

/-! ### COLL_GROUP_CREATE -/

/-- The group that COLL_GROUP_CREATE makes of its block, without a join packet (R261). -/
def newGroup (s : State) (adm g : Nat) (k : GroupBlk) : Group :=
  ⟨g, k, if k.treeMax = 0 then s.nv.treeMax else k.treeMax, if k.chainAbove = 0 then s.nv.chainAbove else k.chainAbove,
    false, adm, s.clock.uptime, [], 0, List.replicate 64 (0, 0)⟩

/-- This member's join packet for a group (R262). -/
def ownJoin (s : State) (b : Nat) (x : Group) : JoinPacket := s.joinPacket b x.id x.blk.thisMember x.digest

/-- The state in which a group is noted with this member's join packet. -/
def groupNoted (s : State) (b : Nat) (x : Group) : State :=
  (s.setActive x.adm).setBay b fun y => { y with
    groups := y.groups ++ [{ x with joins := [ownJoin s b x] }]
    earlyJoins := y.earlyJoins.filter (fun e => e.2.group != x.id) }

/-- The state in which the join packet has gone to every other member as well. -/
def invited (s : State) (b : Nat) (x : Group) : State :=
  x.peers.foldl (fun u m => u.sendJoin (x.node m) (some x.adm) (ownJoin s b x)) (groupNoted s b x)

theorem LinkOnly.sendJoin {r s : State} {node : Nat} {adm : Option Nat} {j : JoinPacket} (h : LinkOnly r s) :
    LinkOnly r (s.sendJoin node adm j) := h.emit.inject

theorem invited_link (s : State) (b : Nat) (x : Group) : LinkOnly (groupNoted s b x) (invited s b x) :=
  (LinkOnly.refl _).foldl fun _ _ h => h.sendJoin

theorem length_invited (s : State) (b : Nat) (x : Group) : (invited s b x).bays.length = s.bays.length := by
  rw [(invited_link ..).bays]
  exact State.setBay_length ..

/-- Every other member is sent the join packet (R262). -/
theorem join_mem_invited (s : State) (b : Nat) {x : Group} {m : Nat} (hm : m ∈ x.peers) :
    Output.join (x.node m) (ownJoin s b x) ∈ (invited s b x).outs := by
  obtain ⟨before, after, hpeers⟩ := List.append_of_mem hm
  unfold invited
  rw [hpeers, List.foldl_append, List.foldl_cons]
  refine (LinkOnly.foldl (.refl _) fun _ _ h => h.sendJoin).sent ?_
  unfold State.sendJoin
  exact (LinkOnly.inject (.refl _)).sent (List.mem_append_right _ (List.mem_singleton_self _))

section
variable {s : State} {c : Slot} {h : Hdr} {b g : Nat} {k : GroupBlk}

/-- With no join packet held for it a group of a legal block is noted, and forms if its member is alone (R262). -/
theorem Running.exec_collGroupCreate (hr : Running s c (.collGroupCreate h g k)) (hbay : c.bay? = some b)
    (hcheck : s.groupCreateCheck b g k = none) (hearly : (s.bay b).earlyJoins.all (fun j => j.2.group != g) = true) :
    exec (.collGroupCreate h g k) s = .next ((invited s b (newGroup s c.adm g k)).settleJoin b g) := by
  have hnone : s.earlyFor b (newGroup s c.adm g k) = [] := by
    have hall := List.all_eq_true.1 hearly
    unfold State.earlyFor
    rw [List.filter_eq_nil_iff.2 fun e he hcount => ?_]
    · rfl
    · have hother := hall e he
      rw [Bool.and_eq_true] at hcount
      exact (by simpa using hother : e.2.group ≠ g) (eq_of_beq hcount.1)
  refine congrArg Host.Outcome.next ((hr.onRunning rfl _).trans ?_)
  rw [hbay]
  simp only [hcheck]
  rw [← hr.adm_eq rfl]
  exact (congrArg (fun l => List.foldl _ _ l) hnone).trans rfl

/-- A legal block names a group number that is not in use (R261). -/
theorem group?_of_groupCreateCheck (hcheck : s.groupCreateCheck b g k = none) : (s.bay b).group? g = none := by
  unfold State.groupCreateCheck at hcheck
  extract_lets tmax at hcheck
  split at hcheck
  · cases hcheck
  · split at hcheck
    · cases hcheck
    · rename_i hfree
      simpa using hfree

theorem group?_invited (hb : b < s.bays.length) {x : Group} (hfree : (s.bay b).group? x.id = none) :
    ((invited s b x).bay b).group? x.id = some { x with joins := [ownJoin s b x] } := by
  rw [(invited_link ..).bay]
  unfold groupNoted Bay.group? at *
  rw [State.bay_setBay_self (s.setActive x.adm) _ _ hb]
  refine (List.find?_append ..).trans ?_
  rw [show (s.setActive x.adm).bay b = s.bay b from rfl, hfree]
  simp

theorem slot?_invited {x : Group} (hs : s.slot? c.adm = some c) (hadm : x.adm = c.adm) :
    (invited s b x).slot? c.adm = some (waiting s c) := by
  rw [(invited_link ..).slot?]
  unfold groupNoted
  rw [hadm]
  exact slot?_setActive hs

/-- A group of one member forms at once (R262). -/
theorem invited_forms (hb : b < s.bays.length) (hs : s.slot? c.adm = some c) (hfree : (s.bay b).group? g = none)
    (hone : k.members = 1) :
    let x := newGroup s c.adm g k
    let t := (invited s b x).settleJoin b g
    SameMemory s t ∧ ((t.bay b).formed? g).isSome ∧ Ended t c .ok (1 + x.positions * 2 ^ 16) := by
  intro x t
  have hlink := invited_link s b x
  have hagree : JoinsAgree (invited s b x) { x with joins := [ownJoin s b x] } := by
    unfold JoinsAgree
    rw [hlink.rest]
    simp [groupNoted, State.setActive, ownJoin, State.joinPacket, Group.digest]
  obtain ⟨hsame, hformed, hended⟩ := settleJoin_forms (c := waiting s c) (by rw [length_invited]; exact hb)
    (group?_invited (x := x) hb hfree) hagree (slot?_invited (x := x) hs rfl) rfl rfl hone.symm
  have hmem : SameMemory s (invited s b x) := hlink.mem
  exact ⟨hmem.trans hsame, hformed, hone ▸ hended⟩

/-- A group of several members waits for the others' join packets, with its own on its way to each of them (R262). -/
theorem invited_waits (hb : b < s.bays.length) (hs : s.slot? c.adm = some c) (hfree : (s.bay b).group? g = none)
    (hmore : 1 < k.members) :
    let x := newGroup s c.adm g k
    let t := (invited s b x).settleJoin b g
    SameMemory s t ∧ Begun t c ∧ (∀ m ∈ x.peers, Output.join (x.node m) (ownJoin s b x) ∈ t.outs) ∧
      (t.bay b).groups = (s.bay b).groups ++ [{ x with joins := [ownJoin s b x] }] := by
  intro x t
  have hlink := invited_link s b x
  have ht : t = invited s b x := settleJoin_waits (group?_invited (x := x) hb hfree) (Nat.ne_of_lt hmore)
  rw [ht]
  refine ⟨hlink.mem, ?_, fun m hm => join_mem_invited s b hm, ?_⟩
  · unfold Begun
    rw [slot?_invited (x := x) hs rfl]
    rfl
  · rw [hlink.bay]
    exact congrArg Bay.groups (State.bay_setBay_self (s.setActive x.adm) _ _ hb)

/-- A destroyed group that nothing uses is taken away (Table 7.7). -/
theorem Running.exec_collGroupDestroy (hr : Running s c (.collGroupDestroy h g)) (hbay : c.bay? = some b)
    (hformed : ((s.bay b).formed? g).isSome) (hidle : s.groupBusy b g = false) :
    exec (.collGroupDestroy h g) s = .next ((s.setBay b fun y => { y with
      groups := y.groups.filter (fun (x : Group) => x.id != g) }).finishNat c.adm .ok 0) := by
  have hsome : ((s.bay b).formed? g).isNone = false := by simpa using hformed
  refine congrArg Host.Outcome.next ((hr.onRunning rfl _).trans ?_)
  rw [hbay, hr.adm_eq rfl]
  simp only [hsome, hidle, Bool.false_eq_true, if_false]

end

/-! ### Join packets received -/

section
variable {s : State} {j : JoinPacket}

/-- What a join packet does once it has left its receive buffer. -/
theorem exec_groupControl (s : State) (j : JoinPacket) : ∃ ports,
    exec (.groupControl j) s = .next (State.takeJoin { s with ports := ports } j) :=
  ⟨_, congrArg (fun u => Host.Outcome.next (State.takeJoin u j)) (takeMsg_frame s 6 j.bay j.group _)⟩

/-- A join packet for a group that no command names is held with the time it came (R262). -/
theorem takeJoin_holds (hnone : (s.bay j.bay).group? j.group = none) (hdigest : j.digest ≠ []) :
    s.takeJoin j = s.setBay j.bay fun y => { y with earlyJoins := y.earlyJoins ++ [(s.clock.uptime, j)] } := by
  unfold State.takeJoin
  rw [hnone]
  exact if_neg hdigest

/-- A member's first join packet for a group that still forms counts (R262). -/
theorem takeJoin_counts {x : Group} (hg : (s.bay j.bay).group? j.group = some x) (hopen : x.formed = false)
    (hnew : x.joins.any (fun k => k.member == j.member) = false) :
    s.takeJoin j = (s.setGroup j.bay j.group fun y => { y with joins := y.joins ++ [j] }).settleJoin j.bay j.group := by
  have hother : x.joins.any (fun k => k.member == j.member && k.snode == j.snode) = false := by
    rw [List.any_eq_false] at hnew ⊢
    exact fun k hk hboth => hnew k hk (Bool.and_eq_true_iff.1 hboth).1
  unfold State.takeJoin
  rw [hg]
  simp only [hopen, hother, Bool.false_eq_true, if_false]

end

end Sys2Proof
end

section
/-! Commands of a bay that end one after the other, and what counts after them (R155, R161, R263). -/
namespace Sys2Proof
open Machine

/-! ### Sorted lists -/

theorem insertBy_perm {α : Type} (le : α → α → Bool) (x : α) (l : List α) : (insertBy le x l).Perm (x :: l) := by
  induction l with
  | nil => exact .refl _
  | cons y ys ih =>
    unfold insertBy
    split
    · exact .refl _
    · exact (ih.cons y).trans (.swap x y ys)

theorem sortBy_perm {α : Type} (le : α → α → Bool) (l : List α) : (sortBy le l).Perm l := by
  induction l with
  | nil => exact .refl _
  | cons x xs ih => exact (insertBy_perm le x _).trans (ih.cons x)

/-! ### A command that waits for its turn to end -/

/-- The command's slot stands as it was, but that a sample of ERR may have been taken (R162). -/
def Sampled (s : State) (c : Slot) : Prop := ∃ e, s.slot? c.adm = some { c with errSample := e }

theorem Sampled.markFinished_other {s : State} {c : Slot} {adm : Nat} (h : Sampled s c) (hn : c.adm ≠ adm) (st : Status)
    (r : W64) : Sampled (s.markFinished adm st r) c := by
  obtain ⟨e, he⟩ := id h
  unfold State.markFinished
  split
  · exact h
  · split
    · exact h
    · dsimp only
      split
      · rename_i b k _ _
        obtain ⟨e', he'⟩ := slot?_recheck_sample (s := s.setBay b _) he b k
        exact ⟨e', (slot?_setSlot_other _ (fun _ => by rfl) hn).trans he'⟩
      · exact ⟨e, (slot?_setSlot_other _ (fun _ => by rfl) hn).trans he⟩

section
variable {s : State} {x : Slot} {b : Nat} (hx : s.slot? x.adm = some x) (hbay : x.bay? = some b) (hno : NoDelete s b)
include hx hbay hno

/-- In a bay with no queue to delete (R157), the end of a command takes no more than a sample of another one's slot. -/
theorem Sampled.finishNat_other {c : Slot} (h : Sampled s c) (hn : c.adm ≠ x.adm) (st : Status) (r : Nat) :
    Sampled (s.finishNat x.adm st r) c := by
  obtain ⟨q, horg⟩ := bay?_eq_some hbay
  obtain ⟨hsqs, -⟩ := RingsKept.ended s x.adm (postedStatus x st) (BitVec.ofNat 64 r) b
  obtain ⟨e, he⟩ := h.markFinished_other hn (postedStatus x st) (BitVec.ofNat 64 r)
  refine ⟨e, ?_⟩
  unfold State.finishNat State.finish
  rw [hx]
  change (((s.markFinished x.adm (postedStatus x st) _).dropIfSilent x.adm).settle x.hdr.org).slot? c.adm = _
  rw [horg]
  unfold State.settle
  dsimp only
  rw [settleQueue_of_noDelete (by rw [hsqs]; exact hno q), State.settleAdmin_frame]
  exact (slot?_dropIfSilent_other _ hn).trans he

end

/-! ### All of them -/

/-- Commands of a bay that have not finished, each with a number of its own, in a bay with no queue to delete. -/
structure MayEnd (s : State) (b : Nat) (l : List Slot) : Prop where
  noDelete : NoDelete s b
  apart : l.Pairwise fun x y => x.adm ≠ y.adm
  standing : ∀ x ∈ l, Sampled s x
  ofBay : ∀ x ∈ l, x.bay? = some b
  unfinished : ∀ x ∈ l, x.finished? = false

/-- They end with one status, one after the other, each with its result. -/
def endAll (st : Status) (r : Slot → Nat) (l : List Slot) (s : State) : State :=
  l.foldl (fun u x => u.finishNat x.adm st (r x)) s

namespace MayEnd
variable {s : State} {b : Nat} {x : Slot} {l : List Slot}

/-- The first one ends, and the others may end still. -/
theorem next (h : MayEnd s b (x :: l)) (st : Status) (r : Nat) :
    Ended (s.finishNat x.adm st r) x st r ∧ MayEnd (s.finishNat x.adm st r) b l := by
  obtain ⟨e, hx⟩ := h.standing x List.mem_cons_self
  have hbay := h.ofBay x List.mem_cons_self
  obtain ⟨hnumber, hapart⟩ := List.pairwise_cons.1 h.apart
  exact ⟨ended_finishNat (c := { x with errSample := e }) hx (h.unfinished x List.mem_cons_self) st r,
    h.noDelete.finishNat (x := { x with errSample := e }) hx hbay st r, hapart,
    fun y hy => (h.standing y (List.mem_cons_of_mem x hy)).finishNat_other (x := { x with errSample := e }) hx hbay
      h.noDelete (hnumber y hy).symm st r,
    fun y hy => h.ofBay y (List.mem_cons_of_mem x hy), fun y hy => h.unfinished y (List.mem_cons_of_mem x hy)⟩

/-- A command that has ended before stays as its end left it. -/
theorem ended_before {c : Slot} {st' : Status} {r' : Nat} (h : MayEnd s b l) (hc : ∀ x ∈ l, c.adm ≠ x.adm)
    (hended : Ended s c st' r') (st : Status) (r : Slot → Nat) : Ended (endAll st r l s) c st' r' := by
  induction l generalizing s with
  | nil => exact hended
  | cons x xs ih =>
    obtain ⟨e, hx⟩ := h.standing x List.mem_cons_self
    exact ih (h.next st (r x)).2 (fun y hy => hc y (List.mem_cons_of_mem x hy))
      (hended.finishNat_other (x := { x with errSample := e }) hx (h.ofBay x List.mem_cons_self) h.noDelete
        (hc x List.mem_cons_self) st (r x))

/-- Each of them ends. -/
theorem ended {c : Slot} (h : MayEnd s b l) (hc : c ∈ l) (st : Status) (r : Slot → Nat) :
    Ended (endAll st r l s) c st (r c) := by
  induction l generalizing s with
  | nil => exact absurd hc List.not_mem_nil
  | cons x xs ih =>
    obtain ⟨hended, hrest⟩ := h.next st (r x)
    rcases List.mem_cons.1 hc with rfl | hc
    · exact hrest.ended_before (fun y hy => (List.pairwise_cons.1 h.apart).1 y hy) hended st r
    · exact ih hrest hc

end MayEnd

theorem endAll_cores (st : Status) (r : Slot → Nat) (l : List Slot) (s : State) : CoresKept s (endAll st r l s) :=
  List.foldlRecOn l _ (motive := CoresKept s) (.refl s) fun u hu x _ => hu.trans (State.finish_cores u x.adm st (r x))

/-! ### What counts afterwards -/

/-- No end of a command is undone, and every bay keeps all but its counters, descriptors, rings and registers. -/
structure EndsKept (s t : State) : Prop where
  cores : CoresKept s t
  ends : ∀ c st r, Ended s c st r → Ended t c st r

namespace EndsKept
variable {s t u : State}

theorem refl (s : State) : EndsKept s s := ⟨.refl s, fun _ _ _ h => h⟩

theorem trans (h : EndsKept s t) (g : EndsKept t u) : EndsKept s u :=
  ⟨h.cores.trans g.cores, fun c st r he => g.ends c st r (h.ends c st r he)⟩

/-- What keeps the free numbers and the slots that are not held undoes no end. -/
theorem of_slots (hc : CoresKept s t) (hnone : ∀ adm, s.slot? adm = none → t.slot? adm = none)
    (hsome : ∀ adm d, s.slot? adm = some d → d.phase ≠ .held → t.slot? adm = some d) : EndsKept s t := by
  refine ⟨hc, fun c st r h => ?_⟩
  unfold Ended at h ⊢
  split
  · rename_i hs
    rw [if_pos hs] at h
    exact hnone _ h
  · rename_i hs
    rw [if_neg hs] at h
    unfold outcome at h ⊢
    cases hd : s.slot? c.adm with
    | none =>
      rw [hd] at h
      cases h
    | some d =>
      rw [hd] at h
      rw [hsome _ d hd fun hp => by simp [hp] at h]
      exact h

theorem bump (s : State) (b k n : Nat) (err : Bool) : EndsKept s (s.bump b k n err) :=
  .of_slots (State.bump_cores s b k n err) (fun _ h => State.slot?_none_bump _ _ _ _ _ _ h)
    fun _ _ h hp => State.slot?_recheck (s.setBay b _) b k _ _ h hp

theorem link (h : LinkOnly s t) : EndsKept s t :=
  .of_slots (.of_eq h.bays) (fun adm hd => (h.slot? adm).trans hd) fun adm _ hd _ => (h.slot? adm).trans hd

theorem addAt (s : State) (b : Nat) (g : Option Group) (lc member : Option Nat) (vc ctr n : Nat) (err : Bool) :
    EndsKept s (s.addAt b g lc member vc ctr n err) := by
  unfold State.addAt
  split
  · split
    · exact bump ..
    · split
      · exact link (LinkOnly.refl s).sendTo
      · exact refl s
  · exact bump ..

/-- What a descriptor counts when it ends (R270). -/
theorem firedEnd (s : State) (b : Nat) (d : TrigBlk) (err : Bool) : EndsKept s (s.firedEnd b d err) := by
  unfold State.firedEnd State.countTrig
  extract_lets g target u
  have hsignal : EndsKept s u := by
    unfold u
    split
    · exact bump ..
    · exact refl s
  split
  · exact hsignal.trans (addAt ..)
  · exact hsignal

end EndsKept

end Sys2Proof
end

section
/-! The group abort (R197, R263). -/
namespace Sys2Proof
open Machine

/-! ### What an abort leaves of bays and commands -/

theorem mixed_kept (s t : State) : (s.mixed t).bays = s.bays ∧ (s.mixed t).cmds = s.cmds := by
  have hmarks := List.foldlRecOn (s.zeroMarks.filter fun r => !t.zeroMarks.contains r) State.unmark
    (motive := fun u : State => u.bays = s.bays ∧ u.cmds = s.cmds) ⟨rfl, rfl⟩ fun u hu r _ => by
      unfold State.unmark
      split
      · exact hu
      · exact hu
  exact hmarks

/-- The state in which the group's collectives, gathers and norms are forgotten; a line that they may have written is old or
new (R197). -/
def forgotten (s : State) (b g : Nat) : State :=
  (match (s.bay b).formed? g with
    | some x => ((s.bay b).colls.filter (fun (c : Coll) => c.group == g)).foldl (fun (u : State) c => u.mixColl b x c) s
    | none => s).setBay b fun y => y.dropExchange g

/-- The unfinished commands over a group (R263). -/
def overGroup (s : State) (b g : Nat) : List Slot :=
  s.cmds.filter fun c => c.ofBay b && !c.finished? && groupUse (s.bay b).mapGroup c.instr == some g

theorem abortGroup_eq (s : State) (b g : Nat) : s.abortGroup b g =
    (((s.bay b).colls.filter (fun c => c.group == g)).filter (fun c => c.adm == none)).foldl
      (fun u c => match c.trig with
        | some d => u.firedEnd b d true
        | none => u)
      (endAll .aborted (·.work) (postOrder (overGroup s b g)) (forgotten s b g)) := rfl

section
variable (s : State) (b g : Nat)

theorem forgotten_kept : ∃ u : State, forgotten s b g = u.setBay b (fun y => y.dropExchange g) ∧ u.bays = s.bays ∧
    u.cmds = s.cmds := by
  refine ⟨_, rfl, ?_⟩
  split
  · exact List.foldlRecOn _ _ (motive := fun u : State => u.bays = s.bays ∧ u.cmds = s.cmds) ⟨rfl, rfl⟩
      fun u ⟨hbays, hcmds⟩ c _ => ⟨(mixed_kept ..).1.trans hbays, (mixed_kept ..).2.trans hcmds⟩
  · exact ⟨rfl, rfl⟩

theorem slot?_forgotten (adm : Nat) : (forgotten s b g).slot? adm = s.slot? adm := by
  obtain ⟨u, hu, -, hcmds⟩ := forgotten_kept s b g
  rw [hu, State.slot?_setBay]
  unfold State.slot?
  rw [hcmds]

theorem bay_forgotten (hb : b < s.bays.length) : (forgotten s b g).bay b = (s.bay b).dropExchange g := by
  obtain ⟨u, hu, hbays, -⟩ := forgotten_kept s b g
  rw [hu, State.bay_setBay_self _ _ _ (hbays ▸ hb)]
  unfold State.bay
  rw [hbays]

end

/-- A command is found by its number. -/
theorem slot?_of_mem {s : State} {c : Slot} (hnum : s.slotTable.Numbered) (hc : c ∈ s.cmds) : s.slot? c.adm = some c := by
  obtain ⟨d, hd⟩ := Option.isSome_iff_exists.1 (List.find?_isSome (p := (·.adm == c.adm)).2 ⟨c, hc, by simp⟩)
  have hadm : d.adm = c.adm := by simpa using List.find?_some hd
  rwa [hnum.eq_of_adm (List.mem_of_find?_eq_some hd) hc hadm] at hd

/-- The commands over a group may all end. -/
theorem mayEnd_overGroup {s : State} {b : Nat} (g : Nat) (hb : b < s.bays.length) (hnum : s.slotTable.Numbered)
    (hno : NoDelete s b) : MayEnd (forgotten s b g) b (postOrder (overGroup s b g)) := by
  have hperm : (postOrder (overGroup s b g)).Perm (overGroup s b g) := sortBy_perm ..
  have hmem : ∀ x ∈ postOrder (overGroup s b g), x ∈ s.cmds ∧ x.bay? = some b ∧ x.finished? = false := fun x hx => by
    obtain ⟨hin, hover⟩ := List.mem_filter.1 (hperm.mem_iff.1 hx)
    simp only [Slot.ofBay, Bool.and_eq_true, beq_iff_eq, Bool.not_eq_true'] at hover
    obtain ⟨⟨hbay, hopen⟩, -⟩ := hover
    exact ⟨hin, hbay, hopen⟩
  refine ⟨fun q => ?_, ?_, fun x hx => ?_, fun x hx => (hmem x hx).2.1, fun x hx => (hmem x hx).2.2⟩
  · rw [bay_forgotten s b g hb]
    exact hno q
  · refine (hperm.pairwise_iff fun h => h.symm).2 ?_
    exact (hnum.rising.filter _).imp fun hlt => Nat.ne_of_lt hlt
  · refine ⟨x.errSample, ?_⟩
    rw [slot?_forgotten]
    exact slot?_of_mem hnum (hmem x hx).1

/-- A group abort forgets the group's collectives, keeps the groups, and ends every unfinished command over the group with
the work it did (R263). -/
theorem abortGroup_ends {s : State} {b : Nat} (g : Nat) (hb : b < s.bays.length) (hnum : s.slotTable.Numbered)
    (hno : NoDelete s b) :
    ((s.abortGroup b g).bay b).colls = (s.bay b).colls.filter (fun x => x.group != g) ∧
      ((s.abortGroup b g).bay b).groups = (s.bay b).groups ∧
      ∀ c ∈ s.cmds, c.ofBay b → c.finished? = false → groupUse (s.bay b).mapGroup c.instr = some g →
        Ended (s.abortGroup b g) c .aborted c.work := by
  let u := endAll .aborted (·.work) (postOrder (overGroup s b g)) (forgotten s b g)
  have hcount : EndsKept u (s.abortGroup b g) := by
    rw [abortGroup_eq]
    refine List.foldlRecOn _ _ (motive := EndsKept u) (.refl u) fun v hv c _ => ?_
    split
    · exact hv.trans (.firedEnd ..)
    · exact hv
  have hcore : SameBayCore ((s.bay b).dropExchange g) ((s.abortGroup b g).bay b) :=
    bay_forgotten s b g hb ▸ CoresKept.trans (endAll_cores _ _ _ _) hcount.cores b
  refine ⟨?_, ?_, fun c hc hbay hopen huse => hcount.ends c _ _ ?_⟩
  · rw [hcore]
    rfl
  · rw [hcore]
    rfl
  · have hover : c ∈ overGroup s b g := List.mem_filter.2 ⟨hc, by simp [hbay, hopen, huse]⟩
    exact (mayEnd_overGroup g hb hnum hno).ended ((sortBy_perm ..).mem_iff.2 hover) .aborted (·.work)

/-- What a peer's abort does once it has left its receive buffer. -/
theorem exec_groupAbort (s : State) (b g : Nat) : ∃ ports,
    exec (.groupAbort b g) s = .next (State.abortGroup { s with ports := ports } b g) :=
  ⟨_, congrArg (fun u => Host.Outcome.next (State.abortGroup u b g)) (takeMsg_frame s 7 b g _)⟩

/-! ### The statement -/

/-- Settles O28: a join ends when its last packet is there or its time is over, and an abort ends what uses the group. -/
theorem groupCommandsComplete : Obligations.GroupCommandsComplete := by
  unfold Obligations.GroupCommandsComplete
  intro s b g hparts hb
  have hlen : b < s.bays.length := by rw [hparts.1]; exact hb
  refine ⟨fun c h k hbay hr hcheck hearly => ?_, fun c h hbay hr hformed hidle => ?_, fun j hjb hjg hdigest hnone => ?_,
    fun j x c hjb hjg hg hopen hnew hfull hagree hs hp => ?_, fun x c hg hopen hlate hagree hs hp => ?_,
    fun hnum hno => ?_⟩
  · obtain ⟨hs, -⟩ := id hr
    have hfree := group?_of_groupCreateCheck hcheck
    have hexec := hr.exec_collGroupCreate hbay hcheck hearly
    refine ⟨fun hone => ?_, fun hmore => ⟨_, hexec, invited_waits hlen hs hfree hmore⟩⟩
    obtain ⟨hmem, hformed, hended⟩ := invited_forms hlen hs hfree hone
    exact ⟨_, hexec, hmem, hended, hformed⟩
  · obtain ⟨hs, hp, -⟩ := id hr
    refine ⟨_, hr.exec_collGroupDestroy hbay hformed hidle, State.finish_memory (s.setBay b _) .., ?_, ?_⟩
    · exact ended_finishNat (s := s.setBay b _) hs (by simp [Slot.finished?, hp]) .ok 0
    · unfold Bay.group?
      rw [groups_finishNat, State.bay_setBay_self _ _ _ hlen]
      exact group?_filter ..
  · subst hjb hjg
    obtain ⟨ports, hexec⟩ := exec_groupControl s j
    rw [takeJoin_holds (s := { s with ports := ports }) hnone hdigest] at hexec
    exact ⟨_, hexec, .refl s, congrArg Bay.earlyJoins (State.bay_setBay_self { s with ports := ports } _ _ hlen)⟩
  · subst hjb hjg
    obtain ⟨ports, hexec⟩ := exec_groupControl s j
    rw [takeJoin_counts (s := { s with ports := ports }) hg hopen hnew] at hexec
    have hgroup := group?_setGroup (s := { s with ports := ports }) (f := fun y => { y with joins := y.joins ++ [j] })
      hlen hg fun _ => rfl
    obtain ⟨hsame, hformed, hended⟩ := settleJoin_forms (by exact (State.setBay_length ..).symm ▸ hlen) hgroup hagree hs
      (by simp [Slot.finished?, hp]) hopen (by simpa using hfull)
    exact ⟨_, hexec, hsame, hformed, hended⟩
  · have hexec : exec (.collJoinTimeout b g) s = .next (s.endJoin b x false) := by
      refine congrArg Host.Outcome.next ?_
      rw [hg]
      simp [hopen, hlate]
    obtain ⟨hsame, hgone, hended⟩ := endJoin_times_out hlen hg hagree hs (by simp [Slot.finished?, hp])
    exact ⟨_, hexec, hsame, hgone, hended⟩
  · obtain ⟨ports, hexec⟩ := exec_groupAbort s b g
    obtain ⟨hnumbered, -⟩ := (commandsNumbered_iff s).1 hnum
    obtain ⟨hcolls, hgroups, hended⟩ := abortGroup_ends (s := { s with ports := ports }) g hlen hnumbered hno
    exact ⟨_, hexec, hcolls, by rw [hgroups]; rfl, hended⟩

end Sys2Proof
end

section
/-!
What the far exchange's operations on a join change: the join itself, and what leaves on ports (R281 to R284).
-/
namespace Sys2Proof
open Machine

/-! ### A join that sends -/

/-- What sending changes of a join: datagrams held for want of a port, the next control sequence number, and control
datagrams that wait for their acknowledgement, of which none goes (R281, R284). -/
def Sends (j k : Join) : Prop := ∃ q n xs, k = { j with portq := q, ctlSeq := n, ctlOut := j.ctlOut ++ xs }

namespace Sends
variable {i j k : Join}

theorem refl (j : Join) : Sends j j := ⟨j.portq, j.ctlSeq, [], by rw [List.append_nil]⟩

theorem trans (h : Sends i j) (g : Sends j k) : Sends i k := by
  obtain ⟨_, _, xs, rfl⟩ := h
  obtain ⟨q, n, ys, rfl⟩ := g
  exact ⟨q, n, xs ++ ys, by rw [List.append_assoc]⟩

theorem ctlOut_subset (h : Sends j k) : j.ctlOut ⊆ k.ctlOut := by
  obtain ⟨_, _, xs, rfl⟩ := h
  exact List.subset_append_left ..

theorem queued (j : Join) (q : List (Nat × Nat × List Byte)) : Sends j { j with portq := q } :=
  ⟨q, j.ctlSeq, [], by rw [List.append_nil]⟩

theorem numbered (j : Join) (n : W32) : Sends j { j with ctlSeq := n } := ⟨j.portq, n, [], by rw [List.append_nil]⟩

end Sends

/-! ### The state beside the join -/

/-- A bay that has a join is one of the device's. -/
theorem lt_of_joined {s : State} {b : Nat} {j : Join} (hj : (s.bay b).join = some j) : b < s.bays.length := by
  by_contra hb
  rw [show s.bay b = default by simp [State.bay, nth, Nat.le_of_not_lt hb]] at hj
  cases hj

/-- From `s` to `t` only the bay's join differs, which is `k`, and what ports, outputs, logs of links and counters hold. -/
structure Exchanged (s t : State) (b : Nat) (k : Join) : Prop where
  rest : t = { s with
    outs := t.outs, dev := t.dev, ports := t.ports, devTele := t.devTele, errLog := t.errLog, far := t.far, bays := t.bays }
  bay : t.bay b = { s.bay b with join := some k, tele := (t.bay b).tele }

/-- The same, with a join that has sent. -/
def SentFrom (s t : State) (b : Nat) (k : Join) : Prop := ∃ k', Sends k k' ∧ Exchanged s t b k'

section
variable {s t u : State} {b : Nat} {j k : Join}

theorem Exchanged.sentFrom (h : Exchanged s t b k) : SentFrom s t b k := ⟨k, .refl k, h⟩

theorem SentFrom.of_sends {k' : Join} (hs : Sends k k') (h : SentFrom s t b k') : SentFrom s t b k := by
  obtain ⟨k'', hs', h'⟩ := h
  exact ⟨k'', hs.trans hs', h'⟩

namespace Exchanged

theorem refl (hj : (s.bay b).join = some j) : Exchanged s s b j := ⟨rfl, by rw [← hj]⟩

section
variable (h : Exchanged s t b k)
include h

theorem join : (t.bay b).join = some k := by rw [h.bay]

theorem counted : b < t.bays.length := lt_of_joined h.join

theorem mem : SameMemory s t := by
  rw [h.rest]
  exact .refl s

theorem slot? (adm : Nat) : t.slot? adm = s.slot? adm := by
  rw [h.rest]
  rfl

theorem now : t.now = s.now := by
  rw [h.rest]
  rfl

/-- What does not look at the join or at counters reads the same of the bay. -/
theorem kept {α : Type} (φ : Bay → α)
    (hφ : ∀ y i tele, φ { y with join := i, tele := tele } = φ y := by exact fun _ _ _ => rfl) :
    φ (t.bay b) = φ (s.bay b) := by
  rw [h.bay]
  exact hφ ..

theorem setJoin (f : Join → Join) : Exchanged s (t.setJoin b f) b (f k) := by
  have hbay : (t.setJoin b f).bay b = { t.bay b with join := (t.bay b).join.map f } := State.bay_setBay_self _ _ _ h.counted
  refine ⟨by unfold State.setJoin State.setBay; rw [h.rest], ?_⟩
  rw [hbay, h.join, h.bay]
  rfl

theorem countBay (i n : Nat) : Exchanged s (t.countBay b i n) b k := by
  have hbay : (t.countBay b i n).bay b = _ := State.bay_setBay_self t b _ h.counted
  refine ⟨by unfold State.countBay State.setBay; rw [h.rest], ?_⟩
  rw [hbay, h.bay]

theorem useFree (n : Nat) : Exchanged (s.useFree n) (t.useFree n) b k :=
  ⟨by unfold State.useFree; rw [h.rest], h.bay⟩

theorem link (hl : LinkOnly t u) : Exchanged s u b k :=
  ⟨by rw [hl.rest, h.rest], by rw [hl.bay]; exact h.bay⟩

theorem emitFrame (i : Join) (port site : Nat) (d : List Byte) : Exchanged s (t.emitFrame i port site d) b k :=
  ⟨by unfold State.emitFrame State.emit; rw [h.rest], h.bay⟩

/-! ### Sending (R281, R284) -/

theorem flushHeld : SentFrom s (t.flushHeld b) b k := by
  unfold State.flushHeld State.onJoined
  rw [h.join]
  dsimp only
  split
  · split
    · exact h.sentFrom
    · refine ⟨_, .queued k [], .setJoin ?_ _⟩
      exact List.foldlRecOn _ _ (motive := fun u => Exchanged s u b k) h fun _ hu _ _ => hu.emitFrame ..
  · exact h.sentFrom

theorem sendDgram (turn site : Nat) (d : List Byte) : SentFrom s (t.sendDgram b turn site d) b k := by
  unfold State.sendDgram
  rw [h.join]
  dsimp only
  split
  · exact ⟨_, .queued .., h.setJoin _⟩
  · obtain ⟨k', hs, h'⟩ := h.flushHeld
    exact ⟨k', hs, h'.emitFrame ..⟩

theorem sendCtl (site kind : Nat) (seq epoch : W32) (sent echo : Nat) (p : List Byte) :
    SentFrom s (t.sendCtl b site kind seq epoch sent echo p) b k := by
  unfold State.sendCtl
  rw [h.join]
  dsimp only
  split
  · exact h.sentFrom
  · exact h.sendDgram ..

/-- A control datagram is sent, and waits to be acknowledged. -/
theorem startCtl_waits (site kind : Nat) (epoch : W32) (until_ : Nat) (p : List Byte) :
    ∃ k', Sends k k' ∧ Exchanged s (t.startCtl b site kind epoch until_ p) b k' ∧
      ∃ x ∈ k'.ctlOut, x.site = site ∧ x.kind = kind ∧ x.payload = p := by
  unfold State.startCtl
  rw [h.join]
  obtain ⟨k', hs, h'⟩ := (h.setJoin fun j => { j with
    ctlSeq := j.ctlSeq + 1
    ctlOut := j.ctlOut ++ [⟨site, kind, j.ctlSeq, epoch, p, t.now, t.clock.uptime, until_⟩] }).sendCtl
      site kind k.ctlSeq epoch t.now 0 p
  exact ⟨k', .trans ⟨k.portq, _, _, rfl⟩ hs, h', _,
    hs.ctlOut_subset (List.mem_append_right _ (List.mem_singleton_self _)), rfl, rfl, rfl⟩

theorem startCtl (site kind : Nat) (epoch : W32) (until_ : Nat) (p : List Byte) :
    SentFrom s (t.startCtl b site kind epoch until_ p) b k := by
  obtain ⟨k', hs, h', -⟩ := h.startCtl_waits site kind epoch until_ p
  exact ⟨k', hs, h'⟩

theorem ackCtl (d : Dgram) : SentFrom s (t.ackCtl b d) b k := by
  unfold State.ackCtl
  rw [h.join]
  exact .of_sends (.numbered k _) ((h.setJoin _).sendCtl ..)

end

/-- A sequence of sends. -/
theorem foldl {α : Type} {f : State → α → State} (h : Exchanged s t b k)
    (hf : ∀ u i a, Exchanged s u b i → SentFrom s (f u a) b i) (l : List α) : SentFrom s (l.foldl f t) b k := by
  refine List.foldlRecOn l f (motive := fun u => SentFrom s u b k) h.sentFrom fun u hu a _ => ?_
  obtain ⟨i, hs, hi⟩ := hu
  exact .of_sends hs (hf u i a hi)

/-- Each of several payloads that go out waits to be acknowledged. -/
theorem foldl_startCtl_waits (h : Exchanged s t b k) (site kind : Nat) (epoch : W32) (until_ : State → Nat)
    (ps : List (List Byte)) :
    ∃ k', Sends k k' ∧ Exchanged s (ps.foldl (fun u p => u.startCtl b site kind epoch (until_ u) p) t) b k' ∧
      ∀ p ∈ ps, ∃ x ∈ k'.ctlOut, x.site = site ∧ x.kind = kind ∧ x.payload = p := by
  induction ps generalizing t k with
  | nil => exact ⟨k, .refl k, h, by simp⟩
  | cons p ps ih =>
    obtain ⟨i, hi, h', x, hx, hxp⟩ := h.startCtl_waits site kind epoch (until_ t) p
    obtain ⟨k', hs, h'', hps⟩ := ih h'
    refine ⟨k', hi.trans hs, h'', fun q hq => ?_⟩
    rcases List.mem_cons.1 hq with rfl | hq
    · exact ⟨x, hs.ctlOut_subset hx, hxp⟩
    · exact hps q hq

end Exchanged

/-! ### The join's own operations -/

/-- Acting on a bay that has joined acts on its join. -/
theorem onJoined_joined (hj : (s.bay b).join = some j) (hopen : j.joining = none) (f : Join → State) :
    s.onJoined b f = f j := by
  unfold State.onJoined
  rw [hj]
  simp [hopen]

/-- Nothing is settled of a leave where none runs. -/
theorem settleLeave_staying (hj : (s.bay b).join = some j) (hstay : j.leave = none) : s.settleLeave b = s := by
  unfold State.settleLeave State.onJoined
  rw [hj]
  simp [hstay]

theorem tidyJoin_staying (hj : (s.bay b).join = some j) (hstay : j.leave = none) :
    s.tidyJoin b = s.setJoin b Join.tidy :=
  settleLeave_staying (((Exchanged.refl hj).setJoin Join.tidy).join) hstay

theorem Exchanged.stageStalls (h : Exchanged s t b k) : ∃ n, Exchanged (s.useFree n) (t.stageStalls b) b k :=
  List.foldlRecOn (motive := fun u => ∃ n, Exchanged (s.useFree n) u b k) _ _ ⟨0, h⟩ fun _ ⟨n, hu⟩ _ _ =>
    ⟨n + 1, (hu.countBay ..).useFree 1⟩

/-! ### Datagrams sent on behalf of the ledger (R276, R286, R287, R290, R291) -/

theorem LinkOnly.sendMgmt (h : LinkOnly s t) (b member : Nat) (m : MgmtMsg) : LinkOnly s (t.sendMgmt b member m) := by
  unfold State.sendMgmt
  dsimp only
  split
  · exact h.emit.sendMsg
  · exact h.emit

theorem LinkOnly.relaySite (h : LinkOnly s t) (b : Nat) (j : Join) (m : MgmtMsg) : LinkOnly s (t.relaySite b j m) :=
  (h.foldl fun _ _ hu => hu.sendMgmt ..).ite h

theorem Exchanged.sendDigest (h : Exchanged s t b k) (j : Join) (l : Ledger) (phase : Nat) (d : List Byte) :
    SentFrom s (t.sendDigest b j l phase d) b k :=
  h.foldl (fun _ _ _ hu => hu.startCtl ..) _

/-- Preparing a result sets what is prepared, draws free values and sends digests (R290, R291). -/
theorem Exchanged.prepareNow (h : Exchanged s t b k) :
    ∃ n ps, SentFrom (s.useFree n) (t.prepareNow b) b { k with prepared := ps } := by
  have hsame : ∃ n ps, SentFrom (s.useFree n) t b { k with prepared := ps } := ⟨0, k.prepared, h.sentFrom⟩
  unfold State.prepareNow State.prepareFrom State.onJoined
  rw [h.join]
  dsimp only
  split
  · split
    · split
      · exact hsame
      · split
        · exact ⟨_, _, ((h.setJoin _).useFree _).sendDigest ..⟩
        · exact ⟨0, _, Exchanged.sendDigest (s := s.useFree 0) (h.setJoin _) ..⟩
    · exact hsame
  · exact hsame

/-- The speaker's vector goes out when it is due (R286). -/
theorem Exchanged.sendVector (h : Exchanged s t b k) (e : Nat) :
    ∃ vs, SentFrom s (t.sendVector b e) b { k with vectors := vs } := by
  have hsame : ∃ vs, SentFrom s t b { k with vectors := vs } := ⟨k.vectors, h.sentFrom⟩
  unfold State.sendVector State.onJoined
  rw [h.join]
  dsimp only
  split
  · split
    · exact hsame
    · exact ⟨_, (h.setJoin _).foldl (fun _ _ _ hu => hu.startCtl ..) _⟩
  · exact hsame

end

end Sys2Proof
end

section
/-!
Datagrams that a join takes, and what its site answers requests from: the same while the join only hears and sends (R281,
R293, R294, R308).
-/
namespace Sys2Proof
open Machine

/-! ### Receipt (R281, R283, R308, R314) -/

/-- The join after a datagram from a peer: heard from just now, and sends to it resume (R283). -/
def heardJoin (j : Join) (site now : Nat) : Join := { j with
  lastHeard := assocSet j.lastHeard site now
  unreach := j.unreach.filter (· != site)
  bundles := j.bundles.map (fun (x : Bundle) => { x with dests := x.dests.map (fun d =>
    if d.1 == site && d.2 == DestState.unreachable then
      (site, if (assoc x.sentAt site).isSome then DestState.granted else DestState.waiting)
    else d) }) }

/-- The state after a datagram that the join takes has been counted at its port and heard. -/
def arrived (s : State) (b port site : Nat) : State :=
  ({ s with far := updNth s.far port (fun (x : FarPort) => { x with rxFrames := x.rxFrames + 1 }) } : State).heard b site

section
variable {s t : State} {b : Nat} {j k : Join}

theorem Exchanged.arrived (hj : (s.bay b).join = some j) (port site : Nat) :
    Exchanged s (arrived s b port site) b (heardJoin j site s.clock.uptime) :=
  Exchanged.setJoin (t := { s with far := updNth s.far port _ }) ⟨rfl, (Exchanged.refl hj).bay⟩ _

/-- The key of a join is that of its key slot (R314). -/
theorem Exchanged.joinKey (h : Exchanged s t b k) (j : Join) : (t.bay b).joinKey j = (s.bay b).joinKey j :=
  h.kept (Bay.joinKey · j)

section
variable {port kind : Nat} {d : Dgram} (hj : (s.bay b).join = some j)
include hj

/-- A datagram that the join takes acts. -/
theorem takeDgram_taken (htakes : j.takes d = true) (hopen : kind = 8 ∨ OpenTo j d.srcSite) (f : State → Join → State) :
    s.takeDgram b port kind d f = f (arrived s b port d.srcSite) j := by
  have hcond : (j.takes d && (kind == 8 || (kind == 7 && j.joining.isSome) ||
      (j.joining.isNone && !j.banned.contains d.srcSite))) = true := by
    rcases hopen with rfl | ⟨hjoined, hbanned⟩
    · simp [htakes]
    · rw [htakes, hjoined, hbanned]
      simp
  have hjoin : ∀ far, (State.bay { s with far := far } b).join = some j := fun _ => hj
  unfold State.takeDgram
  simp only [hjoin]
  exact if_pos hcond

/-- A control datagram with a good tag acts, acknowledged unless it is an acknowledgement itself. -/
theorem takeCtl_good {p : List Byte} (hgood : GoodCtl s b kind d j p)
    (hopen : kind = 8 ∨ OpenTo j d.srcSite) (f : State → Join → List Byte → State) :
    s.takeCtl b port kind d f =
      f (if kind = 7 then arrived s b port d.srcSite else (arrived s b port d.srcSite).ackCtl b d) j p := by
  obtain ⟨-, htakes, key, hkey, hplain⟩ := hgood
  unfold State.takeCtl
  rw [takeDgram_taken hj htakes hopen]
  rw [(Exchanged.arrived hj ..).joinKey, hkey]
  simp only [hplain]

end

/-! ### What a request is answered from (R293, R294) -/

/-- The joins read the same of the bay's memory. -/
theorem Exchanged.writesAlike (h : Exchanged s t b k) (hj : (s.bay b).join = some j) (hjoining : k.joining = j.joining)
    (hblk : k.blk = j.blk) : WritesAlike s t b := by
  refine ⟨h.mem, fun acc a n => ?_, by rw [h.rest]⟩
  have hlanding : (t.bay b).inLanding acc a n = (s.bay b).inLanding acc a n := by
    unfold Bay.inLanding
    rw [h.join, hj]
    dsimp only
    rw [hjoining, hblk]
  have hpage : (t.bay b).pageAt a = (s.bay b).pageAt a := h.kept (Bay.pageAt · a)
  have hcluster : t.clusterOk b (a / 2 ^ 25) = s.clusterOk b (a / 2 ^ 25) := by
    unfold State.clusterOk
    rw [h.kept Bay.bind, h.rest]
    rfl
  have hhost : t.hostOk (rid b) (a - 2 ^ 47) n = s.hostOk (rid b) (a - 2 ^ 47) n := by
    rw [h.rest]
    rfl
  unfold State.translate
  rw [hlanding, hpage, hcluster, hhost, h.rest]
  rfl

section
variable {site now : Nat} (h : Exchanged s t b k) (hk : Sends (heardJoin j site now) k)
include h hk

theorem deltaSealed_heard (owner e n : Nat) : (t.bay b).deltaSealed k owner e n = (s.bay b).deltaSealed j owner e n := by
  have hkey := h.joinKey k
  obtain ⟨_, _, _, rfl⟩ := hk
  unfold Bay.deltaSealed
  rw [hkey]
  simp only [heardJoin, List.findSome?_map]
  rfl

variable (hj : (s.bay b).join = some j)
include hj

theorem readBay_heard (a n : Nat) : t.readBay b a n = s.readBay b a n := by
  obtain ⟨_, _, _, rfl⟩ := hk
  exact (h.writesAlike hj rfl rfl).readBay a n

theorem mergeBlock_heard (ftz : Bool) (m : ShardMap) (l : Ledger) (n ti i : Nat) :
    t.mergeBlock b ftz k m l n ti i = s.mergeBlock b ftz j m l n ti i := by
  have hread := readBay_heard h hk hj
  have hfree : t.free = s.free := by rw [h.rest]
  obtain ⟨_, _, _, rfl⟩ := hk
  unfold State.mergeBlock State.readOps
  simp only [hread, hfree]
  rfl

theorem mergeAll_heard (m : ShardMap) (l : Ledger) : t.mergeAll b k m l = s.mergeAll b j m l := by
  unfold State.mergeAll
  rw [h.kept Bay.bind]
  simp only [mergeBlock_heard h hk hj]

theorem baseBlocks_heard (e : Nat) : t.baseBlocks b k e = s.baseBlocks b j e := by
  have hread := readBay_heard h hk hj
  have hmerge := mergeAll_heard h hk hj
  obtain ⟨_, _, _, rfl⟩ := hk
  unfold State.baseBlocks
  rw [h.kept Bay.train]
  simp only [hread, hmerge]
  rfl

/-- Hearing a peer and sending change nothing of what this site answers. -/
theorem answerTo_heard (q : List Byte) : t.answerTo b k q = s.answerTo b j q := by
  have hbase := baseBlocks_heard h hk hj
  have hsealed := deltaSealed_heard h hk
  obtain ⟨_, _, _, rfl⟩ := hk
  unfold State.answerTo
  simp only [hbase, hsealed]
  rfl

end

end

end Sys2Proof
end

section
/-!
What each datagram of the far exchange leaves in the join that takes it (R276, R281 to R283, R286, R287, R291, R294).
-/
namespace Sys2Proof
open Machine

variable {s t : State} {b port : Nat} {d : Dgram} {j k : Join}

/-- How a command ended is read off its slot. -/
theorem Ended.of_slot?_eq {c : Slot} {st : Status} {r : Nat} (h : Ended s c st r) (hs : t.slot? c.adm = s.slot? c.adm) :
    Ended t c st r := by
  unfold Ended outcome
  rw [hs]
  exact h

/-! ### Fragments (R281, R282) -/

/-- The receive area holds the first fragment of a bundle. -/
def fragPlaced (d : Dgram) (j : Join) : Join := { j with
  rx := j.rx ++ [⟨d.srcSite, d.seq, d.fragCount, [(d.frag, d.payload)], none⟩] }

/-- A SACK is due for the first fragment since the last one. -/
def ackNoted (d : Dgram) (now : Nat) (j : Join) : Join := { j with
  ackDue := assocSet j.ackDue d.srcSite (1, now, d.sent) }

theorem placeFrag_new {key : List Byte} (hmany : 2 ≤ d.fragCount)
    (hnew : j.rx.any (fun x => x.site == d.srcSite && x.seq == d.seq) = false) :
    s.placeFrag b j key d = s.setJoin b (fragPlaced d) := by
  have hnone : j.rx.find? (fun x => x.site == d.srcSite && x.seq == d.seq) = none := by
    rw [List.find?_eq_none]
    exact List.any_eq_false.1 hnew
  have hopen : (d.fragCount == 1) = false := by
    rw [beq_eq_false_iff_ne]
    omega
  unfold State.placeFrag
  rw [hnone]
  dsimp only
  rw [hopen]
  exact if_neg Bool.false_ne_true

theorem exec_fragment_new (hj : (s.bay b).join = some j) (hopen : OpenTo j d.srcSite)
    (htakes : j.takes d = true) (hkey : (s.bay b).joinKey j ≠ none) (hfrag : dgramFragOk d = true)
    (hmany : 2 ≤ d.fragCount) (hcomplete : j.complete.contains (d.srcSite, d.seq) = false)
    (hnew : j.rx.any (fun x => x.site == d.srcSite && x.seq == d.seq) = false) (hack : assoc j.ackDue d.srcSite = none)
    (hroom : j.recvBytes + d.fragCount * 8192 ≤ j.recvGib * gib) :
    exec (.fragment b port d) s = .next
      (((arrived s b port d.srcSite).setJoin b (fragPlaced d)).setJoin b (ackNoted d s.clock.uptime)) := by
  obtain ⟨key, hkey⟩ := Option.ne_none_iff_exists'.1 hkey
  have hfits : decide (j.recvGib * gib < j.recvBytes + d.fragCount * 8192) = false := by simpa using hroom
  refine congrArg Host.Outcome.next ?_
  rw [takeDgram_taken hj htakes (.inr hopen), (Exchanged.arrived hj ..).joinKey, hkey]
  simp only [hfrag, hcomplete, hfits, hack, placeFrag_new hmany hnew, Bool.and_false, Bool.not_true, Bool.false_eq_true,
    if_false]
  exact if_neg (by decide)

theorem fragment_held (hj : (s.bay b).join = some j) :
    Exchanged s (((arrived s b port d.srcSite).setJoin b (fragPlaced d)).setJoin b (ackNoted d s.clock.uptime)) b
      (ackNoted d s.clock.uptime (fragPlaced d (heardJoin j d.srcSite s.clock.uptime))) :=
  ((Exchanged.arrived hj ..).setJoin _).setJoin _

/-! ### SACKs (R282, R283) -/

/-- A bundle after a SACK of a site: acknowledged there, or with the fragments that the site has reported. -/
def sackedBundle (d : Dgram) (x : Bundle) : Bundle :=
  if assoc x.dests d.srcSite == some DestState.granted && sackDone (sackOf d.payload) x.seq then x.setDest d.srcSite .acked
  else match (sackOf d.payload).2.2.find? (fun p => p.1 == x.seq.toNat) with
    | some p => { x with got := x.got.filter (fun g => g.1 != d.srcSite) ++
        ((List.range 128).filter (fun f => p.2.testBit f)).map (fun f => (d.srcSite, f)) }
    | none => x

/-- The join after a SACK: the round trip measured, what is reported noted. -/
def sackedJoin (d : Dgram) (now : Nat) (j : Join) : Join := { j with
  srtt := assocSet j.srtt d.srcSite (match assoc j.srtt d.srcSite with
    | some r => (7 * r + (now - d.echo)) / 8
    | none => now - d.echo)
  bundles := j.bundles.map (sackedBundle d) }

/-- A destination's state is set where the bundle has that destination. -/
theorem assoc_setDest (x : Bundle) (site : Nat) (st : DestState) :
    assoc (x.setDest site st).dests site = (assoc x.dests site).map fun _ => st := by
  unfold Bundle.setDest assoc
  dsimp only
  induction x.dests with
  | nil => rfl
  | cons y ys ih =>
    by_cases hy : y.1 = site
    · simp [hy]
    · simpa [hy] using ih

/-- What is still granted to a site after its SACK, the SACK has not reported complete. -/
theorem sackedBundle_open (d : Dgram) (x : Bundle)
    (h : assoc (sackedBundle d x).dests d.srcSite = some .granted) :
    sackDone (sackOf d.payload) (sackedBundle d x).seq = false := by
  unfold sackedBundle at h ⊢
  split
  · rename_i hdone
    rw [if_pos hdone, assoc_setDest] at h
    cases hx : assoc x.dests d.srcSite <;> simp [hx] at h
  · rename_i hopen
    rw [if_neg hopen] at h
    have hkept : ∀ g : List (Nat × Nat), assoc x.dests d.srcSite = some .granted →
        sackDone (sackOf d.payload) ({ x with got := g } : Bundle).seq = false := fun _ hx => by
      simpa [hx] using hopen
    split
    · rename_i hp
      rw [hp] at h
      exact hkept _ h
    · rename_i hp
      rw [hp] at h
      exact hkept x.got h

theorem sack_leaves (hj : (s.bay b).join = some j) (hopen : OpenTo j d.srcSite)
    (htakes : j.takes d = true) (hstay : j.leave = none) :
    ∃ t n, exec (.sack b port d) s = .next t ∧
      Exchanged (s.useFree n) t b (sackedJoin d s.now (heardJoin j d.srcSite s.clock.uptime)).tidy := by
  obtain ⟨n, h⟩ := (Exchanged.arrived hj port d.srcSite).stageStalls
  have hsacked := h.setJoin (sackedJoin d s.now)
  refine ⟨_, n, congrArg Host.Outcome.next ?_, hsacked.setJoin Join.tidy⟩
  rw [takeDgram_taken hj htakes (.inr hopen)]
  exact tidyJoin_staying hsacked.join hstay

end Sys2Proof
end

section
/-!
What each control datagram of the far exchange leaves in the join that takes it (R276, R281, R286, R287, R291, R294).
-/
namespace Sys2Proof
open Machine

variable {s t : State} {b port : Nat} {d : Dgram} {j k : Join} {p : List Byte}

/-! ### Control datagrams (R281) -/

/-- The state in which a good control datagram acts that is no acknowledgement. -/
def acked (s : State) (b port : Nat) (d : Dgram) : State := (arrived s b port d.srcSite).ackCtl b d

theorem acked_sent (hj : (s.bay b).join = some j) (port : Nat) (d : Dgram) :
    SentFrom s (acked s b port d) b (heardJoin j d.srcSite s.clock.uptime) :=
  (Exchanged.arrived hj ..).ackCtl d

/-- A good control datagram other than an acknowledgement acts on the state in which it is acknowledged. -/
theorem takeCtl_acked {kind : Nat} (hgood : GoodCtl s b kind d j p) (hkind : kind ≠ 7)
    (hopen : kind = 8 ∨ OpenTo j d.srcSite) (f : State → Join → List Byte → State) :
    s.takeCtl b port kind d f = f (acked s b port d) j p := by
  rw [takeCtl_good hgood.1 hgood hopen, if_neg hkind]
  rfl

/-- An acknowledged control datagram is resent no more. -/
theorem controlAcknowledgement_leaves (hopen : OpenTo j d.srcSite) (hgood : GoodCtl s b 7 d j p) :
    LeavesJoin s (.controlAcknowledgement b port d) b (fun t k => SameMemory s t ∧
      k.ctlOut = j.ctlOut.filter (fun x => !(x.site == d.srcSite && x.seq.toNat == beAt p 0 4))) := by
  have h := (Exchanged.arrived hgood.1 port d.srcSite).setJoin fun j => { j with
    ctlOut := j.ctlOut.filter (fun x => !(x.site == d.srcSite && x.seq.toNat == beAt p 0 4)) }
  exact ⟨_, _, congrArg Host.Outcome.next (takeCtl_good hgood.1 hgood (.inr hopen) _), h.join, h.mem, rfl⟩

/-! ### Hello (R276) -/

theorem join_finishNat (s : State) (adm : Nat) (st : Status) (r b : Nat) :
    ((s.finishNat adm st r).bay b).join = (s.bay b).join := by
  have hcore := State.finish_cores s adm st r b
  rw [hcore]

theorem meetPeer_kept (j : Join) (site : Nat) (pre : W64) :
    (j.meetPeer site pre).joining = j.joining ∧ (j.meetPeer site pre).site = j.site := by
  unfold Join.meetPeer
  split
  · exact ⟨rfl, rfl⟩
  · exact ⟨rfl, rfl⟩

/-- The join completes, and its command ends with the site. -/
theorem completeJoin_ends {c : Slot} {at_ : Nat} (hj : (s.bay b).join = some j) (hjoining : j.joining = some (c.adm, at_))
    (hs : s.slot? c.adm = some c) (hp : c.phase = .active) :
    Ended (s.completeJoin b) c .ok j.site ∧ ∃ k, ((s.completeJoin b).bay b).join = some k ∧ k.joining = none := by
  unfold State.completeJoin
  rw [hj]
  dsimp only
  rw [hjoining]
  refine ⟨ended_of_active (s := s.setJoin b _) .ok j.site hs hp, ?_⟩
  dsimp only
  rw [join_finishNat, ((Exchanged.refl hj).setJoin _).join]
  exact ⟨_, rfl, rfl⟩

theorem hello_leaves {c : Slot} {at_ : Nat} (hgood : GoodCtl s b 8 d j p) (hjoining : j.joining = some (c.adm, at_))
    (hs : s.slot? c.adm = some c) (hp : c.phase = .active) (hsame : p.take 40 = (s.helloBytes false).take 40) :
    LeavesJoin s (.hello b port d) b (fun t k => Ended t c .ok j.site ∧ k.joining = none) := by
  obtain ⟨k, hk, h⟩ := acked_sent hgood.1 port d
  have hmet := h.setJoin fun j => j.meetPeer d.srcSite d.pre
  obtain ⟨hkeptJoining, hkeptSite⟩ := meetPeer_kept k d.srcSite d.pre
  have hsite : (k.meetPeer d.srcSite d.pre).site = j.site := by
    obtain ⟨_, _, _, rfl⟩ := hk
    exact hkeptSite
  have hwaits : (k.meetPeer d.srcSite d.pre).joining = some (c.adm, at_) := by
    obtain ⟨_, _, _, rfl⟩ := hk
    exact hkeptJoining.trans hjoining
  obtain ⟨hended, k', hjoin, hdone⟩ := completeJoin_ends hmet.join hwaits ((hmet.slot? _).trans hs) hp
  rw [hsite] at hended
  have hversions : (p.take 40 == ((acked s b port d).helloBytes false).take 40) = true := by
    rw [hsame, h.rest]
    exact beq_self_eq_true _
  have hexec : exec (.hello b port d) s = .next (
      let u := ((acked s b port d).setJoin b (·.meetPeer d.srcSite d.pre)).completeJoin b
      if byteAt p 40 = 0 then u.sendHello b d.srcSite true else u) := by
    refine congrArg Host.Outcome.next ?_
    rw [takeCtl_acked hgood (by decide) (.inl rfl)]
    dsimp only
    rw [hjoining]
    exact if_pos hversions
  dsimp only at hexec
  split at hexec
  · obtain ⟨k'', hs', hsent⟩ := (Exchanged.refl hjoin).startCtl d.srcSite 8 0 _ _
    refine ⟨_, k'', hexec, hsent.join, hended.of_slot?_eq (hsent.slot? _), ?_⟩
    obtain ⟨_, _, _, rfl⟩ := hs'
    exact hdone
  · exact ⟨_, k', hexec, hjoin, hended, hdone⟩

/-! ### Vectors, entries and digests (R285 to R287, R291) -/

theorem Exchanged.finalTime (h : Exchanged s t b k) (hblk : k.blk = j.blk) (hentries : k.entries = j.entries) (e : Nat) :
    t.finalTime k e = s.finalTime j e := by
  have hentry : k.entry? = j.entry? := by
    unfold Join.entry?
    rw [hentries]
  have hnv : t.nv = s.nv := by rw [h.rest]
  unfold State.finalTime State.cutTime State.graceOf State.grace0 Join.pacing Join.sites
  rw [hentry, hentries, hblk, hnv]

/-- An entry that comes in time, the first for its epoch, is held (R285, R287). -/
theorem Exchanged.takeEntry (h : Exchanged s t b k) (hopen : k.joining = none)
    (hnew : k.entry? (ledgerOf p).epoch.toNat = none) (hearly : t.now < t.finalTime k (ledgerOf p).epoch.toNat) :
    ∃ n k', Exchanged (s.useFree n) (t.takeEntry b p) b k' ∧ ledgerOf p ∈ k'.entries := by
  unfold State.takeEntry
  rw [onJoined_joined h.join hopen]
  dsimp only
  rw [if_neg (Nat.not_le.2 hearly), hnew]
  dsimp only
  rw [if_neg Bool.false_ne_true]
  have hheld := h.setJoin fun j => { j with
    entries := j.entries.filter (fun (m : Ledger) => m.epoch != (ledgerOf p).epoch) ++ [ledgerOf p] }
  obtain ⟨n, ps, k', hk, h'⟩ := (hheld.link (.relaySite (.refl _) b k _)).prepareNow
  refine ⟨n, k', h', ?_⟩
  obtain ⟨_, _, _, rfl⟩ := hk
  exact List.mem_append_right _ (List.mem_singleton_self _)

/-- A digest held, the only one of its site, base and phase (R291). -/
def digestHeld (r : DigestRec) (j : Join) : Join := { j with
  digests := j.digests.filter (fun (x : DigestRec) =>
    !(x.site == r.site && x.epoch == r.epoch && x.phase == r.phase)) ++ [r] }

theorem addVector_mem (j : Join) (v : AdmVec) : v ∈ (j.addVector v).vectors :=
  List.mem_append_right _ (List.mem_singleton_self _)

/-! ### Answers to requests (R294) -/

theorem serve_unanswered {q : Nat × List Byte} (hj : (s.bay b).join = some j) (hopen : j.joining = none)
    (hnone : s.answerTo b j q.2 = none) :
    s.serve b q = s.setJoin b (fun j => { j with requests := j.requests ++ [q] }) := by
  unfold State.serve
  rw [onJoined_joined hj hopen, hnone]

/-- With no planned failure a lane in service codes every block. -/
theorem useCodecs_unfailed (hfaults : s.faults.codec = []) (hlanes : s.codecLanes ≠ []) (b : Nat) (adm : Option Nat)
    (lens : List Nat) : State.useCodecs b adm lens s = (s, true) := by
  have hcodes : ∀ len, s.useCodec b len adm = (s, true) := fun len => by
    unfold State.useCodec
    rw [if_neg (by simpa using hlanes), hfaults]
    have hsame : { s with faults := { s.faults with codec := [] } } = s := by rw [← hfaults]
    simp [State.strikeCodec, hsame, hlanes]
  induction lens with
  | nil => rfl
  | cons len lens ih =>
    unfold State.useCodecs
    rw [hcodes]
    exact ih

theorem serve_answered {q : Nat × List Byte} {lens : List Nat} {ps : List (List Byte)} (hj : (s.bay b).join = some j)
    (hopen : j.joining = none) (hsome : s.answerTo b j q.2 = some (lens, ps)) (hfaults : s.faults.codec = [])
    (hlanes : s.codecLanes ≠ []) :
    s.serve b q = ps.foldl (fun u p => u.startCtl b q.1 6 j.nextEpoch (u.now + 2 * j.blk.periodNs) p) s := by
  unfold State.serve
  rw [onJoined_joined hj hopen, hsome]
  dsimp only
  rw [useCodecs_unfailed hfaults hlanes]
  rfl

section
variable (hopen : OpenTo j d.srcSite)
include hopen

theorem admissionVector_leaves (hgood : GoodCtl s b 2 d j p) (hspeaker : j.speaker = true) :
    LeavesJoin s (.admissionVector b port d) b (fun t k => SameMemory s t ∧ vectorOf p s.now ∈ k.vectors) := by
  obtain ⟨k, -, h⟩ := acked_sent hgood.1 port d
  have hkept := (h.setJoin fun i => i.addVector (vectorOf p (acked s b port d).now)).link
    (.relaySite (.refl _) b j (.vector (vectorOf p (acked s b port d).now).epoch p))
  refine ⟨_, _, congrArg Host.Outcome.next ?_, hkept.join, hkept.mem, ?_⟩
  · rw [takeCtl_acked hgood (by decide) (.inr hopen)]
    exact if_pos hspeaker
  · rw [h.now]
    exact addVector_mem ..

theorem ledgerEntry_leaves (hgood : GoodCtl s b 3 d j p) (hspeaker : j.speaker = true)
    (hnew : j.entry? (ledgerOf p).epoch.toNat = none) (hearly : s.now < s.finalTime j (ledgerOf p).epoch.toNat) :
    LeavesJoin s (.ledgerEntry b port d) b (fun t k => SameMemory s t ∧ ledgerOf p ∈ k.entries) := by
  obtain ⟨k, hk, h⟩ := acked_sent hgood.1 port d
  obtain ⟨_, _, _, rfl⟩ := hk
  have hearly' := hearly
  rw [← h.now, ← h.finalTime (j := j) rfl rfl] at hearly'
  obtain ⟨n, k', h', hmem⟩ := h.takeEntry hopen.1 hnew hearly'
  refine ⟨_, k', congrArg Host.Outcome.next ?_, h'.join, h'.mem, hmem⟩
  rw [takeCtl_acked hgood (by decide) (.inr hopen)]
  exact if_pos hspeaker

theorem digest_leaves (hgood : GoodCtl s b 4 d j p) :
    LeavesJoin s (.digest b port d) b (fun t k => SameMemory s t ∧
      ⟨d.srcSite, BitVec.ofNat 32 (beAt p 0 4), byteAt p 4, slice p 8 32⟩ ∈ k.digests) := by
  obtain ⟨k, -, h⟩ := acked_sent hgood.1 port d
  have hkept := h.setJoin (digestHeld ⟨d.srcSite, BitVec.ofNat 32 (beAt p 0 4), byteAt p 4, slice p 8 32⟩)
  exact ⟨_, _, congrArg Host.Outcome.next (takeCtl_acked hgood (by decide) (.inr hopen) _), hkept.join, hkept.mem,
    List.mem_append_right _ (List.mem_singleton_self _)⟩

theorem catchupRequest_kept (hgood : GoodCtl s b 5 d j p) (hnone : s.answerTo b j p = none) :
    LeavesJoin s (.catchupRequest b port d) b (fun t k =>
      SameMemory s t ∧ k.requests = j.requests ++ [(d.srcSite, p)]) := by
  obtain ⟨k, hk, h⟩ := acked_sent hgood.1 port d
  have hnone' := (answerTo_heard h hk hgood.1 p).trans hnone
  obtain ⟨_, _, _, rfl⟩ := hk
  have hkept := h.setJoin fun j => { j with requests := j.requests ++ [(d.srcSite, p)] }
  refine ⟨_, _, congrArg Host.Outcome.next ?_, hkept.join, hkept.mem, rfl⟩
  rw [takeCtl_acked hgood (by decide) (.inr hopen)]
  exact serve_unanswered h.join hopen.1 hnone'

theorem catchupRequest_answered {lens : List Nat} {ps : List (List Byte)} (hgood : GoodCtl s b 5 d j p)
    (hsome : s.answerTo b j p = some (lens, ps)) (hfaults : s.faults.codec = []) (hlanes : s.codecLanes ≠ []) :
    LeavesJoin s (.catchupRequest b port d) b (fun t k => SameMemory s t ∧ k.requests = j.requests ∧
      ∀ q ∈ ps, ∃ x ∈ k.ctlOut, x.site = d.srcSite ∧ x.kind = 6 ∧ x.payload = q) := by
  obtain ⟨k, hk, h⟩ := acked_sent hgood.1 port d
  have hsome' := (answerTo_heard h hk hgood.1 p).trans hsome
  obtain ⟨_, _, _, rfl⟩ := hk
  obtain ⟨k', hs, h', hwait⟩ := h.foldl_startCtl_waits d.srcSite 6 j.nextEpoch (fun u => u.now + 2 * j.blk.periodNs) ps
  have hserved := serve_answered (q := (d.srcSite, p)) h.join hopen.1 hsome' (by rw [h.rest]; exact hfaults)
    (by rw [h.rest]; exact hlanes)
  refine ⟨_, k', congrArg Host.Outcome.next ?_, h'.join, h'.mem, ?_, hwait⟩
  · rw [takeCtl_acked hgood (by decide) (.inr hopen)]
    exact hserved
  · obtain ⟨_, _, _, rfl⟩ := hs
    rfl

end

end Sys2Proof
end

section
/-! Catch-up data (R294), what a speaker relays within its site (R276, R286), and frames that no bay takes (R383, R384). -/
namespace Sys2Proof
open Machine

variable {s t : State} {b port : Nat} {d : Dgram} {j k : Join} {p : List Byte}

/-! ### The fetched base becomes the bay's (R294) -/

/-- The bay keeps its join, and commands keep their slots. -/
structure Undisturbed (s t : State) (b : Nat) : Prop where
  slot? : ∀ adm, t.slot? adm = s.slot? adm
  join : (t.bay b).join = (s.bay b).join

namespace Undisturbed

theorem refl (s : State) (b : Nat) : Undisturbed s s b := ⟨fun _ => rfl, rfl⟩

section
variable (h : Undisturbed s t b)
include h

theorem writeBay (a : Nat) (bs : List Byte) : Undisturbed s (t.writeBay b a bs) b := by
  have hrest := KeepsRest.writeBay t b a bs
  refine ⟨fun adm => (hrest.slot? adm).trans (h.slot? adm), ?_⟩
  unfold State.bay
  rw [hrest.bays]
  exact h.join

theorem setBay {f : Bay → Bay} (hf : ∀ y, (f y).join = y.join) : Undisturbed s (t.setBay b f) b :=
  ⟨h.slot?, (bay_setBay_kept Bay.join hf t b b).trans h.join⟩

theorem markDirty (l : List Nat) : Undisturbed s (t.markDirty b l) b := h.setBay fun _ => rfl

theorem diffRecord (step tensor : W32) (first count kind source : Nat) :
    Undisturbed s (t.diffRecord b step tensor first count kind source) b := by
  unfold State.diffRecord
  dsimp only
  split
  · exact h
  · split
    · exact h
    · exact (h.writeBay ..).setBay fun _ => rfl

theorem foldl {α : Type} {f : State → α → State} (hf : ∀ u a, Undisturbed s u b → Undisturbed s (f u a) b)
    (l : List α) : Undisturbed s (l.foldl f t) b :=
  List.foldlRecOn l f (motive := fun u => Undisturbed s u b) h fun u hu a _ => hf u a hu

end

end Undisturbed

/-- Base, outer momentum and master written block by block. -/
def baseWritten (b : Nat) (m : ShardMap) (xs : List (List Byte × List Byte)) (s : State) : State :=
  (m.deltaBlocks.zip xs).foldl (fun u q =>
    let at_ := fun (c : Nat) => (m.classRange q.1.1 q.1.2 c).1
    (((u.writeBay b (at_ 4) q.2.1).writeBay b (at_ 5) q.2.2).writeBay b (at_ 0) q.2.1).markDirty b
      [m.firstBlock q.1.1 + q.1.2]) s

/-- The records of the written blocks in the difference stream. -/
def baseRecorded (b : Nat) (m : ShardMap) (s : State) : State :=
  (m.live.filter (fun ti => m.blocks (nth m.tensors ti) != 0)).foldl (fun u ti =>
    u.diffRecord b ((u.bay b).train.appliedOf ti) (nth m.tensors ti).id 0 (m.blocks (nth m.tensors ti)) 2 3) s

theorem Undisturbed.baseWritten (h : Undisturbed s t b) (m : ShardMap) (xs : List (List Byte × List Byte)) :
    Undisturbed s (baseWritten b m xs t) b :=
  h.foldl (fun _ _ hu => (((hu.writeBay ..).writeBay ..).writeBay ..).markDirty _) _

theorem Undisturbed.baseRecorded (h : Undisturbed s t b) (m : ShardMap) : Undisturbed s (baseRecorded b m t) b :=
  h.foldl (fun _ _ hu => hu.diffRecord ..) _

/-- The join of a bay that has fetched base `x`. -/
structure Adopts (x : Nat) (j k : Join) : Prop where
  leave : k.leave = j.leave
  catchup : k.catchup = none
  nextEpoch : k.nextEpoch = BitVec.ofNat 32 x
  fresh : k.fresh = true

theorem adopt_eq (s : State) (b adm x : Nat) (m : ShardMap) (parts : List (Nat × List Byte))
    (xs : List (List Byte × List Byte)) : ∃ f : Join → Join, (∀ j, Adopts x j (f j)) ∧ s.adopt b adm m x parts xs =
      (((baseRecorded b m ((baseWritten b m xs s).setJoin b f)).prepareNow b).finishNat adm .ok x).tidyJoin b := by
  refine ⟨_, ?_, rfl⟩
  exact fun _ => ⟨rfl, rfl, rfl, rfl⟩

/-- A catch-up ends OK with its epoch (R294). -/
theorem adopt_ends {c : Slot} {x : Nat} (m : ShardMap) (parts : List (Nat × List Byte)) (xs : List (List Byte × List Byte))
    (hj : (s.bay b).join = some j) (hstay : j.leave = none) (hs : s.slot? c.adm = some c) (hp : c.phase = .active) :
    ∃ k, ((s.adopt b c.adm m x parts xs).bay b).join = some k ∧ Ended (s.adopt b c.adm m x parts xs) c .ok x ∧
      k.catchup = none ∧ k.nextEpoch = BitVec.ofNat 32 x ∧ k.fresh = true := by
  obtain ⟨f, hf, hadopt⟩ := adopt_eq s b c.adm x m parts xs
  obtain ⟨hleave, hcatchup, hepoch, hfresh⟩ := hf j
  have hwritten := (Undisturbed.refl s b).baseWritten m xs
  have hset := (Exchanged.refl (hwritten.join.trans hj)).setJoin f
  have hrecorded := (Undisturbed.refl ((baseWritten b m xs s).setJoin b f) b).baseRecorded m
  obtain ⟨n, ps, k, hk, hprepared⟩ := (Exchanged.refl (hrecorded.join.trans hset.join)).prepareNow
  have hslot := (hprepared.slot? c.adm).trans ((hrecorded.slot? c.adm).trans ((hset.slot? c.adm).trans
    ((hwritten.slot? c.adm).trans hs)))
  have hended := ended_of_active .ok x hslot hp
  have hjoin := (join_finishNat _ c.adm .ok x b).trans hprepared.join
  obtain ⟨_, _, _, rfl⟩ := hk
  rw [hadopt, tidyJoin_staying hjoin (hleave.trans hstay)]
  have htidy := (Exchanged.refl hjoin).setJoin Join.tidy
  exact ⟨_, htidy.join, hended.of_slot?_eq (htidy.slot? _), hcatchup, hepoch, hfresh⟩

/-! ### Catch-up data (R294) -/

/-- The join after a datagram of catch-up data: staged with the waits, the fetch and the catch-up that asked for it. -/
def dataStaged (site : Nat) (p : List Byte) (j : Join) : Join := { j with
  lineWaits := j.lineWaits.map (fun w => w.takePart site p)
  fetch := j.fetch.map (fun (f : Fetch) =>
    if f.site == site && f.epoch.toNat == leAt p 4 4 && decide (byteAt p 0 < 2) then
      { f with parts := assocSet f.parts (partKey p) (p.drop 16) } else f)
  catchup := j.catchup.map (fun (c : Catchup) =>
    if (c.source == site || (c.source == 0xFF && !c.bad.contains site)) && decide (byteAt p 0 < 4) then
      { c with source := site, parts := assocSet c.parts (partKey p) (p.drop 16) } else c) }

theorem dataStaged_catchup {c : Catchup} (hc : j.catchup = some c) (hfirst : byteAt p 0 < 4) :
    (dataStaged c.source p j).catchup = some { c with parts := assocSet c.parts (partKey p) (p.drop 16) } := by
  unfold dataStaged
  dsimp only
  rw [hc, Option.map_some, if_pos (by simp [hfirst])]

theorem settleCatchup_partial {c : Catchup} {m : ShardMap} (hj : (s.bay b).join = some j) (hopen : j.joining = none)
    (hc : j.catchup = some c) (hm : (s.bay b).train.map = some m) (hpart : catchupWhole m c.parts = none) :
    s.settleCatchup b = s := by
  unfold State.settleCatchup
  rw [onJoined_joined hj hopen, hc, hm]
  dsimp only
  rw [hpart]

theorem settleCatchup_good {c : Catchup} {m : ShardMap} {x : Nat} {xs : List (List Byte × List Byte)}
    (hj : (s.bay b).join = some j) (hopen : j.joining = none) (hc : j.catchup = some c)
    (hm : (s.bay b).train.map = some m) (hwhole : catchupWhole m c.parts = some x)
    (hblocks : stagedBlocks m c.parts = some xs) (hgood : j.catchupGood x c.parts xs = true)
    (hio : s.ioStatus b [] m.closeRanges = none) : s.settleCatchup b = s.adopt b c.adm m x c.parts xs := by
  unfold State.settleCatchup
  rw [onJoined_joined hj hopen, hc, hm]
  dsimp only
  rw [hwhole]
  dsimp only
  rw [hblocks]
  dsimp only
  rw [hgood, hio]
  rfl

theorem catchupGood_congr (hblk : k.blk = j.blk) (hdigests : k.digests = j.digests) (x : Nat)
    (parts : List (Nat × List Byte)) (xs : List (List Byte × List Byte)) :
    k.catchupGood x parts xs = j.catchupGood x parts xs := by
  unfold Join.catchupGood Join.others Join.sites
  rw [hblk, hdigests]

section
variable {c : Catchup} (hopen : OpenTo j d.srcSite) (hgood : GoodCtl s b 6 d j p) (hwaits : j.lineWaits = [])
  (hc : j.catchup = some c) (hsource : c.source = d.srcSite) (hfirst : byteAt p 0 < 4)
include hopen hgood hwaits hc hsource hfirst

/-- Data from the source of a catch-up, with no read waiting for a line, is staged; then the catch-up is settled. -/
theorem exec_catchupData (port : Nat) :
    ∃ u k, exec (.catchupData b port d) s = .next (u.settleCatchup b) ∧ Exchanged s u b k ∧
      k.catchup = some { c with parts := assocSet c.parts (partKey p) (p.drop 16) } ∧
      k.joining = none ∧ k.blk = j.blk ∧ k.leave = j.leave ∧ k.digests = j.digests := by
  obtain ⟨k, hk, h⟩ := acked_sent hgood.1 port d
  obtain ⟨_, _, _, rfl⟩ := hk
  have hstaged := h.setJoin (dataStaged d.srcSite p)
  have hnone : ((((acked s b port d).setJoin b (dataStaged d.srcSite p)).bay b).join.map (·.lineWaits)).getD [] = [] := by
    rw [hstaged.join]
    exact congrArg (List.map _) hwaits
  refine ⟨_, _, congrArg Host.Outcome.next ?_, hstaged, hsource ▸ dataStaged_catchup hc hfirst, hopen.1, rfl, rfl, rfl⟩
  rw [takeCtl_acked hgood (by decide) (.inr hopen)]
  exact congrArg (fun ws : List LineWait => (ws.foldl (fun (u : State) w => u.settleWait b w)
    ((acked s b port d).setJoin b (dataStaged d.srcSite p))).settleCatchup b) hnone

variable {m : ShardMap} (hm : (s.bay b).train.map = some m)
include hm

theorem catchupData_staged (hpart : catchupWhole m (assocSet c.parts (partKey p) (p.drop 16)) = none) :
    LeavesJoin s (.catchupData b port d) b (fun t k => SameMemory s t ∧
      k.catchup = some { c with parts := assocSet c.parts (partKey p) (p.drop 16) }) := by
  obtain ⟨u, k, hexec, h, hcatchup, hjoining, -⟩ := exec_catchupData hopen hgood hwaits hc hsource hfirst port
  have hmap : (u.bay b).train.map = some m := (h.kept (·.train.map)).trans hm
  rw [settleCatchup_partial h.join hjoining hcatchup hmap hpart] at hexec
  exact ⟨u, k, hexec, h.join, h.mem, hcatchup⟩

theorem catchupData_adopted {x : Nat} {xs : List (List Byte × List Byte)} {u : Slot}
    (hwhole : catchupWhole m (assocSet c.parts (partKey p) (p.drop 16)) = some x)
    (hblocks : stagedBlocks m (assocSet c.parts (partKey p) (p.drop 16)) = some xs)
    (hmatches : j.catchupGood x (assocSet c.parts (partKey p) (p.drop 16)) xs = true)
    (hio : s.ioStatus b [] m.closeRanges = none) (hstay : j.leave = none) (hs : s.slot? c.adm = some u)
    (hp : u.phase = .active) :
    LeavesJoin s (.catchupData b port d) b (fun t k =>
      Ended t u .ok x ∧ k.catchup = none ∧ k.nextEpoch = BitVec.ofNat 32 x ∧ k.fresh = true) := by
  obtain ⟨v, k, hexec, h, hcatchup, hjoining, hblk, hleave, hdigests⟩ :=
    exec_catchupData hopen hgood hwaits hc hsource hfirst port
  have hmap : (v.bay b).train.map = some m := (h.kept (·.train.map)).trans hm
  have hwrites := h.writesAlike hgood.1 (hjoining.trans hopen.1.symm) hblk
  have hadm : u.adm = c.adm := by simpa using List.find?_some hs
  have hslot : v.slot? u.adm = some u := by rw [h.slot?, hadm, hs]
  rw [settleCatchup_good h.join hjoining hcatchup hmap hwhole hblocks
    ((catchupGood_congr hblk hdigests ..).trans hmatches) ((hwrites.ioStatus_outs _).trans hio), ← hadm] at hexec
  obtain ⟨k', hjoin, hended, hrest⟩ := adopt_ends m (assocSet c.parts (partKey p) (p.drop 16)) xs h.join
    (hleave.trans hstay) hslot hp
  exact ⟨_, k', hexec, hjoin, hended, hrest⟩

end

/-! ### Within a site (R276, R286) -/

/-- The state in which a management packet acts: it has left its receive buffer. -/
def mgmtTaken (s : State) (b : Nat) : State := s.takeMsg 8 b (s.bay b).siteGroup fun _ => true

theorem mgmtTaken_link (s : State) (b : Nat) : LinkOnly s (mgmtTaken s b) := by
  have hports : mgmtTaken s b = { s with ports := (mgmtTaken s b).ports } := takeMsg_frame ..
  rw [hports]
  exact (LinkOnly.refl s).update

theorem Exchanged.takeReport (h : Exchanged s t b k) (r : MemberReport) :
    ∃ k', Exchanged s (t.takeReport b r) b k' ∧ r ∈ k'.reports := by
  have hkept := h.setJoin fun j => { j with
    reports := j.reports.filter (fun (x : MemberReport) => !(x.member == r.member && x.epoch == r.epoch)) ++ [r] }
  obtain ⟨vs, k', hk, h'⟩ := hkept.sendVector r.epoch.toNat
  refine ⟨k', h', ?_⟩
  obtain ⟨_, _, _, rfl⟩ := hk
  exact List.mem_append_right _ (List.mem_singleton_self _)

section
variable (hj : (s.bay b).join = some j) (hopen : j.joining = none)
include hj hopen

theorem report_leaves (m : Nat) (e : W32) (h0 h1 h2 : BitVec 16) (hspeaker : j.speaker = true) :
    LeavesJoin s (.managementPacket b (.report m e h0 h1 h2)) b (fun t k =>
      SameMemory s t ∧ ⟨m, e, h0, h1, h2⟩ ∈ k.reports) := by
  have h := (Exchanged.refl hj).link (mgmtTaken_link s b)
  obtain ⟨k, h', hmem⟩ := h.takeReport ⟨m, e, h0, h1, h2⟩
  exact ⟨_, k, congrArg Host.Outcome.next ((onJoined_joined h.join hopen _).trans (if_pos hspeaker)), h'.join, h'.mem,
    hmem⟩

theorem relayedVector_leaves (e : W32) (p : List Byte) (hmember : j.speaker = false) :
    LeavesJoin s (.managementPacket b (.vector e p)) b (fun t k => SameMemory s t ∧ vectorOf p s.now ∈ k.vectors) := by
  have h := (Exchanged.refl hj).link (mgmtTaken_link s b)
  have hkept := h.setJoin (·.addVector (vectorOf p (mgmtTaken s b).now))
  refine ⟨_, _, congrArg Host.Outcome.next ((onJoined_joined h.join hopen _).trans (if_neg (by simp [hmember]))),
    hkept.join, hkept.mem, ?_⟩
  rw [h.now]
  exact addVector_mem ..

theorem relayedEntry_leaves (e : W32) (p : List Byte) (hmember : j.speaker = false)
    (hnew : j.entry? (ledgerOf p).epoch.toNat = none) (hearly : s.now < s.finalTime j (ledgerOf p).epoch.toNat) :
    LeavesJoin s (.managementPacket b (.entry e p)) b (fun t k => SameMemory s t ∧ ledgerOf p ∈ k.entries) := by
  have h := (Exchanged.refl hj).link (mgmtTaken_link s b)
  rw [← h.now, ← h.finalTime (j := j) rfl rfl] at hearly
  obtain ⟨n, k, h', hmem⟩ := h.takeEntry hopen hnew hearly
  exact ⟨_, k, congrArg Host.Outcome.next ((onJoined_joined h.join hopen _).trans (if_neg (by simp [hmember]))),
    h'.join, h'.mem, hmem⟩

end

/-! ### Frames that no bay takes (R383, R384) -/

theorem farFilteredFrame_control {f : FarFrame} (h : f.pause = true ∨ f.tagged = true) :
    exec (.farFilteredFrame f) s = .next (s.countDev 2 1) :=
  congrArg Host.Outcome.next (if_pos h)

section
variable {f : FarFrame} (hpause : f.pause = false) (htagged : f.tagged = false)
include hpause htagged

theorem farFilteredFrame_notUdp (hnext : f.nextHeader ≠ 17) :
    exec (.farFilteredFrame f) s = .next (s.countDev 1 1) :=
  congrArg Host.Outcome.next ((if_neg (by simp [hpause, htagged])).trans (if_pos (by simp [hnext])))

/-- A frame addressed to a join of the device whose checksum is wrong. -/
theorem farFilteredFrame_badChecksum (hj : (s.bay b).join = some j) (hmac : f.dmac = (nth s.far f.port).mac)
    (htype : f.etherType = 0x86DD) (hnext : f.nextHeader = 17) (hip : f.dstIp = j.blk.srcIp)
    (hport : f.dstPort = j.blk.udpPort) (hsum : f.checksumOk = false) :
    exec (.farFilteredFrame f) s = .next (s.countDev 0 1) := by
  have hmem : s.bay b ∈ s.bays := by
    unfold State.bay nth
    rw [List.getD_eq_getElem _ _ (lt_of_joined hj)]
    exact List.getElem_mem _
  refine congrArg Host.Outcome.next ((if_neg (by simp [hpause, htagged])).trans
    ((if_neg ?_).trans (if_pos (by simp [hsum]))))
  rintro (hother | hother | hother | hother)
  · exact hother hmac
  · exact hother htype
  · exact hother hnext
  · rw [Bool.not_eq_true'] at hother
    have hnot := List.any_eq_false.1 hother _ hmem
    rw [hj] at hnot
    exact hnot (by simp [hip, hport])

end

end Sys2Proof
end

section
/-! Datagrams of the far exchange (R276, R281 to R283, R286, R287, R291, R294, R383, R384). -/
namespace Sys2Proof
open Machine

/-- Settles O52: each datagram by its own case above. -/
theorem farDatagramsAct : Obligations.FarDatagramsAct := by
  unfold Obligations.FarDatagramsAct
  intro s b port d j _ _ hj
  refine ⟨fun hopen htakes hkey => ⟨fun hfrag hmany hcomplete hnew hack hroom => ?_, fun hstay => ?_⟩,
    fun _ _ _ => hello_leaves, fun hopen => ?_, fun hjoined => ?_,
    fun f => ?_⟩
  · have h := fragment_held (port := port) (d := d) hj
    exact ⟨_, _, exec_fragment_new hj hopen htakes hkey hfrag hmany hcomplete hnew hack hroom, h.join, h.mem, rfl,
      assoc_assocSet_self ..⟩
  · obtain ⟨t, n, hexec, h⟩ := sack_leaves (port := port) hj hopen htakes hstay
    refine ⟨t, _, hexec, h.join, h.mem, assoc_assocSet_self .., fun x hx hgranted => ?_⟩
    obtain ⟨y, -, rfl⟩ := List.mem_map.1 (List.mem_filter.1 hx).1
    exact sackedBundle_open d y hgranted
  · exact ⟨fun _ => controlAcknowledgement_leaves hopen, fun _ => admissionVector_leaves hopen,
      fun _ => ledgerEntry_leaves hopen, fun _ => digest_leaves hopen, fun _ => catchupRequest_kept hopen,
      fun _ _ _ => catchupRequest_answered hopen, fun _ _ _ hgood hwaits hc hsource hfirst hm =>
        ⟨catchupData_staged hopen hgood hwaits hc hsource hfirst hm,
          fun _ _ _ => catchupData_adopted hopen hgood hwaits hc hsource hfirst hm⟩⟩
  · exact ⟨report_leaves hj hjoined, relayedVector_leaves hj hjoined, relayedEntry_leaves hj hjoined⟩
  · exact ⟨farFilteredFrame_control, farFilteredFrame_notUdp,
      fun hpause htagged hmac htype hnext hip hport hsum =>
        farFilteredFrame_badChecksum hpause htagged hj hmac htype hnext hip hport hsum⟩

end Sys2Proof
end

section
/-!
Frames: what an operation leaves of the state. `Frame F s₀ s` says that `s` is `s₀` in every field outside the set `F`, and
that no memory has lost its canonical form (log 2).
-/
set_option Elab.async false
namespace Sys2Proof
open Machine

/-- A set of fields of the state, one bit each. -/
abbrev Fields := Nat

namespace Fields

abbrev pending : Fields := 2 ^ 0
abbrev free : Fields := 2 ^ 1
abbrev faults : Fields := 2 ^ 2
abbrev outs : Fields := 2 ^ 3
abbrev clock : Fields := 2 ^ 4
abbrev factory : Fields := 2 ^ 5
abbrev flash : Fields := 2 ^ 6
abbrev boot : Fields := 2 ^ 7
abbrev bootFeat : Fields := 2 ^ 8
abbrev effFeat : Fields := 2 ^ 9
abbrev dev : Fields := 2 ^ 10
abbrev ctl : Fields := 2 ^ 11
abbrev urg : Fields := 2 ^ 12
abbrev urgRing : Fields := 2 ^ 13
abbrev msix : Fields := 2 ^ 14
abbrev cmds : Fields := 2 ^ 15
abbrev nextAdm : Fields := 2 ^ 16
abbrev nextFin : Fields := 2 ^ 17
abbrev joiner : Fields := 2 ^ 18
abbrev version : Fields := 2 ^ 19
abbrev peg : Fields := 2 ^ 20
abbrev zeroMarks : Fields := 2 ^ 21
abbrev clusters : Fields := 2 ^ 22
abbrev lmap : Fields := 2 ^ 23
abbrev lrisk : Fields := 2 ^ 24
abbrev lfailed : Fields := 2 ^ 25
abbrev cores : Fields := 2 ^ 26
abbrev gcrt : Fields := 2 ^ 27
abbrev dram : Fields := 2 ^ 28
abbrev sram : Fields := 2 ^ 29
abbrev local_ : Fields := 2 ^ 30
abbrev host : Fields := 2 ^ 31
abbrev hostDeny : Fields := 2 ^ 32
abbrev poison : Fields := 2 ^ 33
abbrev t3cap : Fields := 2 ^ 34
abbrev t3down : Fields := 2 ^ 35
abbrev dramRepairs : Fields := 2 ^ 36
abbrev nv : Fields := 2 ^ 37
abbrev ports : Fields := 2 ^ 38
abbrev far : Fields := 2 ^ 39
abbrev farSent : Fields := 2 ^ 40
abbrev devTele : Fields := 2 ^ 41
abbrev devSince : Fields := 2 ^ 42
abbrev dies : Fields := 2 ^ 43
abbrev sensors : Fields := 2 ^ 44
abbrev dramHolds : Fields := 2 ^ 45
abbrev codecFenced : Fields := 2 ^ 46
abbrev minor : Fields := 2 ^ 47
abbrev power : Fields := 2 ^ 48
abbrev vin : Fields := 2 ^ 49
abbrev iin : Fields := 2 ^ 50
abbrev pout : Fields := 2 ^ 51
abbrev mgmt : Fields := 2 ^ 52
abbrev season : Fields := 2 ^ 53
abbrev errLog : Fields := 2 ^ 54
abbrev bootLog : Fields := 2 ^ 55
abbrev trng : Fields := 2 ^ 56
abbrev bays : Fields := 2 ^ 57

/-- The memories and the marks on them (R214, R339). -/
abbrev memory : Fields := zeroMarks ||| dram ||| sram ||| local_ ||| host ||| poison

/-- What the end of a command may touch (R155, R157, R161). -/
abbrev ending : Fields := ctl ||| cmds ||| nextFin ||| bays

/-- What a record of the device's log may touch (R350, R425). -/
abbrev logging : Fields := outs ||| dev ||| errLog

/-- What a packet on a fabric port may touch (R250 to R258). -/
abbrev sending : Fields := logging ||| ports ||| devTele

/-- What the end of a bay's work may touch (R195, R196, R220). -/
abbrev halting : Fields := sending ||| memory ||| ending ||| free ||| faults ||| cores ||| trng

/-- What a warm reset may touch (R218, R353). -/
abbrev restarting : Fields :=
  ending ||| free ||| outs ||| clock ||| boot ||| dev ||| urg ||| urgRing ||| msix ||| nextAdm ||| joiner ||| version |||
    peg ||| zeroMarks ||| clusters ||| lmap ||| lrisk ||| lfailed ||| cores ||| gcrt ||| dram ||| sram ||| local_ |||
    poison ||| ports ||| far ||| devTele ||| codecFenced ||| bootLog ||| trng

/-- What a cold boot may touch: all but the flash and what stands outside the device (R351, R401). -/
abbrev resetting : Fields :=
  restarting ||| bootFeat ||| effFeat ||| t3cap ||| t3down ||| dramRepairs ||| nv ||| farSent ||| devSince ||| dies |||
    dramHolds ||| minor ||| power ||| mgmt ||| season ||| errLog

/-- The set holds every field of the other. -/
structure Has (F a : Fields) : Prop where
  sub : a &&& F = a

/-- The set holds none of the other's fields. -/
abbrev Omits (F a : Fields) : Prop := a &&& F = 0

variable {F a b : Fields}

theorem Has.of (hb : Has F b) (ha : a &&& b = a := by decide) : Has F a where
  sub := by rw [← ha, Nat.land_assoc, hb.sub]

theorem Has.all (F : Fields) : Has F F := ⟨Nat.and_self F⟩

/-- No field that may be touched is one that is kept. -/
theorem Has.elim {p : Prop} (ha : Has F a) (ho : Omits F a) (h0 : a ≠ 0 := by decide) : p :=
  absurd (ha.sub.symm.trans ho) h0

theorem Has.may {p : Prop} (hb : Has F b) (ho : Omits F a) (ha : a &&& b = a := by decide) (h0 : a ≠ 0 := by decide) :
    p :=
  (hb.of ha).elim ho h0

end Fields

open Fields

/-- The fields outside `F` are as they were, and memories in their canonical form stay so. -/
structure Frame (F : Fields) (s₀ s : State) : Prop where
  canonical : MemoriesCanonical s₀ → MemoriesCanonical s
  pending_eq : F.Omits pending → s.pending = s₀.pending
  free_eq : F.Omits free → s.free = s₀.free
  faults_eq : F.Omits faults → s.faults = s₀.faults
  outs_eq : F.Omits outs → s.outs = s₀.outs
  clock_eq : F.Omits clock → s.clock = s₀.clock
  factory_eq : F.Omits factory → s.factory = s₀.factory
  flash_eq : F.Omits flash → s.flash = s₀.flash
  boot_eq : F.Omits boot → s.boot = s₀.boot
  bootFeat_eq : F.Omits bootFeat → s.bootFeat = s₀.bootFeat
  effFeat_eq : F.Omits effFeat → s.effFeat = s₀.effFeat
  dev_eq : F.Omits dev → s.dev = s₀.dev
  ctl_eq : F.Omits ctl → s.ctl = s₀.ctl
  urg_eq : F.Omits urg → s.urg = s₀.urg
  urgRing_eq : F.Omits urgRing → s.urgRing = s₀.urgRing
  msix_eq : F.Omits msix → s.msix = s₀.msix
  cmds_eq : F.Omits cmds → s.cmds = s₀.cmds
  nextAdm_eq : F.Omits nextAdm → s.nextAdm = s₀.nextAdm
  nextFin_eq : F.Omits nextFin → s.nextFin = s₀.nextFin
  joiner_eq : F.Omits joiner → s.joiner = s₀.joiner
  version_eq : F.Omits version → s.version = s₀.version
  peg_eq : F.Omits peg → s.peg = s₀.peg
  zeroMarks_eq : F.Omits zeroMarks → s.zeroMarks = s₀.zeroMarks
  clusters_eq : F.Omits clusters → s.clusters = s₀.clusters
  lmap_eq : F.Omits lmap → s.lmap = s₀.lmap
  lrisk_eq : F.Omits lrisk → s.lrisk = s₀.lrisk
  lfailed_eq : F.Omits lfailed → s.lfailed = s₀.lfailed
  cores_eq : F.Omits cores → s.cores = s₀.cores
  gcrt_eq : F.Omits gcrt → s.gcrt = s₀.gcrt
  dram_eq : F.Omits dram → s.dram = s₀.dram
  sram_eq : F.Omits sram → s.sram = s₀.sram
  local__eq : F.Omits local_ → s.local_ = s₀.local_
  host_eq : F.Omits host → s.host = s₀.host
  hostDeny_eq : F.Omits hostDeny → s.hostDeny = s₀.hostDeny
  poison_eq : F.Omits poison → s.poison = s₀.poison
  t3cap_eq : F.Omits t3cap → s.t3cap = s₀.t3cap
  t3down_eq : F.Omits t3down → s.t3down = s₀.t3down
  dramRepairs_eq : F.Omits dramRepairs → s.dramRepairs = s₀.dramRepairs
  nv_eq : F.Omits nv → s.nv = s₀.nv
  ports_eq : F.Omits ports → s.ports = s₀.ports
  far_eq : F.Omits far → s.far = s₀.far
  farSent_eq : F.Omits farSent → s.farSent = s₀.farSent
  devTele_eq : F.Omits devTele → s.devTele = s₀.devTele
  devSince_eq : F.Omits devSince → s.devSince = s₀.devSince
  dies_eq : F.Omits dies → s.dies = s₀.dies
  sensors_eq : F.Omits sensors → s.sensors = s₀.sensors
  dramHolds_eq : F.Omits dramHolds → s.dramHolds = s₀.dramHolds
  codecFenced_eq : F.Omits codecFenced → s.codecFenced = s₀.codecFenced
  minor_eq : F.Omits minor → s.minor = s₀.minor
  power_eq : F.Omits power → s.power = s₀.power
  vin_eq : F.Omits vin → s.vin = s₀.vin
  iin_eq : F.Omits iin → s.iin = s₀.iin
  pout_eq : F.Omits pout → s.pout = s₀.pout
  mgmt_eq : F.Omits mgmt → s.mgmt = s₀.mgmt
  season_eq : F.Omits season → s.season = s₀.season
  errLog_eq : F.Omits errLog → s.errLog = s₀.errLog
  bootLog_eq : F.Omits bootLog → s.bootLog = s₀.bootLog
  trng_eq : F.Omits trng → s.trng = s₀.trng
  bays_eq : F.Omits bays → s.bays = s₀.bays

/-- The fields of `F` taken from `t`, the others from `s`. -/
def graft (F : Fields) (s t : State) : State where
  pending := if F.Omits pending then s.pending else t.pending
  free := if F.Omits free then s.free else t.free
  faults := if F.Omits faults then s.faults else t.faults
  outs := if F.Omits outs then s.outs else t.outs
  clock := if F.Omits clock then s.clock else t.clock
  factory := if F.Omits factory then s.factory else t.factory
  flash := if F.Omits flash then s.flash else t.flash
  boot := if F.Omits boot then s.boot else t.boot
  bootFeat := if F.Omits bootFeat then s.bootFeat else t.bootFeat
  effFeat := if F.Omits effFeat then s.effFeat else t.effFeat
  dev := if F.Omits dev then s.dev else t.dev
  ctl := if F.Omits ctl then s.ctl else t.ctl
  urg := if F.Omits urg then s.urg else t.urg
  urgRing := if F.Omits urgRing then s.urgRing else t.urgRing
  msix := if F.Omits msix then s.msix else t.msix
  cmds := if F.Omits cmds then s.cmds else t.cmds
  nextAdm := if F.Omits nextAdm then s.nextAdm else t.nextAdm
  nextFin := if F.Omits nextFin then s.nextFin else t.nextFin
  joiner := if F.Omits joiner then s.joiner else t.joiner
  version := if F.Omits version then s.version else t.version
  peg := if F.Omits peg then s.peg else t.peg
  zeroMarks := if F.Omits zeroMarks then s.zeroMarks else t.zeroMarks
  clusters := if F.Omits clusters then s.clusters else t.clusters
  lmap := if F.Omits lmap then s.lmap else t.lmap
  lrisk := if F.Omits lrisk then s.lrisk else t.lrisk
  lfailed := if F.Omits lfailed then s.lfailed else t.lfailed
  cores := if F.Omits cores then s.cores else t.cores
  gcrt := if F.Omits gcrt then s.gcrt else t.gcrt
  dram := if F.Omits dram then s.dram else t.dram
  sram := if F.Omits sram then s.sram else t.sram
  local_ := if F.Omits local_ then s.local_ else t.local_
  host := if F.Omits host then s.host else t.host
  hostDeny := if F.Omits hostDeny then s.hostDeny else t.hostDeny
  poison := if F.Omits poison then s.poison else t.poison
  t3cap := if F.Omits t3cap then s.t3cap else t.t3cap
  t3down := if F.Omits t3down then s.t3down else t.t3down
  dramRepairs := if F.Omits dramRepairs then s.dramRepairs else t.dramRepairs
  nv := if F.Omits nv then s.nv else t.nv
  ports := if F.Omits ports then s.ports else t.ports
  far := if F.Omits far then s.far else t.far
  farSent := if F.Omits farSent then s.farSent else t.farSent
  devTele := if F.Omits devTele then s.devTele else t.devTele
  devSince := if F.Omits devSince then s.devSince else t.devSince
  dies := if F.Omits dies then s.dies else t.dies
  sensors := if F.Omits sensors then s.sensors else t.sensors
  dramHolds := if F.Omits dramHolds then s.dramHolds else t.dramHolds
  codecFenced := if F.Omits codecFenced then s.codecFenced else t.codecFenced
  minor := if F.Omits minor then s.minor else t.minor
  power := if F.Omits power then s.power else t.power
  vin := if F.Omits vin then s.vin else t.vin
  iin := if F.Omits iin then s.iin else t.iin
  pout := if F.Omits pout then s.pout else t.pout
  mgmt := if F.Omits mgmt then s.mgmt else t.mgmt
  season := if F.Omits season then s.season else t.season
  errLog := if F.Omits errLog then s.errLog else t.errLog
  bootLog := if F.Omits bootLog then s.bootLog else t.bootLog
  trng := if F.Omits trng then s.trng else t.trng
  bays := if F.Omits bays then s.bays else t.bays

/-- An outcome that goes on, with a state that keeps what lies outside `F`. -/
def Answers (F : Fields) (s₀ : State) (o : Host.Outcome State Fault Refusal) : Prop :=
  ∃ t, o = .next t ∧ Frame F s₀ t

theorem Answers.next {F : Fields} {s₀ t : State} (h : Frame F s₀ t) : Answers F s₀ (.next t) := ⟨t, rfl, h⟩

/-- The state that an outcome goes on with is the one that it names. -/
theorem Answers.frame {F : Fields} {s₀ t : State} {o : Host.Outcome State Fault Refusal} (h : Answers F s₀ o)
    (ht : o = .next t) : Frame F s₀ t := by
  obtain ⟨u, hu, hf⟩ := h
  cases hu.symm.trans ht
  exact hf

namespace Frame

variable {F : Fields} {s₀ s t : State}

/-- A frame as one equation between states. -/
theorem eq_graft (h : Frame F s t) : t = graft F s t := by
  have pick : ∀ {α : Type} {a : Fields} {x y : α}, (F.Omits a → y = x) → y = if F.Omits a then x else y := by
    intro α a x y he
    split
    · exact he ‹_›
    · rfl
  cases t
  simp only [graft, State.mk.injEq]
  exact ⟨pick h.pending_eq,
    pick h.free_eq,
    pick h.faults_eq,
    pick h.outs_eq,
    pick h.clock_eq,
    pick h.factory_eq,
    pick h.flash_eq,
    pick h.boot_eq,
    pick h.bootFeat_eq,
    pick h.effFeat_eq,
    pick h.dev_eq,
    pick h.ctl_eq,
    pick h.urg_eq,
    pick h.urgRing_eq,
    pick h.msix_eq,
    pick h.cmds_eq,
    pick h.nextAdm_eq,
    pick h.nextFin_eq,
    pick h.joiner_eq,
    pick h.version_eq,
    pick h.peg_eq,
    pick h.zeroMarks_eq,
    pick h.clusters_eq,
    pick h.lmap_eq,
    pick h.lrisk_eq,
    pick h.lfailed_eq,
    pick h.cores_eq,
    pick h.gcrt_eq,
    pick h.dram_eq,
    pick h.sram_eq,
    pick h.local__eq,
    pick h.host_eq,
    pick h.hostDeny_eq,
    pick h.poison_eq,
    pick h.t3cap_eq,
    pick h.t3down_eq,
    pick h.dramRepairs_eq,
    pick h.nv_eq,
    pick h.ports_eq,
    pick h.far_eq,
    pick h.farSent_eq,
    pick h.devTele_eq,
    pick h.devSince_eq,
    pick h.dies_eq,
    pick h.sensors_eq,
    pick h.dramHolds_eq,
    pick h.codecFenced_eq,
    pick h.minor_eq,
    pick h.power_eq,
    pick h.vin_eq,
    pick h.iin_eq,
    pick h.pout_eq,
    pick h.mgmt_eq,
    pick h.season_eq,
    pick h.errLog_eq,
    pick h.bootLog_eq,
    pick h.trng_eq,
    pick h.bays_eq⟩

theorem refl : Frame F s s where
  canonical := id
  pending_eq _ := rfl
  free_eq _ := rfl
  faults_eq _ := rfl
  outs_eq _ := rfl
  clock_eq _ := rfl
  factory_eq _ := rfl
  flash_eq _ := rfl
  boot_eq _ := rfl
  bootFeat_eq _ := rfl
  effFeat_eq _ := rfl
  dev_eq _ := rfl
  ctl_eq _ := rfl
  urg_eq _ := rfl
  urgRing_eq _ := rfl
  msix_eq _ := rfl
  cmds_eq _ := rfl
  nextAdm_eq _ := rfl
  nextFin_eq _ := rfl
  joiner_eq _ := rfl
  version_eq _ := rfl
  peg_eq _ := rfl
  zeroMarks_eq _ := rfl
  clusters_eq _ := rfl
  lmap_eq _ := rfl
  lrisk_eq _ := rfl
  lfailed_eq _ := rfl
  cores_eq _ := rfl
  gcrt_eq _ := rfl
  dram_eq _ := rfl
  sram_eq _ := rfl
  local__eq _ := rfl
  host_eq _ := rfl
  hostDeny_eq _ := rfl
  poison_eq _ := rfl
  t3cap_eq _ := rfl
  t3down_eq _ := rfl
  dramRepairs_eq _ := rfl
  nv_eq _ := rfl
  ports_eq _ := rfl
  far_eq _ := rfl
  farSent_eq _ := rfl
  devTele_eq _ := rfl
  devSince_eq _ := rfl
  dies_eq _ := rfl
  sensors_eq _ := rfl
  dramHolds_eq _ := rfl
  codecFenced_eq _ := rfl
  minor_eq _ := rfl
  power_eq _ := rfl
  vin_eq _ := rfl
  iin_eq _ := rfl
  pout_eq _ := rfl
  mgmt_eq _ := rfl
  season_eq _ := rfl
  errLog_eq _ := rfl
  bootLog_eq _ := rfl
  trng_eq _ := rfl
  bays_eq _ := rfl

/-! ### One field changed -/

theorem setFree {x} (h : Frame F s₀ s) (hF : F.Has free := by exact .of ‹_›) : Frame F s₀ { s with free := x } :=
  { h with free_eq := hF.elim }

theorem setFaults {x} (h : Frame F s₀ s) (hF : F.Has faults := by exact .of ‹_›) : Frame F s₀ { s with faults := x } :=
  { h with faults_eq := hF.elim }

theorem setOuts {x} (h : Frame F s₀ s) (hF : F.Has outs := by exact .of ‹_›) : Frame F s₀ { s with outs := x } :=
  { h with outs_eq := hF.elim }

theorem setClock {x} (h : Frame F s₀ s) (hF : F.Has clock := by exact .of ‹_›) : Frame F s₀ { s with clock := x } :=
  { h with clock_eq := hF.elim }

theorem setFlash {x} (h : Frame F s₀ s) (hF : F.Has flash := by exact .of ‹_›) : Frame F s₀ { s with flash := x } :=
  { h with flash_eq := hF.elim }

theorem setBoot {x} (h : Frame F s₀ s) (hF : F.Has boot := by exact .of ‹_›) : Frame F s₀ { s with boot := x } :=
  { h with boot_eq := hF.elim }

theorem setBootFeat {x} (h : Frame F s₀ s) (hF : F.Has bootFeat := by exact .of ‹_›) : Frame F s₀ { s with bootFeat := x } :=
  { h with bootFeat_eq := hF.elim }

theorem setEffFeat {x} (h : Frame F s₀ s) (hF : F.Has effFeat := by exact .of ‹_›) : Frame F s₀ { s with effFeat := x } :=
  { h with effFeat_eq := hF.elim }

theorem setDev {x} (h : Frame F s₀ s) (hF : F.Has dev := by exact .of ‹_›) : Frame F s₀ { s with dev := x } :=
  { h with dev_eq := hF.elim }

theorem setCtl {x} (h : Frame F s₀ s) (hF : F.Has ctl := by exact .of ‹_›) : Frame F s₀ { s with ctl := x } :=
  { h with ctl_eq := hF.elim }

theorem setUrg {x} (h : Frame F s₀ s) (hF : F.Has urg := by exact .of ‹_›) : Frame F s₀ { s with urg := x } :=
  { h with urg_eq := hF.elim }

theorem setUrgRing {x} (h : Frame F s₀ s) (hx : s.urgRing.wf → Mem.wf x)
    (hF : F.Has urgRing := by exact .of ‹_›) : Frame F s₀ { s with urgRing := x } :=
  { h with
    urgRing_eq := hF.elim
    canonical := fun hs => by
      obtain ⟨hdram, hsram, hlocal, hhost, hurg, hmsix⟩ := h.canonical hs
      exact ⟨hdram, hsram, hlocal, hhost, hx hurg, hmsix⟩ }

theorem setMsix {x} (h : Frame F s₀ s) (hx : s.msix.wf → Mem.wf x)
    (hF : F.Has msix := by exact .of ‹_›) : Frame F s₀ { s with msix := x } :=
  { h with
    msix_eq := hF.elim
    canonical := fun hs => by
      obtain ⟨hdram, hsram, hlocal, hhost, hurg, hmsix⟩ := h.canonical hs
      exact ⟨hdram, hsram, hlocal, hhost, hurg, hx hmsix⟩ }

theorem setCmds {x} (h : Frame F s₀ s) (hF : F.Has cmds := by exact .of ‹_›) : Frame F s₀ { s with cmds := x } :=
  { h with cmds_eq := hF.elim }

theorem setNextFin {x} (h : Frame F s₀ s) (hF : F.Has nextFin := by exact .of ‹_›) : Frame F s₀ { s with nextFin := x } :=
  { h with nextFin_eq := hF.elim }

theorem setJoiner {x} (h : Frame F s₀ s) (hF : F.Has joiner := by exact .of ‹_›) : Frame F s₀ { s with joiner := x } :=
  { h with joiner_eq := hF.elim }

theorem setPeg {x} (h : Frame F s₀ s) (hF : F.Has peg := by exact .of ‹_›) : Frame F s₀ { s with peg := x } :=
  { h with peg_eq := hF.elim }

theorem setZeroMarks {x} (h : Frame F s₀ s) (hF : F.Has zeroMarks := by exact .of ‹_›) :
    Frame F s₀ { s with zeroMarks := x } :=
  { h with zeroMarks_eq := hF.elim }

theorem setClusters {x} (h : Frame F s₀ s) (hF : F.Has clusters := by exact .of ‹_›) : Frame F s₀ { s with clusters := x } :=
  { h with clusters_eq := hF.elim }

theorem setLmap {x} (h : Frame F s₀ s) (hF : F.Has lmap := by exact .of ‹_›) : Frame F s₀ { s with lmap := x } :=
  { h with lmap_eq := hF.elim }

theorem setLrisk {x} (h : Frame F s₀ s) (hF : F.Has lrisk := by exact .of ‹_›) : Frame F s₀ { s with lrisk := x } :=
  { h with lrisk_eq := hF.elim }

theorem setLfailed {x} (h : Frame F s₀ s) (hF : F.Has lfailed := by exact .of ‹_›) : Frame F s₀ { s with lfailed := x } :=
  { h with lfailed_eq := hF.elim }

theorem setCores {x} (h : Frame F s₀ s) (hF : F.Has cores := by exact .of ‹_›) : Frame F s₀ { s with cores := x } :=
  { h with cores_eq := hF.elim }

theorem setGcrt {x} (h : Frame F s₀ s) (hF : F.Has gcrt := by exact .of ‹_›) : Frame F s₀ { s with gcrt := x } :=
  { h with gcrt_eq := hF.elim }

theorem setDram {x} (h : Frame F s₀ s) (hx : s.dram.wf → Mem.wf x)
    (hF : F.Has dram := by exact .of ‹_›) : Frame F s₀ { s with dram := x } :=
  { h with
    dram_eq := hF.elim
    canonical := fun hs => by
      obtain ⟨hdram, hsram, hlocal, hhost, hurg, hmsix⟩ := h.canonical hs
      exact ⟨hx hdram, hsram, hlocal, hhost, hurg, hmsix⟩ }

theorem setSram {x} (h : Frame F s₀ s) (hx : s.sram.wf → Mem.wf x)
    (hF : F.Has sram := by exact .of ‹_›) : Frame F s₀ { s with sram := x } :=
  { h with
    sram_eq := hF.elim
    canonical := fun hs => by
      obtain ⟨hdram, hsram, hlocal, hhost, hurg, hmsix⟩ := h.canonical hs
      exact ⟨hdram, hx hsram, hlocal, hhost, hurg, hmsix⟩ }

theorem setLocal {x} (h : Frame F s₀ s) (hx : s.local_.wf → Mem.wf x)
    (hF : F.Has local_ := by exact .of ‹_›) : Frame F s₀ { s with local_ := x } :=
  { h with
    local__eq := hF.elim
    canonical := fun hs => by
      obtain ⟨hdram, hsram, hlocal, hhost, hurg, hmsix⟩ := h.canonical hs
      exact ⟨hdram, hsram, hx hlocal, hhost, hurg, hmsix⟩ }

theorem setHost {x} (h : Frame F s₀ s) (hx : s.host.wf → Mem.wf x)
    (hF : F.Has host := by exact .of ‹_›) : Frame F s₀ { s with host := x } :=
  { h with
    host_eq := hF.elim
    canonical := fun hs => by
      obtain ⟨hdram, hsram, hlocal, hhost, hurg, hmsix⟩ := h.canonical hs
      exact ⟨hdram, hsram, hlocal, hx hhost, hurg, hmsix⟩ }

theorem setPoison {x} (h : Frame F s₀ s) (hF : F.Has poison := by exact .of ‹_›) : Frame F s₀ { s with poison := x } :=
  { h with poison_eq := hF.elim }

theorem setT3down {x} (h : Frame F s₀ s) (hF : F.Has t3down := by exact .of ‹_›) : Frame F s₀ { s with t3down := x } :=
  { h with t3down_eq := hF.elim }

theorem setNv {x} (h : Frame F s₀ s) (hF : F.Has nv := by exact .of ‹_›) : Frame F s₀ { s with nv := x } :=
  { h with nv_eq := hF.elim }

theorem setPorts {x} (h : Frame F s₀ s) (hF : F.Has ports := by exact .of ‹_›) : Frame F s₀ { s with ports := x } :=
  { h with ports_eq := hF.elim }

theorem setFar {x} (h : Frame F s₀ s) (hF : F.Has far := by exact .of ‹_›) : Frame F s₀ { s with far := x } :=
  { h with far_eq := hF.elim }

theorem setFarSent {x} (h : Frame F s₀ s) (hF : F.Has farSent := by exact .of ‹_›) : Frame F s₀ { s with farSent := x } :=
  { h with farSent_eq := hF.elim }

theorem setDevTele {x} (h : Frame F s₀ s) (hF : F.Has devTele := by exact .of ‹_›) : Frame F s₀ { s with devTele := x } :=
  { h with devTele_eq := hF.elim }

theorem setDies {x} (h : Frame F s₀ s) (hF : F.Has dies := by exact .of ‹_›) : Frame F s₀ { s with dies := x } :=
  { h with dies_eq := hF.elim }

theorem setSensors {x} (h : Frame F s₀ s) (hF : F.Has sensors := by exact .of ‹_›) : Frame F s₀ { s with sensors := x } :=
  { h with sensors_eq := hF.elim }

theorem setDramHolds {x} (h : Frame F s₀ s) (hF : F.Has dramHolds := by exact .of ‹_›) :
    Frame F s₀ { s with dramHolds := x } :=
  { h with dramHolds_eq := hF.elim }

theorem setCodecFenced {x} (h : Frame F s₀ s) (hF : F.Has codecFenced := by exact .of ‹_›) :
    Frame F s₀ { s with codecFenced := x } :=
  { h with codecFenced_eq := hF.elim }

theorem setMinor {x} (h : Frame F s₀ s) (hF : F.Has minor := by exact .of ‹_›) : Frame F s₀ { s with minor := x } :=
  { h with minor_eq := hF.elim }

theorem setPower {x} (h : Frame F s₀ s) (hF : F.Has power := by exact .of ‹_›) : Frame F s₀ { s with power := x } :=
  { h with power_eq := hF.elim }

theorem setVin {x} (h : Frame F s₀ s) (hF : F.Has vin := by exact .of ‹_›) : Frame F s₀ { s with vin := x } :=
  { h with vin_eq := hF.elim }

theorem setSeason {x} (h : Frame F s₀ s) (hF : F.Has season := by exact .of ‹_›) : Frame F s₀ { s with season := x } :=
  { h with season_eq := hF.elim }

theorem setErrLog {x} (h : Frame F s₀ s) (hF : F.Has errLog := by exact .of ‹_›) : Frame F s₀ { s with errLog := x } :=
  { h with errLog_eq := hF.elim }

theorem setBootLog {x} (h : Frame F s₀ s) (hF : F.Has bootLog := by exact .of ‹_›) : Frame F s₀ { s with bootLog := x } :=
  { h with bootLog_eq := hF.elim }

theorem setTrng {x} (h : Frame F s₀ s) (hF : F.Has trng := by exact .of ‹_›) : Frame F s₀ { s with trng := x } :=
  { h with trng_eq := hF.elim }

theorem setBays {x} (h : Frame F s₀ s) (hF : F.Has bays := by exact .of ‹_›) : Frame F s₀ { s with bays := x } :=
  { h with bays_eq := hF.elim }

end Frame

end Sys2Proof
end

section
/-!
The frame of every operation of the model. `Frame.f` says which fields the operation `f` may touch: with the permission
to touch those, it keeps every other; its proof follows the text of `f`, one rule for each operation that `f` is made of.
-/
set_option Elab.async false
namespace Sys2Proof
open Machine Fields

namespace Frame

variable {F : Fields} {s₀ s t : State}

theorem ite {c : Prop} [Decidable c] (hs : Frame F s₀ s) (ht : Frame F s₀ t) : Frame F s₀ (if c then s else t) := by
  split
  · exact hs
  · exact ht

theorem ite_fst {α : Type} {c : Prop} [Decidable c] {a b : State × α} (ha : Frame F s₀ a.1) (hb : Frame F s₀ b.1) :
    Frame F s₀ (if c then a else b).1 := by
  split
  · exact ha
  · exact hb

/-- The state of a pair with what else an operation answers. -/
theorem fst {α : Type} {a : α} (h : Frame F s₀ s) : Frame F s₀ (s, a).1 := h

theorem snd {α : Type} {a : α} (h : Frame F s₀ s) : Frame F s₀ (a, s).2 := h

theorem foldl {α : Type} {f : State → α → State} {l : List α} (h : Frame F s₀ s)
    (hf : ∀ s a, Frame F s₀ s → Frame F s₀ (f s a)) : Frame F s₀ (l.foldl f s) :=
  List.foldlRecOn l f h fun s hs a _ => hf s a hs

theorem foldl_fst {α β : Type} {f : State × β → α → State × β} {l : List α} {a : State × β} (h : Frame F s₀ a.1)
    (hf : ∀ a x, Frame F s₀ a.1 → Frame F s₀ (f a x).1) : Frame F s₀ (l.foldl f a).1 :=
  List.foldlRecOn (motive := fun a => Frame F s₀ a.1) l f h fun a ha x _ => hf a x ha

theorem foldl_st {α : Type} {f : MatRun → α → MatRun} {l : List α} {w : MatRun} (h : Frame F s₀ w.st)
    (hf : ∀ w x, Frame F s₀ w.st → Frame F s₀ (f w x).st) : Frame F s₀ (l.foldl f w).st :=
  List.foldlRecOn (motive := fun w => Frame F s₀ w.st) l f h fun w hw x _ => hf w x hw

theorem setBay {b} {f : Bay → Bay} (h : Frame F s₀ s) (hF : F.Has bays := by exact .of ‹_›) : Frame F s₀ (s.setBay b f) :=
  h.setBays

theorem setCluster {c f} (h : Frame F s₀ s) (hF : F.Has clusters := by exact .of ‹_›) :
    Frame F s₀ (s.setCluster c f) :=
  h.setClusters

theorem setPort {p f} (h : Frame F s₀ s) (hF : F.Has ports := by exact .of ‹_›) : Frame F s₀ (s.setPort p f) :=
  h.setPorts

theorem setDie {d f} (h : Frame F s₀ s) (hF : F.Has dies := by exact .of ‹_›) : Frame F s₀ (s.setDie d f) :=
  h.setDies

/-! ### Machine/Mem.lean -/

theorem unmark {r} (h : Frame F s₀ s)
    (hF : F.Has (zeroMarks ||| dram) := by exact .of ‹_›) : Frame F s₀ (s.unmark r) :=
  ite ((h.setDram fun hm => Mem.wf_clear hm _ _).setZeroMarks) h

theorem writeLoc {l bs} (h : Frame F s₀ s)
    (hF : F.Has memory := by exact .of ‹_›) : Frame F s₀ (s.writeLoc l bs) := by
  unfold State.writeLoc
  dsimp only
  generalize State.skipped s l bs.length = skip
  generalize s.poison.filter _ = poison
  have h1 : Frame F s₀ { s with poison := poison } := h.setPoison
  split
  · exact (h1.foldl fun _ _ hs => hs.unmark).setDram fun hm => Mem.wf_write hm _ _ _
  · exact h1.setSram fun hm => Mem.wf_write hm _ _ _
  · exact h1.setLocal fun hm => Mem.wf_write hm _ _ _
  · exact h1.setHost fun hm => Mem.wf_write hm _ _ _

theorem clearLoc {l n} (h : Frame F s₀ s)
    (hF : F.Has (dram ||| sram ||| local_ ||| host ||| poison) := by exact .of ‹_›) :
    Frame F s₀ (s.clearLoc l n) := by
  unfold State.clearLoc
  dsimp only
  generalize s.poison.filter _ = poison
  have h1 : Frame F s₀ { s with poison := poison } := h.setPoison
  split
  · exact h1.setDram fun hm => Mem.wf_clear hm _ _
  · exact h1.setSram fun hm => Mem.wf_clear hm _ _
  · exact h1.setLocal fun hm => Mem.wf_clear hm _ _
  · exact h1.setHost fun hm => Mem.wf_clear hm _ _

/-! ### Machine/Access.lean -/

theorem writePieces {b acc ps bs} (h : Frame F s₀ s)
    (hF : F.Has memory := by exact .of ‹_›) : Frame F s₀ (State.writePieces b acc ps bs s) := by
  induction ps generalizing bs s with
  | nil => exact h
  | cons p ps ih =>
    refine ih ?_
    split
    · exact h.ite h.writeLoc
    · exact h

theorem writeAcc {b acc a bs} (h : Frame F s₀ s)
    (hF : F.Has memory := by exact .of ‹_›) : Frame F s₀ (s.writeAcc b acc a bs) :=
  h.writePieces

theorem writeBay {b a bs} (h : Frame F s₀ s)
    (hF : F.Has memory := by exact .of ‹_›) : Frame F s₀ (s.writeBay b a bs) :=
  h.writeAcc

/-! ### Machine/Ops.lean -/

theorem useFree {n} (h : Frame F s₀ s) (hF : F.Has free := by exact .of ‹_›) : Frame F s₀ (s.useFree n) :=
  h.setFree

theorem emit {o} (h : Frame F s₀ s) (hF : F.Has outs := by exact .of ‹_›) : Frame F s₀ (s.emit o) :=
  h.setOuts

theorem devCause {i} (h : Frame F s₀ s) (hF : F.Has (outs ||| dev) := by exact .of ‹_›) : Frame F s₀ (s.devCause i) :=
  h.ite (h.setDev.emit.ite h.setDev)

theorem bayIrq {b v} (h : Frame F s₀ s) (hF : F.Has outs := by exact .of ‹_›) : Frame F s₀ (s.bayIrq b v) :=
  h.emit.ite h

theorem bayEvent {b i} (h : Frame F s₀ s)
    (hF : F.Has (outs ||| bays) := by exact .of ‹_›) : Frame F s₀ (s.bayEvent b i) :=
  h.ite (h.setBay.bayIrq.ite h.setBay)

theorem bayDoorbellErr {b} (h : Frame F s₀ s)
    (hF : F.Has (outs ||| bays) := by exact .of ‹_›) : Frame F s₀ (s.bayDoorbellErr b) :=
  h.setBay.bayEvent

theorem log1 {r} (h : Frame F s₀ s) (hF : F.Has logging := by exact .of ‹_›) : Frame F s₀ (s.log1 r) :=
  h.setErrLog.devCause.ite h.setErrLog

theorem log2 {b r} (h : Frame F s₀ s) (hF : F.Has (outs ||| bays) := by exact .of ‹_›) : Frame F s₀ (s.log2 b r) :=
  h.setBay.bayEvent

theorem log12 {b r} (h : Frame F s₀ s)
    (hF : F.Has (logging ||| bays) := by exact .of ‹_›) : Frame F s₀ (s.log12 b r) :=
  h.log1.log2

theorem logPoisonRead {b tag a} (h : Frame F s₀ s)
    (hF : F.Has (outs ||| bays) := by exact .of ‹_›) : Frame F s₀ (s.logPoisonRead b tag a) :=
  h.log2

theorem logBadReads {b acc tag rs} (h : Frame F s₀ s)
    (hF : F.Has (outs ||| bays) := by exact .of ‹_›) : Frame F s₀ (s.logBadReads b acc tag rs) := by
  unfold State.logBadReads
  split
  · exact h.logPoisonRead
  · exact h

theorem countBay {b i n} (h : Frame F s₀ s) (hF : F.Has bays := by exact .of ‹_›) : Frame F s₀ (s.countBay b i n) :=
  h.setBay

theorem countDev {i n} (h : Frame F s₀ s) (hF : F.Has devTele := by exact .of ‹_›) : Frame F s₀ (s.countDev i n) :=
  h.setDevTele

theorem countMinor {kind unit sub} (h : Frame F s₀ s)
    (hF : F.Has minor := by exact .of ‹_›) : Frame F s₀ (s.countMinor kind unit sub) :=
  h.setMinor

theorem lateReads {b rs} (h : Frame F s₀ s)
    (hF : F.Has (free ||| bays) := by exact .of ‹_›) : Frame F s₀ (s.lateReads b rs) :=
  h.countBay.useFree.ite h

theorem raise {b f} (h : Frame F s₀ s) (hF : F.Has bays := by exact .of ‹_›) : Frame F s₀ (s.raise b f) :=
  h.ite h.setBay

theorem setSlot {adm} {f : Slot → Slot} (h : Frame F s₀ s)
    (hF : F.Has cmds := by exact .of ‹_›) : Frame F s₀ (s.setSlot adm f) :=
  h.setCmds

theorem onRunning {i} {f : Slot → State} (h : Frame F s₀ s) (hf : ∀ a, Frame F s₀ (f a)) :
    Frame F s₀ (s.onRunning i f) := by
  unfold State.onRunning
  split
  · exact h
  · split
    · exact h
    · exact (hf _).ite h

theorem setActive {adm} (h : Frame F s₀ s) (hF : F.Has cmds := by exact .of ‹_›) : Frame F s₀ (s.setActive adm) :=
  h.setSlot

theorem recheck {b c} (h : Frame F s₀ s)
    (hF : F.Has (cmds ||| bays) := by exact .of ‹_›) : Frame F s₀ (s.recheck b c) :=
  h.setCmds.setBay

theorem bump {b c n err} (h : Frame F s₀ s)
    (hF : F.Has (cmds ||| bays) := by exact .of ‹_›) : Frame F s₀ (s.bump b c n err) :=
  h.setBay.recheck

theorem markFinished {adm st result} (h : Frame F s₀ s)
    (hF : F.Has (cmds ||| nextFin ||| bays) := by exact .of ‹_›) : Frame F s₀ (s.markFinished adm st result) := by
  unfold State.markFinished
  split
  · exact h
  · refine h.ite (.setNextFin (.setSlot ?_))
    split
    · exact h.bump
    · exact h

theorem dropSlot {adm} (h : Frame F s₀ s) (hF : F.Has cmds := by exact .of ‹_›) : Frame F s₀ (s.dropSlot adm) :=
  h.setCmds

theorem dropIfSilent {adm} (h : Frame F s₀ s)
    (hF : F.Has cmds := by exact .of ‹_›) : Frame F s₀ (s.dropIfSilent adm) := by
  unfold State.dropIfSilent
  split
  · exact h.dropSlot.ite h
  · exact h

theorem setSq {b q f} (h : Frame F s₀ s) (hF : F.Has bays := by exact .of ‹_›) : Frame F s₀ (s.setSq b q f) :=
  h.setBay

theorem setCq {b q f} (h : Frame F s₀ s) (hF : F.Has bays := by exact .of ‹_›) : Frame F s₀ (s.setCq b q f) :=
  h.setBay

theorem setCounter {b c f} (h : Frame F s₀ s)
    (hF : F.Has bays := by exact .of ‹_›) : Frame F s₀ (s.setCounter b c f) :=
  h.setBay

theorem settleQueue {b q} (h : Frame F s₀ s)
    (hF : F.Has (cmds ||| nextFin ||| bays) := by exact .of ‹_›) : Frame F s₀ (s.settleQueue b q) := by
  unfold State.settleQueue
  split
  · exact h.setSq.markFinished.dropIfSilent.ite h
  · exact h

theorem settleAdmin {b} (h : Frame F s₀ s) (hF : F.Has bays := by exact .of ‹_›) : Frame F s₀ (s.settleAdmin b) :=
  .ite h.setBay h

theorem settleControl (h : Frame F s₀ s) (hF : F.Has ctl := by exact .of ‹_›) : Frame F s₀ s.settleControl :=
  h.setCtl.ite h

theorem settle {o} (h : Frame F s₀ s) (hF : F.Has ending := by exact .of ‹_›) : Frame F s₀ (s.settle o) := by
  unfold State.settle
  split
  · exact h.settleQueue.settleAdmin
  · exact h.settleControl
  · exact h

theorem finish {adm st result} (h : Frame F s₀ s)
    (hF : F.Has ending := by exact .of ‹_›) : Frame F s₀ (s.finish adm st result) := by
  unfold State.finish
  split
  · exact h
  · exact h.markFinished.dropIfSilent.settle

theorem finishNat {adm st result} (h : Frame F s₀ s)
    (hF : F.Has ending := by exact .of ‹_›) : Frame F s₀ (s.finishNat adm st result) :=
  h.finish

theorem fail {adm st} (h : Frame F s₀ s) (hF : F.Has ending := by exact .of ‹_›) : Frame F s₀ (s.fail adm st) :=
  h.finish

theorem markCorrected {adm} (h : Frame F s₀ s)
    (hF : F.Has cmds := by exact .of ‹_›) : Frame F s₀ (s.markCorrected adm) :=
  h.setSlot

theorem enter {b st} (h : Frame F s₀ s)
    (hF : F.Has (outs ||| bays) := by exact .of ‹_›) : Frame F s₀ (s.enter b st) :=
  h.ite h.setBay.bayEvent

theorem mixed {t : State} (h : Frame F s₀ s)
    (hF : F.Has (free ||| zeroMarks ||| dram ||| sram ||| local_ ||| host) := by exact .of ‹_›) :
    Frame F s₀ (s.mixed t) := by
  have hu : Frame F s₀ ((s.zeroMarks.filter (fun r => !t.zeroMarks.contains r)).foldl State.unmark s) :=
    h.foldl fun _ _ hs => hs.unmark
  refine { hu with
    free_eq := hF.may, dram_eq := hF.may, sram_eq := hF.may, local__eq := hF.may, host_eq := hF.may
    canonical := fun hs => ?_ }
  obtain ⟨hdram, hsram, hlocal, hhost, hurg, hmsix⟩ := hu.canonical hs
  exact ⟨wf_mixMem _ _ hdram, wf_mixMem _ _ hsram, wf_mixMem _ _ hlocal, wf_mixMem _ _ hhost, hurg, hmsix⟩

/-! ### Machine/Matmul.lean -/

theorem failAtRisk {b p} (h : Frame F s₀ s)
    (hF : F.Has (logging ||| lfailed ||| bays) := by exact .of ‹_›) : Frame F s₀ (s.failAtRisk b p) :=
  h.setLfailed.log12.ite h

theorem askRetire {p} (h : Frame F s₀ s) (hF : F.Has clusters := by exact .of ‹_›) : Frame F s₀ (s.askRetire p) :=
  h.setCluster

theorem substituteNow {b r cube unit} (h : Frame F s₀ s)
    (hF : F.Has (logging ||| clusters) := by exact .of ‹_›) : Frame F s₀ (s.substituteNow b r cube unit) := by
  unfold State.substituteNow
  exact h.setCluster.log1

theorem afterStrike {b adm r k} (h : Frame F s₀ s)
    (hF : F.Has (logging ||| clusters ||| bays) := by exact .of ‹_›) : Frame F s₀ (s.afterStrike b adm r k) := by
  unfold State.afterStrike
  extract_lets
  split
  · extract_lets _ s1
    have h1 : Frame F s₀ s1 := (h.ite h.countBay).foldl fun _ _ hs => hs.substituteNow
    exact h1.setCluster.askRetire.log12.ite (h1.setCluster.ite h1)
  · exact (h.ite h.countBay).log1
  · exact h.ite h.countBay

theorem complete {adm} {f : State → Eff} (h : Frame F s₀ s) (hf : ∀ a, Frame F s₀ a → Frame F s₀ (f a).1)
    (hF : F.Has ending := by exact .of ‹_›) : Frame F s₀ (s.complete adm f) :=
  (hf _ h).finishNat

theorem completeIn {adm b ins} {f : State → Eff}
    (h : Frame F s₀ s) (hf : ∀ a, Frame F s₀ a → Frame F s₀ (f a).1)
    (hF : F.Has (ending ||| outs) := by exact .of ‹_›) : Frame F s₀ (s.completeIn adm b ins f) := by
  unfold State.completeIn
  refine h.complete fun _ hs => .ite_fst ?_ (hf _ hs)
  dsimp only
  split
  · exact (hf _ hs).logPoisonRead
  · exact hf _ hs

theorem failIn {adm b ins st} (h : Frame F s₀ s)
    (hF : F.Has (ending ||| outs) := by exact .of ‹_›) : Frame F s₀ (s.failIn adm b ins st) :=
  (h.logBadReads.ite h).fail

theorem matStart {m} (h : Frame F s₀ s) : Frame F s₀ (s.matStart m).st :=
  h

theorem matRunMeet {b adm ps} {w : MatRun} {r} (h : Frame F s₀ w.st)
    (hF : F.Has (logging ||| faults ||| clusters ||| bays) := by exact .of ‹_›) :
    Frame F s₀ (MatRun.meet b adm ps w r).st := by
  unfold MatRun.meet
  split
  · exact h
  · dsimp only
    split <;> exact h.afterStrike.setFaults

theorem matRun {b adm m retries} (h : Frame F s₀ s)
    (hF : F.Has (logging ||| faults ||| clusters ||| bays) := by exact .of ‹_›) :
    Frame F s₀ (s.matRun b adm m retries).st :=
  h.matStart.foldl_st fun _ _ hs => hs.matRunMeet

theorem matRunLog {w : MatRun} {ps b tag} (h : Frame F s₀ w.st)
    (hF : F.Has logging := by exact .of ‹_›) : Frame F s₀ (w.log ps b tag) :=
  h.foldl fun _ _ hs => hs.log1

theorem matRunFailed {w : MatRun} {ps b} (h2 : Frame F s₀ s)
    (hF : F.Has (logging ||| lfailed ||| bays) := by exact .of ‹_›) : Frame F s₀ (w.failed ps b s) := by
  unfold MatRun.failed
  refine h2.foldl fun _ _ hs => ?_
  split
  · exact hs.failAtRisk
  · exact hs

theorem matmulEff {b c m} (h : Frame F s₀ s)
    (hF : F.Has (memory ||| logging ||| free ||| faults ||| clusters ||| lfailed ||| bays) := by exact .of ‹_›) :
    Frame F s₀ (State.matmulEff b c m s).1 := by
  unfold State.matmulEff
  split
  · exact h
  · refine h.useFree.matRun.matRunLog.matRunFailed.ite_fst ?_
    extract_lets _ s1
    have h1 : Frame F s₀ s1 := h.useFree.matRun.matRunLog.foldl fun _ _ hs => hs.writeBay
    exact (h1.writeBay.ite h1).raise

theorem execMatmul {hd m} (h : Frame F s₀ s)
    (hF : F.Has (memory ||| ending ||| logging ||| free ||| faults ||| clusters ||| lfailed) := by exact .of ‹_›) :
    Answers F s₀ (execMatmul hd m s) := by
  unfold Machine.execMatmul
  refine .next (h.onRunning fun _ => ?_)
  split
  · exact h.completeIn fun _ hs => hs.matmulEff
  · exact h

/-! ### Machine/Licence.lean -/

theorem refreshLicence (h : Frame F s₀ s) (hF : F.Has effFeat := by exact .of ‹_›) : Frame F s₀ s.refreshLicence :=
  h.setEffFeat

theorem licenceInstallEff {addr len} (h : Frame F s₀ s)
    (hF : F.Has (flash ||| effFeat) := by exact .of ‹_›) : Frame F s₀ (State.licenceInstallEff addr len s).1 :=
  h.ite_fst (h.ite_fst (h.ite_fst (h.ite_fst (h.ite_fst h.setFlash.refreshLicence))))

theorem execLicenceInstall {hd addr len} (h : Frame F s₀ s)
    (hF : F.Has (ending ||| flash ||| effFeat) := by exact .of ‹_›) :
    Answers F s₀ (execLicenceInstall hd addr len s) :=
  .next (h.onRunning fun _ => h.complete fun _ hs => hs.licenceInstallEff)

theorem execLicenceWindowEdge (h : Frame F s₀ s)
    (hF : F.Has effFeat := by exact .of ‹_›) : Answers F s₀ (execLicenceWindowEdge s) :=
  .next h.refreshLicence

/-! ### Machine/Admin.lean -/

theorem outWrite {o a bs} (h : Frame F s₀ s)
    (hF : F.Has memory := by exact .of ‹_›) : Frame F s₀ (s.outWrite o a bs) := by
  unfold State.outWrite
  split
  · exact h.writeBay
  · exact h.writeLoc

theorem putOut {o a bs result} (h : Frame F s₀ s)
    (hF : F.Has memory := by exact .of ‹_›) : Frame F s₀ (s.putOut o a bs result).1 :=
  h.ite_fst h.outWrite

theorem execNop {hd} (h : Frame F s₀ s) (hF : F.Has ending := by exact .of ‹_›) : Answers F s₀ (execNop hd s) :=
  .next (h.onRunning fun _ => h.finishNat)

theorem execIdentify {hd bay dst} (h : Frame F s₀ s)
    (hF : F.Has (memory ||| ending) := by exact .of ‹_›) : Answers F s₀ (execIdentify hd bay dst s) :=
  .next (h.onRunning fun _ => h.complete fun _ hs => hs.putOut)

theorem clearLog {hd log bay} (h : Frame F s₀ s)
    (hF : F.Has (errLog ||| bootLog ||| bays) := by exact .of ‹_›) : Frame F s₀ (s.clearLog hd log bay) := by
  unfold State.clearLog
  split
  · exact h.setBootLog
  · exact h.setErrLog
  · exact h.setBay
  · exact h.setBay

theorem getLogEff {hd log clear bay dst length offset} (h : Frame F s₀ s)
    (hF : F.Has (memory ||| errLog ||| bootLog ||| bays) := by exact .of ‹_›) :
    Frame F s₀ (State.getLogEff hd log clear bay dst length offset s).1 :=
  h.putOut.clearLog.ite h.putOut

theorem execGetLog {hd log clear bay dst length offset} (h : Frame F s₀ s)
    (hF : F.Has (memory ||| ending ||| errLog ||| bootLog) := by exact .of ‹_›) :
    Answers F s₀ (execGetLog hd log clear bay dst length offset s) :=
  .next (h.onRunning fun _ => h.complete fun _ hs => hs.getLogEff)

theorem queueCreateEff {b q} (h : Frame F s₀ s)
    (hF : F.Has bays := by exact .of ‹_›) : Frame F s₀ (State.queueCreateEff b q s).1 := by
  unfold State.queueCreateEff
  split
  · exact h
  · exact h.setSq.ite_fst h.setCq

theorem execQueueCreate {hd q} (h : Frame F s₀ s)
    (hF : F.Has ending := by exact .of ‹_›) : Answers F s₀ (execQueueCreate hd q s) := by
  unfold Machine.execQueueCreate
  refine .next (h.onRunning fun _ => ?_)
  split
  · exact h.complete fun _ hs => hs.queueCreateEff
  · exact h

theorem execQueueDelete {hd qtype qid} (h : Frame F s₀ s)
    (hF : F.Has ending := by exact .of ‹_›) : Answers F s₀ (execQueueDelete hd qtype qid s) := by
  unfold Machine.execQueueDelete
  refine .next (h.onRunning fun _ => ?_)
  split
  · exact h
  · split
    · exact h.fail
    · exact h.setActive.setSq.settleQueue.ite h.setCq.finishNat

theorem execCounterSet {hd ctr add clearErr value} (h : Frame F s₀ s)
    (hF : F.Has ending := by exact .of ‹_›) : Answers F s₀ (execCounterSet hd ctr add clearErr value s) := by
  unfold Machine.execCounterSet
  refine .next (h.onRunning fun _ => ?_)
  split
  · exact h
  · exact h.setCounter.recheck.finishNat

/-! ### Machine/Compute.lean -/

theorem quantStatsEff {b o} (h : Frame F s₀ s)
    (hF : F.Has (memory ||| bays) := by exact .of ‹_›) : Frame F s₀ (State.quantStatsEff b o s).1 := by
  unfold State.quantStatsEff
  split
  · exact h
  · exact h.writeBay.raise

theorem execQuantStats {hd o} (h : Frame F s₀ s)
    (hF : F.Has (memory ||| ending ||| outs) := by exact .of ‹_›) : Answers F s₀ (execQuantStats hd o s) := by
  unfold Machine.execQuantStats
  refine .next (h.onRunning fun _ => ?_)
  split
  · exact h.completeIn fun _ hs => hs.quantStatsEff
  · exact h

theorem convertEff {b ftz o} (h : Frame F s₀ s)
    (hF : F.Has (memory ||| bays) := by exact .of ‹_›) : Frame F s₀ (State.convertEff b ftz o s).1 := by
  unfold State.convertEff
  split
  · exact h
  · exact h.writeBay.raise

theorem execConvert {hd o} (h : Frame F s₀ s)
    (hF : F.Has (memory ||| ending ||| outs) := by exact .of ‹_›) : Answers F s₀ (execConvert hd o s) := by
  unfold Machine.execConvert
  refine .next (h.onRunning fun _ => ?_)
  split
  · exact h.completeIn fun _ hs => hs.convertEff
  · exact h

theorem rngFillEff {b o} (h : Frame F s₀ s)
    (hF : F.Has (memory ||| bays) := by exact .of ‹_›) : Frame F s₀ (State.rngFillEff b o s).1 := by
  unfold State.rngFillEff
  split
  · exact h
  · exact h.writeBay.raise

theorem execRngFill {hd o} (h : Frame F s₀ s)
    (hF : F.Has (memory ||| ending) := by exact .of ‹_›) : Answers F s₀ (execRngFill hd o s) := by
  unfold Machine.execRngFill
  refine .next (h.onRunning fun _ => ?_)
  split
  · exact h.complete fun _ hs => hs.rngFillEff
  · exact h

/-! ### Machine/Cores.lean -/

theorem setCore {k} {f : Core → Core} (h : Frame F s₀ s)
    (hF : F.Has cores := by exact .of ‹_›) : Frame F s₀ (s.setCore k f) :=
  h.setCores

theorem execKernelLaunch {hd k} (h : Frame F s₀ s)
    (hF : F.Has (memory ||| ending ||| outs ||| cores) := by exact .of ‹_›) :
    Answers F s₀ (execKernelLaunch hd k s) := by
  unfold Machine.execKernelLaunch
  refine .next (h.onRunning fun _ => ?_)
  split
  · exact h
  · split
    · exact h.logBadReads.fail
    · exact h.setActive.foldl fun _ _ hs => hs.writeLoc.writeLoc.setCore

theorem stopLaunch {adm} (h : Frame F s₀ s) (hF : F.Has cores := by exact .of ‹_›) : Frame F s₀ (s.stopLaunch adm) :=
  h.setCores

theorem failLaunch {adm key st cause pc} (h : Frame F s₀ s)
    (hF : F.Has (ending ||| cores) := by exact .of ‹_›) : Frame F s₀ (s.failLaunch adm key st cause pc) :=
  h.stopLaunch.finishNat

theorem coreFault {key cause pc} (h : Frame F s₀ s)
    (hF : F.Has (ending ||| cores) := by exact .of ‹_›) : Frame F s₀ (s.coreFault key cause pc) := by
  unfold State.coreFault
  split
  · exact h.failLaunch
  · exact h

theorem coreCheck {key pc} (h : Frame F s₀ s)
    (hF : F.Has (ending ||| free ||| cores) := by exact .of ‹_›) : Frame F s₀ (s.coreCheck key pc) := by
  unfold State.coreCheck
  split
  · exact h.useFree.failLaunch
  · exact h

theorem coreBadRead {key b pc rs} (h : Frame F s₀ s)
    (hF : F.Has (ending ||| free ||| outs ||| cores) := by exact .of ‹_›) :
    Frame F s₀ (s.coreBadRead key b pc rs) :=
  h.logBadReads.coreCheck

theorem stopFields {c cause} (h : Frame F s₀ s)
    (hF : F.Has (free ||| cores) := by exact .of ‹_›) : Frame F s₀ (s.stopFields c cause).1 :=
  h.stopLaunch.ite h.stopLaunch.useFree

theorem onCore {c} {f : Nat → Core → Nat → State} (h : Frame F s₀ s) (hf : ∀ a b c, Frame F s₀ (f a b c))
    (hF : F.Has cores := by exact .of ‹_›) : Frame F s₀ (s.onCore c f) := by
  unfold State.onCore
  split
  · exact h
  · dsimp only
    split
    · exact h
    · refine h.ite ?_
      split
      · exact h
      · exact (hf _ _ _).setCore.ite (hf _ _ _)

theorem putVec {key b vd x} (h : Frame F s₀ s)
    (hF : F.Has (cores ||| bays) := by exact .of ‹_›) : Frame F s₀ (s.putVec key b vd x) :=
  h.setCore.raise

theorem execTidyCvt {c vd vs2} (h : Frame F s₀ s)
    (hF : F.Has (cores ||| bays) := by exact .of ‹_›) : Answers F s₀ (execTidyCvt c vd vs2 s) :=
  .next (h.onCore fun _ _ _ => h.putVec)

theorem execTidyWid {c vd vs2} (h : Frame F s₀ s)
    (hF : F.Has (cores ||| bays) := by exact .of ‹_›) : Answers F s₀ (execTidyWid c vd vs2 s) :=
  .next (h.onCore fun _ _ _ => h.putVec)

theorem execTidyStat {c vd vs2} (h : Frame F s₀ s)
    (hF : F.Has (cores ||| bays) := by exact .of ‹_›) : Answers F s₀ (execTidyStat c vd vs2 s) :=
  .next (h.onCore fun _ _ _ => h.putVec)

theorem execTidyRsc {c vd vs2 rs1} (h : Frame F s₀ s)
    (hF : F.Has (ending ||| free ||| outs ||| cores) := by exact .of ‹_›) :
    Answers F s₀ (execTidyRsc c vd vs2 rs1 s) :=
  .next (h.onCore fun _ _ _ => h.lateReads.coreBadRead.ite (h.lateReads.coreFault.ite h.lateReads.putVec))

theorem execTidyQblk {c vd vs2} (h : Frame F s₀ s)
    (hF : F.Has (free ||| cores ||| bays) := by exact .of ‹_›) : Answers F s₀ (execTidyQblk c vd vs2 s) :=
  .next (h.onCore fun _ _ _ => h.putVec.ite h.putVec.useFree)

theorem execTidyDrop {c vd vs2 rs1} (h : Frame F s₀ s)
    (hF : F.Has (cores ||| bays) := by exact .of ‹_›) : Answers F s₀ (execTidyDrop c vd vs2 rs1 s) :=
  .next (h.onCore fun _ _ _ => h.putVec)

theorem execTidyGth {c vd vs2} (h : Frame F s₀ s)
    (hF : F.Has (ending ||| free ||| outs ||| cores) := by exact .of ‹_›) :
    Answers F s₀ (execTidyGth c vd vs2 s) :=
  .next (h.onCore fun _ _ _ => h.lateReads.coreBadRead.ite (h.lateReads.coreFault.ite h.lateReads.putVec))

theorem execTidySct {c vs3 vs2} (h : Frame F s₀ s)
    (hF : F.Has (memory ||| ending ||| free ||| cores) := by exact .of ‹_›) :
    Answers F s₀ (execTidySct c vs3 vs2 s) := by
  unfold Machine.execTidySct
  refine .next (h.onCore fun _ _ _ => ?_)
  extract_lets _ _ t1
  have h1 : Frame F s₀ t1 := h.foldl fun _ _ hs => hs.writeBay
  exact h1.coreCheck.ite (h1.ite h1.coreFault)

theorem execGrainGet {c vd rs1} (h : Frame F s₀ s)
    (hF : F.Has (cores ||| bays) := by exact .of ‹_›) : Answers F s₀ (execGrainGet c vd rs1 s) :=
  .next (h.onCore fun _ _ _ => h.putVec)

theorem execTidyDma {c rs1 rs2} (h : Frame F s₀ s)
    (hF : F.Has (ending ||| free ||| cores) := by exact .of ‹_›) : Answers F s₀ (execTidyDma c rs1 rs2 s) :=
  .next (h.onCore fun _ _ _ => h.coreCheck.ite (h.coreFault.ite h.setCore))

theorem execXtenonCsrWrite {c csr value} (h : Frame F s₀ s)
    (hF : F.Has (ending ||| cores) := by exact .of ‹_›) : Answers F s₀ (execXtenonCsrWrite c csr value s) := by
  unfold Machine.execXtenonCsrWrite
  refine .next (h.onCore fun _ _ _ => ?_)
  dsimp only
  split
  · exact h.coreFault.ite h.setCore
  · exact h.setCore
  · exact h.setCore
  · exact h.coreFault.ite h.setCore
  · exact h.setCore
  · exact h.coreFault

theorem execKernelEcallExit {c} (h : Frame F s₀ s)
    (hF : F.Has (ending ||| cores) := by exact .of ‹_›) : Answers F s₀ (execKernelEcallExit c s) :=
  .next (h.onCore fun _ _ _ => h.coreFault.ite (h.setCore.setCores.finishNat.ite h.setCore))

theorem execCoreException {c cause pc} (h : Frame F s₀ s)
    (hF : F.Has (ending ||| cores) := by exact .of ‹_›) : Answers F s₀ (execCoreException c cause pc s) :=
  .next (h.onCore fun _ _ _ => h.coreFault)

theorem execCycleLimit {adm} (h : Frame F s₀ s)
    (hF : F.Has (ending ||| free ||| cores) := by exact .of ‹_›) : Answers F s₀ (execCycleLimit adm s) := by
  unfold Machine.execCycleLimit
  refine .next ?_
  split
  · exact h
  · split
    · exact h.stopFields.finishNat.ite h
    · exact h

theorem coreWrite {b key a bs} (h : Frame F s₀ s)
    (hF : F.Has memory := by exact .of ‹_›) : Frame F s₀ (s.coreWrite b key a bs) :=
  h.writeLoc.ite h.writeBay

theorem runDma {key d} (h : Frame F s₀ s)
    (hF : F.Has (memory ||| ending ||| free ||| outs ||| cores) := by exact .of ‹_›) :
    Frame F s₀ (s.runDma key d) :=
  h.failLaunch.ite (h.failLaunch.ite ((h.logBadReads.ite h).useFree.failLaunch.ite (((h.lateReads.ite
    h).coreWrite.bump.ite (h.lateReads.ite h).coreWrite).useFree.failLaunch.ite ((h.lateReads.ite
    h).coreWrite.bump.ite (h.lateReads.ite h).coreWrite))))

theorem execDmaDescriptorDone {c chan} (h : Frame F s₀ s)
    (hF : F.Has (memory ||| ending ||| free ||| outs ||| cores) := by exact .of ‹_›) :
    Answers F s₀ (execDmaDescriptorDone c chan s) := by
  unfold Machine.execDmaDescriptorDone
  refine .next ?_
  split
  · exact h
  · split
    · exact h
    · exact h.setCore.runDma

theorem partDma {key d} (h : Frame F s₀ s)
    (hF : F.Has (free ||| zeroMarks ||| dram ||| sram ||| local_ ||| host) := by exact .of ‹_›) :
    Frame F s₀ (s.partDma key d) :=
  h.mixed.ite h

theorem cutChannels {key} {f : Nat → Bool} (h : Frame F s₀ s)
    (hF : F.Has (free ||| zeroMarks ||| cores ||| dram ||| sram ||| local_ ||| host) := by exact .of ‹_›) :
    Frame F s₀ (s.cutChannels key f) := by
  unfold State.cutChannels
  refine h.foldl fun _ _ hs => ?_
  split
  · exact hs
  · exact (hs.partDma.ite hs).setCore

theorem dropQueued {key} (h : Frame F s₀ s) (hF : F.Has cores := by exact .of ‹_›) : Frame F s₀ (s.dropQueued key) :=
  h.setCore

/-! ### Machine/Tick.lean -/

theorem tick (h : Frame F s₀ s) (hF : F.Has clock := by exact .of ‹_›) : Frame F s₀ (tick s) :=
  h.ite h.setClock

/-! ### Machine/Diagnostics.lean -/

theorem nextInstant (h : Frame F s₀ s) (hF : F.Has clock := by exact .of ‹_›) : Frame F s₀ s.nextInstant :=
  h.tick.tick.ite h.tick

theorem telemetryEff {hd w dst length} (h : Frame F s₀ s)
    (hF : F.Has (memory ||| free ||| clock) := by exact .of ‹_›) :
    Frame F s₀ (State.telemetryEff hd w dst length s).1 := by
  unfold State.telemetryEff
  split
  · exact h
  · exact (h.nextInstant.useFree.ite h.nextInstant).putOut

theorem execTelemetryRead {hd window dst length} (h : Frame F s₀ s)
    (hF : F.Has (memory ||| ending ||| free ||| clock) := by exact .of ‹_›) :
    Answers F s₀ (execTelemetryRead hd window dst length s) :=
  .next (h.onRunning fun _ => h.complete fun _ hs => hs.telemetryEff)

theorem execSeasonReport {hd dst length} (h : Frame F s₀ s)
    (hF : F.Has (memory ||| ending) := by exact .of ‹_›) : Answers F s₀ (execSeasonReport hd dst length s) :=
  .next (h.onRunning fun _ => h.complete fun _ hs => hs.putOut)

theorem floorplanEff {hd b dst length} (h : Frame F s₀ s)
    (hF : F.Has memory := by exact .of ‹_›) : Frame F s₀ (State.floorplanEff hd b dst length s).1 :=
  h.putOut

theorem execFloorplanRead {hd dst length} (h : Frame F s₀ s)
    (hF : F.Has (memory ||| ending) := by exact .of ‹_›) : Answers F s₀ (execFloorplanRead hd dst length s) := by
  unfold Machine.execFloorplanRead
  refine .next (h.onRunning fun _ => ?_)
  split
  · exact h.complete fun _ hs => hs.floorplanEff
  · exact h

theorem linkTestEff {port} (h : Frame F s₀ s)
    (hF : F.Has free := by exact .of ‹_›) : Frame F s₀ (State.linkTestEff port s).1 :=
  h.ite_fst h.useFree

theorem execLinkTest {hd port pattern durationMs} (h : Frame F s₀ s)
    (hF : F.Has (ending ||| free) := by exact .of ‹_›) :
    Answers F s₀ (execLinkTest hd port pattern durationMs s) :=
  .next (h.onRunning fun _ => h.complete fun _ hs => hs.linkTestEff)

/-! ### Machine/Link.lean -/

theorem setPortState {p st} (h : Frame F s₀ s)
    (hF : F.Has (logging ||| ports) := by exact .of ‹_›) : Frame F s₀ (s.setPortState p st) :=
  h.ite h.setPort.devCause.log1

theorem sendFlit {p kind payload} (h : Frame F s₀ s)
    (hF : F.Has (outs ||| ports) := by exact .of ‹_›) : Frame F s₀ (s.sendFlit p kind payload) :=
  h.setPort.emit

theorem sendStomps {p} (h : Frame F s₀ s)
    (hF : F.Has (outs ||| ports) := by exact .of ‹_›) : Frame F s₀ (s.sendStomps p) :=
  h.ite h.setPort.sendFlit

theorem pumpOnce {p} (h : Frame F s₀ s)
    (hF : F.Has (outs ||| ports) := by exact .of ‹_›) : Frame F s₀ (s.pumpOnce p) := by
  unfold State.pumpOnce
  refine h.sendStomps.ite ?_
  split
  · exact h.sendStomps
  · split
    · exact h.sendStomps
    · exact h.sendStomps.setPort.sendFlit

theorem pump {p} (h : Frame F s₀ s) (hF : F.Has (outs ||| ports) := by exact .of ‹_›) : Frame F s₀ (s.pump p) :=
  h.foldl fun _ _ hs => hs.pumpOnce

theorem routeDrop {p} (h : Frame F s₀ s)
    (hF : F.Has (logging ||| devTele) := by exact .of ‹_›) : Frame F s₀ (s.routeDrop p) :=
  h.countDev.log1

theorem enqueue {die adm relayed p} (h : Frame F s₀ s)
    (hF : F.Has sending := by exact .of ‹_›) : Frame F s₀ (s.enqueue die adm relayed p) := by
  unfold State.enqueue
  split
  · exact h.routeDrop
  · exact h.emit.setPort

theorem inject {die adm relayed p} (h : Frame F s₀ s)
    (hF : F.Has sending := by exact .of ‹_›) : Frame F s₀ (s.inject die adm relayed p) := by
  unfold State.inject
  split
  · exact h.routeDrop
  · exact h.enqueue.pump

theorem sendPacket {p} (h : Frame F s₀ s) (hF : F.Has sending := by exact .of ‹_›) : Frame F s₀ (s.sendPacket p) :=
  h.inject

theorem reroute (h : Frame F s₀ s) (hF : F.Has sending := by exact .of ‹_›) : Frame F s₀ s.reroute :=
  h.foldl fun _ _ hs => hs.pump.ite (hs.setPort.foldl fun _ _ ht => ht.inject)

theorem resend {p} (h : Frame F s₀ s) (hF : F.Has outs := by exact .of ‹_›) : Frame F s₀ (s.resend p) :=
  h.foldl fun _ _ hs => hs.emit

theorem changePort {p st} (h : Frame F s₀ s)
    (hF : F.Has sending := by exact .of ‹_›) : Frame F s₀ (s.changePort p st) :=
  (h.setPortState.resend.setPort.ite h.setPortState).reroute

theorem lockFlit {p f} (h : Frame F s₀ s) (hF : F.Has sending := by exact .of ‹_›) : Frame F s₀ (s.lockFlit p f) :=
  h.setPort.ite (h.setPort.ite h.setPort.setPort.changePort)

theorem takeAck {p f} (h : Frame F s₀ s)
    (hF : F.Has (outs ||| ports) := by exact .of ‹_›) : Frame F s₀ (s.takeAck p f) :=
  h.setPort.pump

theorem relay {p k} (h : Frame F s₀ s) (hF : F.Has sending := by exact .of ‹_›) : Frame F s₀ (s.relay p k) :=
  h.setPort.inject

theorem commit {p stomp} (h : Frame F s₀ s) (hF : F.Has ports := by exact .of ‹_›) : Frame F s₀ (s.commit p stomp) :=
  h.setPort

theorem askReplay {p} (h : Frame F s₀ s)
    (hF : F.Has (outs ||| ports) := by exact .of ‹_›) : Frame F s₀ (s.askReplay p) :=
  h.setPort.sendFlit

theorem discardLate {p} (h : Frame F s₀ s)
    (hF : F.Has (outs ||| ports) := by exact .of ‹_›) : Frame F s₀ (s.discardLate p) :=
  h.ite h.askReplay

theorem takeData {p f} (h : Frame F s₀ s) (hF : F.Has sending := by exact .of ‹_›) : Frame F s₀ (s.takeData p f) :=
  h.setPort.commit.setPort.foldl fun _ _ hs => hs.relay

theorem takeBack {q} (h : Frame F s₀ s) (hF : F.Has ports := by exact .of ‹_›) : Frame F s₀ (s.takeBack q) :=
  h.setPort

theorem takeBackAll {qs} (h : Frame F s₀ s)
    (hF : F.Has (outs ||| ports) := by exact .of ‹_›) : Frame F s₀ (s.takeBackAll qs) :=
  (h.foldl fun _ _ hs => hs.takeBack).foldl fun _ _ hs => hs.pump

theorem takeBadData {p f} (h : Frame F s₀ s)
    (hF : F.Has sending := by exact .of ‹_›) : Frame F s₀ (s.takeBadData p f) :=
  ((h.foldl fun _ _ hs => hs.inject).takeBackAll.ite h).askReplay

theorem takeStomp {p f} (h : Frame F s₀ s)
    (hF : F.Has (outs ||| ports) := by exact .of ‹_›) : Frame F s₀ (s.takeStomp p f) :=
  h.setPort.commit.takeBackAll

theorem takeReplay {p f} (h : Frame F s₀ s)
    (hF : F.Has (sending ||| bays) := by exact .of ‹_›) : Frame F s₀ (s.takeReplay p f) := by
  unfold State.takeReplay
  extract_lets _ _ _ _ s1
  have h1 : Frame F s₀ s1 := h.takeAck.setPort.foldl fun _ _ hs => hs.countBay
  exact h1.resend.setPort.changePort.ite h1.resend

theorem countFlit {p f} (h : Frame F s₀ s) (hF : F.Has ports := by exact .of ‹_›) : Frame F s₀ (s.countFlit p f) :=
  h.setPort

theorem receive {p f} (h : Frame F s₀ s)
    (hF : F.Has (sending ||| bays) := by exact .of ‹_›) : Frame F s₀ (s.receive p f) :=
  h.countFlit.lockFlit.ite (h.ite ((h.countFlit.takeBadData.ite h.countFlit.askReplay).ite
    (h.countFlit.takeReplay.ite ((h.countFlit.takeAck.takeData.ite h.countFlit.discardLate).ite
    ((h.countFlit.takeAck.takeStomp.ite h.countFlit.discardLate).ite (h.countFlit.takeAck.commit.ite
    h.countFlit.takeAck))))))

theorem idleFlits (h : Frame F s₀ s) (hF : F.Has (outs ||| ports) := by exact .of ‹_›) : Frame F s₀ s.idleFlits :=
  h.foldl fun _ _ hs => hs.sendFlit.ite hs

theorem execFlitReceive {port f} (h : Frame F s₀ s)
    (hF : F.Has (sending ||| bays) := by exact .of ‹_›) : Answers F s₀ (execFlitReceive port f s) :=
  .next h.receive

theorem execReplayRequest {port f} (h : Frame F s₀ s)
    (hF : F.Has (sending ||| bays) := by exact .of ‹_›) : Answers F s₀ (execReplayRequest port f s) :=
  .next h.receive

theorem execStompFlit {port f} (h : Frame F s₀ s)
    (hF : F.Has (sending ||| bays) := by exact .of ‹_›) : Answers F s₀ (execStompFlit port f s) :=
  .next h.receive

theorem execPacketRelay {port p} (h : Frame F s₀ s)
    (hF : F.Has sending := by exact .of ‹_›) : Answers F s₀ (execPacketRelay port p s) :=
  .next (h.relay.ite h)

theorem takePacket {k} (h : Frame F s₀ s) (hF : F.Has ports := by exact .of ‹_›) : Frame F s₀ (s.takePacket k) := by
  unfold State.takePacket
  split
  · exact h.setPort
  · exact h

theorem takeMsg {typ bay group} {pick : Packet → Bool} (h : Frame F s₀ s)
    (hF : F.Has ports := by exact .of ‹_›) : Frame F s₀ (s.takeMsg typ bay group pick) :=
  h.foldl fun _ _ hs => hs.foldl fun _ _ ht => ht.takePacket

theorem laneLost {port lane} (h : Frame F s₀ s)
    (hF : F.Has (sending ||| free) := by exact .of ‹_›) : Frame F s₀ (s.laneLost port lane) :=
  h.ite (h.setPort.setPort.useFree.log1.ite (h.setPort.setPort.changePort.ite h.setPort.setPort.changePort))

/-! ### Machine/Groups.lean -/

theorem setGroup {b g} {f : Machine.Group → Machine.Group} (h : Frame F s₀ s)
    (hF : F.Has bays := by exact .of ‹_›) : Frame F s₀ (s.setGroup b g f) :=
  h.setBay

theorem mixColl {b g c} (h : Frame F s₀ s)
    (hF : F.Has (free ||| zeroMarks ||| dram ||| sram ||| local_ ||| host) := by exact .of ‹_›) :
    Frame F s₀ (s.mixColl b g c) :=
  h.mixed

theorem sendMsg {b g lc adm member vc typ offset tag data} (h : Frame F s₀ s)
    (hF : F.Has sending := by exact .of ‹_›) : Frame F s₀ (s.sendMsg b g lc adm member vc typ offset tag data) :=
  h.foldl fun _ _ hs => hs.inject

theorem sendTo {b g lc adm member vc typ offset tag data} (h : Frame F s₀ s)
    (hF : F.Has sending := by exact .of ‹_›) : Frame F s₀ (s.sendTo b g lc adm member vc typ offset tag data) :=
  h.inject

theorem addAt {b g lc member vc ctr n err} (h : Frame F s₀ s)
    (hF : F.Has (sending ||| cmds ||| bays) := by exact .of ‹_›) :
    Frame F s₀ (s.addAt b g lc member vc ctr n err) := by
  unfold State.addAt
  split
  · exact h.bump.ite (h.sendTo.ite h)
  · exact h.bump

theorem countTrig {b t signal remote err} (h : Frame F s₀ s)
    (hF : F.Has (sending ||| cmds ||| bays) := by exact .of ‹_›) :
    Frame F s₀ (s.countTrig b t signal remote err) :=
  (h.bump.ite h).addAt.ite (h.bump.ite h)

theorem firedEnd {b t err} (h : Frame F s₀ s)
    (hF : F.Has (sending ||| cmds ||| bays) := by exact .of ‹_›) : Frame F s₀ (s.firedEnd b t err) :=
  h.countTrig

theorem passErr {b t} (h : Frame F s₀ s)
    (hF : F.Has (sending ||| cmds ||| bays) := by exact .of ‹_›) : Frame F s₀ (s.passErr b t) :=
  h.countTrig

theorem abortGroup {b g} (h : Frame F s₀ s)
    (hF : F.Has (sending ||| ending ||| free ||| zeroMarks ||| dram ||| sram ||| local_ |||
      host) := by exact .of ‹_›) :
    Frame F s₀ (s.abortGroup b g) := by
  unfold State.abortGroup
  refine .foldl (.foldl (.setBay ?_) fun _ _ hs => hs.finishNat) fun _ _ hs => ?_
  · split
    · exact h.foldl fun _ _ hs => hs.mixColl
    · exact h
  · split
    · exact hs.firedEnd
    · exact hs

theorem sendAbort {b g} (h : Frame F s₀ s)
    (hF : F.Has sending := by exact .of ‹_›) : Frame F s₀ (s.sendAbort b g) := by
  unfold State.sendAbort
  split
  · exact h.emit.foldl fun _ _ hs => hs.sendMsg
  · exact h

theorem mismatch {b g} (h : Frame F s₀ s)
    (hF : F.Has (sending ||| ending ||| free ||| zeroMarks ||| dram ||| sram ||| local_ |||
      host) := by exact .of ‹_›) :
    Frame F s₀ (s.mismatch b g) :=
  h.log2.sendAbort.abortGroup

theorem execGroupAbort {bay group} (h : Frame F s₀ s)
    (hF : F.Has (sending ||| ending ||| free ||| zeroMarks ||| dram ||| sram ||| local_ |||
      host) := by exact .of ‹_›) :
    Answers F s₀ (execGroupAbort bay group s) :=
  .next h.takeMsg.abortGroup

theorem sendJoin {node adm j} (h : Frame F s₀ s)
    (hF : F.Has sending := by exact .of ‹_›) : Frame F s₀ (s.sendJoin node adm j) :=
  h.emit.inject

theorem endJoin {b x full} (h : Frame F s₀ s)
    (hF : F.Has ending := by exact .of ‹_›) : Frame F s₀ (s.endJoin b x full) := by
  unfold State.endJoin
  split
  · exact h.setBay.fail
  · exact h.setGroup.finishNat

theorem settleJoin {b g} (h : Frame F s₀ s)
    (hF : F.Has ending := by exact .of ‹_›) : Frame F s₀ (s.settleJoin b g) := by
  unfold State.settleJoin
  split
  · exact h.endJoin.ite h
  · exact h

theorem takeJoin {j} (h : Frame F s₀ s)
    (hF : F.Has (sending ||| ending) := by exact .of ‹_›) : Frame F s₀ (s.takeJoin j) := by
  unfold State.takeJoin
  split
  · exact h.ite h.setBay
  · exact (h.ite h.sendJoin).ite (h.ite h.setGroup.settleJoin)

theorem execGroupControl {j} (h : Frame F s₀ s)
    (hF : F.Has (sending ||| ending) := by exact .of ‹_›) : Answers F s₀ (execGroupControl j s) :=
  .next h.takeMsg.takeJoin

theorem execCollGroupCreate {hd group blk} (h : Frame F s₀ s)
    (hF : F.Has (sending ||| ending) := by exact .of ‹_›) : Answers F s₀ (execCollGroupCreate hd group blk s) := by
  unfold Machine.execCollGroupCreate
  refine .next (h.onRunning fun _ => ?_)
  split
  · exact h
  · split
    · exact h.fail
    · exact (h.setActive.setBay.foldl fun _ _ hs => hs.sendJoin).settleJoin.foldl fun _ _ hs => hs.takeJoin

theorem execCollJoinTimeout {bay group} (h : Frame F s₀ s)
    (hF : F.Has ending := by exact .of ‹_›) : Answers F s₀ (execCollJoinTimeout bay group s) := by
  unfold Machine.execCollJoinTimeout
  refine .next ?_
  split
  · exact h.endJoin.ite h
  · exact h

theorem execCollGroupDestroy {hd group} (h : Frame F s₀ s)
    (hF : F.Has ending := by exact .of ‹_›) : Answers F s₀ (execCollGroupDestroy hd group s) := by
  unfold Machine.execCollGroupDestroy
  refine .next (h.onRunning fun _ => ?_)
  split
  · exact h
  · exact h.fail.ite (h.fail.ite h.setBay.finishNat)

/-! ### Machine/Update.lean -/

theorem diffRecord {b step tensor first count kind source} (h : Frame F s₀ s)
    (hF : F.Has (memory ||| bays) := by exact .of ‹_›) :
    Frame F s₀ (s.diffRecord b step tensor first count kind source) := by
  unfold State.diffRecord
  dsimp only
  split
  · exact h
  · exact h.ite h.writeBay.setBay

theorem markDirty {b blocks} (h : Frame F s₀ s)
    (hF : F.Has bays := by exact .of ‹_›) : Frame F s₀ (s.markDirty b blocks) :=
  h.setBay

theorem updateFault {b adm n rate unit} (h : Frame F s₀ s)
    (hF : F.Has (logging ||| faults ||| cmds ||| bays) := by exact .of ‹_›) :
    Frame F s₀ (s.updateFault b adm n rate unit) := by
  unfold State.updateFault
  split
  · exact h
  · exact h.setFaults.ite h.setFaults.markCorrected.countBay.log1

theorem updateBlock {b adm x p ti k gs} (h : Frame F s₀ s)
    (hF : F.Has (memory ||| logging ||| faults ||| cmds ||| bays) := by exact .of ‹_›) :
    Frame F s₀ (s.updateBlock b adm x p ti k gs) :=
  (h.updateFault.writeBay.writeBay.writeBay.ite h.updateFault.writeBay.writeBay).raise.setBay.markDirty

theorem advance {b p step source ti} (h : Frame F s₀ s)
    (hF : F.Has (memory ||| bays) := by exact .of ‹_›) : Frame F s₀ (s.advance b p step source ti) :=
  (h.setBay.diffRecord.ite h.setBay).ite h

theorem segmentRecord {b x p ti seg before} (h : Frame F s₀ s)
    (hF : F.Has (memory ||| bays) := by exact .of ‹_›) : Frame F s₀ (s.segmentRecord b x p ti seg before) :=
  h.diffRecord.ite h

theorem abortRecords {b x p} (h : Frame F s₀ s)
    (hF : F.Has (memory ||| bays) := by exact .of ‹_›) : Frame F s₀ (s.abortRecords b x p) :=
  h.foldl fun _ _ hs => hs.foldl fun _ _ ht => ht.ite (ht.foldl fun _ _ hu => hu.diffRecord)

theorem stepBlock {b adm x p limit ti} {grad : State → Nat → List Val} {gRange : Nat → List (Nat × Nat)}
    {a : State × Nat × Option Status} {k}
    (h : Frame F s₀ a.1)
    (hF : F.Has (memory ||| logging ||| faults ||| cmds ||| bays) := by exact .of ‹_›) :
    Frame F s₀ (State.stepBlock b adm x p limit ti grad gRange a k).1 := by
  unfold State.stepBlock
  dsimp only
  split
  · exact h
  · split
    · exact h
    · split
      · exact h
      · exact h.updateBlock

theorem runTensor {b adm x p limit} {grad : Nat → State → Nat → List Val} {gRange : Nat → Nat → List (Nat × Nat)}
    {a : State × Nat × Option Status} {ti}
    (h : Frame F s₀ a.1)
    (hF : F.Has (memory ||| logging ||| faults ||| cmds ||| bays) := by exact .of ‹_›) :
    Frame F s₀ (State.runTensor b adm x p limit grad gRange a ti).1 := by
  unfold State.runTensor
  refine h.ite_fst ?_
  extract_lets r1
  have h1 : Frame F s₀ r1.1 := h.foldl_fst fun _ _ hs => hs.ite_fst (hs.foldl_fst
    fun _ _ ht => ht.stepBlock).segmentRecord
  exact h1.ite_fst h1.advance

/-! ### Machine/Training.lean -/

theorem setTrain {b} {f : Train → Train} (h : Frame F s₀ s)
    (hF : F.Has bays := by exact .of ‹_›) : Frame F s₀ (s.setTrain b f) :=
  h.setBay

theorem mapLoadEff {b adm addr len} (h : Frame F s₀ s)
    (hF : F.Has bays := by exact .of ‹_›) : Frame F s₀ (State.mapLoadEff b adm addr len s).1 := by
  unfold State.mapLoadEff
  split
  · exact h
  · exact h.ite_fst (h.ite_fst (h.ite_fst h.setTrain.fst))

theorem execShardMapLoad {hd addr len} (h : Frame F s₀ s)
    (hF : F.Has (ending ||| outs) := by exact .of ‹_›) : Answers F s₀ (execShardMapLoad hd addr len s) := by
  unfold Machine.execShardMapLoad
  refine .next (h.onRunning fun _ => ?_)
  split
  · exact h.completeIn fun _ hs => hs.mapLoadEff
  · exact h

theorem setGather {b adm} {f : Gather → Gather} (h : Frame F s₀ s)
    (hF : F.Has bays := by exact .of ‹_›) : Frame F s₀ (s.setGather b adm f) :=
  h.setTrain

theorem putRemote {b adm p a bs} (h : Frame F s₀ s)
    (hF : F.Has (sending ||| bays) := by exact .of ‹_›) : Frame F s₀ (s.putRemote b adm p a bs) := by
  unfold State.putRemote
  dsimp only
  split
  · exact (h.setBay.setGather.foldl fun _ _ hs => hs.sendTo).ite h.setGather
  · exact h.setGather

theorem putRow {b adm p a bs} (h : Frame F s₀ s)
    (hF : F.Has (sending ||| memory ||| bays) := by exact .of ‹_›) : Frame F s₀ (s.putRow b adm p a bs) :=
  h.putRemote.ite h.writeBay

theorem landRows {b adm i first rows received} (h : Frame F s₀ s)
    (hF : F.Has (sending ||| memory ||| cmds ||| bays) := by exact .of ‹_›) :
    Frame F s₀ (s.landRows b adm i first rows received) := by
  unfold State.landRows
  split
  · refine h.ite ?_
    extract_lets _ _ s1
    have h1 : Frame F s₀ s1 := h.ite (h.foldl fun _ _ hs => hs.foldl fun _ _ ht => ht.putRow)
    split
    · exact h1.setGather.setSlot.setTrain.ite h1.setGather.setSlot
    · exact h1.setGather.setSlot
  · exact h

theorem dropGather {b adm} (h : Frame F s₀ s)
    (hF : F.Has bays := by exact .of ‹_›) : Frame F s₀ (s.dropGather b adm) :=
  h.setTrain

theorem settleGather {b adm} (h : Frame F s₀ s)
    (hF : F.Has ending := by exact .of ‹_›) : Frame F s₀ (s.settleGather b adm) := by
  unfold State.settleGather
  split
  · exact h.dropGather.finishNat.ite h
  · exact h

theorem gatherPut {b adm st} (h : Frame F s₀ s)
    (hF : F.Has ending := by exact .of ‹_›) : Frame F s₀ (s.gatherPut b adm st) :=
  h.setGather.settleGather

theorem failGather {b adm st bytes} (h : Frame F s₀ s)
    (hF : F.Has ending := by exact .of ‹_›) : Frame F s₀ (s.failGather b adm st bytes) :=
  h.dropGather.finishNat

theorem sendGather {b adm p g x m} (h : Frame F s₀ s)
    (hF : F.Has sending := by exact .of ‹_›) : Frame F s₀ (s.sendGather b adm p g x m) :=
  h.emit.sendMsg

theorem spreadRows {b adm x src} (h : Frame F s₀ s)
    (hF : F.Has (sending ||| memory ||| cmds ||| bays) := by exact .of ‹_›) :
    Frame F s₀ (s.spreadRows b adm x src) := by
  unfold State.spreadRows
  split
  · split
    · exact h.ite ((h.landRows.setGather.ite h.landRows).foldl fun _ _ hs => hs.sendGather)
    · exact h.landRows
  · exact h

theorem sendEntry {b adm i} (h : Frame F s₀ s)
    (hF : F.Has (sending ||| memory ||| ending) := by exact .of ‹_›) : Frame F s₀ (State.sendEntry b adm s i) := by
  unfold State.sendEntry
  split
  · dsimp only
    split
    · exact h
    · refine h.ite (h.setGather.ite (h.ite ?_))
      split
      · exact (h.logBadReads.ite h).failGather
      · exact (h.countBay.ite h).raise.setGather.spreadRows
  · exact h

theorem announceGather {b g} (h : Frame F s₀ s)
    (hF : F.Has sending := by exact .of ‹_›) : Frame F s₀ (s.announceGather b g) := by
  unfold State.announceGather
  split
  · split
    · exact h.foldl fun _ _ hs => hs.foldl fun _ _ ht => ht.sendGather
    · exact h
  · exact h

theorem pumpGather {b adm} (h : Frame F s₀ s)
    (hF : F.Has (sending ||| memory ||| ending) := by exact .of ‹_›) : Frame F s₀ (State.pumpGather b s adm) := by
  unfold State.pumpGather
  split
  · exact h
  · exact (h.foldl fun _ _ hs => hs.sendEntry).settleGather

theorem pumpGathers {b} (h : Frame F s₀ s)
    (hF : F.Has (sending ||| memory ||| ending) := by exact .of ‹_›) : Frame F s₀ (s.pumpGathers b) :=
  h.foldl fun _ _ hs => hs.pumpGather

theorem takeRows {x} (h : Frame F s₀ s)
    (hF : F.Has (sending ||| memory ||| ending ||| free) := by exact .of ‹_›) : Frame F s₀ (s.takeRows x) := by
  unfold State.takeRows
  split
  · exact h
  · exact h.mismatch.ite (h.setGather.ite h.spreadRows).settleGather

theorem freeMsg {typ b group member} (h : Frame F s₀ s)
    (hF : F.Has ports := by exact .of ‹_›) : Frame F s₀ (s.freeMsg typ b group member) := by
  unfold State.freeMsg
  split
  · exact h.takeMsg
  · exact h

theorem execGatherSegment {g} (h : Frame F s₀ s)
    (hF : F.Has (sending ||| memory ||| ending ||| free) := by exact .of ‹_›) :
    Answers F s₀ (execGatherSegment g s) :=
  .next (h.freeMsg.takeRows.ite h.freeMsg.setTrain)

theorem execStepGather {hd step entries} (h : Frame F s₀ s)
    (hF : F.Has (sending ||| memory ||| ending ||| free) := by exact .of ‹_›) :
    Answers F s₀ (execStepGather hd step entries s) := by
  unfold Machine.execStepGather
  refine .next (h.onRunning fun _ => ?_)
  split
  · exact h
  · split
    · exact h.fail
    · split
      · exact h.fail
      · exact h.fail.ite (h.setActive.countBay.setTrain.announceGather.pumpGather.foldl fun _ _ hs => hs.takeRows)

theorem sweep {b adm x p limit} (h : Frame F s₀ s)
    (hF : F.Has (sending ||| memory ||| ending ||| faults) := by exact .of ‹_›) :
    Frame F s₀ (State.sweep b adm x p limit s).1 := by
  unfold State.sweep
  extract_lets r1
  have h1 : Frame F s₀ r1.1 := h.foldl_fst fun _ _ hs => hs.runTensor
  exact (h1.abortRecords.ite h1).pumpGathers

theorem stepUpdateEff {b c hp step clip stoch limit} (h : Frame F s₀ s)
    (hF : F.Has (sending ||| memory ||| ending ||| faults) := by exact .of ‹_›) :
    Frame F s₀ (State.stepUpdateEff b c hp step clip stoch limit s).1 := by
  unfold State.stepUpdateEff
  dsimp only
  split
  · exact h
  · split
    · exact h
    · refine h.ite_fst ?_
      split
      · exact h
      · exact h.ite_fst h.sweep

theorem execStepUpdate {hd hpAddr step clip stoch} (h : Frame F s₀ s)
    (hF : F.Has (sending ||| memory ||| ending ||| faults) := by exact .of ‹_›) :
    Answers F s₀ (execStepUpdate hd hpAddr step clip stoch s) := by
  unfold Machine.execStepUpdate
  refine .next (h.onRunning fun _ => ?_)
  split
  · exact h.completeIn fun _ hs => hs.stepUpdateEff
  · exact h

theorem sendNorm {b adm p index opcode a} (h : Frame F s₀ s)
    (hF : F.Has sending := by exact .of ‹_›) : Frame F s₀ (s.sendNorm b adm p index opcode a) := by
  unfold State.sendNorm
  split
  · exact h.foldl fun _ _ hs => hs.emit.sendMsg
  · exact h

theorem settleNorm {b w p} (h : Frame F s₀ s)
    (hF : F.Has ending := by exact .of ‹_›) : Frame F s₀ (s.settleNorm b w p) :=
  h.ite h.raise.setTrain.finishNat

theorem settleArm {b p} (h : Frame F s₀ s)
    (hF : F.Has ending := by exact .of ‹_›) : Frame F s₀ (s.settleArm b p) := by
  unfold State.settleArm
  split
  · exact h
  · exact h.ite h.raise.setTrain.finishNat

theorem takeNorm {b index member a} (h : Frame F s₀ s)
    (hF : F.Has ending := by exact .of ‹_›) : Frame F s₀ (s.takeNorm b index member a) := by
  unfold State.takeNorm
  dsimp only
  split
  · exact h
  · split
    · exact h.ite h.setTrain.settleNorm
    · split
      · exact (h.ite h.setTrain.settleArm).ite h.setTrain
      · exact h.setTrain

theorem takeEarlyNorms {b index} (h : Frame F s₀ s)
    (hF : F.Has ending := by exact .of ‹_›) : Frame F s₀ (s.takeEarlyNorms b index) :=
  h.setTrain.foldl fun _ _ hs => hs.takeNorm

theorem execNormClip {hd group step maxNorm} (h : Frame F s₀ s)
    (hF : F.Has (sending ||| ending) := by exact .of ‹_›) : Answers F s₀ (execNormClip hd group step maxNorm s) := by
  unfold Machine.execNormClip
  refine .next (h.onRunning fun _ => ?_)
  split
  · exact h
  · split
    · exact h.fail
    · split
      · exact h.failIn
      · exact h.fail.ite h.setActive.setTrain.sendNorm.settleNorm.takeEarlyNorms

theorem advanceEmpty {b p step} (h : Frame F s₀ s)
    (hF : F.Has (memory ||| bays) := by exact .of ‹_›) : Frame F s₀ (s.advanceEmpty b p step) :=
  h.foldl fun _ _ hs => hs.ite hs.advance

theorem armNorm {b p} (h : Frame F s₀ s)
    (hF : F.Has (sending ||| memory ||| ending) := by exact .of ‹_›) : Frame F s₀ (s.armNorm b p) := by
  unfold State.armNorm
  split
  · exact h
  · exact h.setTrain.advanceEmpty.sendNorm.settleArm.ite h

theorem applySegment {b p a t gs} (h : Frame F s₀ s)
    (hF : F.Has (sending ||| memory ||| ending ||| faults) := by exact .of ‹_›) :
    Frame F s₀ (s.applySegment b p a t gs) := by
  unfold State.applySegment
  extract_lets _ _ _ s1
  have h1 : Frame F s₀ s1 := h.setTrain
  split
  · exact h1.fst.runTensor.abortRecords.setTrain.failIn
  · exact h1.fst.runTensor.pumpGathers.armNorm

theorem execUpdateSegmentArrival {bay tensorId elems} (h : Frame F s₀ s)
    (hF : F.Has (sending ||| memory ||| ending ||| faults) := by exact .of ‹_›) :
    Answers F s₀ (execUpdateSegmentArrival bay tensorId elems s) := by
  unfold Machine.execUpdateSegmentArrival
  refine .next ?_
  split
  · split
    · exact h.applySegment.ite h
    · exact h
  · exact h

theorem execUpdateArm {hd hpAddr step group clip} (h : Frame F s₀ s)
    (hF : F.Has (sending ||| memory ||| ending) := by exact .of ‹_›) :
    Answers F s₀ (execUpdateArm hd hpAddr step group clip s) := by
  unfold Machine.execUpdateArm
  refine .next (h.onRunning fun _ => ?_)
  split
  · exact h
  · dsimp only
    split
    · exact h.fail
    · split
      · exact h.failIn
      · exact h.fail.ite (h.fail.ite h.setActive.raise.setTrain.armNorm.takeEarlyNorms)

theorem execUpdateDisarm {hd step} (h : Frame F s₀ s)
    (hF : F.Has ending := by exact .of ‹_›) : Answers F s₀ (execUpdateDisarm hd step s) := by
  unfold Machine.execUpdateDisarm
  refine .next (h.onRunning fun _ => ?_)
  split
  · exact h
  · split
    · exact h.fail.ite (h.fail.ite h.setTrain.fail.finishNat)
    · exact h.fail

theorem exportEff {b dst maxBytes fromStep} (h : Frame F s₀ s)
    (hF : F.Has (memory ||| free) := by exact .of ‹_›) :
    Frame F s₀ (State.exportEff b dst maxBytes fromStep s).1 := by
  unfold State.exportEff
  split
  · exact h
  · split
    · exact h
    · exact h.ite_fst (h.useFree.ite h).putOut

theorem execExportStream {hd dst maxBytes fromStep} (h : Frame F s₀ s)
    (hF : F.Has (memory ||| ending ||| free ||| outs) := by exact .of ‹_›) :
    Answers F s₀ (execExportStream hd dst maxBytes fromStep s) := by
  unfold Machine.execExportStream
  refine .next (h.onRunning fun _ => ?_)
  split
  · exact h.completeIn fun _ hs => hs.exportEff
  · exact h

/-! ### Machine/Collectives.lean -/

theorem setColl {b group index} {f : Coll → Coll} (h : Frame F s₀ s)
    (hF : F.Has bays := by exact .of ‹_›) : Frame F s₀ (s.setColl b group index f) :=
  h.setBay

theorem sendSeg {b g c final k m} (h : Frame F s₀ s)
    (hF : F.Has sending := by exact .of ‹_›) : Frame F s₀ (s.sendSeg b g c final k m) :=
  h.emit.sendMsg

theorem learnFinal {b g index k src} (h : Frame F s₀ s)
    (hF : F.Has (sending ||| bays) := by exact .of ‹_›) : Frame F s₀ (s.learnFinal b g index k src) := by
  unfold State.learnFinal
  split
  · exact h
  · exact h.ite (h.setColl.foldl fun _ _ hs => hs.sendSeg)

theorem rootDone {b g c first vs} (h : Frame F s₀ s)
    (hF : F.Has (sending ||| bays) := by exact .of ‹_›) : Frame F s₀ (s.rootDone b g c first vs) :=
  h.raise.learnFinal.ite (h.raise.foldl fun _ _ hs => hs.ite (hs.setColl.ite hs.sendSeg))

theorem reductionFault {group chunk} (h : Frame F s₀ s)
    (hF : F.Has faults := by exact .of ‹_›) : Frame F s₀ (s.reductionFault group chunk).2 := by
  unfold State.reductionFault
  split
  · exact h.setFaults
  · exact h

theorem reduceChunk {b c cluster first l r} (h : Frame F s₀ s)
    (hF : F.Has (logging ||| faults ||| clusters ||| lfailed ||| bays) := by exact .of ‹_›) :
    Frame F s₀ (s.reduceChunk b c cluster first l r).1 := by
  unfold State.reduceChunk
  refine h.reductionFault.raise.ite_fst ?_
  extract_lets _ _ logged corrected
  have hc : Frame F s₀ corrected := h.reductionFault.raise.countBay.log1.setColl
  exact hc.ite_fst hc.askRetire.failAtRisk

theorem knowPartial {b g c k} (h : Frame F s₀ s)
    (hF : F.Has (sending ||| bays) := by exact .of ‹_›) : Frame F s₀ (s.knowPartial b g c k) := by
  unfold State.knowPartial
  refine h.setColl.rootDone.ite ?_
  split
  · exact h.setColl.ite h.setColl.sendSeg
  · exact h.setColl

theorem addChunk {b g index first} (h : Frame F s₀ s)
    (hF : F.Has (sending ||| faults ||| clusters ||| lfailed ||| bays) := by exact .of ‹_›) :
    Frame F s₀ (State.addChunk b g index first s).1 := by
  unfold State.addChunk
  split
  · exact h
  · refine h.foldl_fst fun _ _ hs => ?_
    split
    · split
      · dsimp only
        split
        · exact hs.reduceChunk.knowPartial
        · exact hs.reduceChunk
      · exact hs
    · exact hs

theorem endColl {b c st result} (h : Frame F s₀ s)
    (hF : F.Has (sending ||| ending) := by exact .of ‹_›) : Frame F s₀ (s.endColl b c st result) := by
  unfold State.endColl
  dsimp only
  split
  · exact h.setBay.finishNat
  · exact h.setBay.firedEnd
  · exact h.setBay

theorem writeColl {b g c} (h : Frame F s₀ s)
    (hF : F.Has (sending ||| memory ||| ending ||| faults) := by exact .of ‹_›) :
    Frame F s₀ (s.writeColl b g c).2 := by
  unfold State.writeColl
  dsimp only
  split
  · exact h.ite h.applySegment
  · split
    · exact h
    · exact h.foldl fun _ _ hs => hs.writeBay

theorem settleColl {b g index} (h : Frame F s₀ s)
    (hF : F.Has (sending ||| memory ||| ending ||| faults) := by exact .of ‹_›) :
    Frame F s₀ (s.settleColl b g index) := by
  unfold State.settleColl
  split
  · exact h
  · exact h.writeColl.setGroup.endColl.ite h

theorem settleColls {b} (h : Frame F s₀ s)
    (hF : F.Has (sending ||| memory ||| ending ||| faults) := by exact .of ‹_›) : Frame F s₀ (s.settleColls b) := by
  unfold State.settleColls
  refine h.foldl fun _ _ hs => ?_
  split
  · exact hs.settleColl
  · exact hs

theorem failColl {b group index st} (h : Frame F s₀ s)
    (hF : F.Has (sending ||| ending) := by exact .of ‹_›) : Frame F s₀ (s.failColl b group index st) := by
  unfold State.failColl
  split
  · exact h.endColl
  · exact h

theorem startColl {b g c} (h : Frame F s₀ s)
    (hF : F.Has (sending ||| memory ||| ending ||| faults ||| clusters ||| lfailed) := by exact .of ‹_›) :
    Frame F s₀ (s.startColl b g c) := by
  unfold State.startColl
  extract_lets _ _ _ _ _ sent _ starts known added
  have hsent : Frame F s₀ sent := h.setBay.foldl fun _ _ hs => hs.sendSeg
  have hknown : Frame F s₀ known := hsent.foldl fun _ _ hs => hs.foldl fun _ _ ht => ht.knowPartial
  have hadded : Frame F s₀ added.1 := hknown.foldl_fst fun _ _ hs => hs.addChunk.ite_fst hs
  refine (hadded.settleColl.ite hadded.failColl).ite
    ((hsent.foldl fun _ _ hs => hs.foldl fun _ _ ht => ht.learnFinal).settleColl.ite ?_)
  split
  · exact (hsent.foldl fun _ _ hs => hs.learnFinal).settleColl
  · exact hsent.settleColl

theorem takeSeg {x} (h : Frame F s₀ s)
    (hF : F.Has (sending ||| memory ||| ending ||| free ||| faults ||| clusters ||| lfailed) := by exact .of ‹_›) :
    Frame F s₀ (s.takeSeg x) := by
  unfold State.takeSeg
  split
  · exact h.mismatch.ite (h.setColl.settleColl.ite (h.setColl.learnFinal.settleColl.ite (h.setColl.ite
      (h.setColl.setColl.addChunk.settleColl.ite h.setColl.setColl.addChunk.failColl))))
  · exact h

theorem execCollectiveSegment {g} (h : Frame F s₀ s)
    (hF : F.Has (sending ||| memory ||| ending ||| free ||| faults ||| clusters ||| lfailed) := by exact .of ‹_›) :
    Answers F s₀ (execCollectiveSegment g s) :=
  .next (h.freeMsg.takeNorm.ite (h.freeMsg.takeSeg.ite (h.freeMsg.setBay.ite h.freeMsg)))

theorem takeEarlySegs {b group index} (h : Frame F s₀ s)
    (hF : F.Has (sending ||| memory ||| ending ||| free ||| faults ||| clusters ||| lfailed) := by exact .of ‹_›) :
    Frame F s₀ (s.takeEarlySegs b group index) :=
  h.setBay.foldl fun _ _ hs => hs.takeSeg

theorem runColl {hd c opcode o} (h : Frame F s₀ s)
    (hF : F.Has (sending ||| memory ||| ending ||| free ||| faults ||| clusters ||| lfailed) := by exact .of ‹_›) :
    Frame F s₀ (s.runColl hd c opcode o) := by
  unfold State.runColl
  split
  · exact h
  · split
    · exact h.fail
    · split
      · exact h.fail
      · split
        · exact h.failIn
        · exact h.setActive.startColl.takeEarlySegs

theorem execCollAllreduce {hd o} (h : Frame F s₀ s)
    (hF : F.Has (sending ||| memory ||| ending ||| free ||| faults ||| clusters ||| lfailed) := by exact .of ‹_›) :
    Answers F s₀ (execCollAllreduce hd o s) :=
  .next (h.onRunning fun _ => h.runColl)

theorem execCollAllgather {hd o} (h : Frame F s₀ s)
    (hF : F.Has (sending ||| memory ||| ending ||| free ||| faults ||| clusters ||| lfailed) := by exact .of ‹_›) :
    Answers F s₀ (execCollAllgather hd o s) :=
  .next (h.onRunning fun _ => h.runColl)

theorem execCollReduceScatter {hd o} (h : Frame F s₀ s)
    (hF : F.Has (sending ||| memory ||| ending ||| free ||| faults ||| clusters ||| lfailed) := by exact .of ‹_›) :
    Answers F s₀ (execCollReduceScatter hd o s) :=
  .next (h.onRunning fun _ => h.runColl)

theorem execCollBroadcast {hd o} (h : Frame F s₀ s)
    (hF : F.Has (sending ||| memory ||| ending ||| free ||| faults ||| clusters ||| lfailed) := by exact .of ‹_›) :
    Answers F s₀ (execCollBroadcast hd o s) :=
  .next (h.onRunning fun _ => h.runColl)

theorem execCollSilentTimeout {bay group} (h : Frame F s₀ s)
    (hF : F.Has (sending ||| ending ||| free ||| zeroMarks ||| dram ||| sram ||| local_ |||
      host) := by exact .of ‹_›) :
    Answers F s₀ (execCollSilentTimeout bay group s) := by
  unfold Machine.execCollSilentTimeout
  refine .next ?_
  split
  · exact h
  · dsimp only
    split
    · exact h.endColl.sendAbort.abortGroup
    · exact h

/-! ### Machine/Memory.lean -/

theorem copyLocal {b tag src dst n} (h : Frame F s₀ s)
    (hF : F.Has (memory ||| outs ||| bays) := by exact .of ‹_›) :
    Frame F s₀ (State.copyLocal b tag src dst n s).1 :=
  h.writeBay.logPoisonRead.ite h.writeBay

theorem memFillEff {b dst n pattern} (h : Frame F s₀ s)
    (hF : F.Has memory := by exact .of ‹_›) : Frame F s₀ (State.memFillEff b dst n pattern s).1 :=
  h.writeBay

theorem execMemFill {hd dst length pattern} (h : Frame F s₀ s)
    (hF : F.Has (memory ||| ending) := by exact .of ‹_›) : Answers F s₀ (execMemFill hd dst length pattern s) := by
  unfold Machine.execMemFill
  refine .next (h.onRunning fun _ => ?_)
  split
  · exact h.complete fun _ hs => hs.memFillEff
  · exact h

theorem memMapEff {b o} (h : Frame F s₀ s)
    (hF : F.Has bays := by exact .of ‹_›) : Frame F s₀ (State.memMapEff b o s).1 := by
  unfold State.memMapEff
  split
  · exact h
  · exact h.setBay

theorem execMemMap {hd o} (h : Frame F s₀ s)
    (hF : F.Has ending := by exact .of ‹_›) : Answers F s₀ (execMemMap hd o s) := by
  unfold Machine.execMemMap
  refine .next (h.onRunning fun _ => ?_)
  split
  · exact h.complete fun _ hs => hs.memMapEff
  · exact h

theorem copyPage {src dst n} (h : Frame F s₀ s)
    (hF : F.Has memory := by exact .of ‹_›) : Frame F s₀ (s.copyPage src dst n) := by
  have hc : Frame F s₀ (s.clearLoc ⟨.dram, dst⟩ n) := h.clearLoc
  refine { hc with zeroMarks_eq := hF.may, dram_eq := hF.may, canonical := fun hs => ?_ }
  obtain ⟨hdram, hrest⟩ := hc.canonical hs
  exact ⟨Mem.wf_fold _ _ (fun _ _ hm => Mem.wf_set hm _ _) hdram, hrest⟩

theorem movePage {b dest p} (h : Frame F s₀ s)
    (hF : F.Has (memory ||| bays) := by exact .of ‹_›) : Frame F s₀ (s.movePage b dest p) := by
  unfold State.movePage
  split
  · exact h
  · exact h.copyPage.setBay

theorem movePages {b dest ps} (h : Frame F s₀ s)
    (hF : F.Has (memory ||| bays) := by exact .of ‹_›) : Frame F s₀ (s.movePages b dest ps).1 := by
  induction ps generalizing s with
  | nil => exact h
  | cons p ps ih =>
    unfold State.movePages
    split
    · exact h
    · exact ih h.movePage

theorem memPlaceEff {b addr n dest} (h : Frame F s₀ s)
    (hF : F.Has (memory ||| bays) := by exact .of ‹_›) : Frame F s₀ (State.memPlaceEff b addr n dest s).1 := by
  unfold State.memPlaceEff
  split
  · exact h
  · exact h.movePages

theorem execMemPlace {hd addr length dest} (h : Frame F s₀ s)
    (hF : F.Has (memory ||| ending ||| outs) := by exact .of ‹_›) :
    Answers F s₀ (execMemPlace hd addr length dest s) := by
  unfold Machine.execMemPlace
  refine .next (h.onRunning fun _ => ?_)
  split
  · exact h.completeIn fun _ hs => hs.memPlaceEff
  · exact h

/-! ### Machine/Security.lean -/

theorem setKey {b slot k} (h : Frame F s₀ s) (hF : F.Has bays := by exact .of ‹_›) : Frame F s₀ (s.setKey b slot k) :=
  h.setBay

theorem keyLoadEff {b slot mode key} (h : Frame F s₀ s)
    (hF : F.Has bays := by exact .of ‹_›) : Frame F s₀ (State.keyLoadEff b slot mode key s).1 := by
  unfold State.keyLoadEff
  refine h.ite_fst (h.ite_fst ?_)
  split
  · exact h
  · exact h.setKey.setBay.ite h.setKey

theorem execKeyLoad {hd slot mode addr} (h : Frame F s₀ s)
    (hF : F.Has (ending ||| outs) := by exact .of ‹_›) : Answers F s₀ (execKeyLoad hd slot mode addr s) := by
  unfold Machine.execKeyLoad
  refine .next (h.onRunning fun _ => ?_)
  split
  · exact h
  · split
    · exact h.logBadReads.fail
    · exact h.setActive.setSlot.ite (h.setSlot.ite (h.complete fun _ hs => hs.keyLoadEff))

theorem execKeyErase {hd slot} (h : Frame F s₀ s)
    (hF : F.Has ending := by exact .of ‹_›) : Answers F s₀ (execKeyErase hd slot s) := by
  unfold Machine.execKeyErase
  refine .next (h.onRunning fun _ => ?_)
  split
  · exact h
  · exact h.fail.ite (h.ite (h.foldl fun _ _ hs => hs.setKey).finishNat)

theorem execAlarmConditionCleared (h : Frame F s₀ s)
    (hF : F.Has (ending ||| dev ||| trng) := by exact .of ‹_›) : Answers F s₀ (execAlarmConditionCleared s) := by
  unfold Machine.execAlarmConditionCleared
  refine .next (foldl ?_ fun _ _ hs => ?_)
  · dsimp only
    split
    · exact { h with dev_eq := hF.may, trng_eq := hF.may }
    · exact h.setDev
  · split
    · exact hs.setSlot.ite (hs.complete fun _ ht => ht.keyLoadEff)
    · exact hs

theorem strikeCipher {b tag} (h : Frame F s₀ s)
    (hF : F.Has (logging ||| faults ||| bays) := by exact .of ‹_›) : Frame F s₀ (s.strikeCipher b tag) :=
  h.setFaults.foldl fun _ _ hs => hs.countBay.log1

theorem cipherEff {b o} (h : Frame F s₀ s)
    (hF : F.Has memory := by exact .of ‹_›) : Frame F s₀ (State.cipherEff b o s).1 := by
  unfold State.cipherEff
  refine h.ite_fst ?_
  split
  · exact h
  · dsimp only
    split
    · exact h
    · split
      · exact h
      · refine .ite_fst ?_ h.writeBay.writeBay.fst
        split
        · exact h.writeBay.fst
        · exact h.writeBay.fst
      · exact h.writeBay.fst

theorem execCipherRun {hd o} (h : Frame F s₀ s)
    (hF : F.Has (memory ||| ending ||| logging ||| faults) := by exact .of ‹_›) :
    Answers F s₀ (execCipherRun hd o s) := by
  unfold Machine.execCipherRun
  refine .next (h.onRunning fun _ => ?_)
  split
  · exact h.completeIn fun _ hs => hs.cipherEff.strikeCipher.ite_fst hs.cipherEff
  · exact h

theorem digestEff {b src dst length} (h : Frame F s₀ s)
    (hF : F.Has memory := by exact .of ‹_›) : Frame F s₀ (State.digestEff b src dst length s).1 := by
  unfold State.digestEff
  split
  · exact h
  · exact h.writeBay

theorem execDigestRun {hd src dst length} (h : Frame F s₀ s)
    (hF : F.Has (memory ||| ending ||| outs) := by exact .of ‹_›) :
    Answers F s₀ (execDigestRun hd src dst length s) := by
  unfold Machine.execDigestRun
  refine .next (h.onRunning fun _ => ?_)
  split
  · exact h.completeIn fun _ hs => hs.digestEff
  · exact h

theorem serveOne (h : Frame F s₀ s)
    (hF : F.Has (memory ||| ending ||| trng) := by exact .of ‹_›) : Frame F s₀ s.serveOne := by
  unfold State.serveOne
  split
  · exact h
  · split
    · exact h
    · exact h.ite (h.setTrng.complete fun _ hs => hs.putOut)

theorem serveAll {n} (h : Frame F s₀ s)
    (hF : F.Has (memory ||| ending ||| trng) := by exact .of ‹_›) : Frame F s₀ (State.serveAll n s) := by
  induction n generalizing s with
  | zero => exact h
  | succ n ih => exact ih h.serveOne

theorem execEntropyRead {hd dst length} (h : Frame F s₀ s)
    (hF : F.Has (memory ||| ending ||| trng) := by exact .of ‹_›) :
    Answers F s₀ (execEntropyRead hd dst length s) := by
  unfold Machine.execEntropyRead
  refine .next (h.onRunning fun _ => ?_)
  split
  · exact h
  · exact h.fail.ite (h.fail.ite h.setActive.setTrng.serveAll)

theorem trngFail (h : Frame F s₀ s)
    (hF : F.Has (ending ||| logging ||| trng) := by exact .of ‹_›) : Frame F s₀ s.trngFail :=
  (h.setTrng.foldl fun _ _ hs => hs.fail).log1.ite (h.setTrng.foldl fun _ _ hs => hs.fail)

theorem execTrngOutput {samples} (h : Frame F s₀ s)
    (hF : F.Has (memory ||| ending ||| logging ||| trng) := by exact .of ‹_›) :
    Answers F s₀ (execTrngOutput samples s) :=
  .next ((h.trngFail.ite (h.setTrng.setTrng.serveAll.ite h.setTrng)).ite h)

theorem execTrngHealthFailure (h : Frame F s₀ s)
    (hF : F.Has (ending ||| logging ||| trng) := by exact .of ‹_›) : Answers F s₀ (execTrngHealthFailure s) :=
  .next h.trngFail

theorem execTrngStartupDone (h : Frame F s₀ s)
    (hF : F.Has trng := by exact .of ‹_›) : Answers F s₀ (execTrngStartupDone s) :=
  .next (h.ite h.setTrng)

/-! ### Machine/Cuts.lean -/

theorem setCkpt {b} {f : Ckpt → Ckpt} (h : Frame F s₀ s)
    (hF : F.Has bays := by exact .of ‹_›) : Frame F s₀ (s.setCkpt b f) :=
  h.setBay

theorem setCut {b} {f : Cut → Cut} (h : Frame F s₀ s)
    (hF : F.Has bays := by exact .of ‹_›) : Frame F s₀ (s.setCut b f) :=
  h.setCkpt

theorem beginCopy {b step} (h : Frame F s₀ s)
    (hF : F.Has bays := by exact .of ‹_›) : Frame F s₀ (s.beginCopy b step) :=
  h.setCut

theorem discardCut {b} (h : Frame F s₀ s) (hF : F.Has bays := by exact .of ‹_›) : Frame F s₀ (s.discardCut b) :=
  h.setCkpt

theorem copyKerf {b ks} (h : Frame F s₀ s) (hF : F.Has memory := by exact .of ‹_›) : Frame F s₀ (s.copyKerf b ks) :=
  h.foldl fun _ _ hs => hs.writeAcc

theorem takePredictive {b} (h : Frame F s₀ s)
    (hF : F.Has (outs ||| bays) := by exact .of ‹_›) : Frame F s₀ (s.takePredictive b) := by
  unfold State.takePredictive
  dsimp only
  split
  · exact h.log2
  · exact h.log2
  · exact h.log2.ite (h.log2.ite h.setCkpt)

theorem execPredictiveCut {bay} (h : Frame F s₀ s)
    (hF : F.Has (outs ||| bays) := by exact .of ‹_›) : Answers F s₀ (execPredictiveCut bay s) :=
  .next (h.setBay.takePredictive.ite h)

theorem drained {b adm mark} (h : Frame F s₀ s)
    (hF : F.Has bays := by exact .of ‹_›) : Frame F s₀ (s.drained b adm mark) :=
  h.setCkpt

theorem endDrain {b adm st result mark} (h : Frame F s₀ s)
    (hF : F.Has ending := by exact .of ‹_›) : Frame F s₀ (s.endDrain b adm st result mark) :=
  (h.drained.ite h.setCut).finishNat

theorem strikeCodec {b len adm fs} (h : Frame F s₀ s)
    (hF : F.Has (logging ||| cmds ||| codecFenced ||| bays) := by exact .of ‹_›) :
    Frame F s₀ (State.strikeCodec b len adm fs s).2 := by
  induction fs generalizing s with
  | nil => exact h
  | cons f fs ih =>
    have struck : ∀ r, Frame F s₀ (match adm with
        | some a => (((s.countBay b 15 1).countBay b 4 (encodeCycles len)).log1 r).markCorrected a
        | none => ((s.countBay b 15 1).countBay b 4 (encodeCycles len)).log1 r) := fun r => by
      split
      · exact h.countBay.countBay.log1.markCorrected
      · exact h.countBay.countBay.log1
    unfold State.strikeCodec
    split
    · exact h
    · split
      · exact ih h
      · dsimp only
        split
        · exact struck _
        · exact ih (struck _).setCodecFenced.countBay.log12

theorem useCodec {b len adm} (h : Frame F s₀ s)
    (hF : F.Has (logging ||| faults ||| cmds ||| codecFenced ||| bays) := by exact .of ‹_›) :
    Frame F s₀ (s.useCodec b len adm).1 :=
  h.ite_fst h.strikeCodec.setFaults

theorem useCodecs {b adm ls} (h : Frame F s₀ s)
    (hF : F.Has (logging ||| faults ||| cmds ||| codecFenced ||| bays) := by exact .of ‹_›) :
    Frame F s₀ (State.useCodecs b adm ls s).1 := by
  induction ls generalizing s with
  | nil => exact h
  | cons len ls ih =>
    unfold State.useCodecs
    dsimp only
    split
    · exact ih h.useCodec
    · exact h.useCodec

/-! ### Machine/Transfers.lean -/

theorem endXfer {b x} (h : Frame F s₀ s)
    (hF : F.Has (sending ||| ending) := by exact .of ‹_›) : Frame F s₀ (s.endXfer b x) := by
  unfold State.endXfer
  split
  · split
    · split
      · exact h.endDrain
      · exact h.gatherPut
      · exact h.finishNat
    · exact h
  · exact h.firedEnd
  · exact h

theorem putXfer {b i x} (h : Frame F s₀ s)
    (hF : F.Has (sending ||| ending) := by exact .of ‹_›) : Frame F s₀ (s.putXfer b i x) :=
  h.setBay.endXfer.ite h.setBay

theorem sendChunks {b g x m} {data : Nat → Nat → List Byte} {bad : Nat → Nat → Option Nat} (h : Frame F s₀ s)
    (hF : F.Has (sending ||| ending) := by exact .of ‹_›) : Frame F s₀ (s.sendChunks b g x m data bad) :=
  (h.setBay.foldl fun _ _ hs => hs.sendTo).putXfer

theorem askChunks {b g x m} (h : Frame F s₀ s)
    (hF : F.Has (sending ||| bays) := by exact .of ‹_›) : Frame F s₀ (s.askChunks b g x m) :=
  h.setBay.foldl fun _ _ hs => hs.sendTo

theorem startXfer {b group vc adm trig src dst n} (h : Frame F s₀ s)
    (hF : F.Has (sending ||| ending ||| free) := by exact .of ‹_›) :
    Frame F s₀ (s.startXfer b group vc adm trig src dst n) := by
  unfold State.startXfer
  dsimp only
  split
  · exact h.endXfer
  · refine h.endXfer.ite ?_
    split
    · exact h.askChunks
    · refine .sendChunks ?_
      split
      · exact (h.lateReads.ite h).logBadReads.ite (h.lateReads.ite h)
      · exact h.lateReads.ite h
    · exact h.endXfer

theorem execMemCopy {hd src dst length} (h : Frame F s₀ s)
    (hF : F.Has (sending ||| memory ||| ending ||| free) := by exact .of ‹_›) :
    Answers F s₀ (execMemCopy hd src dst length s) := by
  unfold Machine.execMemCopy
  refine .next (h.onRunning fun _ => ?_)
  split
  · exact h
  · exact (h.complete fun _ hs => hs.copyLocal).ite h.setActive.startXfer

theorem answer {p code data} (h : Frame F s₀ s)
    (hF : F.Has sending := by exact .of ‹_›) : Frame F s₀ (s.answer p code data) :=
  h.sendPacket

theorem execFabricWrite {p} (h : Frame F s₀ s)
    (hF : F.Has (sending ||| memory) := by exact .of ‹_›) : Answers F s₀ (execFabricWrite p s) :=
  .next (h.ite (h.takePacket.answer.ite h.takePacket.writeBay.answer))

theorem execReadRequest {p} (h : Frame F s₀ s)
    (hF : F.Has (sending ||| free ||| bays) := by exact .of ‹_›) : Answers F s₀ (execReadRequest p s) :=
  .next (h.ite (h.takePacket.answer.ite (h.takePacket.logBadReads.answer.ite h.takePacket.lateReads.answer)))

theorem landChunk {b a bs} (h : Frame F s₀ s)
    (hF : F.Has memory := by exact .of ‹_›) : Frame F s₀ (s.landChunk b a bs).1 :=
  h.ite_fst h.writeBay

theorem execReadResponse {p} (h : Frame F s₀ s)
    (hF : F.Has (sending ||| memory ||| ending) := by exact .of ‹_›) : Answers F s₀ (execReadResponse p s) := by
  unfold Machine.execReadResponse
  refine .next (h.ite ?_)
  dsimp only
  split
  · exact h.takePacket
  · split
    · exact h.takePacket
    · refine h.takePacket.putXfer.ite ?_
      split
      · exact h.takePacket.landChunk.putXfer
      · exact h.takePacket.setBay.sendTo

theorem execCounterAdd {p} (h : Frame F s₀ s)
    (hF : F.Has (cmds ||| ports ||| bays) := by exact .of ‹_›) : Answers F s₀ (execCounterAdd p s) :=
  .next (h.ite (h.takePacket.ite h.takePacket.bump))

theorem execTriggerArm {hd t} (h : Frame F s₀ s)
    (hF : F.Has ending := by exact .of ‹_›) : Answers F s₀ (execTriggerArm hd t s) := by
  unfold Machine.execTriggerArm
  refine .next (h.onRunning fun _ => ?_)
  split
  · exact h
  · split
    · exact h.fail
    · exact h.setBay.finishNat

theorem execTriggerDisarm {hd handle} (h : Frame F s₀ s)
    (hF : F.Has ending := by exact .of ‹_›) : Answers F s₀ (execTriggerDisarm hd handle s) := by
  unfold Machine.execTriggerDisarm
  refine .next (h.onRunning fun _ => ?_)
  split
  · exact h
  · split
    · exact h.fail
    · exact h.fail.ite h.setBay.finishNat

theorem fireColl {b t} (h : Frame F s₀ s)
    (hF : F.Has (sending ||| memory ||| ending ||| free ||| faults ||| clusters ||| lfailed) := by exact .of ‹_›) :
    Frame F s₀ (s.fireColl b t) := by
  unfold State.fireColl
  dsimp only
  split
  · split
    · exact h.setGroup.firedEnd
    · exact h.setGroup.startColl.takeEarlySegs
  · exact h.firedEnd

theorem fireEffect {b t} (h : Frame F s₀ s)
    (hF : F.Has (sending ||| memory ||| ending ||| free ||| faults ||| clusters ||| lfailed) := by exact .of ‹_›) :
    Frame F s₀ (s.fireEffect b t) := by
  unfold State.fireEffect
  dsimp only
  split
  · exact h.addAt.firedEnd.ite h.firedEnd
  · exact h.fireColl
  · exact h.bump.firedEnd
  · exact h.copyLocal.firedEnd.ite h.startXfer

theorem afterFire {b handle} (h : Frame F s₀ s)
    (hF : F.Has bays := by exact .of ‹_›) : Frame F s₀ (s.afterFire b handle) :=
  h.setBay

theorem execTriggerFire {bay handle} (h : Frame F s₀ s)
    (hF : F.Has (sending ||| memory ||| ending ||| free ||| faults ||| clusters ||| lfailed) := by exact .of ‹_›) :
    Answers F s₀ (execTriggerFire bay handle s) := by
  unfold Machine.execTriggerFire
  refine .next ?_
  split
  · exact h
  · exact h.ite (h.afterFire.passErr.ite h.afterFire.fireEffect)

/-! ### Machine/Checkpoint.lean -/

theorem execCkptCut {hd cutId blk} (h : Frame F s₀ s)
    (hF : F.Has ending := by exact .of ‹_›) : Answers F s₀ (execCkptCut hd cutId blk s) := by
  unfold Machine.execCkptCut
  refine .next (h.onRunning fun _ => ?_)
  split
  · exact h
  · split
    · exact h.fail
    · refine h.finishNat.ite ?_
      dsimp only
      split
      · exact h.setActive.setCkpt.beginCopy
      · exact h.setActive.setCkpt

theorem drainLocal {b adm path dst out} (h : Frame F s₀ s)
    (hF : F.Has memory := by exact .of ‹_›) : Frame F s₀ (State.drainLocal b adm path dst out s).1 :=
  h.ite_fst h.writeBay

theorem logDrain {b tag rs} (h : Frame F s₀ s)
    (hF : F.Has (outs ||| bays) := by exact .of ‹_›) : Frame F s₀ (s.logDrain b tag rs) := by
  unfold State.logDrain
  split
  · exact h.logBadReads
  · exact h

theorem execCkptDrain {hd dst cutId path slot} (h : Frame F s₀ s)
    (hF : F.Has (sending ||| memory ||| ending ||| faults ||| codecFenced) := by exact .of ‹_›) :
    Answers F s₀ (execCkptDrain hd dst cutId path slot s) := by
  unfold Machine.execCkptDrain
  refine .next (h.onRunning fun _ => ?_)
  split
  · exact h
  · split
    · exact h.fail
    · split
      · exact h.fail
      · dsimp only
        split
        · exact (h.logDrain.ite h).fail
        · refine h.useCodecs.fail.ite ?_
          split
          · exact h.useCodecs.setActive.setSlot.setCut.sendChunks
          · exact h.useCodecs.fail
          · exact h.useCodecs.setCut.drainLocal.endDrain

theorem execCkptRelease {hd cutId} (h : Frame F s₀ s)
    (hF : F.Has (sending ||| memory ||| ending ||| faults) := by exact .of ‹_›) :
    Answers F s₀ (execCkptRelease hd cutId s) := by
  unfold Machine.execCkptRelease
  refine .next (h.onRunning fun _ => ?_)
  split
  · exact h
  · split
    · exact h.fail
    · refine h.fail.ite (h.fail.ite (.finishNat ?_))
      split
      · exact h.discardCut.settleColls.fail.ite h.discardCut.settleColls
      · exact h.discardCut.settleColls

theorem verifyEff {b manifest src slot} (h : Frame F s₀ s) :
    Frame F s₀ (State.verifyEff b manifest src slot s).1 := by
  unfold State.verifyEff
  split
  · exact h
  · dsimp only
    split
    · exact h
    · exact h.ite_fst h

theorem execCkptVerify {hd manifest src slot} (h : Frame F s₀ s)
    (hF : F.Has (ending ||| outs) := by exact .of ‹_›) : Answers F s₀ (execCkptVerify hd manifest src slot s) := by
  unfold Machine.execCkptVerify
  refine .next (h.onRunning fun _ => ?_)
  split
  · exact h.completeIn fun _ hs => hs.verifyEff
  · exact h

theorem writeBlocks {b p xs} (h : Frame F s₀ s)
    (hF : F.Has memory := by exact .of ‹_›) : Frame F s₀ (s.writeBlocks b p xs) := by
  unfold State.writeBlocks
  refine h.foldl fun _ _ hs => ?_
  split
  · exact hs.writeBay
  · exact hs

theorem logOrigin {b m} (h : Frame F s₀ s)
    (hF : F.Has (outs ||| bays) := by exact .of ‹_›) : Frame F s₀ (s.logOrigin b m) :=
  h.log2.ite h

theorem afterRestore {b p step m} (h : Frame F s₀ s)
    (hF : F.Has (memory ||| outs ||| bays) := by exact .of ‹_›) : Frame F s₀ (s.afterRestore b p step m) :=
  (h.setTrain.foldl fun _ _ hs => hs.diffRecord).markDirty.setCkpt.logOrigin

theorem freeBlocks {b p xs} (h : Frame F s₀ s)
    (hF : F.Has (memory ||| free) := by exact .of ‹_›) : Frame F s₀ (s.freeBlocks b p xs) := by
  unfold State.freeBlocks
  refine h.foldl fun _ _ hs => ?_
  split
  · exact hs.writeBay.useFree
  · exact hs

theorem restorePass {b p m src xs} (h : Frame F s₀ s)
    (hF : F.Has (memory ||| free ||| outs ||| bays) := by exact .of ‹_›) :
    Frame F s₀ (State.restorePass b p m src xs s).1 :=
  h.writeBlocks.afterRestore.fst.ite_fst h.freeBlocks.setTrain.fst

theorem restoreEff {b adm manifest src slot} (h : Frame F s₀ s)
    (hF : F.Has (memory ||| free ||| outs ||| bays) := by exact .of ‹_›) :
    Frame F s₀ (State.restoreEff b adm manifest src slot s).1 := by
  unfold State.restoreEff
  extract_lets _ s1
  have h1 : Frame F s₀ s1 := h.setCkpt
  split
  · exact h1
  · refine h1.ite_fst ?_
    split
    · exact h1
    · refine h1.ite_fst (h1.ite_fst ?_)
      split
      · exact h1
      · split
        · exact h1
        · exact h1.restorePass

theorem execCkptRestore {hd manifest src slot} (h : Frame F s₀ s)
    (hF : F.Has (memory ||| ending ||| free ||| outs) := by exact .of ‹_›) :
    Answers F s₀ (execCkptRestore hd manifest src slot s) := by
  unfold Machine.execCkptRestore
  refine .next (h.onRunning fun _ => ?_)
  split
  · exact h.completeIn fun _ hs => hs.restoreEff
  · exact h

/-! ### Machine/Perform.lean -/

theorem mixMatmul {t : State} {b m} (h : Frame F s₀ s)
    (hF : F.Has (memory ||| free) := by exact .of ‹_›) : Frame F s₀ (s.mixMatmul t b m) := by
  unfold State.mixMatmul
  extract_lets _ s1
  have h1 : Frame F s₀ s1 := h.foldl fun _ _ hs => (hs.foldl fun _ _ ht => ht.writeBay).ite hs
  exact h1.useFree.mixed.ite h1.useFree

theorem mixFlags {t : State} {b} (h : Frame F s₀ s)
    (hF : F.Has (free ||| bays) := by exact .of ‹_›) : Frame F s₀ (s.mixFlags t b) :=
  h.raise.useFree

theorem endRunning {b c} (h : Frame F s₀ s)
    (hF : F.Has (sending ||| memory ||| ending ||| free ||| faults) := by exact .of ‹_›) :
    Frame F s₀ (s.endRunning b c).1 := by
  unfold State.endRunning
  split
  · exact h.ite_fst h.setBay.useFree
  · exact h.ite_fst h.useFree.movePages
  · exact h.useFree.stepUpdateEff
  · split
    · exact h.useFree.mixMatmul.mixFlags
    · exact h
  · split
    · exact h.useFree.mixed.mixFlags
    · exact h

theorem endActive {b c st} (h : Frame F s₀ s)
    (hF : F.Has (memory ||| free ||| cores ||| trng ||| bays) := by exact .of ‹_›) :
    Frame F s₀ (s.endActive b c st).1 := by
  unfold State.endActive
  dsimp only
  split
  · exact h.setBay
  · exact h.stopFields.ite_fst h.stopLaunch.fst
  · exact h.setTrain.fst
  · exact h.setTrain.fst
  · split
    · exact (h.abortRecords.ite h).setTrain.fst.ite_fst h
    · exact h
  · exact h.setSq.fst
  · exact h.discardCut.fst
  · exact h.setCut.setBay
  · exact h.setBay
  · exact h.setTrng.fst
  · exact h.setBay
  · exact h.setBay
  · exact h.setBay
  · exact h.setBay
  · exact h

theorem dropWaits {b adm} (h : Frame F s₀ s) (hF : F.Has bays := by exact .of ‹_›) : Frame F s₀ (s.dropWaits b adm) :=
  h.setBay

theorem cutShort {b st adm} (h : Frame F s₀ s)
    (hF : F.Has halting := by exact .of ‹_›) : Frame F s₀ (s.cutShort b st adm) := by
  unfold State.cutShort
  dsimp only
  split
  · exact h.dropWaits
  · split
    · exact h.dropWaits.endRunning.finishNat
    · exact h.dropWaits.endActive.finishNat
    · exact h.dropWaits.finishNat
    · exact h.dropWaits

/-! ### Machine/Bays.lean -/

theorem setFlow {b} {f : Machine.Flow → Machine.Flow} (h : Frame F s₀ s)
    (hF : F.Has bays := by exact .of ‹_›) : Frame F s₀ (s.setFlow b f) :=
  h.setBay

theorem cutBayDma {b} (h : Frame F s₀ s)
    (hF : F.Has (free ||| zeroMarks ||| cores ||| dram ||| sram ||| local_ ||| host) := by exact .of ‹_›) :
    Frame F s₀ (s.cutBayDma b) :=
  h.foldl fun _ _ hs => hs.cutChannels

theorem halt {b quiet} (h : Frame F s₀ s)
    (hF : F.Has halting := by exact .of ‹_›) : Frame F s₀ (s.halt b quiet).1 := by
  unfold State.halt
  extract_lets _ _ _ _ _ _ _ s1
  have h1 : Frame F s₀ s1 := (((h.setFlow.setCmds.ite h.setFlow).foldl fun _ _ hs => hs.sendAbort).foldl
    fun _ _ hs => hs.cutShort).setBay.foldl fun _ _ hs => hs.abortGroup
  exact h1.cutBayDma.discardCut.ite h1.cutBayDma

theorem releaseUrg {adm} (h : Frame F s₀ s) (hF : F.Has urg := by exact .of ‹_›) : Frame F s₀ (s.releaseUrg adm) :=
  h.setUrg.ite h

theorem finishUrg {adm st result} (h : Frame F s₀ s)
    (hF : F.Has (ending ||| urg) := by exact .of ‹_›) : Frame F s₀ (s.finishUrg adm st result) :=
  h.finishNat.releaseUrg

theorem endEvict {b st result} (h : Frame F s₀ s)
    (hF : F.Has (ending ||| outs ||| urg) := by exact .of ‹_›) : Frame F s₀ (s.endEvict b st result) := by
  unfold State.endEvict
  dsimp only
  split
  · exact h.setFlow.enter.finishUrg
  · exact h.setFlow.enter

theorem evictCut {b} (h : Frame F s₀ s)
    (hF : F.Has (ending ||| outs ||| urg) := by exact .of ‹_›) : Frame F s₀ (s.evictCut b) := by
  unfold State.evictCut
  dsimp only
  split
  · refine .beginCopy (.setCkpt ?_)
    split
    · exact h.log2
    · exact h
  · exact h.endEvict
  · exact h.endEvict

theorem evictHalted {b adm id} (h : Frame F s₀ s)
    (hF : F.Has (ending ||| outs ||| urg) := by exact .of ‹_›) : Frame F s₀ (s.evictHalted b adm id) := by
  unfold State.evictHalted
  split
  · exact h.finishUrg
  · exact h.setFlow.enter.releaseUrg.evictCut

theorem clearCluster {p} (h : Frame F s₀ s)
    (hF : F.Has (cores ||| dram ||| sram ||| local_ ||| host ||| poison) := by exact .of ‹_›) :
    Frame F s₀ (s.clearCluster p) := by
  unfold State.clearCluster
  extract_lets s1
  have h1 : Frame F s₀ s1 := h.setCores
  exact h1.clearLoc.clearLoc

theorem markZero {gs} (h : Frame F s₀ s)
    (hF : F.Has (zeroMarks ||| poison) := by exact .of ‹_›) : Frame F s₀ (s.markZero gs) :=
  { h with zeroMarks_eq := hF.may, poison_eq := hF.may }

theorem knockDown {b} (h : Frame F s₀ s)
    (hF : F.Has (outs ||| bays) := by exact .of ‹_›) : Frame F s₀ (s.knockDown b) :=
  h.ite (h.setBay.enter.ite h.setBay)

theorem clearBay {b} (h : Frame F s₀ s)
    (hF : F.Has (sending ||| cmds ||| bays) := by exact .of ‹_›) : Frame F s₀ (s.clearBay b) :=
  knockDown (setBay (h.foldl fun _ _ hs => hs.sendAbort).setCmds)

theorem scrubBay {b} (h : Frame F s₀ s)
    (hF : F.Has (memory ||| cores ||| bays) := by exact .of ‹_›) : Frame F s₀ (s.scrubBay b) :=
  setBay (h.markZero.foldl fun _ _ hs => hs.clearCluster)

theorem toUnbound {b} (h : Frame F s₀ s)
    (hF : F.Has (sending ||| cmds ||| bays) := by exact .of ‹_›) : Frame F s₀ (s.toUnbound b) :=
  enter (setBay (h.foldl fun _ _ hs => hs.sendAbort).setCmds)

theorem beginReset {b adm scrub} (h : Frame F s₀ s)
    (hF : F.Has halting := by exact .of ‹_›) : Frame F s₀ (s.beginReset b adm scrub) :=
  (h.halt.ite h.setFlow).setFlow.enter

theorem resetBay {b adm scrub} (h : Frame F s₀ s)
    (hF : F.Has halting := by exact .of ‹_›) : Frame F s₀ (s.resetBay b adm scrub) := by
  unfold State.resetBay
  dsimp only
  split
  · split
    · exact h.finishNat
    · exact h
  · split
    · exact h.knockDown.finishNat
    · exact h.knockDown
  · exact h.beginReset
  · exact h.beginReset
  · exact h.setFlow
  · exact h.setFlow

theorem execBayReset {hd bay scrub} (h : Frame F s₀ s)
    (hF : F.Has halting := by exact .of ‹_›) : Answers F s₀ (execBayReset hd bay scrub s) :=
  .next (h.onRunning fun _ => h.fail.ite h.setActive.resetBay)

theorem endHalts {b} (h : Frame F s₀ s) (hF : F.Has ending := by exact .of ‹_›) : Frame F s₀ (s.endHalts b) :=
  h.setFlow.foldl fun _ _ hs => hs.finishNat

theorem afterHalted {b} (h : Frame F s₀ s)
    (hF : F.Has (halting ||| urg) := by exact .of ‹_›) : Frame F s₀ (s.afterHalted b) := by
  unfold State.afterHalted
  dsimp only
  split
  · exact h.setFlow.beginReset
  · exact h.setFlow.evictHalted
  · exact h

theorem endReset {b adm scrub wasActive} (h : Frame F s₀ s)
    (hF : F.Has (sending ||| memory ||| ending ||| cores) := by exact .of ‹_›) :
    Frame F s₀ (s.endReset b adm scrub wasActive) := by
  unfold State.endReset
  dsimp only
  split
  · exact ((h.enter.clearBay.scrubBay.ite h.enter.clearBay).setFlow.enter.ite (h.enter.clearBay.scrubBay.ite
      h.enter.clearBay).setFlow).finishNat
  · exact (h.enter.clearBay.scrubBay.ite h.enter.clearBay).setFlow.enter.ite (h.enter.clearBay.scrubBay.ite
      h.enter.clearBay).setFlow

theorem execBayHalted {bay} (h : Frame F s₀ s)
    (hF : F.Has (halting ||| urg) := by exact .of ‹_›) : Answers F s₀ (execBayHalted bay s) := by
  unfold Machine.execBayHalted
  refine .next ?_
  split
  · split
    · exact h.endHalts.endReset.afterHalted
    · exact h.enter.setFlow.endHalts.afterHalted
  · exact h.ite (h.endEvict.afterHalted.ite (h.evictCut.afterHalted.ite h.evictCut))
  · exact h

theorem execHaltBay {hd bay} (h : Frame F s₀ s)
    (hF : F.Has (halting ||| urg) := by exact .of ‹_›) : Answers F s₀ (execHaltBay hd bay s) := by
  unfold Machine.execHaltBay
  refine .next (h.onRunning fun _ => h.finishUrg.ite ?_)
  split
  · exact h.finishUrg
  · exact h.finishUrg
  · exact h.finishUrg
  · exact h.finishUrg
  · split
    · exact h.setActive.halt.setFlow.enter.releaseUrg
    · exact h.setActive.setFlow.releaseUrg
    · exact h.finishUrg

theorem execEvictBay {hd bay cutId} (h : Frame F s₀ s)
    (hF : F.Has (halting ||| urg) := by exact .of ‹_›) : Answers F s₀ (execEvictBay hd bay cutId s) := by
  unfold Machine.execEvictBay
  refine .next (h.onRunning fun _ => h.finishUrg.ite ?_)
  split
  · exact h.finishUrg
  · exact h.finishUrg
  · exact h.finishUrg
  · split
    · split
      · exact h.finishUrg
      · exact h.setActive.setFlow.enter.releaseUrg.halt.ite h.setActive.setFlow.enter.releaseUrg
    · exact h.setActive.evictHalted
    · exact h.setActive.setFlow
    · exact h.finishUrg
    · exact h.finishUrg
    · exact h.finishUrg

theorem execResumeBay {hd bay} (h : Frame F s₀ s)
    (hF : F.Has (ending ||| outs ||| urg) := by exact .of ‹_›) : Answers F s₀ (execResumeBay hd bay s) := by
  unfold Machine.execResumeBay
  refine .next (h.onRunning fun _ => h.finishUrg.ite ?_)
  split
  · exact h.finishUrg
  · exact (h.enter.ite h).finishUrg
  · exact h.finishUrg
  · exact h.finishUrg
  · exact h.finishUrg
  · exact h.finishUrg

theorem execHaltMemoryAbsorb {bay accesses} (h : Frame F s₀ s)
    (hF : F.Has bays := by exact .of ‹_›) : Answers F s₀ (execHaltMemoryAbsorb bay accesses s) :=
  .next (h.countBay.ite h)

theorem execHaltFlushLate {bay} (h : Frame F s₀ s)
    (hF : F.Has bays := by exact .of ‹_›) : Answers F s₀ (execHaltFlushLate bay s) :=
  .next (h.countBay.ite h)

theorem execEvictBoundaryReached {bay} (h : Frame F s₀ s)
    (hF : F.Has halting := by exact .of ‹_›) : Answers F s₀ (execEvictBoundaryReached bay s) :=
  .next (h.halt.ite h)

theorem execEvictTimeout {bay} (h : Frame F s₀ s)
    (hF : F.Has halting := by exact .of ‹_›) : Answers F s₀ (execEvictTimeout bay s) := by
  unfold Machine.execEvictTimeout
  refine .next ?_
  split
  · exact h.log2.setFlow.halt.ite h
  · exact h

theorem goFatal {kind} (h : Frame F s₀ s) (hF : F.Has halting := by exact .of ‹_›) : Frame F s₀ (s.goFatal kind) :=
  h.setDev.devCause.log1.useFree.foldl fun _ _ hs => hs.foldl fun _ _ ht => ht.cutShort

theorem failCut {b c st} (h : Frame F s₀ s)
    (hF : F.Has (halting ||| urg) := by exact .of ‹_›) : Frame F s₀ (s.failCut b c st) := by
  unfold State.failCut
  refine h.discardCut.settleColls.endEvict.afterHalted.ite ?_
  split
  · exact h.discardCut.settleColls.fail
  · exact h.discardCut.settleColls

theorem finishCut {b c p} (h : Frame F s₀ s)
    (hF : F.Has (halting ||| urg) := by exact .of ‹_›) : Frame F s₀ (s.finishCut b c p) := by
  unfold State.finishCut
  refine h.failCut.ite (h.failCut.ite ?_)
  dsimp only
  split
  · exact (h.logBadReads.ite h).failCut
  · refine h.copyKerf.setCut.settleColls.endEvict.afterHalted.ite ?_
    split
    · exact h.copyKerf.setCut.settleColls.finishNat
    · exact h.copyKerf.setCut.settleColls.log2.bayEvent

theorem execCutCopy {bay} (h : Frame F s₀ s)
    (hF : F.Has (halting ||| urg) := by exact .of ‹_›) : Answers F s₀ (execCutCopy bay s) := by
  unfold Machine.execCutCopy
  refine .next ?_
  split
  · exact h
  · split
    · exact h.beginCopy
    · exact h.finishCut
    · exact h

/-! ### Machine/Binding.lean -/

theorem leaveUnbound {b} (h : Frame F s₀ s)
    (hF : F.Has (outs ||| bays) := by exact .of ‹_›) : Frame F s₀ (s.leaveUnbound b) :=
  h.setBay.enter

theorem execTxnBegin {hd bay} (h : Frame F s₀ s)
    (hF : F.Has (ending ||| outs) := by exact .of ‹_›) : Answers F s₀ (execTxnBegin hd bay s) :=
  .next (h.onRunning fun _ => h.fail.ite (h.fail.ite (h.setBay.leaveUnbound.ite h.setBay).finishNat))

theorem execTxnRollback {hd bay} (h : Frame F s₀ s)
    (hF : F.Has (ending ||| outs) := by exact .of ‹_›) : Answers F s₀ (execTxnRollback hd bay s) := by
  unfold Machine.execTxnRollback
  refine .next (h.onRunning fun _ => h.fail.ite ?_)
  split
  · exact h.fail
  · exact h.knockDown.finishNat

theorem stage {adm bay i} (h : Frame F s₀ s)
    (hF : F.Has ending := by exact .of ‹_›) : Frame F s₀ (s.stage adm bay i) := by
  unfold State.stage
  split
  · exact h.fail
  · split
    · exact h.fail
    · exact h.fail.ite h.setBay.finishNat

theorem execBindCluster {hd bay unbind mask} (h : Frame F s₀ s)
    (hF : F.Has ending := by exact .of ‹_›) : Answers F s₀ (execBindCluster hd bay unbind mask s) :=
  .next (h.onRunning fun _ => h.stage)

theorem execBindMemory {hd bay unbind first count} (h : Frame F s₀ s)
    (hF : F.Has ending := by exact .of ‹_›) : Answers F s₀ (execBindMemory hd bay unbind first count s) :=
  .next (h.onRunning fun _ => h.stage)

theorem execBindShares {hd bay o} (h : Frame F s₀ s)
    (hF : F.Has ending := by exact .of ‹_›) : Answers F s₀ (execBindShares hd bay o s) :=
  .next (h.onRunning fun _ => h.stage)

theorem beginPeg {b adm drainUs r} (h : Frame F s₀ s)
    (hF : F.Has (cmds ||| version ||| peg ||| bays) := by exact .of ‹_›) :
    Frame F s₀ (s.beginPeg b adm drainUs r) :=
  { h.setBay (b := b) with cmds_eq := hF.may, version_eq := hF.may, peg_eq := hF.may }

theorem execTxnCommit {hd bay drainUs} (h : Frame F s₀ s)
    (hF : F.Has (ending ||| outs ||| version ||| peg) := by exact .of ‹_›) :
    Answers F s₀ (execTxnCommit hd bay drainUs s) := by
  unfold Machine.execTxnCommit
  refine .next (h.onRunning fun _ => h.fail.ite ?_)
  dsimp only
  split
  · exact h.fail
  · refine h.ite ((h.setBay.enter.ite h.setBay).finishNat.ite ?_)
    split
    · exact h.knockDown.finishNat
    · exact h.setActive.beginPeg

theorem underOld {p} {f : State → State × Nat}
    (h : Frame F s₀ s) (hf : ∀ a, Frame F s₀ a → Frame F s₀ (f a).1)
    (hF : F.Has bays := by exact .of ‹_›) : Frame F s₀ (s.underOld p f).1 :=
  (hf _ h.setBay).setBay

theorem giveUp {b c} (h : Frame F s₀ s)
    (hF : F.Has halting := by exact .of ‹_›) : Frame F s₀ (State.giveUp b c s).1 := by
  unfold State.giveUp
  split
  · exact h.endRunning
  · split
    · exact h.stopFields.foldl fun _ _ hs => hs.cutChannels
    · exact h.endActive

theorem rebind {p c} (h : Frame F s₀ s) (hF : F.Has halting := by exact .of ‹_›) : Frame F s₀ (State.rebind p s c) :=
  (h.underOld fun _ hs => hs.giveUp).finishNat

theorem execPegDrainLimit (h : Frame F s₀ s)
    (hF : F.Has (halting ||| peg) := by exact .of ‹_›) : Answers F s₀ (execPegDrainLimit s) := by
  unfold Machine.execPegDrainLimit
  refine .next ?_
  split
  · exact h
  · refine h.ite (setPeg (setCmds (foldl ?_ fun _ _ hs => hs.rebind)))
    exact h.useFree.ite h.useFree.useFree

theorem afterPeg {b} (h : Frame F s₀ s)
    (hF : F.Has (sending ||| cmds ||| bays) := by exact .of ‹_›) : Frame F s₀ (s.afterPeg b) := by
  unfold State.afterPeg
  dsimp only
  split
  · exact h.enter
  · exact h.enter
  · exact h.toUnbound
  · exact h

theorem execPegComplete (h : Frame F s₀ s)
    (hF : F.Has (sending ||| memory ||| ending ||| peg ||| cores) := by exact .of ‹_›) :
    Answers F s₀ (execPegComplete s) := by
  unfold Machine.execPegComplete
  refine .next ?_
  split
  · exact h
  · rename_i p _
    have h1 : Frame F s₀ ((((bitsSet p.clusters).filterMap s.phys).foldl State.clearCluster s).markZero p.granules) :=
      (h.foldl fun _ _ hs => hs.clearCluster).markZero
    refine h.ite (finishNat (afterPeg ?_))
    exact { h1 with peg_eq := hF.may, cmds_eq := hF.may }

/-! ### Machine/Joiner.lean -/

theorem dropReuse {b i} (h : Frame F s₀ s) (hF : F.Has bays := by exact .of ‹_›) : Frame F s₀ (s.dropReuse b i) := by
  unfold State.dropReuse
  split
  · exact h
  · exact h.setTrain

theorem takeIndex {b i} (h : Frame F s₀ s)
    (hF : F.Has bays := by exact .of ‹_›) : Frame F s₀ (s.takeIndex b i).2 := by
  unfold State.takeIndex
  dsimp only
  split
  · exact h.setTrain.snd
  · exact h.setTrain.snd
  · exact h.setTrain.snd
  · exact h.setGroup.snd
  · exact h.setGroup.snd
  · exact h.setGroup.snd
  · exact h.setGroup.snd
  · exact h

theorem noteLayout {b i} (h : Frame F s₀ s)
    (hF : F.Has bays := by exact .of ‹_›) : Frame F s₀ (s.noteLayout b i) := by
  unfold State.noteLayout
  split
  · exact h.setCkpt
  · exact h

theorem addSlot {c} (h : Frame F s₀ s)
    (hF : F.Has (cmds ||| nextAdm) := by exact .of ‹_›) : Frame F s₀ (s.addSlot c) :=
  { h with cmds_eq := hF.may, nextAdm_eq := hF.may }

theorem admitEntry {org e ph} (h : Frame F s₀ s)
    (hF : F.Has (ending ||| nextAdm) := by exact .of ‹_›) : Frame F s₀ (s.admitEntry org e ph) := by
  unfold State.admitEntry
  dsimp only
  split
  · exact h.addSlot.fail
  · exact h.dropReuse.noteLayout.takeIndex.addSlot.ite h.addSlot

theorem fetchOne {b q} (h : Frame F s₀ s)
    (hF : F.Has (ending ||| free ||| nextAdm) := by exact .of ‹_›) : Frame F s₀ (s.fetchOne b q) :=
  (h.ite h.useFree).setSq.admitEntry

theorem fetchMany {n b q} (h : Frame F s₀ s)
    (hF : F.Has (ending ||| free ||| nextAdm) := by exact .of ‹_›) : Frame F s₀ (State.fetchMany n b q s) := by
  induction n generalizing s with
  | zero => exact h
  | succ n ih => exact h.ite (ih h.fetchOne)

theorem fetchBays (h : Frame F s₀ s)
    (hF : F.Has (ending ||| free ||| nextAdm ||| joiner) := by exact .of ‹_›) : Frame F s₀ s.fetchBays := by
  unfold State.fetchBays
  split
  · exact h
  · split
    · exact h
    · exact h.setJoiner.fetchMany

theorem fetchControlOne (h : Frame F s₀ s)
    (hF : F.Has (ending ||| free ||| nextAdm) := by exact .of ‹_›) : Frame F s₀ s.fetchControlOne :=
  (h.ite h.useFree).setCtl.admitEntry

theorem fetchControl {n} (h : Frame F s₀ s)
    (hF : F.Has (ending ||| free ||| nextAdm) := by exact .of ‹_›) : Frame F s₀ (State.fetchControl n s) := by
  induction n generalizing s with
  | zero => exact h
  | succ n ih => exact h.ite (ih h.fetchControlOne)

theorem execEntryFetch {path} (h : Frame F s₀ s)
    (hF : F.Has (ending ||| free ||| nextAdm ||| joiner) := by exact .of ‹_›) :
    Answers F s₀ (execEntryFetch path s) := by
  unfold Machine.execEntryFetch
  refine .next (h.ite ?_)
  split
  · exact h.fetchBays
  · exact h.fetchControl

theorem meetPath {b x} (h : Frame F s₀ s)
    (hF : F.Has (halting ||| minor) := by exact .of ‹_›) : Frame F s₀ (s.meetPath b x) := by
  unfold State.meetPath
  split
  · exact h.countBay
  · exact h.countBay
  · exact h.countMinor
  · exact h.countMinor
  · exact h.countMinor
  · exact h.goFatal
  · exact h.countMinor
  · exact h.countMinor

theorem meetPaths {b} (h : Frame F s₀ s)
    (hF : F.Has (halting ||| minor) := by exact .of ‹_›) : Frame F s₀ (s.meetPaths b) :=
  h.setFaults.foldl fun _ _ hs => hs.meetPath

theorem start {c} (h : Frame F s₀ s)
    (hF : F.Has (halting ||| minor) := by exact .of ‹_›) : Frame F s₀ (s.start c) := by
  unfold State.start
  split
  · exact h.setSlot
  · split
    · exact h.fail
    · exact (h.setCkpt.ite h).lateReads.setSlot.meetPaths

theorem execCommandDispatch {adm} (h : Frame F s₀ s)
    (hF : F.Has (halting ||| minor) := by exact .of ‹_›) : Answers F s₀ (execCommandDispatch adm s) := by
  unfold Machine.execCommandDispatch
  refine .next ?_
  split
  · exact h
  · refine h.ite ?_
    split <;> exact h.start.ite h

theorem release {c} (h : Frame F s₀ s) (hF : F.Has ending := by exact .of ‹_›) : Frame F s₀ (s.release c) :=
  h.dropSlot.settle

theorem postBay {b k c} (h : Frame F s₀ s)
    (hF : F.Has (memory ||| ending ||| outs) := by exact .of ‹_›) : Frame F s₀ (s.postBay b k c) :=
  h.ite (h.writeBay.setCq.bayIrq.ite h.writeBay.setCq).release

theorem writeHost0 {a bs} (h : Frame F s₀ s)
    (hF : F.Has memory := by exact .of ‹_›) : Frame F s₀ (s.writeHost0 a bs) :=
  h.writeLoc.ite h

theorem postControl {c} (h : Frame F s₀ s)
    (hF : F.Has (memory ||| ending ||| outs) := by exact .of ‹_›) : Frame F s₀ (s.postControl c) :=
  h.ite (h.writeHost0.setCtl.emit.ite h.writeHost0.setCtl).release

theorem postUrgent {c} (h : Frame F s₀ s)
    (hF : F.Has (memory ||| ending ||| outs ||| urg) := by exact .of ‹_›) : Frame F s₀ (s.postUrgent c) :=
  h.ite h.writeHost0.setUrg.emit.release

theorem execCompletionPost {cq} (h : Frame F s₀ s)
    (hF : F.Has (memory ||| ending ||| outs ||| urg) := by exact .of ‹_›) :
    Answers F s₀ (execCompletionPost cq s) := by
  unfold Machine.execCompletionPost
  refine .next (h.ite ?_)
  split
  · exact h
  · exact h.postBay
  · exact h.postControl
  · exact h.postUrgent

theorem execCoalesceTimer {cq} (h : Frame F s₀ s)
    (hF : F.Has (outs ||| ctl ||| bays) := by exact .of ‹_›) : Answers F s₀ (execCoalesceTimer cq s) := by
  unfold Machine.execCoalesceTimer
  refine .next ?_
  split
  · exact h.setCq.bayIrq.ite h
  · exact h.setCtl.emit.ite h
  · exact h

theorem noteUrgent {c} (h : Frame F s₀ s)
    (hF : F.Has (cmds ||| bays) := by exact .of ‹_›) : Frame F s₀ (s.noteUrgent c) :=
  h.ite (h.setFlow.ite h).setSlot

theorem decodeUrgent (h : Frame F s₀ s)
    (hF : F.Has (ending ||| urg ||| nextAdm) := by exact .of ‹_›) : Frame F s₀ s.decodeUrgent := by
  unfold State.decodeUrgent
  refine h.ite ?_
  dsimp only
  split
  · exact (h.setUrg.admitEntry.noteUrgent.setUrg.ite h.setUrg.admitEntry.noteUrgent).ite h.setUrg.admitEntry
  · exact h.setUrg.admitEntry

theorem execUrgentDoorbellSample (h : Frame F s₀ s)
    (hF : F.Has (ending ||| urg ||| nextAdm) := by exact .of ‹_›) : Answers F s₀ (execUrgentDoorbellSample s) :=
  .next (h.ite h.setUrg.decodeUrgent)

/-! ### Machine/Doorbells.lean -/

theorem hostWrites {r ws} (h : Frame F s₀ s)
    (hF : F.Has memory := by exact .of ‹_›) : Frame F s₀ (s.hostWrites r ws) :=
  h.foldl fun _ _ hs => hs.writeLoc

theorem ringSq {b q v} (h : Frame F s₀ s)
    (hF : F.Has (outs ||| bays) := by exact .of ‹_›) : Frame F s₀ (s.ringSq b q v) :=
  h.setSq.ite h.bayDoorbellErr

theorem ringCq {b q v} (h : Frame F s₀ s)
    (hF : F.Has (outs ||| bays) := by exact .of ‹_›) : Frame F s₀ (s.ringCq b q v) :=
  h.setCq.ite h.bayDoorbellErr

theorem execSubmissionDoorbell {bay q value written} (h : Frame F s₀ s)
    (hF : F.Has (memory ||| outs ||| bays) := by exact .of ‹_›) :
    Answers F s₀ (execSubmissionDoorbell bay q value written s) :=
  .next (h.ite h.hostWrites.ringSq)

theorem execCompletionDoorbell {bay q value} (h : Frame F s₀ s)
    (hF : F.Has (outs ||| bays) := by exact .of ‹_›) : Answers F s₀ (execCompletionDoorbell bay q value s) :=
  .next (h.ite h.ringCq)

theorem ctlDbErr (h : Frame F s₀ s) (hF : F.Has ctl := by exact .of ‹_›) : Frame F s₀ s.ctlDbErr :=
  h.setCtl

theorem ringCtlSq {v} (h : Frame F s₀ s) (hF : F.Has ctl := by exact .of ‹_›) : Frame F s₀ (s.ringCtlSq v) :=
  h.setCtl.ite h.ctlDbErr

theorem ringCtlCq {v} (h : Frame F s₀ s) (hF : F.Has ctl := by exact .of ‹_›) : Frame F s₀ (s.ringCtlCq v) :=
  h.setCtl.ite h.ctlDbErr

theorem ringUrgSq {v} (h : Frame F s₀ s) (hF : F.Has urg := by exact .of ‹_›) : Frame F s₀ (s.ringUrgSq v) :=
  h.setUrg

theorem ringUrgCq {v} (h : Frame F s₀ s) (hF : F.Has urg := by exact .of ‹_›) : Frame F s₀ (s.ringUrgCq v) :=
  h.setUrg

theorem execCtlSqTail {value written} (h : Frame F s₀ s)
    (hF : F.Has (memory ||| ctl) := by exact .of ‹_›) : Answers F s₀ (execCtlSqTail value written s) :=
  .next (h.ite h.hostWrites.ringCtlSq)

theorem execCtlCqHead {value} (h : Frame F s₀ s)
    (hF : F.Has ctl := by exact .of ‹_›) : Answers F s₀ (execCtlCqHead value s) :=
  .next (h.ite h.ringCtlCq)

theorem execUrgSqTail {value} (h : Frame F s₀ s)
    (hF : F.Has urg := by exact .of ‹_›) : Answers F s₀ (execUrgSqTail value s) :=
  .next (h.ite h.ringUrgSq)

theorem execUrgCqHead {value} (h : Frame F s₀ s)
    (hF : F.Has urg := by exact .of ‹_›) : Answers F s₀ (execUrgCqHead value s) :=
  .next (h.ite h.ringUrgCq)

theorem execEventCounterWrite {bay ctr w} (h : Frame F s₀ s)
    (hF : F.Has (cmds ||| bays) := by exact .of ‹_›) : Answers F s₀ (execEventCounterWrite bay ctr w s) :=
  .next (h.ite h.setCounter.recheck)

theorem writeIntMask {v} (h : Frame F s₀ s)
    (hF : F.Has (outs ||| dev) := by exact .of ‹_›) : Frame F s₀ (s.writeIntMask v) :=
  h.setDev.emit.ite h.setDev

theorem execIntMaskWrite {value} (h : Frame F s₀ s)
    (hF : F.Has (outs ||| dev) := by exact .of ‹_›) : Answers F s₀ (execIntMaskWrite value s) :=
  .next (h.ite h.writeIntMask)

theorem writeEventMask {b v} (h : Frame F s₀ s)
    (hF : F.Has (outs ||| bays) := by exact .of ‹_›) : Frame F s₀ (s.writeEventMask b v) :=
  h.setBay.bayIrq.ite h.setBay

theorem execEventMaskWrite {bay value} (h : Frame F s₀ s)
    (hF : F.Has (outs ||| bays) := by exact .of ‹_›) : Answers F s₀ (execEventMaskWrite bay value s) :=
  .next (h.ite h.writeEventMask)

theorem enableControl (h : Frame F s₀ s) (hF : F.Has ctl := by exact .of ‹_›) : Frame F s₀ s.enableControl :=
  h.setCtl.ite h.setCtl

theorem writeCtlWord {v} (h : Frame F s₀ s) (hF : F.Has ctl := by exact .of ‹_›) : Frame F s₀ (s.writeCtlWord v) :=
  h.setCtl.ite ((h.setCtl.ite h.setCtl.enableControl).ite (h.setCtl.setCtl.settleControl.ite h.setCtl))

theorem execControlPairEnable {value} (h : Frame F s₀ s)
    (hF : F.Has ctl := by exact .of ‹_›) : Answers F s₀ (execControlPairEnable value s) :=
  .next (h.ite h.writeCtlWord)

theorem execControlPairDisable {value} (h : Frame F s₀ s)
    (hF : F.Has ctl := by exact .of ‹_›) : Answers F s₀ (execControlPairDisable value s) :=
  .next (h.ite h.writeCtlWord)

theorem setRegs {b} {f : BayRegs → BayRegs} (h : Frame F s₀ s)
    (hF : F.Has bays := by exact .of ‹_›) : Frame F s₀ (s.setRegs b f) :=
  h.setBay

theorem enableAdmin {b} (h : Frame F s₀ s) (hF : F.Has bays := by exact .of ‹_›) : Frame F s₀ (s.enableAdmin b) :=
  h.setRegs.ite h.setRegs.setSq.setCq

theorem writeAdminWord {b v} (h : Frame F s₀ s)
    (hF : F.Has bays := by exact .of ‹_›) : Frame F s₀ (s.writeAdminWord b v) :=
  h.setRegs.ite ((h.setRegs.ite h.setRegs.enableAdmin).ite ((h.setRegs.setRegs.ite h.setRegs.setRegs.settleAdmin).ite
    h.setRegs))

theorem execAdminPairEnable {bay value} (h : Frame F s₀ s)
    (hF : F.Has bays := by exact .of ‹_›) : Answers F s₀ (execAdminPairEnable bay value s) :=
  .next (h.ite h.writeAdminWord)

theorem execAdminPairDisable {bay value} (h : Frame F s₀ s)
    (hF : F.Has bays := by exact .of ‹_›) : Answers F s₀ (execAdminPairDisable bay value s) :=
  .next (h.ite h.writeAdminWord)

theorem writeUrgWord {v} (h : Frame F s₀ s)
    (hF : F.Has (outs ||| dev ||| urg) := by exact .of ‹_›) : Frame F s₀ (s.writeUrgWord v) :=
  h.devCause.ite h.setUrg

theorem execUrgentQueueEnable {value} (h : Frame F s₀ s)
    (hF : F.Has (outs ||| dev ||| urg) := by exact .of ‹_›) : Answers F s₀ (execUrgentQueueEnable value s) :=
  .next (h.ite h.writeUrgWord)

theorem execUrgentQueueDisable {value} (h : Frame F s₀ s)
    (hF : F.Has (outs ||| dev ||| urg) := by exact .of ‹_›) : Answers F s₀ (execUrgentQueueDisable value s) :=
  .next (h.ite h.writeUrgWord)

theorem execApertureRead {bay offset length} (h : Frame F s₀ s)
    (hF : F.Has (free ||| outs ||| bays) := by exact .of ‹_›) :
    Answers F s₀ (execApertureRead bay offset length s) :=
  .next (h.ite (h.emit.ite (h.logBadReads.emit.ite h.lateReads.emit)))

theorem execApertureWrite {bay offset data} (h : Frame F s₀ s)
    (hF : F.Has (memory ||| bays) := by exact .of ‹_›) : Answers F s₀ (execApertureWrite bay offset data s) :=
  .next (h.ite (h.countBay.ite h.writeBay))

theorem finishDma {c chan} (h : Frame F s₀ s)
    (hF : F.Has (memory ||| ending ||| free ||| outs ||| cores) := by exact .of ‹_›) :
    Frame F s₀ (s.finishDma c chan) := by
  unfold State.finishDma
  split
  · rename_i t ht
    exact h.execDmaDescriptorDone.frame ht
  · exact h

theorem clearCore {key} (h : Frame F s₀ s)
    (hF : F.Has (cores ||| dram ||| sram ||| local_ ||| host ||| poison) := by exact .of ‹_›) :
    Frame F s₀ (s.clearCore key) :=
  h.setCores.clearLoc

theorem resetCore {c key} (h : Frame F s₀ s)
    (hF : F.Has (memory ||| ending ||| free ||| outs ||| dev ||| cores) := by exact .of ‹_›) :
    Frame F s₀ (s.resetCore c key) := by
  unfold State.resetCore
  refine .devCause (.clearCore ?_)
  split
  · exact h.finishDma.finishDma.failLaunch
  · exact h.finishDma.finishDma

theorem rejectReset (h : Frame F s₀ s) (hF : F.Has dev := by exact .of ‹_›) : Frame F s₀ s.rejectReset :=
  h.setDev

theorem execCoreReset {value} (h : Frame F s₀ s)
    (hF : F.Has (memory ||| ending ||| free ||| outs ||| dev ||| cores) := by exact .of ‹_›) :
    Answers F s₀ (execCoreReset value s) := by
  unfold Machine.execCoreReset
  refine .next (h.ite ?_)
  split
  · exact h.rejectReset.ite h.resetCore
  · exact h.rejectReset

theorem stopInCluster {lc c} (h : Frame F s₀ s)
    (hF : F.Has halting := by exact .of ‹_›) : Frame F s₀ (State.stopInCluster lc s c) := by
  unfold State.stopInCluster
  split
  · exact h.failLaunch
  · exact h.cutShort
  · exact h

theorem beginClusterReset {lc} (h : Frame F s₀ s)
    (hF : F.Has halting := by exact .of ‹_›) : Frame F s₀ (s.beginClusterReset lc) :=
  (h.setDev.foldl fun _ _ hs => hs.stopInCluster).foldl fun _ _ hs => hs.dropQueued

theorem execClusterReset {value} (h : Frame F s₀ s)
    (hF : F.Has halting := by exact .of ‹_›) : Answers F s₀ (execClusterReset value s) :=
  .next (h.ite (h.rejectReset.ite h.beginClusterReset))

theorem absorbCluster {lc} (h : Frame F s₀ s)
    (hF : F.Has halting := by exact .of ‹_›) : Frame F s₀ (s.absorbCluster lc) := by
  unfold State.absorbCluster
  extract_lets s1
  have h1 : Frame F s₀ s1 := h.foldl fun _ _ hs => hs.cutChannels
  split
  · exact h1.useFree
  · refine .foldl (.setBay ((h1.useFree.foldl fun _ _ hs => hs.sendAbort.abortGroup).foldl fun _ _ hs => ?_))
      fun _ _ hs => hs.firedEnd
    split
    · exact hs.stopFields.finishNat
    · exact hs.cutShort

theorem clearCores {p} (h : Frame F s₀ s)
    (hF : F.Has (cores ||| dram ||| sram ||| local_ ||| host ||| poison) := by exact .of ‹_›) :
    Frame F s₀ (s.clearCores p) :=
  h.setCores.clearLoc

theorem execClusterResetAbsorb {lc} (h : Frame F s₀ s)
    (hF : F.Has halting := by exact .of ‹_›) : Answers F s₀ (execClusterResetAbsorb lc s) := by
  unfold Machine.execClusterResetAbsorb
  refine .next ?_
  split
  · exact h
  · refine h.ite (.devCause (.setDev ?_))
    split
    · exact h.absorbCluster.clearCores
    · exact h.absorbCluster

/-! ### Machine/Repair.lean -/

theorem logUnit {b r} (h : Frame F s₀ s)
    (hF : F.Has (logging ||| bays) := by exact .of ‹_›) : Frame F s₀ (s.logUnit b r) := by
  unfold State.logUnit
  split
  · exact h.log12
  · exact h.log1

theorem execCubeSubstitution {cluster engine cube} (h : Frame F s₀ s)
    (hF : F.Has (logging ||| clusters ||| bays) := by exact .of ‹_›) :
    Answers F s₀ (execCubeSubstitution cluster engine cube s) := by
  unfold Machine.execCubeSubstitution
  refine .next (h.ite ?_)
  split
  · refine .log1 ?_
    split
    · exact h.setCluster.countBay
    · exact h.setCluster
  · exact h.setCluster.askRetire.logUnit

theorem execCoreRetirement {cluster core} (h : Frame F s₀ s)
    (hF : F.Has (logging ||| flash ||| clusters ||| bays) := by exact .of ‹_›) :
    Answers F s₀ (execCoreRetirement cluster core s) :=
  .next (h.ite (h.setCluster.setFlash.logUnit.askRetire.ite h.setCluster.setFlash.logUnit))

theorem execBankRetirement {cluster bank} (h : Frame F s₀ s)
    (hF : F.Has (logging ||| free ||| flash ||| clusters ||| bays) := by exact .of ‹_›) :
    Answers F s₀ (execBankRetirement cluster bank s) := by
  unfold Machine.execBankRetirement
  refine .next (h.ite (h.askRetire.ite (.logUnit (.useFree ?_))))
  split
  · exact h.setCluster.setFlash.countBay
  · exact h.setCluster.setFlash

theorem moveCluster {p q} (h : Frame F s₀ s)
    (hF : F.Has (sram ||| local_ ||| poison) := by exact .of ‹_›) : Frame F s₀ (s.moveCluster p q) := by
  refine { h with sram_eq := hF.may, local__eq := hF.may, poison_eq := hF.may, canonical := fun hs => ?_ }
  obtain ⟨hdram, hsram, hlocal, hrest⟩ := h.canonical hs
  exact ⟨hdram, Mem.wf_move hsram _ _ _, Mem.wf_move hlocal _ _ _, hrest⟩

theorem loadGcrt {p lc} (h : Frame F s₀ s) (hF : F.Has gcrt := by exact .of ‹_›) : Frame F s₀ (s.loadGcrt p lc) :=
  h.setGcrt

theorem moveLogical {lc p q} (h : Frame F s₀ s)
    (hF : F.Has (logging ||| flash ||| clusters ||| lmap ||| cores ||| gcrt ||| sram ||| local_ ||| poison |||
      power ||| bays) := by exact .of ‹_›) :
    Frame F s₀ (s.moveLogical lc p q) := by
  unfold State.moveLogical
  extract_lets _ s1 _ _ s2 s3
  have h1 : Frame F s₀ s1 := h.setPower.setCluster.loadGcrt.moveCluster
  have h2 : ∀ {l f g c}, Frame F s₀ { s1 with lmap := l, flash := f, gcrt := g, cores := c } :=
    { h1 with lmap_eq := hF.may, flash_eq := hF.may, gcrt_eq := hF.may, cores_eq := hF.may }
  have h3 : Frame F s₀ s2 := h2.setCluster.setPower
  refine logUnit (s := s3) ?_
  unfold s3
  split
  · exact h3.countBay
  · exact h3

theorem atRisk {lc p} (h : Frame F s₀ s)
    (hF : F.Has (logging ||| clusters ||| lrisk ||| bays) := by exact .of ‹_›) : Frame F s₀ (s.atRisk lc p) :=
  h.setLrisk.setCluster.logUnit

theorem execClusterRetirement {lc} (h : Frame F s₀ s)
    (hF : F.Has (logging ||| flash ||| clusters ||| lmap ||| lrisk ||| cores ||| gcrt ||| sram ||| local_ |||
      poison ||| power ||| bays) := by exact .of ‹_›) :
    Answers F s₀ (execClusterRetirement lc s) := by
  unfold Machine.execClusterRetirement
  refine .next ?_
  split
  · exact h
  · refine h.ite ?_
    split
    · exact h.atRisk.ite h
    · exact h.moveLogical.ite h

theorem warnUnit {kind unit cause} (h : Frame F s₀ s)
    (hF : F.Has (logging ||| bays) := by exact .of ‹_›) : Frame F s₀ (s.warnUnit kind unit cause) :=
  h.log1.foldl fun _ _ hs => hs.setBay.log2

theorem raiseWarning {i cause exempt} (h : Frame F s₀ s)
    (hF : F.Has (logging ||| season ||| bays) := by exact .of ‹_›) : Frame F s₀ (s.raiseWarning i cause exempt) :=
  h.setSeason.warnUnit.ite h

theorem sampleInto {i x} (h : Frame F s₀ s) (hF : F.Has season := by exact .of ‹_›) : Frame F s₀ (s.sampleInto i x) :=
  h.setSeason

theorem planMargin {i p slack} (h : Frame F s₀ s)
    (hF : F.Has (logging ||| clusters ||| season ||| bays) := by exact .of ‹_›) :
    Frame F s₀ (s.planMargin i p slack) :=
  h.ite (h.setCluster.log1.ite (h.ite h.setCluster.logUnit.raiseWarning.askRetire))

theorem swapLane {before x} (h : Frame F s₀ s)
    (hF : F.Has (sending ||| free) := by exact .of ‹_›) : Frame F s₀ (s.swapLane before x) :=
  h.laneLost.ite h

theorem takeReading {x} (h : Frame F s₀ s)
    (hF : F.Has (sending ||| free ||| clusters ||| season ||| bays) := by exact .of ‹_›) :
    Frame F s₀ (s.takeReading x) := by
  unfold State.takeReading
  refine h.ite ?_
  extract_lets _ _ _ logged _ rising crossed margin
  have hlogged : Frame F s₀ logged := h.sampleInto.ite h.sampleInto.log1
  have hrising : Frame F s₀ rising := hlogged.raiseWarning.ite hlogged
  have hcrossed : Frame F s₀ crossed := hrising.raiseWarning.ite (hrising.raiseWarning.ite hrising)
  have hmargin : Frame F s₀ margin := hcrossed.planMargin.ite hcrossed
  exact (hmargin.raiseWarning.ite hmargin).swapLane

theorem logMinor (h : Frame F s₀ s) (hF : F.Has (logging ||| minor) := by exact .of ‹_›) : Frame F s₀ s.logMinor :=
  h.setMinor.foldl fun _ _ hs => hs.log1

theorem warnCores (h : Frame F s₀ s)
    (hF : F.Has (logging ||| season ||| bays) := by exact .of ‹_›) : Frame F s₀ s.warnCores :=
  h.setSeason.foldl fun _ _ hs => hs.raiseWarning

theorem execSeasoningSample {readings} (h : Frame F s₀ s)
    (hF : F.Has (sending ||| free ||| clusters ||| minor ||| season ||| bays) := by exact .of ‹_›) :
    Answers F s₀ (execSeasoningSample readings s) :=
  .next (h.ite (h.foldl fun _ _ hs => hs.takeReading).logMinor.warnCores.setSeason)

theorem writeHistory (h : Frame F s₀ s)
    (hF : F.Has (flash ||| season) := by exact .of ‹_›) : Frame F s₀ s.writeHistory :=
  { h with flash_eq := hF.may, season_eq := hF.may }

theorem execHistoryWrite (h : Frame F s₀ s)
    (hF : F.Has (flash ||| season) := by exact .of ‹_›) : Answers F s₀ (execHistoryWrite s) :=
  .next (h.writeHistory.ite h)

theorem logEvent {r} (h : Frame F s₀ s) (hF : F.Has flash := by exact .of ‹_›) : Frame F s₀ (s.logEvent r) :=
  h.setFlash.ite h

theorem execPatrolScrub {line} (h : Frame F s₀ s) : Answers F s₀ (execPatrolScrub line s) := .next h

theorem execDramRefresh {bay tier2 stall} (h : Frame F s₀ s)
    (hF : F.Has bays := by exact .of ‹_›) : Answers F s₀ (execDramRefresh bay tier2 stall s) :=
  .next (h.countBay.ite h)

/-! ### Machine/Reset.lean -/

theorem setSelect {active pending} (h : Frame F s₀ s)
    (hF : F.Has (flash ||| boot) := by exact .of ‹_›) : Frame F s₀ (s.setSelect active pending) :=
  { h with flash_eq := hF.may, boot_eq := hF.may }

theorem bootRec {code d0 d1} (h : Frame F s₀ s)
    (hF : F.Has bootLog := by exact .of ‹_›) : Frame F s₀ (s.bootRec code d0 d1) :=
  h.setBootLog

theorem loseMemory (h : Frame F s₀ s)
    (hF : F.Has (free ||| zeroMarks ||| dram ||| sram ||| local_) := by exact .of ‹_›) :
    Frame F s₀ s.loseMemory := by
  refine { h with
    free_eq := hF.may, zeroMarks_eq := hF.may, dram_eq := hF.may, sram_eq := hF.may, local__eq := hF.may
    canonical := fun hs => ?_ }
  obtain ⟨hdram, hsram, hlocal, hrest⟩ := h.canonical hs
  exact ⟨wf_freeMem _ hdram, wf_freeMem _ hsram, wf_freeMem _ hlocal, hrest⟩

theorem dropReady (h : Frame F s₀ s) (hF : F.Has (outs ||| dev) := by exact .of ‹_›) : Frame F s₀ s.dropReady :=
  h.setDev.emit.ite h

theorem startBoot {warm} (h : Frame F s₀ s)
    (hF : F.Has (boot ||| bootLog) := by exact .of ‹_›) : Frame F s₀ (s.startBoot warm) :=
  h.setBoot.bootRec

theorem cleared {hold} (h : Frame F s₀ s)
    (hF : F.Has resetting := by exact .of ‹_›) : Frame F s₀ (s.cleared hold) := by
  have h1 : Frame F s₀ s.dropReady.loseMemory := h.dropReady.loseMemory
  refine { h1 with
    clock_eq := hF.may, boot_eq := hF.may, bootFeat_eq := hF.may, effFeat_eq := hF.may, dev_eq := hF.may
    ctl_eq := hF.may, urg_eq := hF.may, urgRing_eq := hF.may, msix_eq := hF.may, cmds_eq := hF.may
    nextAdm_eq := hF.may, nextFin_eq := hF.may, joiner_eq := hF.may, version_eq := hF.may, peg_eq := hF.may
    zeroMarks_eq := hF.may, clusters_eq := hF.may, lmap_eq := hF.may, lrisk_eq := hF.may, lfailed_eq := hF.may
    cores_eq := hF.may, gcrt_eq := hF.may, poison_eq := hF.may, t3cap_eq := hF.may, t3down_eq := hF.may
    dramRepairs_eq := hF.may, nv_eq := hF.may, ports_eq := hF.may, far_eq := hF.may, farSent_eq := hF.may
    devTele_eq := hF.may, devSince_eq := hF.may, dies_eq := hF.may, dramHolds_eq := hF.may
    codecFenced_eq := hF.may, minor_eq := hF.may, power_eq := hF.may, mgmt_eq := hF.may, season_eq := hF.may
    errLog_eq := hF.may, bootLog_eq := hF.may, trng_eq := hF.may, bays_eq := hF.may
    canonical := fun hs => ?_ }
  obtain ⟨hdram, hsram, hlocal, hhost, -, -⟩ := h1.canonical hs
  exact ⟨hdram, hsram, hlocal, hhost, Mem.wf_nil, Mem.wf_nil⟩

theorem alwaysOn (h : Frame F s₀ s) (hF : F.Has power := by exact .of ‹_›) : Frame F s₀ s.alwaysOn :=
  h.setPower.setPower

theorem coldBoot (h : Frame F s₀ s) (hF : F.Has resetting := by exact .of ‹_›) : Frame F s₀ s.coldBoot :=
  h.cleared.alwaysOn.ite h.cleared.alwaysOn.startBoot

theorem execPowerInRange (h : Frame F s₀ s)
    (hF : F.Has resetting := by exact .of ‹_›) : Answers F s₀ (execPowerInRange s) :=
  .next (h.coldBoot.ite h)

theorem execResetN {low} (h : Frame F s₀ s)
    (hF : F.Has resetting := by exact .of ‹_›) : Answers F s₀ (execResetN low s) :=
  .next (h.setDev.ite (h.setDev.coldBoot.ite (h.setDev.coldBoot.ite h.setDev)))

theorem warmReset (h : Frame F s₀ s) (hF : F.Has restarting := by exact .of ‹_›) : Frame F s₀ s.warmReset := by
  have h1 : Frame F s₀ s.dropReady.loseMemory := h.dropReady.loseMemory
  refine startBoot { h1 with
    clock_eq := hF.may, boot_eq := hF.may, dev_eq := hF.may, ctl_eq := hF.may, urg_eq := hF.may
    urgRing_eq := hF.may, msix_eq := hF.may, cmds_eq := hF.may, nextAdm_eq := hF.may, nextFin_eq := hF.may
    joiner_eq := hF.may, version_eq := hF.may, peg_eq := hF.may, clusters_eq := hF.may, lmap_eq := hF.may
    lrisk_eq := hF.may, lfailed_eq := hF.may, cores_eq := hF.may, gcrt_eq := hF.may, poison_eq := hF.may
    ports_eq := hF.may, far_eq := hF.may, devTele_eq := hF.may, codecFenced_eq := hF.may, bootLog_eq := hF.may
    trng_eq := hF.may, bays_eq := hF.may
    canonical := fun hs => ?_ }
  obtain ⟨hdram, hsram, hlocal, hhost, -, -⟩ := h1.canonical hs
  exact ⟨hdram, hsram, hlocal, hhost, Mem.wf_nil, Mem.wf_nil⟩

theorem execDeviceReset {value} (h : Frame F s₀ s)
    (hF : F.Has restarting := by exact .of ‹_›) : Answers F s₀ (execDeviceReset value s) :=
  .next (h.warmReset.ite h)

theorem execPfFunctionLevelReset (h : Frame F s₀ s)
    (hF : F.Has restarting := by exact .of ‹_›) : Answers F s₀ (execPfFunctionLevelReset s) :=
  .next (h.warmReset.ite h)

theorem execVfFunctionLevelReset {bay} (h : Frame F s₀ s)
    (hF : F.Has halting := by exact .of ‹_›) : Answers F s₀ (execVfFunctionLevelReset bay s) :=
  .next (h.resetBay.ite h)

theorem execPciePerstN {low} (h : Frame F s₀ s)
    (hF : F.Has restarting := by exact .of ‹_›) : Answers F s₀ (execPciePerstN low s) := by
  have h1 : ∀ boot : Boot, Frame F s₀ { s with dev := { s.dev with perstLow := low }, boot := boot } := fun _ =>
    { h with dev_eq := hF.may, boot_eq := hF.may }
  exact .next (h.setDev.ite ((h.setDev.warmReset.ite (h1 _)).ite (h1 _)))

/-! ### Machine/Images.lean -/

theorem endStage (h : Frame F s₀ s) (hF : F.Has (boot ||| bootLog) := by exact .of ‹_›) : Frame F s₀ s.endStage :=
  h.bootRec.setBoot

theorem toMgmtOnly (h : Frame F s₀ s) (hF : F.Has (boot ||| bootLog) := by exact .of ‹_›) : Frame F s₀ s.toMgmtOnly :=
  h.setBoot.bootRec

theorem unitFailed {kind unit} (h : Frame F s₀ s)
    (hF : F.Has bootLog := by exact .of ‹_›) : Frame F s₀ (s.unitFailed kind unit) :=
  h.bootRec

theorem execBootRomStage {selfTestOk} (h : Frame F s₀ s)
    (hF : F.Has (halting ||| boot ||| power ||| bootLog) := by exact .of ‹_›) :
    Answers F s₀ (execBootRomStage selfTestOk s) := by
  have h1 : ∀ boot : Boot, Frame F s₀ { (s.setPower 61 true).setPower 52 true with trng := Trng.reset, boot := boot } :=
    fun _ => { h.setPower.setPower with trng_eq := hF.may, boot_eq := hF.may }
  exact .next (h.ite (h.unitFailed.goFatal.setDev.ite (h1 _).endStage))

theorem takeGolden {x k} (h : Frame F s₀ s)
    (hF : F.Has bootLog := by exact .of ‹_›) : Frame F s₀ (s.takeGolden x k).1 :=
  h.bootRec

theorem formSet {n x} (h : Frame F s₀ s)
    (hF : F.Has bootLog := by exact .of ‹_›) : Frame F s₀ (State.formSet n s x).1 := by
  induction n generalizing s x with
  | zero => exact h
  | succ n ih =>
    have golden : ∀ ks : List Nat, Frame F s₀ (ks.foldl (fun (a : State × ImageSet) k =>
        (a.1.bootRec 0x0204 k ((s.badWhy x k).getD 0)).takeGolden a.2 k) (s, x)).1 := fun ks =>
      foldl_fst h fun _ _ hs => hs.bootRec.takeGolden
    unfold State.formSet
    dsimp only
    split
    · exact h
    · split
      · exact h
      · split
        · exact golden _
        · exact ih (golden _)

theorem verifySet {imgs} (h : Frame F s₀ s)
    (hF : F.Has bootLog := by exact .of ‹_›) : Frame F s₀ (s.verifySet imgs).1 := by
  unfold State.verifySet
  refine h.foldl_fst fun _ _ hs => ?_
  split
  · exact hs.bootRec.takeGolden
  · exact hs

theorem rejectPending {bank why} (h : Frame F s₀ s)
    (hF : F.Has (flash ||| boot ||| bootLog) := by exact .of ‹_›) : Frame F s₀ (s.rejectPending bank why) :=
  h.setBoot.setSelect.bootRec

theorem noSet {imgs replaced} (h : Frame F s₀ s)
    (hF : F.Has (flash ||| boot ||| bootLog) := by exact .of ‹_›) : Frame F s₀ (s.noSet imgs replaced) := by
  unfold State.noSet
  refine .toMgmtOnly ?_
  split
  · exact h.setBoot.rejectPending.ite h.setBoot
  · exact h.setBoot

theorem acceptSet {x} (h : Frame F s₀ s)
    (hF : F.Has (boot ||| bootLog) := by exact .of ‹_›) : Frame F s₀ (s.acceptSet x) :=
  (h.foldl fun _ _ hs => hs.bootRec).setBoot.endStage

theorem selectImages (h : Frame F s₀ s)
    (hF : F.Has (flash ||| boot ||| bootLog) := by exact .of ‹_›) : Frame F s₀ s.selectImages := by
  unfold State.selectImages
  dsimp only
  generalize (if s.boot.bank = 0 then s.flash.bankA else s.flash.bankB) = imgs
  have h0 : Frame F s₀ (s.verifySet imgs).1 := h.verifySet
  have h1 : Frame F s₀ ((s.verifySet imgs).1.formSet 6 (s.verifySet imgs).2).1 := h0.formSet
  refine h0.noSet.ite ?_
  split <;> rename_i e <;> rw [e] at h1
  · exact h1.acceptSet
  · exact h1.noSet

theorem execImageSelection (h : Frame F s₀ s)
    (hF : F.Has (flash ||| boot ||| power ||| bootLog) := by exact .of ‹_›) :
    Answers F s₀ (execImageSelection s) := by
  unfold Machine.execImageSelection
  refine .next (h.ite (h.setPower.setPower.selectImages.ite ?_))
  split
  · exact h.setPower.setPower.bootRec.selectImages
  · exact h.setPower.setPower.setBoot.endStage

theorem execPendingBankTimeout (h : Frame F s₀ s)
    (hF : F.Has (restarting ||| flash) := by exact .of ‹_›) : Answers F s₀ (execPendingBankTimeout s) := by
  unfold Machine.execPendingBankTimeout
  refine .next ?_
  split
  · exact h.setBoot.setSelect.warmReset.bootRec.ite h
  · exact h

theorem execPldmFirmwareUpdate {components} (h : Frame F s₀ s)
    (hF : F.Has (flash ||| boot) := by exact .of ‹_›) : Answers F s₀ (execPldmFirmwareUpdate components s) :=
  .next (h.ite (h.setFlash.setSelect.ite h.setFlash))

/-! ### Machine/Boot.lean -/

theorem nvApply {r} (h : Frame F s₀ s)
    (hF : F.Has (nv ||| far ||| bootLog) := by exact .of ‹_›) : Frame F s₀ (s.nvApply r) := by
  unfold State.nvApply
  refine h.bootRec.ite (.ite (h.setFar.ite h.bootRec) ?_)
  split
  · exact h.setNv
  · exact h.bootRec

theorem loadNv (h : Frame F s₀ s)
    (hF : F.Has (nv ||| far ||| bootLog) := by exact .of ‹_›) : Frame F s₀ s.loadNv := by
  have h1 : Frame F s₀ ({ s with
      nv := Nv.factory
      far := s.far.zipIdx.map (fun f => { f.1 with mac := nth s.factory.farMacs f.2 }) } : State) :=
    { h with nv_eq := hF.may, far_eq := hF.may }
  unfold State.loadNv
  dsimp only
  split
  · exact h1.bootRec
  · exact h1.foldl fun _ _ hs => hs.nvApply

theorem loadHistory (h : Frame F s₀ s)
    (hF : F.Has (logging ||| clusters ||| season) := by exact .of ‹_›) : Frame F s₀ s.loadHistory := by
  unfold State.loadHistory
  dsimp only
  split
  · exact h.log1
  · exact { h with season_eq := hF.may, clusters_eq := hF.may }

theorem applyLicence (h : Frame F s₀ s)
    (hF : F.Has (bootFeat ||| effFeat ||| bootLog) := by exact .of ‹_›) : Frame F s₀ s.applyLicence := by
  unfold State.applyLicence
  dsimp only
  split <;> exact h.refreshLicence.setBootFeat.bootRec

theorem execNvOverlay (h : Frame F s₀ s)
    (hF : F.Has (logging ||| boot ||| bootFeat ||| effFeat ||| clusters ||| nv ||| far ||| power ||| season |||
      bootLog) := by exact .of ‹_›) :
    Answers F s₀ (execNvOverlay s) := by
  have h1 : Frame F s₀ ((s.setPower 59 true).setPower 60 true).loadNv := h.setPower.setPower.loadNv
  exact .next (h.ite (h1.ite h1.setClusters.loadHistory).applyLicence.endStage)

theorem execDramTraining {failedParts t3Gib} (h : Frame F s₀ s)
    (hF : F.Has (boot ||| t3cap ||| dramRepairs ||| power ||| bootLog) := by exact .of ‹_›) :
    Answers F s₀ (execDramTraining failedParts t3Gib s) := by
  unfold Machine.execDramTraining
  refine .next (h.ite ?_)
  extract_lets _ _ _ _ s1 s2
  have h1 : Frame F s₀ s1 := (((h.foldl fun _ _ hs => hs.setPower).foldl fun _ _ hs => hs.setPower).foldl
    fun _ _ hs => hs.unitFailed.ite hs.unitFailed).foldl fun _ _ hs => hs.unitFailed.ite hs
  have h2 : Frame F s₀ s2 := { h1 with t3cap_eq := hF.may, dramRepairs_eq := hF.may }
  exact h2.endStage.ite h2.toMgmtOnly

theorem portDown {p why} (h : Frame F s₀ s)
    (hF : F.Has (sending ||| power ||| bootLog) := by exact .of ‹_›) : Frame F s₀ (s.portDown p why) := by
  unfold State.portDown
  exact h.setPort.setPower.changePort.bootRec

theorem climbPort {p st} (h : Frame F s₀ s)
    (hF : F.Has sending := by exact .of ‹_›) : Frame F s₀ (s.climbPort p st) :=
  h.setPortState.setPortState.changePort

theorem soakPort {p errs} (h : Frame F s₀ s)
    (hF : F.Has (sending ||| power ||| bootLog) := by exact .of ‹_›) : Frame F s₀ (s.soakPort p errs) := by
  unfold State.soakPort
  refine h.portDown.ite (.climbPort (.setPower (.setPort ?_)))
  split
  · exact h.bootRec
  · exact h

theorem relockPort {p errs} (h : Frame F s₀ s)
    (hF : F.Has (sending ||| free) := by exact .of ‹_›) : Frame F s₀ (s.relockPort p errs) :=
  h.ite (h.climbPort.foldl fun _ _ hs => hs.laneLost)

theorem trainPort {p answer errs} (h : Frame F s₀ s)
    (hF : F.Has (sending ||| free ||| power ||| bootLog) := by exact .of ‹_›) :
    Frame F s₀ (s.trainPort p answer errs) :=
  h.setPort.setPower.ite (h.portDown.ite (h.ite (h.portDown.ite (h.relockPort.ite h.soakPort))))

theorem setFarState {f st} (h : Frame F s₀ s)
    (hF : F.Has (logging ||| far) := by exact .of ‹_›) : Frame F s₀ (s.setFarState f st) := by
  unfold State.setFarState
  exact h.ite h.setFar.devCause.log1

theorem trainFar {f errs} (h : Frame F s₀ s)
    (hF : F.Has (logging ||| far ||| power ||| bootLog) := by exact .of ‹_›) : Frame F s₀ (s.trainFar f errs) :=
  h.setPower.setFarState.ite h.setPower.setFarState.bootRec

theorem execLaneTraining {answers laneErrors farErrors} (h : Frame F s₀ s)
    (hF : F.Has (sending ||| free ||| boot ||| far ||| power ||| bootLog) := by exact .of ‹_›) :
    Answers F s₀ (execLaneTraining answers laneErrors farErrors s) :=
  .next (h.ite ((h.foldl fun _ _ hs => hs.trainPort).foldl fun _ _ hs => hs.trainFar).endStage)

theorem markDefective {p} (h : Frame F s₀ s)
    (hF : F.Has (flash ||| clusters) := by exact .of ‹_›) : Frame F s₀ (s.markDefective p) :=
  h.setCluster.setFlash

theorem bistFail {x} (h : Frame F s₀ s)
    (hF : F.Has (flash ||| clusters ||| dramRepairs ||| bootLog) := by exact .of ‹_›) :
    Frame F s₀ (s.bistFail x) := by
  unfold State.bistFail
  split
  · exact h.unitFailed.setCluster.ite h.unitFailed.setCluster.setFlash
  · exact h.unitFailed.setCluster.setFlash
  · exact h.unitFailed.setCluster.setFlash
  · exact h.unitFailed.markDefective
  · exact { h.unitFailed.ite h.unitFailed with flash_eq := hF.may, dramRepairs_eq := hF.may }
  · exact h.unitFailed

theorem execBist {failures} (h : Frame F s₀ s)
    (hF : F.Has (flash ||| boot ||| clusters ||| dramRepairs ||| power ||| bootLog) := by exact .of ‹_›) :
    Answers F s₀ (execBist failures s) := by
  unfold Machine.execBist
  refine .next (h.ite ?_)
  extract_lets _ _ s1
  have h1 : Frame F s₀ s1 := ((h.foldl fun _ _ hs => hs.setPower).foldl fun _ _ hs => hs.bistFail).foldl
    fun _ _ hs => hs.markDefective
  exact h1.toMgmtOnly.ite h1.endStage

theorem fetchFail {f} (h : Frame F s₀ s)
    (hF : F.Has (flash ||| clusters ||| bootLog) := by exact .of ‹_›) : Frame F s₀ (s.fetchFail f) :=
  h.unitFailed.setCluster.setFlash

theorem bringUp {failures n} (h : Frame F s₀ s)
    (hF : F.Has (flash ||| clusters ||| lmap ||| bootLog) := by exact .of ‹_›) :
    Frame F s₀ (State.bringUp failures n s) := by
  induction n generalizing s with
  | zero => exact h
  | succ n ih =>
    have h1 : Frame F s₀ ({ s with lmap := s.buildMap } : State) := h.setLmap
    exact .ite (h1.foldl fun _ _ hs => hs.fetchFail)
      (ih ((h1.foldl fun _ _ hs => hs.fetchFail).foldl fun _ _ hs => hs.markDefective))

theorem execGcrtBroadcast {failures} (h : Frame F s₀ s)
    (hF : F.Has (flash ||| boot ||| clusters ||| lmap ||| lrisk ||| lfailed ||| gcrt ||| power |||
      bootLog) := by exact .of ‹_›) :
    Answers F s₀ (execGcrtBroadcast failures s) := by
  unfold Machine.execGcrtBroadcast
  refine .next (h.ite ?_)
  extract_lets s1 s2
  have h1 : Frame F s₀ s1 := h.bringUp
  have h2 : Frame F s₀ s2 := { h1 with lrisk_eq := hF.may, lfailed_eq := hF.may, gcrt_eq := hF.may }
  refine .endStage ((h2.foldl fun _ _ hs => hs.setPower).foldl fun _ _ hs => ?_)
  split
  · exact hs.loadGcrt
  · exact hs

theorem endTrial (h : Frame F s₀ s)
    (hF : F.Has (flash ||| boot ||| bootLog) := by exact .of ‹_›) : Frame F s₀ s.endTrial := by
  unfold State.endTrial
  split
  · exact h
  · exact h.rejectPending.ite h.setBoot.setSelect

theorem execReady (h : Frame F s₀ s)
    (hF : F.Has (logging ||| free ||| flash ||| boot ||| devSince ||| season ||| bootLog) := by exact .of ‹_›) :
    Answers F s₀ (execReady s) := by
  unfold Machine.execReady
  refine .next (h.ite ?_)
  extract_lets _ _ _ _ s1
  have h1 : Frame F s₀ s1 := (h.bootRec.bootRec.useFree.endTrial.foldl fun _ _ hs => hs.setErrLog).writeHistory
  have h2 : ∀ {f b n d}, Frame F s₀ { s1 with flash := f, boot := b, devSince := n, dev := d } :=
    { h1 with flash_eq := hF.may, boot_eq := hF.may, devSince_eq := hF.may, dev_eq := hF.may }
  exact h2.emit

theorem relock {p x} (h : Frame F s₀ s)
    (hF : F.Has (logging ||| ports) := by exact .of ‹_›) : Frame F s₀ (s.relock p x) :=
  h.setPort.setPortState.setPortState

theorem execPortRetry {port answers laneErrors} (h : Frame F s₀ s)
    (hF : F.Has (sending ||| power ||| bootLog) := by exact .of ‹_›) :
    Answers F s₀ (execPortRetry port answers laneErrors s) := by
  unfold Machine.execPortRetry
  refine .next (h.ite (h.setPort.ite ((h.setPort.portDown.ite h.setPort.relock).ite (.ite ?_ h.setPort))))
  split
  · exact h.setPort.relock
  · exact h.setPort

/-! ### Machine/FarLink.lean -/

theorem setJoin {b} {f : Join → Join} (h : Frame F s₀ s)
    (hF : F.Has bays := by exact .of ‹_›) : Frame F s₀ (s.setJoin b f) :=
  h.setBay

theorem stageStalls {b} (h : Frame F s₀ s)
    (hF : F.Has (free ||| bays) := by exact .of ‹_›) : Frame F s₀ (s.stageStalls b) :=
  h.foldl fun _ _ hs => hs.countBay.useFree

theorem onJoined {b} {f : Join → State} (h : Frame F s₀ s) (hf : ∀ a, Frame F s₀ (f a)) :
    Frame F s₀ (s.onJoined b f) := by
  unfold State.onJoined
  split
  · exact (hf _).ite h
  · exact h

theorem onJoin {b} {f : Join → State} (h : Frame F s₀ s) (hf : ∀ a, Frame F s₀ (f a)) :
    Frame F s₀ (s.onJoin b f) := by
  unfold State.onJoin
  split
  · exact hf _
  · exact h

theorem holdBundles (h : Frame F s₀ s) (hF : F.Has bays := by exact .of ‹_›) : Frame F s₀ s.holdBundles :=
  h.setBays

theorem emitFrame {j port site dgram} (h : Frame F s₀ s)
    (hF : F.Has (outs ||| far) := by exact .of ‹_›) : Frame F s₀ (s.emitFrame j port site dgram) :=
  h.setFar.emit

theorem flushHeld {b} (h : Frame F s₀ s)
    (hF : F.Has (outs ||| far ||| bays) := by exact .of ‹_›) : Frame F s₀ (s.flushHeld b) := by
  unfold State.flushHeld
  refine h.onJoined fun _ => ?_
  split
  · exact h
  · exact (h.foldl fun _ _ hs => hs.emitFrame).setJoin

theorem sendDgram {b turn site dgram} (h : Frame F s₀ s)
    (hF : F.Has (outs ||| far ||| bays) := by exact .of ‹_›) : Frame F s₀ (s.sendDgram b turn site dgram) := by
  unfold State.sendDgram
  split
  · exact h
  · split
    · exact h.setJoin
    · exact h.flushHeld.emitFrame

theorem sendCtl {b site kind seq epoch sent echo payload} (h : Frame F s₀ s)
    (hF : F.Has (outs ||| far ||| bays) := by exact .of ‹_›) :
    Frame F s₀ (s.sendCtl b site kind seq epoch sent echo payload) := by
  unfold State.sendCtl
  split
  · exact h
  · split
    · exact h
    · exact h.sendDgram

theorem startCtl {b site kind epoch until_ payload} (h : Frame F s₀ s)
    (hF : F.Has (outs ||| far ||| bays) := by exact .of ‹_›) :
    Frame F s₀ (s.startCtl b site kind epoch until_ payload) := by
  unfold State.startCtl
  split
  · exact h
  · exact h.setJoin.sendCtl

theorem ackCtl {b d} (h : Frame F s₀ s)
    (hF : F.Has (outs ||| far ||| bays) := by exact .of ‹_›) : Frame F s₀ (s.ackCtl b d) := by
  unfold State.ackCtl
  split
  · exact h
  · exact h.setJoin.sendCtl

theorem heard {b site} (h : Frame F s₀ s) (hF : F.Has bays := by exact .of ‹_›) : Frame F s₀ (s.heard b site) :=
  h.setJoin

theorem takeDgram {b port kind d} {f : State → Join → State}
    (h : Frame F s₀ s) (hf : ∀ s j, Frame F s₀ s → Frame F s₀ (f s j))
    (hF : F.Has (far ||| bays) := by exact .of ‹_›) : Frame F s₀ (s.takeDgram b port kind d f) := by
  have h1 : ∀ g, Frame F s₀ ({ s with far := updNth s.far port g } : State) := fun g => h.setFar
  unfold State.takeDgram
  dsimp only
  split
  · exact h1 _
  · exact .ite (hf _ _ (h1 _).heard) (h1 _)

theorem takeCtl {b port kind d} {f : State → Join → List Byte → State}
    (h : Frame F s₀ s) (hf : ∀ a b c, Frame F s₀ a → Frame F s₀ (f a b c))
    (hF : F.Has (outs ||| far ||| bays) := by exact .of ‹_›) : Frame F s₀ (s.takeCtl b port kind d f) := by
  unfold State.takeCtl
  refine h.takeDgram fun _ _ hs => ?_
  split
  · exact hs
  · split
    · exact hs.countBay
    · exact hf _ _ _ (hs.ite hs.ackCtl)

/-! ### Machine/Merge.lean -/

theorem sendDigest {b j l phase d} (h : Frame F s₀ s)
    (hF : F.Has (outs ||| far ||| bays) := by exact .of ‹_›) : Frame F s₀ (s.sendDigest b j l phase d) :=
  h.foldl fun _ _ hs => hs.startCtl

theorem prepareFrom {b e} (h : Frame F s₀ s)
    (hF : F.Has (free ||| outs ||| far ||| bays) := by exact .of ‹_›) : Frame F s₀ (s.prepareFrom b e) := by
  unfold State.prepareFrom
  refine h.onJoined fun _ => ?_
  split
  · exact h.ite (h.setJoin.useFree.ite h.setJoin).sendDigest
  · exact h

theorem prepareNow {b} (h : Frame F s₀ s)
    (hF : F.Has (free ||| outs ||| far ||| bays) := by exact .of ‹_›) : Frame F s₀ (s.prepareNow b) :=
  h.onJoined fun _ => h.prepareFrom

/-! ### Machine/Bundles.lean -/

theorem settleLeave {b} (h : Frame F s₀ s)
    (hF : F.Has ending := by exact .of ‹_›) : Frame F s₀ (s.settleLeave b) := by
  unfold State.settleLeave
  refine h.onJoined fun _ => ?_
  split
  · exact h
  · exact h.ite h.setBay.finishNat

theorem tidyJoin {b} (h : Frame F s₀ s) (hF : F.Has ending := by exact .of ‹_›) : Frame F s₀ (s.tidyJoin b) :=
  h.setJoin.settleLeave

theorem formOne {b f total} (h : Frame F s₀ s)
    (hF : F.Has bays := by exact .of ‹_›) : Frame F s₀ (s.formOne b f total).1 := by
  unfold State.formOne
  split
  · exact h
  · split
    · exact h
    · exact h.ite_fst h.setJoin

theorem formMany {n b total f} (h : Frame F s₀ s)
    (hF : F.Has bays := by exact .of ‹_›) : Frame F s₀ (State.formMany n b total f s) := by
  induction n generalizing s f with
  | zero => exact h
  | succ n ih =>
    have h1 : Frame F s₀ (s.formOne b f total).1 := h.formOne
    refine h.ite ?_
    split <;> rename_i e <;> rw [e] at h1
    · exact ih h1
    · exact h1

theorem formAll {b} (h : Frame F s₀ s) (hF : F.Has (free ||| bays) := by exact .of ‹_›) : Frame F s₀ (s.formAll b) :=
  h.onJoined fun _ => ((h.ite h.stageStalls).foldl fun _ _ hs => hs.formMany).setJoin

theorem sendFrags {b j x site} (h : Frame F s₀ s)
    (hF : F.Has (outs ||| far ||| bays) := by exact .of ‹_›) : Frame F s₀ (s.sendFrags b j x site) :=
  h.foldl fun _ _ hs => hs.sendDgram

theorem grantBytes {b n} (h : Frame F s₀ s)
    (hF : F.Has farSent := by exact .of ‹_›) : Frame F s₀ (s.grantBytes b n) :=
  h.setFarSent

theorem execBundleGrant {bay seq site} (h : Frame F s₀ s)
    (hF : F.Has (free ||| outs ||| far ||| farSent ||| bays) := by exact .of ‹_›) :
    Answers F s₀ (execBundleGrant bay seq site s) := by
  unfold Machine.execBundleGrant
  refine .next (h.onJoined fun _ => ?_)
  split
  · exact h
  · exact h.ite h.grantBytes.stageStalls.sendFrags.setJoin.setJoin

theorem execScarfCancel {hd epoch site seq} (h : Frame F s₀ s)
    (hF : F.Has ending := by exact .of ‹_›) : Answers F s₀ (execScarfCancel hd epoch site seq s) := by
  unfold Machine.execScarfCancel
  refine .next (h.onRunning fun _ => ?_)
  split
  · exact h
  · split
    · exact h.fail
    · exact h.fail.ite h.setJoin.finishNat.tidyJoin

theorem sendSack {b site} (h : Frame F s₀ s)
    (hF : F.Has (outs ||| far ||| bays) := by exact .of ‹_›) : Frame F s₀ (s.sendSack b site) :=
  h.onJoined fun _ => h.setJoin.sendDgram

theorem execAckTimer {bay site} (h : Frame F s₀ s)
    (hF : F.Has (outs ||| far ||| bays) := by exact .of ‹_›) : Answers F s₀ (execAckTimer bay site s) := by
  unfold Machine.execAckTimer
  refine .next (h.onJoined fun _ => ?_)
  split
  · exact h.sendSack.ite h
  · exact h

theorem execSack {bay port d} (h : Frame F s₀ s)
    (hF : F.Has (ending ||| free ||| far) := by exact .of ‹_›) : Answers F s₀ (execSack bay port d s) :=
  .next (h.takeDgram fun _ _ hs => hs.stageStalls.setJoin).tidyJoin

theorem execRtoExpiry {bay site} (h : Frame F s₀ s)
    (hF : F.Has (ending ||| outs ||| far) := by exact .of ‹_›) : Answers F s₀ (execRtoExpiry bay site s) :=
  .next (h.onJoin fun _ => ((h.foldl fun _ _ hs => hs.sendFrags).foldl fun _ _ hs => hs.sendCtl).setJoin).settleLeave

theorem execControlAcknowledgement {bay port d} (h : Frame F s₀ s)
    (hF : F.Has (outs ||| far ||| bays) := by exact .of ‹_›) :
    Answers F s₀ (execControlAcknowledgement bay port d s) :=
  .next (h.takeCtl fun _ _ _ hs => hs.setJoin)

theorem execPeerUnreachable {bay site} (h : Frame F s₀ s)
    (hF : F.Has ending := by exact .of ‹_›) : Answers F s₀ (execPeerUnreachable bay site s) := by
  unfold Machine.execPeerUnreachable
  refine .next (.tidyJoin (h.onJoined fun _ => ?_))
  split
  · exact h.setJoin.ite h
  · exact h

theorem verifyRx {b j key x} (h : Frame F s₀ s)
    (hF : F.Has bays := by exact .of ‹_›) : Frame F s₀ (s.verifyRx b j key x) := by
  unfold State.verifyRx
  dsimp only
  split
  · exact h.setJoin.countBay
  · exact h.setJoin.setJoin.countBay.ite h.setJoin.setJoin

theorem placeFrag {b j key d} (h : Frame F s₀ s)
    (hF : F.Has bays := by exact .of ‹_›) : Frame F s₀ (s.placeFrag b j key d) := by
  unfold State.placeFrag
  split
  · exact h.ite (h.setJoin.verifyRx.ite h.setJoin)
  · exact h.setJoin.verifyRx.ite h.setJoin

theorem execFragment {bay port d} (h : Frame F s₀ s)
    (hF : F.Has (outs ||| far ||| bays) := by exact .of ‹_›) : Answers F s₀ (execFragment bay port d s) := by
  unfold Machine.execFragment
  refine .next (h.takeDgram fun _ _ hs => ?_)
  split
  · exact hs
  · exact hs.ite (hs.countBay.ite ((hs.ite hs.placeFrag).setJoin.sendSack.ite (hs.ite hs.placeFrag).setJoin))

theorem badBundle {bay site seq e hd} (h : Frame F s₀ s)
    (hF : F.Has bays := by exact .of ‹_›) : Frame F s₀ (s.badBundle bay site seq e hd) :=
  h.setJoin.countBay

theorem execBundleLanding {bay site seq} (h : Frame F s₀ s)
    (hF : F.Has (free ||| bays) := by exact .of ‹_›) : Answers F s₀ (execBundleLanding bay site seq s) := by
  unfold Machine.execBundleLanding
  refine .next (h.onJoined fun _ => ?_)
  split
  · exact h
  · refine h.setJoin.countBay.ite ?_
    split
    · exact h.badBundle
    · exact h.badBundle.ite (h.stageStalls.ite h.setJoin)

/-! ### Machine/Catchup.lean -/

theorem serve {b q} (h : Frame F s₀ s)
    (hF : F.Has (logging ||| faults ||| cmds ||| far ||| codecFenced ||| bays) := by exact .of ‹_›) :
    Frame F s₀ (s.serve b q) := by
  unfold State.serve
  refine h.onJoined fun _ => ?_
  split
  · exact (h.useCodecs.foldl fun _ _ hs => hs.startCtl).ite h.useCodecs
  · exact h.setJoin

theorem serveAgain {b} (h : Frame F s₀ s)
    (hF : F.Has (logging ||| faults ||| cmds ||| far ||| codecFenced ||| bays) := by exact .of ‹_›) :
    Frame F s₀ (s.serveAgain b) :=
  h.onJoined fun _ => h.setJoin.foldl fun _ _ hs => hs.serve

theorem execCatchupRequest {bay port d} (h : Frame F s₀ s)
    (hF : F.Has (logging ||| faults ||| cmds ||| far ||| codecFenced ||| bays) := by exact .of ‹_›) :
    Answers F s₀ (execCatchupRequest bay port d s) :=
  .next (h.takeCtl fun _ _ _ hs => hs.serve)

theorem askFor {b j site k} (h : Frame F s₀ s)
    (hF : F.Has (outs ||| far ||| bays) := by exact .of ‹_›) : Frame F s₀ (s.askFor b j site k) :=
  h.startCtl

theorem adopt {b adm p x parts xs} (h : Frame F s₀ s)
    (hF : F.Has (memory ||| ending ||| free ||| outs ||| far) := by exact .of ‹_›) :
    Frame F s₀ (s.adopt b adm p x parts xs) :=
  ((h.foldl fun _ _ hs => hs.writeBay.writeBay.writeBay.markDirty).setJoin.foldl
    fun _ _ hs => hs.diffRecord).prepareNow.finishNat.tidyJoin

theorem badSource {b j c} (h : Frame F s₀ s)
    (hF : F.Has (ending ||| outs ||| far) := by exact .of ‹_›) : Frame F s₀ (s.badSource b j c) := by
  unfold State.badSource
  dsimp only
  split
  · exact h.setJoin.fail.settleLeave
  · exact h.setJoin.foldl fun _ _ hs => hs.askFor

theorem settleCatchup {b} (h : Frame F s₀ s)
    (hF : F.Has (memory ||| ending ||| free ||| outs ||| far) := by exact .of ‹_›) :
    Frame F s₀ (s.settleCatchup b) := by
  unfold State.settleCatchup
  refine h.onJoined fun _ => ?_
  split
  · split
    · exact h
    · split
      · exact h.badSource
      · refine h.badSource.ite ?_
        split
        · exact h.setJoin.fail.settleLeave
        · exact h.adopt
  · exact h

theorem execScarfCatchup {hd site} (h : Frame F s₀ s)
    (hF : F.Has (ending ||| outs ||| far) := by exact .of ‹_›) : Answers F s₀ (execScarfCatchup hd site s) := by
  unfold Machine.execScarfCatchup
  refine .next (h.onRunning fun _ => ?_)
  split
  · exact h
  · split
    · exact h.fail
    · exact h.fail.ite (h.fail.ite (h.ite (h.setActive.setJoin.foldl fun _ _ hs => hs.askFor)))

theorem execCatchupTimeout {bay} (h : Frame F s₀ s)
    (hF : F.Has ending := by exact .of ‹_›) : Answers F s₀ (execCatchupTimeout bay s) := by
  unfold Machine.execCatchupTimeout
  refine .next (h.onJoined fun _ => ?_)
  split
  · exact h.setJoin.fail.settleLeave.ite h
  · exact h

/-! ### Machine/Power.lean -/

theorem endHolder {b c} (h : Frame F s₀ s)
    (hF : F.Has halting := by exact .of ‹_›) : Frame F s₀ (s.endHolder b c) := by
  unfold State.endHolder
  dsimp only
  split
  · refine .ite (.useFree (.writeBay ?_)) ?_
    · split
      · exact h.useFree.finishNat
      · exact h.cutShort
    · split
      · exact h.useFree.finishNat
      · exact h.cutShort
  · split
    · exact h.useFree.finishNat
    · exact h.cutShort

theorem eraseKeys (h : Frame F s₀ s) (hF : F.Has halting := by exact .of ‹_›) : Frame F s₀ s.eraseKeys := by
  refine h.foldl fun s b hs => ?_
  have erased : Frame F s₀ (((postOrder (s.cmds.filter fun c => c.ofBay b && c.holdsKey)).foldl
      (fun s c => s.endHolder b c) s).setBay b fun y => { y with
        keys := List.replicate 4 KeySlot.empty
        join := y.join.map fun j => { j with keyHeld := false } }) :=
    (hs.foldl fun _ _ ht => ht.endHolder).setBay
  exact erased.bayEvent.ite erased

theorem keyAlarm {code} (h : Frame F s₀ s) (hF : F.Has halting := by exact .of ‹_›) : Frame F s₀ (s.keyAlarm code) :=
  h.setDev.devCause.log1.eraseKeys

theorem execKeyAlarm {code} (h : Frame F s₀ s)
    (hF : F.Has halting := by exact .of ‹_›) : Answers F s₀ (execKeyAlarm code s) :=
  .next (h.ite h.setDev.keyAlarm)

theorem haltQuiet (h : Frame F s₀ s) (hF : F.Has halting := by exact .of ‹_›) : Frame F s₀ s.haltQuiet :=
  h.foldl fun _ _ hs => hs.halt.enter.ite hs

theorem domainsOff (h : Frame F s₀ s)
    (hF : F.Has (free ||| boot ||| zeroMarks ||| cores ||| gcrt ||| dram ||| sram ||| local_ |||
      power) := by exact .of ‹_›) :
    Frame F s₀ s.domainsOff :=
  { h.loseMemory with power_eq := hF.may, cores_eq := hF.may, gcrt_eq := hF.may, boot_eq := hF.may }

/-- Below 30 V every domain is off (R402). -/
theorem cutPower {d v} {c : Prop} [Decidable c] (h : Frame F s₀ s)
    (hF : F.Has (dev ||| power ||| vin) := by exact .of ‹_›) :
    Frame F s₀ { s with dev := d, vin := v, power := if c then List.replicate 64 false else s.power } :=
  { h with dev_eq := hF.may, vin_eq := hF.may, power_eq := hF.may }

theorem execInputFault {millivolts} (h : Frame F s₀ s)
    (hF : F.Has (halting ||| flash ||| boot ||| gcrt ||| power ||| vin) := by exact .of ‹_›) :
    Answers F s₀ (execInputFault millivolts s) := by
  unfold Machine.execInputFault
  refine .next (h.ite (h.cutPower.ite ?_))
  exact h.setVin.keyAlarm.haltQuiet.logEvent.domainsOff.cutPower

theorem execThermalTrip {sensor reading} (h : Frame F s₀ s)
    (hF : F.Has (halting ||| flash ||| boot ||| gcrt ||| power) := by exact .of ‹_›) :
    Answers F s₀ (execThermalTrip sensor reading s) :=
  .next (h.ite h.setDev.keyAlarm.emit.haltQuiet.domainsOff.logEvent.setDev)

theorem execJtagInstructionLoad {drivesPins} (h : Frame F s₀ s)
    (hF : F.Has (halting ||| boot) := by exact .of ‹_›) : Answers F s₀ (execJtagInstructionLoad drivesPins s) := by
  unfold Machine.execJtagInstructionLoad
  refine .next (h.ite ?_)
  have h1 : Frame F s₀ (s.keyAlarm 4).haltQuiet := h.keyAlarm.haltQuiet
  generalize (s.keyAlarm 4).haltQuiet = s1 at h1 ⊢
  have h2 : ∀ {b d}, Frame F s₀ { s1 with boot := b, dev := d } := { h1 with boot_eq := hF.may, dev_eq := hF.may }
  exact h2

theorem execJtagTrstN (h : Frame F s₀ s)
    (hF : F.Has resetting := by exact .of ‹_›) : Answers F s₀ (execJtagTrstN s) :=
  .next (h.coldBoot.ite h)

theorem haltNow {b} (h : Frame F s₀ s)
    (hF : F.Has (halting ||| urg) := by exact .of ‹_›) : Frame F s₀ (s.haltNow b) := by
  have h1 : Frame F s₀ (if (s.bay b).st = .active then ((s.halt b false).1).enter b .quiescing else s) :=
    .ite h.halt.enter h
  unfold State.haltNow
  dsimp only
  split
  · split
    · rename_i t ht
      exact h1.execBayHalted.frame ht
    · exact h1
  · exact h1.halt.endEvict
  · exact h1

theorem postAll {q n} (h : Frame F s₀ s)
    (hF : F.Has (memory ||| ending ||| outs ||| urg) := by exact .of ‹_›) : Frame F s₀ (s.postAll q n) := by
  induction n with
  | zero => exact h
  | succ n ih =>
    unfold State.postAll
    dsimp only
    split
    · rename_i t ht
      exact ih.execCompletionPost.frame ht
    · exact ih

theorem powerOff (h : Frame F s₀ s)
    (hF : F.Has (halting ||| flash ||| boot ||| urg ||| gcrt ||| power ||| season) := by exact .of ‹_›) :
    Frame F s₀ s.powerOff :=
  ((h.setDev.foldl fun _ _ hs => hs.haltNow).foldl fun _ _ hs => hs.postAll).writeHistory.domainsOff.dropReady.setDev

theorem execPowerDown {req} (h : Frame F s₀ s)
    (hF : F.Has (halting ||| flash ||| boot ||| urg ||| gcrt ||| power ||| season) := by exact .of ‹_›) :
    Answers F s₀ (execPowerDown req s) := by
  unfold Machine.execPowerDown
  refine .next ?_
  split <;> exact h.powerOff.ite h

theorem enterLevel {d level} (h : Frame F s₀ s)
    (hF : F.Has (outs ||| dev ||| dies) := by exact .of ‹_›) : Frame F s₀ (s.enterLevel d level) :=
  h.setDie.devCause

theorem sampleDie {d} (h : Frame F s₀ s)
    (hF : F.Has (outs ||| dev ||| dies) := by exact .of ‹_›) : Frame F s₀ (s.sampleDie d) :=
  h.setDie.enterLevel.ite h.setDie

theorem execThermalSensorSample {readings} (h : Frame F s₀ s)
    (hF : F.Has (outs ||| dev ||| dies ||| sensors) := by exact .of ‹_›) :
    Answers F s₀ (execThermalSensorSample readings s) :=
  .next (h.ite (h.setSensors.foldl fun _ _ hs => hs.sampleDie))

theorem countHolds {touches : Bay → Bool} (h : Frame F s₀ s)
    (hF : F.Has (free ||| bays) := by exact .of ‹_›) : Frame F s₀ (s.countHolds touches) :=
  h.foldl fun _ _ hs => hs.countBay.useFree.ite hs

theorem execProtectionLevelExit {die} (h : Frame F s₀ s)
    (hF : F.Has (logging ||| free ||| dies ||| bays) := by exact .of ‹_›) :
    Answers F s₀ (execProtectionLevelExit die s) :=
  .next (h.ite (h.setDie.devCause.countHolds.setDie.log1.ite h.setDie.devCause.countHolds))

theorem execDramThermalHold {tier2 part} (h : Frame F s₀ s)
    (hF : F.Has dramHolds := by exact .of ‹_›) : Answers F s₀ (execDramThermalHold tier2 part s) :=
  .next (h.ite h.setDramHolds)

theorem execDramThermalRelease {tier2 part} (h : Frame F s₀ s)
    (hF : F.Has (logging ||| free ||| dramHolds ||| bays) := by exact .of ‹_›) :
    Answers F s₀ (execDramThermalRelease tier2 part s) := by
  unfold Machine.execDramThermalRelease
  refine .next ?_
  split
  · exact h
  · exact h.ite h.setDramHolds.countHolds.log1

theorem execLaneLossOfLock {port lane} (h : Frame F s₀ s)
    (hF : F.Has (sending ||| free ||| far ||| bays) := by exact .of ‹_›) :
    Answers F s₀ (execLaneLossOfLock port lane s) :=
  .next (h.laneLost.ite (h.setFarState.holdBundles.ite h))

theorem execPllLossOfLock {pll} (h : Frame F s₀ s)
    (hF : F.Has (halting ||| far) := by exact .of ‹_›) : Answers F s₀ (execPllLossOfLock pll s) := by
  unfold Machine.execPllLossOfLock
  refine .next (h.ite ?_)
  split
  · exact h.goFatal
  · exact h.goFatal
  · exact h.ite h.setPort.changePort
  · exact h.ite h.setFarState.holdBundles

theorem execCxlLinkDown {link} (h : Frame F s₀ s)
    (hF : F.Has t3down := by exact .of ‹_›) : Answers F s₀ (execCxlLinkDown link s) :=
  .next (h.ite h.setT3down)

/-! ### Machine/Recovery.lean -/

theorem countUncorr {line} (h : Frame F s₀ s)
    (hF : F.Has (clusters ||| season) := by exact .of ‹_›) : Frame F s₀ (s.countUncorr line) :=
  h.ite (h.setCluster.ite h.setSeason.setCluster)

theorem loseCut {b} (h : Frame F s₀ s) (hF : F.Has halting := by exact .of ‹_›) : Frame F s₀ (s.loseCut b) := by
  unfold State.loseCut
  refine .discardCut ?_
  split
  · exact h.cutShort
  · exact h

theorem loseLanded {b x} (h : Frame F s₀ s) (hF : F.Has bays := by exact .of ‹_›) : Frame F s₀ (s.loseLanded b x) :=
  h.setJoin

theorem loseLine {b kind x} (h : Frame F s₀ s)
    (hF : F.Has halting := by exact .of ‹_›) : Frame F s₀ (s.loseLine b kind x) := by
  unfold State.loseLine
  split
  · exact h.loseCut
  · exact h.loseLanded
  · exact h

theorem poisonLine {b line adm kind x} (h : Frame F s₀ s)
    (hF : F.Has (halting ||| lfailed) := by exact .of ‹_›) : Frame F s₀ (s.poisonLine b line adm kind x) := by
  unfold State.poisonLine
  refine h.goFatal.ite ?_
  extract_lets
  split
  · extract_lets s1
    have h1 : Frame F s₀ s1 := h.setPoison.useFree.logUnit.failAtRisk.ite h.setPoison.useFree.logUnit
    exact h1.loseLine.cutShort.ite h1.loseLine
  · exact h.setPoison.useFree.logUnit

theorem recovered {b line adm k cost} (h : Frame F s₀ s)
    (hF : F.Has (logging ||| cmds ||| bays) := by exact .of ‹_›) : Frame F s₀ (s.recovered b line adm k cost) := by
  unfold State.recovered
  refine .ite (.markCorrected ?_) ?_
  · split
    · exact h.log1.countBay
    · exact h.log1
  · split
    · exact h.log1.countBay
    · exact h.log1

theorem retryStrip {adm cost} (h : Frame F s₀ s)
    (hF : F.Has (free ||| cmds) := by exact .of ‹_›) : Frame F s₀ (s.retryStrip adm cost) := by
  unfold State.retryStrip
  split
  · exact h
  · split
    · exact h.setSlot.useFree
    · exact h

theorem ask {b w} (h : Frame F s₀ s)
    (hF : F.Has (outs ||| far ||| bays) := by exact .of ‹_›) : Frame F s₀ (s.ask b w) :=
  h.onJoined fun _ => h.setJoin.askFor

theorem execLineRecovery {line kind adm failing cost} (h : Frame F s₀ s)
    (hF : F.Has (halting ||| clusters ||| lfailed ||| far ||| season) := by exact .of ‹_›) :
    Answers F s₀ (execLineRecovery line kind adm failing cost s) := by
  unfold Machine.execLineRecovery
  refine .next (h.ite ?_)
  dsimp only
  split
  · exact h.countUncorr.useFree.poisonLine
  · refine .ite ?_ (h.countUncorr.retryStrip.ite h.countUncorr).recovered
    split
    · exact h.countUncorr.ask.useFree
    · exact h.countUncorr.poisonLine.useFree

theorem writeBackLine {b line r bytes} (h : Frame F s₀ s)
    (hF : F.Has memory := by exact .of ‹_›) : Frame F s₀ (s.writeBackLine b line r bytes) :=
  h.foldl fun _ _ hs => hs.writeBay.ite hs

theorem settleWait {b w} (h : Frame F s₀ s)
    (hF : F.Has (halting ||| lfailed) := by exact .of ‹_›) : Frame F s₀ (s.settleWait b w) := by
  unfold State.settleWait
  refine h.onJoined fun _ => .ite ?_ ?_
  · split
    · exact h
    · exact h.setJoin.poisonLine.ite h.setJoin.setJoin.recovered
  · split
    · split
      · exact h.setJoin.writeBackLine.recovered.ite h.setJoin.poisonLine
      · exact h.setJoin.poisonLine
    · exact h

theorem execCatchupData {bay port d} (h : Frame F s₀ s)
    (hF : F.Has (halting ||| lfailed ||| far) := by exact .of ‹_›) :
    Answers F s₀ (execCatchupData bay port d s) :=
  .next (h.takeCtl fun _ _ _ hs => (hs.setJoin.foldl fun _ _ ht => ht.settleWait).settleCatchup)

/-! ### Machine/Time.lean -/

theorem execSiteTodFrame {frame} (h : Frame F s₀ s)
    (hF : F.Has (clock ||| devTele) := by exact .of ‹_›) : Answers F s₀ (execSiteTodFrame frame s) :=
  .next (h.ite (h.countDev.ite h.setClock))

theorem timeState {st} (h : Frame F s₀ s)
    (hF : F.Has (outs ||| clock ||| dev) := by exact .of ‹_›) : Frame F s₀ (s.timeState st) :=
  h.ite h.setClock.devCause

theorem logStep {size slew} (h : Frame F s₀ s)
    (hF : F.Has (logging ||| flash) := by exact .of ‹_›) : Frame F s₀ (s.logStep size slew) :=
  h.log1.logEvent

theorem stepTo {want} (h : Frame F s₀ s)
    (hF : F.Has (logging ||| clock ||| flash) := by exact .of ‹_›) : Frame F s₀ (s.stepTo want) :=
  h.setClock.logStep.ite h

theorem bigError {want err} (h : Frame F s₀ s)
    (hF : F.Has (logging ||| clock ||| flash) := by exact .of ‹_›) : Frame F s₀ (s.bigError want err) :=
  (h.setClock.ite (h.setClock.stepTo.setClock.timeState.ite h.setClock.stepTo)).ite (h.setClock.setClock.logStep.ite h.setClock)

theorem driveTime {gov want err} (h : Frame F s₀ s)
    (hF : F.Has (logging ||| clock ||| flash) := by exact .of ‹_›) : Frame F s₀ (s.driveTime gov want err) := by
  unfold State.driveTime
  refine h.setClock.timeState.ite ?_
  split
  · exact h.stepTo.timeState.ite h
  · exact h.setClock.setClock.timeState.ite h.setClock
  · exact (h.setClock.bigError.ite h.setClock).ite h.setClock
  · exact h.ite (h.bigError.ite h.setClock.timeState)

theorem acceptEdge {gov} (h : Frame F s₀ s)
    (hF : F.Has (logging ||| clock ||| flash ||| effFeat) := by exact .of ‹_›) : Frame F s₀ (s.acceptEdge gov) :=
  h.setClock.driveTime.refreshLicence

theorem execSitePpsEdge (h : Frame F s₀ s)
    (hF : F.Has (logging ||| clock ||| flash ||| effFeat ||| devTele) := by exact .of ‹_›) :
    Answers F s₀ (execSitePpsEdge s) := by
  unfold Machine.execSitePpsEdge
  refine .next (h.ite (h.countDev.ite ?_))
  split
  · exact h.acceptEdge
  · exact h.acceptEdge.ite h.countDev.acceptEdge

theorem execPpsHoldover (h : Frame F s₀ s)
    (hF : F.Has (outs ||| clock ||| dev) := by exact .of ‹_›) : Answers F s₀ (execPpsHoldover s) :=
  .next (h.setClock.timeState.ite h)

/-! ### Machine/Registers.lean -/

theorem via {o} (h : Frame F s₀ s) (ho : Answers F s₀ o) : Frame F s₀ (s.via o) := by
  obtain ⟨t, rfl, hf⟩ := ho
  exact hf

theorem bayAccessErr {b} (h : Frame F s₀ s) (hF : F.Has bays := by exact .of ‹_›) : Frame F s₀ (s.bayAccessErr b) :=
  h.setRegs

theorem setCtlConfig {c} (h : Frame F s₀ s) (hF : F.Has ctl := by exact .of ‹_›) : Frame F s₀ (s.setCtlConfig c) :=
  h.ite (h.setCtl.ite h.setCtl)

theorem setUrgBase {x} (h : Frame F s₀ s)
    (hF : F.Has (outs ||| dev ||| urg) := by exact .of ‹_›) : Frame F s₀ (s.setUrgBase x) :=
  h.ite (h.devCause.ite h.setUrg)

theorem writeDevReg {m reg v} (h : Frame F s₀ s)
    (hF : F.Has (restarting ||| faults ||| flash ||| host ||| power ||| season ||| errLog) := by exact .of ‹_›) :
    Frame F s₀ (s.writeDevReg m reg v) := by
  unfold State.writeDevReg
  dsimp only
  split
  · exact h.setDev
  · exact h.setDev
  · exact h.writeIntMask
  · exact h.setDev
  · exact h.via h.execCoreReset
  · exact h.via h.execClusterReset
  · exact h.setDev
  · exact h.via h.execDeviceReset
  · exact h.via h.execPowerDown
  · exact h.setCtlConfig
  · exact h.setCtlConfig
  · exact h.setCtlConfig
  · exact h.writeCtlWord
  · exact h.ringCtlSq
  · exact h.ringCtlCq
  · exact h.setUrgBase
  · exact h.writeUrgWord
  · exact h.ringUrgSq
  · exact h.ringUrgCq
  · exact h.setClock
  · exact h

theorem setBayConfig {b r} (h : Frame F s₀ s)
    (hF : F.Has bays := by exact .of ‹_›) : Frame F s₀ (s.setBayConfig b r) :=
  h.ite (h.setRegs.ite h.setRegs)

theorem writeBayReg {b m reg v} (h : Frame F s₀ s)
    (hF : F.Has (outs ||| cmds ||| bays) := by exact .of ‹_›) : Frame F s₀ (s.writeBayReg b m reg v) :=
  h.setRegs.ite (h.setBay.ite (h.setRegs.ite (h.writeEventMask.ite (h.setBayConfig.ite (h.setBayConfig.ite
    (h.setBayConfig.ite (h.writeAdminWord.ite ((h.ringSq.ite h.ringCq).ite (h.setCounter.recheck.ite h)))))))))

theorem writeMsix {fn off data} (h : Frame F s₀ s)
    (hF : F.Has msix := by exact .of ‹_›) : Frame F s₀ (s.writeMsix fn off data) :=
  h.setMsix fun hm => Mem.wf_write hm _ _ _

theorem writeWindow {fn b off data} (h : Frame F s₀ s)
    (hF : F.Has (outs ||| msix ||| cmds ||| bays) := by exact .of ‹_›) :
    Frame F s₀ (s.writeWindow fn b off data) := by
  unfold State.writeWindow
  refine (h.ite (h.bayAccessErr.ite (h.writeMsix.ite h))).ite ?_
  split
  · exact h.bayAccessErr
  · exact h
  · exact h.writeBayReg
  · exact h.writeBayReg
  · exact h.writeBayReg

theorem writeBar0 {off data} (h : Frame F s₀ s)
    (hF : F.Has (restarting ||| faults ||| flash ||| host ||| power ||| season ||| errLog) := by exact .of ‹_›) :
    Frame F s₀ (s.writeBar0 off data) := by
  unfold State.writeBar0
  refine h.writeWindow.ite ((ite ?_ h.devCause).ite ((h.devCause.ite (h.writeMsix.ite h)).ite ?_))
  · exact h.setUrgRing fun hm => Mem.wf_write hm _ _ _
  · split
    · exact h.devCause
    · exact h
    · exact h.writeDevReg
    · exact h.writeDevReg
    · exact h.writeDevReg

theorem execRegisterWrite {fn offset data} (h : Frame F s₀ s)
    (hF : F.Has (restarting ||| faults ||| flash ||| host ||| power ||| season ||| errLog) := by exact .of ‹_›) :
    Answers F s₀ (execRegisterWrite fn offset data s) := by
  unfold Machine.execRegisterWrite
  refine .next (h.ite ?_)
  split
  · exact h.emit
  · exact h.writeBar0
  · exact h.writeWindow.ite h

/-! ### Machine/Scarf.lean -/

theorem sendHello {b site answer} (h : Frame F s₀ s)
    (hF : F.Has (outs ||| far ||| bays) := by exact .of ‹_›) : Frame F s₀ (s.sendHello b site answer) :=
  h.startCtl

theorem completeJoin {b} (h : Frame F s₀ s)
    (hF : F.Has ending := by exact .of ‹_›) : Frame F s₀ (s.completeJoin b) := by
  unfold State.completeJoin
  split
  · exact h
  · split
    · exact h
    · exact h.setJoin.finishNat

theorem execScarfJoin {hd blk group slot} (h : Frame F s₀ s)
    (hF : F.Has (ending ||| outs ||| far) := by exact .of ‹_›) :
    Answers F s₀ (execScarfJoin hd blk group slot s) := by
  unfold Machine.execScarfJoin
  refine .next (h.onRunning fun _ => ?_)
  split
  · exact h
  · split
    · exact h.fail
    · exact h.setActive.setBay.completeJoin.ite (h.setActive.setBay.foldl fun _ _ hs => hs.sendHello)

theorem execHello {bay port d} (h : Frame F s₀ s)
    (hF : F.Has (ending ||| logging ||| far) := by exact .of ‹_›) : Answers F s₀ (execHello bay port d s) := by
  unfold Machine.execHello
  refine .next (h.takeCtl fun _ _ _ hs => ?_)
  dsimp only
  split
  · exact (hs.setJoin.completeJoin.sendHello.ite hs.setJoin.completeJoin).ite hs.setJoin.setBay.fail
  · exact (hs.setJoin.setJoin.ite hs.setJoin.setJoin.log1).sendHello.ite (hs.setJoin.setJoin.ite
      hs.setJoin.setJoin.log1)

theorem execJoinHelloTimeout {bay} (h : Frame F s₀ s)
    (hF : F.Has ending := by exact .of ‹_›) : Answers F s₀ (execJoinHelloTimeout bay s) := by
  unfold Machine.execJoinHelloTimeout
  refine .next ?_
  split
  · split
    · exact h.completeJoin.ite h
    · exact h
  · exact h

theorem execScarfLeave {hd} (h : Frame F s₀ s)
    (hF : F.Has ending := by exact .of ‹_›) : Answers F s₀ (execScarfLeave hd s) := by
  unfold Machine.execScarfLeave
  refine .next (h.onRunning fun _ => ?_)
  split
  · exact h
  · split
    · exact h.fail
    · exact h.fail.ite (h.ite h.setActive.setJoin.settleLeave)

theorem advanceEpoch {b e} (h : Frame F s₀ s)
    (hF : F.Has (logging ||| free ||| faults ||| cmds ||| far ||| codecFenced ||| bays) := by exact .of ‹_›) :
    Frame F s₀ (s.advanceEpoch b e) :=
  h.setJoin.prepareNow.serveAgain

theorem execScarfEpochClose {hd epoch step} (h : Frame F s₀ s)
    (hF : F.Has (ending ||| logging ||| free ||| faults ||| far ||| codecFenced) := by exact .of ‹_›) :
    Answers F s₀ (execScarfEpochClose hd epoch step s) := by
  unfold Machine.execScarfEpochClose
  refine .next (h.onRunning fun _ => ?_)
  split
  · exact h
  · split
    · exact h.fail.ite (h.ite (h.fail.ite (h.advanceEpoch.finishNat.ite h.setActive.setJoin)))
    · exact h.fail

theorem startFetch {b site epoch} (h : Frame F s₀ s)
    (hF : F.Has (outs ||| far ||| bays) := by exact .of ‹_›) : Frame F s₀ (s.startFetch b site epoch) :=
  h.onJoined fun _ => h.ite h.setJoin.askFor

theorem nextBlock {b ftz j p l q n ti k adm} (h : Frame F s₀ s)
    (hF : F.Has (outs ||| cmds ||| far ||| bays) := by exact .of ‹_›) :
    Frame F s₀ (s.nextBlock b ftz j p l q n ti k adm).1 := by
  unfold State.nextBlock
  dsimp only
  split
  · split
    · exact h.ite_fst h.setJoin.startFetch
    · exact h.startFetch
  · refine h.ite_fst ?_
    split
    · split
      · exact h.markCorrected.ite_fst h.markCorrected.setJoin.startFetch
      · exact h.markCorrected.startFetch
    · exact h.markCorrected

theorem passOne {b c ftz p} {a : State × PassEnd} {x} (h : Frame F s₀ a.1)
    (hF : F.Has (memory ||| logging ||| free ||| faults ||| cmds ||| far ||| codecFenced |||
      bays) := by exact .of ‹_›) :
    Frame F s₀ (State.passOne b c ftz p a x).1 := by
  unfold State.passOne
  extract_lets s
  split
  · refine h.ite_fst ?_
    extract_lets _ nb
    have base : Frame F s₀ nb.1 := by
      unfold nb
      split
      · exact h
      · split
        · exact h.nextBlock
        · exact h
    split
    · exact h
    · split
      · exact base
      · split
        · exact base
        · extract_lets _ _ _ _ written
          split
          · exact base.stageStalls
          · split
            · exact base.useCodec
            · refine setJoin (s := written) ?_
              unfold written
              split
              · exact base.useCodec.raise.writeBay.writeBay.writeBay.markDirty
              · exact base.useCodec.raise
  · exact h

theorem passRecords {b c p old new} (h : Frame F s₀ s)
    (hF : F.Has (memory ||| bays) := by exact .of ‹_›) : Frame F s₀ (s.passRecords b c p old new) :=
  h.foldl fun _ _ hs => hs.foldl fun _ _ ht => ht.diffRecord.ite ht

theorem endClose {b j c st} (h : Frame F s₀ s)
    (hF : F.Has (ending ||| logging ||| free ||| faults ||| far ||| codecFenced) := by exact .of ‹_›) :
    Frame F s₀ (s.endClose b j c st) :=
  (h.markCorrected.ite h).advanceEpoch.finishNat.tidyJoin

theorem execEpochClosePass {bay} (h : Frame F s₀ s)
    (hF : F.Has (memory ||| ending ||| logging ||| free ||| faults ||| far ||| codecFenced) := by exact .of ‹_›) :
    Answers F s₀ (execEpochClosePass bay s) := by
  unfold Machine.execEpochClosePass
  refine .next (h.onJoined fun _ => ?_)
  split
  · extract_lets _ pass _ recorded r _ formed
    have hpass : Frame F s₀ pass.1 := h.foldl_fst fun _ _ hs => hs.passOne
    have hrecorded : Frame F s₀ recorded := hpass.ite hpass.passRecords
    have hr : Frame F s₀ r.1 := h.ite_fst (hrecorded.setJoin.ite_fst hrecorded)
    have hformed : Frame F s₀ formed := hr.formAll
    refine h.advanceEpoch.finishNat.tidyJoin.ite ?_
    split
    · exact hr.setJoin.fail.settleLeave
    · split
      · refine hformed.setJoin.fail.settleLeave.ite ?_
        split
        · exact hformed.endClose.setJoin.ite hformed
        · exact hformed
      · exact hformed
  · exact h.formAll.tidyJoin

theorem execPortHoldTimeout {bay} (h : Frame F s₀ s)
    (hF : F.Has (ending ||| logging ||| free ||| faults ||| far ||| codecFenced) := by exact .of ‹_›) :
    Answers F s₀ (execPortHoldTimeout bay s) := by
  unfold Machine.execPortHoldTimeout
  refine .next (h.onJoined fun _ => ?_)
  split
  · exact h.endClose.ite h
  · exact h

theorem sendMgmt {b member m} (h : Frame F s₀ s)
    (hF : F.Has sending := by exact .of ‹_›) : Frame F s₀ (s.sendMgmt b member m) := by
  unfold State.sendMgmt
  dsimp only
  split
  · exact h.emit.sendMsg
  · exact h.emit

theorem sendVector {b e} (h : Frame F s₀ s)
    (hF : F.Has (outs ||| far ||| bays) := by exact .of ‹_›) : Frame F s₀ (s.sendVector b e) :=
  h.onJoined fun _ => h.ite (h.setJoin.foldl fun _ _ hs => hs.startCtl)

theorem takeReport {b r} (h : Frame F s₀ s)
    (hF : F.Has (outs ||| far ||| bays) := by exact .of ‹_›) : Frame F s₀ (s.takeReport b r) :=
  h.setJoin.sendVector

theorem execAdmissionCut {bay} (h : Frame F s₀ s)
    (hF : F.Has (sending ||| far ||| bays) := by exact .of ‹_›) : Answers F s₀ (execAdmissionCut bay s) :=
  .next (h.onJoined fun _ => h.ite (h.setJoin.takeReport.ite h.setJoin.sendMgmt))

theorem relaySite {b j m} (h : Frame F s₀ s)
    (hF : F.Has sending := by exact .of ‹_›) : Frame F s₀ (s.relaySite b j m) :=
  (h.foldl fun _ _ hs => hs.sendMgmt).ite h

theorem takeEntry {b k} (h : Frame F s₀ s)
    (hF : F.Has (sending ||| free ||| far ||| bays) := by exact .of ‹_›) : Frame F s₀ (s.takeEntry b k) :=
  h.onJoined fun _ => h.log2.ite (h.ite h.setJoin.relaySite.prepareNow)

theorem execLedgerEntry {bay port d} (h : Frame F s₀ s)
    (hF : F.Has (sending ||| free ||| far ||| bays) := by exact .of ‹_›) :
    Answers F s₀ (execLedgerEntry bay port d s) :=
  .next (h.takeCtl fun _ _ _ hs => hs.takeEntry.ite hs)

theorem execAdmissionVector {bay port d} (h : Frame F s₀ s)
    (hF : F.Has (sending ||| far ||| bays) := by exact .of ‹_›) :
    Answers F s₀ (execAdmissionVector bay port d s) :=
  .next (h.takeCtl fun _ _ _ hs => hs.setJoin.relaySite.ite hs)

theorem execManagementPacket {bay m} (h : Frame F s₀ s)
    (hF : F.Has (sending ||| free ||| far ||| bays) := by exact .of ‹_›) :
    Answers F s₀ (execManagementPacket bay m s) := by
  unfold Machine.execManagementPacket
  refine .next (h.takeMsg.onJoined fun _ => ?_)
  split
  · exact h.takeMsg.takeReport.ite h.takeMsg
  · exact h.takeMsg.ite h.takeMsg.setJoin
  · exact h.takeMsg.ite h.takeMsg.takeEntry

theorem execTallySlot {bay slot} (h : Frame F s₀ s)
    (hF : F.Has (sending ||| free ||| far ||| bays) := by exact .of ‹_›) :
    Answers F s₀ (execTallySlot bay slot s) := by
  unfold Machine.execTallySlot
  refine .next (h.onJoined fun _ => h.ite ?_)
  split
  · exact h
  · exact (h.setJoin.foldl fun _ _ hs => hs.startCtl).takeEntry

theorem execLedgerFinal {bay} (h : Frame F s₀ s)
    (hF : F.Has (ending ||| logging ||| free ||| faults ||| far ||| codecFenced) := by exact .of ‹_›) :
    Answers F s₀ (execLedgerFinal bay s) := by
  unfold Machine.execLedgerFinal
  refine .next (h.onJoined fun _ => h.ite ?_)
  dsimp only
  split
  · exact h.setJoin.setJoin.prepareNow.serveAgain.tidyJoin
  · exact (h.setJoin.ite h.setJoin.setJoin.bayEvent).settleLeave

theorem execDigest {bay port d} (h : Frame F s₀ s)
    (hF : F.Has (outs ||| far ||| bays) := by exact .of ‹_›) : Answers F s₀ (execDigest bay port d s) :=
  .next (h.takeCtl fun _ _ _ hs => hs.setJoin)

theorem decideDigest {b j l q} (h : Frame F s₀ s)
    (hF : F.Has (logging ||| bays) := by exact .of ‹_›) : Frame F s₀ (s.decideDigest b j l q) := by
  unfold State.decideDigest
  dsimp only
  split
  · exact h.setJoin
  · exact h.setJoin.ite h.setJoin.log1

theorem replay {b j p l q} (h : Frame F s₀ s)
    (hF : F.Has (free ||| outs ||| far ||| bays) := by exact .of ‹_›) : Frame F s₀ (s.replay b j p l q).1 :=
  (h.useFree.ite h).setJoin.sendDigest

theorem execDigestSettle {bay} (h : Frame F s₀ s)
    (hF : F.Has (logging ||| free ||| faults ||| cmds ||| far ||| codecFenced ||| bays) := by exact .of ‹_›) :
    Answers F s₀ (execDigestSettle bay s) := by
  unfold Machine.execDigestSettle
  refine .next (h.onJoined fun _ => ?_)
  dsimp only
  split
  · exact h.ite ((h.ite (h.setJoin.serveAgain.ite (h.replay.decideDigest.serveAgain.ite h.replay))).ite (h.ite
      h.decideDigest.serveAgain))
  · exact h

theorem execFarFilteredFrame {f} (h : Frame F s₀ s)
    (hF : F.Has devTele := by exact .of ‹_›) : Answers F s₀ (execFarFilteredFrame f s) :=
  .next (h.countDev.ite (h.countDev.ite (h.countDev.ite h)))

end Frame

end Sys2Proof
end

section
/-!
What every command touches, and what follows from it: no command faults or is refused, none touches what only the outside
world changes, memories stay in their canonical form (log 2), and each family of commands has its frame.
-/
set_option Elab.async false
namespace Sys2Proof
open Machine Fields

/-- What each command may touch. -/
def touched : Instr → Fields
  -- the queue opcodes
  | .nop _ | .queueCreate _ _ | .queueDelete _ _ _ | .counterSet _ _ _ _ _ | .memMap _ _ | .updateDisarm _ _
  | .collGroupDestroy _ _ | .triggerArm _ _ | .triggerDisarm _ _ | .scarfLeave _ | .scarfCancel _ _ _ _
  | .ckptCut _ _ _ | .bindCluster _ _ _ _ | .bindMemory _ _ _ _ _ | .bindShares _ _ _ | .keyErase _ _ => ending
  | .linkTest _ _ _ _ => ending ||| free
  | .shardMapLoad _ _ _ | .ckptVerify _ _ _ _ | .keyLoad _ _ _ _ | .txnBegin _ _ | .txnRollback _ _ => ending ||| outs
  | .licenceInstall _ _ _ => ending ||| flash ||| effFeat
  | .resumeBay _ _ => ending ||| outs ||| urg
  | .scarfJoin _ _ _ _ | .scarfCatchup _ _ => ending ||| outs ||| far
  | .txnCommit _ _ _ => ending ||| outs ||| version ||| peg
  | .normClip _ _ _ _ | .collGroupCreate _ _ _ => sending ||| ending
  | .identify _ _ _ | .memFill _ _ _ _ | .rngFill _ _ | .seasonReport _ _ _ | .floorplanRead _ _ _ =>
    memory ||| ending
  | .entropyRead _ _ _ => memory ||| ending ||| trng
  | .memPlace _ _ _ _ | .quantStats _ _ | .convert _ _ | .digestRun _ _ _ _ => memory ||| ending ||| outs
  | .scarfEpochClose _ _ _ => ending ||| logging ||| free ||| faults ||| far ||| codecFenced
  | .exportStream _ _ _ _ | .ckptRestore _ _ _ _ => memory ||| ending ||| free ||| outs
  | .getLog _ _ _ _ _ _ _ => memory ||| ending ||| errLog ||| bootLog
  | .kernelLaunch _ _ => memory ||| ending ||| outs ||| cores
  | .telemetryRead _ _ _ _ => memory ||| ending ||| free ||| clock
  | .cipherRun _ _ => memory ||| ending ||| logging ||| faults
  | .updateArm _ _ _ _ _ => sending ||| memory ||| ending
  | .ckptRelease _ _ | .stepUpdate _ _ _ _ _ => sending ||| memory ||| ending ||| faults
  | .memCopy _ _ _ _ | .stepGather _ _ _ => sending ||| memory ||| ending ||| free
  | .ckptDrain _ _ _ _ _ => sending ||| memory ||| ending ||| faults ||| codecFenced
  | .matmul _ _ => memory ||| ending ||| logging ||| free ||| faults ||| clusters ||| lfailed
  | .collAllreduce _ _ | .collAllgather _ _ | .collReduceScatter _ _ | .collBroadcast _ _ =>
    sending ||| memory ||| ending ||| free ||| faults ||| clusters ||| lfailed
  | .bayReset _ _ _ => halting ||| clusters ||| lfailed ||| bootLog
  | .haltBay _ _ | .evictBay _ _ _ => halting ||| urg ||| clusters ||| lfailed ||| bootLog
  -- the core steps
  | .tidyCvt _ _ _ | .tidyWid _ _ _ | .tidyStat _ _ _ | .tidyDrop _ _ _ _ | .grainGet _ _ _ => cores ||| bays
  | .tidyQblk _ _ _ => free ||| cores ||| bays
  | .xtenonCsrWrite _ _ _ | .kernelEcallExit _ | .coreException _ _ _ => ending ||| cores
  | .tidyDma _ _ _ | .cycleLimit _ => ending ||| free ||| cores
  | .tidyRsc _ _ _ _ | .tidyGth _ _ _ => ending ||| free ||| outs ||| cores
  | .tidySct _ _ _ => memory ||| ending ||| free ||| cores
  | .dmaDescriptorDone _ _ => memory ||| ending ||| free ||| outs ||| cores
  -- the doorbells, registers, apertures and resets
  | .adminPairEnable _ _ | .adminPairDisable _ _ => bays
  | .ctlCqHead _ | .controlPairEnable _ | .controlPairDisable _ => ctl
  | .urgSqTail _ | .urgCqHead _ => urg
  | .completionDoorbell _ _ _ | .eventMaskWrite _ _ => outs ||| bays
  | .eventCounterWrite _ _ _ => cmds ||| bays
  | .intMaskWrite _ => outs ||| dev
  | .apertureRead _ _ _ => free ||| outs ||| bays
  | .urgentQueueEnable _ | .urgentQueueDisable _ => outs ||| dev ||| urg
  | .apertureWrite _ _ _ => memory ||| bays
  | .ctlSqTail _ _ => memory ||| ctl
  | .submissionDoorbell _ _ _ _ => memory ||| outs ||| bays
  | .coreReset _ => memory ||| ending ||| free ||| outs ||| dev ||| cores
  | .clusterReset _ | .vfFunctionLevelReset _ => halting ||| clusters ||| lfailed ||| bootLog
  | .powerDown _ =>
    halting ||| flash ||| boot ||| urg ||| clusters ||| lfailed ||| gcrt ||| power ||| season ||| bootLog
  | .deviceReset _ | .pfFunctionLevelReset => restarting
  | .registerWrite _ _ _ => restarting ||| faults ||| flash ||| host ||| power ||| season ||| errLog
  -- the Joiner, pegs, halts, and the training and checkpoint events
  | .haltMemoryAbsorb _ _ | .haltFlushLate _ => bays
  | .predictiveCut _ => outs ||| bays
  | .coalesceTimer _ => outs ||| ctl ||| bays
  | .urgentDoorbellSample => ending ||| urg ||| nextAdm
  | .entryFetch _ => ending ||| free ||| nextAdm ||| joiner
  | .completionPost _ => memory ||| ending ||| outs ||| urg
  | .updateSegmentArrival _ _ _ => sending ||| memory ||| ending ||| faults
  | .pegComplete => sending ||| memory ||| ending ||| peg ||| cores
  | .triggerFire _ _ => sending ||| memory ||| ending ||| free ||| faults ||| clusters ||| lfailed
  | .clusterResetAbsorb _ | .evictBoundaryReached _ | .evictTimeout _ => halting ||| clusters ||| lfailed ||| bootLog
  | .bayHalted _ | .cutCopy _ => halting ||| urg ||| clusters ||| lfailed ||| bootLog
  | .commandDispatch _ => halting ||| clusters ||| lfailed ||| minor ||| bootLog
  | .pegDrainLimit => halting ||| peg ||| clusters ||| lfailed ||| bootLog
  -- the Scarf engine
  | .bundleLanding _ _ _ => free ||| bays
  | .fragment _ _ _ | .digest _ _ _ | .controlAcknowledgement _ _ _ | .ackTimer _ _ => outs ||| far ||| bays
  | .joinHelloTimeout _ | .peerUnreachable _ _ => ending
  | .bundleGrant _ _ _ => free ||| outs ||| far ||| farSent ||| bays
  | .rtoExpiry _ _ => ending ||| outs ||| far
  | .sack _ _ _ => ending ||| free ||| far
  | .admissionVector _ _ _ | .admissionCut _ => sending ||| far ||| bays
  | .catchupRequest _ _ _ => logging ||| faults ||| cmds ||| far ||| codecFenced ||| bays
  | .hello _ _ _ => ending ||| logging ||| far
  | .ledgerEntry _ _ _ | .tallySlot _ _ => sending ||| free ||| far ||| bays
  | .digestSettle _ => logging ||| free ||| faults ||| cmds ||| far ||| codecFenced ||| bays
  | .portHoldTimeout _ | .ledgerFinal _ => ending ||| logging ||| free ||| faults ||| far ||| codecFenced
  | .epochClosePass _ => memory ||| ending ||| logging ||| free ||| faults ||| far ||| codecFenced
  | .catchupData _ _ _ => halting ||| clusters ||| lfailed ||| far ||| bootLog
  -- the site fabric
  | .counterAdd _ => cmds ||| ports ||| bays
  | .collJoinTimeout _ _ => ending
  | .packetRelay _ _ => sending
  | .flitReceive _ _ | .replayRequest _ _ | .stompFlit _ _ => sending ||| bays
  | .portRetry _ _ _ => sending ||| power ||| bootLog
  | .readRequest _ => sending ||| free ||| bays
  | .laneLossOfLock _ _ => sending ||| free ||| far ||| bays
  | .groupControl _ => sending ||| ending
  | .fabricWrite _ => sending ||| memory
  | .readResponse _ => sending ||| memory ||| ending
  | .groupAbort _ _ | .collSilentTimeout _ _ | .gatherSegment _ => sending ||| memory ||| ending ||| free
  | .collectiveSegment _ => sending ||| memory ||| ending ||| free ||| faults ||| clusters ||| lfailed
  -- repair, ageing, boot and firmware
  | .patrolScrub _ => 0
  | .dramRefresh _ _ _ => bays
  | .historyWrite => flash ||| season
  | .pldmFirmwareUpdate _ => flash ||| boot
  | .imageSelection => flash ||| boot ||| power ||| bootLog
  | .cubeSubstitution _ _ _ => logging ||| clusters ||| bays
  | .dramTraining _ _ => boot ||| t3cap ||| dramRepairs ||| power ||| bootLog
  | .bist _ => flash ||| boot ||| clusters ||| dramRepairs ||| power ||| bootLog
  | .coreRetirement _ _ => logging ||| flash ||| clusters ||| bays
  | .bankRetirement _ _ => logging ||| free ||| flash ||| clusters ||| bays
  | .gcrtBroadcast _ => flash ||| boot ||| clusters ||| lmap ||| lrisk ||| lfailed ||| gcrt ||| power ||| bootLog
  | .ready => logging ||| free ||| flash ||| boot ||| devSince ||| season ||| bootLog
  | .laneTraining _ _ _ => sending ||| free ||| boot ||| far ||| power ||| bootLog
  | .seasoningSample _ => sending ||| free ||| clusters ||| minor ||| season ||| bays
  | .nvOverlay =>
    logging ||| boot ||| bootFeat ||| effFeat ||| clusters ||| nv ||| far ||| power ||| season ||| bootLog
  | .clusterRetirement _ =>
    logging ||| flash ||| clusters ||| lmap ||| lrisk ||| cores ||| gcrt ||| sram ||| local_ ||| poison |||
    power ||| bays
  | .bootRomStage _ => halting ||| boot ||| clusters ||| lfailed ||| power ||| bootLog
  | .lineRecovery _ _ _ _ _ => halting ||| clusters ||| lfailed ||| far ||| season ||| bootLog
  | .pciePerstN _ => restarting
  | .pendingBankTimeout => restarting ||| flash
  | .powerInRange | .resetN _ => resetting ||| flash
  -- power, alarms, thermal, clocks, time, entropy and the remaining events
  | .cxlLinkDown _ => t3down
  | .dramThermalHold _ _ => dramHolds
  | .farFilteredFrame _ => devTele
  | .licenceWindowEdge => effFeat
  | .trngStartupDone => trng
  | .siteTodFrame _ => clock ||| devTele
  | .ppsHoldover => outs ||| clock ||| dev
  | .catchupTimeout _ => ending
  | .thermalSensorSample _ => outs ||| dev ||| dies ||| sensors
  | .alarmConditionCleared => ending ||| dev ||| trng
  | .dramThermalRelease _ _ => logging ||| free ||| dramHolds ||| bays
  | .protectionLevelExit _ => logging ||| free ||| dies ||| bays
  | .sitePpsEdge => logging ||| clock ||| flash ||| effFeat ||| devTele
  | .managementPacket _ _ => sending ||| free ||| far ||| bays
  | .trngHealthFailure => ending ||| logging ||| trng
  | .trngOutput _ => memory ||| ending ||| logging ||| trng
  | .keyAlarm _ => halting ||| clusters ||| lfailed ||| bootLog
  | .jtagInstructionLoad _ => halting ||| boot ||| clusters ||| lfailed ||| bootLog
  | .pllLossOfLock _ => halting ||| clusters ||| lfailed ||| far ||| bootLog
  | .thermalTrip _ _ => halting ||| flash ||| boot ||| clusters ||| lfailed ||| gcrt ||| power ||| bootLog
  | .inputFault _ => halting ||| flash ||| boot ||| clusters ||| lfailed ||| gcrt ||| power ||| vin ||| bootLog
  | .jtagTrstN => resetting ||| flash

/-- Whoever may touch what a command may touch keeps the rest through the command, which goes on. -/
theorem exec_answers_of {F : Fields} {i : Instr} (s : State) (hF : F.Has (touched i)) : Answers F s (exec i s) := by
  have h : Frame F s s := .refl
  cases i <;> dsimp only [touched] at hF
  case nop => exact h.execNop
  case identify => exact h.execIdentify
  case getLog => exact h.execGetLog
  case queueCreate => exact h.execQueueCreate
  case queueDelete => exact h.execQueueDelete
  case counterSet => exact h.execCounterSet
  case memCopy => exact h.execMemCopy
  case memFill => exact h.execMemFill
  case memMap => exact h.execMemMap
  case memPlace => exact h.execMemPlace
  case kernelLaunch => exact h.execKernelLaunch
  case matmul => exact h.execMatmul
  case quantStats => exact h.execQuantStats
  case convert => exact h.execConvert
  case rngFill => exact h.execRngFill
  case stepGather => exact h.execStepGather
  case stepUpdate => exact h.execStepUpdate
  case updateArm => exact h.execUpdateArm
  case updateDisarm => exact h.execUpdateDisarm
  case normClip => exact h.execNormClip
  case shardMapLoad => exact h.execShardMapLoad
  case collAllreduce => exact h.execCollAllreduce
  case collAllgather => exact h.execCollAllgather
  case collReduceScatter => exact h.execCollReduceScatter
  case collBroadcast => exact h.execCollBroadcast
  case collGroupCreate => exact h.execCollGroupCreate
  case collGroupDestroy => exact h.execCollGroupDestroy
  case triggerArm => exact h.execTriggerArm
  case triggerDisarm => exact h.execTriggerDisarm
  case scarfJoin => exact h.execScarfJoin
  case scarfLeave => exact h.execScarfLeave
  case scarfEpochClose => exact h.execScarfEpochClose
  case scarfCancel => exact h.execScarfCancel
  case scarfCatchup => exact h.execScarfCatchup
  case ckptCut => exact h.execCkptCut
  case ckptDrain => exact h.execCkptDrain
  case ckptRelease => exact h.execCkptRelease
  case ckptRestore => exact h.execCkptRestore
  case ckptVerify => exact h.execCkptVerify
  case exportStream => exact h.execExportStream
  case txnBegin => exact h.execTxnBegin
  case txnCommit => exact h.execTxnCommit
  case txnRollback => exact h.execTxnRollback
  case bindCluster => exact h.execBindCluster
  case bindMemory => exact h.execBindMemory
  case bindShares => exact h.execBindShares
  case bayReset => exact h.execBayReset
  case keyLoad => exact h.execKeyLoad
  case keyErase => exact h.execKeyErase
  case cipherRun => exact h.execCipherRun
  case digestRun => exact h.execDigestRun
  case entropyRead => exact h.execEntropyRead
  case licenceInstall => exact h.execLicenceInstall
  case telemetryRead => exact h.execTelemetryRead
  case seasonReport => exact h.execSeasonReport
  case floorplanRead => exact h.execFloorplanRead
  case linkTest => exact h.execLinkTest
  case haltBay => exact h.execHaltBay
  case evictBay => exact h.execEvictBay
  case resumeBay => exact h.execResumeBay
  case tidyCvt => exact h.execTidyCvt
  case tidyWid => exact h.execTidyWid
  case tidyStat => exact h.execTidyStat
  case tidyRsc => exact h.execTidyRsc
  case tidyQblk => exact h.execTidyQblk
  case tidyDrop => exact h.execTidyDrop
  case tidyGth => exact h.execTidyGth
  case tidySct => exact h.execTidySct
  case grainGet => exact h.execGrainGet
  case tidyDma => exact h.execTidyDma
  case xtenonCsrWrite => exact h.execXtenonCsrWrite
  case kernelEcallExit => exact h.execKernelEcallExit
  case coreException => exact h.execCoreException
  case cycleLimit => exact h.execCycleLimit
  case dmaDescriptorDone => exact h.execDmaDescriptorDone
  case submissionDoorbell => exact h.execSubmissionDoorbell
  case completionDoorbell => exact h.execCompletionDoorbell
  case ctlSqTail => exact h.execCtlSqTail
  case ctlCqHead => exact h.execCtlCqHead
  case urgSqTail => exact h.execUrgSqTail
  case urgCqHead => exact h.execUrgCqHead
  case eventCounterWrite => exact h.execEventCounterWrite
  case intMaskWrite => exact h.execIntMaskWrite
  case eventMaskWrite => exact h.execEventMaskWrite
  case coreReset => exact h.execCoreReset
  case clusterReset => exact h.execClusterReset
  case deviceReset => exact h.execDeviceReset
  case powerDown => exact h.execPowerDown
  case controlPairEnable => exact h.execControlPairEnable
  case controlPairDisable => exact h.execControlPairDisable
  case adminPairEnable => exact h.execAdminPairEnable
  case adminPairDisable => exact h.execAdminPairDisable
  case urgentQueueEnable => exact h.execUrgentQueueEnable
  case urgentQueueDisable => exact h.execUrgentQueueDisable
  case registerWrite => exact h.execRegisterWrite
  case apertureRead => exact h.execApertureRead
  case apertureWrite => exact h.execApertureWrite
  case vfFunctionLevelReset => exact h.execVfFunctionLevelReset
  case pfFunctionLevelReset => exact h.execPfFunctionLevelReset
  case entryFetch => exact h.execEntryFetch
  case commandDispatch => exact h.execCommandDispatch
  case completionPost => exact h.execCompletionPost
  case coalesceTimer => exact h.execCoalesceTimer
  case urgentDoorbellSample => exact h.execUrgentDoorbellSample
  case triggerFire => exact h.execTriggerFire
  case pegDrainLimit => exact h.execPegDrainLimit
  case pegComplete => exact h.execPegComplete
  case bayHalted => exact h.execBayHalted
  case haltMemoryAbsorb => exact h.execHaltMemoryAbsorb
  case haltFlushLate => exact h.execHaltFlushLate
  case clusterResetAbsorb => exact h.execClusterResetAbsorb
  case updateSegmentArrival => exact h.execUpdateSegmentArrival
  case cutCopy => exact h.execCutCopy
  case predictiveCut => exact h.execPredictiveCut
  case evictBoundaryReached => exact h.execEvictBoundaryReached
  case evictTimeout => exact h.execEvictTimeout
  case epochClosePass => exact h.execEpochClosePass
  case bundleGrant => exact h.execBundleGrant
  case bundleLanding => exact h.execBundleLanding
  case fragment => exact h.execFragment
  case sack => exact h.execSack
  case admissionVector => exact h.execAdmissionVector
  case ledgerEntry => exact h.execLedgerEntry
  case digest => exact h.execDigest
  case catchupRequest => exact h.execCatchupRequest
  case catchupData => exact h.execCatchupData
  case controlAcknowledgement => exact h.execControlAcknowledgement
  case hello => exact h.execHello
  case joinHelloTimeout => exact h.execJoinHelloTimeout
  case ackTimer => exact h.execAckTimer
  case rtoExpiry => exact h.execRtoExpiry
  case peerUnreachable => exact h.execPeerUnreachable
  case portHoldTimeout => exact h.execPortHoldTimeout
  case admissionCut => exact h.execAdmissionCut
  case tallySlot => exact h.execTallySlot
  case ledgerFinal => exact h.execLedgerFinal
  case digestSettle => exact h.execDigestSettle
  case flitReceive => exact h.execFlitReceive
  case replayRequest => exact h.execReplayRequest
  case stompFlit => exact h.execStompFlit
  case packetRelay => exact h.execPacketRelay
  case fabricWrite => exact h.execFabricWrite
  case readRequest => exact h.execReadRequest
  case readResponse => exact h.execReadResponse
  case collectiveSegment => exact h.execCollectiveSegment
  case gatherSegment => exact h.execGatherSegment
  case counterAdd => exact h.execCounterAdd
  case groupControl => exact h.execGroupControl
  case groupAbort => exact h.execGroupAbort
  case collJoinTimeout => exact h.execCollJoinTimeout
  case collSilentTimeout => exact h.execCollSilentTimeout
  case laneLossOfLock => exact h.execLaneLossOfLock
  case portRetry => exact h.execPortRetry
  case seasoningSample => exact h.execSeasoningSample
  case cubeSubstitution => exact h.execCubeSubstitution
  case clusterRetirement => exact h.execClusterRetirement
  case coreRetirement => exact h.execCoreRetirement
  case bankRetirement => exact h.execBankRetirement
  case lineRecovery => exact h.execLineRecovery
  case historyWrite => exact h.execHistoryWrite
  case patrolScrub line => exact h.execPatrolScrub (line := line)
  case dramRefresh => exact h.execDramRefresh
  case powerInRange => exact h.execPowerInRange
  case resetN => exact h.execResetN
  case pciePerstN => exact h.execPciePerstN
  case bootRomStage => exact h.execBootRomStage
  case imageSelection => exact h.execImageSelection
  case nvOverlay => exact h.execNvOverlay
  case dramTraining => exact h.execDramTraining
  case laneTraining => exact h.execLaneTraining
  case bist => exact h.execBist
  case gcrtBroadcast => exact h.execGcrtBroadcast
  case ready => exact h.execReady
  case pendingBankTimeout => exact h.execPendingBankTimeout
  case pldmFirmwareUpdate => exact h.execPldmFirmwareUpdate
  case inputFault => exact h.execInputFault
  case keyAlarm => exact h.execKeyAlarm
  case thermalTrip => exact h.execThermalTrip
  case jtagInstructionLoad => exact h.execJtagInstructionLoad
  case thermalSensorSample => exact h.execThermalSensorSample
  case protectionLevelExit => exact h.execProtectionLevelExit
  case dramThermalHold => exact h.execDramThermalHold
  case dramThermalRelease => exact h.execDramThermalRelease
  case pllLossOfLock => exact h.execPllLossOfLock
  case cxlLinkDown => exact h.execCxlLinkDown
  case sitePpsEdge => exact h.execSitePpsEdge
  case siteTodFrame => exact h.execSiteTodFrame
  case ppsHoldover => exact h.execPpsHoldover
  case licenceWindowEdge => exact h.execLicenceWindowEdge
  case trngOutput => exact h.execTrngOutput
  case trngHealthFailure => exact h.execTrngHealthFailure
  case trngStartupDone => exact h.execTrngStartupDone
  case catchupTimeout => exact h.execCatchupTimeout
  case alarmConditionCleared => exact h.execAlarmConditionCleared
  case jtagTrstN => exact h.execJtagTrstN
  case farFilteredFrame => exact h.execFarFilteredFrame
  case managementPacket => exact h.execManagementPacket

/-- Settles O1: on a queue with a front command, the step is the second arm of its definition. -/
theorem stepRunsFrontCommand : Obligations.StepRunsFrontCommand := by
  unfold Obligations.StepRunsFrontCommand
  intro i rest s h
  unfold step
  rw [h]

/-- Every command goes on, and leaves what it does not touch. -/
theorem exec_answers (i : Instr) (s : State) : Answers (touched i) s (exec i s) := exec_answers_of s (.all _)

/-- What a command leaves, as one equation between states. -/
theorem exec_graft {i : Instr} {s t : State} (ht : exec i s = .next t) : t = graft (touched i) s t :=
  ((exec_answers i s).frame ht).eq_graft

/-- Settles O3: the outcome of each command, by the frame of its meaning. -/
theorem everyCommandAnswersNext : Obligations.EveryCommandAnswersNext := by
  unfold Obligations.EveryCommandAnswersNext Safe
  intro i s
  obtain ⟨t, ht, -⟩ := exec_answers i s
  exact ⟨t, ht⟩

/-- No command may touch the queue, the factory record or the pages that the host refuses. -/
theorem touched_omits (i : Instr) : (touched i).Omits (pending ||| factory ||| hostDeny) := by
  cases i <;> dsimp only [touched] <;> decide

theorem Fields.Omits.of {F a b : Fields} (hb : F.Omits b) (ha : a &&& b = a := by decide) : F.Omits a := by
  unfold Fields.Omits at *
  rw [← ha, Nat.land_assoc, hb, Nat.and_zero]

/-- Settles O4: none of the three is among the fields that a command may touch. -/
theorem noCommandTouchesQueueOrFactory : Obligations.NoCommandTouchesQueueOrFactory := by
  unfold Obligations.NoCommandTouchesQueueOrFactory
  intro i s t ht
  have h := (exec_answers i s).frame ht
  have ho := touched_omits i
  exact ⟨h.pending_eq ho.of, h.factory_eq ho.of, h.hostDeny_eq ho.of⟩

/-- One time cycle keeps the canonical form of every memory. -/
theorem timeCycle_canonical {s : State} (h : MemoriesCanonical s) :
    MemoriesCanonical (if s.dev.hold = 0 then (tick s).idleFlits else tick s) := by
  have hF : Has (outs ||| clock ||| ports) (outs ||| clock ||| ports) := .all _
  have h0 : Frame (outs ||| clock ||| ports) s s := .refl
  exact (h0.tick.idleFlits.ite h0.tick).canonical h

/-- Settles O5: a step is one time cycle, or a command on the queue's rest, and both keep the form. -/
theorem stepKeepsMemoriesCanonical : Obligations.StepKeepsMemoriesCanonical := by
  unfold Obligations.StepKeepsMemoriesCanonical
  intro s t h ht
  unfold step at ht
  split at ht
  · cases ht
    exact timeCycle_canonical h
  · exact ((exec_answers _ _).frame ht).canonical h

/-- Settles O10: each frame is the equation of what its command may touch. -/
theorem frameOfQueueOpcodes : Obligations.FrameOfQueueOpcodes := by
  unfold Obligations.FrameOfQueueOpcodes
  intro i s t ht
  have h := exec_graft ht
  cases i with
  | nop | queueCreate | queueDelete | counterSet | memMap | updateDisarm | collGroupDestroy | triggerArm
  | triggerDisarm | scarfLeave | scarfCancel | ckptCut | bindCluster | bindMemory | bindShares | keyErase
  | linkTest | shardMapLoad | ckptVerify | keyLoad | txnBegin | txnRollback | licenceInstall | resumeBay
  | scarfJoin | scarfCatchup | txnCommit | normClip | collGroupCreate | identify | memFill | rngFill
  | seasonReport | floorplanRead | entropyRead | memPlace | quantStats | convert | digestRun | scarfEpochClose
  | exportStream | ckptRestore | getLog | kernelLaunch | telemetryRead | cipherRun | updateArm | ckptRelease
  | stepUpdate | memCopy | stepGather | ckptDrain | matmul | collAllreduce | collAllgather | collReduceScatter
  | collBroadcast | bayReset | haltBay | evictBay =>
    dsimp only [touched] at h
    exact h
  | _ => trivial

/-- Settles O11: each frame is the equation of what its command may touch. -/
theorem frameOfCoreSteps : Obligations.FrameOfCoreSteps := by
  unfold Obligations.FrameOfCoreSteps
  intro i s t ht
  have h := exec_graft ht
  cases i with
  | tidyCvt | tidyWid | tidyStat | tidyDrop | grainGet | tidyQblk | xtenonCsrWrite | kernelEcallExit
  | coreException | tidyDma | cycleLimit | tidyRsc | tidyGth | tidySct | dmaDescriptorDone =>
    dsimp only [touched] at h
    exact h
  | _ => trivial

/-- Settles O12: each frame is the equation of what its command may touch. -/
theorem frameOfRegisterSteps : Obligations.FrameOfRegisterSteps := by
  unfold Obligations.FrameOfRegisterSteps
  intro i s t ht
  have h := exec_graft ht
  cases i with
  | adminPairEnable | adminPairDisable | ctlCqHead | controlPairEnable | controlPairDisable | urgSqTail
  | urgCqHead | completionDoorbell | eventMaskWrite | eventCounterWrite | intMaskWrite | apertureRead
  | urgentQueueEnable | urgentQueueDisable | apertureWrite | ctlSqTail | submissionDoorbell | coreReset
  | clusterReset | vfFunctionLevelReset | powerDown | deviceReset | pfFunctionLevelReset | registerWrite =>
    dsimp only [touched] at h
    exact h
  | _ => trivial

/-- Settles O13: each frame is the equation of what its command may touch. -/
theorem frameOfJoinerSteps : Obligations.FrameOfJoinerSteps := by
  unfold Obligations.FrameOfJoinerSteps
  intro i s t ht
  have h := exec_graft ht
  cases i with
  | haltMemoryAbsorb | haltFlushLate | predictiveCut | coalesceTimer | urgentDoorbellSample | entryFetch
  | completionPost | updateSegmentArrival | pegComplete | triggerFire | clusterResetAbsorb | evictBoundaryReached
  | evictTimeout | bayHalted | cutCopy | commandDispatch | pegDrainLimit =>
    dsimp only [touched] at h
    exact h
  | _ => trivial

/-- Settles O14: each frame is the equation of what its command may touch. -/
theorem frameOfScarfSteps : Obligations.FrameOfScarfSteps := by
  unfold Obligations.FrameOfScarfSteps
  intro i s t ht
  have h := exec_graft ht
  cases i with
  | bundleLanding | fragment | digest | controlAcknowledgement | ackTimer | joinHelloTimeout | peerUnreachable
  | bundleGrant | rtoExpiry | sack | admissionVector | admissionCut | catchupRequest | hello | ledgerEntry
  | tallySlot | digestSettle | portHoldTimeout | ledgerFinal | epochClosePass | catchupData =>
    dsimp only [touched] at h
    exact h
  | _ => trivial

/-- Settles O15: each frame is the equation of what its command may touch. -/
theorem frameOfFabricSteps : Obligations.FrameOfFabricSteps := by
  unfold Obligations.FrameOfFabricSteps
  intro i s t ht
  have h := exec_graft ht
  cases i with
  | counterAdd | collJoinTimeout | packetRelay | flitReceive | replayRequest | stompFlit | portRetry | readRequest
  | laneLossOfLock | groupControl | fabricWrite | readResponse | groupAbort | collSilentTimeout | gatherSegment
  | collectiveSegment =>
    dsimp only [touched] at h
    exact h
  | _ => trivial

/-- Settles O16: each frame is the equation of what its command may touch. -/
theorem frameOfRepairAndBootSteps : Obligations.FrameOfRepairAndBootSteps := by
  unfold Obligations.FrameOfRepairAndBootSteps
  intro i s t ht
  have h := exec_graft ht
  have k := (exec_answers i s).frame ht
  cases i with
  | patrolScrub | dramRefresh | historyWrite | pldmFirmwareUpdate | imageSelection | cubeSubstitution
  | dramTraining | bist | coreRetirement | bankRetirement | gcrtBroadcast | ready | laneTraining | seasoningSample
  | nvOverlay | clusterRetirement | bootRomStage | lineRecovery | pciePerstN | pendingBankTimeout =>
    dsimp only [touched] at h
    exact h
  | powerInRange | resetN =>
    dsimp only [touched] at k
    exact ⟨k.pending_eq (by decide), k.faults_eq (by decide), k.factory_eq (by decide), k.host_eq (by decide),
      k.hostDeny_eq (by decide), k.sensors_eq (by decide), k.vin_eq (by decide), k.iin_eq (by decide),
      k.pout_eq (by decide)⟩
  | _ => trivial

/-- Settles O17: each frame is the equation of what its command may touch. -/
theorem frameOfPowerAndTimeSteps : Obligations.FrameOfPowerAndTimeSteps := by
  unfold Obligations.FrameOfPowerAndTimeSteps
  intro i s t ht
  have h := exec_graft ht
  have k := (exec_answers i s).frame ht
  cases i with
  | cxlLinkDown | dramThermalHold | farFilteredFrame | licenceWindowEdge | trngStartupDone | siteTodFrame
  | ppsHoldover | catchupTimeout | thermalSensorSample | alarmConditionCleared | dramThermalRelease
  | protectionLevelExit | sitePpsEdge | managementPacket | trngHealthFailure | trngOutput | keyAlarm
  | jtagInstructionLoad | pllLossOfLock | thermalTrip | inputFault =>
    dsimp only [touched] at h
    exact h
  | jtagTrstN =>
    dsimp only [touched] at k
    exact ⟨k.pending_eq (by decide), k.faults_eq (by decide), k.factory_eq (by decide), k.host_eq (by decide),
      k.hostDeny_eq (by decide), k.sensors_eq (by decide), k.vin_eq (by decide), k.iin_eq (by decide),
      k.pout_eq (by decide)⟩
  | _ => trivial

end Sys2Proof
end

section
/-! Register writes of the host: event counters, interrupt masks, write-one-to-clear registers, refused accesses (R423, R425,
R431, R432). -/
namespace Sys2Proof
open Machine

/-! ### Little-endian data -/

@[simp] theorem length_toLe (n v : Nat) : (toLe n v).length = n := by
  induction n generalizing v with
  | zero => rfl
  | succ n ih => exact congrArg (· + 1) (ih _)

/-- A number below 256^n is what its `n` bytes read as. -/
theorem leNat_toLe {n v : Nat} (h : v < 256 ^ n) : leNat (toLe n v) = v := by
  induction n generalizing v with
  | zero => simpa [toLe, leNat] using (Nat.lt_one_iff.1 h).symm
  | succ n ih =>
    have hv : v / 256 < 256 ^ n := Nat.div_lt_of_lt_mul (by rwa [Nat.pow_succ'] at h)
    rw [toLe, leNat, ih hv, BitVec.toNat_ofNat]
    omega

theorem ofNat_leNat_toLe (v : W32) : BitVec.ofNat 32 (leNat (toLe 4 v.toNat)) = v := by
  rw [leNat_toLe (by have := v.isLt; omega)]
  simp

/-! ### Event counters (R432) -/

/-- The tests of R162 change no counter. -/
theorem counters_recheck (s : State) (b k b' : Nat) : ((s.recheck b k).bay b').counters = (s.bay b').counters := by
  unfold State.recheck
  extract_lets _ s1
  refine bay_setBay_kept Bay.counters ?_ s1 b b'
  exact fun _ => rfl

theorem otherBays_recheck (s : State) (b k : Nat) : OtherBays s (s.recheck b k) b := fun b' h =>
  State.bay_setBay_other { s with cmds := (s.recheck b k).cmds } b b' _ h

theorem counters_setCounter {s : State} {b : Nat} (c : Nat) (f : Counter → Counter) (hb : b < s.bays.length) :
    ((s.setCounter b c f).bay b).counters = updNth (s.bay b).counters c f := by
  unfold State.setCounter
  rw [State.bay_setBay_self s b _ hb]

/-- A write of an event counter writes that counter and starts the tests of R162, which change no other. -/
theorem eventCounterWrite_takes {s : State} (hp : PartsCounted s) (hup : s.hostUp = true) {b c : Nat} (w : CtrWrite)
    (hb : b < 16) (hc : c < 256) : ∃ t, exec (.eventCounterWrite b c w) s = .next t ∧
      nth (t.bay b).counters c = (nth (s.bay b).counters c).write w ∧
      (∀ k, k ≠ c → nth (t.bay b).counters k = nth (s.bay b).counters k) ∧ OtherBays s t b ∧ SameMemory s t := by
  have hlen : b < s.bays.length := hp.1.symm ▸ hb
  have hcs : c < (s.bay b).counters.length := (hp.bayCounted hb).2.2.1.symm ▸ hc
  refine ⟨(s.setCounter b c (fun k => k.write w)).recheck b c, by simp [exec, execEventCounterWrite, hup], ?_, ?_, ?_,
    rfl, rfl, rfl, rfl, rfl, rfl⟩
  · rw [counters_recheck, counters_setCounter c _ hlen, nth_updNth_self _ _ hcs]
  · intro k hk
    rw [counters_recheck, counters_setCounter c _ hlen, nth_updNth_other _ _ hk]
  · intro b' h
    rw [otherBays_recheck _ b c b' h]
    exact State.bay_setBay_other s b b' _ h

/-! ### Interrupt masks (R425, R431) -/

theorem writeIntMask_takes (s : State) (v : W32) : (s.writeIntMask v).dev = { s.dev with intMask := v.setWidth 8 } ∧
    (s.writeIntMask v).outs = (if (v.setWidth 8 &&& ~~~s.dev.intMask &&& s.dev.intCause : BitVec 8) = 0 then s.outs
      else s.outs ++ [.irq .pf s.dev.devVector.toNat]) := by
  unfold State.writeIntMask
  dsimp only
  split
  · exact ⟨rfl, rfl⟩
  · rename_i hhit
    exact ⟨rfl, (if_pos (not_not.1 hhit)).symm⟩

/-- A write of EVENT_MASK raises the bay's vector exactly when it enables an event that has occurred. -/
theorem writeEventMask_takes {s : State} {b : Nat} (v : W32) (hb : b < s.bays.length) :
    ((s.writeEventMask b v).bay b).regs =
      { (s.bay b).regs with eventMask := v.setWidth 6, eventVector := (v >>> 16).setWidth 7 } ∧
    ((s.writeEventMask b v).outs ≠ s.outs ↔
      (v.setWidth 6 &&& ~~~(s.bay b).regs.eventMask &&& (s.bay b).regs.event : BitVec 6) ≠ 0 ∧
        ((v >>> 16).setWidth 7 : BitVec 7).toNat < 120) := by
  have hset : ((s.setBay b fun y => { y with regs := { y.regs with
      eventMask := v.setWidth 6, eventVector := (v >>> 16).setWidth 7 } }).bay b).regs =
        { (s.bay b).regs with eventMask := v.setWidth 6, eventVector := (v >>> 16).setWidth 7 } := by
    rw [State.bay_setBay_self s b _ hb]
  unfold State.writeEventMask State.bayIrq
  dsimp only
  split
  · rename_i hhit
    split
    · rename_i hvec
      exact ⟨hset, fun _ => ⟨hhit, hvec⟩, fun _ h => by
        simpa [State.emit] using congrArg List.length h⟩
    · rename_i hvec
      exact ⟨hset, fun h => absurd rfl h, fun h => absurd h.2 hvec⟩
  · rename_i hhit
    exact ⟨hset, fun h => absurd rfl h, fun h => absurd h.1 hhit⟩

/-! ### Device registers (R423) -/

/-- A write through the physical function outside the bay windows, the urgent ring and the MSI-X structures. -/
theorem registerWrite_device {s : State} (hup : s.hostUp = true) {off : Nat} {data : List Byte}
    (hoff : off + data.length ≤ 0x10000) : exec (.registerWrite .pf off data) s =
      .next (match meetRegs devRegs off data.length with
        | .refused => s.devCause 7
        | .none_ => s
        | .whole r => s.writeDevReg (.whole r) r (leNat data)
        | .low r => s.writeDevReg (.low r) r (leNat data)
        | .high r => s.writeDevReg (.high r) r (leNat data)) := by
  have hring : meets off data.length 0x10000 0x1000 = false := by simp [meets]; omega
  have htab : meets off data.length 0x20000 0x800 = false := by simp [meets]; omega
  have hpba : meets off data.length 0x21000 0x10 = false := by simp [meets]; omega
  have hwin : ¬(0x100000 ≤ off ∧ off < 0x200000) := by omega
  simp only [exec, execRegisterWrite, hup, State.writeBar0, hwin, hring, htab, hpba]
  rfl

/-- A whole write of a 32-bit device register. -/
theorem registerWrite_word {s : State} (hup : s.hostUp = true) {off : Nat} (v : W32)
    (hreg : meetRegs devRegs off 4 = .whole off) (hoff : off + 4 ≤ 0x10000) :
    exec (.registerWrite .pf off (toLe 4 v.toNat)) s = .next (s.writeDevReg (.whole off) off (leNat (toLe 4 v.toNat))) := by
  rw [registerWrite_device hup (by rwa [length_toLe]), length_toLe, hreg]

/-! ### Flags (Table 2.9) -/

theorem getLsbD_clearFlags (x v : W32) (k : Nat) :
    (clearFlags x v).getLsbD k = (x.getLsbD k && !(decide (k < 7) && v.getLsbD k)) := by
  have hmask : (0x7F : W32).getLsbD k = decide (k < 7) := by
    by_cases h : k < 32
    · interval_cases k <;> rfl
    · rw [BitVec.getLsbD_of_ge _ _ (by omega)]
      simp; omega
  unfold clearFlags
  rw [BitVec.getLsbD_and, BitVec.getLsbD_not, BitVec.getLsbD_and, hmask]
  by_cases h : k < 32
  · simp [h, Bool.and_comm]
  · simp [BitVec.getLsbD_of_ge x k (by omega)]

/-- A write of BAY_ARITH_FLAGS through the bay's function clears the flags written as 1. -/
theorem registerWrite_flags {s : State} (hup : s.hostUp = true) {b : Nat} (v : W32) (hb : b < 16) :
    exec (.registerWrite (.vf b) 0x010 (toLe 4 v.toNat)) s =
      .next (s.setBay b (fun y => { y with flags := clearFlags y.flags v })) := by
  have hmeet : meetRegs bayRegList 0x010 4 = .whole 0x010 := by decide
  have hmsix : meets 0x010 4 0x8000 0x780 = false := by decide
  have hpba : meets 0x010 4 0x9000 0x10 = false := by decide
  simp only [exec, execRegisterWrite, hup, hb, State.writeWindow, length_toLe, hmeet, hmsix, hpba, State.writeBayReg,
    ofNat_leNat_toLe]
  rfl

/-- Settles O31: each of these registers by the lemma about its own write. -/
theorem registerWritesTake : Obligations.RegisterWritesTake := by
  unfold Obligations.RegisterWritesTake
  intro s hp hup
  have hlen : ∀ b, b < 16 → b < s.bays.length := fun b hb => hp.1.symm ▸ hb
  refine ⟨fun b c w hb hc => ?_, fun v => ?_, fun b v hb => ?_, fun v => ?_, fun v => ?_, fun b v hb => ?_,
    fun off bs href hoff => ?_⟩
  · cases w with
    | full v => exact eventCounterWrite_takes hp hup _ hb hc
    | low v => exact eventCounterWrite_takes hp hup _ hb hc
    | high v => exact eventCounterWrite_takes hp hup _ hb hc
  · exact ⟨_, by simp [exec, execIntMaskWrite, hup], writeIntMask_takes s v⟩
  · exact ⟨_, by simp [exec, execEventMaskWrite, hup], writeEventMask_takes v (hlen b hb)⟩
  · refine ⟨_, registerWrite_word hup v (by decide) (by decide), ?_⟩
    simp only [State.writeDevReg, ofNat_leNat_toLe]
  · refine ⟨_, registerWrite_word hup v (by decide) (by decide), ?_⟩
    simp only [State.writeDevReg, ofNat_leNat_toLe]
  · refine ⟨_, registerWrite_flags hup v hb, fun k => ?_, fun b' h => State.bay_setBay_other s b b' _ h⟩
    rw [State.bay_setBay_self s b _ (hlen b hb)]
    exact getLsbD_clearFlags _ _ _
  · rw [registerWrite_device hup hoff, href]

end Sys2Proof
end

section
/-! Aperture accesses of the host (R379). -/
namespace Sys2Proof
open Machine

section
variable {s : State} {b off n : Nat}

/-- An aperture read while the host link is up, within the aperture. -/
theorem exec_apertureRead (hup : s.hostUp = true) (hoff : off + n ≤ 2 ^ 36) : exec (.apertureRead b off n) s =
    .next (if (s.bay b).st = .unbound ∨ s.rangeOk b .rd (2 ^ 30 + off) n = false then s.emit (.apertureData b off none)
      else if s.rangeBad b .rd (2 ^ 30 + off) n then
        (s.logBadReads b .rd 0 [(2 ^ 30 + off, n)]).emit (.apertureData b off none)
      else (s.lateReads b [(2 ^ 30 + off, n)]).emit (.apertureData b off (some (s.readBay b (2 ^ 30 + off) n)))) := by
  have hin : inAperture off n = true := decide_eq_true hoff
  have haddr : apertureAddr off = 2 ^ 30 + off := rfl
  simp only [exec, execApertureRead, haddr, hup, hin, Bool.not_true, Bool.not_eq_true', Bool.false_eq_true, false_or,
    if_false]

/-- An aperture write while the host link is up, within the aperture, in a bay that is not UNBOUND. -/
theorem exec_apertureWrite {bs : List Byte} (hup : s.hostUp = true) (hoff : off + bs.length ≤ 2 ^ 36)
    (hst : (s.bay b).st ≠ .unbound) : exec (.apertureWrite b off bs) s =
    .next (if s.rangeOk b .wr (2 ^ 30 + off) bs.length = false ∨ s.rangeSkips b .wr (2 ^ 30 + off) bs.length = true then
      s.countBay b 8 1 else s.writeBay b (2 ^ 30 + off) bs) := by
  have hin : inAperture off bs.length = true := decide_eq_true hoff
  have haddr : apertureAddr off = 2 ^ 30 + off := rfl
  simp only [exec, execApertureWrite, haddr, hup, hin, hst, Bool.not_true, Bool.not_eq_true', Bool.false_eq_true, or_false,
    false_or, if_false]

end

/-- A read that tier 3 does not serve is not a late one. -/
theorem bays_lateReads_of_near {s : State} {b a n : Nat} (h : (s.bay b).touchesTier3 a n = false) :
    (s.lateReads b [(a, n)]).bays = s.bays := by
  simp [State.lateReads, h]

theorem tele_countBay_self {s : State} {b i : Nat} (m : Nat) (hb : b < s.bays.length) (hi : i < (s.bay b).tele.length) :
    nth ((s.countBay b i m).bay b).tele i = (nth (s.bay b).tele i + m) % 2 ^ 64 := by
  unfold State.countBay
  rw [State.bay_setBay_self s b _ hb]
  exact nth_updNth_self _ _ hi

/-- Settles O33: each answer is the branch of the access that the state of the range selects. -/
theorem apertureAccesses : Obligations.ApertureAccesses := by
  unfold Obligations.ApertureAccesses
  intro s b off n hp hb hup hoff
  have hread := exec_apertureRead (s := s) (b := b) hup hoff
  have hwrite := fun (bs : List Byte) (hn : bs.length = n) => exec_apertureWrite (s := s) (b := b) (bs := bs) hup (hn ▸ hoff)
  generalize 2 ^ 30 + off = a at hread hwrite ⊢
  refine ⟨⟨fun hst => ?_, fun hst hok hbad => ?_⟩, fun hst hok hbad => ?_, fun hst hok => ?_, ?_, ?_⟩
  · rw [hread, if_pos (.inl hst)]
  · rw [hread, if_neg (by simp [hst, hok]), if_pos hbad]
  · refine ⟨(s.lateReads b [(a, n)]).emit (.apertureData b off (some (s.readBay b a n))),
      by rw [hread, if_neg (by simp [hst, hok]), if_neg (by simp [hbad])], ?_, ?_, bays_lateReads_of_near⟩
    · rw [lateReads_frame]
      exact .refl s
    · rw [lateReads_frame]
      rfl
  · rw [hread, if_pos (.inr hok)]
  · rintro bs rfl hst hok hskip
    refine ⟨_, hwrite bs rfl hst, if_neg (by simp [hok, hskip]), ?_⟩
    rw [if_neg (by simp [hok, hskip]), State.writeBay_frame]
  · rintro bs rfl hst hdrop
    refine ⟨s.countBay b 8 1, by rw [hwrite bs rfl hst, if_pos hdrop], .refl s, tele_countBay_self 1 ?_ ?_⟩
    · exact hp.1.symm ▸ hb
    · obtain ⟨-, -, -, -, htele⟩ := hp.bayCounted hb
      exact htele.symm ▸ by decide

end Sys2Proof
end

section
/-! Thermal protection and site time (R392, R393, R413 to R415). -/
namespace Sys2Proof
open Machine Fields

/-- What keeps the fields of memory keeps what it reads. -/
theorem Frame.sameMemory {F : Fields} {s t : State} (h : Frame F s t) (ho : F.Omits memory := by decide) :
    SameMemory s t :=
  ⟨h.dram_eq ho.of, h.sram_eq ho.of, h.local__eq ho.of, h.host_eq ho.of, h.zeroMarks_eq ho.of, h.poison_eq ho.of⟩

/-- The fields of memory are outside what a command touches. -/
theorem exec_sameMemory {i : Instr} {s t : State} (ht : exec i s = .next t)
    (ho : (touched i).Omits memory := by dsimp only [touched]; decide) : SameMemory s t := ((exec_answers i s).frame ht).sameMemory ho

/-! ### Sensors and levels (R413 to R415) -/

theorem sensors_sampleDies (s : State) : ((List.range 3).foldl State.sampleDie s).sensors = s.sensors := by
  have hF : Has (outs ||| dev ||| dies) (outs ||| dev ||| dies) := .all _
  have h : Frame (outs ||| dev ||| dies) s s := .refl
  exact (h.foldl (l := List.range 3) fun _ _ hs => hs.sampleDie).sensors_eq (by decide)

/-- A record outside the classes 2 to 5 touches the error log alone. -/
theorem log1_notice {s : State} {r : Rec} (h : 5 < r.cls) :
    s.log1 r = { s with errLog := s.errLog.add { r with time := s.now } } :=
  if_neg fun hc => absurd hc.2 (by omega)

theorem countHolds_frame (s : State) (touches : Bay → Bool) :
    s.countHolds touches = { s with bays := (s.countHolds touches).bays, free := (s.countHolds touches).free } := by
  have hF : Has (free ||| bays) (free ||| bays) := .all _
  have h : Frame (free ||| bays) s s := .refl
  exact (h.countHolds (touches := touches)).eq_graft

/-- A die drops one level, with the THERMAL cause, before its record is written. -/
theorem dropLevel {s : State} {d : Nat} (hlen : d < s.dies.length) (touches : Bay → Bool) :
    let t := ((s.setDie d (fun y => { y with level := y.level - 1 })).devCause 5).countHolds touches
    d < t.dies.length ∧ (nth t.dies d).level = (nth s.dies d).level - 1 ∧ t.dev.intCause.getLsbD 5 = true := by
  intro t
  have hdies : t.dies = updNth s.dies d (fun y => { y with level := y.level - 1 }) := by
    simp only [t]
    rw [countHolds_frame, State.devCause_frame]
    rfl
  refine ⟨?_, ?_, ?_⟩
  · rwa [hdies, length_updNth]
  · rw [hdies, nth_updNth_self _ _ hlen]
  · simp only [t]
    rw [countHolds_frame]
    exact devCause_set _ (by decide)

/-- A die that has been 5 C below its level's entry for 1 ms drops one level; its record writes the error log alone. -/
theorem protectionLevelExit_drops {s : State} {d at_ : Nat} (hlen : d < s.dies.length) (hhold : s.dev.hold = 0)
    (hd : d ≤ 2) (hlevel : 0 < (nth s.dies d).level)
    (hcool : nth (nth s.dies d).cool ((nth s.dies d).level - 1) = some at_) (hat : at_ + 1000000 ≤ s.clock.uptime) :
    ∃ t, exec (.protectionLevelExit d) s = .next t ∧ (nth t.dies d).level = (nth s.dies d).level - 1 ∧
      t.dev.intCause.getLsbD 5 = true := by
  have hrun : exec (.protectionLevelExit d) s = .next (
      let u := (s.setDie d (fun y => { y with level := y.level - 1 })).devCause 5
      let t := u.countHolds (Bay.onDie d (u.lclusters / 2))
      if (nth s.dies d).level = 1 then
        (t.setDie d (fun y => { y with leftAt := none, highest := 0 })).log1 { Rec.blank with
          code := 0x0182, kind := 19, die := d, sub := 0xFFFF
          d0 := t.clock.uptime - (nth s.dies d).leftAt.getD t.clock.uptime, d1 := (nth s.dies d).highest }
      else t) := by
    have hstay : ¬(s.dev.hold ≠ 0 ∨ 2 < d ∨ (nth s.dies d).level = 0 ∨ (!decide (at_ + 1000000 ≤ s.clock.uptime)) = true) := by
      simp [hhold, hat]
      omega
    simp only [exec, execProtectionLevelExit, hcool, if_neg hstay]
  refine ⟨_, hrun, ?_⟩
  obtain ⟨hlen', hdrop, hcause⟩ := dropLevel hlen (Bay.onDie d (_ / 2))
  split
  · rw [log1_notice (by simp [Rec.blank])]
    exact ⟨(congrArg Die.level (nth_updNth_self _ _ hlen')).trans hdrop, hcause⟩
  · exact ⟨hdrop, hcause⟩

/-- A tower or package that has been below 90 C for 1 ms is let go; the bays' counters and the log follow. -/
theorem dramThermalRelease_releases {s : State} {tier2 : Bool} {part : Nat} {x : DramHold} (hhold : s.dev.hold = 0)
    (hx : s.dramHolds.find? (fun h => h.tier2 == tier2 && h.part == part) = some x)
    (hsince : x.since + 1000000 ≤ s.clock.uptime) :
    ∃ t, exec (.dramThermalRelease tier2 part) s = .next t ∧ t.dramHolds = s.dramHolds.filter (fun y => y != x) := by
  show ∃ t, execDramThermalRelease tier2 part s = _ ∧ _
  unfold execDramThermalRelease
  rw [hx]
  refine ⟨_, congrArg Host.Outcome.next (if_neg (by simp [hhold, hsince])), ?_⟩
  have hF : Has (logging ||| free ||| bays) (logging ||| free ||| bays) := .all _
  refine Frame.dramHolds_eq (F := logging ||| free ||| bays)
    (s₀ := { s with dramHolds := s.dramHolds.filter (fun y => y != x) }) ?_ (by decide)
  exact Frame.refl.countHolds.log1

/-! ### Site time (R392, R393) -/

/-- With the device in service, a frame of 20 bytes with SYNC is taken or counted. -/
theorem exec_siteTodFrame {s : State} {f : TodBytes} (hhold : s.dev.hold = 0) (hlen : f.length = 20)
    (hsync : beAt f 0 2 = 0xA55A) : exec (.siteTodFrame f) s =
      .next (if byteAt f 2 ≠ 1 ∨ crc16 (f.take 18) ≠ beAt f 18 2 then s.countDev 5 1
        else { s with clock := { s.clock with frame := some (f, s.clock.uptime) } }) :=
  congrArg _ (if_neg (by simp [hhold, hlen, hsync]))

/-- The parts of the time unit that only the edge itself sets. -/
abbrev EdgeKept (s t : State) : Prop :=
  t.clock.lastPps = s.clock.lastPps ∧ t.clock.lastEdge = s.clock.lastEdge ∧ t.clock.frame = s.clock.frame

namespace EdgeKept

variable {r s : State}

theorem refl (s : State) : EdgeKept s s := ⟨rfl, rfl, rfl⟩

theorem ite {t : State} {c : Prop} [Decidable c] (hs : EdgeKept r s) (ht : EdgeKept r t) :
    EdgeKept r (if c then s else t) := by
  split
  · exact hs
  · exact ht

theorem through {F : Fields} {t : State} (h : EdgeKept r s) (hf : Frame F s t) (ho : F.Omits clock) : EdgeKept r t := by
  unfold EdgeKept
  rw [hf.clock_eq ho]
  exact h

theorem devCause {i} (h : EdgeKept r s) : EdgeKept r (s.devCause i) := by
  rw [State.devCause_frame]
  exact h

theorem timeState {st} (h : EdgeKept r s) : EdgeKept r (s.timeState st) := .ite h (devCause h)

theorem logStep {size slew} (h : EdgeKept r s) : EdgeKept r (s.logStep size slew) := by
  have hF : Has (logging ||| flash) (logging ||| flash) := .all _
  have hf : Frame (logging ||| flash) s s := .refl
  exact h.through (hf.logStep (size := size) (slew := slew)) (by decide)

theorem stepTo {want} (h : EdgeKept r s) : EdgeKept r (s.stepTo want) := .ite (logStep h) h

theorem bigError {want err} (h : EdgeKept r s) : EdgeKept r (s.bigError want err) :=
  .ite (.ite h (.ite (timeState (stepTo h)) (stepTo h))) (.ite (logStep h) h)

theorem driveTime {gov want err} (h : EdgeKept r s) : EdgeKept r (s.driveTime gov want err) := by
  unfold State.driveTime
  refine .ite (timeState h) ?_
  split
  · exact .ite (timeState (stepTo h)) h
  · exact .ite (timeState h) h
  · exact .ite (.ite (bigError h) h) h
  · exact .ite h (.ite (bigError h) (timeState h))

end EdgeKept

/-- The unit notes the accepted edge; what the edge then drives, and the licence, leave that. -/
theorem acceptEdge_notes (s : State) (gov : Option (List Byte)) : (s.acceptEdge gov).clock.lastPps = s.clock.site ∧
    (s.acceptEdge gov).clock.lastEdge = some s.clock.uptime ∧ (s.acceptEdge gov).clock.frame = none :=
  EdgeKept.driveTime (.refl { s with clock := { s.clock.take gov with
    frame := none, lastPps := s.clock.site, lastEdge := some s.clock.uptime
    ppsError := (s.clock.site : Int) - s.edgeTime gov } })

/-- With the device in service, an edge in its window is accepted; at most the counter of bad frames changed before. -/
theorem sitePpsEdge_accepts {s : State} (hhold : s.dev.hold = 0)
    (hwin : ∀ e, s.clock.lastEdge = some e → e + 900000000 ≤ s.clock.uptime ∧ s.clock.uptime ≤ e + 1100000000) :
    ∃ (u : State) (gov : Option (List Byte)), exec .sitePpsEdge s = .next (u.acceptEdge gov) ∧ u.clock = s.clock := by
  unfold exec execSitePpsEdge
  dsimp only
  rw [if_neg (not_not.2 hhold), if_neg]
  · split
    · exact ⟨s, _, rfl, rfl⟩
    · split
      · exact ⟨s, _, rfl, rfl⟩
      · exact ⟨s.countDev 5 1, _, rfl, rfl⟩
  · split
    · obtain ⟨hlo, hhi⟩ := hwin _ ‹_›
      simp [hlo, hhi]
    · decide

theorem state_timeState (s : State) (st : Nat) : (s.timeState st).clock.state = st ∧
    (s.timeState st).clock.site = s.clock.site := by
  unfold State.timeState
  split
  · exact ⟨‹_›, rfl⟩
  · rw [State.devCause_frame]
    exact ⟨rfl, rfl⟩

/-- Settles O50: each event by the lemma about what it changes, memory by the frame of its command. -/
theorem thermalAndTimeEventsAct : Obligations.ThermalAndTimeEventsAct := by
  unfold Obligations.ThermalAndTimeEventsAct
  intro s hp hhold
  refine ⟨fun rs => ?_, fun d at_ hd hlevel hcool hat => ?_, fun tier2 part hnone => ?_, fun tier2 part x hx hsince => ?_,
    fun f hlen hsync => ⟨fun hver hcrc => ?_, fun hbad => ?_⟩, fun e he hout => ?_, fun hwin => ?_, fun hlate => ?_⟩
  · have hrun : exec (.thermalSensorSample rs) s = .next _ := congrArg Host.Outcome.next (if_neg (not_not.2 hhold))
    exact ⟨_, hrun, exec_sameMemory hrun, ((exec_answers _ s).frame hrun).bays_eq (by dsimp only [touched]; decide),
      sensors_sampleDies _⟩
  · obtain ⟨-, -, -, -, -, hdies, -⟩ := hp
    obtain ⟨t, ht, hdrop, hcause⟩ := protectionLevelExit_drops (by omega) hhold hd hlevel hcool hat
    exact ⟨t, ht, hdrop, hcause, exec_sameMemory ht⟩
  · exact congrArg Host.Outcome.next (if_neg (by simp [hhold, hnone]))
  · obtain ⟨t, ht, hholds⟩ := dramThermalRelease_releases hhold hx hsince
    exact ⟨t, ht, hholds, exec_sameMemory ht⟩
  · rw [exec_siteTodFrame hhold hlen hsync, if_neg (by simp [hver, hcrc])]
  · rw [exec_siteTodFrame hhold hlen hsync, if_pos hbad]
  · have hbad : ∀ u : State, (if s.dev.hold ≠ 0 then s
        else if (decide (s.clock.uptime < e + 900000000) || decide (e + 1100000000 < s.clock.uptime)) = true then
          s.countDev 4 1 else u) = s.countDev 4 1 := fun u => by
      rw [if_neg (not_not.2 hhold), if_pos (by simpa using hout)]
    unfold exec execSitePpsEdge
    rw [he]
    exact congrArg Host.Outcome.next (hbad _)
  · obtain ⟨u, gov, ht, hu⟩ := sitePpsEdge_accepts hhold hwin
    obtain ⟨hpps, hedge, hframe⟩ := acceptEdge_notes u gov
    rw [hu] at hpps hedge
    exact ⟨_, ht, hpps, hedge, hframe, exec_sameMemory ht⟩
  · have hrun : exec .ppsHoldover s = .next _ := congrArg Host.Outcome.next (if_pos ⟨hhold, hlate⟩)
    obtain ⟨hstate, hsite⟩ := state_timeState _ 3
    exact ⟨_, hrun, hstate, hsite, exec_sameMemory hrun⟩

end Sys2Proof
end

section
/-!
What the end of a bay's work leaves: no key slot changes, and no output is taken back. `Carried.f` says so of the operation
`f`; an operation that touches neither bays nor outputs has it from its frame.
-/
set_option Elab.async false
namespace Sys2Proof
open Machine Fields

/-- The key slots of every bay are those of `s₀`, and every output of `s₀` is still there. -/
abbrev Carried (s₀ s : State) : Prop := (∀ b, (s.bay b).keys = (s₀.bay b).keys) ∧ ∀ o ∈ s₀.outs, o ∈ s.outs

namespace Carried

variable {s₀ s t : State}

theorem refl (s : State) : Carried s s := ⟨fun _ => rfl, fun _ ho => ho⟩

theorem update (h : Carried s₀ s) (hb : t.bays = s.bays := by rfl) (ho : t.outs = s.outs := by rfl) : Carried s₀ t := by
  unfold Carried State.bay
  rw [hb, ho]
  exact h

theorem through {F : Fields} (h : Carried s₀ s) (hf : Frame F s t) (ho : F.Omits (bays ||| outs) := by decide) :
    Carried s₀ t :=
  h.update (hf.bays_eq ho.of) (hf.outs_eq ho.of)

theorem ite {c : Prop} [Decidable c] (hs : Carried s₀ s) (ht : Carried s₀ t) : Carried s₀ (if c then s else t) := by
  split
  · exact hs
  · exact ht

theorem ite_fst {α : Type} {c : Prop} [Decidable c] {a b : State × α} (ha : Carried s₀ a.1) (hb : Carried s₀ b.1) :
    Carried s₀ (if c then a else b).1 := by
  split
  · exact ha
  · exact hb

theorem fst {α : Type} {a : α} (h : Carried s₀ s) : Carried s₀ (s, a).1 := h

theorem foldl {α : Type} {f : State → α → State} {l : List α} (h : Carried s₀ s)
    (hf : ∀ s a, Carried s₀ s → Carried s₀ (f s a)) : Carried s₀ (l.foldl f s) :=
  List.foldlRecOn (motive := Carried s₀) l f h fun s hs a _ => hf s a hs

theorem foldl_fst {α β : Type} {f : State × β → α → State × β} {l : List α} {a : State × β} (h : Carried s₀ a.1)
    (hf : ∀ a x, Carried s₀ a.1 → Carried s₀ (f a x).1) : Carried s₀ (l.foldl f a).1 :=
  List.foldlRecOn (motive := fun a => Carried s₀ a.1) l f h fun a ha x _ => hf a x ha

theorem setBay {b} {f : Bay → Bay} (h : Carried s₀ s) (hf : ∀ y, (f y).keys = y.keys := by exact fun _ => rfl) :
    Carried s₀ (s.setBay b f) :=
  ⟨fun b' => (bay_setBay_kept Bay.keys hf s b b').trans (h.1 b'), h.2⟩

theorem setNextFin {n} (h : Carried s₀ s) : Carried s₀ { s with nextFin := n } := h

theorem setCmds {cs} (h : Carried s₀ s) : Carried s₀ { s with cmds := cs } := h

theorem emit {o} (h : Carried s₀ s) : Carried s₀ (s.emit o) := ⟨h.1, fun x hx => List.mem_append_left _ (h.2 x hx)⟩

theorem setPort {p f} (h : Carried s₀ s) : Carried s₀ (s.setPort p f) :=
  h.through (Frame.setPort (F := ports) .refl (.all _))

theorem writeBay {b a bs} (h : Carried s₀ s) : Carried s₀ (s.writeBay b a bs) :=
  h.through (Frame.writeBay (F := memory) .refl (.all _))

theorem useFree {n} (h : Carried s₀ s) : Carried s₀ (s.useFree n) :=
  h.through (Frame.useFree (F := free) .refl (.all _))

theorem devCause {i} (h : Carried s₀ s) : Carried s₀ (s.devCause i) :=
  h.ite (h.update.emit.ite h.update)

theorem bayIrq {b v} (h : Carried s₀ s) : Carried s₀ (s.bayIrq b v) :=
  h.emit.ite h

theorem bayEvent {b i} (h : Carried s₀ s) : Carried s₀ (s.bayEvent b i) :=
  h.ite (h.setBay.bayIrq.ite h.setBay)

theorem log1 {r} (h : Carried s₀ s) : Carried s₀ (s.log1 r) :=
  h.update.devCause.ite h.update

theorem log2 {b r} (h : Carried s₀ s) : Carried s₀ (s.log2 b r) :=
  h.setBay.bayEvent

theorem logPoisonRead {b tag a} (h : Carried s₀ s) : Carried s₀ (s.logPoisonRead b tag a) :=
  h.log2

theorem logBadReads {b acc tag rs} (h : Carried s₀ s) : Carried s₀ (s.logBadReads b acc tag rs) := by
  unfold State.logBadReads
  split
  · exact h.logPoisonRead
  · exact h

theorem countBay {b i n} (h : Carried s₀ s) : Carried s₀ (s.countBay b i n) :=
  h.setBay

theorem countDev {i n} (h : Carried s₀ s) : Carried s₀ (s.countDev i n) :=
  h.through (Frame.countDev (F := devTele) .refl (.all _))

theorem raise {b f} (h : Carried s₀ s) : Carried s₀ (s.raise b f) :=
  h.ite h.setBay

theorem setSlot {adm} {f : Slot → Slot} (h : Carried s₀ s) : Carried s₀ (s.setSlot adm f) :=
  h.through (Frame.setSlot (F := cmds) .refl (.all _))

theorem recheck {b c} (h : Carried s₀ s) : Carried s₀ (s.recheck b c) :=
  h.update.setBay

theorem bump {b c n err} (h : Carried s₀ s) : Carried s₀ (s.bump b c n err) :=
  h.setBay.recheck

theorem markFinished {adm st result} (h : Carried s₀ s) : Carried s₀ (s.markFinished adm st result) := by
  unfold State.markFinished
  split
  · exact h
  · refine h.ite (.setNextFin (.setSlot ?_))
    split
    · exact h.bump
    · exact h

theorem dropIfSilent {adm} (h : Carried s₀ s) : Carried s₀ (s.dropIfSilent adm) :=
  h.through (Frame.dropIfSilent (F := cmds) .refl (.all _))

theorem setSq {b q f} (h : Carried s₀ s) : Carried s₀ (s.setSq b q f) :=
  h.setBay

theorem settleQueue {b q} (h : Carried s₀ s) : Carried s₀ (s.settleQueue b q) := by
  unfold State.settleQueue
  split
  · exact h.setSq.markFinished.dropIfSilent.ite h
  · exact h

theorem settleAdmin {b} (h : Carried s₀ s) : Carried s₀ (s.settleAdmin b) :=
  .ite h.setBay h

theorem settleControl (h : Carried s₀ s) : Carried s₀ s.settleControl :=
  h.through (Frame.settleControl (F := ctl) .refl (.all _))

theorem settle {o} (h : Carried s₀ s) : Carried s₀ (s.settle o) := by
  unfold State.settle
  split
  · exact h.settleQueue.settleAdmin
  · exact h.settleControl
  · exact h

theorem finish {adm st result} (h : Carried s₀ s) : Carried s₀ (s.finish adm st result) := by
  unfold State.finish
  split
  · exact h
  · exact h.markFinished.dropIfSilent.settle

theorem finishNat {adm st result} (h : Carried s₀ s) : Carried s₀ (s.finishNat adm st result) :=
  h.finish

theorem markCorrected {adm} (h : Carried s₀ s) : Carried s₀ (s.markCorrected adm) :=
  h.through (Frame.markCorrected (F := cmds) .refl (.all _))

theorem enter {b st} (h : Carried s₀ s) : Carried s₀ (s.enter b st) :=
  h.ite h.setBay.bayEvent

theorem mixed {t : State} (h : Carried s₀ s) :
    Carried s₀ (s.mixed t) :=
  h.through (Frame.mixed (F := free ||| zeroMarks ||| dram ||| sram ||| local_ ||| host) .refl (.all _))

theorem stopLaunch {adm} (h : Carried s₀ s) : Carried s₀ (s.stopLaunch adm) :=
  h.through (Frame.stopLaunch (F := cores) .refl (.all _))

theorem stopFields {c cause} (h : Carried s₀ s) : Carried s₀ (s.stopFields c cause).1 :=
  h.through (Frame.stopFields (F := free ||| cores) .refl (.all _))

theorem sendFlit {p kind payload} (h : Carried s₀ s) : Carried s₀ (s.sendFlit p kind payload) :=
  h.setPort.emit

theorem sendStomps {p} (h : Carried s₀ s) : Carried s₀ (s.sendStomps p) :=
  h.ite h.setPort.sendFlit

theorem pumpOnce {p} (h : Carried s₀ s) : Carried s₀ (s.pumpOnce p) := by
  unfold State.pumpOnce
  refine h.sendStomps.ite ?_
  split
  · exact h.sendStomps
  · split
    · exact h.sendStomps
    · exact h.sendStomps.setPort.sendFlit

theorem pump {p} (h : Carried s₀ s) : Carried s₀ (s.pump p) :=
  h.foldl fun _ _ hs => hs.pumpOnce

theorem routeDrop {p} (h : Carried s₀ s) : Carried s₀ (s.routeDrop p) :=
  h.countDev.log1

theorem enqueue {die adm relayed p} (h : Carried s₀ s) : Carried s₀ (s.enqueue die adm relayed p) := by
  unfold State.enqueue
  split
  · exact h.routeDrop
  · exact h.emit.setPort

theorem inject {die adm relayed p} (h : Carried s₀ s) : Carried s₀ (s.inject die adm relayed p) := by
  unfold State.inject
  split
  · exact h.routeDrop
  · exact h.enqueue.pump

theorem mixColl {b g c} (h : Carried s₀ s) :
    Carried s₀ (s.mixColl b g c) :=
  h.through (Frame.mixColl (F := free ||| zeroMarks ||| dram ||| sram ||| local_ ||| host) .refl (.all _))

theorem sendMsg {b g lc adm member vc typ offset tag data} (h : Carried s₀ s) :
    Carried s₀ (s.sendMsg b g lc adm member vc typ offset tag data) :=
  h.foldl fun _ _ hs => hs.inject

theorem sendTo {b g lc adm member vc typ offset tag data} (h : Carried s₀ s) :
    Carried s₀ (s.sendTo b g lc adm member vc typ offset tag data) :=
  h.inject

theorem addAt {b g lc member vc ctr n err} (h : Carried s₀ s) :
    Carried s₀ (s.addAt b g lc member vc ctr n err) := by
  unfold State.addAt
  split
  · exact h.bump.ite (h.sendTo.ite h)
  · exact h.bump

theorem countTrig {b t signal remote err} (h : Carried s₀ s) :
    Carried s₀ (s.countTrig b t signal remote err) :=
  (h.bump.ite h).addAt.ite (h.bump.ite h)

theorem firedEnd {b t err} (h : Carried s₀ s) : Carried s₀ (s.firedEnd b t err) :=
  h.countTrig

theorem abortGroup {b g} (h : Carried s₀ s) :
    Carried s₀ (s.abortGroup b g) := by
  unfold State.abortGroup
  refine .foldl (.foldl (.setBay ?_) fun _ _ hs => hs.finishNat) fun _ _ hs => ?_
  · split
    · exact h.foldl fun _ _ hs => hs.mixColl
    · exact h
  · split
    · exact hs.firedEnd
    · exact hs

theorem sendAbort {b g} (h : Carried s₀ s) : Carried s₀ (s.sendAbort b g) := by
  unfold State.sendAbort
  split
  · exact h.emit.foldl fun _ _ hs => hs.sendMsg
  · exact h

theorem diffRecord {b step tensor first count kind source} (h : Carried s₀ s) :
    Carried s₀ (s.diffRecord b step tensor first count kind source) := by
  unfold State.diffRecord
  dsimp only
  split
  · exact h
  · exact h.ite h.writeBay.setBay

theorem markDirty {b blocks} (h : Carried s₀ s) : Carried s₀ (s.markDirty b blocks) :=
  h.setBay

theorem updateFault {b adm n rate unit} (h : Carried s₀ s) :
    Carried s₀ (s.updateFault b adm n rate unit) := by
  unfold State.updateFault
  split
  · exact h
  · exact h.update.ite h.update.markCorrected.countBay.log1

theorem updateBlock {b adm x p ti k gs} (h : Carried s₀ s) :
    Carried s₀ (s.updateBlock b adm x p ti k gs) :=
  (h.updateFault.writeBay.writeBay.writeBay.ite h.updateFault.writeBay.writeBay).raise.setBay.markDirty

theorem advance {b p step source ti} (h : Carried s₀ s) : Carried s₀ (s.advance b p step source ti) :=
  (h.setBay.diffRecord.ite h.setBay).ite h

theorem segmentRecord {b x p ti seg before} (h : Carried s₀ s) : Carried s₀ (s.segmentRecord b x p ti seg before) :=
  h.diffRecord.ite h

theorem abortRecords {b x p} (h : Carried s₀ s) : Carried s₀ (s.abortRecords b x p) :=
  h.foldl fun _ _ hs => hs.foldl fun _ _ ht => ht.ite (ht.foldl fun _ _ hu => hu.diffRecord)

theorem stepBlock {b adm x p limit ti} {grad : State → Nat → List Val} {gRange : Nat → List (Nat × Nat)}
    {a : State × Nat × Option Status} {k}
    (h : Carried s₀ a.1) :
    Carried s₀ (State.stepBlock b adm x p limit ti grad gRange a k).1 := by
  unfold State.stepBlock
  dsimp only
  split
  · exact h
  · split
    · exact h
    · split
      · exact h
      · exact h.updateBlock

theorem runTensor {b adm x p limit} {grad : Nat → State → Nat → List Val} {gRange : Nat → Nat → List (Nat × Nat)}
    {a : State × Nat × Option Status} {ti}
    (h : Carried s₀ a.1) :
    Carried s₀ (State.runTensor b adm x p limit grad gRange a ti).1 := by
  unfold State.runTensor
  refine h.ite_fst ?_
  extract_lets r1
  have h1 : Carried s₀ r1.1 := h.foldl_fst fun _ _ hs => hs.ite_fst (hs.foldl_fst
    fun _ _ ht => ht.stepBlock).segmentRecord
  exact h1.ite_fst h1.advance

theorem setTrain {b} {f : Train → Train} (h : Carried s₀ s) : Carried s₀ (s.setTrain b f) :=
  h.setBay

theorem setGather {b adm} {f : Gather → Gather} (h : Carried s₀ s) : Carried s₀ (s.setGather b adm f) :=
  h.setTrain

theorem putRemote {b adm p a bs} (h : Carried s₀ s) : Carried s₀ (s.putRemote b adm p a bs) := by
  unfold State.putRemote
  dsimp only
  split
  · exact (h.setBay.setGather.foldl fun _ _ hs => hs.sendTo).ite h.setGather
  · exact h.setGather

theorem putRow {b adm p a bs} (h : Carried s₀ s) : Carried s₀ (s.putRow b adm p a bs) :=
  h.putRemote.ite h.writeBay

theorem landRows {b adm i first rows received} (h : Carried s₀ s) :
    Carried s₀ (s.landRows b adm i first rows received) := by
  unfold State.landRows
  split
  · refine h.ite ?_
    extract_lets _ _ s1
    have h1 : Carried s₀ s1 := h.ite (h.foldl fun _ _ hs => hs.foldl fun _ _ ht => ht.putRow)
    split
    · exact h1.setGather.setSlot.setTrain.ite h1.setGather.setSlot
    · exact h1.setGather.setSlot
  · exact h

theorem dropGather {b adm} (h : Carried s₀ s) : Carried s₀ (s.dropGather b adm) :=
  h.setTrain

theorem settleGather {b adm} (h : Carried s₀ s) : Carried s₀ (s.settleGather b adm) := by
  unfold State.settleGather
  split
  · exact h.dropGather.finishNat.ite h
  · exact h

theorem failGather {b adm st bytes} (h : Carried s₀ s) : Carried s₀ (s.failGather b adm st bytes) :=
  h.dropGather.finishNat

theorem sendGather {b adm p g x m} (h : Carried s₀ s) : Carried s₀ (s.sendGather b adm p g x m) :=
  h.emit.sendMsg

theorem spreadRows {b adm x src} (h : Carried s₀ s) :
    Carried s₀ (s.spreadRows b adm x src) := by
  unfold State.spreadRows
  split
  · split
    · exact h.ite ((h.landRows.setGather.ite h.landRows).foldl fun _ _ hs => hs.sendGather)
    · exact h.landRows
  · exact h

theorem sendEntry {b adm i} (h : Carried s₀ s) : Carried s₀ (State.sendEntry b adm s i) := by
  unfold State.sendEntry
  split
  · dsimp only
    split
    · exact h
    · refine h.ite (h.setGather.ite (h.ite ?_))
      split
      · exact (h.logBadReads.ite h).failGather
      · exact (h.countBay.ite h).raise.setGather.spreadRows
  · exact h

theorem pumpGather {b adm} (h : Carried s₀ s) : Carried s₀ (State.pumpGather b s adm) := by
  unfold State.pumpGather
  split
  · exact h
  · exact (h.foldl fun _ _ hs => hs.sendEntry).settleGather

theorem pumpGathers {b} (h : Carried s₀ s) : Carried s₀ (s.pumpGathers b) :=
  h.foldl fun _ _ hs => hs.pumpGather

theorem sweep {b adm x p limit} (h : Carried s₀ s) :
    Carried s₀ (State.sweep b adm x p limit s).1 := by
  unfold State.sweep
  extract_lets r1
  have h1 : Carried s₀ r1.1 := h.foldl_fst fun _ _ hs => hs.runTensor
  exact (h1.abortRecords.ite h1).pumpGathers

theorem stepUpdateEff {b c hp step clip stoch limit} (h : Carried s₀ s) :
    Carried s₀ (State.stepUpdateEff b c hp step clip stoch limit s).1 := by
  unfold State.stepUpdateEff
  dsimp only
  split
  · exact h
  · split
    · exact h
    · refine h.ite_fst ?_
      split
      · exact h
      · exact h.ite_fst h.sweep

theorem copyPage {src dst n} (h : Carried s₀ s) : Carried s₀ (s.copyPage src dst n) :=
  h.through (Frame.copyPage (F := memory) .refl (.all _))

theorem movePage {b dest p} (h : Carried s₀ s) : Carried s₀ (s.movePage b dest p) := by
  unfold State.movePage
  split
  · exact h
  · exact h.copyPage.setBay

theorem movePages {b dest ps} (h : Carried s₀ s) : Carried s₀ (s.movePages b dest ps).1 := by
  induction ps generalizing s with
  | nil => exact h
  | cons p ps ih =>
    unfold State.movePages
    split
    · exact h
    · exact ih h.movePage

theorem setCkpt {b} {f : Ckpt → Ckpt} (h : Carried s₀ s) : Carried s₀ (s.setCkpt b f) :=
  h.setBay

theorem setCut {b} {f : Cut → Cut} (h : Carried s₀ s) : Carried s₀ (s.setCut b f) :=
  h.setCkpt

theorem discardCut {b} (h : Carried s₀ s) : Carried s₀ (s.discardCut b) :=
  h.setCkpt

theorem mixMatmul {t : State} {b m} (h : Carried s₀ s) : Carried s₀ (s.mixMatmul t b m) :=
  h.through (Frame.mixMatmul (F := memory ||| free) .refl (.all _))

theorem mixFlags {t : State} {b} (h : Carried s₀ s) : Carried s₀ (s.mixFlags t b) :=
  h.raise.useFree

theorem endRunning {b c} (h : Carried s₀ s) :
    Carried s₀ (s.endRunning b c).1 := by
  unfold State.endRunning
  split
  · exact h.ite_fst h.setBay.useFree
  · exact h.ite_fst h.useFree.movePages
  · exact h.useFree.stepUpdateEff
  · split
    · exact h.useFree.mixMatmul.mixFlags
    · exact h
  · split
    · exact h.useFree.mixed.mixFlags
    · exact h

theorem endActive {b c st} (h : Carried s₀ s) :
    Carried s₀ (s.endActive b c st).1 := by
  unfold State.endActive
  dsimp only
  split
  · exact h.setBay
  · exact h.stopFields.ite_fst h.stopLaunch.fst
  · exact h.setTrain.fst
  · exact h.setTrain.fst
  · split
    · exact (h.abortRecords.ite h).setTrain.fst.ite_fst h
    · exact h
  · exact h.setSq.fst
  · exact h.discardCut.fst
  · exact h.setCut.setBay
  · exact h.setBay
  · exact h.update.fst
  · exact h.setBay
  · exact h.setBay
  · exact h.setBay
  · exact h.setBay
  · exact h

theorem dropWaits {b adm} (h : Carried s₀ s) : Carried s₀ (s.dropWaits b adm) :=
  h.setBay

theorem cutShort {b st adm} (h : Carried s₀ s) : Carried s₀ (s.cutShort b st adm) := by
  unfold State.cutShort
  dsimp only
  split
  · exact h.dropWaits
  · split
    · exact h.dropWaits.endRunning.finishNat
    · exact h.dropWaits.endActive.finishNat
    · exact h.dropWaits.finishNat
    · exact h.dropWaits

theorem setFlow {b} {f : Machine.Flow → Machine.Flow} (h : Carried s₀ s) : Carried s₀ (s.setFlow b f) :=
  h.setBay

theorem cutBayDma {b} (h : Carried s₀ s) :
    Carried s₀ (s.cutBayDma b) :=
  h.through (Frame.cutBayDma (F := free ||| zeroMarks ||| cores ||| dram ||| sram ||| local_ ||| host) .refl (.all _))

theorem halt {b quiet} (h : Carried s₀ s) : Carried s₀ (s.halt b quiet).1 := by
  unfold State.halt
  extract_lets _ _ _ _ _ _ _ s1
  have h1 : Carried s₀ s1 := (((h.setFlow.setCmds.ite h.setFlow).foldl fun _ _ hs => hs.sendAbort).foldl
    fun _ _ hs => hs.cutShort).setBay.foldl fun _ _ hs => hs.abortGroup
  exact h1.cutBayDma.discardCut.ite h1.cutBayDma

theorem endHolder {b c} (h : Carried s₀ s) : Carried s₀ (s.endHolder b c) := by
  unfold State.endHolder
  dsimp only
  split
  · refine .ite (.useFree (.writeBay ?_)) ?_
    · split
      · exact h.useFree.finishNat
      · exact h.cutShort
    · split
      · exact h.useFree.finishNat
      · exact h.cutShort
  · split
    · exact h.useFree.finishNat
    · exact h.cutShort

theorem haltQuiet (h : Carried s₀ s) : Carried s₀ s.haltQuiet :=
  h.foldl fun _ _ hs => hs.halt.enter.ite hs

theorem domainsOff (h : Carried s₀ s) : Carried s₀ s.domainsOff :=
  h.through (Frame.domainsOff
    (F := free ||| boot ||| zeroMarks ||| cores ||| gcrt ||| dram ||| sram ||| local_ ||| power) .refl (.all _))

theorem logEvent {e} (h : Carried s₀ s) : Carried s₀ (s.logEvent e) :=
  h.through (Frame.logEvent (F := flash) .refl (.all _))

end Carried

end Sys2Proof
end

section
/-! Power, test, clocks and links: what each condition leaves (R313, R382, R389, R402, R403, R410, R416). -/
namespace Sys2Proof
open Machine Fields

/-! ### The device's registers while bays are halted -/

namespace DevKept

variable {r s t : State}

theorem through {F : Fields} (h : DevKept r s) (hf : Frame F s t) (ho : F.Omits (dev ||| lmap) := by decide) :
    DevKept r t := by
  unfold DevKept
  rw [hf.dev_eq ho.of, hf.lmap_eq ho.of]
  exact h

theorem bayEvent {b i} (h : DevKept r s) : DevKept r (s.bayEvent b i) :=
  h.through (Frame.bayEvent (F := outs ||| bays) .refl (.all _))

theorem enter {b st} (h : DevKept r s) : DevKept r (s.enter b st) :=
  h.through (Frame.enter (F := outs ||| bays) .refl (.all _))

theorem cutBayDma {b} (h : DevKept r s) : DevKept r (s.cutBayDma b) :=
  h.foldl fun _ _ hs => hs.cutChannels

theorem domainsOff (h : DevKept r s) : DevKept r s.domainsOff := h

theorem logEvent {e} (h : DevKept r s) : DevKept r (s.logEvent e) :=
  h.through (Frame.logEvent (F := flash) .refl (.all _))

theorem halt {b quiet} (h : DevKept r s) : DevKept r (s.halt b quiet).1 := by
  unfold State.halt
  extract_lets _ s1 _ _ _ _ _ s2
  have h1 : DevKept r s1 := h
  have h2 : DevKept r s2 := .foldl (.setBay (.foldl (.foldl (.ite h1 h1) fun _ _ hs => hs.sendAbort)
    fun _ _ hs => hs.cutShort)) fun _ _ hs => hs.abortGroup
  exact .ite (h2.cutBayDma) h2.cutBayDma

theorem haltQuiet (h : DevKept r s) : DevKept r s.haltQuiet := by
  unfold State.haltQuiet
  refine foldl h fun _ _ hs => ite ?_ hs
  exact hs.halt.enter

theorem endHolder {b c} (h : DevKept r s) : DevKept r (s.endHolder b c) := by
  have hend : ∀ u : State, DevKept r u → ∀ range : Option (Nat × Nat), DevKept r (match range with
      | some (a, n) => if u.rangeOk b .wr a n then (u.writeBay b a (u.freeBytes n)).useFree n else u
      | none => u) := fun u hu range => by
    cases range with
    | none => exact hu
    | some x => exact .ite hu.writeBay hu
  unfold State.endHolder
  refine hend _ ?_ _
  split
  · exact .finishNat (s := s.useFree 1) h
  · exact h.cutShort

end DevKept

/-! ### Key erasure (R191, R313) -/

/-- One bay of `State.eraseKeys`. -/
def eraseBay (s : State) (b : Nat) : State :=
  let any := (s.bay b).keys.any (· != KeySlot.empty)
  let s := (postOrder (s.cmds.filter (fun c => c.ofBay b && c.holdsKey))).foldl (fun (s : State) c => s.endHolder b c) s
  let s := s.setBay b (fun y => { y with
    keys := List.replicate 4 KeySlot.empty
    join := y.join.map (fun j => { j with keyHeld := false }) })
  if any then s.bayEvent b 4 else s

theorem eraseKeys_eq (s : State) : s.eraseKeys = (List.range 16).foldl eraseBay s := rfl

theorem DevKept.eraseBay {r s : State} (h : DevKept r s) (b : Nat) : DevKept r (eraseBay s b) := by
  unfold Sys2Proof.eraseBay
  extract_lets _ s1 s2
  have h1 : DevKept r s1 := foldl h fun _ _ ht => ht.endHolder
  have h2 : DevKept r s2 := h1
  exact .ite h2.bayEvent h2

theorem DevKept.eraseKeys {r s : State} (h : DevKept r s) : DevKept r s.eraseKeys := by
  rw [eraseKeys_eq]
  exact foldl h fun _ b hs => hs.eraseBay b

theorem PartsCounted.eraseBay {s : State} (h : PartsCounted s) (b : Nat) : PartsCounted (eraseBay s b) := by
  unfold Sys2Proof.eraseBay
  extract_lets _ s1 s2
  have h2 : PartsCounted s2 := setBay (h.foldl fun _ _ hs => hs.endHolder) fun y hy => by
    obtain ⟨hsqs, hcqs, hcounters, -, htele⟩ := hy
    exact ⟨hsqs, hcqs, hcounters, List.length_replicate .., htele⟩
  exact h2.bayEvent.ite h2

/-- The keys of the bay are gone, those of the others as they were. -/
theorem keys_eraseBay {s : State} (h : PartsCounted s) {b : Nat} (hb : b < 16) (b' : Nat) :
    ((eraseBay s b).bay b').keys = if b' = b then List.replicate 4 .empty else (s.bay b').keys := by
  unfold eraseBay
  extract_lets _ s1 s2
  have h1 : Carried s s1 ∧ PartsCounted s1 :=
    ⟨.foldl (.refl s) fun _ _ hs => hs.endHolder, h.foldl fun _ _ hs => hs.endHolder⟩
  obtain ⟨⟨hkept, -⟩, hcount, -⟩ := h1
  have hset : (s2.bay b').keys = if b' = b then List.replicate 4 .empty else (s.bay b').keys := by
    split
    · subst b'
      exact congrArg Bay.keys (State.bay_setBay_self s1 b _ (hcount.symm ▸ hb))
    · rw [← hkept b']
      exact congrArg Bay.keys (State.bay_setBay_other s1 b b' _ ‹_›)
  have hevent := (Carried.refl s2).bayEvent (b := b) (i := 4)
  split
  · rw [hevent.1 b', hset]
  · exact hset

/-- Every key slot of every bay is EMPTY after the erasure (R313). -/
theorem keys_eraseKeys {s : State} (h : PartsCounted s) {b : Nat} (hb : b < 16) :
    (s.eraseKeys.bay b).keys = List.replicate 4 .empty := by
  have hall : ∀ n ≤ 16, PartsCounted ((List.range n).foldl eraseBay s) ∧
      ∀ b < n, (((List.range n).foldl eraseBay s).bay b).keys = List.replicate 4 .empty := by
    intro n
    induction n with
    | zero => exact fun _ => ⟨h, fun _ hb => absurd hb (Nat.not_lt_zero _)⟩
    | succ n ih =>
      intro hn
      obtain ⟨hcount, hkeys⟩ := ih (by omega)
      rw [List.range_succ, List.foldl_append]
      refine ⟨hcount.eraseBay n, fun b hb => ?_⟩
      refine (keys_eraseBay hcount (by omega) b).trans ?_
      split
      · rfl
      · exact hkeys b (by omega)
  exact (hall 16 le_rfl).2 b hb

/-- An alarm latches its bit and KEYS_ERASED, and changes no other register but DEV_INT_CAUSE (R313, R425). -/
theorem dev_keyAlarm (s : State) (code : Nat) : (s.keyAlarm code).dev = { s.dev with
    alarm := s.dev.alarm ||| BitVec.ofNat 6 (2 ^ code) ||| 0x20, intCause := (s.keyAlarm code).dev.intCause } := by
  have hk : DevKept { s with dev := { s.dev with alarm := s.dev.alarm ||| BitVec.ofNat 6 (2 ^ code) ||| 0x20 } }
      (s.keyAlarm code) := by
    unfold State.keyAlarm
    extract_lets _ s1
    have h1 : DevKept s1 s1 := .refl s1
    exact h1.devCause.log1.eraseKeys
  exact hk.1

theorem keys_keyAlarm {s : State} (h : PartsCounted s) (code : Nat) {b : Nat} (hb : b < 16) :
    ((s.keyAlarm code).bay b).keys = List.replicate 4 .empty := by
  unfold State.keyAlarm
  extract_lets _ s1
  have h1 : PartsCounted s1 := h
  exact keys_eraseKeys h1.devCause.log1 hb

theorem latched_of_alarm (x : BitVec 6) {k : Nat} (hk : k < 6) :
    (x ||| BitVec.ofNat 6 (2 ^ k) ||| 0x20).getLsbD k = true ∧ (x ||| BitVec.ofNat 6 (2 ^ k) ||| 0x20).getLsbD 5 = true := by
  have hbit : (BitVec.ofNat 6 (2 ^ k)).getLsbD k = true := by
    rw [BitVec.getLsbD_ofNat, Nat.testBit_two_pow_self]
    simpa using hk
  refine ⟨?_, ?_⟩
  · rw [BitVec.getLsbD_or, BitVec.getLsbD_or, hbit, Bool.or_true, Bool.true_or]
  · rw [BitVec.getLsbD_or]
    exact Bool.or_true _

/-! ### What stopping the device leaves -/

theorem dev_haltQuiet (s : State) : s.haltQuiet.dev = { s.dev with intCause := s.haltQuiet.dev.intCause } :=
  (DevKept.refl s).haltQuiet.1

theorem keys_haltQuiet (s : State) (b : Nat) : (s.haltQuiet.bay b).keys = (s.bay b).keys := (Carried.refl s).haltQuiet.1 b

theorem logEvent_frame (s : State) (e : Rec) : s.logEvent e = { s with flash := (s.logEvent e).flash } := by
  unfold State.logEvent
  extract_lets
  split <;> rfl

/-- The alarm is latched and every key is gone; THERMTRIP is as it was. -/
structure Alarmed (k : Nat) (trip : Bool) (t : State) : Prop where
  latched : t.dev.alarm.getLsbD k = true
  erased : t.dev.alarm.getLsbD 5 = true
  thermtrip : t.dev.thermtrip = trip
  keys : ∀ b, b < 16 → (t.bay b).keys = List.replicate 4 .empty

namespace Alarmed

variable {k : Nat} {trip : Bool} {s t : State}

theorem of_keyAlarm (hp : PartsCounted s) (hk : k < 6) (htrip : s.dev.thermtrip = trip) : Alarmed k trip (s.keyAlarm k) where
  latched := by
    rw [dev_keyAlarm]
    exact (latched_of_alarm _ hk).1
  erased := by
    rw [dev_keyAlarm]
    exact (latched_of_alarm _ hk).2
  thermtrip := by rw [dev_keyAlarm, ← htrip]
  keys _ hb := keys_keyAlarm hp k hb

/-- A state with the same latch and the same bays. -/
theorem update (h : Alarmed k trip s) (ha : t.dev.alarm = s.dev.alarm := by rfl)
    (ht : t.dev.thermtrip = s.dev.thermtrip := by rfl) (hb : t.bays = s.bays := by rfl) : Alarmed k trip t where
  latched := by rw [ha, h.latched]
  erased := by rw [ha, h.erased]
  thermtrip := by rw [ht, h.thermtrip]
  keys b hlt := by
    unfold State.bay
    rw [hb]
    exact h.keys b hlt

theorem haltQuiet (h : Alarmed k trip s) : Alarmed k trip s.haltQuiet where
  latched := by rw [dev_haltQuiet, h.latched]
  erased := by rw [dev_haltQuiet, h.erased]
  thermtrip := by rw [dev_haltQuiet, h.thermtrip]
  keys b hb := by rw [keys_haltQuiet, h.keys b hb]

theorem logEvent {e : Rec} (h : Alarmed k trip s) : Alarmed k trip (s.logEvent e) := by
  rw [logEvent_frame]
  exact h.update

theorem domainsOff (h : Alarmed k trip s) : Alarmed k trip s.domainsOff := h.update

theorem emit {o : Output} (h : Alarmed k trip s) : Alarmed k trip (s.emit o) := h.update

/-- The device is held, and its power and boot fields may change. -/
theorem held {hold : Nat} {power : List Bool} {boot : Machine.Boot} (h : Alarmed k trip s) : Alarmed k trip { s with
    dev := { s.dev with hold := hold }, power := power, boot := boot } := h.update

end Alarmed

theorem linkUp_domainsOff (s : State) : s.domainsOff.boot.linkUp = false := rfl

theorem vin_inputFault (s : State) (e : Rec) : (((s.keyAlarm 1).haltQuiet).logEvent e).domainsOff.vin = s.vin := by
  have hF : Has (halting ||| flash ||| boot ||| gcrt ||| power) (halting ||| flash ||| boot ||| gcrt ||| power) := .all _
  have h : Frame (halting ||| flash ||| boot ||| gcrt ||| power) s s := .refl
  exact (h.keyAlarm.haltQuiet.logEvent.domainsOff).vin_eq (by decide)

/-- A bad input raises the alarm and stops the device; below 30 V every domain goes off (R402). -/
theorem inputFault_stops {s : State} (hp : PartsCounted s) {mv : Nat} (hmv : mv < 38000 ∨ 62000 < mv) (hhold : s.dev.hold ≠ 1) :
    ∃ t, exec (.inputFault mv) s = .next t ∧ Alarmed 1 s.dev.thermtrip t ∧ t.dev.hold = 1 ∧ t.vin = mv ∧
      t.boot.linkUp = false ∧ (mv < 30000 → t.power = List.replicate 64 false) := by
  refine ⟨_, congrArg Host.Outcome.next ((if_neg (not_not.2 hmv)).trans (if_neg hhold)), ?_⟩
  extract_lets supplied _ halted off _
  have halarm : Alarmed 1 s.dev.thermtrip (supplied.keyAlarm 1) := .of_keyAlarm hp (by decide) rfl
  have hoff : Alarmed 1 s.dev.thermtrip off := halarm.haltQuiet.logEvent.domainsOff
  have hvin : off.vin = mv := vin_inputFault supplied _
  have hlink : off.boot.linkUp = false := linkUp_domainsOff halted
  clear_value off
  exact ⟨hoff.held, rfl, hvin, hlink, fun hlow => if_pos hlow⟩

/-- A sensor at 125 C raises the alarm, says so and stops the device (R416). -/
theorem thermalTrip_stops {s : State} (hp : PartsCounted s) {sensor reading : Nat} (hread : 500 ≤ celsius4 reading)
    (hhold : s.dev.hold ≠ 1) (htrip : s.dev.thermtrip = false) : ∃ t, exec (.thermalTrip sensor reading) s = .next t ∧
      Alarmed 3 true t ∧ t.dev.hold = 4 ∧ Output.thermtrip ∈ t.outs := by
  have hgo : ¬(s.dev.hold = 1 ∨ s.dev.thermtrip = true ∨ celsius4 reading < 500) := by simp [hhold, htrip, hread]
  refine ⟨_, congrArg Host.Outcome.next (if_neg hgo), ?_⟩
  extract_lets _ tripped halted _ logged _
  have halarm : Alarmed 3 true (tripped.keyAlarm 3) := .of_keyAlarm hp (by decide) rfl
  have hlogged : Alarmed 3 true logged := halarm.emit.haltQuiet.domainsOff.logEvent
  have hout : Output.thermtrip ∈ logged.outs :=
    ((Carried.refl ((tripped.keyAlarm 3).emit .thermtrip)).haltQuiet.domainsOff.logEvent).2 _
      (List.mem_append_right _ (List.mem_singleton_self _))
  clear_value logged
  exact ⟨hlogged.held, rfl, hout⟩

/-- A test instruction that drives pins erases the keys and holds the device in test (R389). -/
theorem jtagInstructionLoad_stops {s : State} (hp : PartsCounted s) (h1 : s.dev.hold ≠ 1) (h3 : s.dev.hold ≠ 3) :
    ∃ t, exec (.jtagInstructionLoad true) s = .next t ∧ Alarmed 4 s.dev.thermtrip t ∧ t.dev.hold = 3 ∧
      t.boot.ready = false := by
  refine ⟨_, congrArg Host.Outcome.next (if_neg (by simp [h1, h3])), ?_, rfl, rfl⟩
  have hu : Alarmed 4 s.dev.thermtrip (s.keyAlarm 4) := .of_keyAlarm hp (by decide) rfl
  exact Alarmed.held hu.haltQuiet

/-! ### The orderly power-down (R403) -/

theorem season_haltAndPost (s : State) (qs : List CqRef) :
    (qs.foldl (fun (s : State) q => s.postAll q s.cmds.length) ((List.range 16).foldl State.haltNow s)).season = s.season := by
  have hF : Has (halting ||| urg ||| clusters ||| lfailed ||| bootLog) (halting ||| urg ||| clusters ||| lfailed ||| bootLog) :=
    .all _
  have h : Frame (halting ||| urg ||| clusters ||| lfailed ||| bootLog) s s := .refl
  exact Frame.season_eq (F := halting ||| urg ||| clusters ||| lfailed ||| bootLog)
    (Frame.foldl (Frame.foldl h fun _ _ hs => hs.haltNow) fun _ _ hs => hs.postAll) (by decide)

theorem power_dropReady (s : State) : s.dropReady.power = s.power := by rw [dropReady_frame]

theorem boot_dropReady (s : State) : s.dropReady.boot = s.boot := by rw [dropReady_frame]

theorem season_dropReady (s : State) : s.dropReady.season = s.season := by rw [dropReady_frame]

/-- The power-down leaves the domains off, DEV_READY low and one more history record. -/
theorem powerOff_leaves (s : State) : s.powerOff.dev.hold = 4 ∧ s.powerOff.dev.devReady = false ∧
    s.powerOff.power = List.replicate 62 false ++ [true, true] ∧ s.powerOff.boot.linkUp = false ∧
    s.powerOff.season.seq = (s.season.seq + 1) % 2 ^ 32 := by
  unfold State.powerOff
  extract_lets _ down halted posted off _
  have hseason : posted.season = s.season := season_haltAndPost down allCqs
  clear_value posted
  have hready : posted.writeHistory.domainsOff.dropReady.dev.devReady = false := by
    unfold State.dropReady
    split
    · rfl
    · exact Bool.eq_false_iff.2 ‹_›
  have hpower : off.power = List.replicate 62 false ++ [true, true] := by
    rw [show off.power = posted.writeHistory.domainsOff.power from power_dropReady _]
    rfl
  have hlink : off.boot.linkUp = false := by
    rw [show off.boot = posted.writeHistory.domainsOff.boot from boot_dropReady _]
    rfl
  have hseq : off.season.seq = (s.season.seq + 1) % 2 ^ 32 := by
    rw [show off.season = posted.writeHistory.season from season_dropReady _, ← hseason]
    rfl
  exact ⟨rfl, hready, hpower, hlink, hseq⟩

/-! ### Ports (R251, R410) -/

/-- The state of every port, and whether it is in operation. -/
abbrev PortsServe (s₀ s : State) : Prop :=
  ∀ q, (s.port q).state = (s₀.port q).state ∧ (s.port q).inOperation = (s₀.port q).inOperation

namespace PortsServe

variable {s₀ s t : State}

theorem refl (s : State) : PortsServe s s := fun _ => ⟨rfl, rfl⟩

theorem ite {c : Prop} [Decidable c] (hs : PortsServe s₀ s) (ht : PortsServe s₀ t) : PortsServe s₀ (if c then s else t) := by
  split
  · exact hs
  · exact ht

theorem foldl {α : Type} {f : State → α → State} {l : List α} (h : PortsServe s₀ s)
    (hf : ∀ s a, PortsServe s₀ s → PortsServe s₀ (f s a)) : PortsServe s₀ (l.foldl f s) :=
  List.foldlRecOn (motive := PortsServe s₀) l f h fun s hs a _ => hf s a hs

theorem through {F : Fields} (h : PortsServe s₀ s) (hf : Frame F s t) (ho : F.Omits ports := by decide) :
    PortsServe s₀ t := by
  unfold PortsServe State.port
  rw [hf.ports_eq ho]
  exact h

theorem setPort {p} {f : Port → Port} (h : PortsServe s₀ s)
    (hf : ∀ x, (f x).state = x.state ∧ (f x).inOperation = x.inOperation := by exact fun _ => ⟨rfl, rfl⟩) :
    PortsServe s₀ (s.setPort p f) := fun q => by
  obtain ⟨hst, hop⟩ := h q
  rcases nth_updNth_cases s.ports p q f with hq | hq
  · exact ⟨(congrArg Port.state hq).trans hst, (congrArg Port.inOperation hq).trans hop⟩
  · exact ⟨((congrArg Port.state hq).trans (hf _).1).trans hst, ((congrArg Port.inOperation hq).trans (hf _).2).trans hop⟩

theorem sendFlit {p kind payload} (h : PortsServe s₀ s) : PortsServe s₀ (s.sendFlit p kind payload) := h.setPort

theorem pumpOnce {p} (h : PortsServe s₀ s) : PortsServe s₀ (s.pumpOnce p) := by
  have hstomps : PortsServe s₀ (s.sendStomps p) := h.ite h.setPort.sendFlit
  unfold State.pumpOnce
  refine hstomps.ite ?_
  split
  · exact hstomps
  · split
    · exact hstomps
    · exact hstomps.setPort.sendFlit

theorem pump {p} (h : PortsServe s₀ s) : PortsServe s₀ (s.pump p) := h.foldl fun _ _ hs => hs.pumpOnce

theorem routeDrop {p} (h : PortsServe s₀ s) : PortsServe s₀ (s.routeDrop p) :=
  h.through (Frame.routeDrop (F := logging ||| devTele) .refl (.all _))

theorem inject {die adm relayed p} (h : PortsServe s₀ s) : PortsServe s₀ (s.inject die adm relayed p) := by
  have henqueue : PortsServe s₀ (s.enqueue die adm relayed p) := by
    unfold State.enqueue
    split
    · exact h.routeDrop
    · exact h.setPort
  unfold State.inject
  split
  · exact h.routeDrop
  · exact henqueue.pump

theorem reroute (h : PortsServe s₀ s) : PortsServe s₀ s.reroute :=
  h.foldl fun _ _ hs => hs.pump.ite (hs.setPort.foldl fun _ _ ht => ht.inject)

end PortsServe

/-- A record with its cause touches the log, the registers and the outputs alone. -/
theorem log1_devCause_frame (s : State) (i : Nat) (e : Rec) : (s.devCause i).log1 e = { s with
    outs := ((s.devCause i).log1 e).outs, dev := ((s.devCause i).log1 e).dev, errLog := ((s.devCause i).log1 e).errLog } := by
  have hF : Has logging logging := .all _
  have h : Frame logging s s := .refl
  exact (h.devCause.log1 (r := e)).eq_graft

/-- A port that leaves service is DOWN, its packets on their way through other ports. -/
theorem changePort_down {s : State} {p : Nat} (hp : p < s.ports.length) : ((s.changePort p 0).port p).state = 0 ∧
    ((s.changePort p 0).port p).inOperation = (s.port p).inOperation := by
  have hdown : ((s.setPortState p 0).port p).state = 0 ∧
      ((s.setPortState p 0).port p).inOperation = (s.port p).inOperation := by
    unfold State.setPortState
    split
    · exact ⟨‹_›, rfl⟩
    · dsimp only
      rw [log1_devCause_frame]
      have hport : nth (updNth s.ports p fun x => { x with state := 0 }) p = { nth s.ports p with state := 0 } :=
        nth_updNth_self _ _ hp
      exact ⟨congrArg Port.state hport, (congrArg Port.inOperation hport).trans rfl⟩
  obtain ⟨hst, hop⟩ := hdown
  have husable : ((s.setPortState p 0).port p).usable = false := by simp [Port.usable, hst]
  have hrest := (PortsServe.refl (s.setPortState p 0)).reroute p
  unfold State.changePort
  dsimp only
  rw [if_neg (by simp [husable])]
  exact ⟨hrest.1.trans hst, hrest.2.trans hop⟩

/-- A fabric port whose PLL loses lock goes DOWN, in operation (R410). -/
theorem pllLossOfLock_port {s : State} {p : Nat} (hp : p < s.ports.length) (h11 : p < 12) (hhold : s.dev.hold = 0)
    (hup : (s.port p).state ≠ 0) :
    ∃ t, exec (.pllLossOfLock (.fabricPort p)) s = .next t ∧ (t.port p).state = 0 ∧ (t.port p).inOperation = true ∧
      SameMemory s t := by
  have hrun : ¬(11 < p ∨ (s.port p).state = 0) := by simp [hup]; omega
  refine ⟨_, congrArg Host.Outcome.next ((if_neg (not_not.2 hhold)).trans (if_neg hrun)), ?_⟩
  have hlen : p < (s.setPort p fun x => { x with inOperation := true }).ports.length := (length_updNth ..).symm ▸ hp
  obtain ⟨hst, hop⟩ := changePort_down hlen
  refine ⟨hst, hop.trans (congrArg Port.inOperation (port_setPort_self _ hp)), ?_⟩
  exact Frame.sameMemory (F := sending) (Frame.changePort (Frame.setPort .refl (.of (.all _))) (.all _))

/-! ### Loss of lock and of a link (R382, R410) -/

theorem fatal_goFatal (s : State) (kind : Nat) : (s.goFatal kind).dev.fatal = true := by
  unfold State.goFatal
  extract_lets _ failed _ logged
  have hlogged : DevKept failed logged := by
    have h : DevKept failed failed := .refl failed
    exact h.devCause.log1
  have hcut : DevKept failed ((List.range 16).foldl (fun (s : State) b =>
      (s.unfinished b).foldl (fun s a => s.cutShort b .machineCheck a) s) (logged.useFree 1)) :=
    .foldl (s := logged.useFree 1) hlogged fun _ _ hs => hs.foldl fun _ _ ht => ht.cutShort
  rw [hcut.1]

theorem state_setFarState {s : State} {f : Nat} (st : Nat) (hf : f < s.far.length) :
    (nth (s.setFarState f st).far f).state = st := by
  unfold State.setFarState
  split
  · assumption
  · dsimp only
    rw [log1_devCause_frame]
    exact congrArg FarPort.state (nth_updNth_self _ _ hf)

/-- A far port whose PLL loses lock goes DOWN (R410). -/
theorem pllLossOfLock_farPort {s : State} {f : Nat} (hf : f < s.far.length) (h2 : f < 2) (hhold : s.dev.hold = 0) :
    ∃ t, exec (.pllLossOfLock (.farPort f)) s = .next t ∧ (nth t.far f).state = 0 ∧ SameMemory s t :=
  ⟨_, congrArg Host.Outcome.next ((if_neg (not_not.2 hhold)).trans (if_neg (by omega))), state_setFarState 0 hf,
    Frame.sameMemory (F := logging ||| far ||| bays)
      (Frame.holdBundles (Frame.setFarState .refl (.of (.all _))) (.of (.all _)))⟩

/-- Settles O49: each condition by the lemma about what it leaves. -/
theorem powerEventsAct : Obligations.PowerEventsAct := by
  unfold Obligations.PowerEventsAct
  intro s hp
  have hcounts := hp
  obtain ⟨-, -, -, hports, hfar, -⟩ := hcounts
  refine ⟨fun hup hready => ?_, fun v hv => ?_, fun hhold => ?_, fun mv hmv hhold => ?_, fun sensor reading hread hhold htrip => ?_,
    fun h1 h3 => ?_, rfl, fun hhold hlow => ?_, fun hhold q hq => ?_, fun p hp hhold hup => ?_, fun f hf hhold => ?_,
    fun l hhold hcap hdown => ?_⟩
  · obtain ⟨hhold, hready', hpower, hlink, hseq⟩ := powerOff_leaves s
    exact ⟨_, congrArg Host.Outcome.next (if_pos ⟨hup, hready, rfl⟩), hhold, hready', hpower, hlink, hseq⟩
  · exact congrArg Host.Outcome.next (if_neg fun h => hv h.2.2)
  · obtain ⟨hhold', -⟩ := powerOff_leaves s
    exact ⟨_, congrArg Host.Outcome.next (if_pos hhold), hhold'⟩
  · obtain ⟨t, ht, halarm, hhold', hvin, hlink, hpower⟩ := inputFault_stops hp hmv hhold
    exact ⟨t, ht, hhold', hvin, halarm.latched, hlink, hpower, halarm.keys⟩
  · obtain ⟨t, ht, halarm, hhold', hout⟩ := thermalTrip_stops (sensor := sensor) hp hread hhold htrip
    exact ⟨t, ht, hhold', halarm.thermtrip, halarm.latched, hout, halarm.keys⟩
  · obtain ⟨t, ht, halarm, hhold', hready⟩ := jtagInstructionLoad_stops hp h1 h3
    exact ⟨t, ht, hhold', halarm.latched, hready, halarm.keys⟩
  · have hcold := coldBoot_high hlow
    exact ⟨_, congrArg Host.Outcome.next (if_pos hhold), hcold.hold, hcold.stage, hcold.warm, hcold.bays, hcold.flash⟩
  · rcases List.mem_pair.1 hq with rfl | rfl
    · exact ⟨s.goFatal 19, congrArg Host.Outcome.next (if_neg (not_not.2 hhold)), fatal_goFatal s 19⟩
    · exact ⟨s.goFatal 19, congrArg Host.Outcome.next (if_neg (not_not.2 hhold)), fatal_goFatal s 19⟩
  · exact pllLossOfLock_port (hports.symm ▸ hp) hp hhold hup
  · exact pllLossOfLock_farPort (hfar.symm ▸ hf) hf hhold
  · exact congrArg Host.Outcome.next (if_neg (by rw [hdown]; simp [hhold, hcap]))

end Sys2Proof
end

section
/-! Alarms, the entropy source and licences (R313, R315 to R318, R371, R372). -/
namespace Sys2Proof
open Machine Fields

/-! ### Key alarms (R313) -/

theorem condition_raised (x : BitVec 4) {k : Nat} (hk : k ≤ 3) : (x ||| BitVec.ofNat 4 (2 ^ k)).getLsbD k = true := by
  rw [BitVec.getLsbD_or, BitVec.getLsbD_ofNat, Nat.testBit_two_pow_self]
  simp
  omega

/-- An alarm condition that newly arises latches, raises its condition and erases every key slot. -/
theorem newKeyAlarm {s : State} (hp : PartsCounted s) {k : Nat} (hk : k ≤ 3) (hhold : s.dev.hold ≠ 1)
    (hnew : s.dev.condition.getLsbD k = false) : ∃ t, exec (.keyAlarm k) s = .next t ∧
      Alarmed k s.dev.thermtrip t ∧ t.dev.condition.getLsbD k = true := by
  refine ⟨_, congrArg Host.Outcome.next (if_neg ?_), .of_keyAlarm hp (by omega) rfl, ?_⟩
  · simp [hhold, hnew]
    omega
  · rw [dev_keyAlarm]
    exact condition_raised _ hk

/-! ### The entropy source (R315 to R318) -/

/-- The TRNG after a failed test: no pool, a start-up ahead, stopped at the third failure in a row (R317). -/
def failedTrng (r : Trng) : Trng := { r with
  ready := false, stuck := decide (2 ≤ r.failures), failures := r.failures + 1, pool := [], reservations := [], run := (0, false) }

/-- A failed test ends the waiting reads; the third in a row is logged. -/
theorem trngFail_eq (s : State) : s.trngFail =
    let u := s.trng.reservations.foldl (fun s r => s.fail r.2 .notReady) { s with trng := failedTrng s.trng }
    if s.trng.failures + 1 = 3 then u.log1 { Rec.blank with code := 0x0171, kind := 18, die := 2, d0 := s.trng.failures + 1 }
    else u := by
  have hstuck : decide (3 ≤ s.trng.failures + 1) = decide (2 ≤ s.trng.failures) := by
    rw [decide_eq_decide]
    omega
  unfold State.trngFail failedTrng
  dsimp only
  rw [hstuck]

theorem trng_fail (s : State) (adm : Nat) (st : Status) : (s.fail adm st).trng = s.trng := by
  unfold State.fail
  rw [State.finish_frame]

theorem trng_foldl_fail (rs : List (Nat × Nat)) (s : State) :
    (rs.foldl (fun s r => s.fail r.2 .notReady) s).trng = s.trng :=
  List.foldlRecOn rs (fun (s : State) (r : Nat × Nat) => s.fail r.2 .notReady) (motive := fun t => t.trng = s.trng) rfl
    fun t ht r _ => (trng_fail t r.2 .notReady).trans ht

/-- The record of the third failure leaves the TRNG, the commands and memory. -/
theorem Frame.log1_if {s : State} {c : Prop} [Decidable c] (e : Rec) : Frame logging s (if c then s.log1 e else s) :=
  Frame.ite (Frame.log1 .refl (.all _)) .refl

theorem trng_trngFail (s : State) : s.trngFail.trng = failedTrng s.trng := by
  rw [trngFail_eq]
  dsimp only
  rw [(Frame.log1_if _).trng_eq (by decide), trng_foldl_fail]

/-- With no read waiting a failed test ends no command. -/
theorem frame_trngFail {s : State} (h : s.trng.reservations = []) : Frame (logging ||| trng) s s.trngFail := by
  rw [trngFail_eq, h]
  have hF : Has (logging ||| trng) (logging ||| trng) := .all _
  exact .ite (.log1 (.setTrng .refl)) (.setTrng .refl)

/-- The one read that waits ends NOT_READY. -/
theorem ended_trngFail {s : State} {c : Slot} {b : Nat} (hres : s.trng.reservations = [(b, c.adm)])
    (hs : s.slot? c.adm = some c) (hp : c.phase = .active) : Ended s.trngFail c .notReady 0 := by
  rw [trngFail_eq, hres]
  have hend : Ended (({ s with trng := failedTrng s.trng } : State).finishNat c.adm .notReady 0) c .notReady 0 :=
    ended_of_active .notReady 0 hs hp
  refine hend.of_slot?_eq ?_
  unfold State.slot?
  exact congrArg (List.find? _) ((Frame.log1_if _).cmds_eq (by decide))

/-- A window that fails a test is a failed test. -/
theorem exec_trngOutput_bad {s : State} {xs : List Bool} (hlen : xs.length = 1024) (hready : s.trng.ready = true)
    (hbad : repeats 41 xs s.trng.run.1 s.trng.run.2 = true ∨ proportionOk xs = false) :
    exec (.trngOutput xs) s = .next s.trngFail := by
  have hfail : (repeats 41 xs s.trng.run.1 s.trng.run.2 || !proportionOk xs) = true := by simpa using hbad
  exact congrArg Host.Outcome.next ((if_pos ⟨hready, hlen⟩).trans (if_pos hfail))

/-- A window that passes both tests enters a pool with room for it. -/
theorem exec_trngOutput_good {s : State} {xs : List Bool} (hlen : xs.length = 1024) (hready : s.trng.ready = true)
    (hres : s.trng.reservations = []) (hroom : s.trng.pool.length + 32 ≤ 16384)
    (hrep : repeats 41 xs s.trng.run.1 s.trng.run.2 = false) (hprop : proportionOk xs = true) :
    exec (.trngOutput xs) s = .next { s with trng := { s.trng with
      pool := s.trng.pool ++ sha256 (sampleBytes xs), run := endRun xs s.trng.run.1 s.trng.run.2 } } := by
  have hpass : ¬(repeats 41 xs s.trng.run.1 s.trng.run.2 || !proportionOk xs) = true := by simp [hrep, hprop]
  have hserve : ∀ u : State, u.trng.reservations = [] → u.serveAll u.trng.reservations.length = u := fun u hu => by
    rw [hu]
    rfl
  refine congrArg Host.Outcome.next ((if_pos ⟨hready, hlen⟩).trans ((if_neg hpass).trans ((if_pos hroom).trans ?_)))
  exact hserve _ hres

/-! ### Licences (R371, R372) -/

theorem mem_storeLicence (store : List (List Byte)) (l : List Byte) : l ∈ storeLicence store l := by
  unfold storeLicence
  extract_lets
  split
  · exact List.mem_append_right _ (List.mem_singleton_self l)
  · exact List.mem_append_right _ (List.mem_singleton_self l)

/-- The licence in the store, the features following it. -/
def licenceStored (s : State) (l : List Byte) : State :=
  ({ s with flash := { s.flash with licences := storeLicence s.flash.licences l } } : State).refreshLicence

/-- A licence that passes every check is stored, and the features follow the store. -/
theorem licenceInstallEff_stores {s : State} {a : Nat} {l : List Byte} (hl : l = s.readLoc (hostLoc 0 a) 128)
    (hhost : s.hostOk 0 a 128 = true) (hfields : s.licenceFields l = true) (huid : leAt l 8 16 = s.factory.uid)
    (hsig : edVerify (nth s.factory.romKeys (byteAt l 6)) (l.take 64) (l.drop 64) = true)
    (hserial : ∀ x ∈ s.flash.licences, leAt x 0x18 4 < leAt l 0x18 4)
    (hwindow : s.licenceTime < leAt l 0x28 8 ∨ leAt l 0x28 8 = 2 ^ 64 - 1) :
    State.licenceInstallEff a 128 s = (licenceStored s l, .ok, (licenceStored s l).licencesByte) := by
  have hnew : s.flash.licences.any (fun x => decide (leAt l 0x18 4 ≤ leAt x 0x18 4)) = false := by
    rw [List.any_eq_false]
    intro x hx
    have := hserial x hx
    simp
    omega
  unfold State.licenceInstallEff
  rw [← hl]
  simp only [hhost, hfields, huid, hsig, hnew, hwindow, Bool.not_true, Bool.false_eq_true, ne_eq, not_true, or_self, if_false]
  rfl

/-- The end of the command leaves what the installation did. -/
theorem licenceInstall_ends {s : State} {c : Slot} {h : Hdr} {a n : Nat} {u : State} {r : Nat}
    (hr : Running s c (.licenceInstall h a n)) (heff : State.licenceInstallEff a n s = (u, .ok, r))
    (hcmds : u.cmds = s.cmds) :
    ∃ t, exec (.licenceInstall h a n) s = .next t ∧ Ended t c .ok r ∧ Frame ending u t := by
  have hslot : u.slot? c.adm = s.slot? c.adm := congrArg (List.find? _) hcmds
  obtain ⟨t, ht, hended, -⟩ := hr.completes rfl rfl rfl heff hslot
  refine ⟨t, ht, hended, ?_⟩
  cases ht.symm.trans (hr.exec_completes rfl rfl rfl heff)
  exact .finishNat .refl (.all _)

/-- Settles O42: alarms by the erasure of the keys, the source by its two tests, licences by their one check chain. -/
theorem alarmsAndEntropyAct : Obligations.AlarmsAndEntropyAct := by
  unfold Obligations.AlarmsAndEntropyAct
  intro s hp
  have hfailed : s.trng.reservations = [] → failedTrng s.trng = { s.trng with
      ready := false, stuck := decide (2 ≤ s.trng.failures), failures := s.trng.failures + 1, pool := [], run := (0, false) } :=
    fun hres => by simp [failedTrng, hres]
  refine ⟨fun k hk hhold hnew => ?_, fun xs hlen hready hres hroom hrep hprop => ?_, fun xs hlen hready hres hbad => ?_,
    fun hres => ?_, fun c b hres hs hp => ?_, fun hstuck hhold => ?_, ?_, ⟨_, rfl, rfl, rfl⟩⟩
  · obtain ⟨t, ht, halarm, hcond⟩ := newKeyAlarm hp hk hhold hnew
    exact ⟨t, ht, halarm.latched, halarm.erased, hcond, halarm.keys⟩
  · exact exec_trngOutput_good hlen hready hres hroom hrep hprop
  · exact ⟨_, exec_trngOutput_bad hlen hready hbad, (trng_trngFail s).trans (hfailed hres)⟩
  · have hframe := frame_trngFail hres
    exact ⟨_, rfl, (trng_trngFail s).trans (hfailed hres), hframe.sameMemory, hframe.cmds_eq (by decide)⟩
  · exact ⟨_, rfl, congrArg Trng.reservations (trng_trngFail s), ended_trngFail hres hs hp⟩
  · exact congrArg Host.Outcome.next (if_neg (by simp [hstuck, hhold]))
  · intro c h a l kept hr hhost hfields huid hsig hserial hwindow
    have heff := licenceInstallEff_stores rfl hhost hfields huid hsig hserial hwindow
    obtain ⟨t, ht, hended, hend⟩ := licenceInstall_ends hr heff rfl
    have hflash : t.flash = { s.flash with licences := kept } := hend.flash_eq (by decide)
    have heffFeat : t.effFeat = effectiveFeatures kept s.licenceTime := hend.effFeat_eq (by decide)
    have hbootFeat : t.bootFeat = s.bootFeat := hend.bootFeat_eq (by decide)
    have hbyte : t.licencesByte = (licenceStored s l).licencesByte := by
      unfold State.licencesByte
      rw [heffFeat, hbootFeat]
      rfl
    refine ⟨t, ht, exec_sameMemory ht, hbyte ▸ hended, hflash, ?_, heffFeat, hbootFeat⟩
    rw [hflash]
    exact mem_storeLicence _ l

end Sys2Proof
end

section
/-! Checkpoint commands: what the statement claims of a CKPT_CUT at a step boundary does not hold in every state. -/
namespace Sys2Proof
open Machine

/-! ### A second command under the number of a CKPT_CUT

Bay 0 has a map of one member and no tensors, a CKPT_CUT runs, and a STEP_UPDATE that still waits for its dispatch stands
under the CKPT_CUT's own admission number. Before the CKPT_CUT begins the bay is at a step boundary, for only a dispatched
STEP_UPDATE keeps it from one (R321). But CKPT_CUT begins its command by its number, and so begins the STEP_UPDATE too: the
bay is no longer at a boundary, and the cut waits instead of copying. No run comes to such a state, since admission numbers
rise (R154); but the statement quantifies over every state whose parts are counted, and has no hypothesis on the numbers of
the commands. -/

/-- A layout without kerf pages. -/
def noKerf : CutBlk := ⟨false, 0, 0, 0, 0⟩

def cutAtBoundary : Slot := { updateWithGather with instr := .ckptCut updateWithGather.hdr 0 noKerf }

def heldUpdate : Slot := { updateWithGather with phase := .held }

def cutMeetsUpdate : State := { State.reset with cmds := [cutAtBoundary, heldUpdate], nextAdm := 1 }.setTrain 0
  (fun tr => { tr with map := some soleMember })

/-- The state has its parts, its CKPT_CUT runs and may be taken, and its bay is at a step boundary. -/
theorem cutMeetsUpdate_ready : PartsCounted cutMeetsUpdate ∧ Running cutMeetsUpdate cutAtBoundary cutAtBoundary.instr ∧
    cutMeetsUpdate.cutCheck 0 0 noKerf = none ∧ (cutMeetsUpdate.boundary 0).isSome := by
  refine ⟨PartsCounted.setBay (PartsCounted.of_lengths .reset) fun y hy => hy.of_lengths, ?_, ?_, ?_⟩
  · decide +kernel
  · decide +kernel
  · decide +kernel

/-- The cut waits for a boundary. -/
theorem cutMeetsUpdate_waits : ∃ u, exec cutAtBoundary.instr cutMeetsUpdate = .next u ∧
    (u.bay 0).ckpt.cut.map (·.st) = some .pending :=
  ⟨_, rfl, by decide +kernel⟩

/-- Refutes O40: where a STEP_UPDATE waits under the number of a CKPT_CUT, the CKPT_CUT at a step boundary begins both, and
its cut is PENDING, not COPYING. -/
theorem not_checkpointCommandsComplete : ¬ Obligations.CheckpointCommandsComplete := by
  unfold Obligations.CheckpointCommandsComplete
  intro h
  obtain ⟨hparts, hrunning, hcheck, hboundary⟩ := cutMeetsUpdate_ready
  obtain ⟨step, hstep⟩ := Option.isSome_iff_exists.1 hboundary
  obtain ⟨hcut, -⟩ := h cutMeetsUpdate cutAtBoundary updateWithGather.hdr 0 hparts rfl (by decide)
  obtain ⟨-, htaken⟩ := hcut 0 noKerf hrunning hcheck
  obtain ⟨t, k, hexec, -, -, hk, -, -, -, -, hcopies⟩ := htaken rfl
  obtain ⟨u, hu, hpending⟩ := cutMeetsUpdate_waits
  obtain ⟨hcopying, -⟩ := hcopies step hstep
  cases hexec.symm.trans hu
  rw [hk, Option.map_some, hcopying] at hpending
  cases hpending

end Sys2Proof
end
